-- ==== Sys2Proof/Word.lean ====
section
/-! DEFINITION. The words of the model: a register word, a byte, a 64-byte row (R221, R224), the sorted key and value
lists that hold sparse state. -/

namespace Sys2Proof

/-- A 64-bit register or memory word (R4). -/
abbrev Word := BitVec 64

/-- A byte; multi-byte values are little-endian (R3). -/
abbrev Byte := BitVec 8

/-- A 64-byte row: a token's payload, a memory row, a descriptor (R107, R221, R394). -/
abbrev Row := BitVec 512

/-- Sparse state by key: strictly rising keys, at most one value each. What an unlisted key holds is said where the map
is used. -/
abbrev FMap (α : Type) := List (Nat × α)

end Sys2Proof
end

