-- ==== Sys2Proof/Types.lean ====
section
/-! DEFINITION. The operand types of the commands: the device's numbered things (tiles, slots, queues, ports, stacks,
sites), tokens, and who writes a register. -/

namespace Sys2Proof

/-- A logical tile ID: [8] half, [7:4] row, [3:0] column (R18). -/
abbrev TileId := BitVec 9

/-- An operator slot, 0–31 (Table 6-4). -/
abbrev SlotId := BitVec 5

/-- A queue of a tile, 0–127 (R107). -/
abbrev QueueId := BitVec 7

/-- A link port in the order +X −X +Y −Y +Z −Z +W −W, then sheaf ports 0–6 (Table 9-2). -/
abbrev PortId := Fin 15

/-- A stack, 0–7 (R21). -/
abbrev StackId := Fin 8

/-- A field site: half × 4 + site (R19). -/
abbrev SiteId := Fin 8

/-- A field instance of a site, 0–63 (Table 6-8). -/
abbrev InstId := BitVec 6

/-- A control-core operator of a tile, 0–7 (Table 5-1). -/
abbrev OpId := Fin 8

/-- A lane group of a vector engine, 0–15 (R186). -/
abbrev GroupId := BitVec 4

/-- A half: `false` west, `true` east (R18). -/
abbrev HalfId := Bool

/-- A tenancy scope: the whole device, or one half of it (R443). -/
inductive Scope where
  | whole | west | east
  deriving DecidableEq, Repr

/-- Who makes a register access: an operator or claim session, the tenant of a scope (a session or a BAR), Uhlea itself,
or the control core of a tile (R5, R419, R454). -/
inductive Who where
  | operator | claim | tenant (s : Scope) | uhlea | core (t : TileId)
  deriving DecidableEq, Repr

/-- A token: its tag (kind, epoch, SEQ) and its 64-byte payload (R107–R111). -/
structure Token where
  kind : BitVec 3
  epoch : Bool
  seq : BitVec 12
  payload : Row
  deriving DecidableEq, Repr

/-- What the (72,64) code meets when a word is read (R236–R238): nothing, one flipped bit, damage within one aligned
nibble, heavier damage, or an error the stack's own on-die code has corrected (Table 9-7). -/
inductive RdErr where
  | none | single | nibble | heavy | onDie
  deriving DecidableEq, Repr

/-- A frame as a port receives it (Table 13-2), with what the FEC found in its codewords: 0 nothing, 1 corrected errors, 2 an
uncorrectable codeword (R321), and the symbol errors found by lane. `rsv` is the reserved bit. -/
structure Frame where
  kind : BitVec 4
  sched : Bool
  last : Bool
  vc : BitVec 2
  units : BitVec 5
  slot : BitVec 2
  rsv : Bool
  hopSrc : BitVec 16
  seq : BitVec 16
  xfer : BitVec 16
  poison : BitVec 16
  void : BitVec 16
  crc : BitVec 32
  fec : Fin 3
  lanes : List Nat
  payload : List Row
  deriving DecidableEq, Repr

/-- The partner's identity as the ADMIT frame that completes it gives it (Table 13-5), with what the checks of the
certificate chain and of the signature found (R329). -/
structure Ident where
  claimed : BitVec 16
  port : BitVec 4
  state : BitVec 3
  serial : Word
  profile : BitVec 2
  sealReq : Bool
  sealLicence : Bool
  chainOk : Bool
  deriving DecidableEq, Repr

/-- A bounded transfer: its header unit (Table 14-1; `rsv`: a reserved bit is set) and its payload units, each with whether it
is POISON. -/
structure Xfer where
  op : BitVec 8
  flags : BitVec 8
  tenant : BitVec 16
  origin : BitVec 16
  target : BitVec 16
  index : BitVec 32
  units : BitVec 32
  addr : BitVec 48
  src : BitVec 48
  operand : Word
  compare : Word
  len : BitVec 32
  status : BitVec 8
  rflags : BitVec 8
  rsv : Bool
  rows : List (Row × Bool)
  deriving DecidableEq, Repr

/-- A vote contribution or result (R363). `tick` is the low 24 bits of the completion tick in a result. -/
structure VoteEntry where
  tenant : BitVec 16
  id : BitVec 32
  count : BitVec 24
  size : BitVec 24
  vand : Bool
  or0 : Bool
  or1 : Bool
  result : Bool
  tick : BitVec 24
  deriving DecidableEq, Repr

/-- Management traffic a MGMT frame relays: a command descriptor of the fabric master with how many wait before it, a loss
report of a job (`recover`: its image has RECOVER set) about a lost device, or without one when the reporter's own run has ended with
commit bits set, a request for a tensor's digest (R382), or other traffic. -/
inductive Relay where
  | command (desc : Row)
  | loss (tag : BitVec 16) (lost : Option (BitVec 16)) (recover : Bool)
  | other (body : Row)
  | digest (asker tensor : BitVec 16)
  deriving DecidableEq, Repr

/-- What a peer answers in the survival handshake (R373): its fabric ID, whether it could be reached, FEED_ID[3:0], tenant tag,
PAR_GROUPS, CADENCE, for each pairing (its owner's fabric ID and tensor, 0xFFFF for an image) the ingots it declares and the step
its CUR header shows, and the step of the CUR parity ingots this device contributes to. -/
structure Peer where
  id : BitVec 16
  reached : Bool
  feed : BitVec 4
  tag : BitVec 16
  groups : Nat
  cadence : Nat
  pairs : List (Nat × Nat × Nat × Nat)
  parStep : Nat
  deriving DecidableEq, Repr

/-- The CUR copy that a holder sends: the state and step of its header, its ingot digests, its ingots (R374). -/
structure CopyAt where
  state : Nat
  step : Nat
  digests : List Nat
  ingots : List (List Byte)
  deriving DecidableEq, Repr

/-- A tensor to restore (R383): its index; the copies of the primary and the alternate holder (`none`: the holder is lost); the stripe parity
and the units of the six other contributors, each as ingots, as they stood at N_r (empty where one is missing), and the digests rebuilt;
the data and the tensor digest of a replica that is alive. -/
structure Restore where
  tensor : BitVec 16
  primary : Option CopyAt
  alternate : Option CopyAt
  units : List (List (List Byte))
  rebuilt : List Nat
  twin : Option (List (List Byte))
  replica : Option Nat
  deriving DecidableEq, Repr

/-- The order of a recovery step to one job device (Table 15-3): the status of a recovery that has failed (0: none); the lost devices;
whether the round whose outcome the device does not know was a seal; the owners whose pending copies are adopted (`true`) or
discarded; N_r; the image for a returned device; the tensors to restore; the sources whose XOR is the state ingot; the parity ingots to
recompute, each from the units of the other ranks. -/
structure Order where
  failed : BitVec 8
  lost : List (BitVec 16)
  sealed : Bool
  owners : List (BitVec 16 × Bool)
  resume : Nat
  image : Option (List Byte)
  restores : List Restore
  state : List (List Byte)
  parity : List (Nat × List (List Byte))
  deriving DecidableEq, Repr

/-- What identifies the pass a transfer belongs to: step number, pass index, replay count (R275). -/
structure PassId where
  step : Nat
  index : Nat
  replays : Nat
  deriving DecidableEq, Repr

/-- An input of a pass from another device (R275): the sender's fabric ID and the stream's XFER, the pass index the transfers carry, how
many of them the pass reads. -/
structure PassInput where
  peer : BitVec 16
  xfer : BitVec 16
  index : Nat
  transfers : Nat
  deriving DecidableEq, Repr

/-- The header of a management message (Table 17-4): whether MAGIC and VERSION are right, its SEQ, TAG and LENGTH, whether a reserved
byte is nonzero. -/
structure MsgHdr where
  good : Bool
  seq : Word
  tag : BitVec 32
  len : Nat
  rsv : Bool
  deriving DecidableEq, Repr

/-- What a frame says, beside its header (Table 13-3). -/
inductive FrameBody where
  | none
  | data
  | credit (ack : BitVec 16) (nak : Option (BitVec 16)) (credits : List Nat)
  | vote (es : List VoteEntry)
  | identity (ident : Option Ident)
  | delay (echo : Bool) (rtt turnaround : Nat)
  | state (ps code : BitVec 3) (half : Bool) (spare : BitVec 4) (child : Bool)
  | refuse (status : BitVec 8) (x : Xfer)
  | mgmt (target : BitVec 16) (m : Relay)
  | stamp (count : Word) (depth : BitVec 8) (lock : BitVec 3) (offset : BitVec 32)
  deriving DecidableEq, Repr

end Sys2Proof
end

