-- ==== Sys2Proof/Syntax.lean ====
section
/-! DEFINITION. The commands: one constructor per row of opcode_table.json, in the table's order. -/

namespace Sys2Proof

/-- The commands the block takes, one per row of the opcode table; the docstring gives the row's rule, and names the
operands that stand for what the outside of the device contributes. -/
inductive Instr where
  /-- REGISTER_WRITE (R7). `who` writes `width` bits with the value `v` at register-space offset `off`; `hw` holds the W1C bits of that register that hardware sets in the same cycle (R8). -/
  | registerWrite (who : Who) (off : BitVec 32) (width : Nat) (v hw : Word)
  /-- REF_LOST (R33). 64 reference periods have passed without a valid edge. -/
  | refLost
  /-- REF_VALID (R43). The reference has been valid for 1,024 ticks. -/
  | refValid
  /-- TICK (R34). A tick boundary. -/
  | tick
  /-- STAMP_RECEIVED (R39). A STAMP frame `f` arrives on port `p` with the sender's count, depth and lock state; `offset` is the measured offset of the local tick boundary from the sender's, in 1/8 core cycle, two's complement. -/
  | stampReceived (p : PortId) (f : Frame) (count : Word) (depth : BitVec 8) (lock : BitVec 3) (offset : BitVec 32)
  /-- SCHED_CLASS_RESTORED (R42). The offset has stayed within ±16 core cycles for 16 consecutive ticks. -/
  | schedClassRestored
  /-- STAMP_LOST (R38). 16 stamps from the parent are missed, or 16 ticks have passed in ACQUIRE without one. -/
  | stampLost
  /-- HOLD_EXPIRED (R43). 4,096 ticks have passed in HOLDOVER without a valid stamp. -/
  | holdExpired
  /-- RELOCK (R43). `who` writes 1 to TAL_CTRL.RELOCK. -/
  | relock (who : Who)
  /-- SCHED_OFF (R53). `who` writes `v` to TAL_CTRL.SCHED_OFF. -/
  | schedOff (who : Who) (v : Bool)
  /-- EXEC_AT_START (R46). The tick of the pending entry `seq` of the ledger of half `h` begins. -/
  | execAtStart (h : HalfId) (seq : Word)
  /-- SCHEDULED_SLOT (R53). The port and its slot whose first payload cycle has come. -/
  | scheduledSlot (p : PortId) (slot : BitVec 2)
  /-- STATIONARY_LOAD (R77). The stationary load of a block, by its path index, of a field instance is asked for; its bytes stand in scratchpad from `src`, the elements in row-major order and then, for an MX format, two scales of each column; the stream engine in `slot` of tile `t` asks. -/
  | stationaryLoad (site : SiteId) (inst : InstId) (block : BitVec 6) (src : BitVec 48) (t : TileId) (slot : SlotId)
  /-- STATIONARY_LOAD_DONE (R78). The last byte of the block's load arrives; `errs` holds what the code met at each word read. -/
  | stationaryLoadDone (site : SiteId) (inst : InstId) (block : BitVec 6) (errs : List RdErr)
  /-- FIELD_RUN_START (R92). The instance reaches the first digit of a run's slot 0. -/
  | fieldRunStart (site : SiteId) (inst : InstId)
  /-- FIELD_SLOT (R87). The run's next moving slot passes; `odd` says that the run's last slot carries no odd vector (R61). -/
  | fieldSlot (site : SiteId) (inst : InstId) (odd : Bool)
  /-- TOKEN_ARRIVAL (R112). A token arrives at a queue: the oldest in flight to it, or `tok`, which the network delivers in its stead. -/
  | tokenArrival (t : TileId) (q : QueueId) (tok : Option Token)
  /-- CREDIT_RETURN (R116). A freed credit of the queue reaches its producer. -/
  | creditReturn (t : TileId) (q : QueueId)
  /-- SWITCH_FIRE (R123). The switch in the slot fires. -/
  | switchFire (t : TileId) (slot : SlotId)
  /-- MERGE_CONTROLLED_FIRE (R123). The controlled merge in the slot fires. -/
  | mergeControlledFire (t : TileId) (slot : SlotId)
  /-- MERGE_ROTATION_FIRE (R123). The rotation merge in the slot fires. -/
  | mergeRotationFire (t : TileId) (slot : SlotId)
  /-- REPEAT_CONTROLLED_FIRE (R124). The controlled repeat in the slot fires. -/
  | repeatControlledFire (t : TileId) (slot : SlotId)
  /-- REPEAT_STATIC_FIRE (R124). The static repeat in the slot fires. -/
  | repeatStaticFire (t : TileId) (slot : SlotId)
  /-- DROP_CONTROLLED_FIRE (R123). The controlled drop in the slot fires. -/
  | dropControlledFire (t : TileId) (slot : SlotId)
  /-- DROP_STATIC_FIRE (R126). The static drop in the slot fires. -/
  | dropStaticFire (t : TileId) (slot : SlotId)
  /-- FORK_FIRE (R127). The fork in the slot fires. -/
  | forkFire (t : TileId) (slot : SlotId)
  /-- STALL_LONG (R122). A configured unit has been idle for TIL_DF_CTRL.STALL_LIMIT ticks without a break. -/
  | stallLong (t : TileId) (slot : SlotId)
  /-- CNT_CLEAR (R137). `who` writes 1 to TIL_DF_CTRL.CNT_CLEAR; `hw` holds the bits of TIL_DF_EVENT that hardware sets in the same cycle (R10). -/
  | cntClear (who : Who) (t : TileId) (hw : Word)
  /-- COMMAND_SUBMIT (R392). A descriptor of source `src` arrives at that source's queue: for sources 0 and 1 in a COMMAND message with header `m` of management session `session`; for source 2 only the last 8 bytes are written (CMD_SUB7), the others stand in CMD_SUB0–6 (R407). -/
  | commandSubmit (src : Fin 4) (session : Nat) (m : MsgHdr) (desc : Row)
  /-- NOP (R395). Entry `seq` of the ledger of half `h` comes to its start. -/
  | nop (h : HalfId) (seq : Word)
  /-- LOAD (R147). The entry; the image as the feed window or another device delivers it (SRC_KIND 1, 2), and the status with which that device fails when it delivers fewer bytes; what the code meets in the words of a local source. -/
  | load (h : HalfId) (seq : Word) (src : List Byte) (fail : BitVec 8) (es : List RdErr)
  /-- STAGE (R148). Entry `seq` of the ledger of half `h` comes to its start. -/
  | stage (h : HalfId) (seq : Word)
  /-- CONFIG_MESSAGE (R149). The oldest configuration message on its way to the tile arrives. -/
  | configMessage (t : TileId)
  /-- MARK_ARRIVAL (R151). A MARK arrives at a queue: the oldest token in flight, or `tok` in its stead. -/
  | markArrival (t : TileId) (q : QueueId) (tok : Option Token)
  /-- INPUT_CLOSE (R152). A MARK is at the head of a live input of the unit. -/
  | inputClose (t : TileId) (slot : SlotId) (input : Fin 8)
  /-- UNIT_SWAP (R153). The unit has closed every live input and holds its shadow. -/
  | unitSwap (t : TileId) (slot : SlotId)
  /-- STREAM_WALK_START (R163). The engine bound to the slot starts a walk. -/
  | streamWalkStart (t : TileId) (slot : SlotId)
  /-- ROW_FETCH (R165). The reader in the slot issues its next row fetch. -/
  | rowFetch (t : TileId) (slot : SlotId)
  /-- MEMORY_ROW_RETURN (R165). The k-th outstanding row of the reader, one of this device's memory, returns: `errs` holds what the code met at its words. -/
  | memoryRowReturn (t : TileId) (slot : SlotId) (k : Nat) (errs : List RdErr)
  /-- STREAM_READER_FIRE (R529). The reader's next token or row, in walk order, leaves; of an MX row on a field feed, `scale` is the address of its scales (R68, R226) and `errs` what the code met at their words. -/
  | streamReaderFire (t : TileId) (slot : SlotId) (scale : BitVec 48) (errs : List RdErr)
  /-- STREAM_WRITER_FIRE (R174). The writer takes a token for its walk's next row. -/
  | streamWriterFire (t : TileId) (slot : SlotId)
  /-- STREAM_WALK_END (R154). The walk's last row and token have gone. -/
  | streamWalkEnd (t : TileId) (slot : SlotId)
  /-- TILL_REQUEST (R175). A till request reaches the slice of tile `t`; `err` is what the code met at its word. -/
  | tillRequest (t : TileId) (err : RdErr)
  /-- TILL_REPLY (R175). The till reply reaches the operator. -/
  | tillReply (t : TileId) (slot : SlotId)
  /-- VECTOR_FIRE (R186). The vector operator in the slot fires; `vsete` is a value a control core's VSETE writes to its element counter in the same cycle. -/
  | vectorFire (t : TileId) (slot : SlotId) (vsete : Option Word)
  /-- VECTOR_OUTPUT (R187). The operator's oldest finished firing writes its output tokens. -/
  | vectorOutput (t : TileId) (slot : SlotId)
  /-- VX_ADD (R192). The firing on lane group `g` executes its ADD instruction. -/
  | vxAdd (t : TileId) (g : GroupId)
  /-- VX_SUB (R192). The firing on lane group `g` executes its SUB instruction. -/
  | vxSub (t : TileId) (g : GroupId)
  /-- VX_MUL (R192). The firing on lane group `g` executes its MUL instruction. -/
  | vxMul (t : TileId) (g : GroupId)
  /-- VX_FMA (R192). The firing on lane group `g` executes its FMA instruction. -/
  | vxFma (t : TileId) (g : GroupId)
  /-- VX_MAX (R193). The firing on lane group `g` executes its MAX instruction. -/
  | vxMax (t : TileId) (g : GroupId)
  /-- VX_MIN (R193). The firing on lane group `g` executes its MIN instruction. -/
  | vxMin (t : TileId) (g : GroupId)
  /-- VX_ABS (R192). The firing on lane group `g` executes its ABS instruction. -/
  | vxAbs (t : TileId) (g : GroupId)
  /-- VX_NEG (R192). The firing on lane group `g` executes its NEG instruction. -/
  | vxNeg (t : TileId) (g : GroupId)
  /-- VX_EXP2 (R194). The firing on lane group `g` executes its EXP2 instruction. -/
  | vxExp2 (t : TileId) (g : GroupId)
  /-- VX_LOG2 (R194). The firing on lane group `g` executes its LOG2 instruction. -/
  | vxLog2 (t : TileId) (g : GroupId)
  /-- VX_RCP (R194). The firing on lane group `g` executes its RCP instruction. -/
  | vxRcp (t : TileId) (g : GroupId)
  /-- VX_RSQRT (R194). The firing on lane group `g` executes its RSQRT instruction. -/
  | vxRsqrt (t : TileId) (g : GroupId)
  /-- VX_CMPEQ (R192). The firing on lane group `g` executes its CMPEQ instruction. -/
  | vxCmpeq (t : TileId) (g : GroupId)
  /-- VX_CMPLT (R192). The firing on lane group `g` executes its CMPLT instruction. -/
  | vxCmplt (t : TileId) (g : GroupId)
  /-- VX_CMPLE (R192). The firing on lane group `g` executes its CMPLE instruction. -/
  | vxCmple (t : TileId) (g : GroupId)
  /-- VX_SEL (R192). The firing on lane group `g` executes its SEL instruction. -/
  | vxSel (t : TileId) (g : GroupId)
  /-- VX_AND (R192). The firing on lane group `g` executes its AND instruction. -/
  | vxAnd (t : TileId) (g : GroupId)
  /-- VX_OR (R192). The firing on lane group `g` executes its OR instruction. -/
  | vxOr (t : TileId) (g : GroupId)
  /-- VX_XOR (R192). The firing on lane group `g` executes its XOR instruction. -/
  | vxXor (t : TileId) (g : GroupId)
  /-- VX_SHL (R192). The firing on lane group `g` executes its SHL instruction. -/
  | vxShl (t : TileId) (g : GroupId)
  /-- VX_SHR (R192). The firing on lane group `g` executes its SHR instruction. -/
  | vxShr (t : TileId) (g : GroupId)
  /-- VX_SAR (R192). The firing on lane group `g` executes its SAR instruction. -/
  | vxSar (t : TileId) (g : GroupId)
  /-- VX_IADD (R192). The firing on lane group `g` executes its IADD instruction. -/
  | vxIadd (t : TileId) (g : GroupId)
  /-- VX_ISUB (R192). The firing on lane group `g` executes its ISUB instruction. -/
  | vxIsub (t : TileId) (g : GroupId)
  /-- VX_IMUL (R192). The firing on lane group `g` executes its IMUL instruction. -/
  | vxImul (t : TileId) (g : GroupId)
  /-- VX_IMAX (R192). The firing on lane group `g` executes its IMAX instruction. -/
  | vxImax (t : TileId) (g : GroupId)
  /-- VX_IMIN (R192). The firing on lane group `g` executes its IMIN instruction. -/
  | vxImin (t : TileId) (g : GroupId)
  /-- VX_CVTI (R197). The firing on lane group `g` executes its CVTI instruction. -/
  | vxCvti (t : TileId) (g : GroupId)
  /-- VX_CVTO (R197). The firing on lane group `g` executes its CVTO instruction. -/
  | vxCvto (t : TileId) (g : GroupId)
  /-- VX_OUT (R192). The firing on lane group `g` executes its OUT instruction. -/
  | vxOut (t : TileId) (g : GroupId)
  /-- VX_IOTA (R201). The firing on lane group `g` executes its IOTA instruction. -/
  | vxIota (t : TileId) (g : GroupId)
  /-- VX_RED (R203). The firing on lane group `g` executes its RED instruction. -/
  | vxRed (t : TileId) (g : GroupId)
  /-- VX_RSM (R205). The firing on lane group `g` executes its RSM instruction. -/
  | vxRsm (t : TileId) (g : GroupId)
  /-- VX_RSF (R205). The firing on lane group `g` executes its RSF instruction. -/
  | vxRsf (t : TileId) (g : GroupId)
  /-- VX_RSL (R205). The firing on lane group `g` executes its RSL instruction. -/
  | vxRsl (t : TileId) (g : GroupId)
  /-- VX_RSGET (R205). The firing on lane group `g` executes its RSGET instruction. -/
  | vxRsget (t : TileId) (g : GroupId)
  /-- CC_ADD (R209). The operator in the slot issues its ADD instruction. -/
  | ccAdd (t : TileId) (slot : SlotId)
  /-- CC_SUB (R209). The operator in the slot issues its SUB instruction. -/
  | ccSub (t : TileId) (slot : SlotId)
  /-- CC_AND (R209). The operator in the slot issues its AND instruction. -/
  | ccAnd (t : TileId) (slot : SlotId)
  /-- CC_OR (R209). The operator in the slot issues its OR instruction. -/
  | ccOr (t : TileId) (slot : SlotId)
  /-- CC_XOR (R209). The operator in the slot issues its XOR instruction. -/
  | ccXor (t : TileId) (slot : SlotId)
  /-- CC_SLL (R209). The operator in the slot issues its SLL instruction. -/
  | ccSll (t : TileId) (slot : SlotId)
  /-- CC_SRL (R209). The operator in the slot issues its SRL instruction. -/
  | ccSrl (t : TileId) (slot : SlotId)
  /-- CC_SRA (R209). The operator in the slot issues its SRA instruction. -/
  | ccSra (t : TileId) (slot : SlotId)
  /-- CC_SLT (R209). The operator in the slot issues its SLT instruction. -/
  | ccSlt (t : TileId) (slot : SlotId)
  /-- CC_SLTU (R209). The operator in the slot issues its SLTU instruction. -/
  | ccSltu (t : TileId) (slot : SlotId)
  /-- CC_MUL (R209). The operator in the slot issues its MUL instruction. -/
  | ccMul (t : TileId) (slot : SlotId)
  /-- CC_MULHU (R209). The operator in the slot issues its MULHU instruction. -/
  | ccMulhu (t : TileId) (slot : SlotId)
  /-- CC_MINU (R209). The operator in the slot issues its MINU instruction. -/
  | ccMinu (t : TileId) (slot : SlotId)
  /-- CC_MAXU (R209). The operator in the slot issues its MAXU instruction. -/
  | ccMaxu (t : TileId) (slot : SlotId)
  /-- CC_ADDI (R209). The operator in the slot issues its ADDI instruction. -/
  | ccAddi (t : TileId) (slot : SlotId)
  /-- CC_ANDI (R209). The operator in the slot issues its ANDI instruction. -/
  | ccAndi (t : TileId) (slot : SlotId)
  /-- CC_ORI (R209). The operator in the slot issues its ORI instruction. -/
  | ccOri (t : TileId) (slot : SlotId)
  /-- CC_XORI (R209). The operator in the slot issues its XORI instruction. -/
  | ccXori (t : TileId) (slot : SlotId)
  /-- CC_SLLI (R209). The operator in the slot issues its SLLI instruction. -/
  | ccSlli (t : TileId) (slot : SlotId)
  /-- CC_SRLI (R209). The operator in the slot issues its SRLI instruction. -/
  | ccSrli (t : TileId) (slot : SlotId)
  /-- CC_SRAI (R209). The operator in the slot issues its SRAI instruction. -/
  | ccSrai (t : TileId) (slot : SlotId)
  /-- CC_LDC (R209). The operator in the slot issues its LDC instruction. -/
  | ccLdc (t : TileId) (slot : SlotId)
  /-- CC_BEQ (R209). The operator in the slot issues its BEQ instruction. -/
  | ccBeq (t : TileId) (slot : SlotId)
  /-- CC_BNE (R209). The operator in the slot issues its BNE instruction. -/
  | ccBne (t : TileId) (slot : SlotId)
  /-- CC_BLT (R209). The operator in the slot issues its BLT instruction. -/
  | ccBlt (t : TileId) (slot : SlotId)
  /-- CC_BGE (R209). The operator in the slot issues its BGE instruction. -/
  | ccBge (t : TileId) (slot : SlotId)
  /-- CC_BLTU (R209). The operator in the slot issues its BLTU instruction. -/
  | ccBltu (t : TileId) (slot : SlotId)
  /-- CC_BGEU (R209). The operator in the slot issues its BGEU instruction. -/
  | ccBgeu (t : TileId) (slot : SlotId)
  /-- CC_JAL (R209). The operator in the slot issues its JAL instruction. -/
  | ccJal (t : TileId) (slot : SlotId)
  /-- CC_JALR (R527). The operator in the slot issues its JALR instruction. -/
  | ccJalr (t : TileId) (slot : SlotId)
  /-- CC_BEX (R209). The operator in the slot issues its BEX instruction. -/
  | ccBex (t : TileId) (slot : SlotId)
  /-- CC_BNEX (R209). The operator in the slot issues its BNEX instruction. -/
  | ccBnex (t : TileId) (slot : SlotId)
  /-- CC_LD (R212). The operator in the slot issues its LD instruction; `err` is what the code met at a word of its own slice. -/
  | ccLd (t : TileId) (slot : SlotId) (err : RdErr)
  /-- CC_ST (R212). The operator in the slot issues its ST instruction. -/
  | ccSt (t : TileId) (slot : SlotId)
  /-- LDST_REQUEST (R256). The request of the operator reaches the slice or stack it names; `err` is what the code met at the word. -/
  | ldstRequest (t : TileId) (slot : SlotId) (err : RdErr)
  /-- LDST_REPLY (R212). The reply reaches the operator. -/
  | ldstReply (t : TileId) (slot : SlotId)
  /-- CC_TILL (R175). The operator in the slot issues its TILL instruction. -/
  | ccTill (t : TileId) (slot : SlotId)
  /-- CC_QPOP (R210). The operator in the slot issues its QPOP instruction. -/
  | ccQpop (t : TileId) (slot : SlotId)
  /-- CC_QPUSH (R210). The operator in the slot issues its QPUSH instruction. -/
  | ccQpush (t : TileId) (slot : SlotId)
  /-- CC_TBRD (R209). The operator in the slot issues its TBRD instruction. -/
  | ccTbrd (t : TileId) (slot : SlotId)
  /-- CC_TBWR (R209). The operator in the slot issues its TBWR instruction. -/
  | ccTbwr (t : TileId) (slot : SlotId)
  /-- CC_BCAST (R207). The operator in the slot issues its BCAST instruction. -/
  | ccBcast (t : TileId) (slot : SlotId)
  /-- CC_EXTW (R216). The operator in the slot issues its EXTW instruction. -/
  | ccExtw (t : TileId) (slot : SlotId)
  /-- CC_VSETE (R201). The operator in the slot issues its VSETE instruction. -/
  | ccVsete (t : TileId) (slot : SlotId)
  /-- CC_STAGE (R148). The operator in the slot issues its STAGE instruction. -/
  | ccStage (t : TileId) (slot : SlotId)
  /-- CC_EEND (R154). The operator in the slot issues its EEND instruction. -/
  | ccEend (t : TileId) (slot : SlotId)
  /-- CC_CSRR (R209). The operator in the slot issues its CSRR instruction. -/
  | ccCsrr (t : TileId) (slot : SlotId)
  /-- CC_BAR (R259). The operator in the slot issues its BAR instruction. -/
  | ccBar (t : TileId) (slot : SlotId)
  /-- CC_VOR (R260). The operator in the slot issues its VOR instruction. -/
  | ccVor (t : TileId) (slot : SlotId)
  /-- CC_VAND (R260). The operator in the slot issues its VAND instruction. -/
  | ccVand (t : TileId) (slot : SlotId)
  /-- CC_WAITT (R209). The operator in the slot issues its WAITT instruction. -/
  | ccWaitt (t : TileId) (slot : SlotId)
  /-- WAITT_RELEASE (R209). The tally count has reached the value the operator waits for. -/
  | waittRelease (t : TileId) (slot : SlotId)
  /-- BARRIER_COMPLETE (R259). The hub has the arrival of every participating tile of the scope of half `h`. -/
  | barrierComplete (h : HalfId) (barrier : BitVec 6)
  /-- VOTE_RESULT (R260). Every participant of the scope of half `h` has contributed to the channel. -/
  | voteResult (h : HalfId) (channel : BitVec 3)
  /-- THROTTLE_UPDATE (R522). The half; the power estimate against the half's share: 0 below 95% of it, 1 between, 2 above it. -/
  | throttleUpdate (h : HalfId) (power : Fin 3)
  /-- THROTTLE_LEVEL (R264). The half at whose frame boundary the level sent takes effect. -/
  | throttleLevel (h : HalfId)
  /-- FLIT_ERROR (R265). The router of tile `t` meets damage: 0 a corrected word; 1 an uncorrectable payload and 2 an uncorrectable header of the n-th token on its way to queue `q` of `tile`; a message dropped: 3 the n-th configuration message to `tile`, 4 and 5 a load or store request and reply, 6 and 7 a till request and reply of the operator in slot `q` of `tile`, 8 a tile command or microcode block; 9 an uncorrectable payload of the n-th row on its way to the reader in slot `q` of `tile`. -/
  | flitError (t : TileId) (kind : Fin 10) (tile : TileId) (q : QueueId) (n : Nat)
  /-- WIN_CMD (R232). `who` writes `v` to TIL_WIN_CMD of the tile. -/
  | winCmd (who : Who) (t : TileId) (v : Word)
  /-- WINDOW_PLACE (R233). The pool of the tile places its oldest PENDING entry. -/
  | windowPlace (t : TileId)
  /-- WINDOW_LOAD_DONE (R233). The last row of the entry is written; `errs` holds what the code met at each word read. -/
  | windowLoadDone (t : TileId) (handle : BitVec 8) (errs : List RdErr)
  /-- WIN_REL (R234). `who` writes `v` to TIL_WIN_REL of the tile. -/
  | winRel (who : Who) (t : TileId) (v : Word)
  /-- STACK_SCRUB (R230). A scrub pass over the stack begins, or the one in progress ends; `errs` lists the words that met an error by address, with the error and whether another write has reached the word since. -/
  | stackScrub (k : StackId) (errs : List (Nat × RdErr × Bool))
  /-- ESCROW_REFETCH (R239). Whether the copy's holder answered; the step, bytes and digest of its copy; what the code meets when the ingot is read back, and whether a spare row is left. -/
  | escrowRefetch (reached : Bool) (step : Nat) (bytes : List Byte) (digest : Nat) (back : List RdErr) (spare : Bool)
  /-- RUN (R270). The entry; what each peer answers in the handshake; what the code meets at the shard headers. -/
  | run (h : HalfId) (seq : Word) (peers : List Peer) (es : List (Nat × RdErr))
  /-- BASELINE (R380). The run of a half's scope builds its baseline; `errs` holds what the code met at words it read. -/
  | baseline (h : HalfId) (errs : List (Nat × RdErr))
  /-- BASELINE_VOTE (R380). The result of the baseline vote is taken. -/
  | baselineVote (h : HalfId)
  /-- ATTEMPT_START (R270). The tick S_a has come. -/
  | attemptStart (h : HalfId)
  /-- PASS_ADMIT (R273). The pass the step program gives next, and what it reads from other devices; for an INGEST from host memory, the
  records (`none`: the read failed). -/
  | passAdmit (h : HalfId) (kind : Fin 6) (mb group : BitVec 8) (inputs : List PassInput) (host : List (Option (List Byte)))
  /-- PASS_END (R273). The place of the pass among those in flight; of a TAIL pass, what its refresh program meets at the words it
  reads. -/
  | passEnd (h : HalfId) (ix : BitVec 6) (es : List (Nat × RdErr))
  /-- PASS_TIMEOUT (R282). A pass has been in flight for more than PASS_TIMEOUT ticks. -/
  | passTimeout (h : HalfId)
  /-- ABANDON (R283). The step controller acts on the faults reported. -/
  | abandon (h : HalfId)
  /-- REPLAY (R283). The networks have drained. -/
  | replay (h : HalfId)
  /-- LOSS_GATE (R272). The device contributes to the loss gate, or takes its result. -/
  | lossGate (h : HalfId)
  /-- GRADIENT_GATE (R272). The layer; where the device's own contribution lies when no transfer delivers the shard. -/
  | gradientGate (h : HalfId) (layer : BitVec 8) (own : Option (BitVec 48))
  /-- PREEMPT (R278). The entry. -/
  | preempt (h : HalfId) (seq : Word)
  /-- PREEMPT_DONE (R278). The passes in flight have ended. -/
  | preemptDone (h : HalfId)
  /-- RESUME (R278). The entry. -/
  | resume (h : HalfId) (seq : Word)
  /-- SEAL_VOTE (R286). The device contributes to the current seal round. -/
  | sealVote (h : HalfId)
  /-- SEAL_ROUND (R286). The round's tick has come; whether another device of the job has a commit bit set or a failed gradient gate. -/
  | sealRound (h : HalfId) (moved : Bool)
  /-- COLLECTIVE_CHUNK (R361). As STREAM_TRANSFER, for a transfer whose receive item adds. -/
  | collectiveChunk (p : PortId) (k : Nat) (of_ : PassId) (es : List RdErr)
  /-- UPDATE_BLOCK_DISPATCH (R301). The layer; `own` as in GRADIENT_GATE. -/
  | updateBlockDispatch (h : HalfId) (layer : BitVec 8) (own : Option (BitVec 48))
  /-- UPDATE_BLOCK_DONE (R308). The first engine of the group; what the code meets at the words it read. -/
  | updateBlockDone (g : Fin 16) (es : List (Nat × RdErr))
  /-- SCHED_APPEND (R312). The entry `seq` of a half's ledger; `es` is what the code meets at the words read. -/
  | schedAppend (h : HalfId) (seq : Word) (es : List RdErr)
  /-- MIRROR (R375). The tensor whose mirroring begins; 4,096 stands for the parity deltas; `errs` holds what the code met at words it read. -/
  | mirror (h : HalfId) (tensor : BitVec 13) (errs : List (Nat × RdErr))
  /-- ESCROW_TRANSFER (R374). As REMOTE_LOAD. -/
  | escrowTransfer (p : PortId) (out : Nat) (es : List RdErr)
  /-- PARITY_DELTA (R379). As REMOTE_LOAD. -/
  | parityDelta (p : PortId) (out : Nat)
  /-- TILE_COMMAND (R256). A command message of 32 bytes reaches the tile. -/
  | tileCommand (t : TileId) (body : List Byte)
  /-- MICROCODE_MESSAGE (R480). The core, the message's number and bytes, whether its CRC is right. -/
  | microcodeMessage (t : TileId) (n : Nat) (body : List Byte) (crcOk : Bool)
  /-- DATA_FRAME (R324). The port and the frame. -/
  | dataFrame (p : PortId) (f : Frame)
  /-- IDLE_FRAME (R322). The port and the frame. -/
  | idleFrame (p : PortId) (f : Frame)
  /-- CREDIT_FRAME (R325). The SEQ up to which frames are acknowledged, a NAK, credits by VC + 4 × class. -/
  | creditFrame (p : PortId) (f : Frame) (ack : BitVec 16) (nak : Option (BitVec 16)) (credits : List Nat)
  /-- REPLAY_TIMEOUT (R326). 4,096 core cycles have passed without progress. -/
  | replayTimeout (p : PortId)
  /-- ADMIT_FRAME (R330). The identity, with the fragment that completes it. -/
  | admitFrame (p : PortId) (f : Frame) (ident : Option Ident)
  /-- DELAY_FRAME (R328). A probe or an echo; the round trip and the partner's turnaround. -/
  | delayFrame (p : PortId) (f : Frame) (echo : Bool) (rtt turnaround : Nat)
  /-- STATE_FRAME (R332). The partner state, device state code, half width, spare choice, and whether the partner names this device as its tally parent. -/
  | stateFrame (p : PortId) (f : Frame) (ps code : BitVec 3) (half : Bool) (spare : BitVec 4) (child : Bool)
  /-- REFUSE_FRAME (R354). The status, and the transfer whose frames the SEQ range names. -/
  | refuseFrame (p : PortId) (f : Frame) (status : BitVec 8) (x : Xfer)
  /-- MGMT_FRAME (R390). The device the traffic is for, and the traffic. -/
  | mgmtFrame (p : PortId) (f : Frame) (target : BitVec 16) (m : Relay)
  /-- SEAL_FRAME (R338). Whether the tag verifies; batch number, key epoch, frame count. -/
  | sealFrame (p : PortId) (f : Frame) (tagOk : Bool) (batch epoch count : Nat)
  /-- SEAL_BATCH_CLOSE (R338). Three frames, 64 cycles or a STAMP have closed the batch. -/
  | sealBatchClose (p : PortId)
  /-- KEY_SWITCH (R338). Both ends switch at an agreed batch. -/
  | keySwitch (p : PortId)
  /-- ADMISSION (R328). The port. -/
  | admission (p : PortId)
  /-- LANE_TRAINING_DONE (R328). Which lanes qualified; the eye of each: margins in time and voltage. -/
  | laneTrainingDone (p : PortId) (ok : List Bool) (eye : List (Nat × Nat))
  /-- ADMISSION_TIMEOUT (R328). The step under way has passed its limit. -/
  | admissionTimeout (p : PortId)
  /-- BACKOFF_EXPIRED (R331). The wait has ended. -/
  | backoffExpired (p : PortId)
  /-- SPARE_SUB (R320). The failing lane. -/
  | spareSub (p : PortId) (lane : BitVec 4)
  /-- RETRAIN (R326). The port. -/
  | retrain (p : PortId)
  /-- LANE_LOCK_LOSS (R340). The port. -/
  | laneLockLoss (p : PortId)
  /-- QUARANTINE (R336). The writer and the port. -/
  | quarantine (who : Who) (p : PortId)
  /-- RELEASE (R336). The writer and the port. -/
  | release (who : Who) (p : PortId)
  /-- READMIT (R328). The writer and the port. -/
  | readmit (who : Who) (p : PortId)
  /-- STREAM_TRANSFER (R358). The port; the occurrence of a scheduled transfer; the pass it carries; what the code meets at rows read. -/
  | streamTransfer (p : PortId) (k : Nat) (of_ : PassId) (es : List RdErr)
  /-- STREAM_RELEASE (R359). The receiving device, the stream and the transfer released. -/
  | streamRelease (peer xfer : BitVec 16) (k : Nat)
  /-- REMOTE_LOAD (R350). The arrival port; the requests of the origin still being served; what the code meets at the words read. -/
  | remoteLoad (p : PortId) (out : Nat) (es : List RdErr)
  /-- REMOTE_STORE (R350). As REMOTE_LOAD. -/
  | remoteStore (p : PortId) (out : Nat)
  /-- REMOTE_COPY (R350). As REMOTE_LOAD. -/
  | remoteCopy (p : PortId) (out : Nat) (es : List RdErr)
  /-- REMOTE_ADD (R351). As REMOTE_LOAD. -/
  | remoteAdd (p : PortId) (out : Nat) (e : RdErr)
  /-- REMOTE_MAX (R351). As REMOTE_LOAD. -/
  | remoteMax (p : PortId) (out : Nat) (e : RdErr)
  /-- REMOTE_SWAP (R351). As REMOTE_LOAD. -/
  | remoteSwap (p : PortId) (out : Nat) (e : RdErr)
  /-- REMOTE_CAS (R351). As REMOTE_LOAD. -/
  | remoteCas (p : PortId) (out : Nat) (e : RdErr)
  /-- REMOTE_RESPONSE (R354). The arrival port. -/
  | remoteResponse (p : PortId)
  /-- REMOTE_TIMEOUT (R354). The request's tag. -/
  | remoteTimeout (tag : BitVec 32)
  /-- RETRY_RESEND (R354). The request's tag. -/
  | retryResend (tag : BitVec 32)
  /-- VOTE_WAVE (R363). Core cycle 0 of a tick. -/
  | voteWave
  /-- VOTE_FRAME (R363). The entries; the wave's tick is the frame's XFER. -/
  | voteFrame (p : PortId) (f : Frame) (es : List VoteEntry)
  /-- VOTE_WAVE_SEND (R363). -/
  | voteWaveSend
  /-- LOSS_DETECT (R384). The port that has shown a lost job device for 1,024 ticks. -/
  | lossDetect (p : PortId)
  /-- LOSS_REPORT (R384). The job's tenant tag, the lost device (`none`: the reporter's run has ended with commit bits set), whether its image has RECOVER set. -/
  | lossReport (tag : BitVec 16) (lost : Option (BitVec 16)) (recover : Bool)
  /-- RECOVERY_STEP (R384). OK when the step has finished on every device, or the status with which it failed on one; the step numbers that CUR headers of the job show (step 2). -/
  | recoveryStep (status : BitVec 8) (cur : List Nat)
  /-- RETURN_TIMEOUT (R384). RETURN_TICKS have passed. -/
  | returnTimeout
  /-- RECOVER (R385). The entry and the order of its step. -/
  | recover (h : HalfId) (seq : Word) (o : Order)
  /-- STOP_AT_ATTEMPT_END (R395). The entry. -/
  | stopAtAttemptEnd (h : HalfId) (seq : Word)
  /-- STOP_NOW (R395). The entry. -/
  | stopNow (h : HalfId) (seq : Word)
  /-- COPY (R395). The entry; what the code meets at the words read. -/
  | copy (h : HalfId) (seq : Word) (es : List RdErr)
  /-- CANCEL (R398). Entry `seq` of the ledger of half `h` comes to its start. -/
  | cancel (h : HalfId) (seq : Word)
  /-- PROFILE (R511). The entry; whether each write to a regulator succeeds. -/
  | profile (h : HalfId) (seq : Word) (ok : List Bool)
  /-- TENANT_ASSIGN (R444). The entry. -/
  | tenantAssign (h : HalfId) (seq : Word)
  /-- TENANT_RELEASE (R444). The entry. -/
  | tenantRelease (h : HalfId) (seq : Word)
  /-- WINNOW (R451). The entry. -/
  | winnow (h : HalfId) (seq : Word)
  /-- WINNOW_END (R451). The scope; whether the check passes, and else the address below which memory is zero. -/
  | winnowEnd (scope : Scope) (ok : Bool) (upto : Nat)
  /-- COMPUTE_RESET (R464). The entry. -/
  | computeReset (h : HalfId) (seq : Word)
  /-- COMPUTE_RESET_DONE (R464). The scope. -/
  | computeResetDone (scope : Scope)
  /-- PACKAGE_RESET (R466). The entry. -/
  | packageReset (h : HalfId) (seq : Word)
  /-- SITE_RESET (R468). The entry. -/
  | siteReset (h : HalfId) (seq : Word)
  /-- SITE_TEST (R468). The entry. -/
  | siteTest (h : HalfId) (seq : Word)
  /-- SITE_TEST_DONE (R468). The entry; the tiles that failed, by row × 8 + column. -/
  | siteTestDone (h : HalfId) (seq : Word) (fails : Word)
  /-- LICENCE_INSTALL (R441). The entry; whether the signature verifies. -/
  | licenceInstall (h : HalfId) (seq : Word) (sigOk : Bool)
  /-- PROVISION (R431). The entry; whether the signature verifies. -/
  | provision (h : HalfId) (seq : Word) (sigOk : Bool)
  /-- QUOTE (R449). The entry. -/
  | quote (h : HalfId) (seq : Word)
  /-- UPDATE_STAGE (R477). The entry; whether the header's signature verifies; the image in the feed window (`none`: unreadable); the devices the master stages. -/
  | updateStage (h : HalfId) (seq : Word) (sigOk : Bool) (host : Option (List Byte)) (staged : List Nat)
  /-- UPDATE_BLOCK (R478). The port, UPDATE_ID, block index, data and CRC; whether the header's signature verifies. -/
  | updateBlock (p : PortId) (id : BitVec 32) (k : Nat) (data : List Byte) (crc : BitVec 32) (sigOk : Bool)
  /-- UPDATE_BLOCK_ACK (R478). The port, UPDATE_ID, block index; a NAK and its status. -/
  | updateBlockAck (p : PortId) (id : BitVec 32) (k : Nat) (nak : Bool) (st : BitVec 8)
  /-- UPDATE_BLOCK_RESEND (R478). The port and the block without an ACK for 64 ticks. -/
  | updateBlockResend (p : PortId) (k : Nat)
  /-- UPDATE_VERIFY (R479). Whether every payload's tag verifies. -/
  | updateVerify (tagsOk : Bool)
  /-- UPDATE_REPORT (R482). The reporting device; 1 COMPLETE, 2 SHORTFALL, 3 TRIAL_UP, 4 TRIAL_FAIL. -/
  | updateReport (dev kind : Nat)
  /-- UPDATE_REPORT_TIMEOUT (R482). The master's wait for the reports has passed. -/
  | updateReportTimeout
  /-- UPDATE_COMMIT (R482). The entry. -/
  | updateCommit (h : HalfId) (seq : Word)
  /-- UPDATE_ABORT (R482). The entry. -/
  | updateAbort (h : HalfId) (seq : Word)
  /-- UPDATE_CONFIRM (R482). The entry. -/
  | updateConfirm (h : HalfId) (seq : Word)
  /-- UPDATE_REVERT (R482). The entry. -/
  | updateRevert (h : HalfId) (seq : Word)
  /-- TRIAL_POLL (R483). A second has passed. -/
  | trialPoll
  /-- LGR_SEL (R405). `who` writes `seq` to LGR_SEL. -/
  | lgrSel (who : Who) (seq : Word)
  /-- STRONGBOX_WRITE (R425). Uhlea takes the record at the head of its queue. -/
  | strongboxWrite
  /-- SECTOR_ERASE_DONE (R425). The erase under way ends. -/
  | sectorEraseDone
  /-- SESSION_OPEN (R432). The network address; the role the certificate gives (`none`: the handshake failed). -/
  | sessionOpen (addr : Nat) (role : Option Who)
  /-- SESSION_CLOSE (R438). The session. -/
  | sessionClose (id : Nat)
  /-- REG_READ (R418). The session, the message's header, the addresses. -/
  | regRead (id : Nat) (m : MsgHdr) (addrs : List Nat)
  /-- REG_WRITE (R419). The session, the header, the addresses and values. -/
  | regWrite (id : Nat) (m : MsgHdr) (pairs : List (Nat × Nat))
  /-- LEDGER_READ (R418). The session, the header, the first sequence and the count. -/
  | ledgerRead (id : Nat) (m : MsgHdr) (first n : Nat)
  /-- TELEMETRY (R420). The session, the header, the period in ms. -/
  | telemetry (id : Nat) (m : MsgHdr) (period : Nat)
  /-- TELEMETRY_REPORT (R420). The session whose period has passed. -/
  | telemetryReport (id : Nat)
  /-- STRONGBOX_READ (R427). The session, the header, the first SEQ and the count. -/
  | strongboxRead (id : Nat) (m : MsgHdr) (first n : Nat)
  /-- SPDM (R449). The session, the header, the SPDM request (6: GET_MEASUREMENTS) and its nonce. -/
  | spdm (id : Nat) (m : MsgHdr) (code : Nat) (nonce : List Byte)
  /-- TRACE_READ (R422). The session, the header, the first record and the count. -/
  | traceRead (id : Nat) (m : MsgHdr) (first n : Nat)
  /-- SENSOR_SAMPLE (R411). The readings of the sensors, as codes (`none`: no answer); the voltage taps; the stacks' own readings. -/
  | sensorSample (temps : List (Option Nat)) (taps readouts : List Nat)
  /-- PMBUS_POLL (R412). What each listed rail reads: voltage, current, status word (`none`: the read failed twice). -/
  | pmbusPoll (rails : List (Option (Nat × Nat × Nat)))
  /-- I3C_POLL (R414). What each target reads (`none`: no answer). -/
  | i3cPoll (values : List (Option Nat))
  /-- I3C_IBI (R414). Whether it is a hot-join request; the target's address. -/
  | i3cIbi (join : Bool) (src : BitVec 7)
  /-- PROF_REQ (R435). The session whose write it is; whether LOCK is written with it. -/
  | profReq (id : Nat) (lock : Bool)
  /-- DEBUG_REQ (R435). As PROF_REQ; whether the signature over the nonce verifies. -/
  | debugReq (id : Nat) (lock sigOk : Bool)
  /-- NONCE_REQ (R435). The session whose write it is. -/
  | nonceReq (id : Nat)
  /-- NONCE_EXPIRED (R435). 60 s have passed since the nonce was made. -/
  | nonceExpired
  /-- LOCK (R438). The session whose write it is. -/
  | lock (id : Nat)
  /-- UNLOCK_WAIT_EXPIRED (R437). The wait has ended. -/
  | unlockWaitExpired
  /-- BUNDLE_GO (R447). The bundle engine; the writer; whether the key unwraps; what the code meets at the header. -/
  | bundleGo (ix : Fin 2) (who : Who) (unwrapOk : Bool) (es : List RdErr) (clearing : Bool)
  /-- BUNDLE_DONE (R447). The engine; whether the tag matches; the decrypted bytes. -/
  | bundleDone (ix : Fin 2) (tagOk : Bool) (plain : List Byte)
  /-- COLD_RESET (R457). Which of PWR_GOOD and RESET_N fell; whether the standby rail stayed in range; whether a strongbox record was being written. -/
  | coldReset (pwr rst vstby torn : Bool)
  /-- BRINGUP (R460). The straps; whether a fabric root key is provisioned; whether the repair page's CRC is right. -/
  | bringup (feedId rank : Nat) (master : Bool) (bootSel : Fin 4) (root pageOk : Bool)
  /-- UHLEA_START (R481). Whether the chosen slot and the other one verify; whether the standby rail kept the SRAM; the settings format of this Uhlea. -/
  | uhleaStart (ok ok2 kept : Bool) (format : Nat)
  /-- STACK_TRAINING_DONE (R460). The stack; whether it trained; whether each recorded repair applied. -/
  | stackTrainingDone (k : StackId) (ok : Bool) (rep : List Bool)
  /-- BRIDGE_TRAINING_DONE (R460). Whether the bridge trained. -/
  | bridgeTrainingDone (ok : Bool)
  /-- TALLY_WAIT_EXPIRED (R460). 16 ticks have passed. -/
  | tallyWaitExpired
  /-- BRINGUP_COMPLETE (R460). The last step. -/
  | bringupComplete
  /-- WATCHDOG (R467). A period has passed without a kick. -/
  | watchdog
  /-- KICK (R467). The writer. -/
  | kick (who : Who)
  /-- HEARTBEAT (R470). Core cycle 0 of a tick. -/
  | heartbeat
  /-- HEARTBEAT_RX (R470). The west half's claim in the word. -/
  | heartbeatRx (claim : Bool)
  /-- ECHO_RX (R470). The east half's claim in the word. -/
  | echoRx (claim : Bool)
  /-- HEARTBEAT_MISS (R471). A tick has passed without a heartbeat. -/
  | heartbeatMiss
  /-- ECHO_MISS (R471). 400 cycles have passed without the echo. -/
  | echoMiss
  /-- THERMAL_TRIP (R524). A sensor's second sample in a row at its trip condition has been taken. -/
  | thermalTrip
  /-- FABRIC_ID_WRITE (R459). The writer and the value. -/
  | fabricIdWrite (who : Who) (v : BitVec 16)
  /-- ARM (R493). The writer; what the code meets at the descriptor; the shard headers of the usable entries (`none`: the read failed). -/
  | arm (who : Who) (es : List RdErr) (heads : List (Option (List Byte)))
  /-- NVME_COMPLETION (R492). The command; whether it succeeded; the data read; its poisoned words; what the code meets at the words a checkpoint reads. -/
  | nvmeCompletion (id : Nat) (ok : Bool) (data : List Byte) (bad : List Nat) (es : List RdErr)
  /-- NVME_TIMEOUT (R492). The command without a completion. -/
  | nvmeTimeout (id : Nat)
  /-- CKPT_GO (R496). The writer and the word written to FED_CKPT_CTRL. -/
  | ckptGo (who : Who) (v : Word) (clearing : Bool)
  /-- CKPT_DONE (R496). Whether the Flush succeeded. -/
  | ckptDone (ok : Bool)
  /-- BAR2_ACCESS (R490). A host read of `n` bytes or a write of `data` at an offset; whether the write came poisoned; what the code meets at the words read. -/
  | bar2Access (write : Bool) (off : BitVec 36) (n : Nat) (data : List Byte) (ep : Bool) (es : List RdErr)
  /-- FEED_LINK_DOWN (R487). The link and the NVMe controllers behind it. -/
  | feedLinkDown (link : Fin 4) (lost : List Nat)
  /-- REF_PRESENT (R32). Valid edges return on TALLY_REF_P/N. -/
  | refPresent
  /-- PLL_RELOCKED (R511). Whether each write that follows succeeds. -/
  | pllRelocked (ok : List Bool)
  /-- FEED_LINK_UP (R487). The link, its mode, the namespaces found: controller, NSID, blocks, 4,096-byte blocks. -/
  | feedLinkUp (link : Fin 4) (flit : Bool) (ns : List (Nat × Nat × Nat × Bool))
  /-- MGMT_LANE_UP (R416). Whether FEC was negotiated. -/
  | mgmtLaneUp (fec : Bool)
  /-- MGMT_LANE_DOWN (R416). The lane has lost its link. -/
  | mgmtLaneDown
  /-- JTAG_INSTRUCTION (R439). The instruction: 0 BYPASS, 1 IDCODE, 2 SAMPLE/PRELOAD, 3 EXTEST, others private. -/
  | jtagInstruction (ix : Nat)
  /-- ADDRESS_REFUSAL_EXPIRED (R432). The address, 60 s after it was refused. -/
  | addressRefusalExpired (addr : Nat)
  deriving DecidableEq, Repr

end Sys2Proof
end

