-- ==== Sys2Proof/Config.lean ====
section
/-! DEFINITION. The values the spec leaves open: constants without a body, so that nothing can be proved about what they are. -/

namespace Sys2Proof.Config

/-- A fresh free value: the n-th value the spec leaves open, in the order the run meets them. -/
opaque freeWord : Nat → Nat

/-- Which of the results within the error bound of R194 the engine returns: by operation, type and operand; every lane of
every device returns the same. -/
opaque approx : Nat → Nat → Nat → Nat

/-- What CSR 3 reads as for EX, SAT and PSN: their places in the word are not stated (Table 8-9). -/
opaque flagsWord : Bool → Bool → Bool → Nat

/-- The electrical class of a torus port, from the board descriptor: 0 MR, 1 LR (R318, Table 13-1). -/
opaque linkClass : Nat → Nat

/-- How the board descriptor splits the feed port in root mode (Table 20-1, FED_STATUS.BIFURC). -/
opaque bifurcation : Nat

/-- What a read of a word in an unreachable stack gives (R22): by the number of free values met so far, and the address. -/
opaque lostWord : Nat → Nat → Nat

end Sys2Proof.Config
end

