-- ==== Sys2Proof/Machine/Device.lean ====
section
/-! DEFINITION. The device's state as plain data: every block's structures, and Dev, which holds them all. Machine/State.lean adds
the queue of waiting commands. -/

namespace Sys2Proof.Machine

/-! ## The power, clock and pin state -/

/-- The rails' and clocks' state as the pins show it (R455–R457, R511, R524). -/
structure PowerS where
  /-- PWR_GOOD. -/
  pwrGood : Bool
  /-- RESET_N. -/
  resetN : Bool
  /-- Every clock except standby is stopped after a thermal trip (R524). -/
  tripped : Bool
  /-- The power profile in force: 0 Low, 1 Nominal, 2 High (Table 2-1). -/
  profile : Nat
  /-- The profile a PROFILE command is moving to, until the PLL has relocked (R511). -/
  relock : Option Nat
  /-- The standby rail has left its range since Uhlea last started (R409). -/
  stbyLost : Bool
  /-- The CLAIM fuse of the west half (R470). -/
  fuseW : Bool
  /-- The CLAIM fuse of the east half (R470). -/
  fuseE : Bool
  /-- An echo is awaited for the heartbeat sent this tick (R470). -/
  echoDue : Bool
  /-- A heartbeat has arrived at the east half in this tick (R470). -/
  hbSeen : Bool
  deriving DecidableEq, Repr

/-- A stamp as a neighbour last sent it: the count, its depth and its lock state (R36). -/
structure Stamp where
  count : Nat
  depth : Nat
  lock : Nat
  deriving DecidableEq, Repr

/-- The tally's state beside the TAL_ registers. -/
structure TallyS where
  /-- The last stamp of each port that sent one and has not been given up as missing. -/
  stamps : FMap Stamp
  /-- The scheduled class is disabled since an offset beyond ±16 cycles (R42). -/
  boundOff : Bool
  /-- Ticks the count still stands still, until the parent's count reaches it (R39). -/
  hold : Nat
  /-- Core cycles by which the current tick is lengthened (R39). -/
  adj : Int
  /-- A parent has been lost and none chosen since (R38). -/
  orphan : Bool
  /-- The dataflow counters of the tiles as they stood at the end of the last core cycle, by bit address (R136). -/
  counters : FMap Nat
  deriving DecidableEq, Repr

/-! ## The ledger -/

/-- A ledger entry (Table 16-6), with the descriptor it was made from and, for a pending execute-at entry, whether its tick
has come (R46). `body` is bytes [63:32] of an attempt entry (Table 16-8) and 0 of every other. -/
structure Entry where
  seq : Nat
  tag : Nat
  opcode : Nat
  source : Nat
  state : Nat
  status : Nat
  tenant : Nat
  flags : Nat
  accept : Nat
  startDelta : Nat
  endDelta : Nat
  crc : Nat
  result : Nat
  body : Nat
  execAt : Nat
  desc : Row
  due : Bool
  deriving DecidableEq, Repr

/-- One half's ledger: the ring by slot, the next slot to look at, the most recent sequence number, and the mirror by
sequence number (R400, R403). -/
structure Ledger where
  ring : FMap Entry
  slot : Nat
  head : Nat
  mirror : FMap Entry
  deriving DecidableEq, Repr

/-! ## What leaves the device -/

/-- What the device sends or drives outward, in the order it does so: stamps, link frames, management messages, responses
to descriptors, MSI-X signals, PMBus and I3C transactions, NVMe commands. -/
inductive Out where
  /-- A frame on a port: its kind (Table 13-2), fields of its header in order, its payload units. -/
  | frame (port kind : Nat) (fields : List Nat) (units : List Row)
  /-- A management message to a session: TYPE, SEQ, the TAG of the request it answers or 0, the body (Tables 17-4, 17-5). -/
  | mgmt (session type seq tag : Nat) (body : List Nat)
  /-- The response to a descriptor of a source: status, state, DIFFERS, sequence number (R393). -/
  | response (source status state differs seq : Nat)
  /-- An MSI-X vector on the feed port (R488). -/
  | msix (vector : Nat)
  /-- A PMBus write: rail, millivolts (R413). -/
  | pmbus (rail mv : Nat)
  /-- A command to an NVMe drive: namespace, opcode, block address, blocks (R492). -/
  | nvme (ns op lba blocks : Nat)
  /-- A word over the half bridge: from the east half, CLAIM, count, state (R470). -/
  | bridge (east claim : Bool) (count state : Nat)
  /-- A request or release to another device of the fabric: kind, fields. -/
  | fabric (kind : Nat) (fields : List Nat)
  /-- An answer on the feed port's memory window: bytes, with the EP bit set for a poisoned word, or Completer Abort (R487,
  R490). -/
  | bar2 (bytes : List Byte) (ep abort : Bool)
  /-- A signed measurements response: the nonce, the blocks of Table 18-7 in index order (R449). -/
  | quote (nonce : List Byte) (blocks : List (List Byte))
  /-- TDO behaviour of the JTAG port: the register an instruction selects (R439). -/
  | jtag (instr : Nat) (value : Nat)
  deriving DecidableEq, Repr



/-! ## The management subsystem -/

/-- A strongbox record (Table 17-7); `body` lists the values Table 17-8 names for the type, in its order. -/
structure SbRec where
  type : Nat
  sev : Nat
  seq : Nat
  tally : Nat
  boot : Nat
  fabricId : Nat
  state : Nat
  body : List Nat
  deriving DecidableEq, Repr

/-- A strongbox slot that is not free: a valid record, or a torn one (R426). -/
inductive SbSlot where
  | valid (r : SbRec)
  | torn
  deriving DecidableEq, Repr

/-- An open management session: its role, the next SEQ expected from the client, the next SEQ it sends, its telemetry
period in ms (0: not subscribed) (R417–R420). -/
structure Session where
  role : Who
  seqIn : Nat
  seqOut : Nat
  period : Nat
  deriving DecidableEq, Repr

/-- A trace record: what changed (1 ledger state, 2 step phase, 3 link state, 4 throttle level, 5 MBX_EVENT), the tally
count, TAL_PHASE, and the values (R422). -/
structure TraceRec where
  kind : Nat
  count : Nat
  phase : Nat
  vals : List Nat
  deriving DecidableEq, Repr

/-- A rail of the board descriptor: whether PROFILE writes it and for which half (R413, R510), and the half its power is
counted to (0 west, 1 east, 2 shared; R421). -/
structure Rail where
  profileHalf : Option HalfId
  owner : Nat
  deriving DecidableEq, Repr

/-- Who submits: the source (Table 16-1), the scope the submitter acts for, its tenant tag (0 for operator and fabric master, and for
a scope that is not OWNED), whether it is a claim session. -/
structure Submitter where
  src : Nat
  scope : Scope
  tag : Nat
  claim : Bool
  deriving DecidableEq, Repr

/-- A descriptor in a submission queue (R390), with the session and the message TAG its answer goes to. -/
structure Submission where
  who : Submitter
  session : Nat
  mtag : Nat
  desc : Row
  deriving DecidableEq, Repr

/-- The management subsystem beside the MBX_ registers: sessions, strongbox, trace ring, board descriptor, readings. -/
structure MgmtS where
  sessions : FMap Session
  sbQueue : List SbRec
  sb : FMap SbSlot
  /-- The next slot of the strongbox region, 0–262,143 (R425). -/
  sbNext : Nat
  /-- Records dropped since the last Dropped record (R425). -/
  sbDropped : Nat
  trace : List TraceRec
  rails : List Rail
  /-- The I3C targets of the board descriptor, and the last reading of each (R414). -/
  i3cTargets : Nat
  i3c : FMap Nat
  /-- In-band interrupts logged (R414). -/
  ibiLog : List Nat
  /-- Power of the last poll rounds in 0.1 mW, newest first, at most 20: the west half's, the east half's and shared rails
  (R415, R421). -/
  powerLog : List (Nat × Nat × Nat)
  /-- Rail power in 0.1 mW at its last VALID reading (R415). -/
  railPower : FMap Nat
  /-- Consecutive ticks each thermal sensor has completed no conversion (R411). -/
  sensorWait : FMap Nat
  /-- The sensors and stacks (64 + k) whose last sample met a trip condition, with the reading and whether the sample before it
  did too (R524). -/
  tripArm : FMap (Nat × Bool)
  /-- The trip latch of the standby domain (R524). -/
  tripLatch : Bool
  /-- The throttle level the power estimate asks of each half, Lp (R523). -/
  lpW : Nat
  lpE : Nat
  /-- The levels in force at the tiles of each half (R264). -/
  levelW : Nat
  levelE : Nat
  /-- The submission queues, in order of arrival; the queue of a source is what of it that source submitted (R390). -/
  subs : List Submission
  /-- The source served last (R391). -/
  subLast : Nat
  /-- Core cycles until the next descriptor may be accepted (R391, R402). -/
  subWait : Nat
  /-- An entry has started in this core cycle (R396). -/
  started : Bool
  deriving DecidableEq, Repr

/-! ## Access, licences and tenancy -/

/-- A stored licence (Table 18-4). -/
structure Licence where
  feature : Nat
  action : Nat
  seq : Nat
  raw : List Byte
  deriving DecidableEq, Repr

/-- One bundle ingest engine while it runs: source, destination, payload bytes, and the wrap entry it unwrapped (R447). -/
structure BundleJob where
  src : Nat
  dst : Nat
  len : Nat
  entry : List Byte
  deriving DecidableEq, Repr

/-- Keys, licences, unlocks, tenant roots and the ingest engines, beside the SEC_ registers. -/
structure SecS where
  /-- The device serial, in fuses (R430). -/
  serial : Nat
  mgmtRoot : List Byte
  fabricRoot : List Byte
  debugKey : List Byte
  pwSalt : List Byte
  pwHash : List Byte
  revoked : List Nat
  gen : Nat
  licences : List Licence
  /-- The LIC_SEQ installed for each feature (R441). -/
  licSeq : FMap Nat
  tenantRootW : List Byte
  tenantRootE : List Byte
  /-- The session that opened each unlock (R438). -/
  profBy : Option Nat
  debugBy : Option Nat
  /-- The current lockout wait in seconds, 0 when none runs, and the tally count at which it began (R437). -/
  wait : Nat
  waitAt : Nat
  /-- The tally counts of failed handshakes by network address, and the addresses refused (R432). -/
  addrFails : FMap (List Nat)
  addrRefused : List Nat
  bundles : FMap BundleJob
  /-- A GO written in the cycle in which an engine's ingest ends: the outcome of its unwrap, what the code meets (R10, R448). -/
  bundleAgain : FMap (Bool × List RdErr)
  /-- The winnows running, by SCOPE (0 whole device, 1 west half, 2 east half): the ledger entry and the tally count at the start. -/
  winnows : FMap (Nat × Nat)
  /-- The image measurement of the west half (or whole device) and of the east half (R139, R449). -/
  measW : List Byte
  measE : List Byte
  deriving DecidableEq, Repr

/-! ## Boot, repair and firmware -/

/-- A tile defect on the repair page (Table 19-7). -/
structure TileDefect where
  half : Nat
  row : Nat
  col : Nat
  src : Nat
  tally : Nat
  deriving DecidableEq, Repr

/-- A stack row on the repair page (Table 19-7); state 0 pending, 1 repaired, 2 no spare. -/
structure RowDefect where
  stack : Nat
  pc : Nat
  bank : Nat
  state : Nat
  row : Nat
  addr : Nat
  deriving DecidableEq, Repr

/-- A downstream branch of a chain delivery (R478): the block last acknowledged + 1, the blocks sent and not acknowledged with
how often each was sent, and whether the branch has failed or ended. -/
structure Branch where
  acked : Nat
  next : Nat
  sent : FMap Nat
  dead : Bool
  deriving DecidableEq, Repr

/-- The firmware update in progress (R477–R483). -/
structure UpdateS where
  id : Nat
  entryHalf : HalfId
  entrySeq : Nat
  srcKind : Nat
  upPort : Nat
  down : FMap Branch
  len : Nat
  /-- Blocks held so far, in the slot that is not running (a count: blocks come in order). -/
  held : Nat
  /-- The link firmware's and the stack controllers' inactive banks are loaded (R479). -/
  banksLoaded : Bool
  /-- Control cores that hold every microcode block (R480). -/
  coresDone : List Nat
  /-- Bad tries of each microcode block, by core × 2 + block (R480). -/
  coreTries : FMap Nat
  /-- What each device reported: 1 COMPLETE, 2 SHORTFALL, 3 TRIAL_UP, 4 TRIAL_FAIL (R482; at the master). -/
  reports : FMap Nat
  /-- The devices the master staged (R482). -/
  staged : List Nat
  deriving DecidableEq, Repr

/-- Power-up, repair, settings and firmware state beside the DEV_ registers. -/
structure BootS where
  /-- The bring-up step to come, 3–11 (Table 19-3); 0 when no bring-up runs. -/
  step : Nat
  /-- The cause the RESET entry will name (Table 19-5). -/
  cause : Nat
  /-- Fused shift points by half × 16 + row; unlisted: 16 (R473). -/
  fused : FMap Nat
  /-- Rows with a fused defect in the spare itself (R473). -/
  fusedSpare : List Nat
  /-- The shift points in force, computed at the last cold reset. -/
  shift : FMap Nat
  tiles : List TileDefect
  rows : List RowDefect
  pageGen : Nat
  /-- The settings record: FORMAT, the fabric ID, the saved operator registers by field key (R484). -/
  settingsFormat : Nat
  settingsFabric : Option Nat
  settings : FMap Nat
  /-- The images the two slots hold (R410). -/
  slotA : List Byte
  slotB : List Byte
  update : Option UpdateS
  /-- The slot the device runs; `true`: slot B. -/
  runB : Bool
  /-- The settings FORMAT of the Uhlea that runs (R484). -/
  uhleaFormat : Nat
  /-- Uhlea has kicked the watchdog since it started (R481). -/
  kicked : Bool
  /-- The repair page failed its CRC at the last cold reset (R475). -/
  pageBad : Bool
  /-- Heads of the two ledgers as last written to the strongbox, if ever (R403). -/
  sbHead0 : Option Nat
  sbHead1 : Option Nat
  deriving DecidableEq, Repr

/-! ## The feed port -/

/-- A namespace the NVMe host found: controller, blocks, block size 4,096 (R492). -/
structure Namespace where
  ctrl : Nat
  nsid : Nat
  blocks : Nat
  lba4k : Bool
  deriving DecidableEq, Repr

/-- An NVMe command in flight: FED_NS entry, opcode (1 write, 2 read), first block, blocks, what it is for (0 ingest,
1 checkpoint), the micro-batch or ingot it serves, whether it has been retried (R492). -/
structure NvmeCmd where
  entry : Nat
  op : Nat
  lba : Nat
  blocks : Nat
  use : Nat
  item : Nat
  retried : Bool
  deriving DecidableEq, Repr

/-- An armed feed: the descriptor's bytes, the record count of each shard with its entry, token and record sizes (R493). -/
structure FeedJob where
  desc : List Byte
  /-- (entry, RECORDS, REC_BYTES, MAX_TOKENS, TOKEN_BYTES) of each shard in ascending entry order. -/
  shards : List (Nat × Nat × Nat × Nat × Nat)
  deriving DecidableEq, Repr

/-- The feed port beside the FED_ registers. -/
structure FeedS where
  ns : List Namespace
  armed : Option FeedJob
  cmds : FMap NvmeCmd
  nextCmd : Nat
  /-- Micro-batches of the running ingest still to be written; the EPOCH and POSITION it started at. -/
  ingest : List Nat
  ingestBase : Nat × Nat
  /-- The running checkpoint copy: source, namespace entry, block, ingots, direction. -/
  ckpt : Option (Nat × Nat × Nat × Nat × Bool)
  /-- A GO written in the cycle in which the running copy ends: the word written (R10, R496). -/
  ckptAgain : Option Nat
  /-- The links up that are not in FLIT mode. -/
  noFlit : List Nat
  /-- The BAR2 size in force, set at the last link reset (R490). -/
  bar2Log : Nat
  deriving DecidableEq, Repr

/-! ## The values of these at reset -/

/-- PWR_GOOD and RESET_N low, nothing running, Nominal (R457, R512); the fuses as on a sound part. -/
def PowerS.init : PowerS :=
  { pwrGood := false, resetN := false, tripped := false, profile := 1, relock := none, stbyLost := true, fuseW := true, fuseE := false,
    echoDue := false, hbSeen := false }

/-- No stamp received (R45). -/
def TallyS.init : TallyS := { stamps := [], boundOff := false, hold := 0, adj := 0, orphan := false, counters := [] }

/-- A ledger that has never been written (R400). -/
def Ledger.init : Ledger := { ring := [], slot := 0, head := 0, mirror := [] }

/-- The management subsystem before its first start. -/
def MgmtS.init : MgmtS :=
  { sessions := [], sbQueue := [], sb := [], sbNext := 0, sbDropped := 0, trace := [],
    rails := [⟨some false, 0⟩, ⟨some true, 1⟩], i3cTargets := 0, i3c := [], ibiLog := [], powerLog := [],
    railPower := [], sensorWait := [], tripArm := [], tripLatch := false, lpW := 0, lpE := 0, levelW := 0, levelE := 0,
    subs := [], subLast := 3, subWait := 0, started := false }

/-- An unclaimed device (R430) whose halves are FREE_CLEAN (R443). -/
def SecS.init : SecS :=
  { serial := 0, mgmtRoot := [], fabricRoot := [], debugKey := [], pwSalt := [], pwHash := [], revoked := [], gen := 0,
    licences := [], licSeq := [], tenantRootW := [], tenantRootE := [], profBy := none, debugBy := none, wait := 0, waitAt := 0,
    addrFails := [], addrRefused := [], bundles := [], bundleAgain := [], winnows := [], measW := [], measE := [] }

/-- No repair entry, no settings, empty slots, no update. -/
def BootS.init : BootS :=
  { step := 0, cause := 0, fused := [], fusedSpare := [], shift := [], tiles := [], rows := [], pageGen := 0,
    settingsFormat := 1, settingsFabric := none, settings := [], slotA := [], slotB := [], update := none,
    runB := false, uhleaFormat := 1, kicked := false, pageBad := false, sbHead0 := none, sbHead1 := none }

/-- No namespace, nothing armed. -/
def FeedS.init : FeedS :=
  { ns := [], armed := none, cmds := [], nextCmd := 0, ingest := [], ingestBase := (0, 0), ckpt := none, ckptAgain := none, noFlit := [],
    bar2Log := 20 }

/-! ## Units, queues and fields -/

/-- A scheduled source at a tile's port (R247): the tile, the unit's slot (as a slot key) and its output; `none`: its halo walk. -/
structure PortSrc where
  tile : Nat
  unit : Nat
  out : Option Nat
  deriving DecidableEq, Repr

/-- A queue (R114–R116) with its edge: the tokens it holds, head first; the tokens sent and not yet arrived, oldest first;
the producer's credits; the credits freed and not yet back at the producer; the epoch and SEQ it expects (R112, R151); whether a MARK
has been stored in it as POISON (R158); the sources at which the youngest of the tokens in flight still wait for their tile's port,
oldest first (R247). -/
structure Queue where
  base : Nat
  depth : Nat
  starve : Nat
  tokens : List Token
  flight : List Token
  credits : Nat
  freed : Nat
  epoch : Bool
  seq : Nat
  markLost : Bool
  wait : List PortSrc
  deriving DecidableEq, Repr

/-- A unit's configuration: its UNITS item, and the FIELDS or STREAM item that follows it (Table 6-5, R148). An input is a
queue of the unit's own tile, an output a tile and a queue; `none` where unused. -/
structure Cfg where
  num : Nat
  cls : Nat
  ii : Nat
  param : Nat
  ins : List (Option Nat)
  outs : List (Option (Nat × Nat))
  body : List Byte
  extra : List Byte
  deriving DecidableEq, Repr

/-- A token a walk has still to emit, or a row: the output port's role, the kind, the payload. A row in flight has no value
yet (R165). -/
inductive WalkTok where
  | tok (role : Nat) (kind : Nat) (payload : Row)
  | void (role : Nat) (n : Nat)
  | row (addr : Nat) (masked : Bool) (got : Option (Row × Bool))
  deriving DecidableEq, Repr

/-- A walk in progress (R163–R172): its START adjustment, whether it is faulted or started by a VOID token, the iteration
reached (level 0 first; `none`: all visited), the extent sample, what has been fetched or prepared and not yet emitted in
walk order, the rows of the walk a writer has written, whether the walk's first row has been issued. -/
structure Walk where
  adj : Int
  fault : Bool
  void : Bool
  idx : Option (List Nat)
  ext : Nat × Nat
  ahead : List WalkTok
  rows : Nat
  deriving DecidableEq, Repr

/-- A row-statistic entry: m, l, f as FP32 encodings (R205). -/
structure RowStat where
  m : Nat
  l : Nat
  f : Nat
  deriving DecidableEq, Repr

/-- One firing's part of a reduction span: the firing's place in the span, the value (`none`: every element absent), the
index of an ARGMAX (R203). -/
structure RedPart where
  at_ : Nat
  val : Option Nat
  idx : Nat
  deriving DecidableEq, Repr

/-- A strand context (R185): element counter, place in the reduction span, the partials of the span by instruction, the row
entries (unlisted: −∞, 0, 1.0), the firings issued and output so far, finished firings by number with their output tokens
(kind and payload by port), and the value a VSETE of this core cycle leaves in the counter (R216). -/
structure VxCtx where
  elem : Nat
  span : Nat
  parts : FMap (List RedPart)
  rows : FMap RowStat
  issued : Nat
  output : Nat
  done : FMap (Nat × List Row)
  vsete : Option Nat
  deriving DecidableEq, Repr

/-- What a control-core operator waits for. -/
inductive CcWait where
  | none
  | load (rd : Nat)
  | store
  | till (rd : Nat)
  | barrier (b : Nat)
  | vote (ch rd : Nat) (isAnd poisoned : Bool)
  | tally (n : Nat)
  /-- Core cycles until its instruction is done (MUL; Table 8-9). -/
  | cycles (n : Nat)
  deriving DecidableEq, Repr

/-- A control-core operator (R206): PC, registers with their poison bits, token buffer with a poison bit per word, EX, SAT,
PSN; whether it has executed EEND, whether it is stopped by a fault (R213), what it waits for. -/
structure CcCtx where
  pc : Nat
  regs : FMap Nat
  poison : FMap Unit
  buf : Row
  bufPoison : Nat
  ex : Bool
  sat : Bool
  psn : Bool
  ended : Bool
  faulted : Bool
  wait : CcWait
  deriving DecidableEq, Repr

/-- An operator slot (R107): active and shadow configuration, the configuration messages gathered for the shadow with
their number, epoch and count, the epoch, the closed inputs and the configurations their MARKs named, the next SEQ of each
port, cycles since the last firing, whether it fired in this cycle, whether it swapped in this cycle (R153), the rotation turn, what is
left of the control word or the copies (0: a fresh one), the rows of a scheduled halo that wait at the port (R180, R247), the core cycles of its idle stretch without those of cause preempt, whether
STALL_LONG has been set for that stretch (R122), the context of its class. -/
structure Slot where
  active : Option Cfg
  shadow : Option Cfg
  parts : FMap (List Byte)
  partNum : Nat
  partEpoch : Bool
  epoch : Bool
  closed : List Nat
  marks : List Nat
  seqs : FMap Nat
  since : Nat
  fired : Bool
  swapped : Bool
  turn : Nat
  left : Nat
  halo : Nat
  idle : Nat
  stalled : Bool
  walk : Option Walk
  walked : Bool
  vx : VxCtx
  cc : CcCtx
  deriving DecidableEq, Repr

/-- A firing executing on a lane group (R186–R188): its operator's slot and number, the instruction to come, the inputs and
broadcast slots as sampled, the transients, the output tokens so far, whether it met POISON or VOID, its element index and
place in the span, and whether a transient is NaN or infinite only for want of elements (R202). -/
structure VFire where
  slot : Nat
  num : Nat
  pc : Nat
  ins : List Row
  bslots : List Nat
  bpoison : Nat
  trans : List Row
  outs : List Row
  poison : Bool
  void : Bool
  elem : Nat
  span : Nat
  deriving DecidableEq, Repr

/-- An entry of the window pool (R231): 1 PENDING, 2 LOADING, 3 VALID, 4 BAD (a FREE handle is not listed). -/
structure WinEnt where
  state : Nat
  frame : Nat
  ingots : Nat
  remain : Nat
  age : Nat
  src : Nat
  deriving DecidableEq, Repr

/-- A request to or a reply from a slice or stack over the control or bounded plane, with its place in the order in which the messages of
the control network were sent (R212, R256). -/
structure MemReq where
  tile : Nat
  op : Nat
  write : Bool
  addr : Nat
  val : Nat
  poison : Bool
  seq : Nat
  deriving DecidableEq, Repr

/-- A till request, and its reply once made: old, EXHAUSTED, SATURATED, POISONED (R175); its place in the order of sending (R256). -/
structure TillReq where
  tile : Nat
  op : Nat
  addr : Nat
  addend : Nat
  limit : Nat
  reply : Option (Nat × Bool × Bool × Bool)
  seq : Nat
  deriving DecidableEq, Repr

/-- A tile beside its registers and slots: instruction memory with its data words (byte ranges), broadcast slots with their
poison bits, the window pool (entries by handle, the handles in age order, the head, the placement count), the scratchpad
split, whether operators of the tile have arrived at a barrier generation or voted, the lane groups' firings, the slot whose
firing issued last in the vector engine and the slot whose instruction issued last in the control core, with whether each has issued in
this core cycle (R109), the broadcasts of this core cycle (value, poison; R207), microcode received, tile commands received (R256), the tile
whose till request the slice served first in its last contended cycle and whether it has served one in this core cycle (R176), the
extents that samples of this core cycle take where a slot has been written in it, and the slots register space wrote (R183), the port
source the rotation starts at, the bounded flits that wait at the port, by virtual channel (R247, R253), and those that went to the fabric
interface in this core cycle (R349). -/
structure Tile where
  code : List Byte
  data : List (Nat × Nat)
  bslots : FMap Nat
  bpoison : Nat
  win : FMap WinEnt
  winOrder : List Nat
  winHead : Nat
  winPlaced : Nat
  stash : Nat
  window : Nat
  work : Nat
  groups : FMap VFire
  vxLast : Nat
  vxBusy : Bool
  ccLast : Nat
  ccBusy : Bool
  bnext : FMap (Nat × Bool)
  micro : FMap (List Byte)
  cmds : List (List Byte)
  arb : Nat
  tillBusy : Bool
  extOld : FMap (Nat × Nat)
  extReg : List Nat
  portTurn : Nat
  bulk : FMap Nat
  far : List Nat
  deriving DecidableEq, Repr

/-- A configuration message on its way: its 8-byte header and its 32-byte payload (R256). -/
structure CfgMsg where
  head : List Byte
  body : List Byte
  deriving DecidableEq, Repr

/-- A stationary register of a cell (R55): sign, significand with its leading bit explicit in the register's highest place, exponent
biased by 127, poison. The value is sig · 2^(exp − 138); exponent 255 stands for an infinity (significand 0) and for NaN. -/
structure Cell where
  sign : Bool
  sig : BitVec 12
  exp : BitVec 8
  poison : Bool
  deriving DecidableEq, Repr

/-- The stationary registers of a block, active or shadow: rows of cells, the E8M0 scales of the columns, two for each column by scale
group (`true`: the byte is poisoned; none for a format without scales) (R55, R69, R77). A register no load has filled holds zero. -/
structure Cells where
  rows : List (List Cell)
  scales : List (Nat × Bool)
  deriving DecidableEq, Repr

/-- A stationary load under way: its source, core cycles until its last byte can be there (Table 3-5). -/
structure LoadJob where
  src : Nat
  left : Nat
  deriving DecidableEq, Repr

/-- A block of cells (R55, R77–R79): the active and shadow registers; whether the shadow holds a load that has not been swapped in, and
whether that load's last byte arrived in this core cycle; the load under way; the loads that wait, oldest first: source, and the tile
and slot of the stream engine that waits; the product registers of the last slot, rows of cells (one set, or two in paired
operation). -/
structure Block where
  active : Cells
  shadow : Cells
  full : Bool
  arrived : Bool
  loading : Option LoadJob
  waiting : List (Nat × Nat × Nat)
  prods : List (List (List Nat))
  deriving DecidableEq, Repr

/-- A run in progress (R92): slots, ACC_MODE, the next slot, whether the run faulted (R94), whether its token was POISON (R113). -/
structure Run where
  n : Nat
  mode : Nat
  at_ : Nat
  fault : Bool
  poison : Bool
  deriving DecidableEq, Repr

/-- A row handed to an injector (R68, R85): the row (`none`: masked fill), whether a POISON token or a poisoned word carried it, and for
an MX operand the scales of groups 0 and 1 of each vector, with whether they are poisoned. -/
structure FeedRow where
  row : Option Row
  poison : Bool
  scales : List (Nat × Nat × Bool)
  deriving DecidableEq, Repr

/-- An accumulator row of 64 columns of one block (R93): `none` a poisoned row; an unlisted row is absent. -/
abbrev AccRow := Option (List Nat)

/-- A field instance (R83): its slot, and whether that slot holds it now; the shape, instance count and formats it last took (R106);
the run, its blocks by path index, its accumulator rows by group × 256 + row, the moving rows each level's reader has delivered, the
rows of fill each level's feed has still to skip (R89), the slide vectors still in the row buffers, newest first, by level (`true`:
POISON) (R102). -/
structure Inst where
  tile : Nat
  slot : Nat
  held : Bool
  shape : Nat
  count : Nat
  fmts : Nat
  run : Option Run
  blocks : FMap Block
  acc : FMap AccRow
  feed : FMap (List FeedRow)
  skip : FMap Nat
  slide : FMap (List (Bool × List (Option Nat)))
  deriving DecidableEq, Repr

/-- An image in force (R138, R147): its bytes, the staging buffer it lies in, the current configuration and the epoch bit
it has (R148), and the configuration whose slots are in force. -/
structure Image where
  bytes : List Byte
  bufB : Bool
  cur : Nat
  epoch : Bool
  prev : Nat
  /-- The stage request and lane allocation counts are not state; the tenant tag that loaded it is (R444). -/
  tag : Nat
  deriving DecidableEq, Repr

/-- The image staging buffers A and B of a half, as the bytes last written to them from their start, and which of them holds, or
last held, the image in force (R138, R220). -/
structure Staging where
  a : List Byte
  b : List Byte
  lastB : Bool
  deriving DecidableEq, Repr

/-- The networks: configuration messages, load and store requests and their replies, till requests, barriers' arrivals (the
tiles by barrier; in split tenancy, by half × 64 + barrier), votes of the current generation (tile, OR bit, AND bit) by channel,
the throttle level each half last sent, the levels on their way to the tiles with the cycles since each was sent (R264), the place of the next
message in the order of sending (R256). -/
structure NetS where
  cfg : List CfgMsg
  mem : List MemReq
  memBack : List MemReq
  till : List TillReq
  bars : FMap (List Nat)
  votes : FMap (List (Nat × Bool × Bool))
  sentW : Nat
  sentE : Nat
  levels : List (HalfId × Nat × Nat)
  next : Nat
  deriving DecidableEq, Repr

/-- An unallocated queue. -/
def Queue.init : Queue :=
  { base := 0, depth := 0, starve := 0, tokens := [], flight := [], credits := 0, freed := 0, epoch := false, seq := 0,
    markLost := false, wait := [] }

/-- A strand context after a swap (R185, R205). -/
def VxCtx.init : VxCtx := { elem := 0, span := 0, parts := [], rows := [], issued := 0, output := 0, done := [], vsete := none }

/-- A control-core operator's state cleared (R214). -/
def CcCtx.init : CcCtx :=
  { pc := 0, regs := [], poison := [], buf := 0, bufPoison := 0, ex := false, sat := false, psn := false, ended := false,
    faulted := false, wait := .none }

/-- An empty slot. -/
def Slot.init : Slot :=
  { active := none, shadow := none, parts := [], partNum := 0, partEpoch := false, epoch := false, closed := [], marks := [],
    seqs := [], since := 256, fired := false, swapped := false, turn := 0, left := 0, halo := 0, idle := 0, stalled := false, walk := none, walked := false,
    vx := VxCtx.init, cc := CcCtx.init }

/-- A tile before any load. The slice arbiter's first contended cycle starts its order at tile 0 (DESIGN CHOICE: R176 names no first
tile). -/
def Tile.init : Tile :=
  { code := [], data := [], bslots := [], bpoison := 0, win := [], winOrder := [], winHead := 0, winPlaced := 0, stash := 0,
    window := 0, work := 0, groups := [], vxLast := 31, vxBusy := false, ccLast := 31, ccBusy := false, bnext := [], micro := [],
    cmds := [], arb := 511, tillBusy := false, extOld := [], extReg := [], portTurn := 0, bulk := [], far := [0, 0, 0, 0] }

/-- Quiet networks. -/
def NetS.init : NetS :=
  { cfg := [], mem := [], memBack := [], till := [], bars := [], votes := [], sentW := 0, sentE := 0, levels := [], next := 0 }

/-! ## Links and the fabric -/

/-- A frame the device has sent and that is not acknowledged, or that waits for credits; `sent` counts how often it was
replayed (R326). -/
structure TxFrame where
  seq : Nat
  kind : Nat
  sched : Bool
  last : Bool
  vc : Nat
  cls : Nat
  slot : Nat
  xfer : Nat
  poison : Nat
  void : Nat
  units : List Row
  sent : Nat
  deriving DecidableEq, Repr

/-- A transfer rebuilt from DATA frames (R324): its frames' XFER, plane, virtual channel and buffer class (R348), whether LAST has come,
its tokens. -/
structure RxXfer where
  xfer : Nat
  sched : Bool
  vc : Nat
  cls : Nat
  done : Bool
  toks : List Token
  deriving DecidableEq, Repr

/-- A link port beside its LNK_ registers: sender (next SEQ, replay buffer, frames that wait for credits, credits by VC + 4 × class),
receiver (expected SEQ, whether a NAK is out, units taken in this tick by VC and by slot, tokens rebuilt by transfer), seal
batches (the frames received and not yet verified, batch numbers, key epoch), admission (step, the wait in BACKOFF in seconds after the
last failure, 0 after none, probe samples, widths, whether this end quarantined), misbehaviour by tick (R318–R340). -/
structure Port where
  txSeq : Nat
  replay : List TxFrame
  wait : List TxFrame
  txCred : List Nat
  /-- Credits given to the partner and not yet used, by VC + 4 × class (R327, R348). -/
  given : List Nat
  rxSeq : Nat
  nak : Bool
  used : List Nat
  slotUsed : List Nat
  rx : List RxXfer
  batch : List (Frame × FrameBody)
  txBatch : Nat
  rxBatch : Nat
  txInBatch : Nat
  keyEpoch : Nat
  step : Nat
  backoff : Nat
  probes : List Nat
  badDelay : Nat
  halfRx : Bool
  halfTx : Bool
  quarLocal : Bool
  /-- The partner names this device as its tally parent (R363). -/
  child : Bool
  sealNext : Bool
  misses : List Nat
  /-- The partner state and device state last told in a STATE frame. -/
  told : Nat × Nat
  /-- The slots of this tick in which a scheduled transfer has begun (R52). -/
  schedSlots : List Nat
  /-- The SEQ from which a replay goes on once the guard of a slot has passed (R49). -/
  replayAt : Option Nat
  /-- The fabric ID this end has named in the port's last admission, which its frames carry (R459). -/
  ownId : Nat
  deriving DecidableEq, Repr

/-- What a dynamic request is for: a stream unit, a COPY entry of a ledger, a mirror or delta. -/
inductive ReqUse where
  | unit (t s : Nat)
  | copy (h : Bool) (seq : Nat)
  | escrow (tensor : Nat)
  /-- A stream transfer that waits to be sent again: its stream and index (Table 14-4). -/
  | stream (key idx : Nat)
  deriving DecidableEq, Repr

/-- A dynamic request issued and not answered, or a stream transfer that waits (R354); `held`: it waits to be sent again. -/
structure Req where
  x : Xfer
  use : ReqUse
  tries : Nat
  held : Bool
  deriving DecidableEq, Repr

/-- A transfer of a stream: its index, whether it is the MARK that closes an epoch and the configuration that names, its rows, its pass
(R275, R358, R360). -/
structure StreamXf where
  idx : Nat
  mark : Option Nat
  rows : List (Row × Bool)
  pass : PassId
  deriving DecidableEq, Repr

/-- A send stream by peer and XFER: the rows of the walk under way, the transfers ready and not sent (index, rows), those sent
and not released, the next index, the releases received, the transfers that missed their slot (R356–R360). -/
structure SendS where
  rows : List (Row × Bool)
  ready : List StreamXf
  sent : List StreamXf
  next : Nat
  released : Nat
  missed : List Nat
  deriving DecidableEq, Repr

/-- A receive stream by peer and XFER: the next transfer whose token is due, the transfers written whose token is held (index,
MARK and its configuration, POISON), the tokens delivered that have not left their queue, oldest first (`true`: a MARK), the
transfers released, the sums to be sent on by transfer (R298), and by pass index of the sender its arrival buffer: step, replay count,
transfers that have come (R275). -/
structure RecvS where
  next : Nat
  held : List (Nat × Option Nat × Bool)
  queued : List Bool
  released : Nat
  sums : FMap (List (Option Nat))
  bufs : FMap (Nat × Nat × Nat)
  deriving DecidableEq, Repr

/-- A wave that has not gone to the parent (R363): its tick, the entries merged so far, the children that have sent their last frame. -/
structure Wave where
  tick : Nat
  entries : List VoteEntry
  done : List Nat
  deriving DecidableEq, Repr

/-- The fabric interfaces: requests by tag, streams, votes contributed and not yet in a wave, the waves that have not gone to the
parent, oldest first, the tick of the wave begun last, the master's open votes, results received, targets moved onto a detour, the GLOBAL writers (tile × 32 +
slot) a transfer of which has failed (Table 14-4). -/
structure FabS where
  reqs : FMap Req
  nextTag : Nat
  sends : FMap SendS
  recvs : FMap RecvS
  votes : List VoteEntry
  waves : List Wave
  lastWave : Option Nat
  opens : List VoteEntry
  results : List VoteEntry
  detours : List Nat
  failed : List Nat
  /-- Reduced half shards by layer × 2 (+ 1: the half that travels in the − direction), by 1,024 + layer a shard that is not in halves
  (Table 14-9): the FP32 elements of each transfer; poison as `none` (R297, R298, R361). -/
  reduced : FMap (FMap (List (Option Nat)))
  /-- The contributions of a sheaf that wait for the others, by layer × 2^32 + transfer and by rank (Table 14-9). -/
  parts : FMap (FMap (List (Option Nat)))
  deriving DecidableEq, Repr

/-- No credits of any virtual channel and class. -/
def noCredits : List Nat := [0, 0, 0, 0, 0, 0, 0, 0]

/-- A port in reset: no lane trained. -/
def Port.init : Port :=
  { txSeq := 0, replay := [], wait := [], txCred := noCredits, given := noCredits, rxSeq := 0, nak := false, used := noCredits,
    slotUsed := [0, 0, 0, 0], rx := [], batch := [], txBatch := 0, rxBatch := 0, txInBatch := 0, keyEpoch := 0, step := 0,
    backoff := 0, probes := [], badDelay := 0, halfRx := false, halfTx := false, quarLocal := false, child := false, sealNext := false,
    misses := [], told := (0, 0), schedSlots := [], replayAt := none, ownId := 0 }

/-- A stream nothing has used. -/
def SendS.init : SendS := { rows := [], ready := [], sent := [], next := 0, released := 0, missed := [] }
def RecvS.init : RecvS := { next := 0, held := [], queued := [], released := 0, sums := [], bufs := [] }

/-- Quiet fabric interfaces. -/
def FabS.init : FabS :=
  { reqs := [], nextTag := 0, sends := [], recvs := [], votes := [], waves := [], lastWave := none, opens := [], results := [],
    detours := [], failed := [], reduced := [], parts := [] }

/-! ## The step, the update engines, survival -/

/-- A pass in flight or abandoned: kind (Table 11-2), micro-batch, layer group, admission tick, replay count, its place in the
attempt's order of admission (R273, R275, R284). -/
structure Pass where
  kind : Nat
  mb : Nat
  group : Nat
  tick : Nat
  replays : Nat
  index : Nat
  deriving DecidableEq, Repr

/-- A run under way (R267–R293, R380): its RUN entry and the next S_a; the baseline (0 to be built, 1 being sent, 2 voted on, 3
passed) with the failure of one of its transfers; STEP_LIMIT and the seals so far; the entry of a STOP that waits; the entry and
tally of a PREEMPT that waits, and the tally of one that holds the run. Of the attempt in progress: S_a (`none` between
attempts); passes in flight and abandoned passes to be replayed; admission stopped; passes abandoned for good; the device's own
failure; the first failed layer; replays; the loss gate (0 open, 1 voted, 2 passed, 3 failed); layers voted, passed, updated;
the schedule records chosen by layer; mirrors unanswered; tensors mirrored (4,096: the parity deltas); FAB_IDLE and the slot
misses at its start; the ingots as they stood before it; the round voted on; its ATTEMPT entry. -/
structure RunS where
  entry : Nat
  start : Nat
  base : Nat
  baseFail : Option Nat
  limit : Nat
  seals : Nat
  stop : Option Nat
  preempt : Option (Nat × Nat)
  paused : Option Nat
  sa : Option Nat
  passes : List Pass
  replay : List Pass
  /-- The passes admitted in the attempt; those that have ended, by kind, micro-batch and group; of TAIL, the layers refreshed (kind 5,
  layer). -/
  admitted : Nat
  ended : List (Nat × Nat × Nat)
  stopped : Bool
  dirty : Bool
  fail : Option Nat
  firstLayer : Nat
  replays : Nat
  /-- A pass of the attempt has met an EPOCH_FAULT (R157). -/
  epoch : Bool
  gate : Nat
  gradVoted : List Nat
  grads : List Nat
  updated : List Nat
  chosen : FMap (List Byte)
  acks : Nat
  mirrored : List Nat
  idle0 : List Nat
  miss0 : Nat
  old : FMap (List Byte)
  roundVoted : Option Nat
  aEntry : Nat
  deriving DecidableEq, Repr

/-- One step controller (R269): the run, the schedule records held (64 bytes each), a hold by recovery. -/
structure StepS where
  run : Option RunS
  sched : List (List Byte)
  hold : Bool
  deriving DecidableEq, Repr

/-- A layer block being updated: layer and block, by the group that works on it (R301). -/
structure UpdS where
  busy : FMap (Nat × Nat)
  /-- The next block to dispatch of each layer. -/
  next : FMap Nat
  /-- Blocks finished of each layer. -/
  done : FMap Nat
  /-- Engine MACs beyond the last 4,096 that UPD_MACS counts. -/
  macs : Nat
  deriving DecidableEq, Repr

/-- A recovery this device runs as master (Table 15-3): the step, the lost devices, the tenant tag, N_r. -/
structure Recovery where
  step : Nat
  lost : List Nat
  tag : Nat
  resume : Nat
  deriving DecidableEq, Repr

/-- Survival: the slot that is CUR of each held copy (owner × 65,536 + tensor; unlisted: SLOT0) and of each parity ingot
(2^32 + its number; unlisted: the first); the parity ingots changed in PEND; the ranks whose units have arrived at a stripe in a
baseline; the owner's tensors that mirror to their alternate; whether a refresh has run since a tensor's last mirror; the
digests to which restored ingots are held; the recovery run as master; the last 64 seal-round results (master). -/
structure SrvS where
  cur : FMap Nat
  parPend : List Nat
  stripes : FMap (List Nat)
  alt : List Nat
  refreshed : List Nat
  digests : FMap (List Nat)
  recovery : Option Recovery
  rounds : List VoteEntry
  deriving DecidableEq, Repr

def StepS.init : StepS := { run := none, sched := [], hold := false }
def UpdS.init : UpdS := { busy := [], next := [], done := [], macs := 0 }
def SrvS.init : SrvS :=
  { cur := [], parPend := [], stripes := [], alt := [], refreshed := [], digests := [], recovery := none, rounds := [] }

/-- Everything the spec gives the device (and, marked so, the fields the model adds). -/
structure Dev where
  /-- Register fields by bit address (8 × register-space offset + lowest bit); an unlisted field holds its reset value (R54 and the register rules of every chapter). -/
  regs : FMap Nat
  /-- Stack memory and scratchpad bytes by local address (R218), strictly rising, no entry zero; an unlisted byte reads 0: every word is written as zeros at bring-up, by a cold reset and by a winnow (Table 19-3, Table 19-5, Table 18-8). -/
  mem : List Host.Cell
  /-- The 64-bit words written as poison, by address div 8 (R237). -/
  poison : FMap Unit
  /-- Power, clocks, pins. -/
  pw : PowerS
  /-- The tally beside the TAL_ registers. -/
  tally : TallyS
  /-- The ledger of the whole device, or of the west half in split tenancy (R400). -/
  led0 : Ledger
  /-- The ledger of the east half in split tenancy (R400). -/
  led1 : Ledger
  /-- The management subsystem. -/
  mg : MgmtS
  /-- Access, licences, tenancy. -/
  sec : SecS
  /-- Boot, repair, firmware. -/
  boot : BootS
  /-- The feed port. -/
  feed : FeedS
  /-- The queues by tile × 128 + queue; unlisted: depth 0 (R114). -/
  queues : FMap Queue
  /-- The operator slots by tile × 32 + slot; unlisted: empty (R107). -/
  slots : FMap Slot
  /-- The tiles; unlisted: as before any load. -/
  tiles : FMap Tile
  /-- The field instances by site × 64 + instance (R83). -/
  insts : FMap Inst
  /-- Unmasked products of each field site beyond the last 4,096 that FLD_PRODUCTS counts (R105). -/
  products : FMap Nat
  /-- The image in force of the whole device, or of the west half in split tenancy (R147). -/
  img0 : Option Image
  /-- The image in force of the east half in split tenancy. -/
  img1 : Option Image
  /-- The staging buffers of the whole device, or of the west half in split tenancy (R220). -/
  stage0 : Staging
  /-- The staging buffers of the east half in split tenancy. -/
  stage1 : Staging
  /-- The on-device networks (R245–R265). -/
  net : NetS
  /-- The MODEL's own field: the faults of Table 11-3 that tiles and stacks have reported (half, row of the table from 1) and the step controller has not yet acted on (R282). -/
  faults : List (Bool × Nat)
  /-- The west half's units are held: at a pass boundary, or while passes are abandoned (R120, R283). -/
  heldW : Bool
  /-- The same for the east half. -/
  heldE : Bool
  /-- Ingots whose uncorrectable words await a refetch, in the order they were detected, with the slice and handle of the window entry where the read was a window load (R239, R242). -/
  refetch : List (Nat × Option (Nat × Nat))
  /-- The ingots an escrow refetch has repaired since the last step ended (R242). -/
  refetched : List Nat
  /-- The link ports; unlisted: in reset (R318). -/
  ports : FMap Port
  /-- The fabric interfaces (R342–R368). -/
  fab : FabS
  /-- The step controller of the whole device, or of the west half in split tenancy (R269). -/
  step0 : StepS
  /-- The step controller of the east half in split tenancy. -/
  step1 : StepS
  /-- The update engines (R300–R317). -/
  upd : UpdS
  /-- Survival and recovery (R369–R389). -/
  srv : SrvS
  /-- The MODEL's own field: what the device has sent or driven outward, oldest first. -/
  out : List Out
  /-- The MODEL's own field: how many free values have been taken (Config.freeWord). -/
  free : Nat
  deriving DecidableEq, Repr

/-- The device held in reset: every field at the value the spec states for reset, or the one a log entry names. -/
def Dev.reset : Dev :=
  { regs := [],
    mem := [],
    poison := [],
    pw := PowerS.init,
    tally := TallyS.init,
    led0 := Ledger.init,
    led1 := Ledger.init,
    mg := MgmtS.init,
    sec := SecS.init,
    boot := BootS.init,
    feed := FeedS.init,
    queues := [],
    slots := [],
    tiles := [],
    insts := [],
    products := [],
    img0 := none,
    img1 := none,
    stage0 := ⟨[], [], true⟩,
    stage1 := ⟨[], [], true⟩,
    net := NetS.init,
    faults := [],
    heldW := false,
    heldE := false,
    refetch := [],
    refetched := [],
    ports := [],
    fab := FabS.init,
    step0 := StepS.init,
    step1 := StepS.init,
    upd := UpdS.init,
    srv := SrvS.init,
    out := [],
    free := 0 }

end Sys2Proof.Machine
end

