-- ==== Sys2Proof/Machine/FMap.lean ====
section
/-! DEFINITION. The operations on sparse state: look up, set, remove, the canonical form (strictly rising keys). -/

namespace Sys2Proof.Machine

/-- The value at key `k`, if one is listed. -/
def fmGet {α : Type} : FMap α → Nat → Option α
  | [], _ => none
  | (k', v) :: m, k => if k' = k then some v else fmGet m k

/-- The map with `v` at key `k`; the keys stay rising. -/
def fmSet {α : Type} : FMap α → Nat → α → FMap α
  | [], k, v => [(k, v)]
  | (k', v') :: m, k, v =>
    if k < k' then (k, v) :: (k', v') :: m
    else if k = k' then (k, v) :: m
    else (k', v') :: fmSet m k v

/-- The map without key `k`. -/
def fmErase {α : Type} (m : FMap α) (k : Nat) : FMap α := m.filter fun p => p.1 != k

/-- The map without the keys from `lo` up to but not including `hi`. -/
def fmEraseRange {α : Type} (m : FMap α) (lo hi : Nat) : FMap α :=
  m.filter fun p => !(lo ≤ p.1 && p.1 < hi)

/-- Strictly rising keys above `b` (`none`: no bound). -/
def fmSorted {α : Type} : Option Nat → FMap α → Bool
  | _, [] => true
  | none, (k, _) :: m => fmSorted (some k) m
  | some b, (k, _) :: m => decide (b < k) && fmSorted (some k) m

/-- The canonical form of a sparse map. -/
abbrev fmWf {α : Type} (m : FMap α) : Bool := fmSorted none m

/-- The value at `k` changed by `f`; an unlisted key counts as `dflt`. -/
def fmMod {α : Type} (m : FMap α) (k : Nat) (dflt : α) (f : α → α) : FMap α :=
  fmSet m k (f ((fmGet m k).getD dflt))

/-- Every listed value changed by `f`. -/
def fmMap {α : Type} (m : FMap α) (f : Nat → α → α) : FMap α :=
  m.map fun p => (p.1, f p.1 p.2)

end Sys2Proof.Machine
end

