-- ==== Sys2Proof/Machine/Fields.lean ====
section
/-! DEFINITION. The fields of every register the spec's register tables name (one constant each: the
register-space offset of Table 9-2 and the register's own offset table, the bit range, the access type of Table 0-2 and
the reset value), the event bits with the counter beside each (R9), and the list of registers. -/

namespace Sys2Proof.Machine

/-- The access types of Table 0-2 (R7). -/
inductive Acc where
  | ro | rw | wo | w1c | w1s | rc | rwl
  deriving DecidableEq, Repr

/-- One register field: the register-space offset `off` of its register (of the instance with every index zero), its
lowest bit `lo`, its width `w`, its access type and its reset value. -/
structure Fld where
  off : Nat
  lo : Nat
  w : Nat
  acc : Acc
  rst : Nat
  deriving DecidableEq, Repr

/-- One register: the offset of its first instance, how often and at which strides it repeats, and its fields. A bit of no
field is reserved (R6). -/
structure RegDef where
  off : Nat
  dims : List (Nat × Nat)
  fields : List Fld
  deriving DecidableEq, Repr

/-- A W1C event bit and the counter beside it (R9). -/
structure Ev where
  bit : Fld
  cnt : Fld
  deriving DecidableEq, Repr

namespace F

def TAL_COUNT_COUNT : Fld := ⟨0x100000, 0, 64, .ro, 0x0⟩
def TAL_PHASE_CYCLE : Fld := ⟨0x100008, 0, 11, .ro, 0x0⟩
def TAL_PHASE_SLOT : Fld := ⟨0x100008, 11, 2, .ro, 0x0⟩
def TAL_STATUS_STATE : Fld := ⟨0x100010, 0, 3, .ro, 0x0⟩
def TAL_STATUS_REF_PRESENT : Fld := ⟨0x100010, 3, 1, .ro, 0x0⟩
def TAL_STATUS_MASTER : Fld := ⟨0x100010, 4, 1, .ro, 0x0⟩
def TAL_STATUS_SCHED_EN : Fld := ⟨0x100010, 5, 1, .ro, 0x0⟩
def TAL_STATUS_PARENT : Fld := ⟨0x100010, 8, 4, .ro, 0xF⟩
def TAL_STATUS_DEPTH : Fld := ⟨0x100010, 12, 8, .ro, 0xFF⟩
def TAL_EVENT_REF_LOST : Fld := ⟨0x100018, 0, 1, .w1c, 0x0⟩
def TAL_EVENT_STAMP_LOST : Fld := ⟨0x100018, 1, 1, .w1c, 0x0⟩
def TAL_EVENT_STEPPED : Fld := ⟨0x100018, 2, 1, .w1c, 0x0⟩
def TAL_EVENT_PARENT_CHANGE : Fld := ⟨0x100018, 3, 1, .w1c, 0x0⟩
def TAL_EVENT_LATE_EXEC : Fld := ⟨0x100018, 4, 1, .w1c, 0x0⟩
def TAL_EVENT_HOLD_EXPIRED : Fld := ⟨0x100018, 5, 1, .w1c, 0x0⟩
def TAL_EVENT_BOUND_EXCEEDED : Fld := ⟨0x100018, 6, 1, .w1c, 0x0⟩
def TAL_EVCNT0_REF_LOST_CNT : Fld := ⟨0x100020, 0, 16, .ro, 0x0⟩
def TAL_EVCNT0_STAMP_LOST_CNT : Fld := ⟨0x100020, 16, 16, .ro, 0x0⟩
def TAL_EVCNT0_STEPPED_CNT : Fld := ⟨0x100020, 32, 16, .ro, 0x0⟩
def TAL_EVCNT0_PARENT_CHANGE_CNT : Fld := ⟨0x100020, 48, 16, .ro, 0x0⟩
def TAL_EVCNT1_LATE_EXEC_CNT : Fld := ⟨0x100028, 0, 16, .ro, 0x0⟩
def TAL_EVCNT1_HOLD_EXPIRED_CNT : Fld := ⟨0x100028, 16, 16, .ro, 0x0⟩
def TAL_EVCNT1_BOUND_EXCEEDED_CNT : Fld := ⟨0x100028, 32, 16, .ro, 0x0⟩
def TAL_OFFSET_OFFSET : Fld := ⟨0x100030, 0, 32, .ro, 0x0⟩
def TAL_CTRL_SCHED_OFF : Fld := ⟨0x100038, 0, 1, .rw, 0x0⟩
def TAL_CTRL_RELOCK : Fld := ⟨0x100038, 1, 1, .w1s, 0x0⟩
def TAL_SLOT_MASK_MASK : Fld := ⟨0x100040, 0, 60, .ro, 0x0⟩
def TAL_PENDING_COUNT : Fld := ⟨0x100048, 0, 9, .ro, 0x0⟩
def TAL_PORT_DELAY_DELAY : Fld := ⟨0x100080, 0, 32, .ro, 0x0⟩
def TAL_PORT_DELAY_VALID : Fld := ⟨0x100080, 32, 1, .ro, 0x0⟩
def FLD_CFG_SHAPE : Fld := ⟨0x4000000, 0, 3, .ro, 0x0⟩
def FLD_CFG_INST_COUNT : Fld := ⟨0x4000000, 4, 7, .ro, 0x0⟩
def FLD_STATUS_EPOCH : Fld := ⟨0x4000008, 0, 1, .ro, 0x0⟩
def FLD_STATUS_ACTIVE : Fld := ⟨0x4000008, 1, 1, .ro, 0x0⟩
def FLD_EVENT_INT_SAT : Fld := ⟨0x4000010, 0, 1, .w1c, 0x0⟩
def FLD_EVENT_POISON_OUT : Fld := ⟨0x4000010, 1, 1, .w1c, 0x0⟩
def FLD_EVENT_NAN_OUT : Fld := ⟨0x4000010, 2, 1, .w1c, 0x0⟩
def FLD_EVENT_SCALE_NONFINITE : Fld := ⟨0x4000010, 3, 1, .w1c, 0x0⟩
def FLD_EVENT_RUN_FAULT : Fld := ⟨0x4000010, 4, 1, .w1c, 0x0⟩
def FLD_EVCNT_INT_SAT_CNT : Fld := ⟨0x4000018, 0, 12, .ro, 0x0⟩
def FLD_EVCNT_POISON_OUT_CNT : Fld := ⟨0x4000018, 12, 12, .ro, 0x0⟩
def FLD_EVCNT_NAN_OUT_CNT : Fld := ⟨0x4000018, 24, 12, .ro, 0x0⟩
def FLD_EVCNT_SCALE_NONFINITE_CNT : Fld := ⟨0x4000018, 36, 12, .ro, 0x0⟩
def FLD_EVCNT_RUN_FAULT_CNT : Fld := ⟨0x4000018, 48, 12, .ro, 0x0⟩
def FLD_BEATS_COUNT : Fld := ⟨0x4000020, 0, 64, .ro, 0x0⟩
def FLD_PRODUCTS_COUNT : Fld := ⟨0x4000028, 0, 64, .ro, 0x0⟩
def FLD_INST_CFG_SFMT : Fld := ⟨0x4000100, 0, 4, .ro, 0x0⟩
def FLD_INST_CFG_MFMT : Fld := ⟨0x4000100, 4, 4, .ro, 0x0⟩
def FLD_INST_CFG_PAIR : Fld := ⟨0x4000100, 8, 1, .ro, 0x0⟩
def FLD_INST_CFG_ROW_SCALE : Fld := ⟨0x4000100, 9, 1, .ro, 0x0⟩
def FLD_INST_CFG_OUT_FMT : Fld := ⟨0x4000100, 10, 2, .ro, 0x0⟩
def FLD_INST_CFG_SLIDE : Fld := ⟨0x4000100, 12, 1, .ro, 0x0⟩
def FLD_INST_CFG_SLIDE_K : Fld := ⟨0x4000100, 13, 7, .ro, 0x0⟩
def FLD_INST_EXT_ROW_EXT : Fld := ⟨0x4000300, 0, 10, .ro, 0x0⟩
def FLD_INST_EXT_COL_EXT : Fld := ⟨0x4000300, 16, 13, .ro, 0x0⟩
def TIL_DF_STATUS_SLOTS_USED : Fld := ⟨0x1004000, 0, 6, .ro, 0x0⟩
def TIL_DF_STATUS_ENTRIES_ALLOC : Fld := ⟨0x1004000, 8, 14, .ro, 0x0⟩
def TIL_DF_STATUS_QUEUES_ALLOC : Fld := ⟨0x1004000, 24, 8, .ro, 0x0⟩
def TIL_DF_EVENT_SEQ_GAP : Fld := ⟨0x1004008, 0, 1, .w1c, 0x0⟩
def TIL_DF_EVENT_KIND_FAULT : Fld := ⟨0x1004008, 1, 1, .w1c, 0x0⟩
def TIL_DF_EVENT_STEER_FAULT : Fld := ⟨0x1004008, 2, 1, .w1c, 0x0⟩
def TIL_DF_EVENT_Q_OVERFLOW : Fld := ⟨0x1004008, 3, 1, .w1c, 0x0⟩
def TIL_DF_EVENT_POISON_DROPPED : Fld := ⟨0x1004008, 4, 1, .w1c, 0x0⟩
def TIL_DF_EVENT_STALL_LONG : Fld := ⟨0x1004008, 5, 1, .w1c, 0x0⟩
def TIL_DF_EVCNT_SEQ_GAP_CNT : Fld := ⟨0x1004010, 0, 10, .ro, 0x0⟩
def TIL_DF_EVCNT_KIND_FAULT_CNT : Fld := ⟨0x1004010, 10, 10, .ro, 0x0⟩
def TIL_DF_EVCNT_STEER_FAULT_CNT : Fld := ⟨0x1004010, 20, 10, .ro, 0x0⟩
def TIL_DF_EVCNT_Q_OVERFLOW_CNT : Fld := ⟨0x1004010, 30, 10, .ro, 0x0⟩
def TIL_DF_EVCNT_POISON_DROPPED_CNT : Fld := ⟨0x1004010, 40, 10, .ro, 0x0⟩
def TIL_DF_EVCNT_STALL_LONG_CNT : Fld := ⟨0x1004010, 50, 10, .ro, 0x0⟩
def TIL_DF_CTRL_CNT_CLEAR : Fld := ⟨0x1004018, 0, 1, .w1s, 0x0⟩
def TIL_DF_CTRL_STALL_LIMIT : Fld := ⟨0x1004018, 16, 16, .rw, 0x0⟩
def TIL_SLOT_MISS_COUNT : Fld := ⟨0x1004020, 0, 64, .ro, 0x0⟩
def TIL_POISON_DROP_COUNT : Fld := ⟨0x1004028, 0, 64, .ro, 0x0⟩
def TIL_IDLE_COUNT : Fld := ⟨0x1004100, 0, 64, .ro, 0x0⟩
def TIL_Q_STATUS_DEPTH : Fld := ⟨0x1004400, 0, 14, .ro, 0x0⟩
def TIL_Q_STATUS_OCCUPANCY : Fld := ⟨0x1004400, 14, 14, .ro, 0x0⟩
def TIL_Q_STATUS_HEAD_KIND : Fld := ⟨0x1004400, 28, 3, .ro, 0x0⟩
def TIL_Q_STATUS_HEAD_EPOCH : Fld := ⟨0x1004400, 31, 1, .ro, 0x0⟩
def TIL_Q_STATUS_HEAD_SEQ : Fld := ⟨0x1004400, 32, 12, .ro, 0x0⟩
def TIL_Q_STATUS_STARVE_CLASS : Fld := ⟨0x1004400, 44, 3, .ro, 0x0⟩
def TIL_UNIT_CNT_COUNT : Fld := ⟨0x1005000, 0, 64, .ro, 0x0⟩
def TIL_SE_STATUS_ACTIVE : Fld := ⟨0x1002000, 0, 1, .ro, 0x0⟩
def TIL_SE_STATUS_EPOCH : Fld := ⟨0x1002000, 1, 1, .ro, 0x0⟩
def TIL_SE_STATUS_AHEAD : Fld := ⟨0x1002000, 8, 7, .ro, 0x0⟩
def TIL_SE_ROWS_COUNT : Fld := ⟨0x1002008, 0, 64, .ro, 0x0⟩
def TIL_SE_TILES_COMPUTED : Fld := ⟨0x1002010, 0, 32, .ro, 0x0⟩
def TIL_SE_TILES_SKIPPED : Fld := ⟨0x1002010, 32, 32, .ro, 0x0⟩
def TIL_SE_VOID_COUNT : Fld := ⟨0x1002018, 0, 64, .ro, 0x0⟩
def TIL_SE_EVENT_WALK_FAULT : Fld := ⟨0x1002100, 0, 1, .w1c, 0x0⟩
def TIL_SE_EVENT_POISON_READ : Fld := ⟨0x1002100, 1, 1, .w1c, 0x0⟩
def TIL_SE_EVCNT_WALK_FAULT_CNT : Fld := ⟨0x1002108, 0, 16, .ro, 0x0⟩
def TIL_SE_EVCNT_POISON_READ_CNT : Fld := ⟨0x1002108, 16, 16, .ro, 0x0⟩
def TIL_EXT_EXT_M : Fld := ⟨0x1002200, 0, 32, .rw, 0xFFFFFFFF⟩
def TIL_EXT_EXT_N : Fld := ⟨0x1002200, 32, 32, .rw, 0xFFFFFFFF⟩
def TIL_TILL_EVENT_SATURATED : Fld := ⟨0x1002400, 0, 1, .w1c, 0x0⟩
def TIL_TILL_EVENT_POISONED : Fld := ⟨0x1002400, 1, 1, .w1c, 0x0⟩
def TIL_TILL_EVENT_ALIGN : Fld := ⟨0x1002400, 2, 1, .w1c, 0x0⟩
def TIL_TILL_EVCNT_SATURATED_CNT : Fld := ⟨0x1002408, 0, 16, .ro, 0x0⟩
def TIL_TILL_EVCNT_POISONED_CNT : Fld := ⟨0x1002408, 16, 16, .ro, 0x0⟩
def TIL_TILL_EVCNT_ALIGN_CNT : Fld := ⟨0x1002408, 32, 16, .ro, 0x0⟩
def TIL_TILL_OPS_COUNT : Fld := ⟨0x1002410, 0, 64, .ro, 0x0⟩
def TIL_VX_STATUS_GROUPS_BUSY : Fld := ⟨0x1003000, 0, 5, .ro, 0x0⟩
def TIL_VX_STATUS_SLOT_POISON : Fld := ⟨0x1003000, 8, 8, .ro, 0x0⟩
def TIL_VX_EVENT_NONFINITE : Fld := ⟨0x1003008, 0, 1, .w1c, 0x0⟩
def TIL_VX_EVENT_INT_SAT : Fld := ⟨0x1003008, 1, 1, .w1c, 0x0⟩
def TIL_VX_EVENT_SLOT_POISON : Fld := ⟨0x1003008, 2, 1, .w1c, 0x0⟩
def TIL_VX_EVCNT_NONFINITE_CNT : Fld := ⟨0x1003010, 0, 16, .ro, 0x0⟩
def TIL_VX_EVCNT_INT_SAT_CNT : Fld := ⟨0x1003010, 16, 16, .ro, 0x0⟩
def TIL_VX_EVCNT_SLOT_POISON_CNT : Fld := ⟨0x1003010, 32, 16, .ro, 0x0⟩
def TIL_VX_VOTE_NF : Fld := ⟨0x1003018, 0, 1, .ro, 0x0⟩
def TIL_VX_SEED_SEED : Fld := ⟨0x1003020, 0, 32, .ro, 0x0⟩
def TIL_VX_STEP_STEP : Fld := ⟨0x1003028, 0, 64, .ro, 0x0⟩
def TIL_VX_ISSUED_COUNT : Fld := ⟨0x1003030, 0, 64, .ro, 0x0⟩
def TIL_VX_GROUP_CYC_COUNT : Fld := ⟨0x1003038, 0, 64, .ro, 0x0⟩
def TIL_BSLOT_VALUE : Fld := ⟨0x1003100, 0, 64, .ro, 0x0⟩
def TIL_CC_STATUS_ACTIVE : Fld := ⟨0x1003200, 0, 8, .ro, 0x0⟩
def TIL_CC_STATUS_FAULTED : Fld := ⟨0x1003200, 8, 8, .ro, 0x0⟩
def TIL_CC_EVENT_ALIGN : Fld := ⟨0x1003208, 0, 1, .w1c, 0x0⟩
def TIL_CC_EVENT_BOUNDS : Fld := ⟨0x1003208, 1, 1, .w1c, 0x0⟩
def TIL_CC_EVENT_POISON_USE : Fld := ⟨0x1003208, 2, 1, .w1c, 0x0⟩
def TIL_CC_EVENT_BAD_KIND : Fld := ⟨0x1003208, 3, 1, .w1c, 0x0⟩
def TIL_CC_EVENT_STAGE : Fld := ⟨0x1003208, 4, 1, .w1c, 0x0⟩
def TIL_CC_EVCNT_ALIGN_CNT : Fld := ⟨0x1003210, 0, 12, .ro, 0x0⟩
def TIL_CC_EVCNT_BOUNDS_CNT : Fld := ⟨0x1003210, 12, 12, .ro, 0x0⟩
def TIL_CC_EVCNT_POISON_USE_CNT : Fld := ⟨0x1003210, 24, 12, .ro, 0x0⟩
def TIL_CC_EVCNT_BAD_KIND_CNT : Fld := ⟨0x1003210, 36, 12, .ro, 0x0⟩
def TIL_CC_EVCNT_STAGE_CNT : Fld := ⟨0x1003210, 48, 12, .ro, 0x0⟩
def TIL_CC_INSTR_COUNT : Fld := ⟨0x1003218, 0, 64, .ro, 0x0⟩
def TIL_CC_PC_PC : Fld := ⟨0x1003300, 0, 16, .ro, 0x0⟩
def TIL_CC_PC_WAITING : Fld := ⟨0x1003300, 16, 1, .ro, 0x0⟩
def TIL_MEM_EVENT_SP_CORR : Fld := ⟨0x1006000, 0, 1, .w1c, 0x0⟩
def TIL_MEM_EVENT_SP_UNCORR : Fld := ⟨0x1006000, 1, 1, .w1c, 0x0⟩
def TIL_MEM_EVENT_SP_POISON_READ : Fld := ⟨0x1006000, 2, 1, .w1c, 0x0⟩
def TIL_MEM_EVENT_WIN_REFUSED : Fld := ⟨0x1006000, 3, 1, .w1c, 0x0⟩
def TIL_MEM_EVENT_WIN_BAD : Fld := ⟨0x1006000, 4, 1, .w1c, 0x0⟩
def TIL_MEM_EVENT_WIN_MISUSE : Fld := ⟨0x1006000, 5, 1, .w1c, 0x0⟩
def TIL_MEM_EVCNT_SP_CORR_CNT : Fld := ⟨0x1006008, 0, 10, .ro, 0x0⟩
def TIL_MEM_EVCNT_SP_UNCORR_CNT : Fld := ⟨0x1006008, 10, 10, .ro, 0x0⟩
def TIL_MEM_EVCNT_SP_POISON_READ_CNT : Fld := ⟨0x1006008, 20, 10, .ro, 0x0⟩
def TIL_MEM_EVCNT_WIN_REFUSED_CNT : Fld := ⟨0x1006008, 30, 10, .ro, 0x0⟩
def TIL_MEM_EVCNT_WIN_BAD_CNT : Fld := ⟨0x1006008, 40, 10, .ro, 0x0⟩
def TIL_MEM_EVCNT_WIN_MISUSE_CNT : Fld := ⟨0x1006008, 50, 10, .ro, 0x0⟩
def TIL_WIN_STATUS_FRAMES : Fld := ⟨0x1006010, 0, 10, .ro, 0x0⟩
def TIL_WIN_STATUS_HEAD : Fld := ⟨0x1006010, 10, 10, .ro, 0x0⟩
def TIL_WIN_STATUS_LIVE : Fld := ⟨0x1006010, 20, 9, .ro, 0x0⟩
def TIL_WIN_STATUS_PENDING : Fld := ⟨0x1006010, 29, 3, .ro, 0x0⟩
def TIL_WIN_STATUS_LAST_STATUS : Fld := ⟨0x1006010, 32, 8, .ro, 0x0⟩
def TIL_WIN_CMD_SRC_INGOT : Fld := ⟨0x1006018, 0, 28, .wo, 0x0⟩
def TIL_WIN_CMD_HANDLE : Fld := ⟨0x1006018, 28, 8, .wo, 0x0⟩
def TIL_WIN_CMD_INGOTS : Fld := ⟨0x1006018, 36, 10, .wo, 0x0⟩
def TIL_WIN_CMD_USES : Fld := ⟨0x1006018, 46, 16, .wo, 0x0⟩
def TIL_WIN_REL_HANDLE : Fld := ⟨0x1006020, 0, 8, .wo, 0x0⟩
def TIL_WIN_REL_COUNT : Fld := ⟨0x1006020, 8, 16, .wo, 0x0⟩
def TIL_WIN_ENT_STATE : Fld := ⟨0x1006800, 0, 3, .ro, 0x0⟩
def TIL_WIN_ENT_FRAME : Fld := ⟨0x1006800, 3, 10, .ro, 0x0⟩
def TIL_WIN_ENT_INGOTS : Fld := ⟨0x1006800, 13, 10, .ro, 0x0⟩
def TIL_WIN_ENT_REMAIN : Fld := ⟨0x1006800, 23, 16, .ro, 0x0⟩
def TIL_WIN_ENT_AGE : Fld := ⟨0x1006800, 39, 16, .ro, 0x0⟩
def STK_STATUS_TRAINED : Fld := ⟨0x5000000, 0, 1, .ro, 0x0⟩
def STK_STATUS_DEGRADED : Fld := ⟨0x5000000, 1, 1, .ro, 0x0⟩
def STK_STATUS_SCRUB_ACTIVE : Fld := ⟨0x5000000, 2, 1, .ro, 0x0⟩
def STK_STATUS_TEMP : Fld := ⟨0x5000000, 8, 8, .ro, 0x0⟩
def STK_EVENT_CORR : Fld := ⟨0x5000008, 0, 1, .w1c, 0x0⟩
def STK_EVENT_UNCORR : Fld := ⟨0x5000008, 1, 1, .w1c, 0x0⟩
def STK_EVENT_POISON_READ : Fld := ⟨0x5000008, 2, 1, .w1c, 0x0⟩
def STK_EVENT_ODECC : Fld := ⟨0x5000008, 3, 1, .w1c, 0x0⟩
def STK_EVENT_REFETCH_OK : Fld := ⟨0x5000008, 4, 1, .w1c, 0x0⟩
def STK_EVENT_REFETCH_FAIL : Fld := ⟨0x5000008, 5, 1, .w1c, 0x0⟩
def STK_EVENT_SOFT_REPAIR : Fld := ⟨0x5000008, 6, 1, .w1c, 0x0⟩
def STK_EVENT_TEMP_HIGH : Fld := ⟨0x5000008, 7, 1, .w1c, 0x0⟩
def STK_EVCNT0_CORR_CNT : Fld := ⟨0x5000010, 0, 16, .ro, 0x0⟩
def STK_EVCNT0_UNCORR_CNT : Fld := ⟨0x5000010, 16, 16, .ro, 0x0⟩
def STK_EVCNT0_POISON_READ_CNT : Fld := ⟨0x5000010, 32, 16, .ro, 0x0⟩
def STK_EVCNT0_TEMP_HIGH_CNT : Fld := ⟨0x5000010, 48, 16, .ro, 0x0⟩
def STK_EVCNT1_ODECC_CNT : Fld := ⟨0x5000018, 0, 16, .ro, 0x0⟩
def STK_EVCNT1_REFETCH_OK_CNT : Fld := ⟨0x5000018, 16, 16, .ro, 0x0⟩
def STK_EVCNT1_REFETCH_FAIL_CNT : Fld := ⟨0x5000018, 32, 16, .ro, 0x0⟩
def STK_EVCNT1_SOFT_REPAIR_CNT : Fld := ⟨0x5000018, 48, 16, .ro, 0x0⟩
def STK_LAST_ERR_ADDR : Fld := ⟨0x5000020, 0, 48, .ro, 0x0⟩
def STK_LAST_ERR_PC : Fld := ⟨0x5000020, 48, 6, .ro, 0x0⟩
def STK_SCRUB_PERIOD : Fld := ⟨0x5000028, 0, 16, .rw, 0x18⟩
def STK_RD_BYTES_COUNT : Fld := ⟨0x5000030, 0, 64, .ro, 0x0⟩
def STK_WR_BYTES_COUNT : Fld := ⟨0x5000038, 0, 64, .ro, 0x0⟩
def TIL_NI_MAP_LOGICAL : Fld := ⟨0x1007000, 0, 9, .ro, 0x0⟩
def TIL_NI_MAP_PROW : Fld := ⟨0x1007000, 9, 4, .ro, 0x0⟩
def TIL_NI_MAP_PCOL : Fld := ⟨0x1007000, 13, 5, .ro, 0x0⟩
def TIL_NI_MAP_SHIFT : Fld := ⟨0x1007000, 18, 5, .ro, 0x10⟩
def TIL_NI_EVENT_FLIT_CORR : Fld := ⟨0x1007008, 0, 1, .w1c, 0x0⟩
def TIL_NI_EVENT_FLIT_UNCORR : Fld := ⟨0x1007008, 1, 1, .w1c, 0x0⟩
def TIL_NI_EVENT_HDR_DROP : Fld := ⟨0x1007008, 2, 1, .w1c, 0x0⟩
def TIL_NI_EVENT_CTL_DROP : Fld := ⟨0x1007008, 3, 1, .w1c, 0x0⟩
def TIL_NI_EVCNT_FLIT_CORR_CNT : Fld := ⟨0x1007010, 0, 16, .ro, 0x0⟩
def TIL_NI_EVCNT_FLIT_UNCORR_CNT : Fld := ⟨0x1007010, 16, 16, .ro, 0x0⟩
def TIL_NI_EVCNT_HDR_DROP_CNT : Fld := ⟨0x1007010, 32, 16, .ro, 0x0⟩
def TIL_NI_EVCNT_CTL_DROP_CNT : Fld := ⟨0x1007010, 48, 16, .ro, 0x0⟩
def TIL_NI_TX_SCHED : Fld := ⟨0x1007018, 0, 32, .ro, 0x0⟩
def TIL_NI_TX_BOUNDED : Fld := ⟨0x1007018, 32, 32, .ro, 0x0⟩
def TIL_NI_PORT_WAIT_COUNT : Fld := ⟨0x1007020, 0, 64, .ro, 0x0⟩
def TIL_SYNC_BMASK_MASK : Fld := ⟨0x1007028, 0, 64, .ro, 0x0⟩
def DEV_STEP_STATUS_PHASE : Fld := ⟨0x1000, 0, 4, .ro, 0x0⟩
def DEV_STEP_STATUS_EAGER : Fld := ⟨0x1000, 4, 1, .ro, 0x0⟩
def DEV_STEP_STATUS_IN_FLIGHT : Fld := ⟨0x1000, 8, 7, .ro, 0x0⟩
def DEV_STEP_STATUS_ROUND : Fld := ⟨0x1000, 16, 8, .ro, 0x0⟩
def DEV_STEP_STATUS_LAST_STATUS : Fld := ⟨0x1000, 24, 8, .ro, 0x0⟩
def DEV_STEP_STATUS_SKIPS : Fld := ⟨0x1000, 32, 16, .ro, 0x0⟩
def DEV_STEP_NUM_N : Fld := ⟨0x1008, 0, 64, .ro, 0x0⟩
def DEV_STEP_ATTEMPTS_COUNT : Fld := ⟨0x1010, 0, 64, .ro, 0x0⟩
def DEV_STEP_EVENT_LOSS_NF : Fld := ⟨0x1018, 0, 1, .w1c, 0x0⟩
def DEV_STEP_EVENT_GRAD_NF : Fld := ⟨0x1018, 1, 1, .w1c, 0x0⟩
def DEV_STEP_EVENT_POISON : Fld := ⟨0x1018, 2, 1, .w1c, 0x0⟩
def DEV_STEP_EVENT_ABANDON : Fld := ⟨0x1018, 3, 1, .w1c, 0x0⟩
def DEV_STEP_EVENT_REPLAY_LIMIT : Fld := ⟨0x1018, 4, 1, .w1c, 0x0⟩
def DEV_STEP_EVENT_SEAL_TIMEOUT : Fld := ⟨0x1018, 5, 1, .w1c, 0x0⟩
def DEV_STEP_EVENT_SEAL_UNKNOWN : Fld := ⟨0x1018, 6, 1, .w1c, 0x0⟩
def DEV_STEP_EVENT_PREEMPTED : Fld := ⟨0x1018, 7, 1, .w1c, 0x0⟩
def DEV_STEP_EVCNT0_LOSS_NF_CNT : Fld := ⟨0x1020, 0, 16, .ro, 0x0⟩
def DEV_STEP_EVCNT0_GRAD_NF_CNT : Fld := ⟨0x1020, 16, 16, .ro, 0x0⟩
def DEV_STEP_EVCNT0_POISON_CNT : Fld := ⟨0x1020, 32, 16, .ro, 0x0⟩
def DEV_STEP_EVCNT0_ABANDON_CNT : Fld := ⟨0x1020, 48, 16, .ro, 0x0⟩
def DEV_STEP_EVCNT1_REPLAY_LIMIT_CNT : Fld := ⟨0x1028, 0, 16, .ro, 0x0⟩
def DEV_STEP_EVCNT1_SEAL_TIMEOUT_CNT : Fld := ⟨0x1028, 16, 16, .ro, 0x0⟩
def DEV_STEP_EVCNT1_SEAL_UNKNOWN_CNT : Fld := ⟨0x1028, 32, 16, .ro, 0x0⟩
def DEV_STEP_EVCNT1_PREEMPTED_CNT : Fld := ⟨0x1028, 48, 16, .ro, 0x0⟩
def DEV_STEP_REPLAYS_COUNT : Fld := ⟨0x1030, 0, 64, .ro, 0x0⟩
def DEV_STEP_SEAL_TALLY : Fld := ⟨0x1038, 0, 64, .ro, 0x0⟩
def DEV_STEP_SEL_SEL : Fld := ⟨0x1100, 0, 64, .ro, 0x0⟩
def DEV_STEP_COMMIT_COMMIT : Fld := ⟨0x1120, 0, 64, .ro, 0x0⟩
def UPD_STATUS_BUSY : Fld := ⟨0x6008000, 0, 16, .ro, 0x0⟩
def UPD_STATUS_SCHED_USED : Fld := ⟨0x6008000, 16, 13, .ro, 0x0⟩
def UPD_STATUS_LAYER : Fld := ⟨0x6008000, 32, 16, .ro, 0x0⟩
def UPD_EVENT_RED_NF : Fld := ⟨0x6008008, 0, 1, .w1c, 0x0⟩
def UPD_EVENT_UPDATE_NF : Fld := ⟨0x6008008, 1, 1, .w1c, 0x0⟩
def UPD_EVENT_POISON : Fld := ⟨0x6008008, 2, 1, .w1c, 0x0⟩
def UPD_EVENT_ROOT_NONFINITE : Fld := ⟨0x6008008, 3, 1, .w1c, 0x0⟩
def UPD_EVENT_ROOT_NOCONV : Fld := ⟨0x6008008, 4, 1, .w1c, 0x0⟩
def UPD_EVENT_SCHED_MISSING : Fld := ⟨0x6008008, 5, 1, .w1c, 0x0⟩
def UPD_EVCNT0_RED_NF_CNT : Fld := ⟨0x6008010, 0, 16, .ro, 0x0⟩
def UPD_EVCNT0_UPDATE_NF_CNT : Fld := ⟨0x6008010, 16, 16, .ro, 0x0⟩
def UPD_EVCNT0_POISON_CNT : Fld := ⟨0x6008010, 32, 16, .ro, 0x0⟩
def UPD_EVCNT1_ROOT_NONFINITE_CNT : Fld := ⟨0x6008018, 0, 16, .ro, 0x0⟩
def UPD_EVCNT1_ROOT_NOCONV_CNT : Fld := ⟨0x6008018, 16, 16, .ro, 0x0⟩
def UPD_EVCNT1_SCHED_MISSING_CNT : Fld := ⟨0x6008018, 32, 16, .ro, 0x0⟩
def UPD_ELEMENTS_COUNT : Fld := ⟨0x6008020, 0, 64, .ro, 0x0⟩
def UPD_MACS_COUNT : Fld := ⟨0x6008028, 0, 64, .ro, 0x0⟩
def UPD_REFRESH_DONE : Fld := ⟨0x6008030, 0, 32, .ro, 0x0⟩
def UPD_REFRESH_KEPT : Fld := ⟨0x6008030, 32, 32, .ro, 0x0⟩
def LNK_STATUS_LINK : Fld := ⟨0x7000000, 0, 3, .ro, 0x0⟩
def LNK_STATUS_PARTNER : Fld := ⟨0x7000000, 3, 3, .ro, 0x0⟩
def LNK_STATUS_HALF_WIDTH : Fld := ⟨0x7000000, 6, 1, .ro, 0x0⟩
def LNK_STATUS_SEALED : Fld := ⟨0x7000000, 7, 1, .ro, 0x0⟩
def LNK_STATUS_CLASS : Fld := ⟨0x7000000, 8, 1, .ro, 0x0⟩
def LNK_STATUS_QUAR_REMOTE : Fld := ⟨0x7000000, 9, 1, .ro, 0x0⟩
def LNK_STATUS_SCHED_OK : Fld := ⟨0x7000000, 10, 1, .ro, 0x0⟩
def LNK_STATUS_SPARE_TX : Fld := ⟨0x7000000, 11, 4, .ro, 0xF⟩
def LNK_STATUS_SPARE_RX : Fld := ⟨0x7000000, 15, 4, .ro, 0xF⟩
def LNK_PARTNER_FABRIC_ID : Fld := ⟨0x7000008, 0, 16, .ro, 0x0⟩
def LNK_PARTNER_PORT : Fld := ⟨0x7000008, 16, 4, .ro, 0x0⟩
def LNK_PARTNER_PROFILE : Fld := ⟨0x7000008, 20, 2, .ro, 0x0⟩
def LNK_PARTNER_STATE : Fld := ⟨0x7000008, 22, 3, .ro, 0x0⟩
def LNK_CTRL_SEAL_REQ : Fld := ⟨0x7000010, 0, 1, .rw, 0x0⟩
def LNK_CTRL_QUARANTINE : Fld := ⟨0x7000010, 1, 1, .w1s, 0x0⟩
def LNK_CTRL_RELEASE : Fld := ⟨0x7000010, 2, 1, .w1s, 0x0⟩
def LNK_CTRL_READMIT : Fld := ⟨0x7000010, 3, 1, .w1s, 0x0⟩
def LNK_CTRL_QUAR_AUTO : Fld := ⟨0x7000010, 4, 1, .rw, 0x1⟩
def LNK_CTRL_QUAR_LIMIT : Fld := ⟨0x7000010, 16, 16, .rw, 0x40⟩
def LNK_EVENT_ADMIT_FAIL : Fld := ⟨0x7000018, 0, 1, .w1c, 0x0⟩
def LNK_EVENT_ID_MISMATCH : Fld := ⟨0x7000018, 1, 1, .w1c, 0x0⟩
def LNK_EVENT_SRC_DROP : Fld := ⟨0x7000018, 2, 1, .w1c, 0x0⟩
def LNK_EVENT_OVERRUN : Fld := ⟨0x7000018, 3, 1, .w1c, 0x0⟩
def LNK_EVENT_MALFORMED : Fld := ⟨0x7000018, 4, 1, .w1c, 0x0⟩
def LNK_EVENT_SEAL_FAIL : Fld := ⟨0x7000018, 5, 1, .w1c, 0x0⟩
def LNK_EVENT_REPLAY : Fld := ⟨0x7000018, 6, 1, .w1c, 0x0⟩
def LNK_EVENT_RETRAIN : Fld := ⟨0x7000018, 7, 1, .w1c, 0x0⟩
def LNK_EVENT_SPARE_SUB : Fld := ⟨0x7000018, 8, 1, .w1c, 0x0⟩
def LNK_EVENT_QUARANTINED : Fld := ⟨0x7000018, 9, 1, .w1c, 0x0⟩
def LNK_EVCNT0_ADMIT_FAIL_CNT : Fld := ⟨0x7000020, 0, 12, .ro, 0x0⟩
def LNK_EVCNT0_ID_MISMATCH_CNT : Fld := ⟨0x7000020, 12, 12, .ro, 0x0⟩
def LNK_EVCNT0_SRC_DROP_CNT : Fld := ⟨0x7000020, 24, 12, .ro, 0x0⟩
def LNK_EVCNT0_OVERRUN_CNT : Fld := ⟨0x7000020, 36, 12, .ro, 0x0⟩
def LNK_EVCNT0_MALFORMED_CNT : Fld := ⟨0x7000020, 48, 12, .ro, 0x0⟩
def LNK_EVCNT1_SEAL_FAIL_CNT : Fld := ⟨0x7000028, 0, 12, .ro, 0x0⟩
def LNK_EVCNT1_REPLAY_CNT : Fld := ⟨0x7000028, 12, 12, .ro, 0x0⟩
def LNK_EVCNT1_RETRAIN_CNT : Fld := ⟨0x7000028, 24, 12, .ro, 0x0⟩
def LNK_EVCNT1_SPARE_SUB_CNT : Fld := ⟨0x7000028, 36, 12, .ro, 0x0⟩
def LNK_EVCNT1_QUARANTINED_CNT : Fld := ⟨0x7000028, 48, 12, .ro, 0x0⟩
def LNK_ADMIT_STATUS : Fld := ⟨0x7000030, 0, 8, .ro, 0x0⟩
def LNK_ADMIT_STEP : Fld := ⟨0x7000030, 8, 3, .ro, 0x0⟩
def LNK_ADMIT_ATTEMPTS : Fld := ⟨0x7000030, 16, 16, .ro, 0x0⟩
def LNK_RATE_VC0 : Fld := ⟨0x7000038, 0, 16, .rw, 0xFFFF⟩
def LNK_RATE_VC1 : Fld := ⟨0x7000038, 16, 16, .rw, 0xFFFF⟩
def LNK_RATE_VC2 : Fld := ⟨0x7000038, 32, 16, .rw, 0xFFFF⟩
def LNK_RATE_VC3 : Fld := ⟨0x7000038, 48, 16, .rw, 0xFFFF⟩
def LNK_EXPECT_SERIAL_SERIAL : Fld := ⟨0x7000040, 0, 64, .rw, 0x0⟩
def LNK_FEC_CORRECTED : Fld := ⟨0x7000048, 0, 32, .ro, 0x0⟩
def LNK_FEC_UNCORRECTED : Fld := ⟨0x7000048, 32, 32, .ro, 0x0⟩
def LNK_TX_UNITS_COUNT : Fld := ⟨0x7000050, 0, 64, .ro, 0x0⟩
def LNK_RX_UNITS_COUNT : Fld := ⟨0x7000058, 0, 64, .ro, 0x0⟩
def LNK_PARTNER_SERIAL_SERIAL : Fld := ⟨0x7000060, 0, 64, .ro, 0x0⟩
def LNK_LANE_SYM_ERR : Fld := ⟨0x7000100, 0, 32, .ro, 0x0⟩
def LNK_LANE_EYE_H : Fld := ⟨0x7000100, 32, 8, .ro, 0x0⟩
def LNK_LANE_EYE_V : Fld := ⟨0x7000100, 40, 8, .ro, 0x0⟩
def LNK_LANE_ACTIVE : Fld := ⟨0x7000100, 48, 1, .ro, 0x0⟩
def LNK_LANE_FAILED : Fld := ⟨0x7000100, 49, 1, .ro, 0x0⟩
def FAB_STATUS_HELD : Fld := ⟨0x6000000, 0, 16, .ro, 0x0⟩
def FAB_STATUS_OUTSTANDING : Fld := ⟨0x6000000, 16, 16, .ro, 0x0⟩
def FAB_STATUS_OPEN_VOTES : Fld := ⟨0x6000000, 32, 11, .ro, 0x0⟩
def FAB_COORD_X : Fld := ⟨0x6000008, 0, 8, .ro, 0x0⟩
def FAB_COORD_Y : Fld := ⟨0x6000008, 8, 8, .ro, 0x0⟩
def FAB_COORD_Z : Fld := ⟨0x6000008, 16, 8, .ro, 0x0⟩
def FAB_COORD_W : Fld := ⟨0x6000008, 24, 8, .ro, 0x0⟩
def FAB_COORD_RANK : Fld := ⟨0x6000008, 32, 3, .ro, 0x0⟩
def FAB_COORD_TENANT : Fld := ⟨0x6000008, 48, 16, .ro, 0x0⟩
def FAB_CTRL_RTIMEOUT : Fld := ⟨0x6000010, 0, 16, .rw, 0x1000⟩
def FAB_CTRL_RETRIES : Fld := ⟨0x6000010, 16, 8, .rw, 0x8⟩
def FAB_CTRL_RETRY_TICKS : Fld := ⟨0x6000010, 24, 8, .rw, 0x1⟩
def FAB_CTRL_ORIGIN_LIMIT : Fld := ⟨0x6000010, 32, 16, .rw, 0x40⟩
def FAB_EVENT_ORIGIN_DROP : Fld := ⟨0x6000018, 0, 1, .w1c, 0x0⟩
def FAB_EVENT_WINDOW_DENY : Fld := ⟨0x6000018, 1, 1, .w1c, 0x0⟩
def FAB_EVENT_ORIGIN_BUSY : Fld := ⟨0x6000018, 2, 1, .w1c, 0x0⟩
def FAB_EVENT_DETOUR : Fld := ⟨0x6000018, 3, 1, .w1c, 0x0⟩
def FAB_EVENT_REMOTE_TIMEOUT : Fld := ⟨0x6000018, 4, 1, .w1c, 0x0⟩
def FAB_EVENT_STREAM_UNKNOWN : Fld := ⟨0x6000018, 5, 1, .w1c, 0x0⟩
def FAB_EVENT_LATE_RESPONSE : Fld := ⟨0x6000018, 6, 1, .w1c, 0x0⟩
def FAB_EVENT_VOTE_LATE : Fld := ⟨0x6000018, 7, 1, .w1c, 0x0⟩
def FAB_EVCNT0_ORIGIN_DROP_CNT : Fld := ⟨0x6000020, 0, 16, .ro, 0x0⟩
def FAB_EVCNT0_WINDOW_DENY_CNT : Fld := ⟨0x6000020, 16, 16, .ro, 0x0⟩
def FAB_EVCNT0_ORIGIN_BUSY_CNT : Fld := ⟨0x6000020, 32, 16, .ro, 0x0⟩
def FAB_EVCNT0_DETOUR_CNT : Fld := ⟨0x6000020, 48, 16, .ro, 0x0⟩
def FAB_EVCNT1_REMOTE_TIMEOUT_CNT : Fld := ⟨0x6000028, 0, 16, .ro, 0x0⟩
def FAB_EVCNT1_STREAM_UNKNOWN_CNT : Fld := ⟨0x6000028, 16, 16, .ro, 0x0⟩
def FAB_EVCNT1_LATE_RESPONSE_CNT : Fld := ⟨0x6000028, 32, 16, .ro, 0x0⟩
def FAB_EVCNT1_VOTE_LATE_CNT : Fld := ⟨0x6000028, 48, 16, .ro, 0x0⟩
def FAB_REMOTE_ISSUED : Fld := ⟨0x6000030, 0, 32, .ro, 0x0⟩
def FAB_REMOTE_SERVED : Fld := ⟨0x6000030, 32, 32, .ro, 0x0⟩
def FAB_WIN_BASE_BASE : Fld := ⟨0x6000100, 0, 48, .rw, 0x0⟩
def FAB_WIN_BASE_RD : Fld := ⟨0x6000100, 48, 1, .rw, 0x0⟩
def FAB_WIN_BASE_WR : Fld := ⟨0x6000100, 49, 1, .rw, 0x0⟩
def FAB_WIN_BASE_ATOM : Fld := ⟨0x6000100, 50, 1, .rw, 0x0⟩
def FAB_WIN_LEN_LEN : Fld := ⟨0x6000108, 0, 48, .rw, 0x0⟩
def FAB_WIN_LEN_TENANT : Fld := ⟨0x6000108, 48, 16, .rw, 0x0⟩
def FAB_IDLE_COUNT : Fld := ⟨0x6000200, 0, 64, .ro, 0x0⟩
def FAB_IDLE_LAST_COUNT : Fld := ⟨0x6000300, 0, 64, .ro, 0x0⟩
def FAB_NF_NF : Fld := ⟨0x6000400, 0, 64, .ro, 0x0⟩
def DEV_SRV_STATUS_STEP : Fld := ⟨0x1200, 0, 4, .ro, 0x0⟩
def DEV_SRV_STATUS_MASTER : Fld := ⟨0x1200, 4, 1, .ro, 0x0⟩
def DEV_SRV_STATUS_ALT_IN_USE : Fld := ⟨0x1200, 5, 1, .ro, 0x0⟩
def DEV_SRV_STATUS_LOST : Fld := ⟨0x1200, 16, 16, .ro, 0x0⟩
def DEV_SRV_RESUME_STEP : Fld := ⟨0x1208, 0, 64, .ro, 0x0⟩
def DEV_SRV_EVENT_MIRROR_FAIL : Fld := ⟨0x1210, 0, 1, .w1c, 0x0⟩
def DEV_SRV_EVENT_DIGEST_FAIL : Fld := ⟨0x1210, 1, 1, .w1c, 0x0⟩
def DEV_SRV_EVENT_REPLICA_MISMATCH : Fld := ⟨0x1210, 2, 1, .w1c, 0x0⟩
def DEV_SRV_EVENT_LATE_SEAL : Fld := ⟨0x1210, 3, 1, .w1c, 0x0⟩
def DEV_SRV_EVENT_REPAIRED : Fld := ⟨0x1210, 4, 1, .w1c, 0x0⟩
def DEV_SRV_EVENT_RECOVERY_START : Fld := ⟨0x1210, 5, 1, .w1c, 0x0⟩
def DEV_SRV_EVENT_RECOVERY_OK : Fld := ⟨0x1210, 6, 1, .w1c, 0x0⟩
def DEV_SRV_EVENT_RECOVERY_FAIL : Fld := ⟨0x1210, 7, 1, .w1c, 0x0⟩
def DEV_SRV_EVCNT0_MIRROR_FAIL_CNT : Fld := ⟨0x1218, 0, 16, .ro, 0x0⟩
def DEV_SRV_EVCNT0_DIGEST_FAIL_CNT : Fld := ⟨0x1218, 16, 16, .ro, 0x0⟩
def DEV_SRV_EVCNT0_REPLICA_MISMATCH_CNT : Fld := ⟨0x1218, 32, 16, .ro, 0x0⟩
def DEV_SRV_EVCNT0_LATE_SEAL_CNT : Fld := ⟨0x1218, 48, 16, .ro, 0x0⟩
def DEV_SRV_EVCNT1_REPAIRED_CNT : Fld := ⟨0x1220, 0, 16, .ro, 0x0⟩
def DEV_SRV_EVCNT1_RECOVERY_START_CNT : Fld := ⟨0x1220, 16, 16, .ro, 0x0⟩
def DEV_SRV_EVCNT1_RECOVERY_OK_CNT : Fld := ⟨0x1220, 32, 16, .ro, 0x0⟩
def DEV_SRV_EVCNT1_RECOVERY_FAIL_CNT : Fld := ⟨0x1220, 48, 16, .ro, 0x0⟩
def DEV_SRV_INGOTS_MIRRORED : Fld := ⟨0x1228, 0, 32, .ro, 0x0⟩
def DEV_SRV_INGOTS_RESTORED : Fld := ⟨0x1228, 32, 32, .ro, 0x0⟩
def CMD_STATUS_QUEUED : Fld := ⟨0x200000, 0, 28, .ro, 0x0⟩
def CMD_STATUS_UNENDED : Fld := ⟨0x200000, 28, 10, .ro, 0x0⟩
def CMD_STATUS_PENDING : Fld := ⟨0x200000, 38, 9, .ro, 0x0⟩
def CMD_EVENT_REFUSED : Fld := ⟨0x200008, 0, 1, .w1c, 0x0⟩
def CMD_EVENT_DUPLICATE : Fld := ⟨0x200008, 1, 1, .w1c, 0x0⟩
def CMD_EVENT_QUEUE_FULL : Fld := ⟨0x200008, 2, 1, .w1c, 0x0⟩
def CMD_EVENT_RESET_LOST : Fld := ⟨0x200008, 3, 1, .w1c, 0x0⟩
def CMD_EVCNT_REFUSED_CNT : Fld := ⟨0x200010, 0, 16, .ro, 0x0⟩
def CMD_EVCNT_DUPLICATE_CNT : Fld := ⟨0x200010, 16, 16, .ro, 0x0⟩
def CMD_EVCNT_QUEUE_FULL_CNT : Fld := ⟨0x200010, 32, 16, .ro, 0x0⟩
def CMD_EVCNT_RESET_LOST_CNT : Fld := ⟨0x200010, 48, 16, .ro, 0x0⟩
def CMD_ACCEPTED_COUNT : Fld := ⟨0x200018, 0, 64, .ro, 0x0⟩
def CMD_RESP_STATUS : Fld := ⟨0x200020, 0, 8, .ro, 0x0⟩
def CMD_RESP_STATE : Fld := ⟨0x200020, 8, 8, .ro, 0x0⟩
def CMD_RESP_DIFFERS : Fld := ⟨0x200020, 16, 1, .ro, 0x0⟩
def CMD_RESP_VALID : Fld := ⟨0x200020, 17, 1, .ro, 0x0⟩
def CMD_RESP_SEQ_SEQ : Fld := ⟨0x200028, 0, 64, .ro, 0x0⟩
def CMD_SUB_DATA : Fld := ⟨0x200040, 0, 64, .wo, 0x0⟩
def LGR_HEAD_SEQ : Fld := ⟨0x200100, 0, 64, .ro, 0x0⟩
def LGR_TAIL_SEQ : Fld := ⟨0x200108, 0, 64, .ro, 0x0⟩
def LGR_MIRROR_TAIL_SEQ : Fld := ⟨0x200110, 0, 64, .ro, 0x0⟩
def LGR_SEL_SEQ : Fld := ⟨0x200118, 0, 64, .rw, 0x0⟩
def LGR_CTRL_HALF : Fld := ⟨0x200120, 0, 1, .rw, 0x0⟩
def LGR_CTRL_FOUND : Fld := ⟨0x200120, 1, 1, .ro, 0x0⟩
def LGR_DATA_DATA : Fld := ⟨0x200140, 0, 64, .ro, 0x0⟩
def MBX_STATUS_RUNNING : Fld := ⟨0xA000000, 0, 1, .ro, 0x0⟩
def MBX_STATUS_SLOT : Fld := ⟨0xA000000, 1, 1, .ro, 0x0⟩
def MBX_STATUS_SRAM_KEPT : Fld := ⟨0xA000000, 2, 1, .ro, 0x0⟩
def MBX_STATUS_PORT_UP : Fld := ⟨0xA000000, 3, 1, .ro, 0x0⟩
def MBX_STATUS_THROT_W : Fld := ⟨0xA000000, 8, 5, .ro, 0x0⟩
def MBX_STATUS_THROT_E : Fld := ⟨0xA000000, 13, 5, .ro, 0x0⟩
def MBX_STATUS_BOOT : Fld := ⟨0xA000000, 32, 32, .ro, 0x0⟩
def MBX_EVENT_THERM_THROTTLE : Fld := ⟨0xA000008, 0, 1, .w1c, 0x0⟩
def MBX_EVENT_THERM_TRIP : Fld := ⟨0xA000008, 1, 1, .w1c, 0x0⟩
def MBX_EVENT_REG_FAULT : Fld := ⟨0xA000008, 2, 1, .w1c, 0x0⟩
def MBX_EVENT_PMBUS_ERR : Fld := ⟨0xA000008, 3, 1, .w1c, 0x0⟩
def MBX_EVENT_I3C_ERR : Fld := ⟨0xA000008, 4, 1, .w1c, 0x0⟩
def MBX_EVENT_SENSOR_FAIL : Fld := ⟨0xA000008, 5, 1, .w1c, 0x0⟩
def MBX_EVENT_SB_TORN : Fld := ⟨0xA000008, 6, 1, .w1c, 0x0⟩
def MBX_EVENT_SB_DROPPED : Fld := ⟨0xA000008, 7, 1, .w1c, 0x0⟩
def MBX_EVENT_SESSION_FAIL : Fld := ⟨0xA000008, 8, 1, .w1c, 0x0⟩
def MBX_EVCNT0_THERM_THROTTLE_CNT : Fld := ⟨0xA000010, 0, 12, .ro, 0x0⟩
def MBX_EVCNT0_THERM_TRIP_CNT : Fld := ⟨0xA000010, 12, 12, .ro, 0x0⟩
def MBX_EVCNT0_REG_FAULT_CNT : Fld := ⟨0xA000010, 24, 12, .ro, 0x0⟩
def MBX_EVCNT0_PMBUS_ERR_CNT : Fld := ⟨0xA000010, 36, 12, .ro, 0x0⟩
def MBX_EVCNT0_I3C_ERR_CNT : Fld := ⟨0xA000010, 48, 12, .ro, 0x0⟩
def MBX_EVCNT1_SENSOR_FAIL_CNT : Fld := ⟨0xA000018, 0, 12, .ro, 0x0⟩
def MBX_EVCNT1_SB_TORN_CNT : Fld := ⟨0xA000018, 12, 12, .ro, 0x0⟩
def MBX_EVCNT1_SB_DROPPED_CNT : Fld := ⟨0xA000018, 24, 12, .ro, 0x0⟩
def MBX_EVCNT1_SESSION_FAIL_CNT : Fld := ⟨0xA000018, 36, 12, .ro, 0x0⟩
def MBX_ALERT_MASK_MASK : Fld := ⟨0xA000020, 0, 9, .rw, 0x1F7⟩
def MBX_RESET_CAUSE_LEVEL : Fld := ⟨0xA000028, 0, 8, .ro, 0x0⟩
def MBX_RESET_CAUSE_TRIP : Fld := ⟨0xA000028, 8, 1, .ro, 0x0⟩
def MBX_SB_HEAD_SEQ : Fld := ⟨0xA000030, 0, 64, .ro, 0x0⟩
def MBX_SB_STATUS_SECTOR : Fld := ⟨0xA000038, 0, 10, .ro, 0x0⟩
def MBX_SB_STATUS_QUEUED : Fld := ⟨0xA000038, 10, 9, .ro, 0x0⟩
def MBX_SB_STATUS_ERASING : Fld := ⟨0xA000038, 19, 1, .ro, 0x0⟩
def MBX_SB_STATUS_HELD : Fld := ⟨0xA000038, 20, 19, .ro, 0x0⟩
def MBX_POWER_LAST : Fld := ⟨0xA000040, 0, 32, .ro, 0x0⟩
def MBX_POWER_AVG : Fld := ⟨0xA000040, 32, 32, .ro, 0x0⟩
def MBX_TEMP_MAX : Fld := ⟨0xA000048, 0, 16, .ro, 0x0⟩
def MBX_TEMP_SENSOR : Fld := ⟨0xA000048, 16, 6, .ro, 0x0⟩
def MBX_PORT_LINK_UP : Fld := ⟨0xA000050, 0, 1, .ro, 0x0⟩
def MBX_PORT_FEC : Fld := ⟨0xA000050, 1, 1, .ro, 0x0⟩
def MBX_PORT_SESSIONS : Fld := ⟨0xA000050, 8, 5, .ro, 0x0⟩
def MBX_TRACE_CTRL_ENABLE : Fld := ⟨0xA000058, 0, 1, .rw, 0x0⟩
def MBX_TRACE_CTRL_WRAP : Fld := ⟨0xA000058, 1, 1, .rw, 0x0⟩
def MBX_TRACE_CTRL_COUNT : Fld := ⟨0xA000058, 32, 32, .ro, 0x0⟩
def MBX_SENSOR_TEMP : Fld := ⟨0xA000100, 0, 16, .ro, 0x0⟩
def MBX_SENSOR_VALID : Fld := ⟨0xA000100, 16, 1, .ro, 0x0⟩
def MBX_SENSOR_FAILED : Fld := ⟨0xA000100, 17, 1, .ro, 0x0⟩
def MBX_VTAP_MV : Fld := ⟨0xA000300, 0, 16, .ro, 0x0⟩
def MBX_VTAP_VALID : Fld := ⟨0xA000300, 16, 1, .ro, 0x0⟩
def MBX_RAIL_VOUT : Fld := ⟨0xA000380, 0, 16, .ro, 0x0⟩
def MBX_RAIL_IOUT : Fld := ⟨0xA000380, 16, 16, .ro, 0x0⟩
def MBX_RAIL_STATUS : Fld := ⟨0xA000380, 32, 16, .ro, 0x0⟩
def MBX_RAIL_VALID : Fld := ⟨0xA000380, 48, 1, .ro, 0x0⟩
def SEC_STATUS_CLAIMED : Fld := ⟨0x9000000, 0, 1, .ro, 0x0⟩
def SEC_STATUS_PROF_UNLOCKED : Fld := ⟨0x9000000, 1, 1, .ro, 0x0⟩
def SEC_STATUS_DEBUG_UNLOCKED : Fld := ⟨0x9000000, 2, 1, .ro, 0x0⟩
def SEC_STATUS_SPLIT : Fld := ⟨0x9000000, 3, 1, .ro, 0x0⟩
def SEC_STATUS_SCOPE_W : Fld := ⟨0x9000000, 4, 2, .ro, 0x0⟩
def SEC_STATUS_SCOPE_E : Fld := ⟨0x9000000, 6, 2, .ro, 0x0⟩
def SEC_STATUS_WINNOW_ACTIVE : Fld := ⟨0x9000000, 8, 1, .ro, 0x0⟩
def SEC_STATUS_TAG_W : Fld := ⟨0x9000000, 16, 16, .ro, 0x0⟩
def SEC_STATUS_TAG_E : Fld := ⟨0x9000000, 32, 16, .ro, 0x0⟩
def SEC_EVENT_AUTH_FAIL : Fld := ⟨0x9000008, 0, 1, .w1c, 0x0⟩
def SEC_EVENT_UNLOCK_FAIL : Fld := ⟨0x9000008, 1, 1, .w1c, 0x0⟩
def SEC_EVENT_UNLOCK : Fld := ⟨0x9000008, 2, 1, .w1c, 0x0⟩
def SEC_EVENT_LICENCE_REFUSED : Fld := ⟨0x9000008, 3, 1, .w1c, 0x0⟩
def SEC_EVENT_BUNDLE_FAIL : Fld := ⟨0x9000008, 4, 1, .w1c, 0x0⟩
def SEC_EVENT_WINNOW_FAIL : Fld := ⟨0x9000008, 5, 1, .w1c, 0x0⟩
def SEC_EVCNT_AUTH_FAIL_CNT : Fld := ⟨0x9000010, 0, 10, .ro, 0x0⟩
def SEC_EVCNT_UNLOCK_FAIL_CNT : Fld := ⟨0x9000010, 10, 10, .ro, 0x0⟩
def SEC_EVCNT_UNLOCK_CNT : Fld := ⟨0x9000010, 20, 10, .ro, 0x0⟩
def SEC_EVCNT_LICENCE_REFUSED_CNT : Fld := ⟨0x9000010, 30, 10, .ro, 0x0⟩
def SEC_EVCNT_BUNDLE_FAIL_CNT : Fld := ⟨0x9000010, 40, 10, .ro, 0x0⟩
def SEC_EVCNT_WINNOW_FAIL_CNT : Fld := ⟨0x9000010, 50, 10, .ro, 0x0⟩
def SEC_UNLOCK_CTRL_PROF_REQ : Fld := ⟨0x9000018, 0, 1, .w1s, 0x0⟩
def SEC_UNLOCK_CTRL_DEBUG_REQ : Fld := ⟨0x9000018, 1, 1, .w1s, 0x0⟩
def SEC_UNLOCK_CTRL_NONCE_REQ : Fld := ⟨0x9000018, 2, 1, .w1s, 0x0⟩
def SEC_UNLOCK_CTRL_LOCK : Fld := ⟨0x9000018, 3, 1, .w1s, 0x0⟩
def SEC_UNLOCK_STATUS_LAST_STATUS : Fld := ⟨0x9000020, 0, 8, .ro, 0x0⟩
def SEC_UNLOCK_STATUS_FAILS : Fld := ⟨0x9000020, 8, 8, .ro, 0x0⟩
def SEC_UNLOCK_STATUS_WAIT : Fld := ⟨0x9000020, 16, 16, .ro, 0x0⟩
def SEC_UNLOCK_STATUS_NONCE_VALID : Fld := ⟨0x9000020, 32, 1, .ro, 0x0⟩
def SEC_LIC_FEATURES : Fld := ⟨0x9000028, 0, 5, .ro, 0x0⟩
def SEC_LIC_COUNT : Fld := ⟨0x9000028, 8, 6, .ro, 0x0⟩
def SEC_NONCE_NONCE : Fld := ⟨0x9000040, 0, 64, .ro, 0x0⟩
def SEC_PW_PW : Fld := ⟨0x9000080, 0, 64, .wo, 0x0⟩
def SEC_SIG_SIG : Fld := ⟨0x9000100, 0, 64, .wo, 0x0⟩
def SEC_BND_SRC_ADDR : Fld := ⟨0x9000300, 0, 48, .rw, 0x0⟩
def SEC_BND_DST_ADDR : Fld := ⟨0x9000308, 0, 48, .rw, 0x0⟩
def SEC_BND_CTRL_GO : Fld := ⟨0x9000310, 0, 1, .w1s, 0x0⟩
def SEC_BND_STATUS_STATE : Fld := ⟨0x9000318, 0, 2, .ro, 0x0⟩
def SEC_BND_STATUS_LAST_STATUS : Fld := ⟨0x9000318, 8, 8, .ro, 0x0⟩
def SEC_BND_STATUS_INGOTS : Fld := ⟨0x9000318, 32, 32, .ro, 0x0⟩
def SEC_STAGE_DATA : Fld := ⟨0x9004000, 0, 64, .rw, 0x0⟩
def DEV_STATE_STATE_W : Fld := ⟨0x0, 0, 3, .ro, 0x0⟩
def DEV_STATE_SUB_W : Fld := ⟨0x0, 3, 1, .ro, 0x0⟩
def DEV_STATE_STATE_E : Fld := ⟨0x0, 4, 3, .ro, 0x0⟩
def DEV_STATE_SUB_E : Fld := ⟨0x0, 7, 1, .ro, 0x0⟩
def DEV_STATE_UPDATE_STAGED : Fld := ⟨0x0, 8, 1, .ro, 0x0⟩
def DEV_STATE_TRIAL : Fld := ⟨0x0, 9, 1, .ro, 0x0⟩
def DEV_STATE_DEGRADED_W : Fld := ⟨0x0, 10, 1, .ro, 0x0⟩
def DEV_STATE_DEGRADED_E : Fld := ⟨0x0, 11, 1, .ro, 0x0⟩
def DEV_EVENT_ORPHAN : Fld := ⟨0x8, 0, 1, .w1c, 0x0⟩
def DEV_EVENT_DUAL_CLAIM : Fld := ⟨0x8, 1, 1, .w1c, 0x0⟩
def DEV_EVENT_HB_MISS : Fld := ⟨0x8, 2, 1, .w1c, 0x0⟩
def DEV_EVENT_WDOG : Fld := ⟨0x8, 3, 1, .w1c, 0x0⟩
def DEV_EVENT_REPAIR_BAD : Fld := ⟨0x8, 4, 1, .w1c, 0x0⟩
def DEV_EVENT_REPAIR_FULL : Fld := ⟨0x8, 5, 1, .w1c, 0x0⟩
def DEV_EVENT_UPDATE_FAIL : Fld := ⟨0x8, 6, 1, .w1c, 0x0⟩
def DEV_EVENT_SETTINGS_RESET : Fld := ⟨0x8, 7, 1, .w1c, 0x0⟩
def DEV_EVCNT_ORPHAN_CNT : Fld := ⟨0x10, 0, 8, .ro, 0x0⟩
def DEV_EVCNT_DUAL_CLAIM_CNT : Fld := ⟨0x10, 8, 8, .ro, 0x0⟩
def DEV_EVCNT_HB_MISS_CNT : Fld := ⟨0x10, 16, 8, .ro, 0x0⟩
def DEV_EVCNT_WDOG_CNT : Fld := ⟨0x10, 24, 8, .ro, 0x0⟩
def DEV_EVCNT_REPAIR_BAD_CNT : Fld := ⟨0x10, 32, 8, .ro, 0x0⟩
def DEV_EVCNT_REPAIR_FULL_CNT : Fld := ⟨0x10, 40, 8, .ro, 0x0⟩
def DEV_EVCNT_UPDATE_FAIL_CNT : Fld := ⟨0x10, 48, 8, .ro, 0x0⟩
def DEV_EVCNT_SETTINGS_RESET_CNT : Fld := ⟨0x10, 56, 8, .ro, 0x0⟩
def DEV_FABRIC_ID : Fld := ⟨0x18, 0, 16, .rw, 0x0⟩
def DEV_FABRIC_VALID : Fld := ⟨0x18, 16, 1, .ro, 0x0⟩
def DEV_STRAPS_FEED_ID : Fld := ⟨0x20, 0, 4, .ro, 0x0⟩
def DEV_STRAPS_SHEAF_RANK : Fld := ⟨0x20, 4, 3, .ro, 0x0⟩
def DEV_STRAPS_TALLY_MASTER : Fld := ⟨0x20, 7, 1, .ro, 0x0⟩
def DEV_STRAPS_BOOT_SEL : Fld := ⟨0x20, 8, 2, .ro, 0x0⟩
def DEV_STRAPS_FEED_PORT_MODE : Fld := ⟨0x20, 10, 1, .ro, 0x0⟩
def DEV_REPAIR_TILES : Fld := ⟨0x28, 0, 7, .ro, 0x0⟩
def DEV_REPAIR_ROWS : Fld := ⟨0x28, 7, 8, .ro, 0x0⟩
def DEV_REPAIR_PENDING : Fld := ⟨0x28, 15, 1, .ro, 0x0⟩
def DEV_CHARGE_CLAIM_W : Fld := ⟨0x30, 0, 1, .ro, 0x0⟩
def DEV_CHARGE_CLAIM_E : Fld := ⟨0x30, 1, 1, .ro, 0x0⟩
def DEV_CHARGE_MISS_E : Fld := ⟨0x30, 2, 5, .ro, 0x0⟩
def DEV_CHARGE_MISS_W : Fld := ⟨0x30, 7, 5, .ro, 0x0⟩
def DEV_UPDATE_PHASE : Fld := ⟨0x38, 0, 3, .ro, 0x0⟩
def DEV_UPDATE_LAST_STATUS : Fld := ⟨0x38, 8, 8, .ro, 0x0⟩
def DEV_UPDATE_BLOCKS : Fld := ⟨0x38, 16, 11, .ro, 0x0⟩
def DEV_UPDATE_UPDATE_ID : Fld := ⟨0x38, 32, 32, .ro, 0x0⟩
def DEV_SLOTS_SLOT_A : Fld := ⟨0x40, 0, 3, .ro, 0x0⟩
def DEV_SLOTS_SLOT_B : Fld := ⟨0x40, 3, 3, .ro, 0x0⟩
def DEV_SLOTS_FLOOR : Fld := ⟨0x40, 32, 32, .ro, 0x0⟩
def DEV_WDOG_KICK : Fld := ⟨0x48, 0, 1, .wo, 0x0⟩
def DEV_WDOG_PERIOD : Fld := ⟨0x48, 16, 16, .rwl, 0x3E8⟩
def DEV_REG_ERR_COUNT : Fld := ⟨0x50, 0, 64, .ro, 0x0⟩
def FED_STATUS_MODE : Fld := ⟨0x8000000, 0, 1, .ro, 0x0⟩
def FED_STATUS_BIFURC : Fld := ⟨0x8000000, 1, 2, .ro, 0x0⟩
def FED_STATUS_LINKS_UP : Fld := ⟨0x8000000, 3, 4, .ro, 0x0⟩
def FED_STATUS_FLIT : Fld := ⟨0x8000000, 7, 1, .ro, 0x0⟩
def FED_STATUS_CTRLS : Fld := ⟨0x8000000, 8, 3, .ro, 0x0⟩
def FED_CTRL_SCOPE : Fld := ⟨0x8000008, 0, 2, .rw, 0x0⟩
def FED_EVENT_LINK_DOWN : Fld := ⟨0x8000010, 0, 1, .w1c, 0x0⟩
def FED_EVENT_NVME_ERR : Fld := ⟨0x8000010, 1, 1, .w1c, 0x0⟩
def FED_EVENT_RECORD_BAD : Fld := ⟨0x8000010, 2, 1, .w1c, 0x0⟩
def FED_EVENT_EP_ABORT : Fld := ⟨0x8000010, 3, 1, .w1c, 0x0⟩
def FED_EVENT_CKPT_FAIL : Fld := ⟨0x8000010, 4, 1, .w1c, 0x0⟩
def FED_EVCNT_LINK_DOWN_CNT : Fld := ⟨0x8000018, 0, 12, .ro, 0x0⟩
def FED_EVCNT_NVME_ERR_CNT : Fld := ⟨0x8000018, 12, 12, .ro, 0x0⟩
def FED_EVCNT_RECORD_BAD_CNT : Fld := ⟨0x8000018, 24, 12, .ro, 0x0⟩
def FED_EVCNT_EP_ABORT_CNT : Fld := ⟨0x8000018, 36, 12, .ro, 0x0⟩
def FED_EVCNT_CKPT_FAIL_CNT : Fld := ⟨0x8000018, 48, 12, .ro, 0x0⟩
def FED_WIN_BASE_BASE : Fld := ⟨0x8000020, 0, 64, .rw, 0x0⟩
def FED_BAR2_BASE : Fld := ⟨0x8000028, 0, 48, .rw, 0x0⟩
def FED_BAR2_LOG2SIZE : Fld := ⟨0x8000028, 48, 6, .rw, 0x14⟩
def FED_APERTURE_PAGE : Fld := ⟨0x8000030, 0, 8, .rw, 0x0⟩
def FED_FEED_DESC_ADDR : Fld := ⟨0x8000038, 0, 48, .rw, 0x0⟩
def FED_FEED_CTRL_ARM : Fld := ⟨0x8000040, 0, 1, .w1s, 0x0⟩
def FED_FEED_STATUS_STATE : Fld := ⟨0x8000048, 0, 2, .ro, 0x0⟩
def FED_FEED_STATUS_LAST_STATUS : Fld := ⟨0x8000048, 8, 8, .ro, 0x0⟩
def FED_CKPT_SRC_ADDR : Fld := ⟨0x8000050, 0, 48, .rw, 0x0⟩
def FED_CKPT_LBA_LBA : Fld := ⟨0x8000058, 0, 64, .rw, 0x0⟩
def FED_CKPT_CTRL_GO : Fld := ⟨0x8000060, 0, 1, .w1s, 0x0⟩
def FED_CKPT_CTRL_DIR : Fld := ⟨0x8000060, 1, 1, .rw, 0x0⟩
def FED_CKPT_CTRL_NS : Fld := ⟨0x8000060, 2, 3, .rw, 0x0⟩
def FED_CKPT_CTRL_INGOTS : Fld := ⟨0x8000060, 8, 32, .rw, 0x0⟩
def FED_CKPT_STATUS_STATE : Fld := ⟨0x8000068, 0, 2, .ro, 0x0⟩
def FED_CKPT_STATUS_LAST_STATUS : Fld := ⟨0x8000068, 8, 8, .ro, 0x0⟩
def FED_CKPT_STATUS_DONE : Fld := ⟨0x8000068, 32, 32, .ro, 0x0⟩
def FED_CKPT_DIGEST_DIGEST : Fld := ⟨0x8000070, 0, 64, .ro, 0x0⟩
def FED_CURSOR_CURSOR : Fld := ⟨0x8000080, 0, 64, .ro, 0x0⟩
def FED_NS_NSID : Fld := ⟨0x8000100, 0, 32, .rw, 0x0⟩
def FED_NS_CTRL : Fld := ⟨0x8000100, 32, 2, .rw, 0x0⟩
def FED_NS_BIND : Fld := ⟨0x8000100, 34, 2, .rw, 0x0⟩
def FED_NS_VALID : Fld := ⟨0x8000100, 36, 1, .ro, 0x0⟩
def FED_NS_LBA4K : Fld := ⟨0x8000100, 37, 1, .ro, 0x0⟩

end F

/-! Event bits and their counters (R9). -/
namespace E

def TAL_REF_LOST : Ev := ⟨F.TAL_EVENT_REF_LOST, F.TAL_EVCNT0_REF_LOST_CNT⟩
def TAL_STAMP_LOST : Ev := ⟨F.TAL_EVENT_STAMP_LOST, F.TAL_EVCNT0_STAMP_LOST_CNT⟩
def TAL_STEPPED : Ev := ⟨F.TAL_EVENT_STEPPED, F.TAL_EVCNT0_STEPPED_CNT⟩
def TAL_PARENT_CHANGE : Ev := ⟨F.TAL_EVENT_PARENT_CHANGE, F.TAL_EVCNT0_PARENT_CHANGE_CNT⟩
def TAL_LATE_EXEC : Ev := ⟨F.TAL_EVENT_LATE_EXEC, F.TAL_EVCNT1_LATE_EXEC_CNT⟩
def TAL_HOLD_EXPIRED : Ev := ⟨F.TAL_EVENT_HOLD_EXPIRED, F.TAL_EVCNT1_HOLD_EXPIRED_CNT⟩
def TAL_BOUND_EXCEEDED : Ev := ⟨F.TAL_EVENT_BOUND_EXCEEDED, F.TAL_EVCNT1_BOUND_EXCEEDED_CNT⟩
def FLD_INT_SAT : Ev := ⟨F.FLD_EVENT_INT_SAT, F.FLD_EVCNT_INT_SAT_CNT⟩
def FLD_POISON_OUT : Ev := ⟨F.FLD_EVENT_POISON_OUT, F.FLD_EVCNT_POISON_OUT_CNT⟩
def FLD_NAN_OUT : Ev := ⟨F.FLD_EVENT_NAN_OUT, F.FLD_EVCNT_NAN_OUT_CNT⟩
def FLD_SCALE_NONFINITE : Ev := ⟨F.FLD_EVENT_SCALE_NONFINITE, F.FLD_EVCNT_SCALE_NONFINITE_CNT⟩
def FLD_RUN_FAULT : Ev := ⟨F.FLD_EVENT_RUN_FAULT, F.FLD_EVCNT_RUN_FAULT_CNT⟩
def TIL_DF_SEQ_GAP : Ev := ⟨F.TIL_DF_EVENT_SEQ_GAP, F.TIL_DF_EVCNT_SEQ_GAP_CNT⟩
def TIL_DF_KIND_FAULT : Ev := ⟨F.TIL_DF_EVENT_KIND_FAULT, F.TIL_DF_EVCNT_KIND_FAULT_CNT⟩
def TIL_DF_STEER_FAULT : Ev := ⟨F.TIL_DF_EVENT_STEER_FAULT, F.TIL_DF_EVCNT_STEER_FAULT_CNT⟩
def TIL_DF_Q_OVERFLOW : Ev := ⟨F.TIL_DF_EVENT_Q_OVERFLOW, F.TIL_DF_EVCNT_Q_OVERFLOW_CNT⟩
def TIL_DF_POISON_DROPPED : Ev := ⟨F.TIL_DF_EVENT_POISON_DROPPED, F.TIL_DF_EVCNT_POISON_DROPPED_CNT⟩
def TIL_DF_STALL_LONG : Ev := ⟨F.TIL_DF_EVENT_STALL_LONG, F.TIL_DF_EVCNT_STALL_LONG_CNT⟩
def TIL_SE_WALK_FAULT : Ev := ⟨F.TIL_SE_EVENT_WALK_FAULT, F.TIL_SE_EVCNT_WALK_FAULT_CNT⟩
def TIL_SE_POISON_READ : Ev := ⟨F.TIL_SE_EVENT_POISON_READ, F.TIL_SE_EVCNT_POISON_READ_CNT⟩
def TIL_TILL_SATURATED : Ev := ⟨F.TIL_TILL_EVENT_SATURATED, F.TIL_TILL_EVCNT_SATURATED_CNT⟩
def TIL_TILL_POISONED : Ev := ⟨F.TIL_TILL_EVENT_POISONED, F.TIL_TILL_EVCNT_POISONED_CNT⟩
def TIL_TILL_ALIGN : Ev := ⟨F.TIL_TILL_EVENT_ALIGN, F.TIL_TILL_EVCNT_ALIGN_CNT⟩
def TIL_VX_NONFINITE : Ev := ⟨F.TIL_VX_EVENT_NONFINITE, F.TIL_VX_EVCNT_NONFINITE_CNT⟩
def TIL_VX_INT_SAT : Ev := ⟨F.TIL_VX_EVENT_INT_SAT, F.TIL_VX_EVCNT_INT_SAT_CNT⟩
def TIL_VX_SLOT_POISON : Ev := ⟨F.TIL_VX_EVENT_SLOT_POISON, F.TIL_VX_EVCNT_SLOT_POISON_CNT⟩
def TIL_CC_ALIGN : Ev := ⟨F.TIL_CC_EVENT_ALIGN, F.TIL_CC_EVCNT_ALIGN_CNT⟩
def TIL_CC_BOUNDS : Ev := ⟨F.TIL_CC_EVENT_BOUNDS, F.TIL_CC_EVCNT_BOUNDS_CNT⟩
def TIL_CC_POISON_USE : Ev := ⟨F.TIL_CC_EVENT_POISON_USE, F.TIL_CC_EVCNT_POISON_USE_CNT⟩
def TIL_CC_BAD_KIND : Ev := ⟨F.TIL_CC_EVENT_BAD_KIND, F.TIL_CC_EVCNT_BAD_KIND_CNT⟩
def TIL_CC_STAGE : Ev := ⟨F.TIL_CC_EVENT_STAGE, F.TIL_CC_EVCNT_STAGE_CNT⟩
def TIL_MEM_SP_CORR : Ev := ⟨F.TIL_MEM_EVENT_SP_CORR, F.TIL_MEM_EVCNT_SP_CORR_CNT⟩
def TIL_MEM_SP_UNCORR : Ev := ⟨F.TIL_MEM_EVENT_SP_UNCORR, F.TIL_MEM_EVCNT_SP_UNCORR_CNT⟩
def TIL_MEM_SP_POISON_READ : Ev := ⟨F.TIL_MEM_EVENT_SP_POISON_READ, F.TIL_MEM_EVCNT_SP_POISON_READ_CNT⟩
def TIL_MEM_WIN_REFUSED : Ev := ⟨F.TIL_MEM_EVENT_WIN_REFUSED, F.TIL_MEM_EVCNT_WIN_REFUSED_CNT⟩
def TIL_MEM_WIN_BAD : Ev := ⟨F.TIL_MEM_EVENT_WIN_BAD, F.TIL_MEM_EVCNT_WIN_BAD_CNT⟩
def TIL_MEM_WIN_MISUSE : Ev := ⟨F.TIL_MEM_EVENT_WIN_MISUSE, F.TIL_MEM_EVCNT_WIN_MISUSE_CNT⟩
def STK_CORR : Ev := ⟨F.STK_EVENT_CORR, F.STK_EVCNT0_CORR_CNT⟩
def STK_UNCORR : Ev := ⟨F.STK_EVENT_UNCORR, F.STK_EVCNT0_UNCORR_CNT⟩
def STK_POISON_READ : Ev := ⟨F.STK_EVENT_POISON_READ, F.STK_EVCNT0_POISON_READ_CNT⟩
def STK_ODECC : Ev := ⟨F.STK_EVENT_ODECC, F.STK_EVCNT1_ODECC_CNT⟩
def STK_REFETCH_OK : Ev := ⟨F.STK_EVENT_REFETCH_OK, F.STK_EVCNT1_REFETCH_OK_CNT⟩
def STK_REFETCH_FAIL : Ev := ⟨F.STK_EVENT_REFETCH_FAIL, F.STK_EVCNT1_REFETCH_FAIL_CNT⟩
def STK_SOFT_REPAIR : Ev := ⟨F.STK_EVENT_SOFT_REPAIR, F.STK_EVCNT1_SOFT_REPAIR_CNT⟩
def STK_TEMP_HIGH : Ev := ⟨F.STK_EVENT_TEMP_HIGH, F.STK_EVCNT0_TEMP_HIGH_CNT⟩
def TIL_NI_FLIT_CORR : Ev := ⟨F.TIL_NI_EVENT_FLIT_CORR, F.TIL_NI_EVCNT_FLIT_CORR_CNT⟩
def TIL_NI_FLIT_UNCORR : Ev := ⟨F.TIL_NI_EVENT_FLIT_UNCORR, F.TIL_NI_EVCNT_FLIT_UNCORR_CNT⟩
def TIL_NI_HDR_DROP : Ev := ⟨F.TIL_NI_EVENT_HDR_DROP, F.TIL_NI_EVCNT_HDR_DROP_CNT⟩
def TIL_NI_CTL_DROP : Ev := ⟨F.TIL_NI_EVENT_CTL_DROP, F.TIL_NI_EVCNT_CTL_DROP_CNT⟩
def DEV_STEP_LOSS_NF : Ev := ⟨F.DEV_STEP_EVENT_LOSS_NF, F.DEV_STEP_EVCNT0_LOSS_NF_CNT⟩
def DEV_STEP_GRAD_NF : Ev := ⟨F.DEV_STEP_EVENT_GRAD_NF, F.DEV_STEP_EVCNT0_GRAD_NF_CNT⟩
def DEV_STEP_POISON : Ev := ⟨F.DEV_STEP_EVENT_POISON, F.DEV_STEP_EVCNT0_POISON_CNT⟩
def DEV_STEP_ABANDON : Ev := ⟨F.DEV_STEP_EVENT_ABANDON, F.DEV_STEP_EVCNT0_ABANDON_CNT⟩
def DEV_STEP_REPLAY_LIMIT : Ev := ⟨F.DEV_STEP_EVENT_REPLAY_LIMIT, F.DEV_STEP_EVCNT1_REPLAY_LIMIT_CNT⟩
def DEV_STEP_SEAL_TIMEOUT : Ev := ⟨F.DEV_STEP_EVENT_SEAL_TIMEOUT, F.DEV_STEP_EVCNT1_SEAL_TIMEOUT_CNT⟩
def DEV_STEP_SEAL_UNKNOWN : Ev := ⟨F.DEV_STEP_EVENT_SEAL_UNKNOWN, F.DEV_STEP_EVCNT1_SEAL_UNKNOWN_CNT⟩
def DEV_STEP_PREEMPTED : Ev := ⟨F.DEV_STEP_EVENT_PREEMPTED, F.DEV_STEP_EVCNT1_PREEMPTED_CNT⟩
def UPD_RED_NF : Ev := ⟨F.UPD_EVENT_RED_NF, F.UPD_EVCNT0_RED_NF_CNT⟩
def UPD_UPDATE_NF : Ev := ⟨F.UPD_EVENT_UPDATE_NF, F.UPD_EVCNT0_UPDATE_NF_CNT⟩
def UPD_POISON : Ev := ⟨F.UPD_EVENT_POISON, F.UPD_EVCNT0_POISON_CNT⟩
def UPD_ROOT_NONFINITE : Ev := ⟨F.UPD_EVENT_ROOT_NONFINITE, F.UPD_EVCNT1_ROOT_NONFINITE_CNT⟩
def UPD_ROOT_NOCONV : Ev := ⟨F.UPD_EVENT_ROOT_NOCONV, F.UPD_EVCNT1_ROOT_NOCONV_CNT⟩
def UPD_SCHED_MISSING : Ev := ⟨F.UPD_EVENT_SCHED_MISSING, F.UPD_EVCNT1_SCHED_MISSING_CNT⟩
def LNK_ADMIT_FAIL : Ev := ⟨F.LNK_EVENT_ADMIT_FAIL, F.LNK_EVCNT0_ADMIT_FAIL_CNT⟩
def LNK_ID_MISMATCH : Ev := ⟨F.LNK_EVENT_ID_MISMATCH, F.LNK_EVCNT0_ID_MISMATCH_CNT⟩
def LNK_SRC_DROP : Ev := ⟨F.LNK_EVENT_SRC_DROP, F.LNK_EVCNT0_SRC_DROP_CNT⟩
def LNK_OVERRUN : Ev := ⟨F.LNK_EVENT_OVERRUN, F.LNK_EVCNT0_OVERRUN_CNT⟩
def LNK_MALFORMED : Ev := ⟨F.LNK_EVENT_MALFORMED, F.LNK_EVCNT0_MALFORMED_CNT⟩
def LNK_SEAL_FAIL : Ev := ⟨F.LNK_EVENT_SEAL_FAIL, F.LNK_EVCNT1_SEAL_FAIL_CNT⟩
def LNK_REPLAY : Ev := ⟨F.LNK_EVENT_REPLAY, F.LNK_EVCNT1_REPLAY_CNT⟩
def LNK_RETRAIN : Ev := ⟨F.LNK_EVENT_RETRAIN, F.LNK_EVCNT1_RETRAIN_CNT⟩
def LNK_SPARE_SUB : Ev := ⟨F.LNK_EVENT_SPARE_SUB, F.LNK_EVCNT1_SPARE_SUB_CNT⟩
def LNK_QUARANTINED : Ev := ⟨F.LNK_EVENT_QUARANTINED, F.LNK_EVCNT1_QUARANTINED_CNT⟩
def FAB_ORIGIN_DROP : Ev := ⟨F.FAB_EVENT_ORIGIN_DROP, F.FAB_EVCNT0_ORIGIN_DROP_CNT⟩
def FAB_WINDOW_DENY : Ev := ⟨F.FAB_EVENT_WINDOW_DENY, F.FAB_EVCNT0_WINDOW_DENY_CNT⟩
def FAB_ORIGIN_BUSY : Ev := ⟨F.FAB_EVENT_ORIGIN_BUSY, F.FAB_EVCNT0_ORIGIN_BUSY_CNT⟩
def FAB_DETOUR : Ev := ⟨F.FAB_EVENT_DETOUR, F.FAB_EVCNT0_DETOUR_CNT⟩
def FAB_REMOTE_TIMEOUT : Ev := ⟨F.FAB_EVENT_REMOTE_TIMEOUT, F.FAB_EVCNT1_REMOTE_TIMEOUT_CNT⟩
def FAB_STREAM_UNKNOWN : Ev := ⟨F.FAB_EVENT_STREAM_UNKNOWN, F.FAB_EVCNT1_STREAM_UNKNOWN_CNT⟩
def FAB_LATE_RESPONSE : Ev := ⟨F.FAB_EVENT_LATE_RESPONSE, F.FAB_EVCNT1_LATE_RESPONSE_CNT⟩
def FAB_VOTE_LATE : Ev := ⟨F.FAB_EVENT_VOTE_LATE, F.FAB_EVCNT1_VOTE_LATE_CNT⟩
def DEV_SRV_MIRROR_FAIL : Ev := ⟨F.DEV_SRV_EVENT_MIRROR_FAIL, F.DEV_SRV_EVCNT0_MIRROR_FAIL_CNT⟩
def DEV_SRV_DIGEST_FAIL : Ev := ⟨F.DEV_SRV_EVENT_DIGEST_FAIL, F.DEV_SRV_EVCNT0_DIGEST_FAIL_CNT⟩
def DEV_SRV_REPLICA_MISMATCH : Ev := ⟨F.DEV_SRV_EVENT_REPLICA_MISMATCH, F.DEV_SRV_EVCNT0_REPLICA_MISMATCH_CNT⟩
def DEV_SRV_LATE_SEAL : Ev := ⟨F.DEV_SRV_EVENT_LATE_SEAL, F.DEV_SRV_EVCNT0_LATE_SEAL_CNT⟩
def DEV_SRV_REPAIRED : Ev := ⟨F.DEV_SRV_EVENT_REPAIRED, F.DEV_SRV_EVCNT1_REPAIRED_CNT⟩
def DEV_SRV_RECOVERY_START : Ev := ⟨F.DEV_SRV_EVENT_RECOVERY_START, F.DEV_SRV_EVCNT1_RECOVERY_START_CNT⟩
def DEV_SRV_RECOVERY_OK : Ev := ⟨F.DEV_SRV_EVENT_RECOVERY_OK, F.DEV_SRV_EVCNT1_RECOVERY_OK_CNT⟩
def DEV_SRV_RECOVERY_FAIL : Ev := ⟨F.DEV_SRV_EVENT_RECOVERY_FAIL, F.DEV_SRV_EVCNT1_RECOVERY_FAIL_CNT⟩
def CMD_REFUSED : Ev := ⟨F.CMD_EVENT_REFUSED, F.CMD_EVCNT_REFUSED_CNT⟩
def CMD_DUPLICATE : Ev := ⟨F.CMD_EVENT_DUPLICATE, F.CMD_EVCNT_DUPLICATE_CNT⟩
def CMD_QUEUE_FULL : Ev := ⟨F.CMD_EVENT_QUEUE_FULL, F.CMD_EVCNT_QUEUE_FULL_CNT⟩
def CMD_RESET_LOST : Ev := ⟨F.CMD_EVENT_RESET_LOST, F.CMD_EVCNT_RESET_LOST_CNT⟩
def MBX_THERM_THROTTLE : Ev := ⟨F.MBX_EVENT_THERM_THROTTLE, F.MBX_EVCNT0_THERM_THROTTLE_CNT⟩
def MBX_THERM_TRIP : Ev := ⟨F.MBX_EVENT_THERM_TRIP, F.MBX_EVCNT0_THERM_TRIP_CNT⟩
def MBX_REG_FAULT : Ev := ⟨F.MBX_EVENT_REG_FAULT, F.MBX_EVCNT0_REG_FAULT_CNT⟩
def MBX_PMBUS_ERR : Ev := ⟨F.MBX_EVENT_PMBUS_ERR, F.MBX_EVCNT0_PMBUS_ERR_CNT⟩
def MBX_I3C_ERR : Ev := ⟨F.MBX_EVENT_I3C_ERR, F.MBX_EVCNT0_I3C_ERR_CNT⟩
def MBX_SENSOR_FAIL : Ev := ⟨F.MBX_EVENT_SENSOR_FAIL, F.MBX_EVCNT1_SENSOR_FAIL_CNT⟩
def MBX_SB_TORN : Ev := ⟨F.MBX_EVENT_SB_TORN, F.MBX_EVCNT1_SB_TORN_CNT⟩
def MBX_SB_DROPPED : Ev := ⟨F.MBX_EVENT_SB_DROPPED, F.MBX_EVCNT1_SB_DROPPED_CNT⟩
def MBX_SESSION_FAIL : Ev := ⟨F.MBX_EVENT_SESSION_FAIL, F.MBX_EVCNT1_SESSION_FAIL_CNT⟩
def SEC_AUTH_FAIL : Ev := ⟨F.SEC_EVENT_AUTH_FAIL, F.SEC_EVCNT_AUTH_FAIL_CNT⟩
def SEC_UNLOCK_FAIL : Ev := ⟨F.SEC_EVENT_UNLOCK_FAIL, F.SEC_EVCNT_UNLOCK_FAIL_CNT⟩
def SEC_UNLOCK : Ev := ⟨F.SEC_EVENT_UNLOCK, F.SEC_EVCNT_UNLOCK_CNT⟩
def SEC_LICENCE_REFUSED : Ev := ⟨F.SEC_EVENT_LICENCE_REFUSED, F.SEC_EVCNT_LICENCE_REFUSED_CNT⟩
def SEC_BUNDLE_FAIL : Ev := ⟨F.SEC_EVENT_BUNDLE_FAIL, F.SEC_EVCNT_BUNDLE_FAIL_CNT⟩
def SEC_WINNOW_FAIL : Ev := ⟨F.SEC_EVENT_WINNOW_FAIL, F.SEC_EVCNT_WINNOW_FAIL_CNT⟩
def DEV_ORPHAN : Ev := ⟨F.DEV_EVENT_ORPHAN, F.DEV_EVCNT_ORPHAN_CNT⟩
def DEV_DUAL_CLAIM : Ev := ⟨F.DEV_EVENT_DUAL_CLAIM, F.DEV_EVCNT_DUAL_CLAIM_CNT⟩
def DEV_HB_MISS : Ev := ⟨F.DEV_EVENT_HB_MISS, F.DEV_EVCNT_HB_MISS_CNT⟩
def DEV_WDOG : Ev := ⟨F.DEV_EVENT_WDOG, F.DEV_EVCNT_WDOG_CNT⟩
def DEV_REPAIR_BAD : Ev := ⟨F.DEV_EVENT_REPAIR_BAD, F.DEV_EVCNT_REPAIR_BAD_CNT⟩
def DEV_REPAIR_FULL : Ev := ⟨F.DEV_EVENT_REPAIR_FULL, F.DEV_EVCNT_REPAIR_FULL_CNT⟩
def DEV_UPDATE_FAIL : Ev := ⟨F.DEV_EVENT_UPDATE_FAIL, F.DEV_EVCNT_UPDATE_FAIL_CNT⟩
def DEV_SETTINGS_RESET : Ev := ⟨F.DEV_EVENT_SETTINGS_RESET, F.DEV_EVCNT_SETTINGS_RESET_CNT⟩
def FED_LINK_DOWN : Ev := ⟨F.FED_EVENT_LINK_DOWN, F.FED_EVCNT_LINK_DOWN_CNT⟩
def FED_NVME_ERR : Ev := ⟨F.FED_EVENT_NVME_ERR, F.FED_EVCNT_NVME_ERR_CNT⟩
def FED_RECORD_BAD : Ev := ⟨F.FED_EVENT_RECORD_BAD, F.FED_EVCNT_RECORD_BAD_CNT⟩
def FED_EP_ABORT : Ev := ⟨F.FED_EVENT_EP_ABORT, F.FED_EVCNT_EP_ABORT_CNT⟩
def FED_CKPT_FAIL : Ev := ⟨F.FED_EVENT_CKPT_FAIL, F.FED_EVCNT_CKPT_FAIL_CNT⟩

end E

def events0 : List Ev := [E.TAL_REF_LOST, E.TAL_STAMP_LOST, E.TAL_STEPPED, E.TAL_PARENT_CHANGE, E.TAL_LATE_EXEC, E.TAL_HOLD_EXPIRED, E.TAL_BOUND_EXCEEDED, E.FLD_INT_SAT, E.FLD_POISON_OUT, E.FLD_NAN_OUT, E.FLD_SCALE_NONFINITE, E.FLD_RUN_FAULT, E.TIL_DF_SEQ_GAP, E.TIL_DF_KIND_FAULT, E.TIL_DF_STEER_FAULT, E.TIL_DF_Q_OVERFLOW, E.TIL_DF_POISON_DROPPED, E.TIL_DF_STALL_LONG, E.TIL_SE_WALK_FAULT, E.TIL_SE_POISON_READ, E.TIL_TILL_SATURATED, E.TIL_TILL_POISONED, E.TIL_TILL_ALIGN, E.TIL_VX_NONFINITE, E.TIL_VX_INT_SAT, E.TIL_VX_SLOT_POISON, E.TIL_CC_ALIGN, E.TIL_CC_BOUNDS, E.TIL_CC_POISON_USE, E.TIL_CC_BAD_KIND]
def events1 : List Ev := [E.TIL_CC_STAGE, E.TIL_MEM_SP_CORR, E.TIL_MEM_SP_UNCORR, E.TIL_MEM_SP_POISON_READ, E.TIL_MEM_WIN_REFUSED, E.TIL_MEM_WIN_BAD, E.TIL_MEM_WIN_MISUSE, E.STK_CORR, E.STK_UNCORR, E.STK_POISON_READ, E.STK_ODECC, E.STK_REFETCH_OK, E.STK_REFETCH_FAIL, E.STK_SOFT_REPAIR, E.STK_TEMP_HIGH, E.TIL_NI_FLIT_CORR, E.TIL_NI_FLIT_UNCORR, E.TIL_NI_HDR_DROP, E.TIL_NI_CTL_DROP, E.DEV_STEP_LOSS_NF, E.DEV_STEP_GRAD_NF, E.DEV_STEP_POISON, E.DEV_STEP_ABANDON, E.DEV_STEP_REPLAY_LIMIT, E.DEV_STEP_SEAL_TIMEOUT, E.DEV_STEP_SEAL_UNKNOWN, E.DEV_STEP_PREEMPTED, E.UPD_RED_NF, E.UPD_UPDATE_NF, E.UPD_POISON]
def events2 : List Ev := [E.UPD_ROOT_NONFINITE, E.UPD_ROOT_NOCONV, E.UPD_SCHED_MISSING, E.LNK_ADMIT_FAIL, E.LNK_ID_MISMATCH, E.LNK_SRC_DROP, E.LNK_OVERRUN, E.LNK_MALFORMED, E.LNK_SEAL_FAIL, E.LNK_REPLAY, E.LNK_RETRAIN, E.LNK_SPARE_SUB, E.LNK_QUARANTINED, E.FAB_ORIGIN_DROP, E.FAB_WINDOW_DENY, E.FAB_ORIGIN_BUSY, E.FAB_DETOUR, E.FAB_REMOTE_TIMEOUT, E.FAB_STREAM_UNKNOWN, E.FAB_LATE_RESPONSE, E.FAB_VOTE_LATE, E.DEV_SRV_MIRROR_FAIL, E.DEV_SRV_DIGEST_FAIL, E.DEV_SRV_REPLICA_MISMATCH, E.DEV_SRV_LATE_SEAL, E.DEV_SRV_REPAIRED, E.DEV_SRV_RECOVERY_START, E.DEV_SRV_RECOVERY_OK, E.DEV_SRV_RECOVERY_FAIL, E.CMD_REFUSED]
def events3 : List Ev := [E.CMD_DUPLICATE, E.CMD_QUEUE_FULL, E.CMD_RESET_LOST, E.MBX_THERM_THROTTLE, E.MBX_THERM_TRIP, E.MBX_REG_FAULT, E.MBX_PMBUS_ERR, E.MBX_I3C_ERR, E.MBX_SENSOR_FAIL, E.MBX_SB_TORN, E.MBX_SB_DROPPED, E.MBX_SESSION_FAIL, E.SEC_AUTH_FAIL, E.SEC_UNLOCK_FAIL, E.SEC_UNLOCK, E.SEC_LICENCE_REFUSED, E.SEC_BUNDLE_FAIL, E.SEC_WINNOW_FAIL, E.DEV_ORPHAN, E.DEV_DUAL_CLAIM, E.DEV_HB_MISS, E.DEV_WDOG, E.DEV_REPAIR_BAD, E.DEV_REPAIR_FULL, E.DEV_UPDATE_FAIL, E.DEV_SETTINGS_RESET, E.FED_LINK_DOWN, E.FED_NVME_ERR, E.FED_RECORD_BAD, E.FED_EP_ABORT]
def events4 : List Ev := [E.FED_CKPT_FAIL]

/-- Every event bit. -/
def allEvents : List Ev := events0 ++ events1 ++ events2 ++ events3 ++ events4

/-- Registers of the DEV block, part 1. -/
def regsDev0 : List RegDef := [
  ⟨0x1000, [], [F.DEV_STEP_STATUS_PHASE, F.DEV_STEP_STATUS_EAGER, F.DEV_STEP_STATUS_IN_FLIGHT, F.DEV_STEP_STATUS_ROUND, F.DEV_STEP_STATUS_LAST_STATUS, F.DEV_STEP_STATUS_SKIPS]⟩,
  ⟨0x1008, [], [F.DEV_STEP_NUM_N]⟩,
  ⟨0x1010, [], [F.DEV_STEP_ATTEMPTS_COUNT]⟩,
  ⟨0x1018, [], [F.DEV_STEP_EVENT_LOSS_NF, F.DEV_STEP_EVENT_GRAD_NF, F.DEV_STEP_EVENT_POISON, F.DEV_STEP_EVENT_ABANDON, F.DEV_STEP_EVENT_REPLAY_LIMIT, F.DEV_STEP_EVENT_SEAL_TIMEOUT, F.DEV_STEP_EVENT_SEAL_UNKNOWN, F.DEV_STEP_EVENT_PREEMPTED]⟩,
  ⟨0x1020, [], [F.DEV_STEP_EVCNT0_LOSS_NF_CNT, F.DEV_STEP_EVCNT0_GRAD_NF_CNT, F.DEV_STEP_EVCNT0_POISON_CNT, F.DEV_STEP_EVCNT0_ABANDON_CNT]⟩,
  ⟨0x1028, [], [F.DEV_STEP_EVCNT1_REPLAY_LIMIT_CNT, F.DEV_STEP_EVCNT1_SEAL_TIMEOUT_CNT, F.DEV_STEP_EVCNT1_SEAL_UNKNOWN_CNT, F.DEV_STEP_EVCNT1_PREEMPTED_CNT]⟩,
  ⟨0x1030, [], [F.DEV_STEP_REPLAYS_COUNT]⟩,
  ⟨0x1038, [], [F.DEV_STEP_SEAL_TALLY]⟩,
  ⟨0x1100, [(4, 0x8)], [F.DEV_STEP_SEL_SEL]⟩,
  ⟨0x1120, [(4, 0x8)], [F.DEV_STEP_COMMIT_COMMIT]⟩,
  ⟨0x1200, [], [F.DEV_SRV_STATUS_STEP, F.DEV_SRV_STATUS_MASTER, F.DEV_SRV_STATUS_ALT_IN_USE, F.DEV_SRV_STATUS_LOST]⟩,
  ⟨0x1208, [], [F.DEV_SRV_RESUME_STEP]⟩,
  ⟨0x1210, [], [F.DEV_SRV_EVENT_MIRROR_FAIL, F.DEV_SRV_EVENT_DIGEST_FAIL, F.DEV_SRV_EVENT_REPLICA_MISMATCH, F.DEV_SRV_EVENT_LATE_SEAL, F.DEV_SRV_EVENT_REPAIRED, F.DEV_SRV_EVENT_RECOVERY_START, F.DEV_SRV_EVENT_RECOVERY_OK, F.DEV_SRV_EVENT_RECOVERY_FAIL]⟩,
  ⟨0x1218, [], [F.DEV_SRV_EVCNT0_MIRROR_FAIL_CNT, F.DEV_SRV_EVCNT0_DIGEST_FAIL_CNT, F.DEV_SRV_EVCNT0_REPLICA_MISMATCH_CNT, F.DEV_SRV_EVCNT0_LATE_SEAL_CNT]⟩,
  ⟨0x1220, [], [F.DEV_SRV_EVCNT1_REPAIRED_CNT, F.DEV_SRV_EVCNT1_RECOVERY_START_CNT, F.DEV_SRV_EVCNT1_RECOVERY_OK_CNT, F.DEV_SRV_EVCNT1_RECOVERY_FAIL_CNT]⟩,
  ⟨0x1228, [], [F.DEV_SRV_INGOTS_MIRRORED, F.DEV_SRV_INGOTS_RESTORED]⟩,
  ⟨0x0, [], [F.DEV_STATE_STATE_W, F.DEV_STATE_SUB_W, F.DEV_STATE_STATE_E, F.DEV_STATE_SUB_E, F.DEV_STATE_UPDATE_STAGED, F.DEV_STATE_TRIAL, F.DEV_STATE_DEGRADED_W, F.DEV_STATE_DEGRADED_E]⟩,
  ⟨0x8, [], [F.DEV_EVENT_ORPHAN, F.DEV_EVENT_DUAL_CLAIM, F.DEV_EVENT_HB_MISS, F.DEV_EVENT_WDOG, F.DEV_EVENT_REPAIR_BAD, F.DEV_EVENT_REPAIR_FULL, F.DEV_EVENT_UPDATE_FAIL, F.DEV_EVENT_SETTINGS_RESET]⟩,
  ⟨0x10, [], [F.DEV_EVCNT_ORPHAN_CNT, F.DEV_EVCNT_DUAL_CLAIM_CNT, F.DEV_EVCNT_HB_MISS_CNT, F.DEV_EVCNT_WDOG_CNT, F.DEV_EVCNT_REPAIR_BAD_CNT, F.DEV_EVCNT_REPAIR_FULL_CNT, F.DEV_EVCNT_UPDATE_FAIL_CNT, F.DEV_EVCNT_SETTINGS_RESET_CNT]⟩,
  ⟨0x18, [], [F.DEV_FABRIC_ID, F.DEV_FABRIC_VALID]⟩]

/-- Registers of the DEV block, part 2. -/
def regsDev1 : List RegDef := [
  ⟨0x20, [], [F.DEV_STRAPS_FEED_ID, F.DEV_STRAPS_SHEAF_RANK, F.DEV_STRAPS_TALLY_MASTER, F.DEV_STRAPS_BOOT_SEL, F.DEV_STRAPS_FEED_PORT_MODE]⟩,
  ⟨0x28, [], [F.DEV_REPAIR_TILES, F.DEV_REPAIR_ROWS, F.DEV_REPAIR_PENDING]⟩,
  ⟨0x30, [], [F.DEV_CHARGE_CLAIM_W, F.DEV_CHARGE_CLAIM_E, F.DEV_CHARGE_MISS_E, F.DEV_CHARGE_MISS_W]⟩,
  ⟨0x38, [], [F.DEV_UPDATE_PHASE, F.DEV_UPDATE_LAST_STATUS, F.DEV_UPDATE_BLOCKS, F.DEV_UPDATE_UPDATE_ID]⟩,
  ⟨0x40, [], [F.DEV_SLOTS_SLOT_A, F.DEV_SLOTS_SLOT_B, F.DEV_SLOTS_FLOOR]⟩,
  ⟨0x48, [], [F.DEV_WDOG_KICK, F.DEV_WDOG_PERIOD]⟩,
  ⟨0x50, [], [F.DEV_REG_ERR_COUNT]⟩]

/-- Registers of the TAL block. -/
def regsTal : List RegDef := [
  ⟨0x100000, [], [F.TAL_COUNT_COUNT]⟩,
  ⟨0x100008, [], [F.TAL_PHASE_CYCLE, F.TAL_PHASE_SLOT]⟩,
  ⟨0x100010, [], [F.TAL_STATUS_STATE, F.TAL_STATUS_REF_PRESENT, F.TAL_STATUS_MASTER, F.TAL_STATUS_SCHED_EN, F.TAL_STATUS_PARENT, F.TAL_STATUS_DEPTH]⟩,
  ⟨0x100018, [], [F.TAL_EVENT_REF_LOST, F.TAL_EVENT_STAMP_LOST, F.TAL_EVENT_STEPPED, F.TAL_EVENT_PARENT_CHANGE, F.TAL_EVENT_LATE_EXEC, F.TAL_EVENT_HOLD_EXPIRED, F.TAL_EVENT_BOUND_EXCEEDED]⟩,
  ⟨0x100020, [], [F.TAL_EVCNT0_REF_LOST_CNT, F.TAL_EVCNT0_STAMP_LOST_CNT, F.TAL_EVCNT0_STEPPED_CNT, F.TAL_EVCNT0_PARENT_CHANGE_CNT]⟩,
  ⟨0x100028, [], [F.TAL_EVCNT1_LATE_EXEC_CNT, F.TAL_EVCNT1_HOLD_EXPIRED_CNT, F.TAL_EVCNT1_BOUND_EXCEEDED_CNT]⟩,
  ⟨0x100030, [], [F.TAL_OFFSET_OFFSET]⟩,
  ⟨0x100038, [], [F.TAL_CTRL_SCHED_OFF, F.TAL_CTRL_RELOCK]⟩,
  ⟨0x100040, [], [F.TAL_SLOT_MASK_MASK]⟩,
  ⟨0x100048, [], [F.TAL_PENDING_COUNT]⟩,
  ⟨0x100080, [(15, 0x8)], [F.TAL_PORT_DELAY_DELAY, F.TAL_PORT_DELAY_VALID]⟩]

/-- Registers of the CMD block. -/
def regsCmd : List RegDef := [
  ⟨0x200000, [], [F.CMD_STATUS_QUEUED, F.CMD_STATUS_UNENDED, F.CMD_STATUS_PENDING]⟩,
  ⟨0x200008, [], [F.CMD_EVENT_REFUSED, F.CMD_EVENT_DUPLICATE, F.CMD_EVENT_QUEUE_FULL, F.CMD_EVENT_RESET_LOST]⟩,
  ⟨0x200010, [], [F.CMD_EVCNT_REFUSED_CNT, F.CMD_EVCNT_DUPLICATE_CNT, F.CMD_EVCNT_QUEUE_FULL_CNT, F.CMD_EVCNT_RESET_LOST_CNT]⟩,
  ⟨0x200018, [], [F.CMD_ACCEPTED_COUNT]⟩,
  ⟨0x200020, [], [F.CMD_RESP_STATUS, F.CMD_RESP_STATE, F.CMD_RESP_DIFFERS, F.CMD_RESP_VALID]⟩,
  ⟨0x200028, [], [F.CMD_RESP_SEQ_SEQ]⟩,
  ⟨0x200040, [(8, 0x8)], [F.CMD_SUB_DATA]⟩,
  ⟨0x200100, [], [F.LGR_HEAD_SEQ]⟩,
  ⟨0x200108, [], [F.LGR_TAIL_SEQ]⟩,
  ⟨0x200110, [], [F.LGR_MIRROR_TAIL_SEQ]⟩,
  ⟨0x200118, [], [F.LGR_SEL_SEQ]⟩,
  ⟨0x200120, [], [F.LGR_CTRL_HALF, F.LGR_CTRL_FOUND]⟩,
  ⟨0x200140, [(8, 0x8)], [F.LGR_DATA_DATA]⟩]

/-- Registers of the TIL block, part 1. -/
def regsTil0 : List RegDef := [
  ⟨0x1004000, [(512, 0x10000)], [F.TIL_DF_STATUS_SLOTS_USED, F.TIL_DF_STATUS_ENTRIES_ALLOC, F.TIL_DF_STATUS_QUEUES_ALLOC]⟩,
  ⟨0x1004008, [(512, 0x10000)], [F.TIL_DF_EVENT_SEQ_GAP, F.TIL_DF_EVENT_KIND_FAULT, F.TIL_DF_EVENT_STEER_FAULT, F.TIL_DF_EVENT_Q_OVERFLOW, F.TIL_DF_EVENT_POISON_DROPPED, F.TIL_DF_EVENT_STALL_LONG]⟩,
  ⟨0x1004010, [(512, 0x10000)], [F.TIL_DF_EVCNT_SEQ_GAP_CNT, F.TIL_DF_EVCNT_KIND_FAULT_CNT, F.TIL_DF_EVCNT_STEER_FAULT_CNT, F.TIL_DF_EVCNT_Q_OVERFLOW_CNT, F.TIL_DF_EVCNT_POISON_DROPPED_CNT, F.TIL_DF_EVCNT_STALL_LONG_CNT]⟩,
  ⟨0x1004018, [(512, 0x10000)], [F.TIL_DF_CTRL_CNT_CLEAR, F.TIL_DF_CTRL_STALL_LIMIT]⟩,
  ⟨0x1004020, [(512, 0x10000)], [F.TIL_SLOT_MISS_COUNT]⟩,
  ⟨0x1004028, [(512, 0x10000)], [F.TIL_POISON_DROP_COUNT]⟩,
  ⟨0x1004100, [(512, 0x10000), (11, 0x8)], [F.TIL_IDLE_COUNT]⟩,
  ⟨0x1004400, [(512, 0x10000), (128, 0x8)], [F.TIL_Q_STATUS_DEPTH, F.TIL_Q_STATUS_OCCUPANCY, F.TIL_Q_STATUS_HEAD_KIND, F.TIL_Q_STATUS_HEAD_EPOCH, F.TIL_Q_STATUS_HEAD_SEQ, F.TIL_Q_STATUS_STARVE_CLASS]⟩,
  ⟨0x1005000, [(512, 0x10000), (32, 0x80), (16, 0x8)], [F.TIL_UNIT_CNT_COUNT]⟩,
  ⟨0x1002000, [(512, 0x10000), (6, 0x20)], [F.TIL_SE_STATUS_ACTIVE, F.TIL_SE_STATUS_EPOCH, F.TIL_SE_STATUS_AHEAD]⟩,
  ⟨0x1002008, [(512, 0x10000), (6, 0x20)], [F.TIL_SE_ROWS_COUNT]⟩,
  ⟨0x1002010, [(512, 0x10000), (6, 0x20)], [F.TIL_SE_TILES_COMPUTED, F.TIL_SE_TILES_SKIPPED]⟩,
  ⟨0x1002018, [(512, 0x10000), (6, 0x20)], [F.TIL_SE_VOID_COUNT]⟩,
  ⟨0x1002100, [(512, 0x10000)], [F.TIL_SE_EVENT_WALK_FAULT, F.TIL_SE_EVENT_POISON_READ]⟩,
  ⟨0x1002108, [(512, 0x10000)], [F.TIL_SE_EVCNT_WALK_FAULT_CNT, F.TIL_SE_EVCNT_POISON_READ_CNT]⟩,
  ⟨0x1002200, [(512, 0x10000), (64, 0x8)], [F.TIL_EXT_EXT_M, F.TIL_EXT_EXT_N]⟩,
  ⟨0x1002400, [(512, 0x10000)], [F.TIL_TILL_EVENT_SATURATED, F.TIL_TILL_EVENT_POISONED, F.TIL_TILL_EVENT_ALIGN]⟩,
  ⟨0x1002408, [(512, 0x10000)], [F.TIL_TILL_EVCNT_SATURATED_CNT, F.TIL_TILL_EVCNT_POISONED_CNT, F.TIL_TILL_EVCNT_ALIGN_CNT]⟩,
  ⟨0x1002410, [(512, 0x10000)], [F.TIL_TILL_OPS_COUNT]⟩,
  ⟨0x1003000, [(512, 0x10000)], [F.TIL_VX_STATUS_GROUPS_BUSY, F.TIL_VX_STATUS_SLOT_POISON]⟩]

/-- Registers of the TIL block, part 2. -/
def regsTil1 : List RegDef := [
  ⟨0x1003008, [(512, 0x10000)], [F.TIL_VX_EVENT_NONFINITE, F.TIL_VX_EVENT_INT_SAT, F.TIL_VX_EVENT_SLOT_POISON]⟩,
  ⟨0x1003010, [(512, 0x10000)], [F.TIL_VX_EVCNT_NONFINITE_CNT, F.TIL_VX_EVCNT_INT_SAT_CNT, F.TIL_VX_EVCNT_SLOT_POISON_CNT]⟩,
  ⟨0x1003018, [(512, 0x10000)], [F.TIL_VX_VOTE_NF]⟩,
  ⟨0x1003020, [(512, 0x10000)], [F.TIL_VX_SEED_SEED]⟩,
  ⟨0x1003028, [(512, 0x10000)], [F.TIL_VX_STEP_STEP]⟩,
  ⟨0x1003030, [(512, 0x10000)], [F.TIL_VX_ISSUED_COUNT]⟩,
  ⟨0x1003038, [(512, 0x10000)], [F.TIL_VX_GROUP_CYC_COUNT]⟩,
  ⟨0x1003100, [(512, 0x10000), (8, 0x8)], [F.TIL_BSLOT_VALUE]⟩,
  ⟨0x1003200, [(512, 0x10000)], [F.TIL_CC_STATUS_ACTIVE, F.TIL_CC_STATUS_FAULTED]⟩,
  ⟨0x1003208, [(512, 0x10000)], [F.TIL_CC_EVENT_ALIGN, F.TIL_CC_EVENT_BOUNDS, F.TIL_CC_EVENT_POISON_USE, F.TIL_CC_EVENT_BAD_KIND, F.TIL_CC_EVENT_STAGE]⟩,
  ⟨0x1003210, [(512, 0x10000)], [F.TIL_CC_EVCNT_ALIGN_CNT, F.TIL_CC_EVCNT_BOUNDS_CNT, F.TIL_CC_EVCNT_POISON_USE_CNT, F.TIL_CC_EVCNT_BAD_KIND_CNT, F.TIL_CC_EVCNT_STAGE_CNT]⟩,
  ⟨0x1003218, [(512, 0x10000)], [F.TIL_CC_INSTR_COUNT]⟩,
  ⟨0x1003300, [(512, 0x10000), (8, 0x8)], [F.TIL_CC_PC_PC, F.TIL_CC_PC_WAITING]⟩,
  ⟨0x1006000, [(512, 0x10000)], [F.TIL_MEM_EVENT_SP_CORR, F.TIL_MEM_EVENT_SP_UNCORR, F.TIL_MEM_EVENT_SP_POISON_READ, F.TIL_MEM_EVENT_WIN_REFUSED, F.TIL_MEM_EVENT_WIN_BAD, F.TIL_MEM_EVENT_WIN_MISUSE]⟩,
  ⟨0x1006008, [(512, 0x10000)], [F.TIL_MEM_EVCNT_SP_CORR_CNT, F.TIL_MEM_EVCNT_SP_UNCORR_CNT, F.TIL_MEM_EVCNT_SP_POISON_READ_CNT, F.TIL_MEM_EVCNT_WIN_REFUSED_CNT, F.TIL_MEM_EVCNT_WIN_BAD_CNT, F.TIL_MEM_EVCNT_WIN_MISUSE_CNT]⟩,
  ⟨0x1006010, [(512, 0x10000)], [F.TIL_WIN_STATUS_FRAMES, F.TIL_WIN_STATUS_HEAD, F.TIL_WIN_STATUS_LIVE, F.TIL_WIN_STATUS_PENDING, F.TIL_WIN_STATUS_LAST_STATUS]⟩,
  ⟨0x1006018, [(512, 0x10000)], [F.TIL_WIN_CMD_SRC_INGOT, F.TIL_WIN_CMD_HANDLE, F.TIL_WIN_CMD_INGOTS, F.TIL_WIN_CMD_USES]⟩,
  ⟨0x1006020, [(512, 0x10000)], [F.TIL_WIN_REL_HANDLE, F.TIL_WIN_REL_COUNT]⟩,
  ⟨0x1006800, [(512, 0x10000), (256, 0x8)], [F.TIL_WIN_ENT_STATE, F.TIL_WIN_ENT_FRAME, F.TIL_WIN_ENT_INGOTS, F.TIL_WIN_ENT_REMAIN, F.TIL_WIN_ENT_AGE]⟩,
  ⟨0x1007000, [(512, 0x10000)], [F.TIL_NI_MAP_LOGICAL, F.TIL_NI_MAP_PROW, F.TIL_NI_MAP_PCOL, F.TIL_NI_MAP_SHIFT]⟩]

/-- Registers of the TIL block, part 3. -/
def regsTil2 : List RegDef := [
  ⟨0x1007008, [(512, 0x10000)], [F.TIL_NI_EVENT_FLIT_CORR, F.TIL_NI_EVENT_FLIT_UNCORR, F.TIL_NI_EVENT_HDR_DROP, F.TIL_NI_EVENT_CTL_DROP]⟩,
  ⟨0x1007010, [(512, 0x10000)], [F.TIL_NI_EVCNT_FLIT_CORR_CNT, F.TIL_NI_EVCNT_FLIT_UNCORR_CNT, F.TIL_NI_EVCNT_HDR_DROP_CNT, F.TIL_NI_EVCNT_CTL_DROP_CNT]⟩,
  ⟨0x1007018, [(512, 0x10000)], [F.TIL_NI_TX_SCHED, F.TIL_NI_TX_BOUNDED]⟩,
  ⟨0x1007020, [(512, 0x10000)], [F.TIL_NI_PORT_WAIT_COUNT]⟩,
  ⟨0x1007028, [(512, 0x10000)], [F.TIL_SYNC_BMASK_MASK]⟩]

/-- Registers of the FLD block. -/
def regsFld : List RegDef := [
  ⟨0x4000000, [(8, 0x10000)], [F.FLD_CFG_SHAPE, F.FLD_CFG_INST_COUNT]⟩,
  ⟨0x4000008, [(8, 0x10000)], [F.FLD_STATUS_EPOCH, F.FLD_STATUS_ACTIVE]⟩,
  ⟨0x4000010, [(8, 0x10000)], [F.FLD_EVENT_INT_SAT, F.FLD_EVENT_POISON_OUT, F.FLD_EVENT_NAN_OUT, F.FLD_EVENT_SCALE_NONFINITE, F.FLD_EVENT_RUN_FAULT]⟩,
  ⟨0x4000018, [(8, 0x10000)], [F.FLD_EVCNT_INT_SAT_CNT, F.FLD_EVCNT_POISON_OUT_CNT, F.FLD_EVCNT_NAN_OUT_CNT, F.FLD_EVCNT_SCALE_NONFINITE_CNT, F.FLD_EVCNT_RUN_FAULT_CNT]⟩,
  ⟨0x4000020, [(8, 0x10000)], [F.FLD_BEATS_COUNT]⟩,
  ⟨0x4000028, [(8, 0x10000)], [F.FLD_PRODUCTS_COUNT]⟩,
  ⟨0x4000100, [(8, 0x10000), (64, 0x8)], [F.FLD_INST_CFG_SFMT, F.FLD_INST_CFG_MFMT, F.FLD_INST_CFG_PAIR, F.FLD_INST_CFG_ROW_SCALE, F.FLD_INST_CFG_OUT_FMT, F.FLD_INST_CFG_SLIDE, F.FLD_INST_CFG_SLIDE_K]⟩,
  ⟨0x4000300, [(8, 0x10000), (64, 0x8)], [F.FLD_INST_EXT_ROW_EXT, F.FLD_INST_EXT_COL_EXT]⟩]

/-- Registers of the STK block. -/
def regsStk : List RegDef := [
  ⟨0x5000000, [(8, 0x100000)], [F.STK_STATUS_TRAINED, F.STK_STATUS_DEGRADED, F.STK_STATUS_SCRUB_ACTIVE, F.STK_STATUS_TEMP]⟩,
  ⟨0x5000008, [(8, 0x100000)], [F.STK_EVENT_CORR, F.STK_EVENT_UNCORR, F.STK_EVENT_POISON_READ, F.STK_EVENT_ODECC, F.STK_EVENT_REFETCH_OK, F.STK_EVENT_REFETCH_FAIL, F.STK_EVENT_SOFT_REPAIR, F.STK_EVENT_TEMP_HIGH]⟩,
  ⟨0x5000010, [(8, 0x100000)], [F.STK_EVCNT0_CORR_CNT, F.STK_EVCNT0_UNCORR_CNT, F.STK_EVCNT0_POISON_READ_CNT, F.STK_EVCNT0_TEMP_HIGH_CNT]⟩,
  ⟨0x5000018, [(8, 0x100000)], [F.STK_EVCNT1_ODECC_CNT, F.STK_EVCNT1_REFETCH_OK_CNT, F.STK_EVCNT1_REFETCH_FAIL_CNT, F.STK_EVCNT1_SOFT_REPAIR_CNT]⟩,
  ⟨0x5000020, [(8, 0x100000)], [F.STK_LAST_ERR_ADDR, F.STK_LAST_ERR_PC]⟩,
  ⟨0x5000028, [(8, 0x100000)], [F.STK_SCRUB_PERIOD]⟩,
  ⟨0x5000030, [(8, 0x100000)], [F.STK_RD_BYTES_COUNT]⟩,
  ⟨0x5000038, [(8, 0x100000)], [F.STK_WR_BYTES_COUNT]⟩]

/-- Registers of the FAB block. -/
def regsFab : List RegDef := [
  ⟨0x6008000, [], [F.UPD_STATUS_BUSY, F.UPD_STATUS_SCHED_USED, F.UPD_STATUS_LAYER]⟩,
  ⟨0x6008008, [], [F.UPD_EVENT_RED_NF, F.UPD_EVENT_UPDATE_NF, F.UPD_EVENT_POISON, F.UPD_EVENT_ROOT_NONFINITE, F.UPD_EVENT_ROOT_NOCONV, F.UPD_EVENT_SCHED_MISSING]⟩,
  ⟨0x6008010, [], [F.UPD_EVCNT0_RED_NF_CNT, F.UPD_EVCNT0_UPDATE_NF_CNT, F.UPD_EVCNT0_POISON_CNT]⟩,
  ⟨0x6008018, [], [F.UPD_EVCNT1_ROOT_NONFINITE_CNT, F.UPD_EVCNT1_ROOT_NOCONV_CNT, F.UPD_EVCNT1_SCHED_MISSING_CNT]⟩,
  ⟨0x6008020, [], [F.UPD_ELEMENTS_COUNT]⟩,
  ⟨0x6008028, [], [F.UPD_MACS_COUNT]⟩,
  ⟨0x6008030, [], [F.UPD_REFRESH_DONE, F.UPD_REFRESH_KEPT]⟩,
  ⟨0x6000000, [], [F.FAB_STATUS_HELD, F.FAB_STATUS_OUTSTANDING, F.FAB_STATUS_OPEN_VOTES]⟩,
  ⟨0x6000008, [], [F.FAB_COORD_X, F.FAB_COORD_Y, F.FAB_COORD_Z, F.FAB_COORD_W, F.FAB_COORD_RANK, F.FAB_COORD_TENANT]⟩,
  ⟨0x6000010, [], [F.FAB_CTRL_RTIMEOUT, F.FAB_CTRL_RETRIES, F.FAB_CTRL_RETRY_TICKS, F.FAB_CTRL_ORIGIN_LIMIT]⟩,
  ⟨0x6000018, [], [F.FAB_EVENT_ORIGIN_DROP, F.FAB_EVENT_WINDOW_DENY, F.FAB_EVENT_ORIGIN_BUSY, F.FAB_EVENT_DETOUR, F.FAB_EVENT_REMOTE_TIMEOUT, F.FAB_EVENT_STREAM_UNKNOWN, F.FAB_EVENT_LATE_RESPONSE, F.FAB_EVENT_VOTE_LATE]⟩,
  ⟨0x6000020, [], [F.FAB_EVCNT0_ORIGIN_DROP_CNT, F.FAB_EVCNT0_WINDOW_DENY_CNT, F.FAB_EVCNT0_ORIGIN_BUSY_CNT, F.FAB_EVCNT0_DETOUR_CNT]⟩,
  ⟨0x6000028, [], [F.FAB_EVCNT1_REMOTE_TIMEOUT_CNT, F.FAB_EVCNT1_STREAM_UNKNOWN_CNT, F.FAB_EVCNT1_LATE_RESPONSE_CNT, F.FAB_EVCNT1_VOTE_LATE_CNT]⟩,
  ⟨0x6000030, [], [F.FAB_REMOTE_ISSUED, F.FAB_REMOTE_SERVED]⟩,
  ⟨0x6000100, [(8, 0x10)], [F.FAB_WIN_BASE_BASE, F.FAB_WIN_BASE_RD, F.FAB_WIN_BASE_WR, F.FAB_WIN_BASE_ATOM]⟩,
  ⟨0x6000108, [(8, 0x10)], [F.FAB_WIN_LEN_LEN, F.FAB_WIN_LEN_TENANT]⟩,
  ⟨0x6000200, [(11, 0x8)], [F.FAB_IDLE_COUNT]⟩,
  ⟨0x6000300, [(11, 0x8)], [F.FAB_IDLE_LAST_COUNT]⟩,
  ⟨0x6000400, [(4, 0x8)], [F.FAB_NF_NF]⟩]

/-- Registers of the LNK block. -/
def regsLnk : List RegDef := [
  ⟨0x7000000, [(15, 0x10000)], [F.LNK_STATUS_LINK, F.LNK_STATUS_PARTNER, F.LNK_STATUS_HALF_WIDTH, F.LNK_STATUS_SEALED, F.LNK_STATUS_CLASS, F.LNK_STATUS_QUAR_REMOTE, F.LNK_STATUS_SCHED_OK, F.LNK_STATUS_SPARE_TX, F.LNK_STATUS_SPARE_RX]⟩,
  ⟨0x7000008, [(15, 0x10000)], [F.LNK_PARTNER_FABRIC_ID, F.LNK_PARTNER_PORT, F.LNK_PARTNER_PROFILE, F.LNK_PARTNER_STATE]⟩,
  ⟨0x7000010, [(15, 0x10000)], [F.LNK_CTRL_SEAL_REQ, F.LNK_CTRL_QUARANTINE, F.LNK_CTRL_RELEASE, F.LNK_CTRL_READMIT, F.LNK_CTRL_QUAR_AUTO, F.LNK_CTRL_QUAR_LIMIT]⟩,
  ⟨0x7000018, [(15, 0x10000)], [F.LNK_EVENT_ADMIT_FAIL, F.LNK_EVENT_ID_MISMATCH, F.LNK_EVENT_SRC_DROP, F.LNK_EVENT_OVERRUN, F.LNK_EVENT_MALFORMED, F.LNK_EVENT_SEAL_FAIL, F.LNK_EVENT_REPLAY, F.LNK_EVENT_RETRAIN, F.LNK_EVENT_SPARE_SUB, F.LNK_EVENT_QUARANTINED]⟩,
  ⟨0x7000020, [(15, 0x10000)], [F.LNK_EVCNT0_ADMIT_FAIL_CNT, F.LNK_EVCNT0_ID_MISMATCH_CNT, F.LNK_EVCNT0_SRC_DROP_CNT, F.LNK_EVCNT0_OVERRUN_CNT, F.LNK_EVCNT0_MALFORMED_CNT]⟩,
  ⟨0x7000028, [(15, 0x10000)], [F.LNK_EVCNT1_SEAL_FAIL_CNT, F.LNK_EVCNT1_REPLAY_CNT, F.LNK_EVCNT1_RETRAIN_CNT, F.LNK_EVCNT1_SPARE_SUB_CNT, F.LNK_EVCNT1_QUARANTINED_CNT]⟩,
  ⟨0x7000030, [(15, 0x10000)], [F.LNK_ADMIT_STATUS, F.LNK_ADMIT_STEP, F.LNK_ADMIT_ATTEMPTS]⟩,
  ⟨0x7000038, [(15, 0x10000)], [F.LNK_RATE_VC0, F.LNK_RATE_VC1, F.LNK_RATE_VC2, F.LNK_RATE_VC3]⟩,
  ⟨0x7000040, [(15, 0x10000)], [F.LNK_EXPECT_SERIAL_SERIAL]⟩,
  ⟨0x7000048, [(15, 0x10000)], [F.LNK_FEC_CORRECTED, F.LNK_FEC_UNCORRECTED]⟩,
  ⟨0x7000050, [(15, 0x10000)], [F.LNK_TX_UNITS_COUNT]⟩,
  ⟨0x7000058, [(15, 0x10000)], [F.LNK_RX_UNITS_COUNT]⟩,
  ⟨0x7000060, [(15, 0x10000)], [F.LNK_PARTNER_SERIAL_SERIAL]⟩,
  ⟨0x7000100, [(15, 0x10000), (9, 0x8)], [F.LNK_LANE_SYM_ERR, F.LNK_LANE_EYE_H, F.LNK_LANE_EYE_V, F.LNK_LANE_ACTIVE, F.LNK_LANE_FAILED]⟩]

/-- Registers of the FED block. -/
def regsFed : List RegDef := [
  ⟨0x8000000, [], [F.FED_STATUS_MODE, F.FED_STATUS_BIFURC, F.FED_STATUS_LINKS_UP, F.FED_STATUS_FLIT, F.FED_STATUS_CTRLS]⟩,
  ⟨0x8000008, [], [F.FED_CTRL_SCOPE]⟩,
  ⟨0x8000010, [], [F.FED_EVENT_LINK_DOWN, F.FED_EVENT_NVME_ERR, F.FED_EVENT_RECORD_BAD, F.FED_EVENT_EP_ABORT, F.FED_EVENT_CKPT_FAIL]⟩,
  ⟨0x8000018, [], [F.FED_EVCNT_LINK_DOWN_CNT, F.FED_EVCNT_NVME_ERR_CNT, F.FED_EVCNT_RECORD_BAD_CNT, F.FED_EVCNT_EP_ABORT_CNT, F.FED_EVCNT_CKPT_FAIL_CNT]⟩,
  ⟨0x8000020, [], [F.FED_WIN_BASE_BASE]⟩,
  ⟨0x8000028, [], [F.FED_BAR2_BASE, F.FED_BAR2_LOG2SIZE]⟩,
  ⟨0x8000030, [], [F.FED_APERTURE_PAGE]⟩,
  ⟨0x8000038, [], [F.FED_FEED_DESC_ADDR]⟩,
  ⟨0x8000040, [], [F.FED_FEED_CTRL_ARM]⟩,
  ⟨0x8000048, [], [F.FED_FEED_STATUS_STATE, F.FED_FEED_STATUS_LAST_STATUS]⟩,
  ⟨0x8000050, [], [F.FED_CKPT_SRC_ADDR]⟩,
  ⟨0x8000058, [], [F.FED_CKPT_LBA_LBA]⟩,
  ⟨0x8000060, [], [F.FED_CKPT_CTRL_GO, F.FED_CKPT_CTRL_DIR, F.FED_CKPT_CTRL_NS, F.FED_CKPT_CTRL_INGOTS]⟩,
  ⟨0x8000068, [], [F.FED_CKPT_STATUS_STATE, F.FED_CKPT_STATUS_LAST_STATUS, F.FED_CKPT_STATUS_DONE]⟩,
  ⟨0x8000070, [], [F.FED_CKPT_DIGEST_DIGEST]⟩,
  ⟨0x8000080, [(4, 0x8)], [F.FED_CURSOR_CURSOR]⟩,
  ⟨0x8000100, [(8, 0x8)], [F.FED_NS_NSID, F.FED_NS_CTRL, F.FED_NS_BIND, F.FED_NS_VALID, F.FED_NS_LBA4K]⟩]

/-- Registers of the SEC block. -/
def regsSec : List RegDef := [
  ⟨0x9000000, [], [F.SEC_STATUS_CLAIMED, F.SEC_STATUS_PROF_UNLOCKED, F.SEC_STATUS_DEBUG_UNLOCKED, F.SEC_STATUS_SPLIT, F.SEC_STATUS_SCOPE_W, F.SEC_STATUS_SCOPE_E, F.SEC_STATUS_WINNOW_ACTIVE, F.SEC_STATUS_TAG_W, F.SEC_STATUS_TAG_E]⟩,
  ⟨0x9000008, [], [F.SEC_EVENT_AUTH_FAIL, F.SEC_EVENT_UNLOCK_FAIL, F.SEC_EVENT_UNLOCK, F.SEC_EVENT_LICENCE_REFUSED, F.SEC_EVENT_BUNDLE_FAIL, F.SEC_EVENT_WINNOW_FAIL]⟩,
  ⟨0x9000010, [], [F.SEC_EVCNT_AUTH_FAIL_CNT, F.SEC_EVCNT_UNLOCK_FAIL_CNT, F.SEC_EVCNT_UNLOCK_CNT, F.SEC_EVCNT_LICENCE_REFUSED_CNT, F.SEC_EVCNT_BUNDLE_FAIL_CNT, F.SEC_EVCNT_WINNOW_FAIL_CNT]⟩,
  ⟨0x9000018, [], [F.SEC_UNLOCK_CTRL_PROF_REQ, F.SEC_UNLOCK_CTRL_DEBUG_REQ, F.SEC_UNLOCK_CTRL_NONCE_REQ, F.SEC_UNLOCK_CTRL_LOCK]⟩,
  ⟨0x9000020, [], [F.SEC_UNLOCK_STATUS_LAST_STATUS, F.SEC_UNLOCK_STATUS_FAILS, F.SEC_UNLOCK_STATUS_WAIT, F.SEC_UNLOCK_STATUS_NONCE_VALID]⟩,
  ⟨0x9000028, [], [F.SEC_LIC_FEATURES, F.SEC_LIC_COUNT]⟩,
  ⟨0x9000040, [(4, 0x8)], [F.SEC_NONCE_NONCE]⟩,
  ⟨0x9000080, [(8, 0x8)], [F.SEC_PW_PW]⟩,
  ⟨0x9000100, [(12, 0x8)], [F.SEC_SIG_SIG]⟩,
  ⟨0x9000300, [(2, 0x20)], [F.SEC_BND_SRC_ADDR]⟩,
  ⟨0x9000308, [(2, 0x20)], [F.SEC_BND_DST_ADDR]⟩,
  ⟨0x9000310, [(2, 0x20)], [F.SEC_BND_CTRL_GO]⟩,
  ⟨0x9000318, [(2, 0x20)], [F.SEC_BND_STATUS_STATE, F.SEC_BND_STATUS_LAST_STATUS, F.SEC_BND_STATUS_INGOTS]⟩,
  ⟨0x9004000, [(4096, 0x8)], [F.SEC_STAGE_DATA]⟩]

/-- Registers of the MBX block. -/
def regsMbx : List RegDef := [
  ⟨0xA000000, [], [F.MBX_STATUS_RUNNING, F.MBX_STATUS_SLOT, F.MBX_STATUS_SRAM_KEPT, F.MBX_STATUS_PORT_UP, F.MBX_STATUS_THROT_W, F.MBX_STATUS_THROT_E, F.MBX_STATUS_BOOT]⟩,
  ⟨0xA000008, [], [F.MBX_EVENT_THERM_THROTTLE, F.MBX_EVENT_THERM_TRIP, F.MBX_EVENT_REG_FAULT, F.MBX_EVENT_PMBUS_ERR, F.MBX_EVENT_I3C_ERR, F.MBX_EVENT_SENSOR_FAIL, F.MBX_EVENT_SB_TORN, F.MBX_EVENT_SB_DROPPED, F.MBX_EVENT_SESSION_FAIL]⟩,
  ⟨0xA000010, [], [F.MBX_EVCNT0_THERM_THROTTLE_CNT, F.MBX_EVCNT0_THERM_TRIP_CNT, F.MBX_EVCNT0_REG_FAULT_CNT, F.MBX_EVCNT0_PMBUS_ERR_CNT, F.MBX_EVCNT0_I3C_ERR_CNT]⟩,
  ⟨0xA000018, [], [F.MBX_EVCNT1_SENSOR_FAIL_CNT, F.MBX_EVCNT1_SB_TORN_CNT, F.MBX_EVCNT1_SB_DROPPED_CNT, F.MBX_EVCNT1_SESSION_FAIL_CNT]⟩,
  ⟨0xA000020, [], [F.MBX_ALERT_MASK_MASK]⟩,
  ⟨0xA000028, [], [F.MBX_RESET_CAUSE_LEVEL, F.MBX_RESET_CAUSE_TRIP]⟩,
  ⟨0xA000030, [], [F.MBX_SB_HEAD_SEQ]⟩,
  ⟨0xA000038, [], [F.MBX_SB_STATUS_SECTOR, F.MBX_SB_STATUS_QUEUED, F.MBX_SB_STATUS_ERASING, F.MBX_SB_STATUS_HELD]⟩,
  ⟨0xA000040, [], [F.MBX_POWER_LAST, F.MBX_POWER_AVG]⟩,
  ⟨0xA000048, [], [F.MBX_TEMP_MAX, F.MBX_TEMP_SENSOR]⟩,
  ⟨0xA000050, [], [F.MBX_PORT_LINK_UP, F.MBX_PORT_FEC, F.MBX_PORT_SESSIONS]⟩,
  ⟨0xA000058, [], [F.MBX_TRACE_CTRL_ENABLE, F.MBX_TRACE_CTRL_WRAP, F.MBX_TRACE_CTRL_COUNT]⟩,
  ⟨0xA000100, [(64, 0x8)], [F.MBX_SENSOR_TEMP, F.MBX_SENSOR_VALID, F.MBX_SENSOR_FAILED]⟩,
  ⟨0xA000300, [(16, 0x8)], [F.MBX_VTAP_MV, F.MBX_VTAP_VALID]⟩,
  ⟨0xA000380, [(16, 0x8)], [F.MBX_RAIL_VOUT, F.MBX_RAIL_IOUT, F.MBX_RAIL_STATUS, F.MBX_RAIL_VALID]⟩]

/-- Every register of register space (Table 9-2). -/
def regDefs : List RegDef :=
  regsDev0 ++ regsDev1 ++ regsTal ++ regsCmd ++ regsTil0 ++ regsTil1 ++ regsTil2 ++ regsFld ++ regsStk ++ regsFab ++ regsLnk ++ regsFed ++ regsSec ++ regsMbx

end Sys2Proof.Machine
end

