-- ==== Sys2Proof/Machine/Hash.lean ====
section
/-! DEFINITION. Byte strings and the checks the spec names: little-endian fields (R3), CRC-32C (R394, R423), the CRC-64 of
Table 15-2, SHA-384 (R139) and Philox-4x32-10 (R200). -/

namespace Sys2Proof.Machine

/-- The little-endian number of a byte string (R3). -/
def leNat : List Byte → Nat
  | [] => 0
  | b :: bs => b.toNat + 256 * leNat bs

/-- The low `n` bytes of a number, little-endian (R3). -/
def leBytes : Nat → Nat → List Byte
  | 0, _ => []
  | n + 1, v => BitVec.ofNat 8 v :: leBytes n (v / 256)

/-- The big-endian number of a byte string. -/
def beNat (bs : List Byte) : Nat := leNat bs.reverse

/-- `n` bytes of a byte string from byte `o`, as a little-endian number; bytes beyond the end count as zero. -/
def leAt (bs : List Byte) (o n : Nat) : Nat := leNat ((bs.drop o).take n)

/-- `n` bytes of a byte string from byte `o`. -/
def bytesAt (bs : List Byte) (o n : Nat) : List Byte := (bs.drop o).take n

/-- Bits `[lo + w - 1 : lo]` of a number. -/
def bits (v lo w : Nat) : Nat := (v / 2 ^ lo) % 2 ^ w

/-- Bit `i` of a number. -/
def bit (v i : Nat) : Bool := (v / 2 ^ i) % 2 == 1

/-- One bit step of the reflected CRC-32C register (polynomial 0x1EDC6F41, reflected). -/
def crc32cBit (c : BitVec 32) : BitVec 32 :=
  if c.getLsbD 0 then (c >>> 1) ^^^ 0x82F63B78#32 else c >>> 1

/-- One byte into the CRC-32C register. -/
def crc32cByte (c : BitVec 32) (b : Byte) : BitVec 32 :=
  Nat.repeat crc32cBit 8 (c ^^^ b.zeroExtend 32)

/-- CRC-32C of a byte string. -/
def crc32c (bs : List Byte) : Nat :=
  (bs.foldl crc32cByte 0xFFFFFFFF#32 ^^^ 0xFFFFFFFF#32).toNat

/-- One bit step of the CRC-64 of Table 15-2 (polynomial 0x42F0_E1EB_A9EA_3693, most significant bit first). -/
def crc64Bit (c : Word) : Word :=
  if c.getLsbD 63 then (c <<< 1) ^^^ 0x42F0E1EBA9EA3693#64 else c <<< 1

/-- One byte into the CRC-64 register. -/
def crc64Byte (c : Word) (b : Byte) : Word :=
  Nat.repeat crc64Bit 8 (c ^^^ (b.zeroExtend 64 <<< 56))

/-- CRC-64 of a byte string with the parameters of Table 15-2 (R381). -/
def crc64 (bs : List Byte) : Nat := (bs.foldl crc64Byte 0#64).toNat

/-- The round constants of SHA-384, the fractional parts of the cube roots of the first 80 primes to 64 bits: eight to a number, the first
of them in its low bits. -/
def shaCubes : List Nat := [
  0xAB1C5ED5DA6D8118923F82A4AF194F9B59F111F1B605D0193956C25BF348B538E9B5DBA58189DBBCB5C0FBCFEC4D3B2F7137449123EF65CD428A2F98D728AE22,
  0xC19BF174CF6926949BDC06A725C7123580DEB1FE3B1696B172BE5D74F27B896F550C7DC3D5FFB4E2243185BE4EE4B28C12835B0145706FBED807AA98A3030242,
  0x76F988DA831153B55CB0A9DCBD41FBD44A7484AA6EA6E4832DE92C6F592B0275240CA1CC77AC9C650FC19DC68B8CD5B5EFBE4786384F25E3E49B69C19EF14AD2,
  0x142929670A0E6E7006CA6351E003826FD5A79147930AA725C6E00BF33DA88FC2BF597FC7BEEF0EE4B00327C898FB213FA831C66D2DB43210983E5152EE66DFAB,
  0x92722C851482353B81C2C92E47EDAEE6766A0ABB3C77B2A8650A73548BAF63DE53380D139D95B3DF4D2C6DFC5AC42AED2E1B21385C26C92627B70A8546D22FFC,
  0x106AA07032BBD1B8F40E35855771202AD69906245565A910D192E819D6EF5218C76C51A30654BE30C24B8B70D0F89791A81A664BBC423001A2BFE8A14CF10364,
  0x682E6FF3D6B2B8A35B9CCA4F7763E3734ED8AA4AE3418ACB391C0CB3C5C95A6334B0BCB5E19B48A82748774CDF8EEB991E376C085141AB5319A4C116B8D2D0C8,
  0xC67178F2E372532BBEF9A3F7B2C67915A4506CEBDE82BDE990BEFFFA23631E288CC702081A6439EC84C87814A1F0AB7278A5636F43172F60748F82EE5DEFB2FC,
  0x1B710B35131C471B113F9804BEF90DAE0A637DC5A2C898A606F067AA72176FBAF57D4F7FEE6ED178EADA7DD6CDE0EB1ED186B8C721C0C207CA273ECEEA26619C,
  0x6C44198C4A4758175FCB6FAB3AD6FAEC597F299CFC657E2A4CC5D4BECB3E42B6431D67C49C100D4C3C9EBE0A15C9BEBC32CAAB7B40C7249328DB77F523047D84]

/-- Round constant `t`. -/
def shaConst (t : Nat) : Word := BitVec.ofNat 64 ((shaCubes.getD (t / 8) 0) >>> (64 * (t % 8)))

/-- The initial hash value of SHA-384, the fractional parts of the square roots of the ninth to the sixteenth prime to 64 bits, the first of
them in the low bits. -/
def shaRoots : Nat :=
  0x47B5481DBEFA4FA4DB0C2E0D64F98FA78EB44A876858151167332667FFC00B31152FECD8F70E59399159015A3070DD17629A292A367CD507CBBB9D5DC1059ED8

/-- The eight big-endian words of the padded message, block by block (16 words each). -/
def shaWords : List Byte → List Word
  | a :: b :: c :: d :: e :: f :: g :: h :: bs =>
    BitVec.ofNat 64 (beNat [a, b, c, d, e, f, g, h]) :: shaWords bs
  | _ => []

/-- The message with SHA-384's padding: a one bit, zeros, the 128-bit length in bits. -/
def shaPad (bs : List Byte) : List Byte :=
  let n := bs.length
  let z := (239 - n % 128) % 128
  bs ++ [0x80#8] ++ List.replicate z 0#8 ++ (leBytes 16 (8 * n)).reverse

/-- The exclusive or of a word turned right by each of some places. -/
def turns (w : Word) (ns : List Nat) : Word := ns.foldl (fun (x : Word) n => x ^^^ w.rotateRight n) 0

/-- What a compression has at hand before a round: the eight working words, a to h, and the next 16 words of the schedule. -/
structure ShaS where
  work : List Word
  sched : List Word
  deriving DecidableEq, Repr

/-- Round t: the schedule's first word goes into the working words, and the word 16 rounds on joins the schedule. -/
def ShaS.round (s : ShaS) (t : Nat) : ShaS :=
  let v (i : Nat) : Word := s.work.getD i 0
  let w (i : Nat) : Word := s.sched.getD i 0
  let into := w 0 + shaConst t + v 7 + turns (v 4) [14, 18, 41] + ((v 4 &&& (v 5 ^^^ v 6)) ^^^ v 6)
  let most := (v 0 &&& (v 1 ||| v 2)) ||| (v 1 &&& v 2)
  let coming := w 0 + w 9 + (turns (w 1) [1, 8] ^^^ (w 1 >>> 7)) + (turns (w 14) [19, 61] ^^^ (w 14 >>> 6))
  { work := [into + turns (v 0) [28, 34, 39] + most, v 0, v 1, v 2, v 3 + into, v 4, v 5, v 6]
    sched := s.sched.drop 1 ++ [coming] }

/-- The blocks of a padded message, one after another. -/
def shaBlocks : Nat → List Word → List Word → List Word
  | 0, h, _ => h
  | n + 1, h, w =>
    let out := (List.range 80).foldl ShaS.round { work := h, sched := w.take 16 }
    shaBlocks n (List.zipWith (· + ·) h out.work) (w.drop 16)

/-- SHA-384 of a byte string: 48 bytes. -/
def sha384 (bs : List Byte) : List Byte :=
  let w := shaWords (shaPad bs)
  ((shaBlocks (w.length / 16) ((List.range 8).map fun i => BitVec.ofNat 64 (shaRoots >>> (64 * i))) w).take 6).flatMap fun x => (leBytes 8 x.toNat).reverse

/-- One round of Philox-4x32: two 32 × 32 products, crossed with the key. -/
def philoxRound (c : Nat × Nat × Nat × Nat) (k : Nat × Nat) : Nat × Nat × Nat × Nat :=
  let p0 := 0xD2511F53 * c.1
  let p1 := 0xCD9E8D57 * c.2.2.1
  ((p1 / 2 ^ 32) ^^^ c.2.1 ^^^ k.1, p1 % 2 ^ 32, (p0 / 2 ^ 32) ^^^ c.2.2.2 ^^^ k.2, p0 % 2 ^ 32)

/-- `n` rounds of Philox-4x32, the key bumped between rounds. -/
def philoxRounds : Nat → (Nat × Nat × Nat × Nat) → (Nat × Nat) → (Nat × Nat × Nat × Nat)
  | 0, c, _ => c
  | n + 1, c, k =>
    philoxRounds n (philoxRound c k) ((k.1 + 0x9E3779B9) % 2 ^ 32, (k.2 + 0xBB67AE85) % 2 ^ 32)

/-- Philox-4x32-10 of a counter and a key: word `i` of the four (R200). -/
def philox (c : Nat × Nat × Nat × Nat) (k : Nat × Nat) (i : Nat) : Nat :=
  let r := philoxRounds 10 c k
  [r.1, r.2.1, r.2.2.1, r.2.2.2].getD i 0

end Sys2Proof.Machine
end

