-- ==== Sys2Proof/Machine/Ops.lean ====
section
/-! DEFINITION. The named operations every meaning is built from: register fields and events, half states, memory with its poison and
error outcomes, the strongbox, the trace, what leaves the device. -/

namespace Sys2Proof.Machine

/-! ## Register fields -/

/-- The bit address of a field of the register instance `add` bytes above the first. -/
def Fld.key (f : Fld) (add : Nat) : Nat := 8 * (f.off + add) + f.lo

/-- The value of a field. -/
def Dev.fget (d : Dev) (f : Fld) (add : Nat := 0) : Nat := (fmGet d.regs (f.key add)).getD f.rst

/-- Whether a one-bit field is set. -/
def Dev.flag (d : Dev) (f : Fld) (add : Nat := 0) : Bool := d.fget f add != 0

/-- The register file with one field set; a field at its reset value is not listed. -/
def regPut (m : FMap Nat) (f : Fld) (add v : Nat) : FMap Nat :=
  let w := v % 2 ^ f.w
  if w = f.rst then fmErase m (f.key add) else fmSet m (f.key add) w

/-- Hardware sets a field; bits beyond its width are dropped. -/
def Dev.fset (d : Dev) (f : Fld) (v : Nat) (add : Nat := 0) : Dev := { d with regs := regPut d.regs f add v }

/-- Hardware sets a one-bit field from a truth value. -/
def Dev.fsetB (d : Dev) (f : Fld) (b : Bool) (add : Nat := 0) : Dev := d.fset f (if b then 1 else 0) add

/-- A counter grows and saturates at all ones (R9). -/
def Dev.count (d : Dev) (f : Fld) (n : Nat := 1) (add : Nat := 0) : Dev :=
  d.fset f (min (d.fget f add + n) (2 ^ f.w - 1)) add

/-- A hardware set of a W1C bit: the bit is set and the counter beside it counts, whether or not the bit was set (R9). -/
def Dev.event (d : Dev) (e : Ev) (add : Nat := 0) : Dev := (d.fset e.bit 1 add).count e.cnt 1 add

/-- Every field whose bit address lies in register space from `lo` up to but not including `hi` returns to its reset
value. -/
def Dev.regReset (d : Dev) (lo hi : Nat) : Dev := { d with regs := fmEraseRange d.regs (8 * lo) (8 * hi) }

/-- Several fields of one register instance return to reset. -/
def Dev.fclear (d : Dev) (fs : List Fld) (add : Nat := 0) : Dev := fs.foldl (fun d f => d.fset f f.rst add) d

/-- The register-space offset of tile t's block beyond tile 0's (Table 9-2). -/
def tileAdd (t : Nat) : Nat := t * 0x10000

/-- The offset of a link port's block beyond port 0's (Table 9-2). -/
def portAdd (p : Nat) : Nat := p * 0x10000

/-- The offset of a field site's block beyond site 0's (Table 9-2). -/
def siteAdd (s : Nat) : Nat := s * 0x10000

/-- The offset of a stack's block beyond stack 0's (Table 9-2). -/
def stackAdd (k : Nat) : Nat := k * 0x100000

/-! ## Free values, what leaves the device -/

/-- A fresh free value below `2 ^ w`. -/
def Dev.fresh (d : Dev) (w : Nat) : Nat × Dev :=
  (Config.freeWord d.free % 2 ^ w, { d with free := d.free + 1 })

/-- The device sends or drives something outward. -/
def Dev.emit (d : Dev) (o : Out) : Dev := { d with out := d.out ++ [o] }

/-! ## Status codes (Table 16-5) -/

def stOk : Nat := 0x00
def stAccepted : Nat := 0x01
def stBusy : Nat := 0x02
def stBadOpcode : Nat := 0x03
def stBadFormat : Nat := 0x04
def stLenRange : Nat := 0x05
def stAlign : Nat := 0x06
def stCountRange : Nat := 0x07
def stNoResource : Nat := 0x08
def stNotLicensed : Nat := 0x09
def stAuthFailed : Nat := 0x0A
def stWrongState : Nat := 0x0B
def stTenantMismatch : Nat := 0x0C
def stDigestMismatch : Nat := 0x0D
def stPoison : Nat := 0x0E
def stNonfinite : Nat := 0x0F
def stPreempted : Nat := 0x10
def stAbandoned : Nat := 0x11
def stSlotMiss : Nat := 0x12
def stPartnerAbsent : Nat := 0x13
def stPartnerFault : Nat := 0x14
def stTimeout : Nat := 0x15
def stFeedShared : Nat := 0x16
def stEpochFault : Nat := 0x17
def stDuplicate : Nat := 0x18
def stBridgeLost : Nat := 0x19
def stUpdateIncomplete : Nat := 0x1A

/-- A status with which a request to another device may fail: not OK, no response-only code, no reserved one (R16, Table 16-5). -/
def isFailure (st : Nat) : Bool := decide (2 ≤ st) && decide (st ≤ 0x1A) && st != 0x18

/-! ## Power, halves, tenancy -/

/-- The logic outside the standby domain runs: PWR_GOOD and RESET_N are high (R457) and the clocks are not stopped by a trip
(R524). -/
def Dev.live (d : Dev) : Bool := d.pw.pwrGood && d.pw.resetN && !d.pw.tripped

/-- PWR_GOOD and RESET_N are both high: the management processor is out of reset (Table 19-3). -/
def Dev.powered (d : Dev) : Bool := d.pw.pwrGood && d.pw.resetN

/-- Uhlea runs (R460, MBX_STATUS.RUNNING). -/
def Dev.uhlea (d : Dev) : Bool := d.powered && d.flag F.MBX_STATUS_RUNNING

/-- Core cycles per tick at the profile in force (Table 2-1). -/
def Dev.cyclesPerTick (d : Dev) : Nat := if d.pw.profile = 0 then 1280 else if d.pw.profile = 1 then 1600 else 1920

/-- The tally count. -/
def Dev.now (d : Dev) : Nat := d.fget F.TAL_COUNT_COUNT

/-- DEV_STATE's code of a half (Table 1-9): `false` west, `true` east. -/
def Dev.half (d : Dev) (h : HalfId) : Nat := d.fget (if h then F.DEV_STATE_STATE_E else F.DEV_STATE_STATE_W)

/-- DEV_STATE's SUB bit of a half. -/
def Dev.halfSub (d : Dev) (h : HalfId) : Nat := d.fget (if h then F.DEV_STATE_SUB_E else F.DEV_STATE_SUB_W)

/-- Split tenancy is in force (R444). -/
def Dev.split (d : Dev) : Bool := d.flag F.SEC_STATUS_SPLIT

/-- The half of a tile. -/
def tileHalf (t : Nat) : HalfId := decide (256 ≤ t)

/-- The half that owns a port (Table 1-2). -/
def portHalf (p : Nat) : HalfId := (4 ≤ p && p < 8) || decide (12 ≤ p)

/-- The half that owns a stack (Table 1-2). -/
def stackHalf (k : Nat) : HalfId := decide (4 ≤ k)

/-- The east half is ORPHAN or FAULT, so that what it owns is out of reach (R22). -/
def Dev.eastLost (d : Dev) : Bool := d.half true == 7

/-- The tenant tag of a half (R443). -/
def Dev.tagOf (d : Dev) (h : HalfId) : Nat := d.fget (if h then F.SEC_STATUS_TAG_E else F.SEC_STATUS_TAG_W)

/-- The scope state of a half: 0 FREE_CLEAN, 1 OWNED, 2 FREE_DIRTY (R443). -/
def Dev.scopeState (d : Dev) (h : HalfId) : Nat := d.fget (if h then F.SEC_STATUS_SCOPE_E else F.SEC_STATUS_SCOPE_W)

/-- The halves of a scope. -/
def scopeHalves : Scope → List HalfId
  | .whole => [false, true]
  | .west => [false]
  | .east => [true]

/-- SCOPE as the commands encode it: 0 whole device, 1 west half, 2 east half (R444, R451, R464). -/
def scopeOf (n : Nat) : Scope := if n = 1 then .west else if n = 2 then .east else .whole

/-- Whether a scope covers a half. -/
def scopeHas (s : Scope) (h : HalfId) : Bool :=
  match s with
  | .whole => true
  | .west => !h
  | .east => h

/-- Whether a feature is licensed: 0 High, 1 FP4 paired, 2 hall scale, 3 split tenancy, 4 sealed links (R440). -/
def Dev.licensed (d : Dev) (f : Nat) : Bool := bit (d.fget F.SEC_LIC_FEATURES) f

/-! ## The trace, the strongbox, MBX events -/

/-- A trace record, taken only while the trace is enabled; a full ring overwrites the oldest with WRAP set and stops
otherwise (R422). -/
def Dev.traceRec (d : Dev) (kind : Nat) (vals : List Nat) : Dev :=
  if !d.flag F.MBX_TRACE_CTRL_ENABLE then d else
  let r : TraceRec := ⟨kind, d.now, d.fget F.TAL_PHASE_CYCLE, vals⟩
  if d.mg.trace.length < 32768 then
    { d with mg := { d.mg with trace := d.mg.trace ++ [r] } }
  else if d.flag F.MBX_TRACE_CTRL_WRAP then
    { d with mg := { d.mg with trace := d.mg.trace.drop 1 ++ [r] } }
  else d

/-- A management message of a TYPE to a session, with the next SEQ of the device's own direction and the TAG of what it answers (R418). -/
def Dev.sendMsg (d : Dev) (id type tag : Nat) (body : List Nat) : Dev :=
  let d := d.emit (.mgmt id type (((fmGet d.mg.sessions id).map (·.seqOut)).getD 1) tag body)
  { d with mg := { d.mg with sessions := fmMap d.mg.sessions fun k x => if k = id then { x with seqOut := x.seqOut + 1 } else x } }

/-- A set of an MBX_EVENT bit: the event, its trace record, an EVENT message to every session, and MSI-X vector 1 where the
alert mask enables the bit (R418, R422, R488). -/
def Dev.mbxEvent (d : Dev) (e : Ev) : Dev :=
  let d := (d.event e).traceRec 5 [e.bit.lo]
  let d := d.mg.sessions.foldl (fun d p => d.sendMsg p.1 0x09 0 [e.bit.lo, d.now]) d
  if bit (d.fget F.MBX_ALERT_MASK_MASK) e.bit.lo && !d.flag F.FED_STATUS_MODE then d.emit (.msix 1) else d

/-- Uhlea queues a strongbox record; a full queue drops it (R425). -/
def Dev.sbLog (d : Dev) (type sev : Nat) (body : List Nat) : Dev :=
  if 256 ≤ d.mg.sbQueue.length then
    ({ d with mg := { d.mg with sbDropped := d.mg.sbDropped + 1 } }).mbxEvent E.MBX_SB_DROPPED
  else
    let r : SbRec :=
      { type, sev, seq := 0, tally := d.now, boot := d.fget F.MBX_STATUS_BOOT,
        fabricId := if d.flag F.DEV_FABRIC_VALID then d.fget F.DEV_FABRIC_ID else 0xFFFF,
        state := d.half false, body }
    { d with mg := { d.mg with sbQueue := d.mg.sbQueue ++ [r] } }

/-- A half takes a DEV_STATE code and SUB bit; a change is a strongbox State change record (Table 17-8). -/
def Dev.setHalf (d : Dev) (h : HalfId) (st sub : Nat) : Dev :=
  let old := d.half h
  let d := (d.fset (if h then F.DEV_STATE_STATE_E else F.DEV_STATE_STATE_W) st).fset
    (if h then F.DEV_STATE_SUB_E else F.DEV_STATE_SUB_W) sub
  if old = st then d else d.sbLog 0x0002 0 [old, st, d.fget F.DEV_STATE_UPDATE_STAGED]

/-- The halves of a scope take a state, except an east half that is ORPHAN or in FAULT (R461). -/
def Dev.setScope (d : Dev) (s : Scope) (st sub : Nat) : Dev :=
  (scopeHalves s).foldl (fun d h => if d.half h = 7 then d else d.setHalf h st sub) d

/-! ## The local address map (R218–R220) -/

/-- What a local address names (Table 9-1). -/
inductive Place where
  /-- Tenant stack memory. -/
  | stack
  /-- The reserved stack range of a half. -/
  | reserved (h : HalfId)
  /-- A byte of a tile's scratchpad slice. -/
  | scratch (t off : Nat)
  /-- A byte of register space. -/
  | reg (off : Nat)
  /-- A byte of the feed port window. -/
  | window (x : Nat)
  /-- No memory at all. -/
  | hole
  deriving DecidableEq, Repr

/-- The reserved range of a half starts here. -/
def reservedBase (h : HalfId) : Nat := if h then 0x009E80000000 else 0x004E80000000

/-- The base of a tile's scratchpad slice. -/
def sliceBase (t : Nat) : Nat := 0x100000000000 + t * 0x400000

/-- Table 9-1. -/
def place (a : Nat) : Place :=
  if a < 0xA000000000 then
    if 0x4E80000000 ≤ a && a < 0x5000000000 then .reserved false
    else if 0x9E80000000 ≤ a then .reserved true
    else .stack
  else if 0x100000000000 ≤ a && a < 0x100080000000 then
    let o := (a - 0x100000000000) % 0x400000
    if o < 0x240000 then .scratch ((a - 0x100000000000) / 0x400000) o else .hole
  else if 0x200000000000 ≤ a && a < 0x200100000000 then .reg (a - 0x200000000000)
  else if 0x300000000000 ≤ a && a < 0x310000000000 then .window (a - 0x300000000000)
  else .hole

/-- The stack, pseudo-channel and byte within the way of a stack address: R229 for a reserved range and in split tenancy,
R228 otherwise. -/
def Dev.stackMap (d : Dev) (a : Nat) : Nat × Nat × Nat :=
  let res := match place a with
    | .reserved _ => true
    | _ => false
  if d.split || res then
    let h := if 0x5000000000 ≤ a then 1 else 0
    let b := a - h * 0x5000000000
    let n := b / 4096
    let w := (bits n 0 8) ^^^ (bits n 8 8) ^^^ (bits n 16 8)
    (4 * h + bits w 0 2, bits w 2 6, bits n 8 19 * 4096 + b % 4096)
  else
    let n := a / 4096
    let w := (bits n 0 9) ^^^ (bits n 9 9) ^^^ (bits n 18 9)
    let o := bits n 9 19
    let o := if 0x4E800 ≤ o && o < 0x4F400 then o - 0x27400 else o
    (bits w 0 3, bits w 3 6, o * 4096 + a % 4096)

/-- The stack of a stack address. -/
def Dev.stackOf (d : Dev) (a : Nat) : Nat := (d.stackMap a).1

/-- A stack address lies in the tenant stack memory of a scope: outside both reserved ranges and, in split tenancy, in the
half's own addresses (R228, R229). -/
def Dev.tenantStack (d : Dev) (s : Scope) (a : Nat) : Bool :=
  match place a with
  | .stack => if d.split then scopeHas s (decide (0x5000000000 ≤ a)) else true
  | _ => false

/-- Every byte of `[a, a + n)` lies in the tenant stack memory of a scope; an empty range lies there when `a` does. -/
def Dev.tenantRange (d : Dev) (s : Scope) (a n : Nat) : Bool :=
  let e := a + n
  d.tenantStack s a && (n = 0 || d.tenantStack s (e - 1)) &&
    !(a < 0x4E80000000 && 0x4E80000000 < e) && !(a < 0x9E80000000 && 0x9E80000000 < e) &&
    !(a < 0x5000000000 && 0x5000000000 < e && d.split)

/-! ## Memory -/

/-- Memory is in canonical form: strictly rising addresses, no entry zero. -/
abbrev Memory.wf (m : List Host.Cell) : Bool := fmWf m && m.all fun c => c.2 != 0#8

/-- One byte of memory: an unlisted byte is 0. -/
def memGet (m : List Host.Cell) (a : Nat) : Byte := (fmGet m a).getD 0#8

/-- Memory with byte `a` set; a zero byte is not listed. -/
def memPut (m : List Host.Cell) (a : Nat) (b : Byte) : List Host.Cell :=
  if b = 0#8 then fmErase m a else fmSet m a b

/-- Memory with a byte string stored from `a` on. -/
def memPutBytes (m : List Host.Cell) : Nat → List Byte → List Host.Cell
  | _, [] => m
  | a, b :: bs => memPutBytes (memPut m a b) (a + 1) bs

/-- Bytes `[lo, hi)` of memory become zero. -/
def memClear (m : List Host.Cell) (lo hi : Nat) : List Host.Cell := fmEraseRange m lo hi

/-- `n` bytes of memory from `a`. -/
def memBytes (m : List Host.Cell) (a n : Nat) : List Byte := (List.range n).map fun i => memGet m (a + i)

/-- A word is poison. -/
def Dev.isPoison (d : Dev) (a : Nat) : Bool := (fmGet d.poison (a / 8)).isSome

/-- Any word of `[a, a + n)` is poison. -/
def Dev.anyPoison (d : Dev) (a n : Nat) : Bool := d.poison.any fun p => decide (a / 8 ≤ p.1) && decide (8 * p.1 < a + n)

/-- Whole valid words stored from an 8-byte-aligned address; poison there is replaced (R237). -/
def Dev.poke (d : Dev) (a : Nat) (bs : List Byte) : Dev :=
  { d with mem := memPutBytes d.mem a bs, poison := fmEraseRange d.poison (a / 8) ((a + bs.length + 7) / 8) }

/-- One word written as poison; what it held is gone (R237). -/
def Dev.pokePoison (d : Dev) (a : Nat) : Dev :=
  { d with mem := memClear d.mem (a / 8 * 8) (a / 8 * 8 + 8), poison := fmSet d.poison (a / 8) () }

/-- The words of `[a, a + 8 n)` written as poison. -/
def Dev.pokePoisons (d : Dev) (a : Nat) : Nat → Dev
  | 0 => d
  | n + 1 => (d.pokePoison a).pokePoisons (a + 8) n

/-- `[lo, hi)` written as zeros with valid check bits (Table 18-8, Table 19-3). -/
def Dev.zeroRange (d : Dev) (lo hi : Nat) : Dev :=
  { d with mem := memClear d.mem lo hi, poison := fmEraseRange d.poison (lo / 8) ((hi + 7) / 8) }

/-- An address in stacks 4 to 7 while the east half is ORPHAN or FAULT: out of reach (R22). -/
def Dev.unreachable (d : Dev) (a : Nat) : Bool := d.eastLost && decide (a < 0xA000000000) && stackHalf (d.stackOf a)

/-- Any ingot of `[a, a + n)` is out of reach; 1,024 ingots in a row visit every stack of either mapping. -/
def Dev.rangeLost (d : Dev) (a n : Nat) : Bool :=
  d.eastLost && (List.range (min 1024 ((a % 4096 + n + 4095) / 4096))).any fun k => d.unreachable (a / 4096 * 4096 + 4096 * k)

/-- Stack bytes read or written are counted at their stack (Table 9-20). -/
def Dev.countStk (d : Dev) (a n : Nat) (wr : Bool) : Dev :=
  if a < 0xA000000000 then
    d.count (if wr then F.STK_WR_BYTES_COUNT else F.STK_RD_BYTES_COUNT) n (stackAdd (d.stackOf a))
  else d

/-- Bytes stored by the device at an 8-byte-aligned address, counted where the address lies in a stack. A store to a stack out of reach
is lost (DESIGN CHOICE: R22 says no more than that it is unreachable). -/
def Dev.store (d : Dev) (a : Nat) (bs : List Byte) : Dev :=
  if d.unreachable a then d else (d.poke a bs).countStk a bs.length true

/-- n words from an 8-byte-aligned address stored as poison. -/
def Dev.storePoison (d : Dev) (a n : Nat) : Dev := if d.unreachable a then d else (d.pokePoisons a n).countStk a (8 * n) true

/-- A word of memory is read through the (72,64) code: the word's value (0 where it is poison) and whether it is poison
(R237, R238). A word read as poison counts as a poison read; damage beyond the code's reach rewrites the word as poison. What a read of
a word out of reach gives is free (R22). -/
def Dev.readWord (d : Dev) (a : Nat) (e : RdErr) : (Word × Bool) × Dev :=
  let a := a / 8 * 8
  if d.unreachable a then ((BitVec.ofNat 64 (Config.lostWord d.free a), false), d) else
  let v : Word := BitVec.ofNat 64 (leNat (memBytes d.mem a 8))
  let stk := decide (a < 0xA000000000)
  let d := d.countStk a 8 false
  let sa := stackAdd (d.stackOf a)
  let ta := match place a with
    | .scratch t _ => tileAdd t
    | _ => 0
  let ev (d : Dev) (sp stke : Ev) : Dev := if stk then d.event stke sa else d.event sp ta
  let d := if stk && e == .onDie then d.event E.STK_ODECC sa else d
  if d.isPoison a && e != .heavy then ((0#64, true), ev d E.TIL_MEM_SP_POISON_READ E.STK_POISON_READ)
  else match e with
    | .none | .onDie => ((v, false), d)
    | .single =>
      let d := ev d E.TIL_MEM_SP_CORR E.STK_CORR
      ((v, false), if stk then d.countStk a 8 true else d)
    | .nibble | .heavy =>
      let d := (ev d E.TIL_MEM_SP_UNCORR E.STK_UNCORR).pokePoison a
      let d := if stk then
          ((d.fset F.STK_LAST_ERR_ADDR a sa).fset F.STK_LAST_ERR_PC (d.stackMap a).2.1 sa).countStk a 8 true
        else d
      ((0#64, true), d)

/-- A word reads as uncorrectable (R237, R238). -/
def Dev.uncorrectable (d : Dev) (a : Nat) (e : RdErr) : Bool :=
  !d.unreachable (a / 8 * 8) && (e == .heavy || (e == .nibble && !d.isPoison a))

/-- Words read one after another from `a`, with what the code meets at each (a missing entry: nothing): the values, whether
any was poison, whether any was uncorrectable. -/
def Dev.readWords (d : Dev) (a : Nat) : Nat → List RdErr → (List Word × Bool × Bool) × Dev
  | 0, _ => (([], false, false), d)
  | n + 1, es =>
    let e := es.headD .none
    let bad := d.uncorrectable a e
    let r := d.readWord a e
    let q := r.2.readWords (a + 8) n (es.drop 1)
    ((r.1.1 :: q.1.1, r.1.2 || q.1.2.1, bad || q.1.2.2), q.2)

/-- The bytes of words. -/
def wordBytes (ws : List Word) : List Byte := ws.flatMap fun w => leBytes 8 w.toNat

/-- A row of eight words as a payload (R165): its 512 bits, little-endian (R3). -/
def rowOf (bs : List Byte) : Row := BitVec.ofNat 512 (leNat bs)

/-- The 64 bytes of a row. -/
def rowBytes (r : Row) : List Byte := leBytes 64 r.toNat

/-- A whole row read through the code: its payload, whether any word was poison, whether any was uncorrectable. -/
def Dev.readRow (d : Dev) (a : Nat) (es : List RdErr) : (Row × Bool × Bool) × Dev :=
  let r := d.readWords a 8 es
  ((rowOf (wordBytes r.1.1), r.1.2.1, r.1.2.2), r.2)

/-- A row written: a payload, or eight poison words for a POISON token (R237). -/
def Dev.writeRow (d : Dev) (a : Nat) (v : Row) (poison : Bool) : Dev :=
  if poison then d.storePoison a 8 else d.store a (rowBytes v)

end Sys2Proof.Machine
end

