-- ==== Sys2Proof/Machine/Ledger.lean ====
section
/-! DEFINITION. The ledger: entries, the ring, the mirror, how an entry starts and ends (R400–R405). -/

namespace Sys2Proof.Machine

/-- The entry is in an ended state: COMPLETED, FAILED or SUPERSEDED (R401). -/
def Entry.ended (e : Entry) : Bool := decide (3 ≤ e.state)

/-- The ledger that serves a half: one for the whole device, one per half in split tenancy (R400). -/
def Dev.led (d : Dev) (h : HalfId) : Ledger := if d.split && h then d.led1 else d.led0

/-- The ledger that serves a half, replaced. -/
def Dev.setLed (d : Dev) (h : HalfId) (l : Ledger) : Dev :=
  if d.split && h then { d with led1 := l } else { d with led0 := l }

/-- The entries of a ledger in ring order. -/
def Ledger.entries (l : Ledger) : List Entry := l.ring.map (·.2)

/-- The entry with a sequence number, if the ring holds it. -/
def Ledger.find (l : Ledger) (seq : Nat) : Option Entry := l.entries.find? fun e => e.seq == seq

/-- The entry with a sequence number in a half's ledger. -/
def Dev.entry (d : Dev) (h : HalfId) (seq : Nat) : Option Entry := (d.led h).find seq

/-- Entries not yet ended. -/
def Ledger.unended (l : Ledger) : Nat := (l.entries.filter fun e => !e.ended).length

/-- Entries that wait on EXEC_AT (R46). -/
def Ledger.pendingAt (l : Ledger) : Nat := (l.entries.filter fun e => e.state == 1 && e.execAt != 0).length

/-- LGR_TAIL: the oldest sequence number the ring holds; 0 when it holds none. -/
def Ledger.tail (l : Ledger) : Nat :=
  match l.entries with
  | [] => 0
  | e :: es => es.foldl (fun m e => min m e.seq) e.seq

/-- LGR_MIRROR_TAIL: the oldest sequence number among the 1,024 most recent. -/
def Ledger.mirrorTail (l : Ledger) : Nat :=
  l.mirror.foldl (fun m p => if l.head < p.1 + 1024 && (m = 0 || p.1 < m) then p.1 else m) 0

/-- The first slot at or after `s`, in ring order, that no unended entry keeps (R400). -/
def Ledger.freeSlot (l : Ledger) : Nat → Nat → Nat
  | 0, s => s % 65536
  | n + 1, s =>
    match fmGet l.ring (s % 65536) with
    | none => s % 65536
    | some e => if e.ended then s % 65536 else l.freeSlot n (s + 1)

/-- The mirror holds the 1,024 most recent entries and every entry not ended (R403). -/
def Ledger.pruneMirror (l : Ledger) : Ledger :=
  { l with mirror := l.mirror.filter fun p => decide (l.head < p.1 + 1024) || !p.2.ended }

/-- A new entry takes the next sequence number and the next free slot; the mirror follows in the same cycle (R400, R403). -/
def Ledger.append (l : Ledger) (e : Entry) : Ledger :=
  let seq := l.head + 1
  let s := l.freeSlot 65536 l.slot
  let e := { e with seq := seq }
  Ledger.pruneMirror { ring := fmSet l.ring s e, slot := (s + 1) % 65536, head := seq, mirror := fmSet l.mirror seq e }

/-- An entry changed in the ring and in the mirror. -/
def Ledger.modify (l : Ledger) (seq : Nat) (f : Entry → Entry) : Ledger :=
  Ledger.pruneMirror
    { l with ring := fmMap l.ring fun _ e => if e.seq = seq then f e else e
             mirror := fmMap l.mirror fun _ e => if e.seq = seq then f e else e }

/-- A half's ledger entry changed. -/
def Dev.modEntry (d : Dev) (h : HalfId) (seq : Nat) (f : Entry → Entry) : Dev :=
  d.setLed h ((d.led h).modify seq f)

/-- A new entry in a half's ledger, with its trace record; every 65,536 sequence numbers Uhlea notes the head in the
strongbox (R403, R422). -/
def Dev.appendEntry (d : Dev) (h : HalfId) (e : Entry) : Dev :=
  let d := d.setLed h ((d.led h).append e)
  let seq := (d.led h).head
  let d := d.traceRec 1 [seq, e.state, e.status]
  if seq % 65536 = 0 then
    let d := d.sbLog 0x0090 0 [if h then 1 else 0, seq]
    { d with boot := if d.split && h then { d.boot with sbHead1 := some seq } else { d.boot with sbHead0 := some seq } }
  else d

/-- An empty entry, to be filled. -/
def Entry.blank : Entry :=
  { seq := 0, tag := 0, opcode := 0, source := 0, state := 0, status := 0, tenant := 0, flags := 0, accept := 0,
    startDelta := 0, endDelta := 0, crc := 0, result := 0, body := 0, execAt := 0, desc := 0, due := false }

/-- Ticks since acceptance, saturating in 32 bits (Table 16-6). -/
def Dev.delta (d : Dev) (e : Entry) : Nat := min (d.now - e.accept) (2 ^ 32 - 1)

/-- An entry starts in this core cycle (R396). -/
def Dev.startTaken (d : Dev) : Dev := { d with mg := { d.mg with started := true } }

/-- An entry becomes STARTED, the one of this core cycle (R396, R401). -/
def Dev.startEntry (d : Dev) (h : HalfId) (seq : Nat) : Dev :=
  (d.startTaken.modEntry h seq fun e => { e with state := 2, startDelta := d.delta e, due := false }).traceRec 1 [seq, 2, 0]

/-- An entry that has not ended ends in `st` (3 COMPLETED, 4 FAILED, 5 SUPERSEDED) with a status; an ended entry never
changes (R401). The end of a source-2 entry signals MSI-X vector 0 in endpoint mode (R488). -/
def Dev.endEntry (d : Dev) (h : HalfId) (seq st status : Nat) : Dev :=
  match d.entry h seq with
  | none => d
  | some e =>
    if e.ended then d else
    let d := d.modEntry h seq fun e => { e with state := st, status := status, endDelta := d.delta e, due := false }
    let d := d.traceRec 1 [seq, st, status]
    if e.source = 2 && !d.flag F.FED_STATUS_MODE then d.emit (.msix 0) else d

/-- An entry ends COMPLETED with OK, or FAILED with any other status. -/
def Dev.finish (d : Dev) (h : HalfId) (seq status : Nat) : Dev :=
  d.endEntry h seq (if status = stOk then 3 else 4) status

/-- The RESULT bytes of an entry. -/
def Dev.setResult (d : Dev) (h : HalfId) (seq r : Nat) : Dev :=
  d.modEntry h seq fun e => { e with result := r % 2 ^ 128 }

/-- Every entry that meets `p` ends as given, in sequence order of the ring. -/
def Dev.endWhere (d : Dev) (h : HalfId) (p : Entry → Bool) (st status : Nat) : Dev :=
  ((d.led h).entries.filter fun e => !e.ended && p e).foldl (fun d e => d.endEntry h e.seq st status) d

/-- The ledgers there are: one, or one per half (R400). -/
def Dev.ledgers (d : Dev) : List HalfId := if d.split then [false, true] else [false]

/-- Pending execute-at entries that meet `p` fail with TIMEOUT (R48). -/
def Dev.failPending (d : Dev) (p : Entry → Bool) : Dev :=
  d.ledgers.foldl (fun d h => d.endWhere h (fun e => e.state == 1 && e.execAt != 0 && p e) 4 stTimeout) d

/-- Entries of the same ledger that are still ACCEPTED end SUPERSEDED with WRONG_STATE (R398). -/
def Dev.supersede (d : Dev) (h : HalfId) : Dev := d.endWhere h (fun e => e.state == 1) 5 stWrongState

/-- The 64 bytes of an entry (Table 16-6, Table 16-8). -/
def Entry.bytes (e : Entry) : List Byte :=
  leBytes 8 e.seq ++ leBytes 8 e.tag ++ leBytes 1 e.opcode ++ leBytes 1 e.source ++ leBytes 1 e.state ++
    leBytes 1 e.status ++ leBytes 2 e.tenant ++ leBytes 1 e.flags ++ [0#8] ++ leBytes 8 e.accept ++
    (if e.source = 4 && e.opcode != 0xF3 then leBytes 32 e.body
     else leBytes 4 e.startDelta ++ leBytes 4 e.endDelta ++ leBytes 4 e.crc ++ leBytes 4 0 ++ leBytes 16 e.result)

/-- What a reader that may not see the entry sees of it: SEQ, OPCODE and STATE (R405). -/
def Entry.masked (e : Entry) : Entry :=
  { Entry.blank with seq := e.seq, opcode := e.opcode, state := e.state }

/-- The entry of a sequence number as a snapshot finds it: one from LGR_TAIL to LGR_HEAD, or an older one not ended
(R405). -/
def Ledger.snapshot (l : Ledger) (seq : Nat) : Option Entry :=
  match l.find seq with
  | some e => if (l.tail ≤ seq && seq ≤ l.head) || !e.ended then some e else none
  | none => none

/-- An entry as a reader sees it: an operator all of it; a tenant its own entries and the attempt entries of its runs,
and only SEQ, OPCODE and STATE of every other (R405). `tag` is the tenant's tag, `none` for the operator. -/
def Ledger.view (l : Ledger) (tag : Option Nat) (e : Entry) : Entry :=
  match tag with
  | none => e
  | some t =>
    let owner := if e.source = 4 then (l.find e.tag).map (·.tenant) else some e.tenant
    if owner = some t then e else e.masked

end Sys2Proof.Machine
end

