-- ==== Sys2Proof/Machine/State.lean ====
section
/-! DEFINITION. The machine's state: the device (Machine/Device.lean) and the queue of the commands that wait, and the reasons a command could
stop. -/

namespace Sys2Proof.Machine

/-- The reasons a command stops the machine with a fault: none is needed, since the spec gives every command an effect (a
fault of the device is an event bit, a status or a strongbox record in the next state). -/
inductive Fault where
  deriving DecidableEq, Repr

/-- The reasons a command is refused. -/
inductive Refusal where
  /-- Raised by exec for a command that has no meaning yet, by its mnemonic; safe: nothing is said about it. -/
  | notModelled (mnemonic : String)
  deriving DecidableEq, Repr

/-- The state of the block: the device, and the commands waiting, first in, first out. -/
structure State where
  pending : List Instr
  dev : Dev
  deriving DecidableEq, Repr

/-- The block right after reset: the device held in reset, no command waiting. -/
def State.reset : State := { pending := [], dev := Dev.reset }

/-- A command whose whole effect is on the device. -/
def onDev (f : Dev → Dev) (s : State) : Host.Outcome State Fault Refusal := .next { s with dev := f s.dev }

/-- A command of a block that runs only while PWR_GOOD and RESET_N are high and the clocks are not stopped: otherwise it
changes nothing (R457, R524). -/
def onLive (f : Dev → Dev) (s : State) : Host.Outcome State Fault Refusal :=
  onDev (fun d => if d.pw.pwrGood && d.pw.resetN && !d.pw.tripped then f d else d) s

/-- A command of the management subsystem, which runs on the standby rail while PWR_GOOD and RESET_N are high, a trip
included (R408, R524). -/
def onPowered (f : Dev → Dev) (s : State) : Host.Outcome State Fault Refusal :=
  onDev (fun d => if d.pw.pwrGood && d.pw.resetN then f d else d) s

end Sys2Proof.Machine
end

