-- ==== Sys2Proof/Machine/Flow.lean ====
section
/-! DEFINITION. Queues and firing: the operations every unit is built from (R107–R127), arrival of tokens (R112, R117, R151), the
steering units (R123–R127). -/

namespace Sys2Proof.Machine

/-! ## Slots and queues -/

/-- Kinds of Table 5-2. -/
def kData : Nat := 0
def kCtrl : Nat := 1
def kMark : Nat := 2
def kVoid : Nat := 3
def kPoison : Nat := 4

def slotKey (t s : Nat) : Nat := t * 32 + s
def qKey (t q : Nat) : Nat := t * 128 + q

/-- The slot s of tile t. -/
def Dev.slot (d : Dev) (t s : Nat) : Slot := (fmGet d.slots (slotKey t s)).getD Slot.init

/-- A slot replaced. -/
def Dev.setSlot (d : Dev) (t s : Nat) (x : Slot) : Dev := { d with slots := fmSet d.slots (slotKey t s) x }

/-- The queue q of tile t. -/
def Dev.queue (d : Dev) (t q : Nat) : Queue := (fmGet d.queues (qKey t q)).getD Queue.init

/-- A queue replaced. -/
def Dev.setQueue (d : Dev) (t q : Nat) (x : Queue) : Dev := { d with queues := fmSet d.queues (qKey t q) x }

/-- The tile t. -/
def Dev.tile (d : Dev) (t : Nat) : Tile := (fmGet d.tiles t).getD Tile.init

/-- A tile changed. -/
def Dev.modTile (d : Dev) (t : Nat) (f : Tile → Tile) : Dev := { d with tiles := fmMod d.tiles t Tile.init f }

/-- The units of a half are held (R120, R283). -/
def Dev.heldHalf (d : Dev) (h : HalfId) : Bool := if h then d.heldE else d.heldW

/-- The units of a half held or released. -/
def Dev.setHeld (d : Dev) (h : HalfId) (v : Bool) : Dev := if h then { d with heldE := v } else { d with heldW := v }

/-- The image in force of a half's scope. -/
def Dev.image (d : Dev) (h : HalfId) : Option Image := if d.split && h then d.img1 else d.img0

/-- The image in force of a half's scope, replaced. -/
def Dev.setImage (d : Dev) (h : HalfId) (i : Option Image) : Dev :=
  if d.split && h then { d with img1 := i } else { d with img0 := i }

/-- A fault of Table 11-3 (by its row) is reported; it awaits the step controller (R282). -/
def Dev.passFault (d : Dev) (h : HalfId) (row : Nat) : Dev := { d with faults := d.faults ++ [(h, row)] }

/-- An EPOCH_FAULT: its strongbox record and the fault (R157). `code` is the row of Table 6-13; `q` is 0xFF for a configuration
message, which concerns no queue. -/
def Dev.epochFault (d : Dev) (t s q code : Nat) : Dev :=
  (d.sbLog 0x0021 2 [t, s, q, code]).passFault (tileHalf t) 2

/-! ## Firing -/

/-- The queue of input i, where the unit's record names one. -/
def Cfg.inq (c : Cfg) (i : Nat) : Option Nat := (c.ins[i]?).getD none

/-- The live inputs (R152). -/
def Cfg.live (c : Cfg) : List Nat := (List.range c.ins.length).filter fun i => (c.inq i).isSome

/-- The head token of input i. -/
def Dev.head (d : Dev) (t : Nat) (c : Cfg) (i : Nat) : Option Token :=
  match c.inq i with
  | some q => (d.queue t q).tokens.head?
  | none => none

/-- The ordinary token at the head of input i, unless the input is closed (R120, R152). -/
def Dev.ready (d : Dev) (t : Nat) (x : Slot) (c : Cfg) (i : Nat) : Option Token :=
  if x.closed.contains i then none else
  match d.head t c i with
  | some k => if k.kind.toNat = kMark then none else some k
  | none => none

/-- A credit is held on output o (an output that names no queue needs none). -/
def Dev.credit (d : Dev) (c : Cfg) (o : Nat) : Bool :=
  match (c.outs[o]?).getD none with
  | some (t, q) => decide (0 < (d.queue t q).credits)
  | none => true

/-- The throttle gates the matrix and vector operators of a half in this cycle (R264). -/
def Dev.gated (d : Dev) (h : HalfId) : Bool :=
  decide (d.fget F.TAL_PHASE_CYCLE % 16 < (if h then d.mg.levelE else d.mg.levelW))

/-- The conditions of R120 beyond inputs and credits: an active configuration of one of the classes, II, throttle, RUNNING
and not held; and the slot has not swapped in this cycle (R153). -/
def Dev.canFire (d : Dev) (t s : Nat) (classes : List Nat) : Option (Slot × Cfg) :=
  let x := d.slot t s
  match x.active with
  | none => none
  | some c =>
    if classes.contains c.cls && decide (c.ii ≤ x.since) && !x.swapped && d.half (tileHalf t) == 4 && !d.heldHalf (tileHalf t) &&
        !(c.cls ≤ 1 && d.gated (tileHalf t)) then some (x, c)
    else none

/-- The head of a queue leaves it; the freed credit starts back (R116, R121). -/
def Dev.popQ (d : Dev) (t q : Nat) : Dev :=
  let y := d.queue t q
  d.setQueue t q { y with tokens := y.tokens.drop 1, freed := y.freed + 1 }

/-- The head of input i leaves its queue. -/
def Dev.popIn (d : Dev) (t : Nat) (c : Cfg) (i : Nat) : Dev :=
  match c.inq i with
  | some q => d.popQ t q
  | none => d

/-- The heads of several inputs leave. -/
def Dev.popIns (d : Dev) (t : Nat) (c : Cfg) (is : List Nat) : Dev := is.foldl (fun d i => d.popIn t c i) d

/-- A credit of output o is reserved (R116). -/
def Dev.reserve (d : Dev) (c : Cfg) (o : Nat) : Dev :=
  match (c.outs[o]?).getD none with
  | some (t, q) => let y := d.queue t q; d.setQueue t q { y with credits := y.credits - 1 }
  | none => d

/-- The region width of a shape and its levels and groups: (D, G, W, instances) (Table 4-1). -/
def shapeOf (code : Nat) : Nat × Nat × Nat × Nat :=
  match code with
  | 0 => (8, 8, 8, 1)
  | 1 => (4, 16, 8, 1)
  | 2 => (2, 32, 8, 1)
  | 3 => (1, 64, 8, 1)
  | 4 => (4, 4, 4, 4)
  | 5 => (2, 2, 2, 16)
  | _ => (1, 1, 1, 64)

/-- The logical tile of block k of instance i of a shape in a site (R19, R84). -/
def blockTile (site shape i k : Nat) : Nat :=
  let (_, _, w, _) := shapeOf shape
  let r := k / w
  let c := if r % 2 = 0 then k % w else w - 1 - k % w
  let row := site / 2 % 2 * 8 + i / (8 / w) * w + r
  let col := site % 2 * 8 + i % (8 / w) * w + c
  site / 4 * 256 + row * 16 + col

/-- The tile that an output leaves from: of a field's output g, the block of level D − 1 that owns it (R529). -/
def Cfg.outTile (c : Cfg) (t o : Nat) : Nat :=
  if c.cls = 0 then
    let s := shapeOf (leAt c.extra 2 1)
    blockTile (leAt c.extra 0 1) (leAt c.extra 2 1) (leAt c.extra 1 1) ((s.1 - 1) * s.2.1 + o)
  else t

/-- A flit of the bounded plane comes to a tile's port on a virtual channel (R247, R253). -/
def Dev.bulkFlit (d : Dev) (t vc : Nat) : Dev := d.modTile t fun x => { x with bulk := fmSet x.bulk vc ((fmGet x.bulk vc).getD 0 + 1) }

/-- A token leaves output o, numbered by its port, a VOID token with zeros (Table 5-3); toward another tile it is a flit on a scheduled
route, and comes to the port of the output's tile (R110, R111, R247, R250). -/
def Dev.sendTok (d : Dev) (t s : Nat) (c : Cfg) (o kind : Nat) (payload : Row) : Dev :=
  match (c.outs[o]?).getD none with
  | none => d
  | some (t', q) =>
    let x := d.slot t s
    let n := (fmGet x.seqs o).getD 0
    let tok : Token := ⟨BitVec.ofNat 3 kind, x.epoch, BitVec.ofNat 12 n, if kind = kVoid then 0 else payload⟩
    let d := d.setSlot t s { x with seqs := fmSet x.seqs o ((n + 1) % 4096) }
    let u := c.outTile t o
    let y := d.queue t' q
    d.setQueue t' q { y with
      flight := y.flight ++ [tok]
      wait := if u = t' then y.wait else y.wait ++ [⟨u, slotKey t s, some o⟩] }

/-- A credit reserved and the token sent. -/
def Dev.putOut (d : Dev) (t s : Nat) (c : Cfg) (o kind : Nat) (payload : Row) : Dev :=
  (d.reserve c o).sendTok t s c o kind payload

/-- The slot has fired in this cycle: an idle stretch is over (R122). -/
def Dev.markFired (d : Dev) (t s : Nat) : Dev :=
  let x := d.slot t s
  d.setSlot t s { x with since := 0, fired := true, idle := 0, stalled := false }

/-- How far slot s comes after slot `last` in rotation by slot index; `last` itself comes last (R109). -/
def turnDist (last s : Nat) : Nat := (s + 31 - last % 32) % 32

/-- No other slot that meets `ready` comes before s in the rotation that starts after `last` (R109). -/
def firstTurn (last s : Nat) (ready : Nat → Bool) : Bool :=
  !(List.range 32).any fun u => decide (turnDist last u < turnDist last s) && ready u

/-- How far tile u comes after tile `last` by logical tile ID; `last` itself comes last (R176). -/
def tileDist (last u : Nat) : Nat := (u + 511 - last % 512) % 512

/-- A bit of a mask set or cleared. -/
def setBit (m k : Nat) (b : Bool) : Nat := if bit m k == b then m else if b then m + 2 ^ k else m - 2 ^ k

/-- A slot changed. -/
def Dev.modSlot (d : Dev) (t s : Nat) (f : Slot → Slot) : Dev := d.setSlot t s (f (d.slot t s))

/-- The cause of a starve class (Table 5-11). -/
def starveCause (k : Nat) : Nat :=
  match k with
  | 1 => 2
  | 2 => 4
  | 3 => 8
  | 4 => 9
  | _ => 0

/-- The idle cause that an empty queue gives. -/
def Dev.starveOf (d : Dev) (t q : Nat) : Nat := starveCause (d.queue t q).starve

/-! ## Arrival -/

/-- The slot of a tile whose unit reads, or whose next configuration would read, a queue; 0xFF: none. -/
def Dev.consumerOf (d : Dev) (t q : Nat) : Nat :=
  let reads (c : Option Cfg) : Bool := (c.map fun c => c.ins.contains (some q)).getD false
  let x (s : Nat) : Slot := d.slot t s
  (((List.range 32).find? fun s => reads (x s).active).orElse fun _ => (List.range 32).find? fun s => reads (x s).shadow).getD 0xFF

/-- A token arrives at a queue (R112, R117, R151). One that a full queue discards is neither checked nor counted by the SEQ that the
queue expects (DESIGN CHOICE: R117 says no more than that it is discarded). A token of a reserved KIND is an ordinary one. -/
def Dev.arrive (d : Dev) (t q : Nat) (k : Token) : Dev :=
  let y := d.queue t q
  let ta := tileAdd t
  if y.depth ≤ y.tokens.length then (d.event E.TIL_DF_Q_OVERFLOW ta).passFault (tileHalf t) 1
  else
    let badKind := decide (5 ≤ k.kind.toNat)
    let gap := k.seq.toNat != y.seq
    let badEpoch := k.epoch != y.epoch
    let isMark := k.kind.toNat == kMark
    let d := if badKind then d.event E.TIL_DF_KIND_FAULT ta else d
    let d := if gap then d.event E.TIL_DF_SEQ_GAP ta else d
    let d := if badEpoch then d.epochFault t (d.consumerOf t q) q (if isMark then 2 else 1) else d
    let mark := isMark && !gap && !badEpoch
    let kind := if badKind || gap || badEpoch then BitVec.ofNat 3 kPoison else k.kind
    d.setQueue t q
      { y with
        tokens := y.tokens ++ [{ k with kind := kind }]
        seq := if mark then 0 else (k.seq.toNat + 1) % 4096
        epoch := if mark then !y.epoch else y.epoch
        markLost := y.markLost || (isMark && !mark) }

/-- The tokens of a queue that have left their source's port, oldest first. -/
def Queue.moving (y : Queue) : List Token := y.flight.take (y.flight.length - y.wait.length)

/-- TOKEN_ARRIVAL: the oldest token in flight that has left its port, or one the network delivers in its stead (R112, R247). -/
def Dev.tokenArrival (d : Dev) (t q : Nat) (k : Option Token) : Dev :=
  let y := d.queue t q
  match k, y.moving with
  | some k, _ => d.arrive t q k
  | none, k :: _ => (d.setQueue t q { y with flight := y.flight.drop 1 }).arrive t q k
  | none, [] => d

/-- CREDIT_RETURN: a freed credit becomes usable at the producer (R116). -/
def Dev.creditReturn (d : Dev) (t q : Nat) : Dev :=
  let y := d.queue t q
  if 0 < y.freed then d.setQueue t q { y with freed := y.freed - 1, credits := y.credits + 1 } else d

/-! ## Steering -/

/-- What a control head makes a steering unit do: SEL, KEEP, the data tokens it covers or copies it asks for, and the kind
to write in place of the data token's (R124, R125); `fault`: STEER_FAULT. -/
structure Steer where
  sel : Nat
  keep : Bool
  n : Nat
  kind : Option Nat
  fault : Bool
  deriving DecidableEq, Repr

/-- A control word of Table 5-6 is valid at a unit: `sels` is the bound of SEL (1 where it must be 0). -/
def validWord (cls sels : Nat) (r : Row) : Bool :=
  let w := r.toNat
  let keepBad := cls != 10 && bit w 2
  let selBad := decide (sels ≤ bits w 0 2)
  !(selBad || keepBad || bits w 3 4 != 0 || bits w 8 24 != 0 || bits w 64 448 != 0 || (cls == 8 && !bit w 7))

/-- Table 5-7 for a control head; `data` is the kind of the data token, where there is one. -/
def steer (cls sels : Nat) (k : Token) (data : Nat) : Steer :=
  let w := k.payload.toNat
  if k.kind.toNat = kPoison then ⟨0, true, 1, some kPoison, false⟩
  else if k.kind.toNat = kVoid then ⟨0, true, 1, some (if data = kPoison then kPoison else kVoid), false⟩
  else if k.kind.toNat = kCtrl && validWord cls sels k.payload then
    ⟨bits w 0 2, bit w 2, if bit w 7 then bits w 32 32 else 1, none, false⟩
  else ⟨0, true, 1, some kPoison, true⟩

/-- STEER_FAULT, where the control head was not valid and its default action is taken. -/
def Dev.steerFault (d : Dev) (t : Nat) (b : Bool) : Dev := if b then d.event E.TIL_DF_STEER_FAULT (tileAdd t) else d

/-- A control word covers one more token: what is left, and whether the firing finishes the word (R124). -/
def coverLeft (x : Slot) (n : Nat) : Nat × Bool :=
  let left := if x.left = 0 then n else x.left
  (left - 1, left ≤ 1)

/-- A covered firing is booked: the remaining count, and the control head leaves with the last one (R124). -/
def Dev.cover (d : Dev) (t s : Nat) (c : Cfg) (ctl : Nat) (lf : Nat × Bool) : Dev :=
  let d := d.modSlot t s fun x => { x with left := lf.1 }
  if lf.2 then d.popIn t c ctl else d

/-- A word with REP_EN set and REPEAT 0 leaves in one firing that moves no data token (R124). -/
def Dev.emptyWord (d : Dev) (t s : Nat) (c : Cfg) (ctl : Nat) : Dev :=
  (d.popIn t c ctl).modSlot t s fun x => { x with since := 0, fired := true, idle := 0, stalled := false, left := 0 }

/-- SWITCH_FIRE (R123). -/
def Dev.switchFire (d : Dev) (t s : Nat) : Dev :=
  match d.canFire t s [5] with
  | none => d
  | some (x, c) =>
    match d.ready t x c 1 with
    | none => d
    | some k =>
      let w := steer 5 c.outs.length k ((d.ready t x c 0).map (·.kind.toNat) |>.getD 0)
      if w.n = 0 then d.emptyWord t s c 1 else
      match d.ready t x c 0 with
      | none => d
      | some v =>
        if d.credit c w.sel then
          ((((d.popIn t c 0).cover t s c 1 (coverLeft x w.n)).putOut t s c w.sel (w.kind.getD v.kind.toNat) v.payload).markFired
            t s).steerFault t w.fault
        else d

/-- MERGE_CONTROLLED_FIRE (R123). -/
def Dev.mergeFire (d : Dev) (t s : Nat) : Dev :=
  match d.canFire t s [6] with
  | none => d
  | some (x, c) =>
    let n := c.ins.length - 1
    match d.ready t x c n with
    | none => d
    | some k =>
      let w := steer 6 n k 0
      if w.n = 0 then d.emptyWord t s c n else
      match d.ready t x c w.sel with
      | none => d
      | some v =>
        let w := steer 6 n k v.kind.toNat
        if d.credit c 0 then
          ((((d.popIn t c w.sel).cover t s c n (coverLeft x w.n)).putOut t s c 0 (w.kind.getD v.kind.toNat) v.payload).markFired
            t s).steerFault t w.fault
        else d

/-- The input whose turn it is: closed inputs are passed over (R123, R152). -/
def Slot.turnIn (x : Slot) (n : Nat) : Nat → Option Nat
  | 0 => none
  | k + 1 =>
    let i := (x.turn + (n - (k + 1))) % max 1 n
    if x.closed.contains i then x.turnIn n k else some i

/-- MERGE_ROTATION_FIRE (R123, R152). -/
def Dev.rotateFire (d : Dev) (t s : Nat) : Dev :=
  match d.canFire t s [7] with
  | none => d
  | some (x, c) =>
    let n := c.ins.length
    match x.turnIn n n with
    | none => d
    | some i =>
      match d.ready t x c i with
      | none => d
      | some v =>
        if d.credit c 0 then
          (((d.popIn t c i).putOut t s c 0 v.kind.toNat v.payload).markFired t s).modSlot t s fun x =>
            { x with turn := (i + 1) % max 1 n }
        else d

/-- REPEAT_CONTROLLED_FIRE (R124). -/
def Dev.repeatFire (d : Dev) (t s : Nat) : Dev :=
  match d.canFire t s [8] with
  | none => d
  | some (x, c) =>
    match d.ready t x c 0, d.ready t x c 1 with
    | some v, some k =>
      let w := steer 8 1 k v.kind.toNat
      if w.n = 0 then (d.popIn t c 0).emptyWord t s c 1
      else if d.credit c 0 then
        let lf := coverLeft x w.n
        let d := d.cover t s c 1 lf
        let d := if lf.2 then d.popIn t c 0 else d
        ((d.putOut t s c 0 (w.kind.getD v.kind.toNat) v.payload).markFired t s).steerFault t w.fault
      else d
    | _, _ => d

/-- REPEAT_STATIC_FIRE (R124): PARAM copies of a data token; with PARAM 0 the token is taken and nothing written. -/
def Dev.repeatStaticFire (d : Dev) (t s : Nat) : Dev :=
  match d.canFire t s [9] with
  | none => d
  | some (x, c) =>
    match d.ready t x c 0 with
    | none => d
    | some v =>
      if c.param = 0 then (d.popIn t c 0).markFired t s
      else if d.credit c 0 then
        let lf := coverLeft x c.param
        let d := d.modSlot t s fun x => { x with left := lf.1 }
        let d := if lf.2 then d.popIn t c 0 else d
        (d.putOut t s c 0 v.kind.toNat v.payload).markFired t s
      else d

/-- A drop unit discards a data token; a POISON token is counted (R126). -/
def Dev.discard (d : Dev) (t : Nat) (v : Token) : Dev :=
  if v.kind.toNat = kPoison then (d.count F.TIL_POISON_DROP_COUNT 1 (tileAdd t)).event E.TIL_DF_POISON_DROPPED (tileAdd t)
  else d

/-- DROP_CONTROLLED_FIRE (R123). -/
def Dev.dropFire (d : Dev) (t s : Nat) : Dev :=
  match d.canFire t s [10] with
  | none => d
  | some (x, c) =>
    match d.ready t x c 1 with
    | none => d
    | some k =>
      let w := steer 10 1 k 0
      if w.n = 0 then d.emptyWord t s c 1 else
      match d.ready t x c 0 with
      | none => d
      | some v =>
        let w := steer 10 1 k v.kind.toNat
        if !w.keep then (((d.popIn t c 0).cover t s c 1 (coverLeft x w.n)).discard t v).markFired t s
        else if d.credit c 0 then
          ((((d.popIn t c 0).cover t s c 1 (coverLeft x w.n)).putOut t s c 0 (w.kind.getD v.kind.toNat) v.payload).markFired
            t s).steerFault t w.fault
        else d

/-- DROP_STATIC_FIRE (R126). -/
def Dev.dropStaticFire (d : Dev) (t s : Nat) : Dev :=
  match d.canFire t s [11] with
  | none => d
  | some (x, c) =>
    match d.ready t x c 0 with
    | none => d
    | some v =>
      if bit c.param v.kind.toNat then ((d.popIn t c 0).discard t v).markFired t s
      else if d.credit c 0 then ((d.popIn t c 0).putOut t s c 0 v.kind.toNat v.payload).markFired t s
      else d

/-- FORK_FIRE (R127). -/
def Dev.forkFire (d : Dev) (t s : Nat) : Dev :=
  match d.canFire t s [12] with
  | none => d
  | some (x, c) =>
    match d.ready t x c 0 with
    | none => d
    | some v =>
      let os := List.range c.outs.length
      if os.all (d.credit c) then
        (os.foldl (fun d o => d.putOut t s c o v.kind.toNat v.payload) (d.popIn t c 0)).markFired t s
      else d

/-- STALL_LONG: once for an unbroken idle stretch of STALL_LIMIT ticks, cycles of cause preempt left out (R122). -/
def Dev.stallLong (d : Dev) (t s : Nat) : Dev :=
  let x := d.slot t s
  let l := d.fget F.TIL_DF_CTRL_STALL_LIMIT (tileAdd t)
  if l != 0 && x.active.isSome && !x.stalled && decide (l * d.cyclesPerTick ≤ x.idle) then
    (d.event E.TIL_DF_STALL_LONG (tileAdd t)).setSlot t s { x with stalled := true }
  else d

/-- The counters that CNT_CLEAR, a load and a winnow clear in a tile (R137, R182, R217, R243, R266). -/
def tileCounters : List (Fld × List Nat) :=
  [(F.TIL_SLOT_MISS_COUNT, [0]), (F.TIL_POISON_DROP_COUNT, [0]), (F.TIL_IDLE_COUNT, (List.range 11).map (8 * ·)),
   (F.TIL_UNIT_CNT_COUNT, (List.range 512).map (8 * ·)),
   (F.TIL_SE_ROWS_COUNT, (List.range 6).map (32 * ·)), (F.TIL_SE_TILES_COMPUTED, (List.range 6).map (32 * ·)),
   (F.TIL_SE_TILES_SKIPPED, (List.range 6).map (32 * ·)), (F.TIL_SE_VOID_COUNT, (List.range 6).map (32 * ·)),
   (F.TIL_TILL_OPS_COUNT, [0]), (F.TIL_VX_ISSUED_COUNT, [0]), (F.TIL_VX_GROUP_CYC_COUNT, [0]),
   (F.TIL_CC_INSTR_COUNT, [0]), (F.TIL_NI_TX_SCHED, [0]), (F.TIL_NI_TX_BOUNDED, [0]), (F.TIL_NI_PORT_WAIT_COUNT, [0])]

/-- The event-counter registers of a tile. -/
def tileEvents : List Ev := allEvents.filter fun e => 0x1000000 ≤ e.bit.off && decide (e.bit.off < 0x1010000)

/-- A dataflow counter that can change within a core cycle, by its offset in the tile's block: TIL_DF_EVCNT, TIL_SLOT_MISS,
TIL_POISON_DROP. The others move only as a cycle ends. -/
def livesInCycle (o : Nat) : Bool := o == 0x4010 || o == 0x4020 || o == 0x4028

/-- The bit address lies in one of those registers of a tile. -/
def cycleKey (k : Nat) : Bool :=
  decide (0x1000000 ≤ k / 8) && decide (k / 8 < 0x3000000) && livesInCycle (k / 8 % 0x10000 / 8 * 8)

/-- The end of a core cycle: reads of the next one see the counters as they now stand (R136). -/
def Dev.latchCounters (d : Dev) : Dev := { d with tally := { d.tally with counters := d.regs.filter fun p => cycleKey p.1 } }

/-- What a dataflow counter's field reads as: its value at the end of the previous core cycle (R136). -/
def Dev.latched (d : Dev) (f : Fld) (add : Nat) : Nat := (fmGet d.tally.counters (f.key add)).getD f.rst

/-- A tile's counters return to zero (R137). -/
def Dev.clearCounters (d : Dev) (t : Nat) : Dev :=
  let d := tileCounters.foldl (fun d p => p.2.foldl (fun d o => d.fset p.1 0 (tileAdd t + o)) d) d
  tileEvents.foldl (fun d e => d.fset e.cnt 0 (tileAdd t)) d

/-- What a dataflow counter has counted in this core cycle. -/
def Dev.thisCycle (d : Dev) (f : Fld) (add : Nat) : Nat := d.fget f add - d.latched f add

/-- The counts of this core cycle of a tile's dataflow counters stand after a clear (R137); `d` is the device before it. -/
def Dev.recount (e d : Dev) (t : Nat) : Dev :=
  let a := tileAdd t
  let e := [F.TIL_SLOT_MISS_COUNT, F.TIL_POISON_DROP_COUNT].foldl (fun (e : Dev) f => e.fset f (d.thisCycle f a) a) e
  tileEvents.foldl (fun e v => if v.bit.off = F.TIL_DF_EVENT_SEQ_GAP.off then e.fset v.cnt (d.thisCycle v.cnt a) a else e) e

/-- CNT_CLEAR: the counters clear, and the bit clears itself (R137); what this core cycle has counted stands after the clear, and so do
events that come with it, `hw` by bit of TIL_DF_EVENT. -/
def Dev.cntClear (d : Dev) (t hw : Nat) : Dev :=
  let d := ((d.clearCounters t).recount d t).fset F.TIL_DF_CTRL_CNT_CLEAR 0 (tileAdd t)
  tileEvents.foldl (fun d e => if e.bit.off = F.TIL_DF_EVENT_SEQ_GAP.off && bit hw e.bit.lo then d.event e (tileAdd t) else d) d

/-! ## Messages of the control network (R256) -/

/-- Message kinds; 7 to 255 are reserved. -/
inductive CtlKind where
  | configuration | tileCommand | tillRequest | tillReply | memRequest | memReply | microcode
  deriving DecidableEq, Repr

/-- The kind a message's header holds. -/
def ctlKind (head : List Byte) : Option CtlKind :=
  match leAt head 2 1 with
  | 0 => some .configuration | 1 => some .tileCommand | 2 => some .tillRequest | 3 => some .tillReply
  | 4 => some .memRequest | 5 => some .memReply | 6 => some .microcode
  | _ => none

/-- The header of a configuration message: destination, kind, slot, configuration number with the target epoch, index, count. -/
def cfgHead (t s n : Nat) (epoch : Bool) (index count : Nat) : List Byte :=
  leBytes 2 t ++ leBytes 1 0 ++ leBytes 1 s ++ leBytes 1 (n % 16 + if epoch then 16 else 0) ++ leBytes 1 index ++ leBytes 1 count ++ [0#8]

/-- The fields of a configuration message. -/
def CfgMsg.tile (m : CfgMsg) : Nat := leAt m.head 0 2
def CfgMsg.slot (m : CfgMsg) : Nat := leAt m.head 3 1
def CfgMsg.num (m : CfgMsg) : Nat := bits (leAt m.head 4 1) 0 4
def CfgMsg.epoch (m : CfgMsg) : Bool := bit (leAt m.head 4 1) 4
def CfgMsg.index (m : CfgMsg) : Nat := leAt m.head 5 1
def CfgMsg.count (m : CfgMsg) : Nat := leAt m.head 6 1

/-- The next place in the order in which messages are sent. -/
def Dev.sent (d : Dev) : Dev := { d with net := { d.net with next := d.net.next + 1 } }

/-- Two addresses lie in one slice. -/
def oneSlice (a b : Nat) : Bool := match place a, place b with
  | .scratch t _, .scratch u _ => t == u
  | _, _ => false

/-- A request that was sent before `seq` by a tile to the slice of an address is still on its way: no message overtakes another. -/
def Dev.requestAhead (d : Dev) (t a seq : Nat) : Bool :=
  (d.net.mem.any fun r => r.tile == t && decide (r.seq < seq) && oneSlice r.addr a) ||
    d.net.till.any fun r => r.tile == t && decide (r.seq < seq) && r.reply.isNone && oneSlice r.addr a

/-- A reply that was sent before `seq` to a tile from the slice of an address is still on its way. -/
def Dev.replyAhead (d : Dev) (t a seq : Nat) : Bool :=
  (d.net.memBack.any fun r => r.tile == t && decide (r.seq < seq) && oneSlice r.addr a) ||
    d.net.till.any fun r => r.tile == t && decide (r.seq < seq) && r.reply.isSome && oneSlice r.addr a

/-! ## Extents (R167, R183) -/

/-- The extents in a slot of TIL_EXT as a sample of this core cycle takes them: from before any write of the cycle (R167, R183). -/
def Dev.extAt (d : Dev) (t s : Nat) : Nat × Nat :=
  (fmGet (d.tile t).extOld s).getD (d.fget F.TIL_EXT_EXT_M (tileAdd t + 8 * s), d.fget F.TIL_EXT_EXT_N (tileAdd t + 8 * s))

/-- A slot of TIL_EXT is about to be written, by register space where `reg`: what samples of this core cycle take is kept (R183). -/
def Dev.keepExt (d : Dev) (t s : Nat) (reg : Bool) : Dev :=
  d.modTile t fun x => { x with
    extOld := fmSet x.extOld s (d.extAt t s)
    extReg := if reg then s :: x.extReg else x.extReg }

end Sys2Proof.Machine
end

