-- ==== Sys2Proof/Machine/Registers.lean ====
section
/-! DEFINITION. Software access to registers: finding the register of an offset, who may write it, and what a write does by
access type (R4–R10, R219, R341, R367, R419, R429, R454, R459, R497). -/

namespace Sys2Proof.Machine

/-- The distance of an offset beyond the instance with every index zero, when the offset lies on the grid of the strides
(largest first). -/
def dimsHit : List (Nat × Nat) → Nat → Bool
  | [], o => o == 0
  | (n, st) :: ds, o => decide (o / st < n) && dimsHit ds (o % st)

/-- The register at an 8-byte-aligned register-space offset, with its instance's distance beyond the first. -/
def regAt (off : Nat) : Option (RegDef × Nat) :=
  (regDefs.find? fun r => decide (r.off ≤ off) && dimsHit r.dims (off - r.off)).map fun r => (r, off - r.off)

/-- The half that owns the resource an offset belongs to, where Table 1-2 or the tile's ID gives one. -/
def regHalf (off : Nat) : Option HalfId :=
  if 0x1000000 ≤ off && off < 0x3000000 then some (tileHalf ((off - 0x1000000) / 0x10000))
  else if 0x4000000 ≤ off && off < 0x4080000 then some (decide (4 ≤ (off - 0x4000000) / 0x10000))
  else if 0x5000000 ≤ off && off < 0x5800000 then some (stackHalf ((off - 0x5000000) / 0x100000))
  else if 0x7000000 ≤ off && off < 0x70F0000 then some (portHalf ((off - 0x7000000) / 0x10000))
  else none

/-- The scope named in FED_CTRL.SCOPE (R488). DESIGN CHOICE: the reserved value 3, a write of which is stored like any other, acts as 0,
the whole device. -/
def Dev.feedScope (d : Dev) : Scope := scopeOf (d.fget F.FED_CTRL_SCOPE)

/-- A register only the operator writes: DEV_FABRIC, LNK_CTRL, LNK_RATE and LNK_EXPECT_SERIAL, FAB_CTRL and the FAB
windows, FED_CTRL and FED_NS, MBX_ALERT_MASK and MBX_TRACE_CTRL, STK_SCRUB, LGR_CTRL (R341, R367, R407, R422, R429,
R459, R484, R497). -/
def operatorOnly (off : Nat) : Bool :=
  off == 0x18 ||
  (0x7000000 ≤ off && off < 0x70F0000 && (off % 0x10000 == 0x10 || off % 0x10000 == 0x38 || off % 0x10000 == 0x40)) ||
  off == 0x6000010 || (0x6000100 ≤ off && off < 0x6000180) ||
  off == 0x8000008 || (0x8000100 ≤ off && off < 0x8000140) ||
  off == 0xA000020 || off == 0xA000058 || (0x5000000 ≤ off && off < 0x5800000 && off % 0x100000 == 0x28) || off == 0x200120

/-- The half whose ledger and step registers a reader or writer is shown (R407). -/
def Dev.readerHalf (d : Dev) (w : Who) : HalfId :=
  match w with
  | .tenant .east => true
  | .tenant _ => false
  | _ => d.flag F.LGR_CTRL_HALF

/-- The registers each half's controller has its own set of in split tenancy: DEV_STEP_ and FAB_NF. -/
def bankedOff (off : Nat) : Bool :=
  (decide (0x1000 ≤ off) && decide (off < 0x1200)) || (decide (0x6000400 ≤ off) && decide (off < 0x6000420))

/-- The distance of the register set an accessor sees beyond the first. -/
def Dev.bank (d : Dev) (w : Who) (off : Nat) : Nat := if d.split && bankedOff off && d.readerHalf w then 2 ^ 32 else 0

/-- Whether a writer may write the register at an offset. A core writes its own tile's TIL_ block (R212); a claim session
writes SEC_STAGE (Table 18-2); a tenant writes no register of R454's list, no register that only the operator writes, no
register of a half it does not own (R421), and FED_ registers only as the tenant of FED_CTRL.SCOPE (R497). -/
def Dev.mayWrite (d : Dev) (w : Who) (off : Nat) : Bool :=
  match w with
  | .uhlea => true
  | .operator => true
  | .claim => decide (0x9004000 ≤ off) && decide (off < 0x900C000)
  | .core t => decide (0x1000000 + tileAdd t.toNat ≤ off) && decide (off < 0x1000000 + tileAdd t.toNat + 0x10000)
  | .tenant s =>
    !operatorOnly off &&
    !(off == 0x9000018 || (0x9000080 ≤ off && off < 0x90000C0) || (0x9000100 ≤ off && off < 0x9000160) ||
      (0x9004000 ≤ off && off < 0x900C000)) &&
    (match regHalf off with
     | some h => !d.split || scopeHas s h
     | none => true) &&
    (!(0x8000000 ≤ off && off < 0x9000000) || s == d.feedScope) &&
    (!(0x9000300 ≤ off && off < 0x9000340) || !d.split || scopeHas s (decide (0x9000320 ≤ off)))

/-- The fields whose write is a command of its own: RELOCK and SCHED_OFF, CNT_CLEAR, TIL_WIN_CMD and TIL_WIN_REL,
QUARANTINE, RELEASE, READMIT, LGR_SEL, the unlock requests, GO and ARM bits, KICK, DEV_FABRIC.ID. -/
def rowFields : List Fld :=
  [F.TAL_CTRL_RELOCK, F.TAL_CTRL_SCHED_OFF, F.TIL_DF_CTRL_CNT_CLEAR, F.TIL_WIN_CMD_SRC_INGOT, F.TIL_WIN_CMD_HANDLE,
   F.TIL_WIN_CMD_INGOTS, F.TIL_WIN_CMD_USES, F.TIL_WIN_REL_HANDLE, F.TIL_WIN_REL_COUNT, F.LNK_CTRL_QUARANTINE,
   F.LNK_CTRL_RELEASE, F.LNK_CTRL_READMIT, F.LGR_SEL_SEQ, F.SEC_UNLOCK_CTRL_PROF_REQ, F.SEC_UNLOCK_CTRL_DEBUG_REQ,
   F.SEC_UNLOCK_CTRL_NONCE_REQ, F.SEC_UNLOCK_CTRL_LOCK, F.SEC_BND_CTRL_GO, F.DEV_WDOG_KICK, F.DEV_FABRIC_ID,
   F.FED_FEED_CTRL_ARM, F.FED_CKPT_CTRL_GO]

/-- The operator values the settings record keeps (R484). -/
def isSetting (off : Nat) : Bool :=
  (0x5000000 ≤ off && off < 0x5800000 && off % 0x100000 == 0x28) ||
  (0x7000000 ≤ off && off < 0x70F0000 && (off % 0x10000 == 0x10 || off % 0x10000 == 0x38 || off % 0x10000 == 0x40)) ||
  off == 0x6000010 || off == 0xA000020

/-- A software write of one field with the value `x`, by its access type (R7). `hw` holds the bits hardware sets in the same
cycle: such a W1C bit stays set (R8); the counter beside it counts the set where the event is raised (R9). -/
def Dev.writeField (d : Dev) (f : Fld) (add x hw : Nat) : Dev :=
  match f.acc with
  | .ro | .rc => d
  | .rw | .wo => d.fset f x add
  | .w1c =>
    let old := d.fget f add
    d.fset f (old &&& (2 ^ f.w - 1 - (x &&& (2 ^ f.w - 1 - hw)))) add
  | .w1s => d.fset f (d.fget f add ||| x) add
  | .rwl => if d.flag F.SEC_STATUS_DEBUG_UNLOCKED then d.fset f x add else d

/-- The event whose bit field is `f`. -/
def evOf (f : Fld) : Option Ev := allEvents.find? fun e => e.bit == f

/-- The hardware sets that fall in the cycle of an access: `hw` holds the bits of the register that hardware sets, each
raised with its counter (R8, R9). -/
def Dev.hwSets (d : Dev) (off hw : Nat) (bank : Nat := 0) : Dev :=
  match regAt off with
  | none => d
  | some (r, add) =>
    r.fields.foldl (fun d f =>
      match evOf f with
      | some e => if bit hw f.lo then d.event e (add + bank) else d
      | none => d) d

/-- Profiling is open: by its own unlock or by full debug (Table 18-3). -/
def Dev.profOpen (d : Dev) : Bool := d.flag F.SEC_STATUS_PROF_UNLOCKED || d.flag F.SEC_STATUS_DEBUG_UNLOCKED

/-- A write of one field of a register, unless the field has a command of its own or is the trace enable while profiling is
locked (R422). -/
def Dev.writeOne (d : Dev) (add v hw : Nat) (f : Fld) : Dev :=
  if rowFields.contains f then d
  else if f == F.MBX_TRACE_CTRL_ENABLE && !d.profOpen then d
  else d.writeField f add (bits v f.lo f.w) (bits hw f.lo f.w)

/-- The settings record is written: in the running Uhlea's FORMAT once it is confirmed (R484). -/
def Dev.settingsWritten (d : Dev) : Dev :=
  { d with boot := { d.boot with settingsFormat := if d.flag F.DEV_STATE_TRIAL then d.boot.settingsFormat else d.boot.uhleaFormat } }

/-- The settings record takes the operator values of a register (R484). -/
def Dev.keepSettings (d : Dev) (fs : List Fld) (add : Nat) : Dev :=
  let keep := fs.filter fun f => f.acc == .rw
  let m := keep.foldl (fun m f => regPut m f add (d.fget f add)) d.boot.settings
  ({ d with boot := { d.boot with settings := m } }).settingsWritten

/-- A write of an extent by register space: what samples of this core cycle take is kept (R183). -/
def Dev.noteExt (d : Dev) (off : Nat) : Dev :=
  let o := (off - 0x1000000) % 0x10000
  if 0x1000000 ≤ off && off < 0x3000000 && 0x2200 ≤ o && o < 0x2400 then
    d.keepExt ((off - 0x1000000) / 0x10000) ((o - 0x2200) / 8) true
  else d

/-- A software write of a whole register: every field that has no command of its own takes its part of the word (R7). The
low 12 bits of FED_WIN_BASE read zero, and the operator values of R484 go to the settings record too. -/
def Dev.plainWrite (d : Dev) (off : Nat) (v hw : Nat) (bank : Nat := 0) : Dev :=
  match regAt off with
  | none => d
  | some (r, add) =>
    let d := r.fields.foldl (fun d f => d.writeOne (add + bank) v hw f) (d.noteExt off)
    let d := if off = 0x8000020 then d.fset F.FED_WIN_BASE_BASE (v / 4096 * 4096) else d
    if isSetting off then d.keepSettings r.fields add else d

/-- A misaligned or narrow access touches no register; it is counted (R5). -/
def Dev.accessError (d : Dev) : Dev := d.count F.DEV_REG_ERR_COUNT

/-- A software write as REGISTER_WRITE makes it: an access that is not 64 bits at an 8-byte-aligned offset is discarded and
counted (R5); a write the writer may not make is discarded (R419). -/
def Dev.registerWrite (d : Dev) (w : Who) (off width v hw : Nat) : Dev :=
  if width != 64 || off % 8 != 0 then d.accessError
  else
    let k := d.bank w off
    let d := d.hwSets off hw k
    if d.mayWrite w off then d.plainWrite off v hw k else d

end Sys2Proof.Machine
end

