-- ==== Sys2Proof/Machine/Frames.lean ====
section
/-! DEFINITION. Frames of a link port: what goes out, the replay buffer it enters, and the batch it joins on a sealed link (R322, R326,
R338, R339). -/

namespace Sys2Proof.Machine

/-- The port p. -/
def Dev.port (d : Dev) (p : Nat) : Port := (fmGet d.ports p).getD Port.init

/-- A port changed. -/
def Dev.modPort (d : Dev) (p : Nat) (f : Port → Port) : Dev := { d with ports := fmSet d.ports p (f (d.port p)) }

/-- A frame without fields. -/
def TxFrame.blank (kind : Nat) : TxFrame :=
  { seq := 0, kind, sched := false, last := true, vc := 0, cls := 0, slot := 0, xfer := 0, poison := 0, void := 0, units := [], sent := 0 }

/-- Kinds that carry a link sequence number (Table 13-3). -/
def sequenced (k : Nat) : Bool := k == 1 || k == 3 || k == 4 || k == 5 || k == 7 || k == 8 || k == 9

/-- Kinds that belong to no batch of a sealed link: IDLE, DELAY and SEAL (R338). -/
def unbatched (k : Nat) : Bool := k == 0 || k == 6 || k == 10

/-- During a compute reset or a winnow a port sends STATE, STAMP, CREDIT and REFUSE frames, the SEAL frames of their batches, and nothing
else (R339). -/
def Dev.maySend (d : Dev) (p kind : Nat) : Bool :=
  d.half (portHalf p) != 6 || kind == 2 || kind == 3 || kind == 7 || kind == 8 || kind == 10

/-- A frame on the lanes of a port: its header and its units (Table 13-2). -/
def Dev.putFrame (d : Dev) (p : Nat) (f : TxFrame) : Dev :=
  d.emit (.frame p f.kind
    [if f.sched then 1 else 0, if f.last then 1 else 0, f.vc, f.units.length, f.slot, (d.port p).ownId, f.seq, f.xfer,
      f.poison, f.void] f.units)

/-- The open batch of a sealed link closes, and its SEAL frame goes out: the tag, whose value no rule gives and which is free, the batch
number, the key epoch, the frame count (R338). -/
def Dev.closeBatch (d : Dev) (p : Nat) : Dev :=
  let x := d.port p
  let tag := d.fresh 128
  let u : Row := BitVec.ofNat 512 (tag.1 + 2 ^ 128 * (x.txBatch % 2 ^ 64) + 2 ^ 192 * (x.keyEpoch % 256) + 2 ^ 200 * (x.txInBatch % 256))
  (tag.2.putFrame p { TxFrame.blank 10 with units := [u] }).modPort p fun x => { x with txBatch := x.txBatch + 1, txInBatch := 0 }

/-- A frame joins the open batch, which closes behind its third frame and behind a STAMP (R338). -/
def Dev.joinBatch (d : Dev) (p kind : Nat) : Dev :=
  let d := d.modPort p fun x => { x with txInBatch := x.txInBatch + 1 }
  if kind = 3 || 3 ≤ (d.port p).txInBatch then d.closeBatch p else d

/-- A frame goes out, where it may: its units are counted, and on a sealed link it joins a batch. -/
def Dev.emitFrame (d : Dev) (p : Nat) (f : TxFrame) : Dev :=
  if !d.maySend p f.kind then d
  else
    let d := (if f.kind = 1 then d.count F.LNK_TX_UNITS_COUNT f.units.length (portAdd p) else d).putFrame p f
    if d.flag F.LNK_STATUS_SEALED (portAdd p) && !unbatched f.kind then d.joinBatch p f.kind else d

/-- A sequenced frame takes the next SEQ, enters the replay buffer and goes out, behind a replay that waits for the end of a guard
(R322, R326). -/
def Dev.sendFrame (d : Dev) (p : Nat) (f : TxFrame) : Dev :=
  let x := d.port p
  let f := { f with seq := x.txSeq, sent := 0 }
  let d := d.modPort p fun x => { x with txSeq := (x.txSeq + 1) % 65536, replay := x.replay ++ [f] }
  if x.replayAt.isSome then d else d.emitFrame p f

/-- A control frame of one unit (Table 13-3). -/
def Dev.sendUnit (d : Dev) (p kind : Nat) (u : Row) : Dev :=
  if sequenced kind then d.sendFrame p { TxFrame.blank kind with units := [u] }
  else d.emitFrame p { TxFrame.blank kind with units := [u] }

/-- A control frame whose unit holds values of 64 bits each. DESIGN CHOICE: the spec gives no layout for the units of CREDIT, DELAY, STATE
and REFUSE frames. -/
def Dev.sendCtl (d : Dev) (p kind : Nat) (vals : List Nat) : Dev :=
  d.sendUnit p kind (BitVec.ofNat 512 (vals.zipIdx.foldl (fun n v => n + v.1 % 2 ^ 64 * 2 ^ (64 * v.2)) 0))

/-- A STAMP frame: bytes 7 to 0 the count, byte 8 the depth, byte 9 the lock state (Table 13-3). -/
def Dev.sendStamp (d : Dev) (p count depth lock : Nat) : Dev :=
  d.sendUnit p 3 (BitVec.ofNat 512 (count % 2 ^ 64 + 2 ^ 64 * (depth % 256) + 2 ^ 72 * (lock % 256)))

end Sys2Proof.Machine
end

