-- ==== Sys2Proof/Machine/Tally.lean ====
section
/-! DEFINITION. The tally: reference, count, lock states, parents, stamps, scheduled class (R31–R54). -/

namespace Sys2Proof.Machine

/-- TAL_STATUS.STATE: 0 FREE_RUN, 1 UNLOCKED, 2 ACQUIRE, 3 LOCKED, 4 HOLDOVER (Table 2-2). -/
def Dev.lockState (d : Dev) : Nat := d.fget F.TAL_STATUS_STATE

/-- The device is the tally master (R35). -/
def Dev.isMaster (d : Dev) : Bool := d.flag F.TAL_STATUS_MASTER

/-- TAL_STATUS.MASTER by R35: fabric ID 0 and TALLY_MASTER sampled high. The master has no parent and DEPTH 0; a device that is no
longer the master has neither (Table 2-9). -/
def Dev.refreshMaster (d : Dev) : Dev :=
  let m := d.flag F.DEV_FABRIC_VALID && d.fget F.DEV_FABRIC_ID == 0 && d.flag F.DEV_STRAPS_TALLY_MASTER
  let d' := d.fsetB F.TAL_STATUS_MASTER m
  if m then (d'.fset F.TAL_STATUS_PARENT 0xF).fset F.TAL_STATUS_DEPTH 0
  else if d.isMaster then d'.fset F.TAL_STATUS_DEPTH 0xFF
  else d'

/-- TALLY_OUT_P/N (R32): `none` while it forwards a buffered copy of the reference; P low and N high while the reference is absent. -/
def Dev.tallyOut (d : Dev) : Option (Bool × Bool) := if d.flag F.TAL_STATUS_REF_PRESENT then none else some (false, true)

/-- TAL_STATUS.SCHED_EN: the scheduled class is enabled in LOCKED and HOLDOVER (Table 2-2), unless an offset has disabled it
(R42) or SCHED_OFF forces it off. -/
def Dev.refreshSched (d : Dev) : Dev :=
  d.fsetB F.TAL_STATUS_SCHED_EN
    ((d.lockState == 3 || d.lockState == 4) && !d.tally.boundOff && !d.flag F.TAL_CTRL_SCHED_OFF)

/-- The scheduled class is enabled. -/
def Dev.schedEn (d : Dev) : Bool := d.flag F.TAL_STATUS_SCHED_EN

/-- A port is admitted: LNK_STATUS.LINK reads UP, or QUARANTINED, which keeps the admission and the stamps (R336). -/
def Dev.linkUp (d : Dev) (p : Nat) : Bool :=
  d.fget F.LNK_STATUS_LINK (portAdd p) == 3 || d.fget F.LNK_STATUS_LINK (portAdd p) == 4

/-- The position within the tick and the slot it lies in (R49, R54). -/
def Dev.setCycle (d : Dev) (c : Nat) : Dev :=
  (d.fset F.TAL_PHASE_CYCLE c).fset F.TAL_PHASE_SLOT (min 3 (c / (d.cyclesPerTick / 4)))

/-- The current core cycle lies in the guard, the last 32 cycles of a slot (R49). -/
def Dev.inGuard (d : Dev) : Bool :=
  decide (d.cyclesPerTick / 4 ≤ d.fget F.TAL_PHASE_CYCLE % (d.cyclesPerTick / 4) + 32)

/-- The lock state changes, with what hangs on it: the scheduled class, a count that is held for a parent (R39), and pending
commands when the count stops being fabric time (R48). -/
def Dev.setLock (d : Dev) (st : Nat) : Dev :=
  let old := d.lockState
  let d := (d.fset F.TAL_STATUS_STATE st).refreshSched
  let d := if st = 3 || st = 4 then d else { d with tally := { d.tally with hold := 0 } }
  if (2 ≤ old && old ≤ 4) && (st == 0 || st == 1) then d.failPending fun _ => true else d

/-- No parent: PARENT reads 0xF, DEPTH 0xFF, or 0 at the master (Table 2-9). -/
def Dev.noParent (d : Dev) : Dev :=
  (d.fset F.TAL_STATUS_PARENT 0xF).fset F.TAL_STATUS_DEPTH (if d.isMaster then 0 else 0xFF)

/-- The port of the LOCKED admitted neighbour of smallest depth, the lowest port index first (R37). DESIGN CHOICE: the spec does not
say how long the last stamp of a neighbour that has fallen silent, and is not the parent, counts it as LOCKED; it does so here until
its port leaves the admitted states. -/
def Dev.bestParent (d : Dev) : Option (Nat × Nat) :=
  d.tally.stamps.foldl (fun best p =>
    if d.linkUp p.1 && p.2.lock == 3 then
      match best with
      | none => some (p.1, p.2.depth)
      | some b => if p.2.depth < b.2 then some (p.1, p.2.depth) else best
    else best) none

/-- The device takes a parent by R37: PARENT, and its own depth one more. DESIGN CHOICE: beside a parent of depth 254 or more, DEPTH
stays at 0xFF; the spec gives no depth that the 8-bit field cannot hold. -/
def Dev.chooseParent (d : Dev) : Dev :=
  match d.bestParent with
  | none => d.noParent
  | some (p, dep) => (d.fset F.TAL_STATUS_PARENT p).fset F.TAL_STATUS_DEPTH (min 0xFF (dep + 1))

/-- A device that had lost its parent has one again: PARENT_CHANGE (R38). -/
def Dev.parentFound (d : Dev) : Dev :=
  if d.tally.orphan && d.fget F.TAL_STATUS_PARENT != 0xF then
    let d := d.event E.TAL_PARENT_CHANGE
    { d with tally := { d.tally with orphan := false } }
  else d

/-- An UNLOCKED device with a LOCKED admitted neighbour chooses a parent and enters ACQUIRE (Table 2-3). -/
def Dev.acquireEntry (d : Dev) : Dev :=
  if d.lockState = 1 && d.bestParent.isSome then (d.chooseParent.parentFound).setLock 2 else d

/-- The highest count an admitted neighbour that is LOCKED or in HOLDOVER advertises (R36). -/
def Dev.advertised (d : Dev) : Nat :=
  d.tally.stamps.foldl (fun m p => if d.linkUp p.1 && (p.2.lock == 3 || p.2.lock == 4) then max m p.2.count else m) 0

/-- A stamp goes out on every admitted port (R36): from the master while LOCKED, from every other device in LOCKED or
HOLDOVER. -/
def Dev.sendStamps (d : Dev) : Dev :=
  let st := d.lockState
  if st = 3 || (st = 4 && !d.isMaster) then
    (List.range 15).foldl (fun d p =>
      if d.linkUp p then d.sendStamp p d.now (d.fget F.TAL_STATUS_DEPTH) st else d) d
  else d

/-- The reference is lost (R33, R43). -/
def Dev.refLost (d : Dev) : Dev :=
  if d.flag F.TAL_STATUS_REF_PRESENT then
    let d := (((d.fset F.TAL_STATUS_REF_PRESENT 0).event E.TAL_REF_LOST).setLock 0).noParent
    { d with tally := { d.tally with orphan := false } }
  else d

/-- Valid edges return (R32): the reference is present, and TALLY_OUT forwards it. -/
def Dev.refPresent (d : Dev) : Dev := d.fset F.TAL_STATUS_REF_PRESENT 1

/-- The reference has been valid for 1,024 ticks: the master goes to LOCKED with its count taken under R36, the highest count
advertised or zero; any other device goes to UNLOCKED (R43). No entry is pending in FREE_RUN (R47, R48). -/
def Dev.refValid (d : Dev) : Dev :=
  if d.lockState = 0 && d.flag F.TAL_STATUS_REF_PRESENT then
    if d.isMaster then (((d.fset F.TAL_COUNT_COUNT d.advertised).setLock 3).noParent).sendStamps
    else ((d.setLock 1).noParent).acquireEntry
  else d

/-- A tick boundary: the count advances and stops at all ones (R34), or stands still while a backward correction is
held (R39); stamps go out; a pending command whose tick comes in ACQUIRE fails (R48). -/
def Dev.tallyTick (d : Dev) : Dev :=
  let d := (if d.tally.hold = 0 then d.fset F.TAL_COUNT_COUNT (min (d.now + 1) (2 ^ 64 - 1))
    else { d with tally := { d.tally with hold := d.tally.hold - 1 } })
  let d := { d with tally := { d.tally with adj := 0 } }
  let d := d.setCycle 0
  let d := if d.lockState = 2 then d.failPending fun e => decide (e.execAt ≤ d.now) else d
  d.sendStamps

/-- Ticks the count stands still against the parent's: from a correction of more than one tick backward until the parent's count
has reached it (R39). -/
def Dev.holdFor (d : Dev) (count : Nat) (holding : Bool) : Nat :=
  if count + 1 < d.now || (holding && count < d.now) then d.now - count else 0

/-- The count steps forward to the parent's, or is held until the parent's count reaches it; a pending command whose value
the step passes, the new count's own included, fails (R39, R48). DESIGN CHOICE: a count exactly one tick ahead of the parent's, which
R39 neither steps nor holds, stays one ahead. -/
def Dev.stepCount (d : Dev) (count : Nat) : Dev :=
  let d := { d with tally := { d.tally with hold := d.holdFor count false } }
  if d.now < count then (d.fset F.TAL_COUNT_COUNT count).failPending fun e => decide (e.execAt ≤ count) else d

/-- The phase moves onto the parent's tick boundary: a local boundary `off` eighths of a cycle late lies that much further
into the tick (R39). -/
def Dev.stepPhase (d : Dev) (off : Int) : Dev :=
  let n : Int := d.cyclesPerTick
  d.setCycle ((((d.fget F.TAL_PHASE_CYCLE : Int) + off / 8) % n).toNat)

/-- The first valid stamp in ACQUIRE or HOLDOVER: count and phase step to the parent's, and the device is LOCKED; STEPPED
where either moved by more than ±16 core cycles (R39, Table 2-3). -/
def Dev.lockOn (d : Dev) (count : Nat) (off : Int) : Dev :=
  let moved := decide (d.now < count) || decide (128 < off) || decide (off < -128)
  let d := ((d.stepCount count).stepPhase off).setLock 3
  if moved then d.event E.TAL_STEPPED else d

/-- A stamp from the parent while LOCKED: the phase is corrected by at most one core cycle, a count more than a tick ahead of the
parent's is held until the parent's reaches it (R39), and an offset beyond ±16 cycles disables the scheduled class (R42). -/
def Dev.trackStamp (d : Dev) (count : Nat) (off : Int) : Dev :=
  let a : Int := if 8 ≤ off then -1 else if off ≤ -8 then 1 else 0
  let d := { d with tally := { d.tally with adj := a, hold := d.holdFor count (d.tally.hold != 0) } }
  if 128 < off || off < -128 then
    ({ d.event E.TAL_BOUND_EXCEEDED with
        tally := { (d.event E.TAL_BOUND_EXCEEDED).tally with boundOff := true } }).refreshSched
  else d

/-- A stamp arrives (R36–R39, R42, R43). Stamps of a port that is not admitted are ignored; the master takes no parent. -/
def Dev.stampReceived (d : Dev) (p : Nat) (count depth lock : Nat) (off : Int) : Dev :=
  if !d.linkUp p then d else
  let d := { d with tally := { d.tally with stamps := fmSet d.tally.stamps p ⟨count, depth, lock⟩ } }
  if d.isMaster then d else
  let st := d.lockState
  if st = 1 then d.acquireEntry else
  let parent := d.fget F.TAL_STATUS_PARENT
  -- in ACQUIRE without a parent, and in HOLDOVER, a parent is chosen among the LOCKED neighbours
  let newp := (st == 2 || st == 4) && parent == 0xF
  let d := if newp then d.chooseParent else d
  let d := if st = 2 then d.parentFound else d
  if d.fget F.TAL_STATUS_PARENT ≠ p then d else
  let d := d.fset F.TAL_OFFSET_OFFSET ((off % 2 ^ 32).toNat)
  let d := if lock = 3 then d.fset F.TAL_STATUS_DEPTH (min 0xFF (depth + 1)) else d
  if st = 2 && lock = 3 then d.lockOn count off
  else if st = 4 && lock = 3 then
    let d := d.event E.TAL_PARENT_CHANGE
    ({ d with tally := { d.tally with orphan := false } }).lockOn count off
  else if st = 3 then d.trackStamp count off
  else d

/-- The stamps of a port are forgotten; where they were the parent's, a parent has been lost. -/
def Dev.forgetPort (d : Dev) (p : Nat) : Dev :=
  { d with tally := { d.tally with stamps := fmErase d.tally.stamps p
                                   orphan := d.tally.orphan || (d.fget F.TAL_STATUS_PARENT == p && !d.isMaster) } }

/-- Sixteen stamps of the parent are missed, or none has come for 16 ticks in ACQUIRE: its stamps are forgotten. A LOCKED device
goes to HOLDOVER and chooses again by R37; one in HOLDOVER that waits for a newly chosen parent chooses again; one in ACQUIRE goes to
UNLOCKED, and from there to ACQUIRE where another LOCKED neighbour is known (R38, Table 2-3). -/
def Dev.parentLost (d : Dev) : Dev :=
  let st := d.lockState
  let p := d.fget F.TAL_STATUS_PARENT
  if d.isMaster || (st != 3 && st != 2 && (st != 4 || p == 0xF)) then d
  else
    let d := (if p = 0xF then d else d.forgetPort p).event E.TAL_STAMP_LOST
    if st = 3 then (d.setLock 4).chooseParent
    else if st = 4 then d.chooseParent
    else (d.setLock 1).noParent.acquireEntry

/-- A port leaves the up state: its stamps are forgotten. The loss of the parent's link is the parent's loss: a LOCKED device goes to
HOLDOVER, and one in LOCKED, HOLDOVER or ACQUIRE chooses again by R37 (R38, Table 2-3). -/
def Dev.linkLost (d : Dev) (p : Nat) : Dev :=
  let st := d.lockState
  let mine := d.fget F.TAL_STATUS_PARENT == p && !d.isMaster
  let d := d.forgetPort p
  if !mine then d
  else if st = 3 then ((d.event E.TAL_STAMP_LOST).setLock 4).chooseParent
  else if st = 4 then d.chooseParent
  else if st = 2 then d.chooseParent.parentFound
  else d.noParent

/-- 4,096 ticks in HOLDOVER without a valid stamp (Table 2-3). -/
def Dev.holdExpired (d : Dev) : Dev :=
  if d.lockState = 4 then (((d.setLock 1).event E.TAL_HOLD_EXPIRED).noParent).acquireEntry else d

/-- A write of 1 to TAL_CTRL.RELOCK restarts acquisition, or has no effect on the master or in FREE_RUN; hardware clears the
bit (R43). -/
def Dev.relock (d : Dev) : Dev :=
  if d.isMaster || d.lockState = 0 then d.fset F.TAL_CTRL_RELOCK 0
  else ((d.setLock 2).chooseParent.parentFound).fset F.TAL_CTRL_RELOCK 0

/-- The offset has stayed within ±16 for 16 ticks: the class R42 disabled is enabled again. -/
def Dev.schedRestored (d : Dev) : Dev :=
  if d.lockState = 3 then ({ d with tally := { d.tally with boundOff := false } }).refreshSched else d

/-- TAL_CTRL offset, for the write checks. -/
def talCtrlOff : Nat := 0x100038

/-- A write to TAL_CTRL.SCHED_OFF (R53). -/
def Dev.schedOff (d : Dev) (v : Bool) : Dev := (d.fsetB F.TAL_CTRL_SCHED_OFF v).refreshSched

/-- The block of an offset runs: SEC_ and MBX_ belong to the management subsystem on the standby rail (R408), every other
block stops with a trip (R524). -/
def Dev.regClocked (d : Dev) (off : Nat) : Bool := d.live || (d.powered && decide (0x9000000 ≤ off))

/-- REGISTER_WRITE: a register write by access type (R5–R10). -/
def execRegisterWrite (who : Who) (off : BitVec 32) (width : Nat) (v hw : Word) (s : State) :
    Host.Outcome State Fault Refusal :=
  onDev (fun d => if d.regClocked off.toNat then d.registerWrite who off.toNat width v.toNat hw.toNat else d) s

/-- REF_LOST (R33). -/
def execRefLost (s : State) : Host.Outcome State Fault Refusal := onLive Dev.refLost s

/-- REF_PRESENT (R32). -/
def execRefPresent (s : State) : Host.Outcome State Fault Refusal := onLive Dev.refPresent s

/-- REF_VALID (R43). -/
def execRefValid (s : State) : Host.Outcome State Fault Refusal := onLive Dev.refValid s

/-- SCHED_CLASS_RESTORED (R42). -/
def execSchedClassRestored (s : State) : Host.Outcome State Fault Refusal := onLive Dev.schedRestored s

/-- STAMP_LOST (R38). -/
def execStampLost (s : State) : Host.Outcome State Fault Refusal := onLive Dev.parentLost s

/-- HOLD_EXPIRED (R43). -/
def execHoldExpired (s : State) : Host.Outcome State Fault Refusal := onLive Dev.holdExpired s

/-- RELOCK (R43): a write the writer may not make is discarded. -/
def execRelock (who : Who) (s : State) : Host.Outcome State Fault Refusal :=
  onLive (fun d => if d.mayWrite who talCtrlOff then d.relock else d) s

/-- SCHED_OFF (R53). -/
def execSchedOff (who : Who) (v : Bool) (s : State) : Host.Outcome State Fault Refusal :=
  onLive (fun d => if d.mayWrite who talCtrlOff then d.schedOff v else d) s

end Sys2Proof.Machine
end

