-- ==== Sys2Proof/Machine/Command.lean ====
section
/-! DEFINITION. Commands: acceptance checks, responses, start order and start checks, NOP, CANCEL, ledger snapshots
(R390–R407, R46–R47). -/

namespace Sys2Proof.Machine

/-- `n` bytes of a descriptor from byte `o` (Table 16-3). -/
def descArg (r : Row) (o n : Nat) : Nat := bits r.toNat (8 * o) (8 * n)

/-- `n` bytes of an entry's descriptor from byte `o`. -/
def Entry.arg (e : Entry) (o n : Nat) : Nat := descArg e.desc o n

/-- A scope's tenant: the tag, when the scope is OWNED (R443). -/
def Dev.scopeTag (d : Dev) (s : Scope) : Option Nat :=
  let h := match s with
    | .east => true
    | _ => false
  if d.scopeState h = 1 then some (d.tagOf h) else none

/-- The opcodes of Table 16-4 a submitter may use. -/
def opcodes : List Nat :=
  [0x01, 0x02, 0x03, 0x04, 0x05, 0x06, 0x07, 0x08, 0x09, 0x0A, 0x10, 0x11, 0x12, 0x13, 0x14, 0x15, 0x16, 0x17, 0x18, 0x19,
   0x20]

/-- The sources an opcode is permitted to (Table 16-4). -/
def opSources (op : Nat) : List Nat :=
  if [0x01, 0x04, 0x05, 0x06, 0x07].contains op then [0, 1, 2, 3]
  else if [0x02, 0x03, 0x08, 0x09, 0x0A, 0x17].contains op then [0, 1, 2]
  else if [0x13, 0x14, 0x15, 0x18, 0x19].contains op then [0, 3]
  else if op = 0x20 then [3] else [0]

/-- The argument bytes an opcode uses, as (first, count) (Table 16-4 and the chapters it names); every other byte is
reserved. -/
def opBytes (op : Nat) : List (Nat × Nat) :=
  match op with
  | 0x02 => [(24, 1), (32, 16)]
  | 0x03 | 0x07 | 0x10 | 0x12 | 0x13 => [(24, 1)]
  | 0x04 | 0x0A => [(24, 8)]
  | 0x08 => [(24, 12)]
  | 0x09 => [(24, 20)]
  | 0x11 => [(24, 8)]
  | 0x15 => [(24, 2)]
  | 0x16 => [(24, 1), (28, 4)]
  | 0x17 => [(24, 40)]
  | 0x18 => [(24, 2), (32, 18), (52, 4)]
  | 0x19 => [(24, 1), (28, 4)]
  | 0x20 => [(24, 40)]
  | _ => []

/-- A reserved byte or bit of the descriptor is nonzero (check 3). -/
def reservedSet (r : Row) : Bool :=
  let op := descArg r 0 1
  descArg r 1 1 / 2 != 0 || descArg r 3 5 != 0 ||
    (List.range 40).any fun i =>
      descArg r (24 + i) 1 != 0 && !(opBytes op).any fun p => decide (p.1 ≤ 24 + i) && decide (24 + i < p.1 + p.2)

/-- An argument holds a reserved value (check 3). -/
def Dev.badValue (d : Dev) (r : Row) : Bool :=
  let a := descArg r 24 1
  match descArg r 0 1 with
  | 0x02 => decide (3 < a)
  | 0x07 => decide (1 < a)
  | 0x10 => decide (2 < a)
  | 0x11 => decide (1 < a) || decide (2 < descArg r 25 1) || descArg r 26 2 == 0
  | 0x12 => decide (2 < a)
  | 0x13 => decide (2 < a) || (a == 0 && d.split) || (a != 0 && !d.split)
  | 0x15 => decide (7 < a) || decide (1 < descArg r 25 1)
  | 0x16 => decide (1 < a)
  | 0x18 => decide (2 < a) || (a == 2 && decide (14 < descArg r 25 1)) || bit (descArg r 48 2) 15 || descArg r 52 4 == 0
  | 0x19 => decide (3 < a)
  | 0x20 => a == 0 || decide (9 < a)
  | _ => false

/-- The request needs a licence the device lacks (R28). -/
def Dev.lacksLicence (d : Dev) (r : Row) : Bool :=
  match descArg r 0 1 with
  | 0x10 => descArg r 24 1 == 2 && !d.licensed 0
  | 0x11 => descArg r 24 1 == 0 && descArg r 25 1 != 0 && !d.licensed 3
  | _ => false

/-- The fabric ID part of a global address names this device. -/
def Dev.isLocal (d : Dev) (g : Nat) : Bool := d.flag F.DEV_FABRIC_VALID && bits g 48 16 == d.fget F.DEV_FABRIC_ID

/-- The local stack ranges an opcode's arguments name, a global address of this device included, as (address, bytes), in the order
of their bytes. -/
def Dev.argRanges (d : Dev) (r : Row) : List (Nat × Nat) :=
  match descArg r 0 1 with
  | 0x02 =>
    if descArg r 24 1 = 0 then [(descArg r 32 8, 1)]
    else if descArg r 24 1 = 2 && d.isLocal (descArg r 32 8) then [(bits (descArg r 32 8) 0 48, 1)] else []
  | 0x08 => [(descArg r 24 8, 64 * descArg r 32 4)]
  | 0x09 =>
    let n := 4096 * descArg r 40 4
    (if d.isLocal (descArg r 24 8) then [(bits (descArg r 24 8) 0 48, n)] else []) ++
      (if d.isLocal (descArg r 32 8) then [(bits (descArg r 32 8) 0 48, n)] else [])
  | 0x17 => [(descArg r 24 8, 1024)]
  | 0x18 => if descArg r 24 1 = 0 then [(descArg r 32 8, descArg r 40 8)] else []
  | _ => []

/-- In split tenancy, a tenant's argument names stack memory of the other half (check 6). -/
def Dev.otherHalf (d : Dev) (u : Submitter) (r : Row) : Bool :=
  d.split && (u.src == 1 || u.src == 2) &&
    (d.argRanges r).any fun p => place p.1 == .stack && !scopeHas u.scope (decide (0x5000000000 ≤ p.1))

/-- One test of checks 7 and 8: a status, if the argument fails. -/
def failIf (b : Bool) (st : Nat) : Option Nat := if b then some st else none

/-- The first failure of a list of tests. -/
def firstFail : List (Option Nat) → Option Nat
  | [] => none
  | none :: l => firstFail l
  | some s :: _ => some s

/-- Checks 7 and 8 of an opcode's arguments, field by field in the order of their bytes. -/
def Dev.rangeChecks (d : Dev) (u : Submitter) (r : Row) : Option Nat :=
  let rng (a n : Nat) : Option Nat := failIf (!d.tenantRange u.scope a n) stLenRange
  match descArg r 0 1 with
  | 0x02 =>
    let src := descArg r 32 8
    let k := descArg r 24 1
    let max := descArg r 40 8
    firstFail [
      if k = 0 then rng src 1
      else if k = 1 then failIf (match place src with | .window _ => false | _ => true) stLenRange
      else if k = 2 then failIf (place (bits src 0 48) != .stack) stLenRange
      else none,
      failIf (max < 256 || 2147483648 < max) stLenRange]
  | 0x08 =>
    let a := descArg r 24 8
    let n := descArg r 32 4
    firstFail [rng a (64 * min n 4096), failIf (a % 64 != 0) stAlign, failIf (4096 < n) stCountRange]
  | 0x09 =>
    let s := descArg r 24 8
    let t := descArg r 32 8
    let n := 4096 * descArg r 40 4
    let one (g : Nat) : List (Option Nat) :=
      [if d.isLocal g then rng (bits g 0 48) n else failIf (place (bits g 0 48) != .stack) stLenRange,
       failIf (g % 4096 != 0) stAlign]
    firstFail (one s ++ one t ++ [failIf (!d.isLocal s && !d.isLocal t) stLenRange])
  | 0x11 =>
    let n := descArg r 28 4
    failIf (if descArg r 24 1 = 0 then n == 0 || decide (4096 < n) else n != 0) stLenRange
  | 0x16 => let n := descArg r 28 4; failIf (n == 0 || decide (32768 < n)) stLenRange
  | 0x17 => let a := descArg r 24 8; firstFail [rng a 1024, failIf (a % 64 != 0) stAlign]
  | 0x18 =>
    let k := descArg r 24 1
    let a := descArg r 32 8
    let n := descArg r 40 8
    firstFail [
      if k = 0 then rng a 1
      else if k = 1 then failIf (match place a with | .window _ => false | _ => true) stLenRange
      else none,
      failIf (n < 512 || 67108864 < n) stLenRange]
  | _ => none

/-- Execute-at commands pending on the device (TAL_PENDING). -/
def Dev.pendingAt (d : Dev) : Nat := d.led0.pendingAt + (if d.split then d.led1.pendingAt else 0)

/-- R47: why a nonzero execute-at value is refused. -/
def Dev.execAtCheck (d : Dev) (v : Nat) : Option Nat :=
  if v = 0 then none
  else if v ≤ d.now then some stTimeout
  else if d.lockState ≤ 2 then some stWrongState
  else failIf (decide (256 ≤ d.pendingAt)) stNoResource

/-- The entry a client tag matches: one of the 4,096 most recent sequence numbers with the same TAG, SOURCE and TENANT
(R406). -/
def Ledger.dup (l : Ledger) (tag src tenant : Nat) : Option Entry :=
  if tag = 0 then none
  else l.entries.find? fun e => decide (l.head < e.seq + 4096) && e.tag == tag && e.source == src && e.tenant == tenant

/-- The ledger a command goes to: the tenant's half; for the operator and the fabric master in split tenancy, the half its
SCOPE or SITE names, or the half LGR_CTRL.HALF shows. -/
def Dev.ledgerFor (d : Dev) (u : Submitter) (r : Row) : HalfId :=
  if !d.split then false
  else if u.src = 1 || u.src = 2 then scopeHas u.scope true && u.scope != .whole
  else
    let k := match descArg r 0 1 with
      | 0x11 => descArg r 25 1
      | 0x12 | 0x13 => descArg r 24 1
      | 0x15 => if descArg r 24 1 < 4 then 1 else 2
      | _ => 0
    if k = 1 then false else if k = 2 then true else d.flag F.LGR_CTRL_HALF

/-- The acceptance checks of Table 16-2 but for the duplicate check, in order: the first failure. `h`: the ledger. -/
def Dev.acceptCheck (d : Dev) (u : Submitter) (r : Row) : Option Nat :=
  let op := descArg r 0 1
  firstFail [
    failIf (!opcodes.contains op) stBadOpcode,
    failIf (!(opSources op).contains u.src || (u.claim && !(op == 0x16 && descArg r 24 1 == 1))) stAuthFailed,
    failIf (descArg r 2 1 != 1 || reservedSet r || d.badValue r) stBadFormat]

/-- A recovery holds a half's job, between the hold and the resume (R386). -/
def Dev.recovering (d : Dev) (h : HalfId) : Bool :=
  d.fget F.DEV_SRV_STATUS_STEP != 0 && (!d.split || (if h then d.step1 else d.step0).hold)

/-- The checks after the duplicate check (5 to 11). -/
def Dev.acceptCheck2 (d : Dev) (u : Submitter) (h : HalfId) (r : Row) : Option Nat :=
  let op := descArg r 0 1
  firstFail [
    failIf (d.lacksLicence r) stNotLicensed,
    failIf (d.otherHalf u r) stTenantMismatch,
    d.rangeChecks u r,
    failIf ((op == 0x04 || op == 0x02 || op == 0x05) && u.src != 3 && d.recovering h) stWrongState,
    d.execAtCheck (descArg r 16 8),
    failIf (decide (512 ≤ (d.led h).unended)) stNoResource]

/-- The response to a submission (R393): into CMD_RESP for source 2, as a RESPONSE message to the session of sources 0 and 1 (Table
17-5), as management traffic back to the fabric master for source 3. `orig`: the 64 bytes a management response to DUPLICATE carries. -/
def Dev.respond (d : Dev) (q : Submission) (status state differs seq : Nat) (orig : List Nat := []) : Dev :=
  if q.who.src = 2 then
    ((((d.fset F.CMD_RESP_STATUS status).fset F.CMD_RESP_STATE state).fset F.CMD_RESP_DIFFERS differs).fset
      F.CMD_RESP_SEQ_SEQ seq).fset F.CMD_RESP_VALID 1
  else if q.who.src = 3 then d.emit (.response 3 status state differs seq)
  else d.sendMsg q.session 0x02 q.mtag ([status, state, differs, seq] ++ orig)

/-- A commit of an update that R47 refuses is reported to the master as SHORTFALL (R482). -/
def Dev.shortCommit (d : Dev) (r : Row) (st : Nat) : Dev :=
  if descArg r 0 1 = 0x19 && descArg r 24 1 = 0 && d.execAtCheck (descArg r 16 8) == some st then
    d.emit (.fabric 5 [2, descArg r 28 4, st])
  else d

/-- A refused submission changes nothing but CMD_EVENT and its counter (R392), and LATE_EXEC for a late execute-at value
(R47). -/
def Dev.refuse (d : Dev) (q : Submission) (st : Nat) : Dev :=
  let d := d.event E.CMD_REFUSED
  let v := descArg q.desc 16 8
  let d := if st = stTimeout && v != 0 && v ≤ d.now then d.event E.TAL_LATE_EXEC else d
  (d.shortCommit q.desc st).respond q st 0 0 0

/-- A descriptor is accepted: a new entry in the ledger (R400), the response ACCEPTED. -/
def Dev.accept (d : Dev) (q : Submission) (h : HalfId) : Dev :=
  let u := q.who
  let r := q.desc
  let e : Entry :=
    { Entry.blank with
      tag := descArg r 8 8, opcode := descArg r 0 1, source := u.src, state := 1, tenant := u.tag,
      flags := (descArg r 1 1 % 2) * 8, accept := d.now, crc := crc32c (rowBytes r), execAt := descArg r 16 8, desc := r }
  let d := (d.appendEntry h e).count F.CMD_ACCEPTED_COUNT
  d.respond q stAccepted 0 0 (d.led h).head

/-- A descriptor at the head of its queue is checked, and accepted or refused (R392, R393, R406); a submission in a scope that is not
OWNED is refused with AUTH_FAILED (R488). -/
def Dev.submit (d : Dev) (q : Submission) : Dev :=
  let u := q.who
  let r := q.desc
  if u.src = 2 && u.tag = 0 then d.refuse q stAuthFailed else
  match d.acceptCheck u r with
  | some st => d.refuse q st
  | none =>
    let h := d.ledgerFor u r
    match (d.led h).dup (descArg r 8 8) u.src u.tag with
    | some e =>
      let differs := if crc32c (rowBytes r) = e.crc then 0 else 1
      (d.event E.CMD_DUPLICATE).respond q stDuplicate e.state differs e.seq [leNat e.bytes]
    | none =>
      match d.acceptCheck2 u h r with
      | some st => d.refuse q st
      | none => d.accept q h

/-- The submitter of a source: the session's role, the BAR's scope, the fabric master; `none` when there is none. -/
def Dev.submitter (d : Dev) (src session : Nat) : Option Submitter :=
  match src with
  | 0 =>
    match fmGet d.mg.sessions session with
    | some ⟨.operator, _, _, _⟩ => some ⟨0, .whole, 0, false⟩
    | some ⟨.claim, _, _, _⟩ => some ⟨0, .whole, 0, true⟩
    | _ => none
  | 1 =>
    match fmGet d.mg.sessions session with
    | some ⟨.tenant s, _, _, _⟩ => (d.scopeTag s).map fun t => ⟨1, s, t, false⟩
    | _ => none
  | 2 => if d.flag F.FED_STATUS_MODE then none else some ⟨2, d.feedScope, (d.scopeTag d.feedScope).getD 0, false⟩
  | _ => some ⟨3, .whole, 0, false⟩

/-- The descriptor of a source-2 submission: CMD_SUB0–6 and the word written to CMD_SUB7 (R407). -/
def Dev.subDesc (d : Dev) (w : Nat) : Row :=
  BitVec.ofNat 512 ((List.range 7).foldl (fun n k => n + d.fget F.CMD_SUB_DATA (8 * k) * 2 ^ (64 * k)) (w * 2 ^ 448))

/-- The head of the next queue to be served: the sources in rotation, after the one served last (R391). -/
def MgmtS.nextSub (m : MgmtS) : Option Submission :=
  (List.range 4).findSome? fun k => m.subs.find? fun q => q.who.src == (m.subLast + 1 + k) % 4

/-- At most one descriptor is accepted per core cycle (R391). -/
def Dev.acceptNext (d : Dev) : Dev :=
  if d.mg.subWait ≠ 0 then d else
  match d.mg.nextSub with
  | none => d
  | some q => ({ d with mg := { d.mg with subs := d.mg.subs.erase q, subLast := q.who.src, subWait := 1 } }).submit q

/-- A core cycle passes at the acceptor, and another entry may start (R391, R396). -/
def Dev.acceptCycle (d : Dev) : Dev := ({ d with mg := { d.mg with subWait := d.mg.subWait - 1, started := false } }).acceptNext

/-- A descriptor arrives at its source's queue: a full queue answers BUSY (R391); otherwise it is queued, and the acceptor takes the
descriptor whose turn it is, unless it has taken one in this core cycle. -/
def Dev.enqueue (d : Dev) (q : Submission) : Dev :=
  if 64 ≤ (d.mg.subs.filter fun x => x.who.src == q.who.src).length then (d.event E.CMD_QUEUE_FULL).respond q stBusy 0 0 0
  else ({ d with mg := { d.mg with subs := d.mg.subs ++ [q] } }).acceptNext

/-- A submission of source 2 or 3: a write of CMD_SUB7 whose word is the descriptor's last 8 bytes (R407), or a descriptor relayed from
the fabric master. -/
def Dev.commandSubmit (d : Dev) (src : Nat) (desc : Row) : Dev :=
  match d.submitter src 0 with
  | none => d
  | some u =>
    let r := if src = 2 then d.subDesc (bits desc.toNat 448 64) else desc
    let d := if src = 2 then (d.fset F.CMD_SUB_DATA (bits desc.toNat 448 64) 56).fset F.CMD_RESP_VALID 0 else d
    d.enqueue ⟨u, 0, 0, r⟩

/-! ## Start -/

/-- The DEV_STATE values in which an entry may start (Table 16-4); `none`: any, or checked by its own chapter. -/
def opStates (e : Entry) : Option (List Nat) :=
  match e.opcode with
  | 0x03 | 0x08 => some [3, 4, 5]
  | 0x04 => some [3]
  | 0x05 => some [4]
  | 0x06 => some [5]
  | 0x07 => some [4, 5]
  | 0x09 => some [2, 3, 4, 5]
  | 0x10 => some [2]
  | 0x11 => some [2]
  | 0x12 => some [2, 3]
  | 0x13 => some [1, 2, 3, 4, 5, 6]
  | 0x15 => some (if e.arg 25 1 = 0 then [2, 3, 5] else [2])
  | _ => none

/-- The halves whose state an entry's start depends on: the halves of the scope or site it names, otherwise those its ledger
serves. -/
def Dev.opHalves (d : Dev) (h : HalfId) (e : Entry) : List HalfId :=
  match e.opcode with
  | 0x11 => scopeHalves (scopeOf (e.arg 25 1))
  | 0x12 | 0x13 => scopeHalves (scopeOf (e.arg 24 1))
  | 0x15 => if d.split then [decide (4 ≤ e.arg 24 1)] else [false, true]
  | 0x10 => [false, true]
  | _ => if d.split then [h] else [false, true]

/-- The state check of R397: the first half, in order, that is in a state the command may not start in. The east half in
ORPHAN gives BRIDGE_LOST, except to COMPUTE_RESET (R462, R464); a compute reset lets a SITE_RESET start, which then has no effect (R469). -/
def Dev.stateCheck (d : Dev) (h : HalfId) (e : Entry) : Option Nat :=
  match opStates e with
  | none => none
  | some sts =>
    firstFail ((d.opHalves h e).map fun k =>
      if d.half k = 7 && d.halfSub k = 1 && e.opcode != 0x13 then some stBridgeLost
      else if e.opcode = 0x15 && d.half k = 6 && d.halfSub k = 0 then none
      else failIf (!sts.contains (d.half k)) stWrongState)

/-- Whether an accepted entry may start now (R46, R396): an execute-at entry once its tick has come, after every earlier entry of the
same value. -/
def Ledger.mayStart (l : Ledger) (e : Entry) : Bool :=
  e.state == 1 &&
    (if e.execAt ≠ 0 then
      e.due && l.entries.all fun x => !(x.seq < e.seq && x.state == 1 && x.execAt == e.execAt)
    else if bit e.flags 3 then
      l.entries.all fun x => !(x.seq < e.seq) || x.ended
    else
      l.entries.all fun x => !(x.seq < e.seq && x.state == 1 && x.execAt == 0))

/-- An entry of an opcode comes to its start: nothing happens unless it may start now and none has started in this core cycle (R396); the state check fails it with
that status and nothing else changes (R397); otherwise it is STARTED and `k` carries it out. -/
def Dev.begin (d : Dev) (h : HalfId) (seq op : Nat) (k : Dev → Entry → Dev) : Dev :=
  match d.entry h seq with
  | none => d
  | some e =>
    if e.opcode = op && !d.mg.started && (d.led h).mayStart e then
      match d.stateCheck h e with
      | some st => d.endEntry h seq 4 st
      | none => k (d.startEntry h seq) e
    else d

/-- An execute-at entry whose tick has come has not started: the tick does not end before it has (R46). -/
def Dev.owesStart (d : Dev) : Bool :=
  (d.lockState == 3 || d.lockState == 4) &&
    d.ledgers.any fun h => (d.led h).entries.any fun e => e.state == 1 && e.execAt != 0 && decide (e.execAt ≤ d.now)

/-- The tick of a pending entry begins (R46): the entry may start. In ACQUIRE it fails instead (R48). -/
def Dev.execAtStart (d : Dev) (h : HalfId) (seq : Nat) : Dev :=
  match d.entry h seq with
  | none => d
  | some e =>
    if e.state = 1 && e.execAt != 0 && e.execAt == d.now then
      if d.lockState = 3 || d.lockState = 4 then d.modEntry h seq fun e => { e with due := true }
      else d.endEntry h seq 4 stTimeout
    else d

/-- NOP ends OK at start (R395). -/
def Dev.nop (d : Dev) (h : HalfId) (seq : Nat) : Dev := d.begin h seq 0x01 fun d _ => d.finish h seq stOk

/-- CANCEL supersedes its target when the target is ACCEPTED and the canceller is the operator or of the same tenant;
otherwise it fails with WRONG_STATE (R398). -/
def Dev.cancel (d : Dev) (h : HalfId) (seq : Nat) : Dev :=
  d.begin h seq 0x0A fun d e =>
    match d.entry h (e.arg 24 8) with
    | some t =>
      if t.state = 1 && (e.source = 0 || t.tenant = e.tenant) then
        (d.endEntry h t.seq 5 stOk).finish h seq stOk
      else d.finish h seq stWrongState
    | none => d.finish h seq stWrongState

/-- The tag a reader of the ledger reads as: `none` for the operator and Uhlea. -/
def Dev.readerTag (d : Dev) (w : Who) : Option Nat :=
  match w with
  | .tenant s => some ((d.scopeTag s).getD 0)
  | _ => none

/-- LGR_SEL: the entry is copied into LGR_DATA0–7, or FOUND reads 0 and LGR_DATA zero (R405). -/
def Dev.lgrSel (d : Dev) (w : Who) (seq : Nat) : Dev :=
  let l := d.led (d.readerHalf w)
  let d := d.fset F.LGR_SEL_SEQ seq
  match l.snapshot seq with
  | none =>
    (List.range 8).foldl (fun d k => d.fset F.LGR_DATA_DATA 0 (8 * k)) (d.fset F.LGR_CTRL_FOUND 0)
  | some e =>
    let bs := (l.view (d.readerTag w) e).bytes
    (List.range 8).foldl (fun d k => d.fset F.LGR_DATA_DATA (leAt bs (8 * k) 8) (8 * k)) (d.fset F.LGR_CTRL_FOUND 1)

/-- EXEC_AT_START (R46). -/
def execExecAtStart (h : HalfId) (seq : Word) (s : State) : Host.Outcome State Fault Refusal :=
  onLive (fun d => d.execAtStart h seq.toNat) s

/-- NOP (R395). -/
def execNop (h : HalfId) (seq : Word) (s : State) : Host.Outcome State Fault Refusal :=
  onLive (fun d => d.nop h seq.toNat) s

/-- CANCEL (R398). -/
def execCancel (h : HalfId) (seq : Word) (s : State) : Host.Outcome State Fault Refusal :=
  onLive (fun d => d.cancel h seq.toNat) s

/-- LGR_SEL (R405). -/
def execLgrSel (who : Who) (seq : Word) (s : State) : Host.Outcome State Fault Refusal :=
  onLive (fun d => d.lgrSel who seq.toNat) s

end Sys2Proof.Machine
end

