-- ==== Sys2Proof/Machine/ImageData.lean ====
section
/-! DEFINITION. The Skelnal image read as data (Tables 6-1 to 6-10). -/

namespace Sys2Proof.Machine

/-! ## Reading an image -/

/-- A section directory entry (Table 6-2). -/
structure Sect where
  ty : Nat
  cfg : Nat
  count : Nat
  off : Nat
  len : Nat
  /-- Its place in the directory. -/
  at_ : Nat
  deriving DecidableEq, Repr

/-- The section directory of an image. -/
def sectsOf (b : List Byte) : List Sect :=
  (List.range (leAt b 0x0C 2)).map fun i =>
    let o := 256 + 32 * i
    ⟨leAt b o 2, leAt b (o + 2) 1, leAt b (o + 4) 4, leAt b (o + 8) 8, leAt b (o + 16) 8, i⟩

/-- The section of a type and configuration (0xFF: image-wide). -/
def sectOf (b : List Byte) (ty cfg : Nat) : Option Sect := (sectsOf b).find? fun s => s.ty == ty && s.cfg == cfg

/-- The fixed-size items of a section. -/
def itemsOf (b : List Byte) (ty cfg size : Nat) : List (List Byte) :=
  match sectOf b ty cfg with
  | some s => (List.range s.count).map fun i => bytesAt b (s.off + size * i) size
  | none => []

/-- The configurations an image holds. -/
def configCount (b : List Byte) : Nat := leAt b 0x0E 1

/-- FLAGS.HALF and HALF_SEL (Table 6-1): the half image's half. -/
def halfImage (b : List Byte) : Option HalfId :=
  let f := leAt b 0x0F 1
  if bit f 2 then some (bit f 3) else none

/-- A PLACEMENT item (Table 6-4): tile, slot, class, unit. -/
structure Place4 where
  tile : Nat
  slot : Nat
  cls : Nat
  unit : Nat
  deriving DecidableEq, Repr

/-- The placement of a configuration. -/
def placements (b : List Byte) (n : Nat) : List Place4 :=
  (itemsOf b 1 n 8).map fun i => ⟨leAt i 0 2, leAt i 2 1, leAt i 3 1, leAt i 4 4⟩

/-- The FIELDS item of the instance whose block (0, 0) lies in a tile. -/
def fieldItem (b : List Byte) (n t : Nat) : Option (List Byte) :=
  (itemsOf b 6 n 24).find? fun i => blockTile (leAt i 0 1) (leAt i 2 1) (leAt i 1 1) 0 == t

/-- The STREAM item of a slot. -/
def streamItem (b : List Byte) (n t s : Nat) : Option (List Byte) :=
  (itemsOf b 7 n 128).find? fun i => leAt i 0 2 == t && leAt i 2 1 == s

/-- A slot's record (R148): its UNITS item, with the FIELDS or STREAM item after it. -/
def recordOf (b : List Byte) (n : Nat) (p : Place4) : List Byte :=
  let u := ((itemsOf b 2 n 128)[p.unit]?).getD []
  u ++ (if p.cls = 0 then (fieldItem b n p.tile).getD [] else if p.cls = 2 || p.cls = 3 then
    (streamItem b n p.tile p.slot).getD [] else [])

/-- The configuration a record spells; an empty record is a slot left empty (class 255). -/
def cfgOf (n : Nat) (r : List Byte) : Cfg :=
  if r.length < 128 then { num := n, cls := 255, ii := 1, param := 0, ins := [], outs := [], body := [], extra := [] } else
  { num := n, cls := leAt r 0 1, ii := leAt r 1 1, param := leAt r 4 4
    ins := (List.range (leAt r 2 1)).map fun i =>
      let q := leAt r (8 + 2 * i) 2
      if q = 0xFFFF then none else some q
    outs := (List.range (leAt r 3 1)).map fun o =>
      let x := leAt r (24 + 4 * o) 4
      if x = 0xFFFFFFFF then none else some (x % 65536, bits x 16 8)
    body := bytesAt r 56 72
    extra :=
      if leAt r 0 1 = 0 then bytesAt r 128 24
      else if leAt r 0 1 = 2 || leAt r 0 1 = 3 then bytesAt r 128 128 else [] }

/-- The configuration of a slot in configuration n; `none`: the slot is empty there. -/
def slotCfg (b : List Byte) (n t s : Nat) : Option Cfg :=
  ((placements b n).find? fun p => p.tile == t && p.slot == s).map fun p => cfgOf n (recordOf b n p)

end Sys2Proof.Machine
end

