-- ==== Sys2Proof/Machine/LinkPort.lean ====
section
/-! DEFINITION. Link ports: sending and replay, what the receiver checks, admission, spare lanes, quarantine, sealed batches
(R318–R341). -/

namespace Sys2Proof.Machine

/-- Lanes that carry traffic at full width: torus 8, sheaf 4 (R318). -/
def activeLanes (p : Nat) : Nat := if p < 8 then 8 else 4

/-- LNK_STATUS.LINK: 0 DOWN, 1 TRAINING, 2 ADMITTING, 3 UP, 4 QUARANTINED, 5 HOLD, 6 BACKOFF. -/
def Dev.link (d : Dev) (p : Nat) : Nat := d.fget F.LNK_STATUS_LINK (portAdd p)

/-- LNK_STATUS.PARTNER (Table 13-6). -/
def Dev.partner (d : Dev) (p : Nat) : Nat := d.fget F.LNK_STATUS_PARTNER (portAdd p)

/-- The FABRIC item of the image in force of a half, if there is one (Table 6-10). -/
def Dev.fabricItem (d : Dev) (h : HalfId) : Option (List Byte) :=
  match d.image h with
  | some i => (itemsOf i.bytes 10 0xFF 128).head?
  | none => none

/-- NEIGHBOUR[p] of the image in force: the expected fabric ID and whether the port is expected absent. -/
def Dev.neighbour (d : Dev) (p : Nat) : Option (Nat × Bool) :=
  (d.fabricItem (portHalf p)).map fun b => (leAt b (12 + 4 * p) 2, bit (leAt b (14 + 4 * p) 1) 0)

/-- The port is marked expected absent. -/
def Dev.expectAbsent (d : Dev) (p : Nat) : Bool := ((d.neighbour p).map (·.2)).getD false

/-! ## Coordinates and buffer classes (R343, R344, R348) -/

/-- The axis lengths of the image in force; 1 each without one. -/
def Dev.axes (d : Dev) : List Nat :=
  match (d.fabricItem false).or (d.fabricItem true) with
  | some b => (List.range 4).map fun a => max 1 (leAt b (2 * a) 2)
  | none => [1, 1, 1, 1]

/-- The coordinates of a fabric ID's sheaf (R344). -/
def coordsOf (axes : List Nat) (id : Nat) : List Nat :=
  (axes.foldl (fun (p : Nat × List Nat) l => (p.1 / l, p.2 ++ [p.1 % l])) (bits id 0 13, [])).2

/-- The rank of a fabric ID. -/
def rankOf (id : Nat) : Nat := bits id 13 3

/-- This device's fabric ID. -/
def Dev.me (d : Dev) : Nat := d.fget F.DEV_FABRIC_ID

/-- Travel along an axis in the + direction (`plus`), or the other one, from coordinate o to c has crossed the axis's wrap link. -/
def crossed (plus : Bool) (o c : Nat) : Bool := if plus then decide (c < o) else decide (o < c)

/-- This device's coordinate on an axis, the origin's, and the axis's length. -/
def Dev.axisAt (d : Dev) (a org : Nat) : Nat × Nat × Nat :=
  (((coordsOf d.axes d.me)[a]?).getD 0, ((coordsOf d.axes org)[a]?).getD 0, (d.axes[a]?).getD 1)

/-- The buffer class a bounded frame of an origin takes on the link of port p: 1 on the wrap link of the axis and beyond it (R348). -/
def Dev.sendClass (d : Dev) (p org : Nat) : Nat :=
  let x := d.axisAt (p / 2) org
  let next := (x.1 + if p % 2 = 0 then 1 else x.2.2 - 1) % x.2.2
  if p < 8 && crossed (p % 2 == 0) x.2.1 next then 1 else 0

/-- The buffer class of a bounded frame of an origin that has come in on port p. -/
def Dev.arrivalClass (d : Dev) (p org : Nat) : Nat :=
  let x := d.axisAt (p / 2) org
  if p < 8 && crossed (p % 2 == 1) x.2.1 x.1 then 1 else 0

/-- The place of a virtual channel's class in the lists of credits. -/
def creditIx (vc cls : Nat) : Nat := vc + 4 * cls

/-! ## Sending -/

/-- The slot mask of a port. -/
def Dev.slotMask (d : Dev) (p : Nat) : Nat := bits (d.fget F.TAL_SLOT_MASK_MASK) (4 * p) 4

/-- The current slot is masked and carries a scheduled transfer in this tick: the bounded plane waits (R52). -/
def Dev.slotTaken (d : Dev) (p : Nat) : Bool :=
  let s := d.fget F.TAL_PHASE_SLOT
  bit (d.slotMask p) s && (d.port p).schedSlots.contains s

/-- The first of the waiting frames that may leave: a scheduled one, or, while the bounded plane is open, one whose credits are held and
behind no other of its virtual channel and class (R253, R348). `held`: the places of those passed over. -/
def nextFrame (cred : List Nat) (isOpen : Bool) : List Nat → List TxFrame → Option TxFrame
  | _, [] => none
  | held, f :: fs =>
    let c := creditIx f.vc f.cls
    if f.sched || (isOpen && !held.contains c && decide (f.units.length ≤ (cred[c]?).getD 0)) then some f
    else nextFrame cred isOpen (c :: held) fs

/-- The data-frame's units leave on an UP port when credits for their VC and class are held, outside the slots that scheduled transfers
use; scheduled frames use no credits (R52, R327, R348). During a compute reset or a winnow nothing leaves (R339), and no payload leaves
through a port of the east half that is out of reach (R21, R22). -/
def Dev.sendWaiting (d : Dev) (p : Nat) : Nat → Dev
  | 0 => d
  | fuel + 1 =>
    let x := d.port p
    if d.link p ≠ 3 || d.half (portHalf p) = 6 || (portHalf p && d.eastLost) then d else
    match nextFrame x.txCred (decide (x.replay.length < 256) && !d.slotTaken p) [] x.wait with
    | none => d
    | some f =>
      let c := creditIx f.vc f.cls
      let cred := if f.sched then x.txCred else x.txCred.set c ((x.txCred[c]?).getD 0 - f.units.length)
      ((d.modPort p fun x => { x with wait := x.wait.erase f, txCred := cred }).sendFrame p f).sendWaiting p fuel

/-- The frames of a transfer: 16 units each, LAST on the last, POISON by unit (R322). -/
def framesOf (sched : Bool) (vc cls slot xfer : Nat) : Nat → List (Row × Bool) → List TxFrame
  | 0, _ => []
  | fuel + 1, us =>
    let now := us.take 16
    let rest := us.drop 16
    let f : TxFrame :=
      { TxFrame.blank 1 with
        sched, last := rest.isEmpty, vc, cls, slot, xfer
        poison := now.zipIdx.foldl (fun n u => if u.1.2 then n + 2 ^ u.2 else n) 0
        units := now.map (·.1) }
    f :: (if rest.isEmpty then [] else framesOf sched vc cls slot xfer fuel rest)

/-- A transfer's units are queued on a port and leave as credits allow. -/
def Dev.sendUnits (d : Dev) (p : Nat) (sched : Bool) (vc cls slot xfer : Nat) (us : List (Row × Bool)) : Dev :=
  let fs := framesOf sched vc cls slot xfer (us.length + 1) us
  (d.modPort p fun x => { x with wait := if sched then fs ++ x.wait else x.wait ++ fs }).sendWaiting p
    (fs.length + (d.port p).wait.length)

/-! ## Partner states, STATE frames -/

/-- What this device tells a partner in a STATE frame: its own partner state (Table 13-6) and device state code. -/
def Dev.selfState (d : Dev) (p : Nat) : Nat :=
  let h := portHalf p
  let st := d.half h
  if (d.port p).quarLocal then 5
  else if st = 6 then (if d.halfSub h = 1 then 3 else 2)
  else if st = 7 || (d.port p).halfRx || (d.port p).halfTx then 4 else 1

/-- A STATE frame: partner state, device state, half width, the received lane the spare replaces (R319, R322). -/
def Dev.sendState (d : Dev) (p : Nat) : Dev :=
  (d.modPort p fun x => { x with told := (d.selfState p, d.half (portHalf p)) }).sendCtl p 7 [d.selfState p, d.half (portHalf p), if (d.port p).halfRx then 1 else 0,
    d.fget F.LNK_STATUS_SPARE_RX (portAdd p), if d.fget F.TAL_STATUS_PARENT = p then 1 else 0]

/-- SCHED_OK: the port is UP, neither direction runs at half width, and the partner is UP (R334). -/
def Dev.refreshPort (d : Dev) (p : Nat) : Dev :=
  let a := portAdd p
  let x := d.port p
  let d := d.fsetB F.LNK_STATUS_HALF_WIDTH (x.halfRx || x.halfTx) a
  d.fsetB F.LNK_STATUS_SCHED_OK (d.link p == 3 && !x.halfRx && !x.halfTx && d.partner p == 1) a

/-- The port's own state changes, with its trace record (R422); leaving the admitted states gives up its delay, its seal and its
stamps (R38, Table 2-16). -/
def Dev.setLink (d : Dev) (p st : Nat) : Dev :=
  let old := d.link p
  let d := d.fset F.LNK_STATUS_LINK st (portAdd p)
  let d := if old = st then d else d.traceRec 3 [p, st, d.partner p]
  let d := if (old = 3 || old = 4) && st != 3 && st != 4 then
      ((d.fset F.TAL_PORT_DELAY_VALID 0 (8 * p)).linkLost p).fset F.LNK_STATUS_SEALED 0 (portAdd p)
    else d
  d.refreshPort p

/-- The partner as this device sees it. -/
def Dev.setPartner (d : Dev) (p v : Nat) : Dev :=
  ((d.fset F.LNK_STATUS_PARTNER v (portAdd p)).traceRec 3 [p, d.link p, v]).refreshPort p

/-! ## Admission (R328–R331) -/

/-- The port enters TRAINING: READMIT clears, the partner shows ABSENT, and an admission is counted. -/
def Dev.startTraining (d : Dev) (p : Nat) : Dev :=
  let a := portAdd p
  if d.expectAbsent p then (d.setLink p 5).setPartner p 0
  else
    let d := (d.fset F.LNK_CTRL_READMIT 0 a).count F.LNK_ADMIT_ATTEMPTS 1 a
    let d := d.modPort p fun x =>
      { x with step := 1, probes := [], badDelay := 0, quarLocal := false, batch := [], halfRx := false, halfTx := false, replayAt := none }
    let d := (d.fset F.LNK_STATUS_QUAR_REMOTE 0 a).fset F.LNK_STATUS_SPARE_RX 0xF a
    let d := d.fset F.LNK_STATUS_SPARE_TX 0xF a
    (d.setLink p 1).setPartner p 0

/-- A retrain (R326, R328). -/
def Dev.retrain (d : Dev) (p : Nat) : Dev :=
  ((d.event E.LNK_RETRAIN (portAdd p)).sbLog 0x0030 1 [p, 0, 0, 0, 1]).startTraining p

/-- ADMISSION: a port that is down begins. -/
def Dev.admission (d : Dev) (p : Nat) : Dev :=
  if d.link p = 0 || d.link p = 5 then d.startTraining p else d

/-- Admission fails with a status at a step: the port waits in BACKOFF, 1 s, and twice as long after each further failure, up to 64 s
(R331). -/
def Dev.admitFail (d : Dev) (p status step : Nat) : Dev :=
  let a := portAdd p
  let d := ((d.event E.LNK_ADMIT_FAIL a).fset F.LNK_ADMIT_STATUS status a).fset F.LNK_ADMIT_STEP step a
  let d := d.sbLog 0x0030 1 [p, status, step, 0, 0]
  ((d.modPort p fun x => { x with step := 0, backoff := if x.backoff = 0 then 1 else min 64 (2 * x.backoff) }).setLink p 6).setPartner p 0

/-- The identity message goes out in three ADMIT frames (Table 13-5). The nonce is free, and so is the ephemeral key, which is there
where this end requests sealing: DESIGN CHOICE, for whether the partner does is not known yet. What follows it, certificates and the
signature, is made of secrets that no rule gives, and is left out. The port's frames carry this fabric ID until its next admission (R459). -/
def Dev.sendIdentity (d : Dev) (p : Nat) : Dev :=
  let want := d.flag F.LNK_CTRL_SEAL_REQ (portAdd p)
  let key := d.fresh 776
  let nonce := key.2.fresh 256
  let b := leBytes 2 (d.fget F.DEV_FABRIC_ID) ++ leBytes 1 p ++ leBytes 1 (d.half (portHalf p)) ++ leBytes 8 d.sec.serial ++
    leBytes 1 d.pw.profile ++ leBytes 1 ((if want then 1 else 0) + if d.licensed 4 then 2 else 0) ++
    leBytes 97 (if want then key.1 else 0) ++ leBytes 32 nonce.1 ++ List.replicate 49 0
  let d := nonce.2.modPort p fun x => { x with ownId := d.fget F.DEV_FABRIC_ID }
  (List.range 3).foldl (fun d i => d.sendUnit p 5 (rowOf ((b.drop (64 * i)).take 64))) d

/-- LANE_TRAINING_DONE: `ok` says which lanes qualified, `eye` their margins (R319, R328). -/
def Dev.laneTrainingDone (d : Dev) (p : Nat) (ok : List Bool) (eye : List (Nat × Nat)) : Dev :=
  if d.link p ≠ 1 then d else
  let a := portAdd p
  let n := activeLanes p
  let q (k : Nat) : Bool := (ok[k]?).getD false
  let good := (List.range (n + 1)).filter q
  let d := (List.range (n + 1)).foldl (fun d k =>
    let la := a + 8 * k
    ((d.fset F.LNK_LANE_EYE_H ((eye[k]?).getD (0, 0)).1 la).fset F.LNK_LANE_EYE_V ((eye[k]?).getD (0, 0)).2 la).fsetB
      F.LNK_LANE_FAILED (!q k) la) d
  if 2 * good.length < n then d.admitFail p stTimeout 1
  else
    let half := decide (good.length < n)
    let act := if half then good.take (n / 2) else good.take n
    let spare := if half || (List.range n).all q then 0xF else ((List.range n).find? fun k => !q k).getD 0xF
    let d := (List.range (n + 1)).foldl (fun d k => d.fsetB F.LNK_LANE_ACTIVE (act.contains k) (a + 8 * k)) d
    let d := d.fset F.LNK_STATUS_SPARE_RX spare a
    let d := d.modPort p fun x => { x with step := 3, halfRx := half }
    (d.setLink p 2).sendIdentity p

/-- The port facing port p: +A faces −A; sheaf port i faces port 6 − i (R330, R342). -/
def facing (p : Nat) : Nat := if p < 8 then (if p % 2 = 0 then p + 1 else p - 1) else 8 + (6 - (p - 8))

/-- The neighbour check of R330. -/
def Dev.neighbourOk (d : Dev) (p claimed port serial : Nat) : Bool :=
  let e := d.fget F.LNK_EXPECT_SERIAL_SERIAL (portAdd p)
  let rank := d.fget F.DEV_STRAPS_SHEAF_RANK
  (match d.neighbour p with
   | some n => !n.2 && claimed == n.1
   | none =>
     if p < 8 then bits claimed 13 3 == rank
     else bits claimed 13 3 != rank && bits claimed 0 13 == bits (d.fget F.DEV_FABRIC_ID) 0 13) &&
    port == facing p && (e == 0 || e == serial)

/-- This end quarantines the link: a STATE frame announces it (R336). -/
def Dev.quarantine (d : Dev) (p : Nat) : Dev :=
  let a := portAdd p
  let d := (d.fset F.LNK_CTRL_QUARANTINE 0 a).fset F.LNK_CTRL_RELEASE 0 a
  if d.link p = 2 || d.link p = 3 || d.link p = 4 then
    let d := ((d.modPort p fun x => { x with quarLocal := true }).event E.LNK_QUARANTINED a).setLink p 4
    ((d.setPartner p 5).sendState p).sbLog 0x0030 1 [p, 0, 0, 1, 0]
  else d

/-- ADMIT_FRAME's completed identity: chain and signature, sealing, neighbour check (R328–R330, R337). -/
def Dev.identity (d : Dev) (p : Nat) (i : Ident) : Dev :=
  if d.link p ≠ 2 || (d.port p).step ≠ 3 then d else
  let a := portAdd p
  if !i.chainOk || d.sec.revoked.contains i.serial.toNat then d.admitFail p stAuthFailed 3
  else
    let want := i.sealReq || d.flag F.LNK_CTRL_SEAL_REQ a
    if want && !(i.sealLicence && d.licensed 4) then d.admitFail p stNotLicensed 3
    else
      let d := (((d.fset F.LNK_PARTNER_FABRIC_ID i.claimed.toNat a).fset F.LNK_PARTNER_PORT i.port.toNat a).fset
        F.LNK_PARTNER_PROFILE i.profile.toNat a).fset F.LNK_PARTNER_STATE i.state.toNat a
      let d := d.fset F.LNK_PARTNER_SERIAL_SERIAL i.serial.toNat a
      let d := d.modPort p fun x => { x with sealNext := want }
      if d.neighbourOk p i.claimed.toNat i.port.toNat i.serial.toNat then
        (d.modPort p fun x => { x with step := 5, probes := [] }).sendCtl p 6 [0]
      else
        (((d.event E.LNK_ID_MISMATCH a).fset F.LNK_ADMIT_STATUS stAuthFailed a).fset F.LNK_ADMIT_STEP 4 a).quarantine p

/-- Frames go out again in order; scheduled payload, and what follows it, waits for the end of a guard (R49). -/
def Dev.resend (d : Dev) (p : Nat) (fs : List TxFrame) : Dev :=
  let now := if d.inGuard then fs.takeWhile fun f => !f.sched else fs
  let d := now.foldl (fun d f => d.emitFrame p f) d
  d.modPort p fun x => { x with replayAt := (fs.drop now.length).head?.map (·.seq) }

/-- A new slot begins on a port: a replay that the guard stopped goes on, and the bounded plane may use the slot. -/
def Dev.slotBegins (d : Dev) (p : Nat) : Dev :=
  let d := match (d.port p).replayAt with
    | some n => d.resend p ((d.port p).replay.dropWhile fun f => f.seq != n)
    | none => d
  d.sendWaiting p (d.port p).wait.length

/-- The frames not acknowledged go out again, from the named SEQ on; an eighth replay of a frame forces a retrain (R326). -/
def Dev.replayFrom (d : Dev) (p seq : Nat) : Dev :=
  let x := d.port p
  let fs := x.replay.dropWhile fun f => f.seq != seq
  if fs.isEmpty then d
  else
    let d := d.event E.LNK_REPLAY (portAdd p)
    let d := d.modPort p fun x =>
      { x with replay := x.replay.map fun f => if fs.any (fun g => g.seq == f.seq) then { f with sent := f.sent + 1 } else f }
    let d := d.resend p fs
    if fs.any fun f => 8 ≤ f.sent + 1 then d.retrain p else d

/-- The SEQ before which everything is taken: on a sealed link, the first of the batch that waits for its tag, and else the next one
expected (R325, R338). -/
def Port.acked (x : Port) : Nat :=
  match x.batch.find? fun b => sequenced b.1.kind.toNat with
  | some b => b.1.seq.toNat
  | none => x.rxSeq

/-- LNK_RATE of a VC. -/
def Dev.rate (d : Dev) (p vc : Nat) : Nat :=
  d.fget (match vc with | 0 => F.LNK_RATE_VC0 | 1 => F.LNK_RATE_VC1 | 2 => F.LNK_RATE_VC2 | _ => F.LNK_RATE_VC3) (portAdd p)

/-- The part of a VC's units that its buffer class holds: of LNK_RATE, one frame of 16 units, or half where that is less, is class 1's, and
the rest class 0's. DESIGN CHOICE: R348 keeps credits for each class and gives no sizes. -/
def Dev.classRate (d : Dev) (p i : Nat) : Nat :=
  let n := d.rate p (i % 4)
  if i < 4 then n - min 16 (n / 2) else min 16 (n / 2)

/-- Credits are granted up to LNK_RATE of each VC, by class; what the partner has used since the last grant frees as many (R327, R348). -/
def Dev.grant (d : Dev) (p : Nat) : Dev :=
  let x := d.port p
  let left := (List.range 8).map fun v => (x.given[v]?).getD 0 - (x.used[v]?).getD 0
  let more := (List.range 8).map fun v => d.classRate p v - (left[v]?).getD 0
  let d := d.modPort p fun x => { x with given := (List.range 8).map fun v => (left[v]?).getD 0 + (more[v]?).getD 0 }
  if more.all (· == 0) then d
  else d.sendCtl p 2 ([x.acked, 0, 0] ++ (List.range 4).map fun v => (more[v]?).getD 0 + 2 ^ 16 * (more[v + 4]?).getD 0)

/-- Admission is complete: the port is UP, the wait after a failure is 1 s again, STATE goes out, and what was not
acknowledged before a retrain is replayed (R326, R328, R331). -/
def Dev.enterUp (d : Dev) (p delay : Nat) : Dev :=
  let a := portAdd p
  let x := d.port p
  let d := ((d.fset F.TAL_PORT_DELAY_DELAY delay (8 * p)).fset F.TAL_PORT_DELAY_VALID 1 (8 * p)).fset F.LNK_ADMIT_STATUS stOk a
  let d := ((d.fset F.LNK_ADMIT_STEP 6 a).fsetB F.LNK_STATUS_SEALED x.sealNext a).sbLog 0x0030 0 [p, stOk, 6, 0, 0]
  let d := d.modPort p fun x =>
    { x with step := 6, backoff := 0, quarLocal := false, batch := [], txBatch := 0, rxBatch := 0, txInBatch := 0
             txCred := noCredits, given := noCredits, used := noCredits }
  let d := d.fset F.LNK_STATUS_QUAR_REMOTE 0 a
  let d := (((d.setLink p 3).setPartner p (if x.halfRx || x.halfTx then 4 else 1)).sendState p).grant p
  match (d.port p).replay.head? with
  | some f => d.replayFrom p f.seq
  | none => d

/-- DELAY_FRAME: a probe is echoed; an echo during step 5 is a sample, and the 64th decides (R328): the delay is half of the
median less the partner's turnaround, or, where the middle 32 spread by more than 8, the probes run again and the fourth time
force a retrain. -/
def Dev.delayFrame (d : Dev) (p : Nat) (echo : Bool) (rtt turnaround : Nat) : Dev :=
  if !echo then d.sendCtl p 6 [1]
  else if d.link p ≠ 2 || (d.port p).step ≠ 5 then d
  else
    let ps := (d.port p).probes ++ [rtt - turnaround]
    if ps.length < 64 then (d.modPort p fun x => { x with probes := ps }).sendCtl p 6 [0]
    else
      let s := ps.mergeSort (· ≤ ·)
      let lo := (s[16]?).getD 0
      let hi := (s[47]?).getD 0
      if 8 < hi - lo then
        let n := (d.port p).badDelay + 1
        let d := d.modPort p fun x => { x with probes := [], badDelay := n }
        if 4 ≤ n then d.retrain p else d.sendCtl p 6 [0]
      else d.enterUp p (((s[31]?).getD 0 + (s[32]?).getD 0) / 4)

/-- ADMISSION_TIMEOUT: the step under way exceeds its limit. -/
def Dev.admissionTimeout (d : Dev) (p : Nat) : Dev :=
  if d.link p = 1 || d.link p = 2 then d.admitFail p stTimeout (d.port p).step else d

/-- BACKOFF_EXPIRED. -/
def Dev.backoffExpired (d : Dev) (p : Nat) : Dev := if d.link p = 6 then d.startTraining p else d

/-- SPARE_SUB: the received lane is replaced by the spare, or the port retrains (R320). -/
def Dev.spareSub (d : Dev) (p lane : Nat) : Dev :=
  let a := portAdd p
  let n := activeLanes p
  if d.link p ≠ 3 || n ≤ lane then d
  else if d.fget F.LNK_STATUS_SPARE_RX a = 0xF && !d.flag F.LNK_LANE_FAILED (a + 8 * n) && !(d.port p).halfRx then
    let d := (d.fset F.LNK_LANE_FAILED 1 (a + 8 * lane)).fset F.LNK_LANE_ACTIVE 0 (a + 8 * lane)
    let d := (d.fset F.LNK_LANE_ACTIVE 1 (a + 8 * n)).fset F.LNK_STATUS_SPARE_RX lane a
    (d.event E.LNK_SPARE_SUB a).sendState p
  else d.retrain p

/-- RETRAIN. -/
def Dev.retrainCmd (d : Dev) (p : Nat) : Dev := if d.link p = 2 || d.link p = 3 || d.link p = 4 then d.retrain p else d

/-- LANE_LOCK_LOSS: the partner's lanes have gone idle; both ends begin again with SEQ 0 (R340). -/
def Dev.laneLockLoss (d : Dev) (p : Nat) : Dev :=
  if d.link p = 2 || d.link p = 3 || d.link p = 4 then
    (d.modPort p fun x => { x with txSeq := 0, rxSeq := 0, replay := [], wait := [], rx := [], nak := false,
                                   txCred := noCredits }).retrain p
  else d

/-- RELEASE: quarantine ends, and admission runs again from step 3; a pending QUARANTINE of the same write wins (R336). -/
def Dev.release (d : Dev) (p : Nat) : Dev :=
  let d := d.fset F.LNK_CTRL_RELEASE 0 (portAdd p)
  if d.link p = 4 then
    let d := (d.modPort p fun x => { x with quarLocal := false, step := 3 }).fset F.LNK_STATUS_QUAR_REMOTE 0 (portAdd p)
    ((d.setLink p 2).sendState p).sendIdentity p
  else d

/-- READMIT: the port retrains (R328). -/
def Dev.readmit (d : Dev) (p : Nat) : Dev := d.retrain p

/-! ## Receiving -/

/-- A misbehaviour is counted; with QUAR_AUTO, more than QUAR_LIMIT within 1,024 ticks quarantine the link (R335). -/
def Dev.misbehave (d : Dev) (p : Nat) (e : Ev) : Dev :=
  let a := portAdd p
  let d := (d.event e a).modPort p fun x =>
    { x with misses := x.misses.filter (fun t => decide (d.now < t + 1024)) ++ [d.now] }
  let lim := d.fget F.LNK_CTRL_QUAR_LIMIT a
  if d.flag F.LNK_CTRL_QUAR_AUTO a && lim != 0 && lim < (d.port p).misses.length && d.link p == 3 then d.quarantine p else d

/-- The header's 16 bytes with its CRC field zero. -/
def frameHeader (f : Frame) : List Byte :=
  let b (x : Bool) (k : Nat) : Nat := if x then 2 ^ k else 0
  leBytes 1 (f.kind.toNat + b f.sched 4 + b f.last 5 + f.vc.toNat * 64) ++
    leBytes 1 (f.units.toNat + f.slot.toNat * 32 + b f.rsv 7) ++ leBytes 2 f.hopSrc.toNat ++ leBytes 2 f.seq.toNat ++
    leBytes 2 f.xfer.toNat ++ leBytes 2 f.poison.toNat ++ leBytes 2 f.void.toNat ++ leBytes 4 0

/-- The frame's CRC-32C over header and payload (Table 13-2). -/
def frameCrc (f : Frame) : Nat := crc32c (frameHeader f ++ f.payload.flatMap rowBytes)

/-- UNITS fits KIND (R322, R323). -/
def frameUnitsOk (f : Frame) : Bool :=
  let n := f.units.toNat
  n == f.payload.length &&
    (match f.kind.toNat with
     | 0 => n == 0
     | 1 | 4 => 1 ≤ n && n ≤ 16
     | _ => n == 1)

/-- The receiver lacks its next SEQ: a CREDIT frame names it (R325, R326). -/
def Dev.sendNak (d : Dev) (p : Nat) : Dev :=
  let x := d.port p
  (d.modPort p fun x => { x with nak := true }).sendCtl p 2 [x.acked, 1, x.rxSeq]

/-- Cumulative acknowledgement (R325). -/
def Dev.sendAck (d : Dev) (p : Nat) : Dev := d.sendCtl p 2 [(d.port p).acked, 0]

/-- Units of one scheduled slot (Table 2-5). -/
def Dev.slotUnits (d : Dev) (p : Nat) : Nat :=
  let n := if d.pw.profile = 0 then 720 else if d.pw.profile = 1 then 736 else 746
  if p < 8 then n else n / 2

/-- The credits of a virtual channel that the partner still holds: given, and not used by what has come in (R327). -/
def Dev.creditLeft (d : Dev) (p vc : Nat) : Nat :=
  let x := d.port p
  (x.given[vc]?).getD 0 + (x.given[vc + 4]?).getD 0 - ((x.used[vc]?).getD 0 + (x.used[vc + 4]?).getD 0)

/-- The buffer class of a bounded DATA frame: that of the transfer it continues, or its header unit names the origin (R348). -/
def Dev.frameClass (d : Dev) (p : Nat) (f : Frame) : Nat :=
  match (d.port p).rx.find? fun r => r.xfer == f.xfer.toNat && !r.sched && r.vc == f.vc.toNat && !r.done with
  | some r => r.cls
  | none => d.arrivalClass p (bits ((f.payload.head?.map (·.toNat)).getD 0) 32 16)

/-- Checks 4 to 6 of R323 for a frame taken in SEQ order, and what Tables 13-6 and 13-7 do with it; `true`: it is delivered. -/
def Dev.admitted (d : Dev) (p : Nat) (f : Frame) : Bool × Dev :=
  let a := portAdd p
  let k := f.kind.toNat
  let x := d.port p
  let st := d.half (portHalf p)
  if x.step ≥ 5 && f.hopSrc.toNat != d.fget F.LNK_PARTNER_FABRIC_ID a then (false, d.misbehave p E.LNK_SRC_DROP)
  else if d.link p = 4 && (k == 1 || k == 4 || k == 5 || k == 8 || k == 9) then
    (false, if x.quarLocal then d.misbehave p E.LNK_SRC_DROP else d)
  else if k = 1 then
    let n := f.units.toNat
    let vc := f.vc.toNat
    let ix := creditIx vc (d.frameClass p f)
    let su := (x.slotUsed[f.slot.toNat]?).getD 0
    if d.link p ≠ 3 then (false, d)
    else if !f.sched && (d.rate p vc == 0 || decide (d.creditLeft p vc < n)) then (false, d.misbehave p E.LNK_OVERRUN)
    else if f.sched && (!bit (d.slotMask p) f.slot.toNat || d.slotUnits p < su + n) then (false, d.misbehave p E.LNK_OVERRUN)
    else
      let d := d.modPort p fun x =>
        if f.sched then { x with slotUsed := x.slotUsed.set f.slot.toNat (su + n) } else { x with used := x.used.set ix ((x.used[ix]?).getD 0 + n) }
      if st = 6 then (false, d.sendCtl p 8 [f.seq.toNat, f.seq.toNat, stBusy])
      else if st = 7 then (false, d.sendCtl p 8 [f.seq.toNat, f.seq.toNat, stPartnerFault])
      else (true, d)
  else if (k = 4 || k = 9) && st = 6 then (false, d.sendCtl p 8 [f.seq.toNat, f.seq.toNat, stBusy])
  else (true, d)

/-- A received frame is checked in the order of R323; `true`: its body takes effect (R321–R327). -/
def Dev.rxFrame (d : Dev) (p : Nat) (f : Frame) : Bool × Dev :=
  let a := portAdd p
  let k := f.kind.toNat
  if !(2 ≤ d.link p && d.link p ≤ 4) then (false, d)
  else
    let d := f.lanes.zipIdx.foldl (fun d e => if e.2 ≤ activeLanes p then d.count F.LNK_LANE_SYM_ERR e.1 (a + 8 * e.2) else d) d
    let d := if f.fec = 1 then d.count F.LNK_FEC_CORRECTED 1 a else d
    if f.fec = 2 then (false, (d.count F.LNK_FEC_UNCORRECTED 1 a).sendNak p) else
    if f.crc.toNat ≠ frameCrc f then (false, (d.event E.LNK_REPLAY a).sendNak p)
    else if 11 ≤ k || f.rsv || !frameUnitsOk f then (false, (d.misbehave p E.LNK_MALFORMED).sendNak p)
    else if !sequenced k then d.admitted p f
    else
      let x := d.port p
      if f.seq.toNat = x.rxSeq then
        let d := d.modPort p fun x => { x with rxSeq := (x.rxSeq + 1) % 65536, nak := false }
        (if d.flag F.LNK_STATUS_SEALED a then d else d.sendAck p).admitted p f
      else if (f.seq.toNat + 65536 - x.rxSeq) % 65536 < 32768 then (false, if x.nak then d else d.sendNak p)
      else (false, d.sendAck p)

/-- The tokens of a DATA frame: kind by the masks, POISON first; VOID and DATA otherwise (R324). -/
def frameTokens (f : Frame) : List Token :=
  f.payload.zipIdx.map fun u =>
    ⟨BitVec.ofNat 3 (if bit f.poison.toNat u.2 then kPoison else if bit f.void.toNat u.2 then kVoid else kData), false, 0, u.1⟩

/-- The tokens join those of their transfer (R324). -/
def Dev.takeData (d : Dev) (p : Nat) (f : Frame) : Dev :=
  let d := d.count F.LNK_RX_UNITS_COUNT f.units.toNat (portAdd p)
  let cls := if f.sched then 0 else d.frameClass p f
  let same (r : RxXfer) : Bool := r.xfer == f.xfer.toNat && r.sched == f.sched && r.vc == f.vc.toNat && !r.done
  d.modPort p fun x =>
    if x.rx.any same then
      { x with rx := x.rx.map fun r => if same r then { r with done := f.last, toks := r.toks ++ frameTokens f } else r }
    else { x with rx := x.rx ++ [⟨f.xfer.toNat, f.sched, f.vc.toNat, cls, f.last, frameTokens f⟩] }

/-- CREDIT_FRAME: everything before the acknowledged SEQ leaves the replay buffer, credits arrive, a NAK replays (R325–R327). -/
def Dev.takeCredit (d : Dev) (p ack : Nat) (nak : Option Nat) (cs : List Nat) : Dev :=
  let x := d.port p
  let known := ack == x.txSeq || x.replay.any fun f => f.seq == ack
  let d := d.modPort p fun x =>
    { x with replay := if known then x.replay.dropWhile fun f => f.seq != ack else x.replay
             txCred := (x.txCred.zipIdx).map fun c => c.1 + (cs[c.2]?).getD 0 }
  let d := match nak with
    | some n => d.replayFrom p n
    | none => d
  d.sendWaiting p (d.port p).wait.length

/-- REPLAY_TIMEOUT. -/
def Dev.replayTimeout (d : Dev) (p : Nat) : Dev :=
  match (d.port p).replay.head? with
  | some f => if d.link p = 3 || d.link p = 4 then d.replayFrom p f.seq else d
  | none => d

/-- STATE_FRAME: the partner's state, device state, width, spare choice and whether it names this device as tally parent; a partner that ends its quarantine sends the port
back to step 3 (R319, R332, R336). -/
def Dev.takeState (d : Dev) (p ps code : Nat) (half : Bool) (spare : Nat) (child : Bool) : Dev :=
  let a := portAdd p
  let d := (d.fset F.LNK_PARTNER_STATE code a).fset F.LNK_STATUS_SPARE_TX spare a
  let d := d.modPort p fun x => { x with halfTx := half, child := child }
  if (d.port p).quarLocal then d.refreshPort p
  else if ps = 5 then
    if d.link p = 3 || d.link p = 4 then ((d.fset F.LNK_STATUS_QUAR_REMOTE 1 a).setLink p 4).setPartner p 5 else d
  else if d.link p = 4 then
    let d := (d.modPort p fun x => { x with step := 3 }).fset F.LNK_STATUS_QUAR_REMOTE 0 a
    (d.setLink p 2).sendIdentity p
  else if d.link p = 3 then d.setPartner p (if ps = 1 && (half || (d.port p).halfRx) then 4 else ps)
  else d

/-! ## Seal batches (R338) -/

/-- SEAL_BATCH_CLOSE: a batch closes 64 core cycles after its first frame; it closes of itself behind its third frame and behind a
STAMP. -/
def Dev.sealBatchClose (d : Dev) (p : Nat) : Dev :=
  if d.flag F.LNK_STATUS_SEALED (portAdd p) && (d.port p).txInBatch != 0 then d.closeBatch p else d

/-- KEY_SWITCH: new keys; the key epoch increments and batches count from 0 again (DEDUCED: 2^40 bounds the batches of one key). -/
def Dev.keySwitch (d : Dev) (p : Nat) : Dev :=
  if d.flag F.LNK_STATUS_SEALED (portAdd p) then
    (d.modPort p fun x => { x with keyEpoch := (x.keyEpoch + 1) % 256, txBatch := 0, rxBatch := 0, txInBatch := 0 }).sendCtl p 5
      [(d.port p).keyEpoch + 1]
  else d

/-- A SEAL frame's tag is verified: the batch it closes is given to `k` in order, or discarded with a NAK of its first SEQ. -/
def Dev.sealFrame (d : Dev) (p : Nat) (tagOk : Bool) (batch epoch count : Nat) (k : Dev → Frame → FrameBody → Dev) : Dev :=
  let x := d.port p
  if !d.flag F.LNK_STATUS_SEALED (portAdd p) then d
  else if tagOk && batch == x.rxBatch && epoch == x.keyEpoch && count == x.batch.length then
    let d := d.modPort p fun x => { x with batch := [], rxBatch := x.rxBatch + 1 }
    x.batch.foldl (fun d b => k d b.1 b.2) (d.sendAck p)
  else
    let d := d.modPort p fun x =>
      { x with batch := []
               rxSeq := match x.batch.find? fun b => sequenced b.1.kind.toNat with
                 | some b => b.1.seq.toNat
                 | none => x.rxSeq }
    (d.misbehave p E.LNK_SEAL_FAIL).sendNak p

/-- A tick on one port: credits for what the partner has used (R327); a STATE frame where the port's partner state or device
state has changed, and every tick of a compute reset or winnow (R339). -/
def Dev.linkTickOne (d : Dev) (p : Nat) : Dev :=
  let d := if d.link p = 3 then d.grant p else d
  if d.linkUp p && (d.half (portHalf p) == 6 || (d.port p).told != (d.selfState p, d.half (portHalf p))) then d.sendState p else d

/-- A tick: the units a VC and a slot may take start anew (R327), and slot 0 begins. -/
def Dev.linkTick (d : Dev) : Dev :=
  let d := (List.range 15).foldl (fun d p => d.linkTickOne p) d
  let d := { d with ports := fmMap d.ports fun _ x => { x with used := noCredits, slotUsed := [0, 0, 0, 0], schedSlots := [] } }
  (List.range 15).foldl (fun d p => d.slotBegins p) d

end Sys2Proof.Machine
end

