-- ==== Sys2Proof/Machine/FabCore.lean ====
section
/-! DEFINITION. The fabric interface as a sender: routes and detours, transfers and their header unit, dynamic requests, send
streams, vote contributions (R342–R364). -/

namespace Sys2Proof.Machine

/-! ## Coordinates and routes (R343–R347) -/

/-- Steps in the + direction along an axis of length l. -/
def plusSteps (l a b : Nat) : Nat := (b + l - a % l) % l

/-- The axes on which two devices differ, with the steps in the + direction and the length. -/
def axisDiffs (axes : List Nat) (a b : Nat) : List (Nat × Nat × Nat) :=
  let ca := coordsOf axes a
  let cb := coordsOf axes b
  (List.range 4).filterMap fun i =>
    let l := (axes[i]?).getD 1
    let n := plusSteps l ((ca[i]?).getD 0) ((cb[i]?).getD 0)
    if n = 0 then none else some (i, n, l)

/-- h(O, D), the hops of a route (R346). -/
def hops (axes : List Nat) (o t : Nat) : Nat :=
  (axisDiffs axes o t).foldl (fun n x => n + min x.2.1 (x.2.2 - x.2.1)) (if rankOf o = rankOf t then 0 else 1)

/-- The port to the device of another rank in the own sheaf (R342). -/
def sheafPort (r other : Nat) : Nat := 8 + (other + 7 - r) % 8

/-- The port a route needs next: the sheaf hop first, then the axes in order, the shorter direction, + where both are equal
(R346). A transfer that travels an axis keeps its direction on it. `none`: this device is the target. -/
def Dev.routeNext (d : Dev) (dst : Nat) (arr : Option Nat) : Option (Nat × Nat) :=
  let me := d.me
  if rankOf me ≠ rankOf dst then some (sheafPort (rankOf me) (rankOf dst), 0)
  else
    match (axisDiffs d.axes me dst).head? with
    | none => none
    | some (a, n, l) =>
      match arr with
      | some q =>
        if q < 8 && q / 2 = a then some (if q % 2 = 0 then q + 1 else q - 1, 0)
        else some (if n ≤ l - n then 2 * a else 2 * a + 1, l)
      | none => some (if n ≤ l - n then 2 * a else 2 * a + 1, l)

/-- The port takes payload: it is UP, its own half is in reach over the bridge, and its partner accepts payload (R21, R22, Table 13-6). -/
def Dev.payloadOk (d : Dev) (p : Nat) : Bool :=
  d.link p == 3 && !(portHalf p && d.eastLost) && (d.partner p == 1 || (d.partner p == 4 && d.fget F.LNK_PARTNER_STATE (portAdd p) != 7))

/-- A choice of port for a transfer: the port, or the status of a refusal; whether it is a detour (R347). -/
structure Route where
  port : Option Nat
  status : Nat
  detour : Bool
  deriving DecidableEq, Repr

/-- The route taken: the port of R346 where it takes payload, the other direction of an axis of length 3 or more where that
one does, and otherwise none (R347). -/
def Dev.route (d : Dev) (dst : Nat) (arr : Option Nat) : Route :=
  match d.routeNext dst arr with
  | none => ⟨none, stPartnerAbsent, false⟩
  | some (p, l) =>
    if d.payloadOk p then ⟨some p, stOk, false⟩
    else
      let q := if p % 2 = 0 then p + 1 else p - 1
      if 3 ≤ l && d.payloadOk q then ⟨some q, stOk, true⟩
      else ⟨none, if d.partner p = 4 && d.fget F.LNK_PARTNER_STATE (portAdd p) = 7 then stPartnerFault else stPartnerAbsent, false⟩

/-- The partner on the arrival port lies on a route from `org` to this device: it is the last hop along the last axis on which
they differ, in the + direction on an axis of length 2, which has no detour, or the sheaf hop from the origin itself (R346, R347, Table
14-3). -/
def Dev.onRoute (d : Dev) (p org : Nat) : Bool :=
  match (axisDiffs d.axes org d.me).getLast? with
  | some (a, _, l) => decide (p < 8) && p / 2 == a && (decide (3 ≤ l) || p % 2 == 1)
  | none => rankOf org != rankOf d.me && p == sheafPort (rankOf d.me) (rankOf org)

/-! ## Transfers -/

/-- The header unit (Table 14-1). -/
def xferUnit (x : Xfer) : Row :=
  BitVec.ofNat 512 (x.op.toNat + x.flags.toNat * 2 ^ 8 + x.tenant.toNat * 2 ^ 16 + x.origin.toNat * 2 ^ 32 +
    x.target.toNat * 2 ^ 48 + x.index.toNat * 2 ^ 64 + x.units.toNat * 2 ^ 96 + x.addr.toNat * 2 ^ 128 +
    x.src.toNat * 2 ^ 192 + x.operand.toNat * 2 ^ 256 + x.compare.toNat * 2 ^ 320 + x.len.toNat * 2 ^ 384 +
    x.status.toNat * 2 ^ 416 + x.rflags.toNat * 2 ^ 424)

/-- The transfer a header unit and the tokens after it spell. -/
def xferOf (ks : List Token) : Xfer :=
  let h := (ks.head?.map (·.payload.toNat)).getD 0
  { op := .ofNat 8 (bits h 0 8), flags := .ofNat 8 (bits h 8 8), tenant := .ofNat 16 (bits h 16 16)
    origin := .ofNat 16 (bits h 32 16), target := .ofNat 16 (bits h 48 16), index := .ofNat 32 (bits h 64 32)
    units := .ofNat 32 (bits h 96 32), addr := .ofNat 48 (bits h 128 48), src := .ofNat 48 (bits h 192 48)
    operand := .ofNat 64 (bits h 256 64), compare := .ofNat 64 (bits h 320 64), len := .ofNat 32 (bits h 384 32)
    status := .ofNat 8 (bits h 416 8), rflags := .ofNat 8 (bits h 424 8)
    rsv := bits h 432 80 != 0 || bits h 176 16 != 0 || bits h 240 16 != 0
    rows := (ks.drop 1).map fun k => (k.payload, k.kind.toNat == kPoison) }

/-- A transfer without content. -/
def Xfer.blank : Xfer :=
  { op := 0, flags := 0, tenant := 0, origin := 0, target := 0, index := 0, units := 0, addr := 0, src := 0, operand := 0,
    compare := 0, len := 0, status := 0, rflags := 0, rsv := false, rows := [] }

/-- Traffic to a target moves onto a detour, or back: the first transfer on a detour is a switch (R347). -/
def Dev.noteDetour (d : Dev) (dst : Nat) (detour : Bool) : Dev :=
  if detour && !d.fab.detours.contains dst then
    { d.event E.FAB_DETOUR with fab := { (d.event E.FAB_DETOUR).fab with detours := d.fab.detours ++ [dst] } }
  else if !detour && d.fab.detours.contains dst then { d with fab := { d.fab with detours := d.fab.detours.erase dst } }
  else d

/-- A bounded transfer goes out toward its target with the frames' XFER and virtual channel; the status where no route
remains. -/
def Dev.sendXfer (d : Dev) (x : Xfer) (xf vc : Nat) (arr : Option Nat) : Option Nat × Dev :=
  let r := d.route x.target.toNat arr
  match r.port with
  | none => (some r.status, d)
  | some p =>
    let x := { x with units := .ofNat 32 x.rows.length }
    (none, (d.noteDetour x.target.toNat r.detour).sendUnits p false vc (d.sendClass p x.origin.toNat) 0 xf ((xferUnit x, false) :: x.rows))

/-- The RESPONSE to a request, back to its origin with the frames' XFER of the request; one that finds no route is lost. -/
def Dev.sendResponse (d : Dev) (x : Xfer) (xf vc : Nat) (arr : Option Nat) (status rflags : Nat) (old : Nat)
    (rows : List (Row × Bool)) : Dev :=
  (d.sendXfer { Xfer.blank with
      op := 8, tenant := x.tenant, origin := .ofNat 16 d.me, target := x.origin, index := x.index
      operand := .ofNat 64 old, status := .ofNat 8 status, rflags := .ofNat 8 rflags, rows } xf vc arr).2

/-! ## Dynamic requests (R354) -/

/-- The virtual channel of a request (Table 10-3). -/
def useVc : ReqUse → Nat
  | .unit _ _ => 0
  | .copy _ _ => 3
  | .escrow _ => 1
  | .stream _ _ => 2

/-- A transfer of a stream. -/
def isStream : ReqUse → Bool
  | .stream _ _ => true
  | _ => false

/-- Requests changed. -/
def Dev.setReqs (d : Dev) (r : FMap Req) : Dev := { d with fab := { d.fab with reqs := r } }

/-- A store, copy or atomic to the target is unanswered, so that its traffic may not move onto a detour (R347). -/
def Dev.bound (d : Dev) (dst tag : Nat) : Bool :=
  d.fab.reqs.any fun p => p.1 != tag && !isStream p.2.use && p.2.x.target.toNat == dst && p.2.x.op != 1#8

/-- A request of the table is sent; it waits where its traffic would have to move onto a detour and may not. -/
def Dev.sendReq (d : Dev) (tag : Nat) : Option Nat × Dev :=
  match fmGet d.fab.reqs tag with
  | none => (none, d)
  | some r =>
    let dst := r.x.target.toNat
    if (d.route dst none).detour && !d.fab.detours.contains dst && d.bound dst tag then
      (none, d.setReqs (fmSet d.fab.reqs tag { r with held := true }))
    else (d.setReqs (fmSet d.fab.reqs tag { r with held := false })).sendXfer r.x (0x8000 + tag % 0x8000) (useVc r.use) none

/-- A dynamic request is issued: the status where it fails at once. -/
def Dev.issue (d : Dev) (x : Xfer) (use : ReqUse) : Option Nat × Dev :=
  let tag := d.fab.nextTag
  let x := { x with index := .ofNat 32 tag, origin := .ofNat 16 d.me }
  let d := d.count F.FAB_REMOTE_ISSUED
  let d := { d with fab := { d.fab with nextTag := (tag + 1) % 2 ^ 32, reqs := fmSet d.fab.reqs tag ⟨x, use, 0, false⟩ } }
  let r := d.sendReq tag
  match r.1 with
  | none => r
  | some st => (some st, r.2.setReqs (fmErase r.2.fab.reqs tag))

/-! ## Send streams (R356–R360) -/

/-- The SCHEDULE items of the image in force of a half. -/
def Dev.schedItems (d : Dev) (h : HalfId) : List (List Byte) :=
  match d.image h with
  | some i => itemsOf i.bytes 11 0xFF 32
  | none => []

/-- A stream item's fields (Table 14-6). -/
def siXfer (i : List Byte) : Nat := leAt i 2 2
def siPeer (i : List Byte) : Nat := leAt i 4 2
def siKey (i : List Byte) : Nat := siPeer i * 65536 + siXfer i
def siSched (i : List Byte) : Bool := leAt i 6 1 == 0
def siUnits (i : List Byte) : Nat := leAt i 8 2
def siBufs (i : List Byte) : Nat := leAt i 10 1
def siFp32 (i : List Byte) : Bool := leAt i 12 1 == 1
def siTile (i : List Byte) : Nat := leAt i 14 2
def siSlotQ (i : List Byte) : Nat := leAt i 16 1
def siDest (i : List Byte) : Nat := leAt i 18 6
def isStreamItem (dir : Nat) (i : List Byte) : Bool := leAt i 0 1 == 0 && leAt i 1 1 == dir

/-- The send item of a writer. -/
def Dev.sendItem (d : Dev) (t s : Nat) : Option (List Byte) :=
  (d.schedItems (tileHalf t)).find? fun i => isStreamItem 0 i && siTile i == t && siSlotQ i == s

/-- A send stream. -/
def Dev.sendS (d : Dev) (key : Nat) : SendS := (fmGet d.fab.sends key).getD SendS.init

/-- A send stream changed. -/
def Dev.modSend (d : Dev) (key : Nat) (f : SendS → SendS) : Dev :=
  { d with fab := { d.fab with sends := fmMod d.fab.sends key SendS.init f } }

/-- The step registers and fabric flags of a half's controller: those of the east half in split tenancy are a second set. -/
def Dev.stepAdd (d : Dev) (h : HalfId) : Nat := if d.split && h then 2 ^ 32 else 0

/-- The step controller of a half's scope. -/
def Dev.stepc (d : Dev) (h : HalfId) : StepS := if d.split && h then d.step1 else d.step0

/-- The pass an output belongs to: of the passes in flight the one admitted first. DESIGN CHOICE: R275 does not say how an output is told
to belong to one of several. -/
def Dev.outputPass (d : Dev) (h : HalfId) : PassId :=
  let r := (d.stepc h).run
  { step := d.fget F.DEV_STEP_NUM_N (d.stepAdd h), index := ((r.bind (·.passes.head?)).map (·.index)).getD 0
    replays := (r.map (·.replays)).getD 0 }

/-- What a transfer carries beside its frames: stream, index, step number, pass index, replay count (R275; Tables 13-3 and 14-1 give
these no place). -/
def Dev.sendPass (d : Dev) (it : List Byte) (t : StreamXf) : Dev :=
  d.emit (.fabric 13 [siKey it, t.idx, t.pass.step, t.pass.index, t.pass.replays])

/-- A bounded transfer of a stream goes out: RESENT on virtual channel 0 after a missed slot, as DMA otherwise (R360, Table
10-3). One that finds no route waits to be sent again (Table 14-4). -/
def Dev.sendStream (d : Dev) (it : List Byte) (t : StreamXf) (resent : Bool) (tag : Nat) : Dev :=
  let x : Xfer :=
    { Xfer.blank with
      flags := .ofNat 8 ((if t.mark.isSome then 1 else 0) + (if resent then 2 else 0))
      tenant := .ofNat 16 tag, origin := .ofNat 16 d.me, target := .ofNat 16 (siPeer it), index := .ofNat 32 t.idx
      operand := .ofNat 64 (t.mark.getD 0), rows := t.rows }
  let r := d.sendXfer x (siXfer it) (if resent then 0 else 2) none
  match r.1 with
  | none => r.2.sendPass it t
  | some _ =>
    let d := r.2
    { d with fab := { d.fab with
        nextTag := (d.fab.nextTag + 1) % 2 ^ 32
        reqs := fmSet d.fab.reqs d.fab.nextTag ⟨x, .stream (siKey it) t.idx, 0, true⟩ } }

/-- The transfer may start: the release of the one BUFS before it is held (R359); a BUFS byte of 0 sets no bound. -/
def SendS.mayStart (x : SendS) (it : List Byte) (idx : Nat) : Bool := siBufs it == 0 || decide (idx < siBufs it + x.released)

/-- Transfers that go by the bounded plane leave as releases allow: every one of a bounded stream, the MARKs, and those of a
scheduled stream that missed their slot. -/
def Dev.pumpStream (d : Dev) (h : HalfId) (it : List Byte) : Nat → Dev
  | 0 => d
  | n + 1 =>
    let key := siKey it
    let x := d.sendS key
    match x.ready.find? fun t => (!siSched it || t.mark.isSome || x.missed.contains t.idx) && x.mayStart it t.idx with
    | none => d
    | some t =>
      let resent := siSched it && t.mark.isNone
      let d := d.modSend key fun x =>
        { x with ready := x.ready.filter (· != t), sent := x.sent ++ [t]
                 missed := if resent then x.missed.filter (· != t.idx) else x.missed }
      (d.sendStream it t resent (d.tagOf h)).pumpStream h it n

/-- A transfer of a stream is ready; a MARK carries the index of the transfer it precedes. -/
def Dev.streamReady (d : Dev) (h : HalfId) (it : List Byte) (mark : Option Nat) (rows : List (Row × Bool)) : Dev :=
  let p := d.outputPass h
  let d := d.modSend (siKey it) fun x =>
    { x with ready := x.ready ++ [⟨x.next, mark, rows, p⟩], next := if mark.isSome then x.next else x.next + 1 }
  d.pumpStream h it (d.sendS (siKey it)).ready.length

/-- The MARK that closes an epoch on a writer's stream (R360). -/
def Dev.streamMark (d : Dev) (t s num : Nat) : Dev :=
  match d.sendItem t s with
  | some it => d.streamReady (tileHalf t) it (some num) []
  | none => d

/-- The step controller of a half's scope changed. -/
def Dev.modStep (d : Dev) (h : HalfId) (f : StepS → StepS) : Dev :=
  if d.split && h then { d with step1 := f d.step1 } else { d with step0 := f d.step0 }

/-- The run of a half's scope changed. -/
def Dev.modRun (d : Dev) (h : HalfId) (f : RunS → RunS) : Dev := d.modStep h fun s => { s with run := s.run.map f }

/-- Ticks since S_a. -/
def Dev.attemptTick (d : Dev) (h : HalfId) : Option Nat :=
  match (d.stepc h).run.bind (·.sa) with
  | some s => if s ≤ d.now then some (d.now - s) else none
  | none => none

/-- Occurrences of a slot item before tick `r`, and whether one falls in it (Table 14-7). -/
def occurrences (i : List Byte) (r : Nat) : Nat × Bool :=
  let f := leAt i 8 4
  let p := leAt i 12 4
  let n := leAt i 16 4
  if p = 0 then (if f < r then min 1 n else 0, f == r && n != 0)
  else
    (if r ≤ f then 0 else min n ((r - f + p - 1) / p), decide (f ≤ r) && (r - f) % p == 0 && decide ((r - f) / p < n))

/-- A slot item of a slot and port, with an occurrence in attempt tick `r` (Table 14-7). -/
def slotItemNow (p slot r : Nat) (i : List Byte) : Bool :=
  leAt i 0 1 == 1 && leAt i 1 1 == slot && leAt i 2 1 == p && (occurrences i r).2

/-- The transfer index that an occurrence of slot item `si` (with its place in the section) in tick `r` carries: the occurrences of
its stream's slot items before it, in this tick by slot and then by place (R357). -/
def slotIndex (items : List (List Byte × Nat)) (si : List Byte × Nat) (r : Nat) : Nat :=
  let b (i : List Byte) (o n : Nat) : Nat := leAt i o n
  items.foldl (fun n i =>
    if b i.1 0 1 = 1 && b i.1 2 1 = b si.1 2 1 && b i.1 4 2 = b si.1 4 2 then
      let o := occurrences i.1 r
      n + o.1 + (if o.2 && (b i.1 1 1 < b si.1 1 1 || (b i.1 1 1 = b si.1 1 1 && i.2 < si.2)) then 1 else 0)
    else n) 0

/-- One slot item at the first payload cycle of its slot: the transfer whose occurrence this is begins, or it has missed its slot and
goes to the bounded plane when it is ready (R53, R357, R359). -/
def Dev.slotItem (d : Dev) (h : HalfId) (items : List (List Byte)) (p slot r : Nat) (si : List Byte × Nat) : Dev :=
  match items.find? fun i => isStreamItem 0 i && siSched i && siXfer i == leAt si.1 4 2 && leAt i 7 1 == p with
  | none => d
  | some it =>
    let k := slotIndex items.zipIdx si r
    let key := siKey it
    let x := d.sendS key
    let ok := d.schedEn && d.flag F.LNK_STATUS_SCHED_OK (portAdd p) && x.mayStart it k
    match x.ready.find? fun t => t.idx == k && t.mark.isNone with
    | some t =>
      if ok then
        (((d.modSend key fun x => { x with ready := x.ready.filter (· != t), sent := x.sent ++ [t] }).modPort p fun x =>
          { x with schedSlots := x.schedSlots ++ [slot] }).sendUnits p true 0 0 slot (siXfer it) t.rows).sendPass it t
      else (d.modSend key fun x => { x with missed := x.missed ++ [k] }).pumpStream h it (x.ready.length + 1)
    | none => if k < x.next then d else d.modSend key fun x => { x with missed := x.missed ++ [k] }

/-- SCHEDULED_SLOT: the first payload cycle of a slot on a port: every slot item of that slot and port with an occurrence in this
tick (R49, R53). -/
def Dev.scheduledSlot (d : Dev) (p slot : Nat) : Dev :=
  let h := portHalf p
  if d.fget F.TAL_PHASE_CYCLE ≠ slot * (d.cyclesPerTick / 4) then d else
  match d.attemptTick h with
  | none => d
  | some r =>
    let items := d.schedItems h
    (items.zipIdx.filter fun i => slotItemNow p slot r i.1).foldl (fun d si => d.slotItem h items p slot r si) d

/-- STREAM_RELEASE: the release of a transfer lets later ones start (R359). -/
def Dev.streamRelease (d : Dev) (peer xfer k : Nat) : Dev :=
  let key := peer * 65536 + xfer
  let x := d.sendS key
  if k = x.released && x.sent.any (·.idx == k) then
    let d := d.modSend key fun x => { x with released := k + 1, sent := x.sent.filter (·.idx != k) }
    [false, true].foldl (fun d h =>
      match (if h && !d.split then [] else d.schedItems h).find? fun i => isStreamItem 0 i && siKey i == key with
      | some it => d.pumpStream h it (d.sendS key).ready.length
      | none => d) d
  else d

/-- A receive stream. -/
def Dev.recvS (d : Dev) (key : Nat) : RecvS := (fmGet d.fab.recvs key).getD RecvS.init

/-- A receive stream changed. -/
def Dev.modRecv (d : Dev) (key : Nat) (f : RecvS → RecvS) : Dev :=
  { d with fab := { d.fab with recvs := fmMod d.fab.recvs key RecvS.init f } }

/-- The freed credit of a completion queue tells its interface that a token has left, and the release of its transfer goes to
the sender (R359). -/
def Dev.creditBack (d : Dev) (t q : Nat) : Dev :=
  if (d.queue t q).freed = 0 then d else
  let d := d.creditReturn t q
  match (d.schedItems (tileHalf t)).find? fun i =>
      isStreamItem 1 i && siTile i == t && siSlotQ i == q && !(d.recvS (siKey i)).queued.isEmpty with
  | none => d
  | some i =>
    let x := d.recvS (siKey i)
    let mark := x.queued.headD false
    let d := d.modRecv (siKey i) fun x => { x with queued := x.queued.drop 1, released := if mark then x.released else x.released + 1 }
    if mark then d else d.emit (.fabric 3 [siPeer i, siXfer i, x.released])

/-! ## Votes (R363, R364) -/

/-- A vote's ID (Table 14-10). -/
def voteId (kind mid high attempt : Nat) : Nat := kind + mid % 256 * 16 + high % 256 * 4096 + attempt % 4096 * 1048576

/-- The device contributes to a vote. -/
def Dev.contribute (d : Dev) (tag id size : Nat) (vand or0 or1 : Bool) : Dev :=
  let e : VoteEntry :=
    { tenant := .ofNat 16 tag, id := .ofNat 32 id, count := 1, size := .ofNat 24 size, vand, or0, or1, result := false, tick := 0 }
  { d with fab := { d.fab with votes := d.fab.votes ++ [e] } }

/-- The result of a vote, if it has arrived. -/
def Dev.fabResult (d : Dev) (tag id : Nat) : Option VoteEntry :=
  d.fab.results.find? fun e => e.tenant.toNat == tag && e.id.toNat == id

end Sys2Proof.Machine
end

