-- ==== Sys2Proof/Machine/Image.lean ====
section
/-! DEFINITION. Stage requests, configuration messages, the MARK wave and unit
swaps (R148–R158). -/

namespace Sys2Proof.Machine

/-! ## Stage requests -/

/-- The 32-byte messages of a record (R256): ⌈L / 32⌉ of them, one for an empty record, the last padded. -/
def recordMsgs (t s n : Nat) (epoch : Bool) (r : List Byte) : List CfgMsg :=
  let c := max 1 ((r.length + 31) / 32)
  (List.range c).map fun i =>
    let b := bytesAt r (32 * i) 32
    ⟨cfgHead t s n epoch i c, b ++ List.replicate (32 - b.length) 0#8⟩

/-- The slots that configuration n or the configuration in force occupies, in order: those of n first (DEDUCED: in R148's "every slot of
every tile that configuration n or the configuration in force occupies" it is the slot that is occupied, as a unit occupies one slot in
R107; a slot that neither occupies gets no message). -/
def stagedSlots (b : List Byte) (n prev : Nat) : List (Nat × Nat) :=
  let a := (placements b n).map fun p => (p.tile, p.slot)
  a ++ ((placements b prev).map fun p => (p.tile, p.slot)).filter fun x => !a.contains x

/-- A stage request is legal: n names a configuration other than the current one (R148). -/
def Dev.mayStage (d : Dev) (h : HalfId) (n : Nat) : Bool :=
  match d.image h with
  | some i => decide (n < configCount i.bytes) && n != i.cur
  | none => false

/-- Configuration n becomes current, and its records are sent (R148). -/
def Dev.stage (d : Dev) (h : HalfId) (n : Nat) : Dev :=
  match d.image h with
  | none => d
  | some i =>
    let ep := !i.epoch
    let ms := (stagedSlots i.bytes n i.cur).flatMap fun p =>
      recordMsgs p.1 p.2 n ep
        (match (placements i.bytes n).find? fun x => x.tile == p.1 && x.slot == p.2 with
         | some x => recordOf i.bytes n x
         | none => [])
    let d := d.setImage h (some { i with cur := n, epoch := ep, prev := i.cur })
    { d with net := { d.net with cfg := d.net.cfg ++ ms } }

/-! ## Field registers -/

/-- SITE, INST, SHAPE, COUNT, CFG, EXT, RUN_Q, SCALE_Q of a field configuration (Table 6-8). -/
def Cfg.field (c : Cfg) (i n : Nat) : Nat := leAt c.extra i n
def Cfg.site (c : Cfg) : Nat := c.field 0 1
def Cfg.inst (c : Cfg) : Nat := c.field 1 1
def Cfg.shape (c : Cfg) : Nat := c.field 2 1
def Cfg.icfg (c : Cfg) : Nat := c.field 4 8
def Cfg.iext (c : Cfg) : Nat := c.field 12 8

/-- The fields of FLD_INST_CFG and FLD_INST_EXT. -/
def instFields : List Fld :=
  [F.FLD_INST_CFG_SFMT, F.FLD_INST_CFG_MFMT, F.FLD_INST_CFG_PAIR, F.FLD_INST_CFG_ROW_SCALE, F.FLD_INST_CFG_OUT_FMT,
   F.FLD_INST_CFG_SLIDE, F.FLD_INST_CFG_SLIDE_K]

/-- An instance's FLD_ registers take a configuration's values (R105). -/
def Dev.fieldRegs (d : Dev) (c : Cfg) : Dev :=
  let a := siteAdd c.site
  let d := (d.fset F.FLD_CFG_SHAPE c.shape a).fset F.FLD_CFG_INST_COUNT (c.field 3 1) a
  let d := instFields.foldl (fun d f => d.fset f (bits c.icfg f.lo f.w) (a + 8 * c.inst)) d
  (d.fset F.FLD_INST_EXT_ROW_EXT (bits c.iext 0 10) (a + 8 * c.inst)).fset F.FLD_INST_EXT_COL_EXT (bits c.iext 16 13)
    (a + 8 * c.inst)

/-- An instance leaves: its registers read as zero, and the site runs no field when none is left. -/
def Dev.fieldGone (d : Dev) (c : Cfg) : Dev :=
  let a := siteAdd c.site
  let d := instFields.foldl (fun d f => d.fset f 0 (a + 8 * c.inst)) d
  let d := (d.fset F.FLD_INST_EXT_ROW_EXT 0 (a + 8 * c.inst)).fset F.FLD_INST_EXT_COL_EXT 0 (a + 8 * c.inst)
  let d := { d with insts := fmMap d.insts fun k i => if k = c.site * 64 + c.inst then { i with held := false, run := none } else i }
  if d.insts.any fun p => p.1 / 64 == c.site && p.2.held then d
  else (d.fset F.FLD_CFG_SHAPE 0 a).fset F.FLD_CFG_INST_COUNT 0 a

/-- An instance before its first run. -/
def Inst.init (t s : Nat) : Inst :=
  { tile := t, slot := s, held := false, shape := 7, count := 0, fmts := 0, run := none, blocks := [], acc := [], feed := [], skip := [],
    slide := [] }

/-- The instance of a field configuration. -/
def Dev.inst (d : Dev) (c : Cfg) (t s : Nat) : Inst := (fmGet d.insts (c.site * 64 + c.inst)).getD (Inst.init t s)

/-- The instance is held by a slot other than s of tile t. -/
def Dev.heldElsewhere (d : Dev) (t s : Nat) (c : Cfg) : Bool :=
  match fmGet d.insts (c.site * 64 + c.inst) with
  | some i => i.held && (i.tile != t || i.slot != s)
  | none => false

/-- A matrix unit's slot takes configuration `c` in the place of `old`; the instance's accumulator rows carry over, from whichever slot
held it, unless the shape, the count or the formats change: SFMT, MFMT and PAIR (DESIGN CHOICE: OUT_FMT is no format of the rows)
(R106). -/
def Dev.fieldTake (d : Dev) (t s : Nat) (old c : Option Cfg) : Dev :=
  let d := match old with
    | some o => if o.cls = 0 then d.fieldGone o else d
    | none => d
  match c with
  | none => d
  | some c =>
    if c.cls ≠ 0 then d else
    let i := d.inst c t s
    let same := i.shape == c.shape && i.count == c.field 3 1 && i.fmts == bits c.icfg 0 9
    let i := { i with
      tile := t, slot := s, held := true, shape := c.shape, count := c.field 3 1, fmts := bits c.icfg 0 9
      acc := if same then i.acc else [] }
    let d := { d with insts := fmSet d.insts (c.site * 64 + c.inst) i }
    (d.fieldRegs c).fsetB F.FLD_STATUS_EPOCH (d.slot t s).epoch (siteAdd c.site)

/-! ## The wave -/

/-- A queue that becomes live: at the first swap of its producer or consumer its expected epoch becomes the epoch that unit
takes, and it expects SEQ 0 (R155). -/
def Dev.openQueue (d : Dev) (e : Bool) (p : Nat × Nat) : Dev :=
  let y := d.queue p.1 p.2
  if y.epoch = e then d else d.setQueue p.1 p.2 { y with epoch := e, seq := 0 }

/-- The queues a configuration makes live for a slot: its inputs and its outputs. -/
def Cfg.queues (c : Cfg) (t : Nat) : List (Nat × Nat) := (c.ins.filterMap id).map (fun q => (t, q)) ++ c.outs.filterMap id

/-- A slot that holds a configuration's state: a fresh firing state, and for a control-core operator its ENTRY (R153, R185,
R214). -/
def slotTake (c : Option Cfg) (epoch : Bool) : Slot :=
  { Slot.init with
    active := c
    epoch := epoch
    cc := { CcCtx.init with pc := match c with
      | some c => if c.cls = 4 then leAt c.body 0 4 else 0
      | none => 0 } }

/-- A queue is live in the old configuration at another slot, which has not swapped yet (R155). -/
def Dev.liveBefore (d : Dev) (t s : Nat) (epoch : Bool) (q : Nat × Nat) : Bool :=
  d.slots.any fun p => p.1 != slotKey t s && p.2.epoch != epoch && (match p.2.active with
    | some a => (a.queues (p.1 / 32)).contains q
    | none => false)

/-- The slot takes its shadow: a queue that was not live before begins a new epoch, and the unit fires from the next cycle on
(R153–R155). -/
def Dev.takeShadow (d : Dev) (t s : Nat) (epoch : Bool) : Dev :=
  let x := d.slot t s
  match x.shadow with
  | none => d
  | some n =>
    let c := if n.cls = 255 then none else some n
    let oldq := match x.active with
      | some a => a.queues t
      | none => []
    let d := (d.setSlot t s { slotTake c epoch with swapped := true, halo := x.halo }).modTile t fun y => { y with portTurn := 0 }
    let d := match c with
      | some c => ((c.queues t).filter fun q => !oldq.contains q && !d.liveBefore t s epoch q).foldl (fun (d : Dev) q => d.openQueue epoch q) d
      | none => d
    d.fieldTake t s x.active c

/-- Every firing of the old configuration has written its outputs; a walk or program has ended (R153, R154, R106). -/
def Dev.drained (d : Dev) (t s : Nat) (x : Slot) (c : Cfg) : Bool :=
  match c.cls with
  | 0 => (d.inst c t s).run.isNone
  | 1 => x.vx.done.isEmpty && !((d.tile t).groups.any fun g => g.2.slot == s)
  | 2 | 3 => x.walk.isNone && (!c.live.isEmpty || x.walked)
  | 4 => x.cc.ended || (x.cc.wait == .none && !x.cc.faulted && !c.live.isEmpty &&
      (let w := leAt (d.tile t).code x.cc.pc 4
       bits w 0 8 == 0x40 && x.closed.contains (bits w 18 14)))
  | _ => true

/-- The queue whose MARK named another configuration than n. -/
def Slot.wrongMark (x : Slot) (c : Cfg) (n : Nat) : Nat :=
  match (x.closed.zip x.marks).find? fun p => p.2 != n with
  | some p => (c.inq p.1).getD 0xFF
  | none => 0xFF

/-- UNIT_SWAP (R153, R154); a field also waits until no other slot holds its instance (R106). -/
def Dev.unitSwap (d : Dev) (t s : Nat) : Dev :=
  let x := d.slot t s
  match x.active, x.shadow with
  | some c, some n =>
    let outs := (List.range c.outs.length).filter fun o => ((c.outs[o]?).getD none).isSome
    if c.live.all (x.closed.contains ·) && !x.fired && d.drained t s x c && outs.all (d.credit c) &&
        !(n.cls == 0 && d.heldElsewhere t s n) then
      if x.marks.all (· == n.num) then
        let d := outs.foldl (fun d o => d.putOut t s c o kMark (BitVec.ofNat 512 n.num)) d
        let d := if c.cls = 3 then d.streamMark t s n.num else d
        d.takeShadow t s (!x.epoch)
      else d.epochFault t s (x.wrongMark c n.num) 4
    else d
  | _, _ => d

/-- A slot that is empty, or a unit without live inputs whose program has ended, swaps as soon as its shadow is ready
(R154). -/
def Dev.autoSwap (d : Dev) (t s : Nat) : Dev :=
  let x := d.slot t s
  match x.active with
  | none => if (x.shadow.map fun n => n.cls == 0 && d.heldElsewhere t s n).getD false then d else d.takeShadow t s x.partEpoch
  | some c => if c.live.isEmpty then d.unitSwap t s else d

/-- CONFIG_MESSAGE: the oldest message on its way to tile t arrives (R149). -/
def Dev.configMessage (d : Dev) (t : Nat) : Dev :=
  match d.net.cfg.find? fun m => m.tile == t with
  | none => d
  | some m =>
    let d := { d with net := { d.net with cfg := d.net.cfg.erase m } }
    let x := d.slot t m.slot
    if x.shadow.isSome || (x.active.isSome && m.epoch == x.epoch) then d.epochFault t m.slot 0xFF 3
    else
      let ps := if m.index = 0 then [(0, m.body)] else fmSet x.parts m.index m.body
      let x := { x with parts := ps, partNum := m.num, partEpoch := m.epoch }
      if ps.length < m.count then d.setSlot t m.slot x
      else
        let body := ps.flatMap (·.2)
        let x := { x with parts := [], shadow := some (cfgOf m.num (if m.count = 1 then [] else body)) }
        (d.setSlot t m.slot x).autoSwap t m.slot

/-- MARK_ARRIVAL (R151). -/
def Dev.markArrival (d : Dev) (t q : Nat) (k : Option Token) : Dev :=
  let mark : Bool := match k with
    | some k => k.kind.toNat == kMark
    | none => ((d.queue t q).flight.head?.map fun k => k.kind.toNat == kMark).getD false
  if mark then d.tokenArrival t q k else d

/-- INPUT_CLOSE: a MARK at the head of a live input is removed and closes it (R152). -/
def Dev.inputClose (d : Dev) (t s i : Nat) : Dev :=
  let x := d.slot t s
  match x.active with
  | none => d
  | some c =>
    match d.head t c i with
    | none => d
    | some k =>
      if k.kind.toNat = kMark && !x.closed.contains i then
        (d.popIn t c i).setSlot t s { x with closed := x.closed ++ [i], marks := x.marks ++ [bits k.payload.toNat 0 8] }
      else d

/-- STAGE comes to its start (R148): a number out of range, or the current configuration, fails. -/
def Dev.stageCmd (d : Dev) (h : HalfId) (seq : Nat) : Dev :=
  d.begin h seq 0x03 fun d e =>
    let n := e.arg 24 1
    match d.image h with
    | none => d.finish h seq stWrongState
    | some i =>
      if configCount i.bytes ≤ n then d.finish h seq stCountRange
      else if n = i.cur then d.finish h seq stWrongState
      else (d.stage h n).finish h seq stOk

end Sys2Proof.Machine
end

