-- ==== Sys2Proof/Machine/Window.lean ====
section
/-! DEFINITION. The window pool (R231–R235), stack errors that await recovery (R239), the scrub (R230). -/

namespace Sys2Proof.Machine

/-- An uncorrectable stack word: its ingot awaits a refetch and the pass is to be abandoned (R239, R242). -/
def Dev.stackLost (d : Dev) (a : Nat) (win : Option (Nat × Nat)) : Dev :=
  let g := a / 4096 * 4096
  let d := d.sbLog 0x0020 2 [d.stackOf a, (d.stackMap a).2.1, a, 0]
  let d := if d.refetch.any fun p => p.1 == g then d else { d with refetch := d.refetch ++ [(g, win)] }
  d.passFault (stackHalf (d.stackOf a)) 5

/-- A word read by a consumer; a stack word found uncorrectable starts R239. -/
def Dev.readWordR (d : Dev) (a : Nat) (e : RdErr) : (Word × Bool) × Dev :=
  let bad := decide (a < 0xA000000000) && d.uncorrectable a e
  let r := d.readWord a e
  (r.1, if bad then r.2.stackLost a none else r.2)

/-- F, the frames of a slice's window (R231). -/
def Tile.frames (x : Tile) : Nat := x.window / 4096

/-- The scope that owns a half: the whole device, or the half in split tenancy. -/
def Dev.halfScope (d : Dev) (h : HalfId) : Scope := if d.split then (if h then .east else .west) else .whole

/-- The entries of a slice in a state. -/
def Tile.inState (x : Tile) (st : Nat) : Nat := (x.win.filter fun p => p.2.state == st).length

/-- The status of a window request, in the order of R232. -/
def Dev.winCheck (d : Dev) (t src h n : Nat) : Nat :=
  let x := d.tile t
  if (fmGet x.win h).isSome then stWrongState
  else if x.inState 1 = 4 then stNoResource
  else if x.frames < n then stCountRange
  else if n != 0 && !d.tenantRange (d.halfScope (tileHalf t)) (src * 4096) (n * 4096) then stLenRange
  else stAccepted

/-- A write to TIL_WIN_CMD (R232). -/
def Dev.winCmd (d : Dev) (t v : Nat) : Dev :=
  let src := bits v 0 28
  let h := bits v 28 8
  let n := bits v 36 10
  let uses := bits v 46 16
  let st := d.winCheck t src h n
  let d := d.fset F.TIL_WIN_STATUS_LAST_STATUS st (tileAdd t)
  if st ≠ stAccepted then d.event E.TIL_MEM_WIN_REFUSED (tileAdd t)
  else if n = 0 && uses = 0 then d
  else d.modTile t fun x =>
    { x with
      win := fmSet x.win h ⟨if n = 0 then 3 else 1, 0, n, uses, x.winPlaced % 65536, src * 4096⟩
      winOrder := if n = 0 then x.winOrder else x.winOrder ++ [h] }

/-- The frames [s, s + n) are free of placed entries. -/
def Tile.framesFree (x : Tile) (s n : Nat) : Bool :=
  x.win.all fun p => p.2.state < 2 || p.2.ingots = 0 || p.2.frame + p.2.ingots ≤ s || s + n ≤ p.2.frame

/-- The placed entries in age order. -/
def Tile.placed (x : Tile) : List Nat :=
  x.winOrder.filter fun h => match fmGet x.win h with
    | some e => decide (2 ≤ e.state)
    | none => false

/-- Released entries leave from the oldest on until the frames are free (R233); `true`: they are. -/
def Tile.evict (x : Tile) (s n : Nat) : Nat → Tile × Bool
  | 0 => (x, x.framesFree s n)
  | k + 1 =>
    if x.framesFree s n then (x, true) else
    match x.placed with
    | [] => (x, false)
    | h :: _ =>
      match fmGet x.win h with
      | some e =>
        if e.state = 3 && e.remain = 0 then
          Tile.evict { x with win := fmErase x.win h, winOrder := x.winOrder.erase h } s n k
        else (x, false)
      | none => (x, false)

/-- WINDOW_PLACE: the oldest PENDING entry (R233). -/
def Dev.windowPlace (d : Dev) (t : Nat) : Dev :=
  let x := d.tile t
  match x.winOrder.find? fun h => ((fmGet x.win h).map (·.state == 1)).getD false with
  | none => d
  | some h =>
    match fmGet x.win h with
    | none => d
    | some e =>
      let s := if x.frames < x.winHead + e.ingots then 0 else x.winHead
      let r := x.evict s e.ingots 256
      d.modTile t fun _ =>
        if r.2 then
          { r.1 with win := fmSet r.1.win h { e with state := 2, frame := s }
                     winHead := s + e.ingots, winPlaced := r.1.winPlaced + 1 }
        else r.1

/-- The window's base in the local map. -/
def Dev.windowBase (d : Dev) (t : Nat) : Nat := sliceBase t + (d.tile t).stash

/-- Words copied one after another, poison as poison; the addresses of those found uncorrectable. -/
def Dev.copyWords (d : Dev) (src dst : Nat) : Nat → List RdErr → List Nat × Dev
  | 0, _ => ([], d)
  | n + 1, es =>
    let e := es.headD .none
    let r := d.readWord src e
    let q := (if r.1.2 then r.2.pokePoison dst else r.2.poke dst (leBytes 8 r.1.1.toNat)).copyWords (src + 8) (dst + 8) n (es.drop 1)
    (if d.uncorrectable src e then src :: q.1 else q.1, q.2)

/-- WINDOW_LOAD_DONE: the entry's rows are in its frames; VALID, or BAD where a word was found uncorrectable (R233, R239). -/
def Dev.windowLoadDone (d : Dev) (t h : Nat) (es : List RdErr) : Dev :=
  match fmGet (d.tile t).win h with
  | none => d
  | some e =>
    if e.state ≠ 2 then d else
    let r := d.copyWords e.src (d.windowBase t + 4096 * e.frame) (512 * e.ingots) es
    let d := r.2.modTile t fun x => { x with win := fmSet x.win h { e with state := if r.1.isEmpty then 3 else 4 } }
    if r.1.isEmpty then d
    else r.1.foldl (fun d a => d.stackLost a (some (t, h))) (d.event E.TIL_MEM_WIN_BAD (tileAdd t))

/-- A write to TIL_WIN_REL (R234). -/
def Dev.winRel (d : Dev) (t v : Nat) : Dev :=
  let h := bits v 0 8
  let n := bits v 8 16
  if n = 0 then d else
  match fmGet (d.tile t).win h with
  | none => d.event E.TIL_MEM_WIN_MISUSE (tileAdd t)
  | some e =>
    if e.state = 1 then d.event E.TIL_MEM_WIN_MISUSE (tileAdd t)
    else
      let d := if e.remain < n then d.event E.TIL_MEM_WIN_MISUSE (tileAdd t) else d
      let r := e.remain - n
      d.modTile t fun x =>
        { x with win := if e.ingots = 0 && r = 0 then fmErase x.win h else fmSet x.win h { e with remain := r } }

/-- A scrub reads a word; a corrected word is written back unless another write has reached it meanwhile (`drop`; R230). -/
def Dev.scrubWord (d : Dev) (k a : Nat) (e : RdErr) (drop : Bool) : Dev :=
  let w := d.fget F.STK_WR_BYTES_COUNT (stackAdd k)
  let d := (d.readWordR a e).2
  if drop && e == .single then d.fset F.STK_WR_BYTES_COUNT w (stackAdd k) else d

/-- STACK_SCRUB: a pass over a stack begins where none is in progress and PERIOD is nonzero; the pass in progress, whatever PERIOD has
become, ends with every word of the stack read, `es` naming those that met an error (R230, Table 9-20). -/
def Dev.stackScrub (d : Dev) (k : Nat) (es : List (Nat × RdErr × Bool)) : Dev :=
  let sa := stackAdd k
  if d.eastLost && decide (4 ≤ k) then d
  else if !d.flag F.STK_STATUS_SCRUB_ACTIVE sa then
    if d.fget F.STK_SCRUB_PERIOD sa = 0 || !d.flag F.STK_STATUS_TRAINED sa then d else d.fset F.STK_STATUS_SCRUB_ACTIVE 1 sa
  else
    let es := es.filter fun p => decide (p.1 < 0xA000000000) && d.stackOf p.1 == k
    let ps := d.poison.filterMap fun p =>
      if decide (8 * p.1 < 0xA000000000) && d.stackOf (8 * p.1) == k && !es.any (fun q => q.1 / 8 == p.1) then some (8 * p.1) else none
    let d := es.foldl (fun (d : Dev) p => d.scrubWord k p.1 p.2.1 p.2.2) d
    let d := ps.foldl (fun (d : Dev) a => d.scrubWord k a .none false) d
    (d.count F.STK_RD_BYTES_COUNT (85899345920 - 8 * (es.length + ps.length)) sa).fset F.STK_STATUS_SCRUB_ACTIVE 0 sa

end Sys2Proof.Machine
end

