-- ==== Sys2Proof/Machine/Stream.lean ====
section
/-! DEFINITION. Stream engines: descriptors, walks, extents and skipped tiles, readers and writers, the till (R159–R183). -/

namespace Sys2Proof.Machine

/-! ## Descriptors (Table 7-1) -/

/-- A field of a STREAM descriptor. -/
def Cfg.sd (c : Cfg) (o n : Nat) : Nat := leAt c.extra o n
def Cfg.engine (c : Cfg) : Nat := c.sd 3 1
def Cfg.levels (c : Cfg) : Nat := c.sd 4 1
def Cfg.isGlobal (c : Cfg) : Bool := bit (c.sd 6 1) 0
def Cfg.causal (c : Cfg) : Bool := bit (c.sd 6 1) 1
def Cfg.fieldFeed (c : Cfg) : Bool := bit (c.sd 6 1) 2
def Cfg.voidSkip (c : Cfg) : Bool := bit (c.sd 6 1) 3
def Cfg.sched (c : Cfg) : Bool := bit (c.sd 6 1) 4
def Cfg.baseAddr (c : Cfg) : Nat := c.sd 8 8
def Cfg.lcount (c : Cfg) (l : Nat) : Nat := c.sd (16 + 8 * l) 4
def Cfg.lstride (c : Cfg) (l : Nat) : Int := toIntN 32 (c.sd (20 + 8 * l) 4)
where toIntN (w x : Nat) : Int := if 2 ^ (w - 1) ≤ x then (x : Int) - 2 ^ w else x
/-- A level named at a byte; `none` for 0xFF. -/
def Cfg.lvl (c : Cfg) (o : Nat) : Option Nat := if c.sd o 1 = 0xFF then none else some (c.sd o 1)
def Cfg.tm (c : Cfg) : Option Nat := c.lvl 68
def Cfg.tmi (c : Cfg) : Option Nat := c.lvl 69
def Cfg.tn (c : Cfg) : Option Nat := c.lvl 70
def Cfg.tni (c : Cfg) : Option Nat := c.lvl 71
def Cfg.red (c : Cfg) : Option Nat := c.lvl 72
def Cfg.tileM (c : Cfg) : Nat := c.sd 80 4
def Cfg.tileN (c : Cfg) : Nat := c.sd 84 4
def Cfg.diag (c : Cfg) : Int := Cfg.lstride.toIntN 32 (c.sd 88 4)
def Cfg.outPerRow (c : Cfg) : Nat := c.sd 92 4

/-- The output port with a role: 0 DATA, 1 RUN, 2 VOID, 3 SEL, 4 INFO. -/
def Cfg.portOf (c : Cfg) (role : Nat) : Option Nat := (List.range 4).find? fun p => c.sd (64 + p) 1 == role

/-- The input that is START, and the one that is GATE (R163): a writer numbers them after its data input. -/
def Cfg.startIn (c : Cfg) : Nat := if c.cls = 3 then 1 else 0
def Cfg.gateIn (c : Cfg) : Nat := c.startIn + 1
def Cfg.hasStart (c : Cfg) : Bool := (c.inq c.startIn).isSome
def Cfg.hasGate (c : Cfg) : Bool := (c.inq c.gateIn).isSome

/-- The walk has tiles to skip. -/
def Cfg.tiled (c : Cfg) : Bool := c.tm.isSome || c.tn.isSome

/-- The highest tile level. -/
def Cfg.hiTile (c : Cfg) : Nat := max (c.tm.getD 0) (c.tn.getD 0)

/-! ## Addresses and bounds (R160, R162, R164) -/

/-- BASE + adjustment + Σ i_l × STRIDE_l; of a global walk, over bits [47:0] (R160). -/
def Cfg.rowAddr (c : Cfg) (adj : Int) (idx : List Nat) : Int :=
  let b : Int := if c.isGlobal then (bits c.baseAddr 0 48 : Nat) else (c.baseAddr : Nat)
  (List.range c.levels).foldl (fun a l => a + ((idx[l]?).getD 0 : Nat) * c.lstride l) (b + adj)

/-- A row may lie at an address of this device's map (Table 7-2). `half`: the target half of a half image; `slice`: the slice a
walk starts in, with its unassigned bytes left out. -/
def rowAllowed (isGlobal : Bool) (half : Option HalfId) (slice : Option (Nat × Nat)) (a : Int) : Bool :=
  if a < 0 then false else
  match place a.toNat with
  | .stack => isGlobal || (slice.isNone && (match half with | some h => h == decide (0x5000000000 ≤ a.toNat) | none => true))
  | .scratch t o =>
    isGlobal || (match slice with
      | some (st, n) => t == st && decide (o + 64 ≤ n)
      | none => half.isNone)
  | _ => false

/-- Two rows bound a span without a hole: both in one region. -/
def sameRegion (a b : Int) : Bool :=
  0 ≤ a && 0 ≤ b &&
    match place a.toNat, place b.toNat with
    | .stack, .stack => decide ((a.toNat < 0x4E80000000) = (b.toNat < 0x4E80000000))
    | .scratch t _, .scratch u _ => t == u
    | _, _ => false

/-- Every row of the levels below `l`, with the address `a` so far, may be visited. -/
def rowsAllowed (c : Cfg) (ok : Int → Bool) : Nat → Int → Bool
  | 0, a => ok a
  | l + 1, a =>
    let lo := (List.range (l + 1)).foldl (fun x k => x + min 0 ((c.lcount k - 1 : Int) * c.lstride k)) a
    let hi := (List.range (l + 1)).foldl (fun x k => x + max 0 ((c.lcount k - 1 : Int) * c.lstride k)) a
    if sameRegion lo hi && ok lo && ok hi then true
    else (List.range (c.lcount l)).all fun i => rowsAllowed c ok l (a + i * c.lstride l)

/-- The full walk stays within the bounds of Table 7-2; an empty walk does. -/
def Cfg.walkInBounds (c : Cfg) (half : Option HalfId) (region : Nat → Nat) (adj : Int) : Bool :=
  if c.levels = 0 || (List.range c.levels).any (fun l => c.lcount l == 0) then true else
  let b := c.rowAddr 0 []
  let slice := match place b.toNat with
    | .scratch t _ => some (t, region t)
    | _ => none
  rowsAllowed c (rowAllowed c.isGlobal half slice) c.levels (b + adj)

/-- The bytes of a slice that the split assigns (R222). -/
def Dev.region (d : Dev) (t : Nat) : Nat := (d.tile t).stash + (d.tile t).window + (d.tile t).work

/-! ## Tiles (R166–R169) -/

/-- The extents an engine samples (R166). -/
def Dev.sampleExt (d : Dev) (t : Nat) (c : Cfg) (idx : List Nat) : Nat × Nat :=
  let s := if c.sd 73 1 = 1 then some (c.sd 74 1) else if c.sd 73 1 = 2 then some ((idx[c.sd 74 1]?).getD 0 % 64) else none
  match s with
  | some s => d.extAt t s
  | none => (0xFFFFFFFF, 0xFFFFFFFF)

/-- Covered rows or columns of tile i (R168); 1 where there is no such level. -/
def covered (lvl : Option Nat) (idx : List Nat) (tile ext : Nat) : Nat :=
  match lvl with
  | none => 1
  | some l => min tile (ext - ((idx[l]?).getD 0) * tile)

def Cfg.ti (c : Cfg) (idx : List Nat) : Nat := match c.tm with
  | some l => (idx[l]?).getD 0
  | none => 0
def Cfg.tj (c : Cfg) (idx : List Nat) : Nat := match c.tn with
  | some l => (idx[l]?).getD 0
  | none => 0

/-- The tile at an iteration is computed (R168, R169). -/
def Cfg.computed (c : Cfg) (ext : Nat × Nat) (idx : List Nat) : Bool :=
  covered c.tm idx c.tileM ext.1 != 0 && covered c.tn idx c.tileN ext.2 != 0 &&
    !(c.causal && decide ((c.tj idx * c.tileN : Int) > c.ti idx * c.tileM + c.tileM - 1 + c.diag))

/-- Every level below the highest tile level, the tile levels apart, is at its start: the walk enters a tile. -/
def Cfg.entersTile (c : Cfg) (idx : List Nat) : Bool :=
  c.tiled && (List.range c.hiTile).all fun l => some l == c.tm || some l == c.tn || (idx[l]?).getD 0 == 0

/-- The tiles along RED_LEVEL of the unit at an iteration; without RED_LEVEL, the tile itself (R170). -/
def Cfg.unitTiles (c : Cfg) (idx : List Nat) : List (List Nat) :=
  match c.red with
  | some r => (List.range (c.lcount r)).map fun i => idx.set r i
  | none => [idx]

/-- The walk enters an output unit. -/
def Cfg.entersUnit (c : Cfg) (idx : List Nat) : Bool :=
  c.entersTile idx && match c.red with
    | some r => (idx[r]?).getD 0 == 0
    | none => true

/-- FIRST and LAST of a computed tile (R170). -/
def Cfg.firstLast (c : Cfg) (ext : Nat × Nat) (idx : List Nat) : Bool × Bool :=
  let l := (c.unitTiles idx).filter (c.computed ext ·)
  (l.head? == some idx, l.getLast? == some idx)

/-- A steering word with SEL, REP_EN 1 and REPEAT (Table 5-6). -/
def steerWord (sel n : Nat) : Row := BitVec.ofNat 512 (sel + 0x80 + n * 2 ^ 32)

/-- Tokens of one role, where the descriptor has a port for it. -/
def Cfg.toks (c : Cfg) (role : Nat) (l : List WalkTok) : List WalkTok := if (c.portOf role).isSome then l else []

/-- What a reader emits on entering an output unit: SEL words and VOID tokens (R172). -/
def Cfg.unitToks (c : Cfg) (ext : Nat × Nat) (idx : List Nat) : List WalkTok :=
  let tot := c.outPerRow * c.tileM
  match (c.unitTiles idx).find? (c.computed ext ·) with
  | some k =>
    let n := c.outPerRow * covered c.tm k c.tileM ext.1
    c.toks 3 ((if n = 0 then [] else [.tok 3 kCtrl (steerWord 0 n)]) ++
      (if n < tot then [.tok 3 kCtrl (steerWord 1 (tot - n))] else [])) ++
      c.toks 2 (if n < tot then [.void 2 (tot - n)] else [])
  | none =>
    if tot = 0 then [] else c.toks 3 [.tok 3 kCtrl (steerWord 1 tot)] ++ c.toks 2 [.void 2 tot]

/-- What a reader emits on entering a computed tile: its INFO and run tokens (R170, R171). -/
def Cfg.tileToks (c : Cfg) (ext : Nat × Nat) (idx : List Nat) : List WalkTok :=
  let cm := covered c.tm idx c.tileM ext.1
  let cn := covered c.tn idx c.tileN ext.2
  let fl := c.firstLast ext idx
  let partialDiag := c.causal &&
    !decide ((c.tj idx * c.tileN + c.tileN - 1 : Int) ≤ c.ti idx * c.tileM + c.diag)
  let extPart := decide (cm < c.tileM) || decide (cn < c.tileN)
  let flags := (if fl.1 then 1 else 0) + (if fl.2 then 2 else 0) + (if partialDiag then 4 else 0) + (if extPart then 8 else 0)
  let info : Row := BitVec.ofNat 512 (c.ti idx % 2 ^ 32 + c.tj idx % 2 ^ 32 * 2 ^ 32 + cm * 2 ^ 64 + cn * 2 ^ 96 +
    c.sd 88 4 * 2 ^ 128 + flags * 2 ^ 160)
  let mode := if fl.2 then c.sd 77 1 else if fl.1 then c.sd 75 1 else c.sd 76 1
  c.toks 4 [.tok 4 kCtrl info] ++ c.toks 1 [.tok 1 kCtrl (BitVec.ofNat 512 (cm + mode % 8 * 2 ^ 32))]

/-- The iteration after one in lexicographic order, level 0 innermost (R160); `none` after the last. -/
def nextIdx (c : Cfg) : Nat → List Nat → Option (List Nat)
  | _, [] => none
  | l, i :: is =>
    if i + 1 < c.lcount l then some ((i + 1) :: is)
    else (nextIdx c (l + 1) is).map (0 :: ·)

/-- Rows of an iteration: visited unless its tile is skipped or its row uncovered (R168); masked where its column lies at
or beyond EXT_N. -/
def Cfg.visits (c : Cfg) (ext : Nat × Nat) (idx : List Nat) : Bool × Bool :=
  let r := match c.tmi with
    | some l => (idx[l]?).getD 0
    | none => 0
  let e := c.tj idx * c.tileN + (match c.tni with
    | some l => (idx[l]?).getD 0
    | none => 0)
  (!c.tiled || (c.computed ext idx && (c.tm.isNone || decide (r < covered c.tm idx c.tileM ext.1))),
   c.tn.isSome && decide (ext.2 ≤ e))

/-- A walk's next row. The cursor passes iterations that visit none, noting what units and tiles it enters, and stops after
one that visits a row, or at the end: `some (address, masked)`. -/
def walkStep (d : Dev) (t : Nat) (c : Cfg) : Nat → Walk → (Option (Int × Bool) × Nat × Nat) × Walk
  | 0, w => ((none, 0, 0), w)
  | fuel + 1, w =>
    match w.idx with
    | none => ((none, 0, 0), w)
    | some idx =>
      let first := c.tiled && (List.range (c.hiTile + 1)).all fun l => (idx[l]?).getD 0 == 0
      let ext := if first then (if w.void then (0, 0) else d.sampleExt t c idx) else w.ext
      let units := if c.entersUnit idx then c.unitToks ext idx else []
      let ent := c.entersTile idx
      let comp := c.computed ext idx
      let tiles := if ent && comp then c.tileToks ext idx else []
      let reader := c.cls == 2
      let w := { w with ext := ext, idx := nextIdx c 0 idx, ahead := if reader then w.ahead ++ units ++ tiles else w.ahead }
      let nc := if ent && comp then 1 else 0
      let ns := if ent && !comp then 1 else 0
      let v := c.visits ext idx
      if v.1 then ((some (c.rowAddr w.adj idx, v.2), nc, ns), w)
      else
        let r := walkStep d t c fuel w
        ((r.1.1, r.1.2.1 + nc, r.1.2.2 + ns), r.2)

/-- The iterations a walk can have. -/
def Cfg.iters (c : Cfg) : Nat := (List.range c.levels).foldl (fun n l => n * c.lcount l) 1

/-- The tiles met are counted (Table 7-9). -/
def Dev.countTiles (d : Dev) (t : Nat) (c : Cfg) (n : Nat × Nat) : Dev :=
  let a := tileAdd t + 32 * c.engine
  (d.count F.TIL_SE_TILES_COMPUTED n.1 a).count F.TIL_SE_TILES_SKIPPED n.2 a

/-! ## Walks -/

/-- STREAM_WALK_START (R163, R164). -/
def Dev.walkStart (d : Dev) (t s : Nat) : Dev :=
  match d.canFire t s [2, 3] with
  | none => d
  | some (x, c) =>
    if x.walk.isSome || (!c.hasStart && x.walked) then d else
    let st := d.ready t x c c.startIn
    let gt := d.ready t x c c.gateIn
    if (c.hasStart && st.isNone) || (c.hasGate && gt.isNone) then d else
    let pz (k : Option Token) : Bool := (k.map fun k => k.kind.toNat == kPoison).getD false
    let void := (st.map fun k => k.kind.toNat == kVoid).getD false
    let w := (st.map fun k => k.payload.toNat).getD 0
    let adj : Int := if c.hasStart && !void then Cfg.lstride.toIntN 64 (bits w 0 64) else 0
    let half := match d.image (tileHalf t) with
      | some i => halfImage i.bytes
      | none => none
    let fault := (c.hasStart && pz st) || (c.hasGate && pz gt) || (c.hasStart && !void && !pz st &&
      (adj % 64 != 0 || bits w 64 448 != 0 || !c.walkInBounds half d.region adj))
    let empty := c.levels = 0 || (List.range c.levels).any (fun l => c.lcount l == 0)
    let wk : Walk :=
      { adj, fault, void := void && c.tiled, idx := if empty then none else some (List.replicate c.levels 0),
        ext := (0xFFFFFFFF, 0xFFFFFFFF), ahead := [], rows := 0 }
    let d := if c.hasStart then d.popIn t c c.startIn else d
    let d := if c.hasGate then d.popIn t c c.gateIn else d
    let d := if fault then d.event E.TIL_SE_WALK_FAULT (tileAdd t) else d
    (d.modSlot t s fun x => { x with walk := some wk }).fsetB F.TIL_SE_STATUS_ACTIVE true (tileAdd t + 32 * c.engine)

/-- The token is a row. -/
def WalkTok.isRow : WalkTok → Bool
  | .row _ _ _ => true
  | _ => false

/-- Rows in the run-ahead buffer, masked fill among them. -/
def Walk.rowsAhead (w : Walk) : Nat := (w.ahead.filter WalkTok.isRow).length

/-- The token is a row fetched from memory. -/
def WalkTok.isFetch : WalkTok → Bool
  | .row _ m _ => !m
  | _ => false

/-- Rows fetched and not yet consumed; masked fill and a faulted walk read no memory. -/
def Walk.fetched (w : Walk) : Nat := if w.fault then 0 else (w.ahead.filter WalkTok.isFetch).length

/-- The credits the DATA port still has for rows to come (R165); a field feed needs none. -/
def Dev.rowCredit (d : Dev) (c : Cfg) (w : Walk) : Bool :=
  c.fieldFeed || match c.portOf 0 with
    | none => true
    | some p =>
      match (c.outs[p]?).getD none with
      | some (t, q) => decide (w.rowsAhead < (d.queue t q).credits)
      | none => true

/-- TIL_SE_STATUS.AHEAD: ingots fetched and not yet consumed, rounded up. -/
def Dev.showAhead (d : Dev) (t : Nat) (c : Cfg) (w : Walk) : Dev :=
  d.fset F.TIL_SE_STATUS_AHEAD (min 64 ((w.fetched + 63) / 64)) (tileAdd t + 32 * c.engine)

/-- The rows a GLOBAL walk visits lie in another device (R160). -/
def Dev.isFar (d : Dev) (c : Cfg) : Bool := c.isGlobal && bits c.baseAddr 48 16 != d.me

/-- Every row in flight at an address takes a value. -/
def fillAt (a : Nat) (v : Row × Bool) (l : List WalkTok) : List WalkTok :=
  l.map fun k => match k with
    | .row b m none => if b = a then .row b m (some v) else k
    | _ => k

/-- The outstanding rows of a GLOBAL reader at an address return. -/
def Dev.farRow (d : Dev) (t s a : Nat) (v : Row × Bool) : Dev :=
  d.modSlot t s fun x => { x with walk := x.walk.map fun w => { w with ahead := fillAt a v w.ahead } }

/-- A tile holds an end-to-end credit of a bounded virtual channel toward its half's fabric interface: 16 of each (R349). -/
def Dev.farCredit (d : Dev) (t vc : Nat) : Bool := decide ((((d.tile t).far[vc]?).getD 0) < 16)

/-- A flit goes to the fabric interface on a credit. The credit is back in the next core cycle. DESIGN CHOICE: the interface passes each
flit on, at the latest to its working area, within a cycle. -/
def Dev.takeFar (d : Dev) (t vc : Nat) : Dev := d.modTile t fun x => { x with far := x.far.set vc ((x.far[vc]?).getD 0 + 1) }

/-- A row of another device is asked for with a remote LOAD; one that cannot be sent is POISON (Table 14-4). -/
def Dev.askRow (d : Dev) (t s : Nat) (c : Cfg) (a : Nat) : Dev :=
  let r := d.issue
    { Xfer.blank with
      op := 1, tenant := .ofNat 16 (d.tagOf (tileHalf t)), target := .ofNat 16 (bits c.baseAddr 48 16), addr := .ofNat 48 a
      len := 64 } (.unit t s)
  match r.1 with
  | none => r.2
  | some _ => r.2.farRow t s a (0, true)

/-- A row of another device is stored with a remote STORE. -/
def Dev.putRow (d : Dev) (t s : Nat) (c : Cfg) (a : Nat) (v : Row) (poison : Bool) : Dev :=
  let r := d.issue
    { Xfer.blank with
      op := 2, tenant := .ofNat 16 (d.tagOf (tileHalf t)), target := .ofNat 16 (bits c.baseAddr 48 16), addr := .ofNat 48 a
      len := 64, rows := [(v, poison)] } (.unit t s)
  match r.1 with
  | none => r.2
  | some _ => { r.2 with fab := { r.2.fab with failed := r.2.fab.failed ++ [slotKey t s] } }

/-- ROW_FETCH: the cursor moves to the next row, whose fetch is issued (R165). A faulted walk touches no memory, and masked
fill reads none; a global row is asked of the target device. -/
def Dev.rowFetch (d : Dev) (t s : Nat) : Dev :=
  let x := d.slot t s
  match x.active, x.walk with
  | some c, some w =>
    if c.cls ≠ 2 || !d.rowCredit c w || (d.isFar c && !d.farCredit t 0) || c.sd 5 1 * 64 ≤ w.fetched then d else
    let r := walkStep d t c (c.iters + 1) w
    let d := d.countTiles t c r.1.2
    let w := match r.1.1 with
      | none => r.2
      | some (a, m) =>
        { r.2 with
          ahead := r.2.ahead ++ [WalkTok.row a.toNat m (if w.fault then some (0, true) else if m then some (0, false) else none)] }
    let d := (d.showAhead t c w).setSlot t s { x with walk := some w }
    match r.1.1 with
    | some (a, false) => if d.isFar c && !w.fault then (d.takeFar t 0).askRow t s c a.toNat else d
    | _ => d
  | _, _ => d

/-- The k-th row still in flight takes its value. -/
def fillRow (v : Row × Bool) : Nat → List WalkTok → List WalkTok
  | _, [] => []
  | 0, .row a m none :: l => .row a m (some v) :: l
  | k + 1, .row a m none :: l => .row a m none :: fillRow v k l
  | k, x :: l => x :: fillRow v k l

/-- The address of the k-th row in flight. -/
def flightAddr : Nat → List WalkTok → Option Nat
  | _, [] => none
  | 0, .row a _ none :: _ => some a
  | k + 1, .row _ _ none :: l => flightAddr k l
  | k, _ :: l => flightAddr k l

/-- MEMORY_ROW_RETURN: the k-th outstanding row of a reader returns, with what the code meets at its words (R165, R238). A row
of another device returns with the RESPONSE to its request; a row of another slice is a flit at that slice's port. -/
def Dev.rowReturn (d : Dev) (t s k : Nat) (es : List RdErr) : Dev :=
  let x := d.slot t s
  match x.active, x.walk with
  | some c, some w =>
    match flightAddr k w.ahead with
    | none => d
    | some a =>
      if d.isFar c then d else
      let r := d.readRow a es
      let d := r.2
      let d := if r.1.2.2 && a < 0xA000000000 then d.stackLost a none else d
      let d := match place a with
        | .scratch u _ => if u = t then d else d.bulkFlit u 2
        | _ => d
      d.setSlot t s { x with walk := some { w with ahead := fillRow (r.1.1, r.1.2.1) k w.ahead } }
  | _, _ => d

/-- The instance and level whose injector a tile holds, by the shape each instance itself runs (R85). -/
def Dev.injector (d : Dev) (t : Nat) : Option (Nat × Nat) :=
  d.insts.findSome? fun p =>
    let s := shapeOf p.2.shape
    if !p.2.held then none else
    ((List.range s.1).find? fun l => blockTile (p.1 / 64) p.2.shape (p.1 % 64) (l * s.2.1) == t).map fun l => (p.1, l)

/-- A row is handed to the injector of the tile's field level (R85, R165). -/
def Dev.feedRow (d : Dev) (t : Nat) (r : FeedRow) : Dev :=
  match d.injector t with
  | none => d
  | some (k, l) =>
    match fmGet d.insts k with
    | none => d
    | some i => { d with insts := fmSet d.insts k { i with feed := fmMod i.feed l [] (· ++ [r]) } }

/-- The moving operand of the instance a tile injects for is in an MX format, and the vectors a slot carries. -/
def Dev.feedScales (d : Dev) (t : Nat) : Nat :=
  match d.injector t with
  | none => 0
  | some (k, _) =>
    match fmGet d.insts k with
    | none => 0
    | some i => if bits i.fmts 4 4 < 10 then 0 else if bit i.fmts 8 && bits i.fmts 4 4 == 14 then 2 else 1

/-- The scales of a segment's vectors, read from its row of the scale array: two bytes for each vector, those of the odd one in the next
row (R68, R226). -/
def Dev.readScales (d : Dev) (a : Nat) (es : List RdErr) : Nat → List (Nat × Nat × Bool) × Dev
  | 0 => ([], d)
  | n + 1 =>
    let r := d.readScales a es n
    let b := a + 64 * n
    let q := r.2.readWord b ((es[n]?).getD .none)
    let o := 8 * (b % 8 / 2 * 2)
    (r.1 ++ [(bits q.1.1.toNat o 8, bits q.1.1.toNat (o + 8) 8, q.1.2)], q.2)

/-- STREAM_READER_FIRE: the walk's next token leaves, in walk order (R165, R170–R172). A FIELD_FEED reader hands its row to the injector,
and with a row of an MX operand the scales at `scale`, read with what the code meets there (R68). -/
def Dev.readerFire (d : Dev) (t s scale : Nat) (es : List RdErr) : Dev :=
  match d.canFire t s [2] with
  | none => d
  | some (x, c) =>
    match x.walk with
    | none => d
    | some w =>
      let put (d : Dev) (role kind : Nat) (v : Row) (w : Walk) : Dev :=
        let d := d.setSlot t s { x with walk := some w }
        let d := match c.portOf role with
          | some p => d.putOut t s c p (if w.fault then kPoison else kind) v
          | none => d
        (d.showAhead t c w).markFired t s
      let ok (role : Nat) : Bool := match c.portOf role with
        | some p => d.credit c p
        | none => true
      let a := tileAdd t + 32 * c.engine
      match w.ahead with
      | .tok role kind v :: l => if ok role then put d role kind v { w with ahead := l } else d
      | .void role n :: l =>
        if ok role then
          put (if w.fault then d else d.count F.TIL_SE_VOID_COUNT 1 a) role kVoid 0
            { w with ahead := if n ≤ 1 then l else .void role (n - 1) :: l }
        else d
      | .row _ m (some (v, p)) :: l =>
        let ev (d : Dev) : Dev := if p && !w.fault then d.event E.TIL_SE_POISON_READ (tileAdd t) else d
        let cnt (d : Dev) : Dev := if m || w.fault then d else d.count F.TIL_SE_ROWS_COUNT 1 a
        let w' := { w with ahead := l }
        if c.fieldFeed then
          let q := (cnt (ev d)).readScales scale es (if m || w.fault then 0 else d.feedScales t)
          (((q.2.setSlot t s { x with walk := some w' }).feedRow t ⟨if m then none else some v, p, q.1⟩).showAhead t c w').markFired t s
        else if ok 0 then put (cnt (ev d)) 0 (if p then kPoison else kData) v w'
        else d
      | _ => d

/-- STREAM_WRITER_FIRE: one token is taken for the walk's next row (R159, R174, R181, R237). -/
def Dev.writerFire (d : Dev) (t s : Nat) : Dev :=
  match d.canFire t s [3] with
  | none => d
  | some (x, c) =>
    match x.walk, d.ready t x c 0 with
    | some w, some k =>
      let vc := if (d.sendItem t s).isSome then 2 else if d.isFar c then 0 else 2
      if d.isFar c && !c.sched && !d.farCredit t vc then d else
      let r := walkStep d t c (c.iters + 1) w
      let d := d.countTiles t c r.1.2
      match r.1.1 with
      | none => d.setSlot t s { x with walk := some r.2 }
      | some (a, m) =>
        let d := d.setSlot t s { x with walk := some { r.2 with rows := w.rows + 1 } }
        let d := (d.popIn t c 0).markFired t s
        let kind := k.kind.toNat
        if w.fault || m || (kind = kVoid && c.voidSkip) then
          match d.sendItem t s with
          | some it => if w.fault then d.modSend (siKey it) fun y => { y with rows := y.rows ++ [(0, true)] } else d
          | none => d
        else
          let v : Row := if kind = kVoid then 0 else k.payload
          let d := d.count F.TIL_SE_ROWS_COUNT 1 (tileAdd t + 32 * c.engine)
          let own := match place a.toNat with
            | .scratch u _ => u == t && !d.isFar c
            | _ => false
          let d := if own then d else if c.sched then d.modSlot t s fun y => { y with halo := y.halo + 1 } else d.bulkFlit t vc
          let d := if d.isFar c && !c.sched then d.takeFar t vc else d
          match d.sendItem t s with
          | some it => d.modSend (siKey it) fun y => { y with rows := y.rows ++ [(v, kind == kPoison)] }
          | none =>
            if d.isFar c then d.putRow t s c a.toNat v (kind == kPoison) else d.writeRow a.toNat v (kind = kPoison)
    | _, _ => d

/-- A GLOBAL writer's stores are not all answered. -/
def Dev.unanswered (d : Dev) (t s : Nat) : Bool := d.fab.reqs.any fun r => r.2.use == .unit t s

/-- The rows of a send stream's walk make one transfer (R358). -/
def Dev.closeTransfer (d : Dev) (t s : Nat) : Dev :=
  match d.sendItem t s with
  | some it =>
    let rows := (d.sendS (siKey it)).rows
    (d.modSend (siKey it) fun y => { y with rows := [] }).streamReady (tileHalf t) it none rows
  | none => d

/-- STREAM_WALK_END: a walk all of whose rows and tokens have gone ends; a writer's completion token leaves with it, and an
engine without a START input swaps once its shadow is ready (R154, R164, R180). The completion token's payload is free. -/
def Dev.walkEnd (d : Dev) (t s : Nat) : Dev :=
  let x := d.slot t s
  match x.active, x.walk with
  | some c, some w =>
    let r := walkStep d t c (c.iters + 1) w
    if r.1.1.isSome || !w.ahead.isEmpty || !r.2.ahead.isEmpty then d
    else
      let out := (c.outs[0]?).getD none
      if c.cls = 3 && ((out.isSome && (!d.credit c 0 || (d.canFire t s [3]).isNone)) || d.unanswered t s) then d else
      let d := d.countTiles t c r.1.2
      let d := (d.setSlot t s { x with walk := none, walked := true }).fsetB F.TIL_SE_STATUS_ACTIVE false
        (tileAdd t + 32 * c.engine)
      let d := if c.cls = 3 then d.closeTransfer t s else d
      let bad := d.fab.failed.contains (slotKey t s)
      let d := if c.cls = 3 && out.isSome then
          let f := d.fresh 512
          let d := { f.2 with fab := { f.2.fab with failed := f.2.fab.failed.filter (· != slotKey t s) } }
          (d.putOut t s c 0 (if w.fault || bad then kPoison else kData) (BitVec.ofNat 512 f.1)).markFired t s
        else d
      d.autoSwap t s
  | _, _ => d

/-! ## The till (R175–R177) -/

/-- A till operation on a word: old, exhausted, saturated, the new word (R175). -/
def tillOp (word addend limit : Nat) : Nat × Bool × Bool × Nat :=
  if limit ≤ word then (word, true, false, word)
  else if 2 ^ 64 - 1 < word + addend then (word, false, true, 2 ^ 64 - 1)
  else (word, false, false, word + addend)

/-- The till requests that wait at the slice of tile t, oldest first. -/
def Dev.tillQueue (d : Dev) (t : Nat) : List TillReq :=
  d.net.till.filter fun r => r.reply.isNone && (match place r.addr with | .scratch u _ => u == t | _ => false) &&
    !d.requestAhead r.tile r.addr r.seq

/-- The request a slice serves next: by logical tile ID from the tile after the one `last` names, the oldest of a tile first (R176). -/
def tillPick (last : Nat) (l : List TillReq) : Option TillReq :=
  l.foldl (fun b r => match b with
    | none => some r
    | some q => if tileDist last r.tile < tileDist last q.tile then some r else some q) none

/-- TILL_REQUEST: the slice of tile t serves the waiting request whose turn it is, one in a core cycle, reading its word with what the
code meets (R175–R177). What old is of a word that reads as uncorrectable is free. -/
def Dev.tillRequest (d : Dev) (t : Nat) (e : RdErr) : Dev :=
  match tillPick (d.tile t).arb (d.tillQueue t) with
  | none => d
  | some q =>
    if (d.tile t).tillBusy then d else
    let many := decide (1 < (d.tillQueue t).length)
    let d := d.modTile t fun x => { x with tillBusy := true, arb := if many then q.tile else x.arb }
    let r := d.readWord q.addr e
    let d := r.2.count F.TIL_TILL_OPS_COUNT 1 (tileAdd t)
    if r.1.2 then
      let d := d.event E.TIL_TILL_POISONED (tileAdd t)
      let f := d.fresh 64
      { f.2 with net := { d.net with till := d.net.till.map fun z =>
          if z = q then { z with reply := some (f.1, true, false, true), seq := d.net.next } else z, next := d.net.next + 1 } }
    else
      let o := tillOp r.1.1.toNat q.addend q.limit
      let d := if o.2.2.1 then d.event E.TIL_TILL_SATURATED (tileAdd t) else d
      let d := if o.2.1 then d else d.store q.addr (leBytes 8 o.2.2.2)
      { d with net := { d.net with till := d.net.till.map fun z =>
          if z = q then { z with reply := some (o.1, o.2.1, o.2.2.1, false), seq := d.net.next } else z, next := d.net.next + 1 } }

end Sys2Proof.Machine
end

