-- ==== Sys2Proof/Machine/Repair.lean ====
section
/-! DEFINITION. The repair page and the map of spare tiles (R473, R475). -/

namespace Sys2Proof.Machine

/-- DEV_REPAIR shows the page. -/
def Dev.showRepair (d : Dev) : Dev :=
  (d.fset F.DEV_REPAIR_TILES d.boot.tiles.length).fset F.DEV_REPAIR_ROWS d.boot.rows.length

/-- The page has been written: its GEN, and an entry recorded since the last cold reset. -/
def Dev.pageWritten (d : Dev) : Dev :=
  ({ d with boot := { d.boot with pageGen := d.boot.pageGen + 1 } }).showRepair.fset F.DEV_REPAIR_PENDING 1

/-- A defect beyond what the page holds is not recorded: the event and a strongbox record. -/
def Dev.repairFull (d : Dev) (x : List Nat) : Dev := (d.event E.DEV_REPAIR_FULL).sbLog 0x0020 2 x

/-- A tile defect is recorded: half, physical row and column, source. -/
def Dev.recordTile (d : Dev) (half row col src : Nat) : Dev :=
  if 64 ≤ d.boot.tiles.length then d.repairFull [half, row, col, src]
  else
    let t : TileDefect := ⟨half, row, col, src, d.now % 2 ^ 32⟩
    ({ d with boot := { d.boot with tiles := d.boot.tiles ++ [t] } }).pageWritten

/-- A stack row is recorded for hard repair. -/
def Dev.recordRow (d : Dev) (r : RowDefect) : Dev :=
  if 128 ≤ d.boot.rows.length then d.repairFull [r.stack, r.pc, r.bank, r.row]
  else ({ d with boot := { d.boot with rows := d.boot.rows ++ [r] } }).pageWritten

/-- The columns of a row (half × 16 + row) with a known defect, each once: the fused ones, and the page's unless its CRC fails. -/
def Dev.defectCols (d : Dev) (k : Nat) : List Nat :=
  let f := (fmGet d.boot.fused k).getD 16
  let fused := (if f < 16 then [f] else []) ++ (if d.boot.fusedSpare.contains k then [16] else [])
  let field := if d.boot.pageBad then [] else (d.boot.tiles.filter fun t => t.half * 16 + t.row == k).map (·.col)
  (fused ++ field).eraseDups

/-- The map of a cold reset: a row with one defect shifts at it; a row with two has no working arrangement, and its half is
DEGRADED (R473). -/
def Dev.repairMap (d : Dev) : Dev :=
  let m : FMap Nat := (List.range 32).foldl (fun m k =>
    match d.defectCols k with
    | [] => m
    | p :: _ => fmSet m k (if (d.defectCols k).length = 1 then p else (fmGet d.boot.fused k).getD 16)) []
  let bad (h : Nat) : Bool := (List.range 16).any fun r => decide (1 < (d.defectCols (h * 16 + r)).length)
  let d := { d with boot := { d.boot with shift := m } }
  (d.fsetB F.DEV_STATE_DEGRADED_W (bad 0)).fsetB F.DEV_STATE_DEGRADED_E (bad 1)

/-- The physical column of a logical tile (R248). -/
def Dev.physCol (d : Dev) (t : Nat) : Nat :=
  if t % 16 < (fmGet d.boot.shift (t / 16)).getD 16 then t % 16 else t % 16 + 1

end Sys2Proof.Machine
end

