-- ==== Sys2Proof/Machine/Views.lean ====
section
/-! DEFINITION. What a register reads as: the fields that show state kept elsewhere, and every other field as it stands (R4–R7). -/

namespace Sys2Proof.Machine

/-- Bit o of a per-operator byte of tile t. -/
def Dev.ccBits (d : Dev) (t : Nat) (p : Slot → Bool) : Nat :=
  let os := (List.range 32).filter fun s => match (d.slot t s).active with
    | some c => c.cls == 4
    | none => false
  os.zipIdx.foldl (fun n x => if p (d.slot t x.1) then n + 2 ^ x.2 else n) 0

/-- The slot of control-core operator o of a tile: the control-core slots in slot order. -/
def Dev.opSlot (d : Dev) (t o : Nat) : Option Nat :=
  ((List.range 32).filter fun s => match (d.slot t s).active with
    | some c => c.cls == 4
    | none => false)[o]?

/-- The tile and the distance within it of a TIL_ field beyond tile 0's. -/
def tileOf (f : Fld) (add : Nat) : Option (Nat × Nat × Nat) :=
  if 0x1000000 ≤ f.off && f.off < 0x1010000 then some (add / 0x10000, f.off - 0x1000000, add % 0x10000) else none

/-- An operator waits: for the answer to its instruction, for the input or credit of a QPOP or QPUSH, or after EEND for its shadow
(R211, Table 8-16). -/
def Dev.ccWaits (d : Dev) (t s : Nat) : Bool :=
  let x := d.slot t s
  match x.active with
  | none => false
  | some c =>
    let w := leAt (d.tile t).code x.cc.pc 4
    !x.cc.faulted && (x.cc.ended || x.cc.wait != .none || (bits w 0 8 == 0x40 && (d.ready t x c (bits w 18 14)).isNone) ||
      (bits w 0 8 == 0x41 && !d.credit c (bits w 18 14)))

/-- The slot bound to engine e of a tile. -/
def Dev.engineSlot (d : Dev) (t e : Nat) : Option Nat :=
  (List.range 32).find? fun s => match (d.slot t s).active with
    | some c => (c.cls == 2 || c.cls == 3) && leAt c.extra 3 1 == e
    | none => false

/-- A queue's fields of TIL_Q_STATUS (Table 5-18). -/
def Queue.view (y : Queue) (lo : Nat) : Nat :=
  match lo with
  | 0 => y.depth
  | 14 => y.tokens.length
  | 28 => (y.tokens.head?.map (·.kind.toNat)).getD 0
  | 31 => (y.tokens.head?.map fun k => if k.epoch then 1 else 0).getD 0
  | 32 => (y.tokens.head?.map (·.seq.toNat)).getD 0
  | _ => y.starve

/-- A window entry's fields of TIL_WIN_ENT (Table 9-15). -/
def winView (e : Option WinEnt) (lo : Nat) : Nat :=
  match e with
  | none => 0
  | some e =>
    match lo with
    | 0 => e.state
    | 3 => if e.state = 1 then 0 else e.frame
    | 13 => e.ingots
    | 23 => e.remain
    | _ => e.age

/-- The fields of a tile that show state kept elsewhere: `o` is the offset in the block, `x` the element's distance. -/
def Dev.tileView (d : Dev) (t o x lo : Nat) : Option Nat :=
  let tl := d.tile t
  match o with
  | 0x4000 =>
    some (if lo = 0 then ((List.range 32).filter fun s => (d.slot t s).active.isSome).length
      else if lo = 8 then (List.range 128).foldl (fun n q => n + (d.queue t q).depth) 0
      else ((List.range 128).filter fun q => (d.queue t q).depth != 0).length)
  | 0x4400 => some ((d.queue t (x / 8)).view lo)
  | 0x3000 => if lo = 8 then some tl.bpoison else none
  | 0x3100 => some ((fmGet tl.bslots (x / 8)).getD 0)
  | 0x3200 => some (if lo = 0 then d.ccBits t fun s => !s.cc.ended else d.ccBits t fun s => s.cc.faulted)
  | 0x3300 =>
    match d.opSlot t (x / 8) with
    | none => some 0
    | some s => let c := (d.slot t s).cc; some (if lo = 0 then c.pc else if d.ccWaits t s then 1 else 0)
  | 0x6010 =>
    if lo = 0 then some tl.frames
    else if lo = 10 then some tl.winHead
    else if lo = 20 then some tl.win.length
    else if lo = 29 then some (tl.inState 1) else none
  | 0x6800 => some (winView (fmGet tl.win (x / 8)) lo)
  | 0x2000 =>
    if lo = 1 then
      match d.engineSlot t (x / 32) with
      | some s => some (if (d.slot t s).epoch then 1 else 0)
      | none => some 0
    else none
  | 0x7000 =>
    if !d.flag F.MBX_STATUS_RUNNING then none else
    some (if lo = 0 then t else if lo = 9 then t / 16 % 16 else if lo = 13 then d.physCol t
      else (fmGet d.boot.shift (t / 16)).getD 16)
  | _ => none

/-- The fields that show what the board descriptor decides and no command carries, the class of a torus port (a sheaf port is MR) and the
split of the feed port in root mode, and which stacks are out of reach (R22). -/
def Dev.boardView (d : Dev) (f : Fld) (add : Nat) : Option Nat :=
  if f == F.LNK_STATUS_CLASS then
    some (if d.flag F.MBX_STATUS_RUNNING && decide (add / 0x10000 < 8) then Config.linkClass (add / 0x10000) % 2 else 0)
  else if f == F.FED_STATUS_BIFURC then
    some (if d.flag F.MBX_STATUS_RUNNING && d.flag F.FED_STATUS_MODE then Config.bifurcation % 3 else 0)
  else if f == F.STK_STATUS_DEGRADED then
    some (if d.flag F.STK_STATUS_DEGRADED add || (d.eastLost && decide (4 ≤ add / 0x100000)) then 1 else 0)
  else none

/-- A field of FLD_INST_CFG or FLD_INST_EXT of an instance number at or above INST_COUNT (R105). -/
def pastInsts (d : Dev) (f : Fld) (add : Nat) : Bool :=
  (f.off == F.FLD_INST_CFG_SFMT.off || f.off == F.FLD_INST_EXT_ROW_EXT.off) &&
    decide (d.fget F.FLD_CFG_INST_COUNT (add / 0x10000 * 0x10000) ≤ add % 0x10000 / 8)

/-- The fields outside the tiles that show state kept elsewhere. -/
def Dev.view (d : Dev) (w : Who) (f : Fld) (add : Nat) : Option Nat :=
  if f == F.TAL_PENDING_COUNT || f == F.CMD_STATUS_PENDING then some d.pendingAt
  else if f == F.CMD_STATUS_QUEUED then some (d.mg.subs.foldl (fun n q => n + 128 ^ q.who.src) 0)
  else if f == F.CMD_STATUS_UNENDED then some (d.led (d.readerHalf w)).unended
  else if f == F.LGR_HEAD_SEQ then some (d.led (d.readerHalf w)).head
  else if f == F.LGR_TAIL_SEQ then some (d.led (d.readerHalf w)).tail
  else if f == F.LGR_MIRROR_TAIL_SEQ then some (d.led (d.readerHalf w)).mirrorTail
  else if f == F.MBX_SB_STATUS_SECTOR then some (d.mg.sbNext / 256)
  else if f == F.MBX_SB_STATUS_QUEUED then some d.mg.sbQueue.length
  else if f == F.MBX_SB_STATUS_HELD then
    some (d.mg.sb.filter fun p => match p.2 with | .valid _ => true | .torn => false).length
  else if f == F.MBX_PORT_SESSIONS then some d.mg.sessions.length
  else if f == F.MBX_TRACE_CTRL_COUNT then some d.mg.trace.length
  else if f == F.SEC_LIC_COUNT then some d.sec.licences.length
  else if pastInsts d f add then some 0
  else if f == F.FLD_STATUS_ACTIVE then
    some (if d.insts.any fun p => p.1 / 64 == add / 0x10000 && p.2.run.isSome then 1 else 0)
  else match tileOf f add with
    | some (t, o, x) => if livesInCycle o then some (d.latched f add) else d.tileView t o x f.lo
    | none => d.boardView f add

/-- The access is one of the operator's (or of Uhlea itself). -/
def isOperator : Who → Bool
  | .operator | .uhlea => true
  | _ => false

/-- Fields that read as zero to all but the operator: STK_LAST_ERR, and the physical fields of TIL_NI_MAP (R244, R266). -/
def operatorReads (f : Fld) : Bool :=
  f == F.STK_LAST_ERR_ADDR || f == F.STK_LAST_ERR_PC || f == F.TIL_NI_MAP_PROW || f == F.TIL_NI_MAP_PCOL || f == F.TIL_NI_MAP_SHIFT

/-- What a reader sees of a field: write-only and self-clearing write bits that stand read as the register holds them, a
write-only field as 0 (R7). -/
def Dev.readField (d : Dev) (w : Who) (f : Fld) (add : Nat) : Nat :=
  if f.acc == .wo then 0
  else if operatorReads f && !isOperator w then 0
  else (d.view w f add).getD (d.fget f add)

/-- The 64-bit word an offset reads as; reserved bits and offsets without a register read 0 (R6). -/
def Dev.readReg (d : Dev) (w : Who) (off : Nat) : Nat :=
  match regAt off with
  | none => 0
  | some (r, add) => r.fields.foldl (fun n f => n + d.readField w f add % 2 ^ f.w * 2 ^ f.lo) 0

/-- A write to a register of a tile's block, with the functions its self-acting fields have: CNT_CLEAR, TIL_WIN_CMD,
TIL_WIN_REL (R137, R232, R234). -/
def Dev.tileWrite (d : Dev) (off v : Nat) : Dev :=
  let t := (off - 0x1000000) / 0x10000
  let o := (off - 0x1000000) % 0x10000
  let d := d.plainWrite off v 0
  if o = 0x6018 then d.winCmd t v
  else if o = 0x6020 then d.winRel t v
  else if o = 0x4018 && bit v 0 then d.cntClear t 0
  else d

end Sys2Proof.Machine
end

