-- ==== Sys2Proof/Machine/Control.lean ====
section
/-! DEFINITION. The control core: every instruction of Table 8-9, faults, loads and stores over the networks, barriers, votes
(R206–R216, R256–R261, R526–R527). -/

namespace Sys2Proof.Machine

/-! ## Fields and registers -/

def ccRd (w : Nat) : Nat := bits w 8 5
def ccRs1 (w : Nat) : Nat := bits w 13 5
def ccRs2 (w : Nat) : Nat := bits w 18 5
def ccRs3 (w : Nat) : Nat := bits w 23 5
/-- The signed 14-bit immediate of forms I and B. -/
def ccImm (w : Nat) : Int := Cfg.lstride.toIntN 14 (bits w 18 14)

/-- A register's value and poison bit; s0 reads as zero (R206). -/
def CcCtx.get (c : CcCtx) (r : Nat) : Nat × Bool :=
  if r = 0 then (0, false) else ((fmGet c.regs r).getD 0 % 2 ^ 64, (fmGet c.poison r).isSome)

/-- A register written; a write to s0 is discarded (R206). -/
def CcCtx.set (c : CcCtx) (r v : Nat) (p : Bool) : CcCtx :=
  if r = 0 then c
  else { c with regs := fmSet c.regs r (v % 2 ^ 64), poison := if p then fmSet c.poison r () else fmErase c.poison r }

/-- A QPUSH kind that faults: MARK or a reserved one (R213). -/
def badPush (v : Nat) : Bool := v % 8 == kMark || decide (5 ≤ v % 8)

/-- An operator's context changed. -/
def Dev.modCc (d : Dev) (t s : Nat) (f : CcCtx → CcCtx) : Dev := d.modSlot t s fun x => { x with cc := f x.cc }

/-- The operator in slot s of tile t, where it is ready to issue its next instruction: it holds a configuration, runs, and waits for
nothing; the device is RUNNING and not held; a QPOP has its token and a QPUSH its credit, and II has passed since its last firing (R120,
R206, R210, R211, R213). -/
def Dev.ccReady (d : Dev) (t s : Nat) : Option (Slot × Cfg × Nat) :=
  let x := d.slot t s
  match x.active with
  | none => none
  | some c =>
    let w := leAt (d.tile t).code x.cc.pc 4
    let i := bits w 18 14
    let fires := match bits w 0 8 with
      | 0x40 => (d.ready t x c i).isSome && decide (c.ii ≤ x.since)
      | 0x41 => badPush (x.cc.get (ccRs1 w)).1 || (d.credit c i && decide (c.ii ≤ x.since))
      | _ => true
    if c.cls = 4 && !x.cc.ended && !x.cc.faulted && x.cc.wait == .none && !x.swapped && fires &&
        d.half (tileHalf t) == 4 && !d.heldHalf (tileHalf t) then some (x, c, w)
    else none

/-- The control core issues for the operator in slot s next: it has issued nothing in this cycle, and no ready operator comes before it
in rotation (R109). -/
def Dev.ccTurn (d : Dev) (t s : Nat) : Bool :=
  let y := d.tile t
  !y.ccBusy && firstTurn y.ccLast s fun u => (d.ccReady t u).isSome

/-- The operator in slot s of tile t issues an instruction with the given opcode: it is ready, it is its turn, and that is its next
instruction. -/
def Dev.ccNext (d : Dev) (t s op : Nat) : Option (Slot × Cfg × Nat) :=
  match d.ccReady t s with
  | some (x, c, w) => if bits w 0 8 == op && d.ccTurn t s then some (x, c, w) else none
  | none => none

/-- The control core has issued an instruction of slot s in this cycle (R109). -/
def Dev.ccTook (d : Dev) (t s : Nat) : Dev := d.modTile t fun y => { y with ccLast := s, ccBusy := true }

/-- An instruction has issued: it is counted, and the PC moves on. -/
def Dev.ccIssued (d : Dev) (t s : Nat) (f : CcCtx → CcCtx) : Dev :=
  ((d.count F.TIL_CC_INSTR_COUNT 1 (tileAdd t)).ccTook t s).modCc t s fun c => f { c with pc := c.pc + 4 }

/-- A fault of R213: its event, the strongbox record, the operator stopped, the pass to be abandoned. -/
def Dev.ccFault (d : Dev) (t s : Nat) (e : Ev) : Dev :=
  let d := ((d.count F.TIL_CC_INSTR_COUNT 1 (tileAdd t)).ccTook t s).event e (tileAdd t)
  ((d.modCc t s fun c => { c with faulted := true }).sbLog 0x0021 2 [t, s, 0xFF, 0x10 + e.bit.lo]).passFault (tileHalf t) 3

/-- A byte offset names an instruction word (R527). -/
def Tile.isInstr (x : Tile) (pc : Int) : Bool :=
  0 ≤ pc && pc % 4 == 0 && decide (pc + 4 ≤ x.code.length) &&
    !x.data.any fun r => decide ((r.1 : Int) ≤ pc) && decide (pc < r.2)

/-! ## Integer and immediate groups -/

/-- RS1 op RS2 (Table 8-9); `none` where a shift count of 64 or more leaves the result unstated. -/
def ccAlu (op a b : Nat) : Option Nat :=
  match op with
  | 0x00 => some (a + b)
  | 0x01 => some (a + 2 ^ 64 - b)
  | 0x02 => some (a &&& b)
  | 0x03 => some (a ||| b)
  | 0x04 => some (a ^^^ b)
  | 0x05 => if b < 64 then some (a * 2 ^ b) else none
  | 0x06 => if b < 64 then some (a / 2 ^ b) else none
  | 0x07 => if b < 64 then some (((Cfg.lstride.toIntN 64 a) / 2 ^ b) % 2 ^ 64).toNat else none
  | 0x08 => some (if Cfg.lstride.toIntN 64 a < Cfg.lstride.toIntN 64 b then 1 else 0)
  | 0x09 => some (if a < b then 1 else 0)
  | 0x0A => some (a * b)
  | 0x0B => some (a * b / 2 ^ 64)
  | 0x0C => some (min a b)
  | _ => some (max a b)

/-- A result modulo 2^64, or a free one. -/
def Dev.ccResult (d : Dev) (v : Option Nat) : Nat × Dev :=
  match v with
  | some v => (v % 2 ^ 64, d)
  | none => d.fresh 64

/-- An instruction of the integer group (form R); MUL takes two cycles more than the others. -/
def Dev.ccInt (d : Dev) (t s op : Nat) : Dev :=
  match d.ccNext t s op with
  | none => d
  | some (x, _, w) =>
    let a := x.cc.get (ccRs1 w)
    let b := x.cc.get (ccRs2 w)
    let r := d.ccResult (ccAlu op a.1 b.1)
    r.2.ccIssued t s fun c => { c.set (ccRd w) r.1 (a.2 || b.2) with wait := if op = 0x0A then .cycles 2 else .none }

/-- An instruction of the immediate group: `alu` is the integer operation it performs with IMM (form I). -/
def Dev.ccImmOp (d : Dev) (t s op alu : Nat) : Dev :=
  match d.ccNext t s op with
  | none => d
  | some (x, _, w) =>
    let a := x.cc.get (ccRs1 w)
    let r := d.ccResult (ccAlu alu a.1 (ccImm w % 2 ^ 64).toNat)
    r.2.ccIssued t s fun c => c.set (ccRd w) r.1 a.2

/-- LDC: the 64-bit word at byte IMM × 8 of instruction memory. -/
def Dev.ccLdc (d : Dev) (t s : Nat) : Dev :=
  match d.ccNext t s 0x17 with
  | none => d
  | some (_, _, w) => d.ccIssued t s fun c => c.set (ccRd w) (leAt (d.tile t).code (8 * ccImm w).toNat 8) false

/-! ## Flow -/

/-- The condition of a branch. -/
def ccCond (op a b : Nat) : Bool :=
  let x := Cfg.lstride.toIntN 64 a
  let y := Cfg.lstride.toIntN 64 b
  match op with
  | 0x20 => a == b
  | 0x21 => a != b
  | 0x22 => decide (x < y)
  | 0x23 => decide (y ≤ x)
  | 0x24 => decide (a < b)
  | _ => decide (b ≤ a)

/-- The PC moves by a number of instructions from the branch. -/
def ccJump (c : CcCtx) (pc : Nat) (imm : Int) : CcCtx := { c with pc := ((pc : Int) + 4 * imm).toNat }

/-- A branch on two registers; a poisoned source faults (R213). -/
def Dev.ccBranch (d : Dev) (t s op : Nat) : Dev :=
  match d.ccNext t s op with
  | none => d
  | some (x, _, w) =>
    let a := x.cc.get (bits w 8 5)
    let b := x.cc.get (bits w 13 5)
    if a.2 || b.2 then d.ccFault t s E.TIL_CC_POISON_USE
    else d.ccIssued t s fun c => if ccCond op a.1 b.1 then ccJump c x.cc.pc (ccImm w) else c

/-- JAL. -/
def Dev.ccJal (d : Dev) (t s : Nat) : Dev :=
  match d.ccNext t s 0x26 with
  | none => d
  | some (x, _, w) => d.ccIssued t s fun c => ccJump (c.set (ccRd w) (x.cc.pc + 4) false) x.cc.pc (ccImm w)

/-- JALR: the target must be an instruction word (R213, R527). -/
def Dev.ccJalr (d : Dev) (t s : Nat) : Dev :=
  match d.ccNext t s 0x27 with
  | none => d
  | some (x, _, w) =>
    let a := x.cc.get (ccRs1 w)
    let pc : Int := a.1 + 4 * ccImm w
    if a.2 then d.ccFault t s E.TIL_CC_POISON_USE
    else if (d.tile t).isInstr pc then
      d.ccIssued t s fun c => { c.set (ccRd w) (x.cc.pc + 4) false with pc := pc.toNat }
    else d.ccFault t s E.TIL_CC_BOUNDS

/-- BEX and BNEX: branch if EX is set or clear. -/
def Dev.ccBex (d : Dev) (t s op : Nat) (want : Bool) : Dev :=
  match d.ccNext t s op with
  | none => d
  | some (x, _, w) => d.ccIssued t s fun c => if x.cc.ex == want then ccJump c x.cc.pc (ccImm w) else c

/-! ## Memory -/

/-- Where an access of a core goes: its own TIL_ block, its own slice, another slice or stack memory; `none`: BOUNDS (R212,
R213, R222). -/
inductive CcPlace where
  | reg (off : Nat) | own | far
  deriving DecidableEq, Repr

/-- The place of an 8-byte access at an address. -/
def Dev.ccPlace (d : Dev) (t a : Nat) : Option CcPlace :=
  match place a with
  | .stack => if d.tenantStack (d.halfScope (tileHalf t)) a then some .far else none
  | .scratch u o =>
    if o + 8 ≤ d.region u && (!d.split || tileHalf u == tileHalf t) then some (if u = t then .own else .far) else none
  | .reg o => if 0x1000000 + tileAdd t ≤ o && o < 0x1010000 + tileAdd t then some (.reg o) else none
  | _ => none

/-- An address in register space. -/
def regPlace (a : Nat) : Bool := match place a with
  | .reg _ => true
  | _ => false

/-- The access of a core: a poisoned address, alignment and bounds are checked in that order (R213), and `k` carries on; a misaligned
access to register space is counted besides (R5). -/
def Dev.ccAccess (d : Dev) (t s op : Nat) (k : Slot → Nat → Nat → CcPlace → Dev) : Dev :=
  match d.ccNext t s op with
  | none => d
  | some (x, _, w) =>
    let a := x.cc.get (ccRs1 w)
    let addr := (((a.1 : Int) + ccImm w) % 2 ^ 64).toNat
    if a.2 then d.ccFault t s E.TIL_CC_POISON_USE
    else if addr % 8 ≠ 0 then (if (regPlace addr) then d.accessError else d).ccFault t s E.TIL_CC_ALIGN
    else match d.ccPlace t addr with
      | none => d.ccFault t s E.TIL_CC_BOUNDS
      | some p => k x w addr p

/-- A request to stack memory is a flit on the bounded plane; one to another slice travels over the control network (Table 10-3,
R256). -/
def Dev.boundedFlit (d : Dev) (t a : Nat) : Dev := if place a == .stack then d.bulkFlit t 2 else d

/-- A load or store request is sent (R256). -/
def Dev.memAsk (d : Dev) (t s : Nat) (write : Bool) (a v : Nat) (p : Bool) : Dev :=
  let d := d.boundedFlit t a
  { d with net := { d.net with mem := d.net.mem ++ [(⟨t, s, write, a, v, p, d.net.next⟩ : MemReq)], next := d.net.next + 1 } }

/-- LD: its own slice and TIL_ block answer at once; any other place takes a request (R212, R256). -/
def Dev.ccLd (d : Dev) (t s : Nat) (e : RdErr) : Dev :=
  d.ccAccess t s 0x30 fun _ w a p =>
    match p with
    | .reg o => d.ccIssued t s fun c => c.set (ccRd w) (d.readReg (.core (BitVec.ofNat 9 t)) o) false
    | .own => let r := d.readWordR a e; r.2.ccIssued t s fun c => c.set (ccRd w) r.1.1.toNat r.1.2
    | .far =>
      (d.memAsk t s false a 0 false).ccIssued t s fun c => { c with wait := .load (ccRd w) }

/-- A word stored: a valid word, or a poison word (R237). -/
def Dev.putWord (d : Dev) (a v : Nat) (p : Bool) : Dev :=
  if p then d.storePoison a 1 else d.store a (leBytes 8 v)

/-- ST: stores the register named in the RD field; what a poisoned register writes to a register of the tile is free. -/
def Dev.ccSt (d : Dev) (t s : Nat) : Dev :=
  d.ccAccess t s 0x31 fun x w a p =>
    let v := x.cc.get (ccRd w)
    match p with
    | .reg o =>
      let r := if v.2 then d.fresh 64 else (v.1, d)
      (r.2.tileWrite o r.1).ccIssued t s id
    | .own => (d.putWord a v.1 v.2).ccIssued t s id
    | .far =>
      (d.memAsk t s true a v.1 v.2).ccIssued t s fun c => { c with wait := .store }

/-- LDST_REQUEST: the request of an operator reaches its slice or stack, behind those its tile sent there before, and is served. -/
def Dev.ldstRequest (d : Dev) (t s : Nat) (e : RdErr) : Dev :=
  match d.net.mem.find? fun r => r.tile == t && r.op == s with
  | none => d
  | some r =>
    if d.requestAhead t r.addr r.seq then d else
    let d := { d with net := { d.net with mem := d.net.mem.erase r, next := d.net.next + 1 } }
    let back (d : Dev) (r : MemReq) : Dev := { d with net := { d.net with memBack := d.net.memBack ++ [r] } }
    let n := d.net.next - 1
    if r.write then back (d.putWord r.addr r.val r.poison) { r with seq := n }
    else
      let q := d.readWordR r.addr e
      back q.2 { r with val := q.1.1.toNat, poison := q.1.2, seq := n }

/-- LDST_REPLY: the reply reaches its operator; a load writes RD, poisoned for an uncorrectable word (R212). -/
def Dev.ldstReply (d : Dev) (t s : Nat) : Dev :=
  match d.net.memBack.find? fun r => r.tile == t && r.op == s with
  | none => d
  | some r =>
    if d.replyAhead t r.addr r.seq then d else
    let d := { d with net := { d.net with memBack := d.net.memBack.erase r } }
    d.modCc t s fun c => match c.wait with
      | .load rd => { c.set rd r.val r.poison with wait := .none }
      | .store => { c with wait := .none }
      | _ => c

/-- A till reply: RD := old, EX, SAT and PSN (Table 8-9). -/
def CcCtx.tillReply (c : CcCtx) (rd : Nat) (r : Nat × Bool × Bool × Bool) : CcCtx :=
  { c.set rd r.1 false with ex := r.2.1, sat := r.2.2.1, psn := r.2.2.2, wait := .none }

/-- TILL: a misaligned or out-of-range address is answered by the tile itself (R177). -/
def Dev.ccTill (d : Dev) (t s : Nat) : Dev :=
  match d.ccNext t s 0x32 with
  | none => d
  | some (x, _, w) =>
    let a := x.cc.get (ccRs1 w)
    let b := x.cc.get (ccRs2 w)
    let l := x.cc.get (ccRs3 w)
    if a.2 || b.2 || l.2 then d.ccFault t s E.TIL_CC_POISON_USE
    else
      let inScratch := match place a.1 with
        | .scratch _ _ => true
        | _ => false
      if a.1 % 8 != 0 || !inScratch then
        (d.event E.TIL_TILL_ALIGN (tileAdd t)).ccIssued t s fun c => c.tillReply (ccRd w) (0, true, false, false)
      else
        let q : TillReq := ⟨t, s, a.1, b.1, l.1, none, d.net.next⟩
        let d := { d with net := { d.net with till := d.net.till ++ [q], next := d.net.next + 1 } }
        d.ccIssued t s fun c => { c with wait := .till (ccRd w) }

/-- TILL_REPLY (R175). -/
def Dev.tillReply (d : Dev) (t s : Nat) : Dev :=
  match d.net.till.find? fun r => r.tile == t && r.op == s && r.reply.isSome with
  | none => d
  | some r =>
    if d.replyAhead t r.addr r.seq then d else
    let d := { d with net := { d.net with till := d.net.till.erase r } }
    d.modCc t s fun c => match c.wait, r.reply with
      | .till rd, some q => c.tillReply rd q
      | _, _ => c

/-! ## Tokens -/

/-- QPOP: the head of input IMM into the token buffer; RD := the tag (R210). -/
def Dev.ccQpop (d : Dev) (t s : Nat) : Dev :=
  match d.ccNext t s 0x40 with
  | none => d
  | some (x, c, w) =>
    let i := (bits w 18 14)
    match d.ready t x c i with
    | none => d
    | some k =>
      let tag := k.kind.toNat + (if k.epoch then 8 else 0) + 16 * k.seq.toNat
      let pz := k.kind.toNat == kPoison
      ((d.popIn t c i).markFired t s).ccIssued t s fun y =>
        { y.set (ccRd w) tag false with buf := k.payload, bufPoison := if pz then 0xFF else 0 }

/-- QPUSH: the token buffer to output IMM with the kind in RS1; POISON where the buffer or RS1 is poisoned (R210, R212). -/
def Dev.ccQpush (d : Dev) (t s : Nat) : Dev :=
  match d.ccNext t s 0x41 with
  | none => d
  | some (x, c, w) =>
    let o := (bits w 18 14)
    let a := x.cc.get (ccRs1 w)
    let kind := a.1 % 8
    if badPush a.1 then d.ccFault t s E.TIL_CC_BAD_KIND
    else if d.credit c o then
      let kind := if x.cc.bufPoison != 0 || a.2 then kPoison else kind
      ((d.putOut t s c o kind x.cc.buf).markFired t s).ccIssued t s id
    else d

/-- The buffer word an IMM names: 0–7; which word another IMM names is not stated. -/
def Dev.ccWord (d : Dev) (w : Nat) : Nat × Dev :=
  let i := bits w 18 14
  if i < 8 then (i, d) else d.fresh 3

/-- TBRD. -/
def Dev.ccTbrd (d : Dev) (t s : Nat) : Dev :=
  match d.ccNext t s 0x42 with
  | none => d
  | some (x, _, w) =>
    let r := d.ccWord w
    r.2.ccIssued t s fun c => c.set (ccRd w) (bits x.cc.buf.toNat (64 * r.1) 64) (bit x.cc.bufPoison r.1)

/-- TBWR. -/
def Dev.ccTbwr (d : Dev) (t s : Nat) : Dev :=
  match d.ccNext t s 0x43 with
  | none => d
  | some (x, _, w) =>
    let r := d.ccWord w
    let v := x.cc.get (ccRs1 w)
    let b := x.cc.buf.toNat
    let b := b - bits b (64 * r.1) 64 * 2 ^ (64 * r.1) + v.1 * 2 ^ (64 * r.1)
    r.2.ccIssued t s fun c => { c with buf := BitVec.ofNat 512 b, bufPoison := setBit c.bufPoison r.1 v.2 }

/-! ## The tile -/

/-- BCAST: slot IMM := RS1, for the firings that issue from the next cycle on (R207). -/
def Dev.ccBcast (d : Dev) (t s : Nat) : Dev :=
  match d.ccNext t s 0x50 with
  | none => d
  | some (x, _, w) =>
    let r := d.ccWord w
    let v := x.cc.get (ccRs1 w)
    (r.2.modTile t fun y => { y with bnext := fmSet y.bnext r.1 v }).ccIssued t s id

/-- EXTW: TIL_EXT slot RS1[5:0] := (RS2, RS3), unless register space has written the slot in this core cycle (R183, R216). -/
def Dev.ccExtw (d : Dev) (t s : Nat) : Dev :=
  match d.ccNext t s 0x51 with
  | none => d
  | some (x, _, w) =>
    let a := x.cc.get (ccRs1 w)
    let m := x.cc.get (ccRs2 w)
    let n := x.cc.get (ccRs3 w)
    if a.2 || m.2 || n.2 then d.ccFault t s E.TIL_CC_POISON_USE
    else
      let k := a.1 % 64
      let o := tileAdd t + 8 * k
      let e := if (d.tile t).extReg.contains k then d
        else ((d.keepExt t k false).fset F.TIL_EXT_EXT_M m.1 o).fset F.TIL_EXT_EXT_N n.1 o
      e.ccIssued t s id

/-- VSETE: the element counter of the vector operator in slot IMM := RS1 (R201), once this cycle's firing has taken the old value
(R216). -/
def Dev.ccVsete (d : Dev) (t s : Nat) : Dev :=
  match d.ccNext t s 0x52 with
  | none => d
  | some (x, _, w) =>
    let a := x.cc.get (ccRs1 w)
    if a.2 then d.ccFault t s E.TIL_CC_POISON_USE
    else
      let u := bits w 18 14
      let isVec := match (d.slot t u).active with
        | some c => c.cls == 1 && decide (u < 32)
        | none => false
      let d := if isVec then d.modSlot t u fun y => { y with vx := { y.vx with vsete := some a.1 } } else d
      d.ccIssued t s id

/-- STAGE: a stage request for configuration RS1 (R148, R213). -/
def Dev.ccStage (d : Dev) (t s : Nat) : Dev :=
  match d.ccNext t s 0x53 with
  | none => d
  | some (x, _, w) =>
    let a := x.cc.get (ccRs1 w)
    if a.2 then d.ccFault t s E.TIL_CC_POISON_USE
    else if d.mayStage (tileHalf t) a.1 then (d.stage (tileHalf t) a.1).ccIssued t s id
    else d.ccFault t s E.TIL_CC_STAGE

/-- EEND: the program ends for its epoch; an operator without live inputs swaps once its shadow is ready (R154). -/
def Dev.ccEend (d : Dev) (t s : Nat) : Dev :=
  match d.ccNext t s 0x54 with
  | none => d
  | some _ => (d.ccIssued t s fun c => { c with ended := true }).autoSwap t s

/-- CSRR: the CSRs of Table 8-9. -/
def Dev.ccCsrr (d : Dev) (t s : Nat) : Dev :=
  match d.ccNext t s 0x55 with
  | none => d
  | some (x, _, w) =>
    let v := match bits w 18 14 with
      | 0 => d.now
      | 1 => d.readReg .uhlea 0x100008
      | 2 => d.fget F.TIL_VX_STEP_STEP (tileAdd t)
      | 3 => Config.flagsWord x.cc.ex x.cc.sat x.cc.psn
      | 4 => t
      | 5 => d.fget F.DEV_FABRIC_ID
      | _ => s
    d.ccIssued t s fun c => c.set (ccRd w) v false

/-! ## Barriers, votes, the tally -/

/-- The key of a barrier or vote channel of a tile's scope. -/
def Dev.syncKey (d : Dev) (h : HalfId) (k : Nat) : Nat := (if d.split && h then 64 else 0) + k

/-- BAR: the tile arrives at barrier IMM, and the operator waits (R259). -/
def Dev.ccBar (d : Dev) (t s : Nat) : Dev :=
  match d.ccNext t s 0x60 with
  | none => d
  | some (_, _, w) =>
    let b := bits w 18 14
    let d := { d with net := { d.net with bars := fmMod d.net.bars (d.syncKey (tileHalf t) b) [] (fun l =>
      if l.contains t then l else l ++ [t]) } }
    d.ccIssued t s fun c => { c with wait := .barrier b }

/-- The tiles of a half's scope. -/
def Dev.scopeTiles (d : Dev) (h : HalfId) : List Nat :=
  if d.split then (List.range 256).map (fun i => (if h then 256 else 0) + i) else List.range 512

/-- Every waiting operator of a scope that meets `p` is changed. -/
def Dev.releaseCc (d : Dev) (h : HalfId) (p : CcWait → Bool) (f : CcCtx → CcCtx) : Dev :=
  { d with slots := fmMap d.slots (fun k x =>
      if p x.cc.wait && (!d.split || tileHalf (k / 32) == h) then { x with cc := f x.cc } else x) }

/-- BARRIER_COMPLETE: the hub has the arrival of every participating tile; the waiting operators are released (R259). -/
def Dev.barrierComplete (d : Dev) (h : HalfId) (b : Nat) : Dev :=
  let l := (fmGet d.net.bars (d.syncKey h b)).getD []
  let ps := (d.scopeTiles h).filter fun t => bit (d.fget F.TIL_SYNC_BMASK_MASK (tileAdd t)) b
  if l.isEmpty || !ps.all (l.contains ·) then d
  else
    let d := { d with net := { d.net with bars := fmErase d.net.bars (d.syncKey h b) } }
    d.releaseCc h (fun w => w == .barrier b) fun c => { c with wait := .none }

/-- VOR and VAND: RS1 bit 0 on the channel RS2[2:0] (R260); a second use on a tile in one generation is not counted (R261). -/
def Dev.ccVote (d : Dev) (t s op : Nat) (isAnd : Bool) : Dev :=
  match d.ccNext t s op with
  | none => d
  | some (x, _, w) =>
    let a := x.cc.get (ccRs1 w)
    let b := x.cc.get (ccRs2 w)
    let ch := b.1 % 8
    let v := a.1 % 2 == 1
    let d := { d with net := { d.net with votes := fmMod d.net.votes (d.syncKey (tileHalf t) ch) [] (fun l =>
      if l.any (fun p => p.1 == t) then l else l ++ [(t, v || a.2, v && !a.2)]) } }
    d.ccIssued t s fun c => { c with wait := .vote ch (ccRd w) isAnd (a.2 || b.2) }

/-- The tile's code holds a VOR or a VAND among its instruction words (R260). -/
def Tile.votes (x : Tile) : Bool :=
  (List.range (x.code.length / 4)).any fun i =>
    x.isInstr (4 * i) && (let o := leAt x.code (4 * i) 1; o == 0x61 || o == 0x62)

/-- VOTE_RESULT: every participant has contributed, and the hub returns the OR and the AND (R260). -/
def Dev.voteResult (d : Dev) (h : HalfId) (ch : Nat) : Dev :=
  let l := (fmGet d.net.votes (d.syncKey h ch)).getD []
  let ps := (d.scopeTiles h).filter fun t => (d.tile t).votes
  if l.isEmpty || !ps.all (fun t => l.any fun p => p.1 == t) then d
  else
    let o := l.any fun p => p.2.1
    let a := l.all fun p => p.2.2
    let d := { d with net := { d.net with votes := fmErase d.net.votes (d.syncKey h ch) } }
    d.releaseCc h (fun w => match w with | .vote c _ _ _ => c == ch | _ => false) fun c =>
      match c.wait with
      | .vote _ rd isAnd p => { c.set rd (if (if isAnd then a else o) then 1 else 0) p with wait := .none }
      | _ => c

/-- WAITT: waits until the tally count is at least RS1. -/
def Dev.ccWaitt (d : Dev) (t s : Nat) : Dev :=
  match d.ccNext t s 0x63 with
  | none => d
  | some (x, _, w) =>
    let a := x.cc.get (ccRs1 w)
    if a.2 then d.ccFault t s E.TIL_CC_POISON_USE
    else if a.1 ≤ d.now then d.ccIssued t s id
    else d.ccIssued t s fun c => { c with wait := .tally a.1 }

/-- WAITT_RELEASE. -/
def Dev.waittRelease (d : Dev) (t s : Nat) : Dev :=
  d.modCc t s fun c => match c.wait with
    | .tally n => if n ≤ d.now then { c with wait := .none } else c
    | _ => c

/-- TILE_COMMAND: a command message reaches its tile (R256). Its 32 bytes are held; what a command asks of a tile is no part
of the spec. -/
def Dev.tileCommand (d : Dev) (t : Nat) (body : List Byte) : Dev :=
  d.modTile t fun x => { x with cmds := x.cmds ++ [(body ++ List.replicate 32 0#8).take 32] }

end Sys2Proof.Machine
end

