-- ==== Sys2Proof/Machine/Num.lean ====
section
/-! DEFINITION. Numbers: the formats of Table 3-3 and Table 8-5, exact values, rounding (R66, R199), the column sum (R73), the
approximated functions (R194). -/

namespace Sys2Proof.Machine

/-- The exact value of an encoding: NaN, an infinity, or ±m·2^e (a zero keeps its sign). -/
inductive Val where
  | nan
  | inf (neg : Bool)
  | fin (neg : Bool) (m : Nat) (e : Int)
  deriving DecidableEq, Repr

/-- What a format has above its largest finite value (Table 3-3): infinities and NaNs, one NaN code, or neither. -/
inductive Top where
  | ieee | nanOnly | none
  deriving DecidableEq, Repr

/-- A floating-point format: bits, mantissa bits, exponent of the smallest subnormal, codes above the largest finite. -/
structure Fmt where
  width : Nat
  mb : Nat
  qmin : Int
  top : Top
  /-- The largest finite encoding without its sign. -/
  big : Nat
  deriving DecidableEq, Repr

/-- FP32 (Table 3-3's companions). -/
def fp32 : Fmt := ⟨32, 23, -149, .ieee, 0x7F7FFFFF⟩
/-- TF32's 19 bits. -/
def tf32 : Fmt := ⟨19, 10, -136, .ieee, 0x3FBFF⟩
def bf16 : Fmt := ⟨16, 7, -133, .ieee, 0x7F7F⟩
def fp16 : Fmt := ⟨16, 10, -24, .ieee, 0x7BFF⟩
def e4m3 : Fmt := ⟨8, 3, -9, .nanOnly, 0x7E⟩
def e5m2 : Fmt := ⟨8, 2, -16, .ieee, 0x7B⟩
def e2m3 : Fmt := ⟨6, 3, -3, .none, 0x1F⟩
def e3m2 : Fmt := ⟨6, 2, -4, .none, 0x1F⟩
def e2m1 : Fmt := ⟨4, 1, -1, .none, 0x7⟩

/-- The sign bit of an encoding. -/
def Fmt.sign (f : Fmt) (x : Nat) : Bool := bit x (f.width - 1)

/-- The value of an encoding (R62). -/
def Fmt.val (f : Fmt) (x : Nat) : Val :=
  let s := f.sign x
  let x := bits x 0 (f.width - 1)
  let m := bits x 0 f.mb
  let e := x / 2 ^ f.mb
  if f.big < x then
    (if f.top = .ieee then (if m = 0 then .inf s else .nan) else if f.top = .nanOnly then .nan else .fin s m f.qmin)
  else if e = 0 then .fin s m f.qmin
  else .fin s (m + 2 ^ f.mb) (f.qmin + e - 1)

/-- The canonical NaN of a format that has one (R66). -/
def Fmt.nan (f : Fmt) : Nat :=
  if f.top = .ieee then (f.big / 2 ^ f.mb + 1) * 2 ^ f.mb + 2 ^ (f.mb - 1) else if f.top = .nanOnly then f.big + 1 else 0

/-- An infinity, or where the format has none its largest finite value (Table 3-4). -/
def Fmt.infinity (f : Fmt) (s : Bool) : Nat :=
  (if s then 2 ^ (f.width - 1) else 0) + (if f.top = .ieee then (f.big / 2 ^ f.mb + 1) * 2 ^ f.mb else f.big)

/-- Rounding modes of Table 8-2. -/
inductive Rnd where
  | rne | trunc | stoch (r : Nat)
  deriving DecidableEq, Repr

/-- m / 2^k rounded to an integer (R66, R199). -/
def roundShift (m k : Nat) (r : Rnd) : Nat :=
  let lo := m / 2 ^ k
  let rest := m % 2 ^ k
  match r with
  | .trunc => lo
  | .rne =>
    let h := 2 ^ (k - 1)
    if k = 0 || rest < h then lo else if h < rest then lo + 1 else lo + lo % 2
  | .stoch w => if rest = 0 then lo else if w < rest * 2 ^ 32 / 2 ^ k then lo + 1 else lo

/-- The bits of the number of binary digits above the lowest: ⌊log2 m⌋ for m > 0. -/
def topBit (m : Nat) : Nat := Nat.log2 m

/-- The quantum's exponent of a magnitude in a format. -/
def Fmt.quantum (f : Fmt) (m : Nat) (e : Int) : Int := max f.qmin (e + topBit m - f.mb)

/-- A finite value rounded to a format; `true`: the rounded magnitude exceeds the largest finite value (R66). -/
def Fmt.roundMag (f : Fmt) (m : Nat) (e : Int) (r : Rnd) : Nat × Bool :=
  if m = 0 then (0, false) else
  let q := f.quantum m e
  let n := if q ≤ e then m * 2 ^ (e - q).toNat else roundShift m (q - e).toNat r
  let x := (q - f.qmin).toNat * 2 ^ f.mb + n
  (min x f.big, decide (f.big < x))

/-- The encoding of a value (R66, Table 3-4): the bits, and whether a NaN met a format without one. -/
def Fmt.enc (f : Fmt) (v : Val) (r : Rnd) : Nat × Bool :=
  match v with
  | .nan => (f.nan, f.top == .none)
  | .inf s => (f.infinity s, false)
  | .fin s m e =>
    let (x, beyond) := f.roundMag m e r
    let sb := if s then 2 ^ (f.width - 1) else 0
    if beyond then ((if r = .trunc then sb + f.big else f.infinity s), false) else (sb + x, false)

/-- The encoding under round-to-nearest-even. -/
def Fmt.rne (f : Fmt) (v : Val) : Nat := (f.enc v .rne).1

/-- The negated value. -/
def Val.neg : Val → Val
  | .nan => .nan
  | .inf s => .inf (!s)
  | .fin s m e => .fin (!s) m e

/-- The value times 2^k. -/
def Val.scale : Val → Int → Val
  | .fin s m e, k => .fin s m (e + k)
  | v, _ => v

/-- Exact product (R70). -/
def Val.mul : Val → Val → Val
  | .nan, _ => .nan
  | _, .nan => .nan
  | .inf s, .inf t => .inf (s != t)
  | .inf s, .fin t m _ => if m = 0 then .nan else .inf (s != t)
  | .fin s m _, .inf t => if m = 0 then .nan else .inf (s != t)
  | .fin s m e, .fin t n f => .fin (s != t) (m * n) (e + f)

/-- A signed integer times 2^e; a zero is +0. -/
def Val.ofInt (z : Int) (e : Int) : Val := .fin (decide (z < 0)) z.natAbs e

/-- A finite value as a signed multiple of 2^q (q at most its exponent). -/
def signedAt (s : Bool) (m : Nat) (e q : Int) : Int :=
  let n : Int := m * 2 ^ (e - q).toNat
  if s then -n else n

/-- Exact sum of two values (R70, R71). -/
def Val.add : Val → Val → Val
  | .nan, _ => .nan
  | _, .nan => .nan
  | .inf s, .inf t => if s = t then .inf s else .nan
  | .inf s, .fin _ _ _ => .inf s
  | .fin _ _ _, .inf t => .inf t
  | .fin s m e, .fin t n f =>
    if m = 0 && n = 0 then .fin (s && t) 0 0
    else
      let q := min e f
      .ofInt (signedAt s m e q + signedAt t n f q) q

/-- A value's addends of a sum reduced to those of nonzero magnitude, with the largest leading-bit position. -/
def topPos (vs : List Val) : Option Int :=
  vs.foldl (fun b v =>
    match v with
    | .fin _ m e => if m = 0 then b else
        let p := e + topBit m
        match b with
        | none => some p
        | some x => some (max x p)
    | _ => b) none

/-- The column tree (R70, R71, R73): addends that are present, in; an FP32 encoding, out. -/
def colSum (vs : List Val) : Nat :=
  if vs.any (· == .nan) then fp32.nan
  else
    let pos := vs.any (· == .inf false)
    let neg := vs.any (· == .inf true)
    if pos && neg then fp32.nan
    else if pos || neg then fp32.infinity neg
    else
      match topPos vs with
      | none => if vs.all (fun v => match v with | .fin s _ _ => s | _ => false) && !vs.isEmpty then 2 ^ 31 else 0
      | some p =>
        let q := p - 40
        let z : Int := vs.foldl (fun a v =>
          match v with
          | .fin s m e =>
            let n : Int := if q ≤ e then m * 2 ^ (e - q).toNat else m / 2 ^ (q - e).toNat
            if s then a - n else a + n
          | _ => a) 0
        fp32.rne (.ofInt z q)

/-- FP32 addition with one rounding (R74). -/
def addF32 (a b : Nat) : Nat := fp32.rne ((fp32.val a).add (fp32.val b))

/-- An FP32 value's three BF16 parts hi, mid and lo, each by truncation; of an infinity or a NaN, mid and lo are zero (R81). -/
def split32 (x : Nat) : Nat × Nat × Nat :=
  let cut (v : Val) : Nat := (bf16.enc v .trunc).1
  match fp32.val x with
  | .fin s m e =>
    let hi := cut (.fin s m e)
    let r := fp32.val (fp32.rne ((Val.fin s m e).add (bf16.val hi).neg))
    let mid := cut r
    (hi, mid, cut (r.add (bf16.val mid).neg))
  | v => (cut v, 0, 0)

/-- A two's complement number of `w` bits. -/
def toInt (w x : Nat) : Int := if bit x (w - 1) then (x % 2 ^ w : Int) - 2 ^ w else x % 2 ^ w

/-- The two's complement encoding in `w` bits. -/
def ofInt (w : Nat) (z : Int) : Nat := (z % 2 ^ w).toNat

/-- Saturation to the signed range of `w` bits; `true`: it saturated. -/
def satInt (w : Nat) (z : Int) : Int × Bool :=
  let hi : Int := 2 ^ (w - 1) - 1
  if hi < z then (hi, true) else if z < -hi - 1 then (-hi - 1, true) else (z, false)

/-- A finite value rounded to an integer. -/
def roundToInt (s : Bool) (m : Nat) (e : Int) (r : Rnd) : Int :=
  let n : Nat := if 0 ≤ e then m * 2 ^ e.toNat else roundShift m (-e).toNat r
  if s then -n else n

/-- The order of two values that are not NaN, −0 below +0 (R193). -/
def Val.lt : Val → Val → Bool
  | .nan, _ => false
  | _, .nan => false
  | .inf s, .inf t => s && !t
  | .inf s, .fin _ _ _ => s
  | .fin _ _ _, .inf t => !t
  | .fin s m e, .fin t n f =>
    if m = 0 && n = 0 then s && !t
    else
      let q := min e f
      decide (signedAt s m e q < signedAt t n f q)

/-- The order of two numbers as numbers: the zeros are equal. -/
def Val.ltNum (a b : Val) : Bool :=
  match a, b with
  | .fin _ 0 _, .fin _ 0 _ => false
  | a, b => a.lt b

/-- The numbers are equal; a NaN equals nothing. -/
def Val.eqNum (a b : Val) : Bool := a != .nan && b != .nan && !a.ltNum b && !b.ltNum a

/-! ## The approximated functions (R194) -/

/-- 2^96, the unit of the working precision. -/
def one96 : Nat := 2 ^ 96

/-- ⌊√m⌋ by bits. -/
def isqrtGo (m : Nat) : Nat → Nat → Nat
  | 0, r => r
  | k + 1, r => let t := r + 2 ^ k; isqrtGo m k (if t * t ≤ m then t else r)

/-- ⌊√m⌋ for m below 2^256. -/
def isqrt (m : Nat) : Nat := isqrtGo m 128 0

/-- 2^(f / 2^n) in units of 2^−96, for f below 2^n, from successive square roots of 2. -/
def exp2Go (f : Nat) : Nat → Nat → Nat → Nat
  | 0, _, a => a
  | n + 1, root, a =>
    let root := isqrt (root * one96)
    exp2Go f n root (if bit f n then a * root / one96 else a)

/-- 2^(f / 2^64) in units of 2^−96. -/
def exp2Frac (f : Nat) : Nat := exp2Go f 64 (2 * one96) one96

/-- The fraction bits of log2 of a number in [1, 2) (units of 2^−96), most significant first. -/
def log2Go : Nat → Nat → Nat → Nat
  | 0, _, a => a
  | n + 1, x, a =>
    let y := x * x / one96
    if 2 * one96 ≤ y then log2Go n (y / 2) (2 * a + 1) else log2Go n y (2 * a)

/-- The results within `u` units in the last place of a magnitude m·2^e (`exact`: the magnitude is exact, otherwise it lies
at or above m·2^e and below (m+1)·2^e), as magnitudes of the format; an overflow by R66 is one of its own. -/
def Fmt.near (f : Fmt) (m : Nat) (e : Int) (exact : Bool) (u : Nat) : List Nat :=
  let q := f.quantum m e
  let n := if q ≤ e then m * 2 ^ (e - q).toNat else m / 2 ^ (q - e).toNat
  let ex := exact && (q ≤ e || m % 2 ^ (q - e).toNat = 0)
  let base : Int := n
  let lo := base - u + (if ex then 0 else 1)
  ((List.range (2 * u + 1)).map fun (i : Nat) => lo + (i : Int)).filterMap fun (z : Int) =>
    if z < 0 || base + u < z || (2 ^ (f.mb + 1) : Int) < z then none
    else
      let x := (q - f.qmin).toNat * 2 ^ f.mb + z.toNat
      if x ≤ f.big then some x else none

/-- One of the admissible results: the free choice of R194. -/
def pick (op ty x : Nat) (l : List Nat) (dflt : Nat) : Nat := (l[Config.approx op ty x % max 1 l.length]?).getD dflt

/-- EXP2 of an encoding of format `f` (R194); `ty` is the type code. -/
def exp2Op (f : Fmt) (ty x : Nat) : Nat :=
  match f.val x with
  | .nan => f.nan
  | .inf s => if s then 0 else f.infinity false
  | .fin s m e =>
    -- the exponent as an integer and a fraction of 2^64
    let z : Int := if -64 ≤ e then signedAt s m e (-64) else signedAt s m e e / 2 ^ (-64 - e).toNat
    let k := z / 2 ^ 64
    let fr := (z % 2 ^ 64).toNat
    if 2000 < k then f.infinity false
    else if k < -2000 then pick 9 ty x [0, 1, 2] 0
    else
      let mag := exp2Frac fr
      if (f.roundMag mag (k - 96) .rne).2 then f.infinity false
      else pick 9 ty x (f.near mag (k - 96) (fr = 0) 2) 0

/-- LOG2 of an encoding (R194). -/
def log2Op (f : Fmt) (ty x : Nat) : Nat :=
  match f.val x with
  | .nan => f.nan
  | .inf s => if s then f.nan else f.infinity false
  | .fin s m e =>
    if m = 0 then f.infinity true else if s then f.nan else
    let t := topBit m
    let k : Int := e + t
    let fr := log2Go 80 (m * one96 / 2 ^ t) 0
    let z : Int := k * 2 ^ 80 + fr
    if z = 0 then 0
    else pick 10 ty x ((f.near z.natAbs (-80) (fr = 0) 2).map fun y => if z < 0 then y + 2 ^ (f.width - 1) else y) 0

/-- RCP of an encoding (R194). -/
def rcpOp (f : Fmt) (ty x : Nat) : Nat :=
  match f.val x with
  | .nan => f.nan
  | .inf s => if s then 2 ^ (f.width - 1) else 0
  | .fin s m e =>
    if m = 0 then f.infinity s else
    let n := 2 ^ 160 / m
    if (f.roundMag n (-160 - e) .rne).2 then f.infinity s
    else pick 11 ty x ((f.near n (-160 - e) (2 ^ 160 % m = 0) 1).map fun y => if s then y + 2 ^ (f.width - 1) else y) 0

/-- RSQRT of an encoding (R194). -/
def rsqrtOp (f : Fmt) (ty x : Nat) : Nat :=
  match f.val x with
  | .nan => f.nan
  | .inf s => if s then f.nan else 0
  | .fin s m e =>
    if m = 0 then f.infinity s else if s then f.nan else
    let m2 := if e % 2 = 0 then m else 2 * m
    let e2 := if e % 2 = 0 then e else e - 1
    let n := isqrt (2 ^ 240 / m2)
    pick 12 ty x (f.near n (-120 - e2 / 2) (n * n * m2 = 2 ^ 240) 1) 0

end Sys2Proof.Machine
end

