-- ==== Sys2Proof/Machine/Vector.lean ====
section
/-! DEFINITION. The vector engine: firings, every operation of Table 8-4, conversions, stochastic rounding, reductions, row statistics,
output (R184–R205). -/

namespace Sys2Proof.Machine

/-! ## Instructions (Table 8-2) -/

/-- A vector instruction's fields. -/
structure VIns where
  op : Nat
  ty : Nat
  a : Nat
  b : Nat
  c : Nat
  part : Nat
  rnd : Nat
  deriving DecidableEq, Repr

/-- The fields of an instruction word. -/
def vins (w : Nat) : VIns := ⟨bits w 0 6, bits w 6 3, bits w 9 5, bits w 14 5, bits w 19 5, bits w 24 3, bits w 27 2⟩

/-- LEN, SPAN, VOTE, TENSOR_ID and instruction k of a body (Table 8-1). -/
def Cfg.vlen (c : Cfg) : Nat := leAt c.body 0 1
def Cfg.vspan (c : Cfg) : Nat := leAt c.body 1 1
def Cfg.vvote (c : Cfg) : Bool := bit (leAt c.body 2 1) 0
def Cfg.vtensor (c : Cfg) : Nat := leAt c.body 4 4
def Cfg.vins (c : Cfg) (k : Nat) : VIns := Machine.vins (leAt c.body (8 + 4 * k) 4)

/-- A paired type holds two 16-bit elements in a lane. -/
def paired (ty : Nat) : Bool := ty == 1 || ty == 2 || ty == 4

/-- The element width of a type. -/
def elemW (ty : Nat) : Nat := if paired ty then 16 else 32

/-- The format of a float type. -/
def tyFmt (ty : Nat) : Option Fmt := if ty = 0 then some fp32 else if ty = 1 then some bf16 else if ty = 2 then some fp16 else none

/-- The elements of a row of a type. -/
def elems (ty : Nat) (r : Row) : List Nat := (List.range (512 / elemW ty)).map fun j => bits r.toNat (elemW ty * j) (elemW ty)

/-- A row of elements of `w` bits. -/
def ofElems (w : Nat) (l : List Nat) : Row := BitVec.ofNat 512 (l.foldr (fun x acc => acc * 2 ^ w + x % 2 ^ w) 0)

/-- The cost of an operation in lane-group cycles (Table 8-4). -/
def vcost (op : Nat) : Nat := if 0x09 ≤ op && op ≤ 0x0C then 4 else if op = 0x24 then 5 else 1

/-! ## Arithmetic (R193) -/

/-- All ones or zero. -/
def mask (w : Nat) (b : Bool) : Nat := if b then 2 ^ w - 1 else 0

/-- Larger (`gt`) or smaller of two floats, NaN if either is (R193). -/
def fmax (f : Fmt) (gt : Bool) (a b : Nat) : Nat :=
  let x := f.val a
  let y := f.val b
  if x = .nan || y = .nan then f.nan else if x.lt y = gt then b else a

/-- An integer operation modulo the width. -/
def iop (w op : Nat) (a b c : Nat) : Nat :=
  let x := toInt w a
  let y := toInt w b
  match op with
  | 0x01 | 0x17 => ofInt w (x + y)
  | 0x02 | 0x18 => ofInt w (x - y)
  | 0x03 | 0x19 => ofInt w (x * y)
  | 0x04 => ofInt w (x * y + toInt w c)
  | 0x05 | 0x1A => if x < y then b else a
  | 0x06 | 0x1B => if y < x then b else a
  | 0x07 => ofInt w x.natAbs
  | 0x08 => ofInt w (-x)
  | 0x0D => mask w (x == y)
  | 0x0E => mask w (decide (x < y))
  | 0x0F => mask w (decide (x ≤ y))
  | _ => a

/-- A bitwise operation or shift; the count is taken modulo the width. -/
def bop (w op : Nat) (a b : Nat) : Nat :=
  let n := b % w
  match op with
  | 0x11 => a &&& b
  | 0x12 => a ||| b
  | 0x13 => a ^^^ b
  | 0x14 => a * 2 ^ n % 2 ^ w
  | 0x15 => a / 2 ^ n
  | _ => ofInt w (toInt w a / 2 ^ n)

/-- A float operation on encodings, rounded once to nearest even. -/
def fop (f : Fmt) (ty op : Nat) (a b c : Nat) : Nat :=
  let x := f.val a
  let y := f.val b
  match op with
  | 0x01 => f.rne (x.add y)
  | 0x02 => f.rne (x.add y.neg)
  | 0x03 => f.rne (x.mul y)
  | 0x04 => f.rne ((x.mul y).add (f.val c))
  | 0x05 => fmax f true a b
  | 0x06 => fmax f false a b
  | 0x07 => if x = .nan then f.nan else a % 2 ^ (f.width - 1)
  | 0x08 => if x = .nan then f.nan else a ^^^ 2 ^ (f.width - 1)
  | 0x09 => exp2Op f ty a
  | 0x0A => log2Op f ty a
  | 0x0B => rcpOp f ty a
  | 0x0C => rsqrtOp f ty a
  | 0x0D => mask f.width (x.eqNum y)
  | 0x0E => mask f.width (x.ltNum y)
  | 0x0F => mask f.width (x.ltNum y || x.eqNum y)
  | _ => a

/-- One element of an elementwise operation of Table 8-4. -/
def velem (ty op : Nat) (a b c : Nat) : Nat :=
  if op = 0x10 then (if c != 0 then a else b)
  else if 0x11 ≤ op && op ≤ 0x16 then bop (elemW ty) op a b
  else if 0x17 ≤ op && op ≤ 0x1B then iop (elemW ty) op a b c
  else match tyFmt ty with
    | some f => fop f ty op a b c
    | none => iop (elemW ty) op a b c

/-- An encoding is a NaN or an infinity. -/
def nonfinite (f : Fmt) (x : Nat) : Bool := match f.val x with
  | .fin _ _ _ => false
  | _ => true

/-- The operations whose value with a float TYPE is a float result (R202): every one but the bitwise and integer operations of R193. The
all-ones mask of a comparison that holds is a NaN of the TYPE, and so counts (DEDUCED: R202 excepts no comparison). -/
def floatResult (op : Nat) : Bool := !(0x11 ≤ op && op ≤ 0x1B)

/-- A row read in a float TYPE holds a NaN or an infinity. -/
def rowNonfinite (ty : Nat) (r : Row) : Bool :=
  match tyFmt ty with
  | some f => (elems ty r).any (nonfinite f)
  | none => false

/-! ## Conversions (R195–R198) -/

/-- A conversion format (Table 8-5): a float with its element width and the bits below its encoding, or an integer with its
sign, and whether it is an MX format. -/
inductive CFmt where
  | fl (f : Fmt) (w sh : Nat) (mx : Bool)
  | int (w : Nat) (signed mx : Bool)
  deriving DecidableEq, Repr

/-- Table 8-5. -/
def cfmt (c : Nat) : CFmt :=
  match c with
  | 0 => .fl fp32 32 0 false
  | 1 => .fl tf32 32 13 false
  | 2 => .fl bf16 16 0 false
  | 3 => .fl fp16 16 0 false
  | 4 => .fl e4m3 8 0 false
  | 5 => .fl e5m2 8 0 false
  | 6 => .fl e2m3 6 0 false
  | 7 => .fl e3m2 6 0 false
  | 8 => .fl e2m1 4 0 false
  | 9 => .int 32 true false
  | 10 => .int 16 true false
  | 11 => .int 8 true false
  | 12 => .int 4 true false
  | 13 => .int 8 false false
  | 14 => .fl e4m3 8 0 true
  | 15 => .fl e5m2 8 0 true
  | 16 => .fl e2m3 6 0 true
  | 17 => .fl e3m2 6 0 true
  | 18 => .fl e2m1 4 0 true
  | _ => .int 8 true true

def CFmt.width : CFmt → Nat
  | .fl _ w _ _ => w
  | .int w _ _ => w
def CFmt.mx : CFmt → Bool
  | .fl _ _ _ m => m
  | .int _ _ m => m

/-- The exponent of the largest normal value of an MX element format; 0 for MXINT8 (R198). -/
def emax (f : CFmt) : Int :=
  match f with
  | .fl f _ _ _ => match f.val f.big with
    | .fin _ m e => e + topBit m
    | _ => 0
  | .int _ _ _ => 0

/-- The rounding of RND for the element of index e (R199, R200). -/
def rndOf (rnd : Nat) (word : Nat) : Rnd := if rnd = 0 then .rne else if rnd = 1 then .trunc else .stoch word

/-- The random word of element e (R200). -/
def randomWord (tensor step seed e : Nat) : Nat :=
  let q := e / 4
  philox (bits q 0 32, bits q 32 32, bits step 0 32, bits step 32 32) (tensor, seed) (e % 4)

/-- A value saturated to an integer's range; `true`: a NaN or an infinity met it (Table 3-4). -/
def toIntFmt (w : Nat) (signed : Bool) (v : Val) (r : Rnd) : Nat × Bool :=
  let hi : Int := if signed then 2 ^ (w - 1) - 1 else 2 ^ w - 1
  let lo : Int := if signed then -(2 ^ (w - 1) : Int) else 0
  match v with
  | .nan => (0, true)
  | .inf s => (ofInt w (if s then lo else hi), true)
  | .fin s m e => (ofInt w (max lo (min hi (roundToInt s m e r))), false)

/-- The value of an element of a conversion format: MXINT8 counts in 2^−6 (R63). -/
def CFmt.val (f : CFmt) (x : Nat) : Val :=
  match f with
  | .fl f _ sh _ => f.val (x / 2 ^ sh)
  | .int w s mx => .ofInt (if s then toInt w x else (x : Int)) (if mx then -6 else 0)

/-- The element of a conversion format that a value becomes; `true`: the nonfinite indication of Table 3-4. -/
def CFmt.enc (f : CFmt) (v : Val) (r : Rnd) : Nat × Bool :=
  match f with
  | .fl f _ sh _ => let x := f.enc v r; (x.1 * 2 ^ sh, x.2)
  | .int w s mx => toIntFmt w s (if mx then v.scale 6 else v) r

/-- The exact value of an element of a type. -/
def tyVal (ty x : Nat) : Val := match tyFmt ty with
  | some f => f.val x
  | none => .ofInt (toInt (elemW ty) x) 0

/-- A value converted to a type; `true`: a nonfinite indication (R202). -/
def toTy (ty : Nat) (v : Val) (r : Rnd) : Nat × Bool :=
  match tyFmt ty with
  | some f => let x := (f.enc v r).1; (x, nonfinite f x)
  | none => toIntFmt (elemW ty) true v r

/-- Part PART of a token of a format: E elements of its width (R196). -/
def partElems (f : CFmt) (e part : Nat) (r : Row) : List Nat :=
  (List.range e).map fun i => bits r.toNat (f.width * (part * e + i)) f.width

/-- A part of a token replaced (R196). -/
def putPart (f : CFmt) (e part : Nat) (r : Row) (l : List Nat) : Row :=
  let w := f.width
  BitVec.ofNat 512 (l.zipIdx.foldl (fun n p =>
    let o := w * (part * e + p.2)
    n - bits n o w * 2 ^ o + p.1 % 2 ^ w * 2 ^ o) r.toNat)

/-- The E8M0 scale byte of a block (R198). -/
def mxScale (f : CFmt) (vs : List Val) : Nat :=
  if vs.any (fun v => match v with | .fin _ _ _ => false | _ => true) then 0xFF
  else match topPos vs with
    | none => 0x7F
    | some p => (max (-127) (min 127 (p - emax f)) + 127).toNat

/-! ## Reductions (R203, R204) -/

/-- FP32 or integer sum of a full tree in element order, absent elements left out: one level. -/
def treeLevel (add : Nat → Nat → Nat × Bool) : List (Option Nat) → List (Option Nat) × Bool
  | a :: b :: l =>
    let r := treeLevel add l
    match a, b with
    | some x, some y => let z := add x y; (some z.1 :: r.1, z.2 || r.2)
    | none, y => (y :: r.1, r.2)
    | x, none => (x :: r.1, r.2)
  | l => (l, false)

/-- The whole tree; `fuel` is the number of levels. -/
def treeSum (add : Nat → Nat → Nat × Bool) : Nat → List (Option Nat) → Option Nat × Bool
  | 0, l => (l.headD none, false)
  | n + 1, l =>
    let r := treeLevel add l
    let s := treeSum add n r.1
    (s.1, s.2 || r.2)

/-- The addition of a RED SUM: FP32, or INT32 that saturates (R203). -/
def redAdd (ty : Nat) (a b : Nat) : Nat × Bool :=
  if ty = 3 then let s := satInt 32 (toInt 32 a + toInt 32 b); (ofInt 32 s.1, s.2) else (addF32 a b, false)

/-- An element of a RED: 32-bit types as they are, 16-bit ones in FP32 (R203). -/
def redElem (ty x : Nat) : Nat := if paired ty then fp32.rne (tyVal ty x) else x

/-- Larger or smaller of two RED values. -/
def redMax (ty : Nat) (gt : Bool) (a b : Nat) : Nat :=
  if ty = 3 then (if decide (toInt 32 a < toInt 32 b) = gt then b else a) else fmax fp32 gt a b

/-- The ARGMAX of two candidates in order: a NaN counts as largest and the first stays; numbers are compared as numbers, so the zeros
tie (R203). -/
def redArg (ty : Nat) (a b : RedPart) : RedPart :=
  match a.val, b.val with
  | none, _ => b
  | _, none => a
  | some x, some y =>
    if ty = 3 then (if toInt 32 x < toInt 32 y then b else a)
    else if fp32.val x = .nan then a
    else if fp32.val y = .nan || (fp32.val x).ltNum (fp32.val y) then b else a

/-- One firing's part of a reduction: its elements, with the absent ones as `none` (R203). -/
def redPart (ty fn at_ : Nat) (xs : List (Option Nat)) : RedPart × Bool :=
  let ys := xs.map (·.map (redElem ty))
  match fn with
  | 0 => let r := treeSum (redAdd ty) 5 ys; (⟨at_, r.1, 0⟩, r.2)
  | 3 =>
    let ps := ys.zipIdx.map fun p => (⟨at_, p.1, at_ * xs.length + p.2⟩ : RedPart)
    (ps.foldl (redArg ty) ⟨at_, none, 0⟩, false)
  | _ =>
    (⟨at_, ys.foldl (fun a y => match a, y with
      | none, y => y
      | a, none => a
      | some a, some y => some (redMax ty (fn == 1) a y)) none, 0⟩, false)

/-- The parts of a span combined in firing order: the value, ARGMAX's index, whether an INT32 sum saturated. -/
def redJoin (ty fn : Nat) (ps : List RedPart) : Option Nat × Nat × Bool :=
  match fn with
  | 0 => let r := treeSum (redAdd ty) 4 (ps.map (·.val)); (r.1, 0, r.2)
  | 3 =>
    match ps with
    | [] => (none, 0, false)
    | p :: l => let r := l.foldl (redArg ty) p; (r.val, r.idx, false)
  | _ =>
    (ps.foldl (fun a p => match a, p.val with
      | none, y => y
      | a, none => a
      | some a, some y => some (redMax ty (fn == 1) a y)) none, 0, false)

/-! ## Firing -/

/-- A slot's strand context changed. -/
def Dev.modVx (d : Dev) (t s : Nat) (f : VxCtx → VxCtx) : Dev := d.modSlot t s fun x => { x with vx := f x.vx }

/-- The elements of a firing: those of the TYPE of the body's first instruction. -/
def Cfg.firingElems (c : Cfg) : Nat := if c.vlen = 0 then 16 else 512 / elemW (c.vins 0).ty

/-- The lowest-numbered free lane group (R186). -/
def Tile.freeGroup (t : Tile) : Option Nat := (List.range 16).find? fun g => (fmGet t.groups g).isNone

/-- A lane group takes a firing, or is freed. -/
def Dev.setGroup (d : Dev) (t g : Nat) (f : Option VFire) : Dev :=
  let d := d.modTile t fun x => { x with groups := match f with
    | some f => fmSet x.groups g f
    | none => fmErase x.groups g }
  d.fset F.TIL_VX_STATUS_GROUPS_BUSY (d.tile t).groups.length (tileAdd t)

/-- A firing has executed its last instruction: its tokens stand ready to leave in firing order (R187, R188). -/
def Dev.firingDone (d : Dev) (t g : Nat) (f : VFire) : Dev :=
  let kind := if f.poison then kPoison else if f.void then kVoid else kData
  (d.setGroup t g none).modVx t f.slot fun v => { v with done := fmSet v.done f.num (kind, f.outs) }

/-- The vector operator in slot s is ready to fire (R120). -/
def Dev.vxReady (d : Dev) (t s : Nat) : Option (Slot × Cfg) :=
  match d.canFire t s [1] with
  | none => none
  | some (x, c) =>
    if c.live.all (fun i => (d.ready t x c i).isSome) && (List.range c.outs.length).all (d.credit c) then some (x, c) else none

/-- The vector engine issues for the operator in slot s next: it has issued nothing in this cycle, and no ready operator comes before it
in rotation (R109). -/
def Dev.vxTurn (d : Dev) (t s : Nat) : Bool :=
  let y := d.tile t
  !y.vxBusy && firstTurn y.vxLast s fun u => (d.vxReady t u).isSome

/-- VECTOR_FIRE: one firing issues to the lowest free lane group (R186), where it is the operator's turn (R109), with its tokens and every
broadcast slot sampled (R207) and the element counter advanced (R201). `vsete`: a VSETE of this operator falls in the same cycle, so the
counter keeps its value (R216). -/
def Dev.vectorFire (d : Dev) (t s : Nat) (vsete : Option Nat) : Dev :=
  match d.vxReady t s with
  | none => d
  | some (x, c) =>
    let is := List.range c.ins.length
    let os := List.range c.outs.length
    match (d.tile t).freeGroup with
    | none => d
    | some g =>
      if d.vxTurn t s then
        let ks := is.map fun i => d.ready t x c i
        let has (k : Nat) : Bool := ks.any fun z => (z.map fun z => z.kind.toNat == k).getD false
        let f : VFire :=
          { slot := s, num := x.vx.issued, pc := 0, ins := ks.map fun z => (z.map (·.payload)).getD 0
            bslots := (List.range 8).map fun k => (fmGet (d.tile t).bslots k).getD 0
            bpoison := (d.tile t).bpoison, trans := [], outs := os.map fun _ => 0
            poison := has kPoison, void := has kVoid, elem := x.vx.elem, span := x.vx.span }
        let d := (d.popIns t c is)
        let d := os.foldl (fun d o => d.reserve c o) d
        let d := d.modVx t s fun v =>
          { v with issued := v.issued + 1
                   elem := match vsete with
                     | some n => n % 2 ^ 64
                     | none => (v.elem + c.firingElems) % 2 ^ 64
                   span := if c.vspan = 0 then 0 else (v.span + 1) % c.vspan }
        let d := d.modTile t fun y => { y with vxLast := s, vxBusy := true }
        let d := (d.count F.TIL_VX_ISSUED_COUNT 1 (tileAdd t)).markFired t s
        if c.vlen = 0 then (d.setGroup t g (some f)).firingDone t g f else d.setGroup t g (some f)
      else d

/-- A source of Table 8-3: an input, a broadcast slot in every lane, or a transient. -/
def VFire.src (f : VFire) (n : Nat) : Row :=
  if n < 8 then (f.ins[n]?).getD 0
  else if n < 16 then ofElems 32 (List.replicate 16 (bits ((f.bslots[n - 8]?).getD 0) 0 32))
  else (f.trans[n - 16]?).getD 0

/-- The firing read a poisoned broadcast slot. -/
def VFire.readsPoison (f : VFire) (ns : List Nat) : Bool := ns.any fun n => decide (8 ≤ n) && decide (n < 16) && bit f.bpoison (n - 8)

/-- The sources an instruction reads. -/
def VIns.srcs (i : VIns) : List Nat :=
  if i.op = 0x1C then (if (cfmt i.c).mx then [i.a, i.a + 1] else [i.a])
  else if i.op = 0x1D || i.op = 0x1E || (0x07 ≤ i.op && i.op ≤ 0x0C) then [i.a]
  else if i.op = 0x1F then []
  else if i.op = 0x20 then (if bit i.part 0 then [i.a, i.c] else [i.a])
  else if i.op = 0x24 || i.op = 0x26 then [i.a, i.b]
  else if i.op = 0x25 || i.op = 0x27 then [i.b]
  else if i.op = 0x04 || i.op = 0x10 then [i.a, i.b, i.c]
  else [i.a, i.b]

/-- The firing on group g of tile t whose next instruction is `op`, with its configuration; instruction k of a firing runs
after instruction k of every earlier firing of the operator (R187), and none in a cycle that the throttle gates (R264). -/
def Dev.vnext (d : Dev) (t g op : Nat) : Option (VFire × Cfg × VIns) :=
  match fmGet (d.tile t).groups g with
  | none => none
  | some f =>
    match (d.slot t f.slot).active with
    | none => none
    | some c =>
      let i := c.vins f.pc
      if i.op = op && !d.gated (tileHalf t) && !((d.tile t).groups.any fun p => p.2.slot == f.slot && decide (p.2.num < f.num) && decide (p.2.pc ≤ f.pc))
      then some (f, c, i) else none

/-- A lane raises its nonfinite indication (R202). -/
def Dev.vxNonfinite (d : Dev) (t : Nat) (c : Cfg) (b : Bool) : Dev :=
  if b then
    let d := d.event E.TIL_VX_NONFINITE (tileAdd t)
    if c.vvote then d.fset F.TIL_VX_VOTE_NF 1 (tileAdd t) else d
  else d

/-- An instruction has executed with result `r`: the transient, the group's next instruction or the firing's end; a read of
a poisoned broadcast slot poisons the firing (R188). -/
def Dev.vdone (d : Dev) (t g : Nat) (f : VFire) (c : Cfg) (i : VIns) (r : Row) : Dev :=
  let bad := f.readsPoison i.srcs
  let d := if bad then d.event E.TIL_VX_SLOT_POISON (tileAdd t) else d
  let d := d.count F.TIL_VX_GROUP_CYC_COUNT (vcost i.op) (tileAdd t)
  let f := { f with pc := f.pc + 1, trans := f.trans ++ [r], poison := f.poison || bad }
  if c.vlen ≤ f.pc then (d.setGroup t g (some f)).firingDone t g f else d.setGroup t g (some f)

/-- An elementwise operation of Table 8-4. -/
def Dev.vxElementwise (d : Dev) (t g op : Nat) : Dev :=
  match d.vnext t g op with
  | none => d
  | some (f, c, i) =>
    let as := elems i.ty (f.src i.a)
    let bs := elems i.ty (f.src i.b)
    let cs := elems i.ty (f.src i.c)
    let rs := (as.zip (bs.zip cs)).map fun x => velem i.ty op x.1 x.2.1 x.2.2
    let r := ofElems (elemW i.ty) rs
    (d.vxNonfinite t c (floatResult op && rowNonfinite i.ty r)).vdone t g f c i r

/-- CVTI (R196–R198). -/
def Dev.vxCvti (d : Dev) (t g : Nat) : Dev :=
  match d.vnext t g 0x1C with
  | none => d
  | some (f, c, i) =>
    let cf := cfmt i.c
    let e := 512 / elemW i.ty
    let sc := bits (f.src (i.a + 1)).toNat (8 * i.part) 8
    let step := d.fget F.TIL_VX_STEP_STEP (tileAdd t)
    let seed := d.fget F.TIL_VX_SEED_SEED (tileAdd t)
    let rs := (partElems cf e i.part (f.src i.a)).zipIdx.map fun p =>
      let v := cf.val p.1
      let v := if cf.mx then (if sc = 0xFF then .nan else v.scale ((sc : Int) - 127)) else v
      toTy i.ty v (rndOf i.rnd (randomWord c.vtensor step seed (f.elem + p.2)))
    (d.vxNonfinite t c (rs.any (·.2))).vdone t g f c i (ofElems (elemW i.ty) (rs.map (·.1)))

/-- CVTO (R196–R200): the part of the output token; of an MX format also the scale byte on port B + 1. -/
def Dev.vxCvto (d : Dev) (t g : Nat) : Dev :=
  match d.vnext t g 0x1D with
  | none => d
  | some (f, c, i) =>
    let cf := cfmt i.c
    let e := 512 / elemW i.ty
    let step := d.fget F.TIL_VX_STEP_STEP (tileAdd t)
    let seed := d.fget F.TIL_VX_SEED_SEED (tileAdd t)
    let vs := (elems i.ty (f.src i.a)).map (tyVal i.ty)
    let sc := mxScale cf vs
    let k : Int := if cf.mx then 127 - (if sc = 0xFF then 127 else (sc : Int)) else 0
    let rs := vs.zipIdx.map fun p => cf.enc (p.1.scale k) (rndOf i.rnd (randomWord c.vtensor step seed (f.elem + p.2)))
    let nf := (tyFmt i.ty).isSome && vs.any (fun v => match v with | .fin _ _ _ => false | _ => true)
    let outs := f.outs.set i.b (putPart cf e i.part ((f.outs[i.b]?).getD 0) (rs.map (·.1)))
    let outs := if cf.mx then
        outs.set (i.b + 1) (putPart (.int 8 false false) 1 i.part ((outs[i.b + 1]?).getD 0) [sc])
      else outs
    (d.vxNonfinite t c (nf || rs.any (·.2))).vdone t g { f with outs := outs } c i (f.src i.a)

/-- OUT: A written in TYPE to part PART of port B (R192). -/
def Dev.vxOut (d : Dev) (t g : Nat) : Dev :=
  match d.vnext t g 0x1E with
  | none => d
  | some (f, c, i) =>
    let w := elemW i.ty
    let xs := elems i.ty (f.src i.a)
    let nf := match tyFmt i.ty with
      | some fm => xs.any (nonfinite fm)
      | none => false
    let outs := f.outs.set i.b (putPart (.int w false false) (512 / w) i.part ((f.outs[i.b]?).getD 0) xs)
    (d.vxNonfinite t c nf).vdone t g { f with outs := outs } c i (f.src i.a)

/-- IOTA: 16 INT32 elements, whatever the TYPE (Table 8-4, R201). -/
def Dev.vxIota (d : Dev) (t g : Nat) : Dev :=
  match d.vnext t g 0x1F with
  | none => d
  | some (f, c, i) =>
    let r := ofElems 32 ((List.range 16).map fun p => (f.elem + p) % 2 ^ 32)
    (d.vxNonfinite t c (rowNonfinite i.ty r)).vdone t g f c i r

/-- RED (R203, R204). The last firing of a span waits until the parts of the earlier ones are there. -/
def Dev.vxRed (d : Dev) (t g : Nat) : Dev :=
  match d.vnext t g 0x20 with
  | none => d
  | some (f, c, i) =>
    let w := elemW i.ty
    let ms := elems i.ty (f.src i.c)
    let xs := (elems i.ty (f.src i.a)).zipIdx.map fun p =>
      if f.void || (bit i.part 0 && (ms[p.2]?).getD 0 == 0) then none else some p.1
    let r := redPart i.ty i.b f.span xs
    let x := (d.slot t f.slot).vx
    let ps := (fmGet x.parts f.pc).getD [] ++ [r.1]
    let last := f.span + 1 == c.vspan
    let d := if r.2 then d.event E.TIL_VX_INT_SAT (tileAdd t) else d
    if !last then
      (d.modVx t f.slot fun v => { v with parts := fmSet v.parts f.pc ps }).vdone t g f c i 0
    else
      let j := redJoin i.ty i.b ps
      let d := d.modVx t f.slot fun v => { v with parts := fmErase v.parts f.pc }
      let d := if j.2.2 then d.event E.TIL_VX_INT_SAT (tileAdd t) else d
      let put (d : Dev) (v : Nat) (nf : Bool) : Dev :=
        (d.vxNonfinite t c nf).vdone t g f c i (ofElems w (List.replicate (512 / w) v))
      if i.b = 3 then
        let v := if j.1.isSome then j.2.1 else 2 ^ w - 1
        put d v (rowNonfinite i.ty (ofElems w [v]))
      else
        match j.1, tyFmt i.ty with
        | some v, some fm => let y := if paired i.ty then fm.rne (fp32.val v) else v; put d y (nonfinite fm y)
        | some v, none => put d (if paired i.ty then (toIntFmt 16 true (fp32.val v) .rne).1 else v) false
        | none, some fm => put d (if i.b = 0 then 0 else fm.infinity (i.b == 1)) false
        | none, none =>
          if i.b = 0 then put d 0 false
          else if paired i.ty then put d (toIntFmt 16 true (.inf (i.b == 1)) .rne).1 false
          else let z := d.fresh w; put z.2 z.1 false

/-- The row entry an instruction names: lane 0 of source B, modulo 256 (R205). -/
def Dev.vrow (d : Dev) (t : Nat) (f : VFire) (i : VIns) : Nat × RowStat :=
  let r := bits (f.src i.b).toNat 0 32 % 256
  (r, (fmGet (d.slot t f.slot).vx.rows r).getD ⟨fp32.infinity true, 0, 0x3F800000⟩)

/-- A row entry replaced. -/
def Dev.setVrow (d : Dev) (t : Nat) (f : VFire) (r : Nat) (e : RowStat) : Dev :=
  d.modVx t f.slot fun v => { v with rows := fmSet v.rows r e }

/-- A row statistic as the result, in every lane. -/
def Dev.vstat (d : Dev) (t g : Nat) (f : VFire) (c : Cfg) (i : VIns) (v : Nat) (nf : Bool) : Dev :=
  let x := (toTy i.ty (fp32.val v) .rne).1
  (d.vxNonfinite t c nf).vdone t g f c i (ofElems (elemW i.ty) (List.replicate (512 / elemW i.ty) x))

/-- Lane 0 of source A in FP32 (R205). -/
def VFire.lane0 (f : VFire) (i : VIns) : Nat := fp32.rne (tyVal i.ty (bits (f.src i.a).toNat 0 (elemW i.ty)))

/-- RSM: the row maximum (R205); a VOID firing changes nothing (Table 7-4). -/
def Dev.vxRsm (d : Dev) (t g : Nat) : Dev :=
  match d.vnext t g 0x24 with
  | none => d
  | some (f, c, i) =>
    let (r, e) := d.vrow t f i
    if f.void then d.vstat t g f c i e.m (nonfinite fp32 e.m) else
    let a := f.lane0 i
    let first := bit i.part 0
    let m := if first then fp32.infinity true else e.m
    let e' : RowStat :=
      if a = fp32.infinity true then { e with m := m, f := 0x3F800000 }
      else
        let m' := fmax fp32 true m a
        { e with m := m', f := if first then 0x3F800000 else exp2Op fp32 0 (fp32.rne ((fp32.val m).add (fp32.val m').neg)) }
    (d.setVrow t f r e').vstat t g f c i e'.m (nonfinite fp32 e'.m)

/-- RSF: the correction factor (R205). -/
def Dev.vxRsf (d : Dev) (t g : Nat) : Dev :=
  match d.vnext t g 0x25 with
  | none => d
  | some (f, c, i) => let e := (d.vrow t f i).2; d.vstat t g f c i e.f (nonfinite fp32 e.f)

/-- RSL: the row sum (R205); a VOID firing changes nothing. -/
def Dev.vxRsl (d : Dev) (t g : Nat) : Dev :=
  match d.vnext t g 0x26 with
  | none => d
  | some (f, c, i) =>
    let (r, e) := d.vrow t f i
    let a := f.lane0 i
    let l := if f.void then e.l else if bit i.part 0 then a
      else fp32.rne (((fp32.val e.l).mul (fp32.val e.f)).add (fp32.val a))
    (d.setVrow t f r { e with l := l }).vstat t g f c i l (nonfinite fp32 l)

/-- RSGET (R205). -/
def Dev.vxRsget (d : Dev) (t g : Nat) : Dev :=
  match d.vnext t g 0x27 with
  | none => d
  | some (f, c, i) =>
    let e := (d.vrow t f i).2
    let v := if bit i.part 0 then e.l else e.m
    d.vstat t g f c i v (nonfinite fp32 v)

/-- VECTOR_OUTPUT: the tokens of the operator's oldest firing leave each port, once it has executed (R187). -/
def Dev.vectorOutput (d : Dev) (t s : Nat) : Dev :=
  let x := d.slot t s
  match x.active with
  | none => d
  | some c =>
    match fmGet x.vx.done x.vx.output with
    | none => d
    | some (kind, outs) =>
      let d := outs.zipIdx.foldl (fun (d : Dev) p => d.sendTok t s c p.2 kind p.1) d
      d.modVx t s fun v => { v with output := v.output + 1, done := fmErase v.done x.vx.output }

end Sys2Proof.Machine
end

