-- ==== Sys2Proof/Machine/Field.lean ====
section
/-! DEFINITION. Matrix cells and fields: stationary loads, runs, moving slots, the column sums, accumulators, what a field emits
(R55–R106, R225–R226). -/

namespace Sys2Proof.Machine

/-! ## Formats (Tables 3-1, 3-2, 3-5, 4-2, 9-6) -/

/-- The format of a matrix operand code (Table 3-1). -/
def mfmt (c : Nat) : CFmt :=
  cfmt (match c with
    | 0 => 2 | 1 => 3 | 2 => 1 | 3 => 4 | 4 => 5 | 5 => 6 | 6 => 7 | 7 => 8 | 8 => 11 | 9 => 12
    | 10 => 14 | 11 => 15 | 12 => 16 | 13 => 17 | 14 => 18 | _ => 19)

/-- A code of the integer family. -/
def mint (c : Nat) : Bool := c == 8 || c == 9

/-- Beats per product of a moving format (Table 3-2). -/
def beats (c : Nat) : Nat := if c = 1 || c = 2 then 3 else if c = 0 || c = 8 || c = 15 then 2 else 1

/-- The level delay in slots (Table 4-2). -/
def levelDelay (c : Nat) : Nat := if beats c = 1 then 2 else 1

/-- The rows of a segment (Table 9-6). -/
def segRows (c : Nat) : Nat := if c = 2 then 4 else if c = 0 || c = 1 then 2 else 1

/-- The bytes of a block's stationary load: its elements, and 128 scale bytes for an MX format (R77). -/
def loadBytes (c : Nat) : Nat := 512 * (mfmt c).width + (if (mfmt c).mx then 128 else 0)

/-- Fields of FLD_INST_CFG and FLD_INST_EXT (Tables 4-13, 4-14). -/
def Cfg.sfmt (c : Cfg) : Nat := bits c.icfg 0 4
def Cfg.mfmt (c : Cfg) : Nat := bits c.icfg 4 4
def Cfg.pair (c : Cfg) : Bool := bit c.icfg 8
def Cfg.rowScale (c : Cfg) : Bool := bit c.icfg 9
def Cfg.outFmt (c : Cfg) : Nat := bits c.icfg 10 2
def Cfg.slide (c : Cfg) : Bool := bit c.icfg 12
def Cfg.slideK (c : Cfg) : Nat := bits c.icfg 13 7
def Cfg.rowExt (c : Cfg) : Nat := bits c.iext 0 10
def Cfg.colExt (c : Cfg) : Nat := bits c.iext 16 13
/-- Depth levels and output groups of the shape. -/
def Cfg.depth (c : Cfg) : Nat := (shapeOf c.shape).1
def Cfg.groups (c : Cfg) : Nat := (shapeOf c.shape).2.1
/-- Paired operation: the pair flag with moving format FP4 or MXFP4 (R59). -/
def Cfg.paired (c : Cfg) : Bool := c.pair && (c.mfmt == 7 || c.mfmt == 14)
/-- Moving vectors a slot carries (R61). -/
def Cfg.vectors (c : Cfg) : Nat := if c.paired then 2 else 1
/-- The run queue and the scale queue, in the tile of block (0, 0) (Table 6-8, R92). -/
def Cfg.runQ (c : Cfg) : Nat := c.field 20 1
def Cfg.scaleQ (c : Cfg) : Nat := c.field 21 1

/-! ## Elements as the cells hold them (R55, R56, R62–R64) -/

/-- The width of a significand with its leading bit (Table 3-1). -/
def sigWidth (c : Nat) : Nat :=
  match mfmt c with
  | .fl f _ _ _ => f.mb + 1
  | .int w _ _ => w

/-- An element by sign, significand and exponent biased by 127: its value is sig · 2^(exp − 126 − sigWidth). -/
structure Elem where
  sign : Bool
  sig : Nat
  exp : Nat
  deriving DecidableEq, Repr

/-- An encoding taken apart; integers by sign and magnitude (R56). Exponent 255, which no finite element has, stands for an infinity
(significand 0) or a NaN (DESIGN CHOICE: the spec names no code for them in a cell or on the exponent lane). -/
def elemOf (c x : Nat) : Elem :=
  match (mfmt c).val x with
  | .nan => ⟨false, 1, 255⟩
  | .inf s => ⟨s, 0, 255⟩
  | .fin s m e => ⟨s, m, (e + 126 + sigWidth c).toNat⟩

/-- Element x of a packed operand of a format (R67). -/
def packed (f : CFmt) (n x : Nat) : Nat := bits n (f.width * x) f.width

/-- A cell that no load has filled. -/
def Cell.zero : Cell := ⟨false, 0, 0, false⟩

/-- A stationary element in a cell's register (R55). -/
def cellOf (c x : Nat) (poison : Bool) : Cell :=
  let e := elemOf c x
  ⟨e.sign, BitVec.ofNat 12 (e.sig * 2 ^ (12 - sigWidth c)), BitVec.ofNat 8 e.exp, poison⟩

/-- What a register holds. -/
def Cell.val (c : Cell) : Val :=
  if c.exp = 255 then (if c.sig = 0 then .inf c.sign else .nan) else .fin c.sign c.sig.toNat ((c.exp.toNat : Int) - 138)

/-- The registers before any load. -/
def Cells.init : Cells := { rows := [], scales := [] }

/-- The 64 cells of a column, top row first. -/
def Cells.column (x : Cells) (j : Nat) : List Cell :=
  ((x.rows ++ List.replicate 64 []).take 64).map fun r => (r[j]?).getD Cell.zero

/-- The scales of a column's two groups; 0x7F is 1.0 (R69). -/
def Cells.scale (x : Cells) (j : Nat) : Nat × Nat :=
  ((((x.scales[2 * j]?).map (·.1)).getD 127), (((x.scales[2 * j + 1]?).map (·.1)).getD 127))

/-- A column holds a poisoned element or scale (R72). -/
def Cells.poisoned (x : Cells) (j : Nat) : Bool :=
  (x.column j).any (·.poison) || ((x.scales.drop (2 * j)).take 2).any (·.2)

/-- The registers a load of a format fills: the elements in row-major order, then for an MX format two scale bytes of each column;
`pw`: the words that came as poison (R67, R72, R77). -/
def cellsOf (c : Nat) (ws : List Word) (pw : List Nat) : Cells :=
  let f := mfmt c
  let e := f.width
  let n := leNat (wordBytes ws)
  let hit (lo hi : Nat) : Bool := pw.any fun w => decide (64 * w < hi) && decide (lo < 64 * w + 64)
  { rows := (List.range 64).map fun i => (List.range 64).map fun j =>
      let x := 64 * i + j
      cellOf c (packed f n x) (hit (x * e) (x * e + e))
    scales := if f.mx then (List.range 128).map fun k => (bits n (4096 * e + 8 * k) 8, hit (4096 * e + 8 * k) (4096 * e + 8 * k + 8))
      else [] }

/-! ## Stationary loads (R77–R79) -/

/-- A block before any load. -/
def Block.init : Block :=
  { active := Cells.init, shadow := Cells.init, full := false, arrived := false, loading := none, waiting := [], prods := [] }

/-- The block of an instance by path index. -/
def Inst.block (i : Inst) (k : Nat) : Block := (fmGet i.blocks k).getD Block.init

/-- The instance of a site, with the configuration of the slot that holds it. -/
def Dev.instAt (d : Dev) (site inst : Nat) : Option (Inst × Cfg) :=
  match fmGet d.insts (site * 64 + inst) with
  | none => none
  | some i =>
    match (d.slot i.tile i.slot).active with
    | some c => if i.held && c.cls == 0 && c.site == site && c.inst == inst then some (i, c) else none
    | none => none

/-- The instance replaced. -/
def Dev.setInst (d : Dev) (site inst : Nat) (i : Inst) : Dev := { d with insts := fmSet d.insts (site * 64 + inst) i }

/-- A half runs its units: RUNNING, and not held (R120). -/
def Dev.runs (d : Dev) (h : HalfId) : Bool := d.half h == 4 && !d.heldHalf h

/-- A load of a format starts: 64 bytes move in each core cycle, so the last byte is there at the earliest loadBytes div 64 − 1 cycles
later (R77). -/
def loadJob (fmt src : Nat) : LoadJob := ⟨src, loadBytes fmt / 64 - 1⟩

/-- A load asked of a block starts, or waits while an earlier one is under way or has not been swapped in (R79). -/
def Block.load (b : Block) (fmt src t s : Nat) : Block :=
  if b.full || b.loading.isSome then { b with waiting := b.waiting ++ [(src, t, s)] } else { b with loading := some (loadJob fmt src) }

/-- STATIONARY_LOAD: the load of a block from a scratchpad address is asked for by a stream engine. -/
def Dev.stationaryLoad (d : Dev) (site inst k src et es : Nat) : Dev :=
  match d.instAt site inst with
  | none => d
  | some (i, c) =>
    let n := loadBytes c.sfmt
    let ok := match place src with
      | .scratch t o => decide (o + n ≤ d.region t) && (!d.split || tileHalf t == tileHalf i.tile)
      | _ => false
    if d.runs (tileHalf i.tile) && decide (k < c.depth * c.groups) && src % 64 == 0 && ok then
      d.setInst site inst { i with blocks := fmSet i.blocks k ((i.block k).load c.sfmt src et es) }
    else d

/-- STATIONARY_LOAD_DONE: the last byte of a block's load arrives in the shadow registers, with what the code meets at its
words; a poisoned word poisons its elements (R72, R77, R78). -/
def Dev.stationaryLoadDone (d : Dev) (site inst k : Nat) (es : List RdErr) : Dev :=
  match d.instAt site inst with
  | none => d
  | some (i, c) =>
    let b := i.block k
    match b.loading with
    | none => d
    | some j =>
      if j.left ≠ 0 then d else
      let r := (List.range (loadBytes c.sfmt / 8)).foldl (fun (x : (List Word × List Nat) × Dev) w =>
        let q := x.2.readWord (j.src + 8 * w) ((es[w]?).getD .none)
        ((x.1.1 ++ [q.1.1], if q.1.2 then x.1.2 ++ [w] else x.1.2), q.2)) (([], []), d)
      let b := { b with shadow := cellsOf c.sfmt r.1.1 r.1.2, full := true, arrived := true, loading := none }
      r.2.setInst site inst { i with blocks := fmSet i.blocks k b }

/-! ## Runs (R92–R94) -/

/-- A run token is rejected (R94): not a CTRL token, a reserved mode, a reserved bit, or N beyond the accumulator. -/
def Cfg.runFault (c : Cfg) (k : Token) : Bool :=
  let w := k.payload.toNat
  let n := bits w 0 32
  let m := bits w 32 3
  k.kind.toNat != kCtrl || bits w 35 477 != 0 || decide (3 < m) || (m != 0 && decide ((if c.paired then 128 else 256) < n))

/-- The matrix operator of a slot may work in this cycle: throttle gates it (R90, R264). -/
def Dev.fieldFree (d : Dev) (t : Nat) : Bool := d.runs (tileHalf t) && !d.gated (tileHalf t)

/-- Shadow becomes active, and the oldest load that waited for it starts (R78, R79). -/
def Block.swap (fmt : Nat) (b : Block) : Block :=
  let b := { b with active := b.shadow, full := false }
  match b.waiting with
  | [] => b
  | w :: l => { b with loading := some (loadJob fmt w.1), waiting := l }

/-- The shadow may be swapped in: its load is done, in an earlier core cycle (R78). -/
def Block.ready (b : Block) : Bool := b.full && !b.arrived

/-- The ordinary token at the head of a queue of a field's slot, unless the input that names the queue is closed (R120, R152). -/
def Dev.fieldHead (d : Dev) (t : Nat) (x : Slot) (c : Cfg) (q : Nat) : Option Token :=
  if (List.range c.ins.length).any fun i => c.inq i == some q && x.closed.contains i then none else
  match (d.queue t q).tokens.head? with
  | some k => if k.kind.toNat = kMark then none else some k
  | none => none

/-- What a run token asks: its kind and payload; N and ACC_MODE of a POISON token, whose payload no consumer reads (Table 5-3), are
free. -/
def Dev.runWord (d : Dev) (k : Token) : Token × Dev :=
  if k.kind.toNat = kPoison then
    let f := d.fresh 35
    ({ k with kind := BitVec.ofNat 3 kCtrl, payload := BitVec.ofNat 512 f.1 }, f.2)
  else (k, d)

/-- FIELD_RUN_START: the instance takes its next run token, every block swaps, the row buffers are emptied, and every level's
feed has the fill before slot 0 to skip (R78, R89, R92, R103). A VOID token is a run of no slots; a POISON token runs, and poisons
every result (R113). A run of no slots takes no wavefront, fill neither (DESIGN CHOICE: R89's N + s·(D − 1) would leave fill). -/
def Dev.fieldRunStart (d : Dev) (site inst : Nat) : Dev :=
  match d.instAt site inst with
  | none => d
  | some (i, c) =>
    match d.canFire i.tile i.slot [0] with
    | none => d
    | some (x, _) =>
      match d.fieldHead i.tile x c c.runQ with
      | none => d
      | some k =>
        if i.run.isSome || decide (x.since < beats c.mfmt) || !(List.range (c.depth * c.groups)).all (fun b => (i.block b).ready) then d
        else
          let void := k.kind.toNat == kVoid
          let w := d.runWord k
          let p := w.1.payload.toNat
          let bad := !void && c.runFault w.1
          let n := if void then 0 else bits p 0 32
          let s := levelDelay c.mfmt * segRows c.mfmt
          let i := { i with
            blocks := fmMap i.blocks (fun _ b => b.swap c.sfmt)
            slide := []
            skip := if n = 0 then i.skip else
              ((List.range c.depth).foldl (fun m l => fmSet m l ((fmGet m l).getD 0 + s * l)) i.skip)
            run := if n = 0 then none else some ⟨n, bits p 32 3, 0, bad, k.kind.toNat == kPoison⟩ }
          let d := (w.2.popQ i.tile c.runQ).setInst site inst i
          if bad then d.event E.FLD_RUN_FAULT (siteAdd site) else d

/-! ## Slots -/

/-- The bytes of rows delivered to a level, as one number. -/
def segNat (rs : List FeedRow) : Nat := rs.zipIdx.foldl (fun n p => n + ((p.1.row.map BitVec.toNat).getD 0) * 2 ^ (512 * p.2)) 0

/-- The elements of a level's segment for moving vector p (`none`: in a row of fill; R97): what the row buffers take in. -/
def segElems (c : Cfg) (p : Nat) (rs : List FeedRow) : List (Option Nat) :=
  let f := mfmt c.mfmt
  let n := segNat rs
  let w := if c.paired then n / 2 ^ (256 * p) else n
  (List.range 64).map fun x =>
    if ((rs[x / (512 / f.width)]?).bind (·.row)).isSome then some (packed f w x) else none

/-- The 64 rows of a level for moving vector p: what each cell row multiplies by (`none`: masked or absent), and whether a
POISON token carried any of it (R61, R97, R102). A slide vector's q elements are the first q of its segment (DESIGN CHOICE: the spec
gives them no other place). -/
def levelRows (c : Cfg) (i : Inst) (l p : Nat) (rs : List FeedRow) : Bool × List (Option Nat) :=
  let own := segElems c p rs
  let poison := rs.any fun r => r.poison || ((r.scales[p]?).map (·.2.2)).getD false
  if !c.slide then
    (poison, own.zipIdx.map fun x => if 64 * l + x.2 < c.rowExt then x.1 else none)
  else
    let k := max 1 c.slideK
    let hist := ((poison, own) :: (fmGet i.slide l).getD []).take k
    (hist.any (·.1), (List.range 64).map fun r =>
      if r < 64 / k * k && 64 * l + r < c.rowExt then ((hist[r % k]?).bind fun h => h.2[r / k]?).getD none else none)

/-! ## Beats, products, column sums (R55, R56, R60, R61, R69–R75) -/

/-- An entry of the exponent lane (R56). -/
structure Lane where
  sign : Bool
  exp : BitVec 8
  deriving DecidableEq, Repr

/-- What a row of cells takes in for one slot: a 4-bit digit in each beat, the least significant first, and with the first digit the
exponent-lane entry of each vector (`none`: masked or absent) (R56, R61). -/
structure RowBeats where
  digits : List (BitVec 4)
  lanes : List (Option Lane)
  deriving DecidableEq, Repr

/-- A significand's digits, padded with zeros at its most significant end (R56). -/
def digitsOf (w sig : Nat) : List (BitVec 4) := (List.range ((w + 3) / 4)).map fun k => BitVec.ofNat 4 (bits sig (4 * k) 4)

/-- The beats of a row for the elements of its vectors; in paired operation one digit carries the even vector's significand in bits
[1:0] and the odd one's in bits [3:2] (R59, R61). -/
def rowBeats (c : Cfg) (vs : List (Option Nat)) : RowBeats :=
  let es := vs.map fun v => v.map (elemOf c.mfmt)
  let sig (p : Nat) : Nat := (((es[p]?).bind id).map (·.sig)).getD 0
  { digits := if c.paired then [BitVec.ofNat 4 (sig 0 + 4 * sig 1)] else digitsOf (sigWidth c.mfmt) (sig 0)
    lanes := es.map fun e => e.map fun e => ⟨e.sign, BitVec.ofNat 8 e.exp⟩ }

/-- The part of a digit that multiplies into product register p. -/
def digitPart (paired : Bool) (p : Nat) (x : BitVec 4) : Nat := if paired then bits x.toNat (2 * p) 2 else x.toNat

/-- Partial products accumulated, each shifted by its beat (R55). -/
def shiftSum (paired : Bool) (p m : Nat) (ds : List (BitVec 4)) : Nat :=
  ds.zipIdx.foldl (fun a x => a + m * digitPart paired p x.1 * 16 ^ x.2) 0

/-- Every cell of a block multiplies its active significand by its row's digits into its product registers (R55). -/
def Block.multiply (c : Cfg) (bs : List RowBeats) (b : Block) : Block :=
  { b with prods := (List.range c.vectors).map fun p =>
      (((b.active.rows ++ List.replicate 64 []).take 64).zip bs).map fun (r : List Cell × RowBeats) => (List.range 64).map fun j =>
        shiftSum c.paired p (((r.1[j]?).getD Cell.zero).sig.toNat) r.2.digits }

/-- The value of a product register: of a cell, an exponent-lane entry, the magnitude m its digits carried, and the register's bits
(R70). -/
def product (c : Cfg) (e : Cell) (l : Lane) (m bits : Nat) : Val :=
  let w : Int := sigWidth c.mfmt
  if e.exp = 255 || l.exp = 255 then
    e.val.mul (if l.exp = 255 then (if m = 0 then .inf l.sign else .nan) else .fin l.sign m ((l.exp.toNat : Int) - 126 - w))
  else .fin (e.sign != l.sign) bits ((e.exp.toNat : Int) + l.exp.toNat - 264 - w)

/-- A product with the scale exponents of its row's group added; an E8M0 0xFF makes it NaN (R69). -/
def scaleProduct (s m : Nat) (v : Val) : Val := if s = 255 || m = 255 then .nan else v.scale ((s : Int) + m - 254)

/-- The integer a product of two integers is. -/
def Val.whole : Val → Int
  | .fin s m e => let n : Int := if 0 ≤ e then m * 2 ^ e.toNat else m / 2 ^ (-e).toNat; if s then -n else n
  | _ => 0

/-- The column sum of a block's column for vector p: its unmasked products and the incoming partial sum (R70–R75). Integers saturate;
`true`: they did. -/
def column (c : Cfg) (p : Nat) (b : Block) (bs : List RowBeats) (ms : Nat × Nat) (j : Nat) (inc : Option Nat) : Option Nat × Bool :=
  let ss := b.active.scale j
  let ps := ((b.prods[p]?).getD []).map fun r => (r[j]?).getD 0
  let us := (((b.active.column j).zip ps).zip bs).zipIdx.filterMap fun u =>
    ((u.1.2.lanes[p]?).bind id).map fun l =>
      scaleProduct (if u.2 < 32 then ss.1 else ss.2) (if u.2 < 32 then ms.1 else ms.2)
        (product c u.1.1.1 l (shiftSum c.paired p 1 u.1.2.digits) u.1.1.2)
  if us.isEmpty then (inc, false)
  else if mint c.sfmt then
    let z : Int := us.foldl (fun a v => a + v.whole) (match inc with | some v => toInt 32 v | none => 0)
    let s := satInt 32 z
    (some (ofInt 32 s.1), s.2)
  else (some (colSum (us ++ (match inc with | some v => [fp32.val v] | none => []))), false)

/-- A block's 64 columns for vector p, with the group's partial sums coming in. -/
def blockOut (c : Cfg) (g p : Nat) (b : Block) (bs : List RowBeats) (ms : Nat × Nat) (inc : List (Option Nat)) :
    List (Option Nat) × Bool :=
  let r := (List.range 64).map fun j =>
    if 64 * g + j < c.colExt then column c p b bs ms j ((inc[j]?).getD none) else (none, false)
  (r.map (·.1), r.any (·.2))

/-- A group's result for vector p: the levels in order, each adding to the partial sums; whether a sum saturated; whether
an unmasked column is poisoned by its stationary data (R72, R86). -/
def groupOut (c : Cfg) (i : Inst) (g p : Nat) (beats : List (List RowBeats)) (ms : List (Nat × Nat)) :
    List (Option Nat) × Bool × Bool :=
  (List.range c.depth).foldl (fun (a : List (Option Nat) × Bool × Bool) l =>
    let b := i.block (l * c.groups + g)
    let r := blockOut c g p b ((beats[l]?).getD []) ((ms[l]?).getD (127, 127)) a.1
    (r.1, a.2.1 || r.2, a.2.2 || (List.range 64).any fun j => decide (64 * g + j < c.colExt) && b.active.poisoned j))
    (List.replicate 64 none, false, false)

/-- One accumulator addition: row × f + result, one rounding; integers saturate; an absent addend is left out (R74, R75, R95,
R100). -/
def accAdd (c : Cfg) (f : Option Nat) (row res : Option Nat) : Option Nat × Bool :=
  match row, res with
  | none, r => (r, false)
  | some a, none =>
    (match f with
     | some f => (some (fp32.rne ((fp32.val a).mul (fp32.val f))), false)
     | none => (some a, false))
  | some a, some r =>
    if mint c.sfmt then let s := satInt 32 (toInt 32 a + toInt 32 r); (some (ofInt 32 s.1), s.2)
    else match f with
      | some f => (some (fp32.rne (((fp32.val a).mul (fp32.val f)).add (fp32.val r))), false)
      | none => (some (addF32 a r), false)

/-- The queue tokens of one output token: its 64 columns in ascending order, FP32 or INT32 in four, BF16 in two (R96, R98). -/
def outRows (c : Cfg) (vs : List Nat) : List Row :=
  let n := if c.outFmt = 1 then leNat (vs.flatMap fun v => leBytes 2 (bf16.rne (fp32.val v))) else leNat (vs.flatMap (leBytes 4))
  (List.range (if c.outFmt = 1 then 2 else 4)).map fun k => BitVec.ofNat 512 (n / 2 ^ (512 * k))

/-- Credits held on an output. -/
def Dev.credits (d : Dev) (c : Cfg) (o n : Nat) : Bool :=
  match (c.outs[o]?).getD none with
  | some (t, q) => decide (n ≤ (d.queue t q).credits)
  | none => true

/-- What a group does with a vector's result: the accumulator row it leaves (`none`: absent), what it emits (`none`:
nothing; `some none`: POISON), the sums the accumulator formed, whether one saturated. -/
structure GroupStep where
  row : Option AccRow
  emit : Option (Option (List Nat))
  sums : List (Option Nat)
  sat : Bool
  deriving DecidableEq, Repr

/-- Table 4-4 for one vector of one group; `f`: the row-scale factor, `fp`: it came as POISON (R93–R100). A column that no addend has
reached (all its rows masked or absent, no partial sum) is stored and emitted as +0, and that +0 is an addend from then on (DESIGN
CHOICE: the spec gives a row one state for all 64 columns, and a sum without addends no value). -/
def accStep (c : Cfg) (mode : Nat) (row : Option AccRow) (res : List (Option Nat)) (poison : Bool) (f : Option Nat) (fp : Bool) :
    GroupStep :=
  let vals := res.map (·.getD 0)
  if mode = 0 then ⟨row, some (if poison then none else some vals), [], false⟩
  else if mode = 1 then ⟨some (if poison then none else some vals), none, [], false⟩
  else
    let bad := poison || fp || row == some none
    let old : List (Option Nat) := match row with
      | some (some l) => l.map some
      | _ => List.replicate 64 none
    let r := (old.zip res).map fun p => accAdd c f p.1 p.2
    let new : AccRow := if bad then none else some (r.map fun x => x.1.getD 0)
    let sums := if bad then [] else r.map (·.1)
    if mode = 2 then ⟨some new, none, sums, !bad && r.any (·.2)⟩ else ⟨none, some new, sums, !bad && r.any (·.2)⟩

/-- The tokens an output block emits for one vector: POISON in place of every token of a slot that took a POISON token (`all`), which
takes precedence over VOID (R94, R113); else VOID where all its columns are masked; else POISON where the result is poisoned, and the
result with +0 in its masked columns (R98). -/
def Dev.emitGroup (d : Dev) (t s site : Nat) (c : Cfg) (g : Nat) (all : Bool) (v : Option (List Nat)) : Dev :=
  let n := if c.outFmt = 1 then 2 else 4
  let poison (d : Dev) : Dev :=
    (List.range n).foldl (fun d _ => (d.putOut t s c g kPoison 0).event E.FLD_POISON_OUT (siteAdd site)) d
  if all then poison d
  else if c.colExt ≤ 64 * g then (List.range n).foldl (fun d _ => d.putOut t s c g kVoid 0) d
  else match v with
    | some vs => (outRows c (vs.zipIdx.map fun x => if 64 * g + x.2 < c.colExt then x.1 else 0)).foldl
        (fun d r => d.putOut t s c g kData r) d
    | none => poison d

/-- An FP32 encoding is NaN. -/
def isNan32 (x : Nat) : Bool := fp32.val x == .nan

/-- The scale tokens a slot takes: one for each vector of an ADD or ADD_EMIT slot with ROW_SCALE (R100). A faulted run of such a mode
takes them too (DESIGN CHOICE: R94 names only the moving data; the tokens of later runs so keep their slots). -/
def Run.scales (r : Run) (c : Cfg) (nv : Nat) : Nat := if c.rowScale && (r.mode == 2 || r.mode == 3) then nv else 0

/-- A run's slots emit: PASS and ADD_EMIT do, and the run token that named a reserved mode (R94). -/
def Run.emits (r : Run) : Bool := r.mode != 1 && r.mode != 2

/-- The scale factor of vector p: absent, or the FP32 lane 0 and whether it came as POISON; a VOID token scales by 1.0. -/
def scaleOf (ks : List Token) (p : Nat) : Option Nat × Bool :=
  match ks[p]? with
  | none => (none, false)
  | some k =>
    if k.kind.toNat = kPoison then (some 0x3F800000, true)
    else if k.kind.toNat = kVoid then (some 0x3F800000, false)
    else (some (bits k.payload.toNat 0 32), false)

/-- A list of FP32 encodings holds a NaN in an unmasked column of group g. -/
def Cfg.anyNan (c : Cfg) (g : Nat) (l : List (Option Nat)) : Bool :=
  !mint c.sfmt && l.zipIdx.any fun v => decide (64 * g + v.2 < c.colExt) && ((v.1.map isNan32).getD false)

/-- What one vector of a slot does to one group. -/
def Dev.slotGroup (d : Dev) (site inst : Nat) (c : Cfg) (r : Run) (beats : List (List RowBeats)) (ms : List (Nat × Nat))
    (poison : Bool) (sc : Option Nat × Bool) (p g : Nat) : Dev :=
  match d.instAt site inst with
  | none => d
  | some (i, _) =>
    let a := siteAdd site
    if r.fault then (if r.emits then d.emitGroup i.tile i.slot site c g true none else d) else
    let o := groupOut c i g p beats ms
    let pz := poison || r.poison || o.2.2
    let key := g * 256 + (if c.paired then 2 * r.at_ + p else r.at_)
    let st := accStep c r.mode (fmGet i.acc key) o.1 pz sc.1 sc.2
    let d := d.setInst site inst
      { i with acc := if r.mode = 0 then i.acc else match st.row with
          | some x => fmSet i.acc key x
          | none => fmErase i.acc key }
    let d := if o.2.1 || st.sat then d.event E.FLD_INT_SAT a else d
    let d := if c.anyNan g o.1 || c.anyNan g st.sums then d.event E.FLD_NAN_OUT a else d
    match st.emit with
    | some v => d.emitGroup i.tile i.slot site c g (poison || r.poison || sc.2) v
    | none => d

/-- Unmasked products of a slot's vector, for FLD_PRODUCTS. -/
def Cfg.products (c : Cfg) (p : Nat) (beats : List (List RowBeats)) : Nat :=
  (beats.foldl (fun n l => n + (l.filter fun r => ((r.lanes[p]?).bind id).isSome).length) 0) * min c.colExt (64 * c.groups)

/-- The slot is counted (Table 4-12). -/
def Dev.countSlot (d : Dev) (site : Nat) (c : Cfg) (n : Nat) : Dev :=
  let a := siteAdd site
  let x := (fmGet d.products site).getD 0 + n
  let d := (d.count F.FLD_BEATS_COUNT (beats c.mfmt * c.depth * c.groups) a).count F.FLD_PRODUCTS_COUNT (x / 4096) a
  { d with products := fmSet d.products site (x % 4096) }

/-- The rows a level's feed holds beyond the fill to skip. -/
def Inst.due (i : Inst) (l : Nat) : List FeedRow := ((fmGet i.feed l).getD []).drop ((fmGet i.skip l).getD 0)

/-- The tokens at the head of the scale queue, at most n, none behind a MARK. -/
def Dev.scaleTokens (d : Dev) (t : Nat) (x : Slot) (c : Cfg) (n : Nat) : List Token :=
  if n = 0 || (d.fieldHead t x c c.scaleQ).isNone then []
  else ((d.queue t c.scaleQ).tokens.take n).takeWhile fun k => k.kind.toNat != kMark

/-- What an instance with a run lacks for its next slot (R90): nothing (`none`), or the idle cause of Table 5-11: a row-scale token
(its queue's starve class), a moving segment (0), a credit for an output token (1). -/
def Dev.slotLacks (d : Dev) (t : Nat) (x : Slot) (i : Inst) (c : Cfg) (r : Run) (nv : Nat) : Option Nat :=
  if (d.scaleTokens t x c (r.scales c nv)).length ≠ r.scales c nv then some (d.starveOf t c.scaleQ)
  else if !(List.range c.depth).all (fun l => decide (segRows c.mfmt ≤ (i.due l).length)) then some 0
  else if r.emits && !(List.range c.groups).all (fun g => d.credits c g ((if c.outFmt = 1 then 2 else 4) * nv)) then some 1
  else none

/-- FIELD_SLOT: the next slot of the run passes through the instance (R87, R90). Every level's segment, the row-scale tokens
and a credit for every output token must be there, and the beats of the slot before it must be over, or the instance holds. `odd`: the
run's last slot carries no odd vector (R61). -/
def Dev.fieldSlot (d : Dev) (site inst : Nat) (odd : Bool) : Dev :=
  match d.instAt site inst with
  | none => d
  | some (i, c) =>
    match i.run, d.canFire i.tile i.slot [0] with
    | some r, some (x, _) =>
      let t := i.tile
      let s := i.slot
      let nv := if c.paired && odd && r.at_ + 1 == r.n then 1 else c.vectors
      let ls := List.range c.depth
      let sr := segRows c.mfmt
      if decide (x.since < beats c.mfmt) || (d.slotLacks t x i c r nv).isSome then d
      else
        let ns := r.scales c nv
        let ks := d.scaleTokens t x c ns
        let segs := ls.map fun l => (i.due l).take sr
        let rows := (List.range nv).map fun p => ls.zip segs |>.map fun x => levelRows c i x.1 p x.2
        let bts := ls.map fun l => (List.range 64).map fun r => rowBeats c (rows.map fun v =>
          ((v[l]?).bind fun z => z.2[r]?).getD none)
        let ms (p : Nat) : List (Nat × Nat) := segs.map fun sg =>
          (((sg.head?.bind fun r => r.scales[p]?).map fun z => (z.1, z.2.1)).getD (127, 127))
        let d := (List.range ns).foldl (fun d _ => d.popQ t c.scaleQ) d
        let fin (k : Token) : Bool := (k.kind.toNat == kData || k.kind.toNat == kCtrl) && nonfinite fp32 (bits k.payload.toNat 0 32)
        let d := if ks.any fin then d.event E.FLD_SCALE_NONFINITE (siteAdd site) else d
        let d := d.setInst site inst { i with blocks := fmMap i.blocks fun k b => b.multiply c ((bts[k / c.groups]?).getD []) }
        let d := rows.zipIdx.foldl (fun d v =>
          (List.range c.groups).foldl (fun d g =>
            d.slotGroup site inst c r bts (ms v.2) (v.1.any (·.1)) (scaleOf ks v.2) v.2 g) d) d
        let d := d.countSlot site c ((List.range nv).foldl (fun n p => n + c.products p bts) 0)
        let last := r.at_ + 1 == r.n
        let trail := levelDelay c.mfmt * sr
        let i' := (fmGet d.insts (site * 64 + inst)).getD i
        let i' := { i' with
          feed := ls.foldl (fun m l => fmSet m l ((i.due l).drop sr)) i'.feed
          skip := ls.foldl (fun m l => fmSet m l (if last then trail * (c.depth - 1 - l) else 0)) i'.skip
          slide := if c.slide then ls.foldl (fun m l =>
              let sg := (i.due l).take sr
              fmSet m l ((sg.any (·.poison), segElems c 0 sg) :: ((fmGet m l).getD []).take (max 1 c.slideK - 1))) i'.slide else i'.slide
          run := if last then none else some { r with at_ := r.at_ + 1 } }
        (d.setInst site inst i').markFired t s
    | _, _ => d

/-- What a core cycle is to a field's slot that neither fires nor holds for a pass boundary or a new configuration: 11 busy with a run,
or the cause that holds it, throttle first, then input, then output (R78, R91, R133). -/
def Dev.fieldCycle (d : Dev) (t : Nat) (x : Slot) (c : Cfg) : Nat :=
  match d.instAt c.site c.inst with
  | none => 11
  | some (i, _) =>
    if d.gated (tileHalf t) then 5 else
    match i.run with
    | some r => if x.since < beats c.mfmt then 11 else (d.slotLacks t x i c r c.vectors).getD 11
    | none =>
      if (d.fieldHead t x c c.runQ).isNone then d.starveOf t c.runQ
      else if !(List.range (c.depth * c.groups)).all (fun b => (i.block b).ready) then 0 else 11

/-- A core cycle passes at an instance's loads (R77, R78). -/
def Inst.cycle (i : Inst) : Inst :=
  { i with blocks := fmMap i.blocks fun _ b =>
      { b with arrived := false, loading := b.loading.map fun j => { j with left := j.left - 1 } } }

/-- A load that a stream engine has asked for waits (R79). -/
def Dev.loadWaits (d : Dev) (t s : Nat) : Bool :=
  d.insts.any fun p => p.2.blocks.any fun b => b.2.waiting.any fun w => w.2 == (t, s)

/-! ## The commands -/

/-- STATIONARY_LOAD (R77, R79). -/
def execStationaryLoad (site : SiteId) (inst : InstId) (block : BitVec 6) (src : BitVec 48) (et : TileId) (es : SlotId) (s : State) :
    Host.Outcome State Fault Refusal :=
  onLive (fun d => d.stationaryLoad site.val inst.toNat block.toNat src.toNat et.toNat es.toNat) s

/-- STATIONARY_LOAD_DONE (R78). -/
def execStationaryLoadDone (site : SiteId) (inst : InstId) (block : BitVec 6) (errs : List RdErr) (s : State) :
    Host.Outcome State Fault Refusal :=
  onLive (fun d => d.stationaryLoadDone site.val inst.toNat block.toNat errs) s

/-- FIELD_RUN_START (R92). -/
def execFieldRunStart (site : SiteId) (inst : InstId) (s : State) : Host.Outcome State Fault Refusal :=
  onLive (fun d => d.fieldRunStart site.val inst.toNat) s

/-- FIELD_SLOT (R87). -/
def execFieldSlot (site : SiteId) (inst : InstId) (odd : Bool) (s : State) : Host.Outcome State Fault Refusal :=
  onLive (fun d => d.fieldSlot site.val inst.toNat odd) s

end Sys2Proof.Machine
end

