-- ==== Sys2Proof/Machine/Board.lean ====
section
/-! DEFINITION. Sensors, regulators and the board bus, the throttle and the trip, power profiles, the management lane (R264, R395,
R411–R416, R508–R524). -/

namespace Sys2Proof.Machine

/-! ## Sensors (R411, R521) -/

/-- A signed 16-bit reading. -/
def s16 (x : Nat) : Int := if x % 65536 < 32768 then x % 65536 else (x % 65536 : Int) - 65536

/-- A thermal sensor is VALID and not FAILED. -/
def Dev.sensorGood (d : Dev) (k : Nat) : Bool := d.flag F.MBX_SENSOR_VALID (8 * k) && !d.flag F.MBX_SENSOR_FAILED (8 * k)

/-- The reading of a sensor, in 1/16 °C. -/
def Dev.temp (d : Dev) (k : Nat) : Int := s16 (d.fget F.MBX_SENSOR_TEMP (8 * k))

/-- A sensor is marked FAILED, once. -/
def Dev.sensorFails (d : Dev) (k : Nat) : Dev :=
  if d.flag F.MBX_SENSOR_FAILED (8 * k) then d
  else ((d.fset F.MBX_SENSOR_FAILED 1 (8 * k)).mbxEvent E.MBX_SENSOR_FAIL).sbLog 0x0010 1 [k, d.fget F.MBX_SENSOR_TEMP (8 * k), 0]

/-- One sensor's sample: a conversion, or none; 16 ticks without one, or a reading outside −40 °C to 150 °C, mark it FAILED. -/
def Dev.sampleTemp (d : Dev) (k : Nat) (v : Option Nat) : Dev :=
  match v with
  | some x =>
    let d := { d with mg := { d.mg with sensorWait := fmErase d.mg.sensorWait k } }
    let d := (d.fset F.MBX_SENSOR_TEMP x (8 * k)).fset F.MBX_SENSOR_VALID 1 (8 * k)
    if s16 x < -640 || 2400 < s16 x then d.sensorFails k else d.fset F.MBX_SENSOR_FAILED 0 (8 * k)
  | none =>
    let n := (fmGet d.mg.sensorWait k).getD 0 + 1
    let d := { d with mg := { d.mg with sensorWait := fmSet d.mg.sensorWait k n } }
    if 16 ≤ n then d.sensorFails k else d

/-- The hottest of the good sensors of a list. -/
def Dev.hottest (d : Dev) (ks : List Nat) : Option (Int × Nat) :=
  (ks.filter d.sensorGood).foldl (fun b k =>
    match b with
    | some x => if x.1 < d.temp k then some (d.temp k, k) else b
    | none => some (d.temp k, k)) none

/-- The sensors and stacks whose sample meets a trip condition of Table 21-11, with the reading. -/
def Dev.tripHits (d : Dev) : List (Nat × Nat) :=
  (((List.range 32).filter fun k => d.sensorGood k && decide (1840 ≤ d.temp k)).map fun k => (k, d.fget F.MBX_SENSOR_TEMP (8 * k))) ++
    ((List.range 8).filter fun k => decide (105 ≤ d.fget F.STK_STATUS_TEMP (stackAdd k))).map fun k =>
      (64 + k, d.fget F.STK_STATUS_TEMP (stackAdd k))

/-- SENSOR_SAMPLE: every thermal sensor (`none`: no conversion), voltage tap and stack readout (R411, R521, R524). -/
def Dev.sensorSample (d : Dev) (temps : List (Option Nat)) (taps readouts : List Nat) : Dev :=
  let d := (temps.take 64).zipIdx.foldl (fun d p => d.sampleTemp p.2 p.1) d
  let d := (taps.take 16).zipIdx.foldl (fun d p => (d.fset F.MBX_VTAP_MV p.1 (8 * p.2)).fset F.MBX_VTAP_VALID 1 (8 * p.2)) d
  let d := (readouts.take 8).zipIdx.foldl (fun d p =>
    let a := stackAdd p.2
    let old := d.fget F.STK_STATUS_TEMP a
    let d := d.fset F.STK_STATUS_TEMP p.1 a
    if old < 95 && 95 ≤ d.fget F.STK_STATUS_TEMP a then d.event E.STK_TEMP_HIGH a else d) d
  let d := match d.hottest (List.range 64) with
    | some (t, k) => (d.fset F.MBX_TEMP_MAX ((t % 65536).toNat)).fset F.MBX_TEMP_SENSOR k
    | none => (d.fset F.MBX_TEMP_MAX 0).fset F.MBX_TEMP_SENSOR 0
  let arm := d.tripHits.foldl (fun m x => fmSet m x.1 (x.2, (fmGet d.mg.tripArm x.1).isSome)) ([] : FMap (Nat × Bool))
  { d with mg := { d.mg with tripArm := arm } }

/-- THERMAL_TRIP: two consecutive samples of one sensor have met a trip condition: every clock but the standby one stops, and
THERM_TRIP_N is low (R463, R524). -/
def Dev.thermalTrip (d : Dev) : Dev :=
  match d.mg.tripArm.find? fun p => p.2.2 with
  | some (k, r, _) =>
    if d.pw.tripped then d else
    ({ d with pw := { d.pw with tripped := true }, mg := { d.mg with tripLatch := true } }).sbLog 0x0010 2 [k, r, 17]
  | none => d

/-! ## The throttle (R264, R522, R523) -/

/-- Lt of a half. -/
def Dev.throttleT (d : Dev) (h : HalfId) : Nat :=
  match d.hottest ((List.range 16).map fun k => (if h then 16 else 0) + k) with
  | none => 16
  | some (t, _) => if t < 1600 then 0 else min 16 (1 + ((t - 1600) / 4).toNat)

/-- Ls of a half. -/
def Dev.throttleS (d : Dev) (h : HalfId) : Nat :=
  let s := (List.range 4).foldl (fun m k => max m (d.fget F.STK_STATUS_TEMP (stackAdd (k + if h then 4 else 0)))) 0
  if s < 95 then 0 else min 16 (4 * (s - 94))

/-- The level a half last sent. -/
def Dev.sentLevel (d : Dev) (h : HalfId) : Nat := if h then d.net.sentE else d.net.sentW

/-- THROTTLE_UPDATE: the power level follows the estimate (`power`: 0 below 95% of the half's share, 1 between, 2 above it); the
target is the largest of the three; the level sent moves one step toward it. -/
def Dev.throttleUpdate (d : Dev) (h : HalfId) (power : Nat) : Dev :=
  let p := if h then d.mg.lpE else d.mg.lpW
  let p := if power = 2 then min 16 (p + 1) else if power = 0 then p - 1 else p
  let d := { d with mg := if h then { d.mg with lpE := p } else { d.mg with lpW := p } }
  let target := max (max (d.throttleT h) (d.throttleS h)) p
  let old := d.sentLevel h
  let new := if old < target then old + 1 else if target < old then old - 1 else old
  let d := { d with net := if h then { d.net with sentE := new } else { d.net with sentW := new } }
  let d := if old = new then d else { d with net := { d.net with levels := d.net.levels ++ [(h, new, 0)] } }
  let d := d.fset (if h then F.MBX_STATUS_THROT_E else F.MBX_STATUS_THROT_W) new
  let d := if old = new then d else d.traceRec 4 [if h then 1 else 0, new]
  if old = 0 && new = 1 then
    let s := (d.hottest ((List.range 16).map fun k => (if h then 16 else 0) + k)).map (·.2)
    (d.mbxEvent E.MBX_THERM_THROTTLE).sbLog 0x0010 1 [s.getD 0, d.fget F.MBX_SENSOR_TEMP (8 * s.getD 0), new]
  else d

/-- The oldest level sent to a half's tiles and not yet in force, with the cycles since it was sent. -/
def Dev.levelDue (d : Dev) (h : HalfId) : Option (HalfId × Nat × Nat) := d.net.levels.find? (·.1 == h)

/-- THROTTLE_LEVEL: at a frame boundary at least 20 cycles after it was sent the oldest level on its way is in force at the half's
tiles (R264). -/
def Dev.throttleLevel (d : Dev) (h : HalfId) : Dev :=
  match d.levelDue h with
  | none => d
  | some p =>
    if decide (p.2.2 < 20) || d.fget F.TAL_PHASE_CYCLE % 16 ≠ 0 then d else
    { d with
      mg := if h then { d.mg with levelE := p.2.1 } else { d.mg with levelW := p.2.1 }
      net := { d.net with levels := d.net.levels.erase p } }

/-! ## Regulators and the sensor bus (R412–R415) -/

/-- One rail of a poll round: READ_VOUT in mV, READ_IOUT in 100 mA, STATUS_WORD; `none`: the read failed twice. -/
def Dev.pollRail (d : Dev) (k : Nat) (r : Option (Nat × Nat × Nat)) : Dev :=
  let a := 8 * k
  match r with
  | none => (d.fset F.MBX_RAIL_VALID 0 a).mbxEvent E.MBX_PMBUS_ERR
  | some (v, i, s) =>
    let old := d.fget F.MBX_RAIL_STATUS a
    let d := ((d.fset F.MBX_RAIL_VOUT v a).fset F.MBX_RAIL_IOUT i a).fset F.MBX_RAIL_VALID 1 a
    let d := { d.fset F.MBX_RAIL_STATUS s a with mg := { d.mg with railPower := fmSet d.mg.railPower k (v * i) } }
    if d.fget F.MBX_RAIL_STATUS a = old then d
    else (d.mbxEvent E.MBX_REG_FAULT).sbLog 0x0011 1 [k, old, d.fget F.MBX_RAIL_STATUS a, v, i]

/-- Power of the rails counted to an owner, in 0.1 mW. -/
def Dev.railSum (d : Dev) (owner : Nat) : Nat :=
  d.mg.rails.zipIdx.foldl (fun n p => if p.1.owner = owner then n + (fmGet d.mg.railPower p.2).getD 0 else n) 0

/-- The mean of the last poll rounds of a sum of the three owners, in mW. -/
def Dev.meanPower (d : Dev) (f : Nat × Nat × Nat → Nat) : Nat :=
  (d.mg.powerLog.foldl (fun n r => n + f r) 0) / (10 * max 1 d.mg.powerLog.length)

/-- PMBUS_POLL: one round, the rails in list order. -/
def Dev.pmbusPoll (d : Dev) (rs : List (Option (Nat × Nat × Nat))) : Dev :=
  let d := (rs.take (min 16 d.mg.rails.length)).zipIdx.foldl (fun d p => d.pollRail p.2 p.1) d
  let now := (d.railSum 0, d.railSum 1, d.railSum 2)
  let d := { d with mg := { d.mg with powerLog := (now :: d.mg.powerLog).take 20 } }
  let all (r : Nat × Nat × Nat) : Nat := r.1 + r.2.1 + r.2.2
  (d.fset F.MBX_POWER_LAST (all now / 10)).fset F.MBX_POWER_AVG (d.meanPower all)

/-- I3C_POLL: the reading of every target, or a failed transaction. -/
def Dev.i3cPoll (d : Dev) (vs : List (Option Nat)) : Dev :=
  (vs.take (min 16 d.mg.i3cTargets)).zipIdx.foldl (fun d p =>
    match p.1 with
    | some v => { d with mg := { d.mg with i3c := fmSet d.mg.i3c p.2 v } }
    | none => d.mbxEvent E.MBX_I3C_ERR) d

/-- I3C_IBI: an in-band interrupt is logged; a hot-join request is refused. -/
def Dev.i3cIbi (d : Dev) (join : Bool) (src : Nat) : Dev :=
  if join then d else { d with mg := { d.mg with ibiLog := d.mg.ibiLog ++ [src] } }

/-! ## Power profiles (R395, R511) -/

/-- The VCORE set point of a profile in mV (Table 21-7). -/
def setPoint (p : Nat) : Nat := if p = 0 then 680 else if p = 1 then 750 else 820

/-- The profile rails, VCORE_W first (R510). -/
def Dev.coreRails (d : Dev) : List Nat :=
  [false, true].filterMap fun h => (d.mg.rails.findIdx? fun r => r.profileHalf == some h)

/-- The set point is written to the profile rails in order; `ok` says which writes succeed, in the order they are made. A failed
write ends it, and the old set point goes back to the rails already written. Answers whether the writes succeeded and whether
every write back did. -/
def Dev.writeRails (d : Dev) (old new : Nat) : List Nat → List Nat → List Bool → (Bool × Bool) × Dev
  | [], _, _ => ((true, true), d)
  | k :: ks, done, ok =>
    let d := d.emit (.pmbus k (setPoint new))
    if ok.headD true then d.writeRails old new ks (done ++ [k]) (ok.drop 1)
    else
      let back := (ok.drop 1).take done.length
      ((false, back.all id), done.foldl (fun d k => d.emit (.pmbus k (setPoint old))) (d.mbxEvent E.MBX_PMBUS_ERR))

/-- PROFILE: the set points are written, and then the PLL is to relock; to a lower set point the PLL relocks first. -/
def Dev.profileCmd (d : Dev) (h : HalfId) (seq : Nat) (ok : List Bool) : Dev :=
  d.begin h seq 0x10 fun d e =>
    let new := e.arg 24 1
    let old := d.pw.profile
    if new = old then d.finish h seq stOk
    else if new < old then { d with pw := { d.pw with relock := some new } }
    else
      let r := d.writeRails old new d.coreRails [] ok
      if r.1.1 then { r.2 with pw := { r.2.pw with relock := some new } } else r.2.finish h seq stTimeout

/-- Every started PROFILE entry ends. -/
def Dev.endProfile (d : Dev) (st : Nat) : Dev :=
  d.ledgers.foldl (fun d h => d.endWhere h (fun e => e.opcode == 0x10 && e.state == 2) (if st = stOk then 3 else 4) st) d

/-- The PLL runs at a profile: TAL_PHASE keeps the place within the tick, counted in the new core cycles (R31, Table 2-8). -/
def Dev.setProfile (d : Dev) (p : Nat) : Dev :=
  let c := d.fget F.TAL_PHASE_CYCLE
  let old := d.cyclesPerTick
  let d := { d with pw := { d.pw with relock := none, profile := p } }
  d.setCycle (c * d.cyclesPerTick / old)

/-- PLL_RELOCKED: the new profile is in force; to a lower set point the writes follow, and where they fail the PLL returns to the
old ratio if every write back succeeded and stays at the lower one otherwise. -/
def Dev.pllRelocked (d : Dev) (ok : List Bool) : Dev :=
  match d.pw.relock with
  | none => d
  | some new =>
    let old := d.pw.profile
    let d := d.setProfile new
    if old < new then d.endProfile stOk
    else
      let r := d.writeRails old new d.coreRails [] ok
      if r.1.1 then r.2.endProfile stOk
      else if r.1.2 then (r.2.setProfile old).endProfile stTimeout
      else r.2.endProfile stTimeout

/-! ## The management lane (R416) and JTAG (R439) -/

/-- MGMT_LANE_UP. -/
def Dev.mgmtLaneUp (d : Dev) (fec : Bool) : Dev :=
  if d.uhlea then ((d.fset F.MBX_STATUS_PORT_UP 1).fset F.MBX_PORT_LINK_UP 1).fsetB F.MBX_PORT_FEC fec else d

/-- MGMT_LANE_DOWN. -/
def Dev.mgmtLaneDown (d : Dev) : Dev := ((d.fset F.MBX_STATUS_PORT_UP 0).fset F.MBX_PORT_LINK_UP 0).fset F.MBX_PORT_FEC 0

/-- JTAG_INSTRUCTION: BYPASS (0), IDCODE (1), SAMPLE/PRELOAD (2) and EXTEST (3) always; every other instruction acts as BYPASS
unless full debug is unlocked. What any but BYPASS shifts out is not stated. -/
def Dev.jtagInstruction (d : Dev) (i : Nat) : Dev :=
  if i = 0 then d.emit (.jtag 0 0)
  else if i ≤ 3 || d.flag F.SEC_STATUS_DEBUG_UNLOCKED then
    let f := d.fresh 64
    f.2.emit (.jtag i f.1)
  else d.emit (.jtag 0 0)

/-- ALERT_N is low (R429). -/
def Dev.alertLow (d : Dev) : Bool :=
  d.powered && (List.range 9).any fun k =>
    bit (d.fget F.MBX_ALERT_MASK_MASK) k && allEvents.any fun e => e.bit.off == 0xA000008 && e.bit.lo == k && d.flag e.bit

/-- THERM_TRIP_N is low (R457, R524). -/
def Dev.tripLow (d : Dev) : Bool := d.powered && d.pw.tripped

/-- STATE[2:0] (R457, R461). -/
def Dev.statePins (d : Dev) : Nat :=
  let fault (h : HalfId) : Bool := d.half h == 7 && d.halfSub h == 0
  if !d.powered then 0 else if fault false || fault true then 7 else d.half false

end Sys2Proof.Machine
end

