-- ==== Sys2Proof/Machine/Fabric.lean ====
section
/-! DEFINITION. The fabric interface as a target: the checks and service of remote operations, stream transfers and collectives, vote
waves (R297–R299, R350–R364). -/

namespace Sys2Proof.Machine

/-! ## Taking a transfer that has arrived -/

/-- A store, copy or atomic. -/
def inOrder (x : Xfer) : Bool := decide (2 ≤ x.op.toNat) && decide (x.op.toNat ≤ 7)

/-- A store, copy or atomic of the same requester came before this one and has not taken effect (R352). -/
def Dev.notYet (d : Dev) (p : Nat) (r : RxXfer) (x : Xfer) : Bool :=
  inOrder x && ((d.port p).rx.takeWhile (· != r)).any fun q => !q.sched && inOrder (xferOf q.toks) && (xferOf q.toks).origin == x.origin

/-- The oldest whole bounded transfer on a port whose header has the operation and whose turn it is. Escrow traffic (`esc`) is that of
virtual channel 1 (Table 10-3). -/
def Dev.arrived (d : Dev) (p op : Nat) (esc : Bool := false) : Option (RxXfer × Xfer) :=
  (((d.port p).rx.filter fun r => r.done && !r.sched && (r.vc == 1) == esc).map fun r => (r, xferOf r.toks)).find? fun r =>
    r.2.op.toNat == op && !d.notYet p r.1 r.2

/-- A transfer leaves the receive buffer. -/
def Dev.takeRx (d : Dev) (p : Nat) (r : RxXfer) : Dev := d.modPort p fun x => { x with rx := x.rx.erase r }

/-! ## Target checks (Table 14-3) -/

/-- The half a local address belongs to (Table 1-2). -/
def Dev.addrHalf (d : Dev) (a : Nat) : HalfId :=
  match place a with
  | .scratch t _ => tileHalf t
  | .stack | .reserved _ => stackHalf (d.stackOf a)
  | _ => false

/-- The bytes an operation names at the target. -/
def xferBytes (x : Xfer) : Nat :=
  match x.op.toNat with
  | 1 | 2 => x.len.toNat
  | 3 => 4096 * x.len.toNat
  | _ => 8

/-- Every byte of `[a, a + n)` is tenant stack memory or scratchpad; an empty range is in none. -/
def Dev.remoteRange (d : Dev) (a n : Nat) : Bool :=
  n == 0 || match place a with
    | .stack => d.tenantRange .whole a n
    | .scratch _ o => decide (o + n ≤ 0x240000)
    | _ => false

/-- PULL of a COPY. -/
def xferPull (x : Xfer) : Bool := bit x.flags.toNat 2

/-- A reserved operation, flag or bit, or a LEN the operation does not allow (check 5). -/
def xferBad (x : Xfer) : Bool :=
  let op := x.op.toNat
  let fl := x.flags.toNat
  decide (8 < op) || 8 ≤ fl || (fl != 0 && op != 3 && op != 0) || x.rsv ||
    ((op == 1 || op == 2) && !(x.len.toNat == 8 || (x.len.toNat % 64 == 0 && x.len.toNat ≤ 1024)))

/-- The alignment of Table 14-2. -/
def xferAligned (x : Xfer) : Bool :=
  match x.op.toNat with
  | 1 | 2 => if x.len = 8 then x.addr.toNat % 8 == 0 else x.addr.toNat % 64 == 0
  | 3 => x.addr.toNat % 4096 == 0 && x.src.toNat % 4096 == 0
  | _ => x.addr.toNat % 8 == 0

/-- A window permits the request: enabled, of its tenant, covering every byte, with the permission (R368). -/
def Dev.windowOk (d : Dev) (x : Xfer) : Bool :=
  let perm : Fld := match x.op.toNat with
    | 1 => F.FAB_WIN_BASE_RD
    | 2 => F.FAB_WIN_BASE_WR
    | 3 => if xferPull x then F.FAB_WIN_BASE_RD else F.FAB_WIN_BASE_WR
    | _ => F.FAB_WIN_BASE_ATOM
  (List.range 8).any fun k =>
    let b := d.fget F.FAB_WIN_BASE_BASE (16 * k)
    let n := d.fget F.FAB_WIN_LEN_LEN (16 * k)
    n != 0 && d.fget F.FAB_WIN_LEN_TENANT (16 * k) == x.tenant.toNat && d.flag perm (16 * k) &&
      (xferBytes x == 0 || (decide (b ≤ x.addr.toNat) && decide (x.addr.toNat + xferBytes x ≤ b + n)))

/-- Checks 1 to 3 of Table 14-3, for a transfer that addresses a half. -/
def Dev.originCheck (d : Dev) (p : Nat) (x : Xfer) (h : HalfId) : Option Nat × Dev :=
  if !d.onRoute p x.origin.toNat then (some stAuthFailed, d.event E.FAB_ORIGIN_DROP)
  else if d.half h = 6 || d.half (portHalf p) = 6 then (some stBusy, d)
  else if d.half h = 7 then (some stPartnerFault, d)
  else (none, d)

/-- Checks 1 to 5. `out`: the requests of the origin still being served here. -/
def Dev.formCheck (d : Dev) (p : Nat) (x : Xfer) (h : HalfId) (out : Nat) : Option Nat × Dev :=
  let c := d.originCheck p x h
  if c.1.isSome then c
  else if d.fget F.FAB_CTRL_ORIGIN_LIMIT ≤ out then (some stBusy, d.event E.FAB_ORIGIN_BUSY)
  else if xferBad x then (some stBadFormat, d)
  else (none, d)

/-- Table 14-3, in order: the status of the first check that fails, with its event. A range that reaches into stacks out of reach
faults as the east half does (R22). -/
def Dev.targetCheck (d : Dev) (p : Nat) (x : Xfer) (out : Nat) : Option Nat × Dev :=
  let h := d.addrHalf x.addr.toNat
  let c := d.formCheck p x (h || (d.half h != 6 && d.rangeLost x.addr.toNat (xferBytes x))) out
  if c.1.isSome then c
  else if !d.remoteRange x.addr.toNat (xferBytes x) then (some stLenRange, d)
  else if !xferAligned x then (some stAlign, d)
  else if !d.windowOk x then (some stTenantMismatch, d.event E.FAB_WINDOW_DENY)
  else (none, d)

/-! ## Service (R350, R351) -/

/-- Rows read one after another from `a`. -/
def Dev.readRows (d : Dev) (a : Nat) : Nat → List RdErr → List (Row × Bool) × Dev
  | 0, _ => ([], d)
  | n + 1, es =>
    let r := d.readRow a (es.take 8)
    let d := if r.1.2.2 && a < 0xA000000000 then r.2.stackLost a none else r.2
    let q := d.readRows (a + 64) n (es.drop 8)
    ((r.1.1, r.1.2.1) :: q.1, q.2)

/-- Rows written one after another from `a`, each whole. -/
def Dev.writeRows (d : Dev) (a : Nat) : List (Row × Bool) → Dev
  | [] => d
  | r :: rs => (d.writeRow a r.1 r.2).writeRows (a + 64) rs

/-- A word read for a requester. -/
def Dev.readFar (d : Dev) (a : Nat) (e : RdErr) : (Word × Bool) × Dev := d.readWordR a e

/-- A remote atomic's new word and whether the sum saturated (Table 14-2). -/
def atomicOp (op old operand compare : Nat) : Nat × Bool :=
  match op with
  | 4 => (min (old + operand) (2 ^ 64 - 1), decide (2 ^ 64 ≤ old + operand))
  | 5 => (max old operand, false)
  | 6 => (operand, false)
  | _ => (if old = compare then operand else old, false)

/-- A request is accepted and served: its effect on memory, and the RESPONSE. -/
def Dev.serve (d : Dev) (p : Nat) (r : RxXfer) (x : Xfer) (out : Nat) (k : Dev → Dev) : Dev :=
  let d := d.takeRx p r
  let c := d.targetCheck p x out
  match c.1 with
  | some st => c.2.sendResponse x r.xfer r.vc none st 0 0 []
  | none => k (c.2.count F.FAB_REMOTE_SERVED)

/-- REMOTE_LOAD. -/
def Dev.remoteLoad (d : Dev) (p out : Nat) (es : List RdErr) : Dev :=
  match d.arrived p 1 with
  | none => d
  | some (r, x) =>
    d.serve p r x out fun d =>
      if x.len = 8 then
        let w := d.readFar x.addr.toNat (es.headD .none)
        w.2.sendResponse x r.xfer r.vc none stOk 0 0 [(BitVec.ofNat 512 w.1.1.toNat, w.1.2)]
      else
        let w := d.readRows x.addr.toNat (x.len.toNat / 64) es
        w.2.sendResponse x r.xfer r.vc none stOk 0 0 w.1

/-- REMOTE_STORE. -/
def Dev.remoteStore (d : Dev) (p out : Nat) : Dev :=
  match d.arrived p 2 with
  | none => d
  | some (r, x) =>
    d.serve p r x out fun d =>
      let v := (x.rows.head?).getD (0, false)
      let d := if x.len = 8 then
          (if v.2 then d.storePoison x.addr.toNat 1
           else d.store x.addr.toNat (leBytes 8 (bits v.1.toNat 0 64)))
        else d.writeRows x.addr.toNat (x.rows.take (x.len.toNat / 64))
      d.sendResponse x r.xfer r.vc none stOk 0 0 []

/-- REMOTE_COPY: PUSH writes the ingots that came, PULL sends those asked for. -/
def Dev.remoteCopy (d : Dev) (p out : Nat) (es : List RdErr) : Dev :=
  match d.arrived p 3 with
  | none => d
  | some (r, x) =>
    d.serve p r x out fun d =>
      if xferPull x then
        let w := d.readRows x.addr.toNat (64 * x.len.toNat) es
        w.2.sendResponse x r.xfer r.vc none stOk 0 0 w.1
      else (d.writeRows x.addr.toNat (x.rows.take (64 * x.len.toNat))).sendResponse x r.xfer r.vc none stOk 0 0 []

/-- REMOTE_ADD, REMOTE_MAX, REMOTE_SWAP, REMOTE_CAS: one indivisible step; a poison word is not written (R351). -/
def Dev.remoteAtomic (d : Dev) (op p out : Nat) (e : RdErr) : Dev :=
  match d.arrived p op with
  | none => d
  | some (r, x) =>
    d.serve p r x out fun d =>
      let w := d.readFar x.addr.toNat e
      if w.1.2 then w.2.sendResponse x r.xfer r.vc none stPoison 0 0 []
      else
        let v := atomicOp op w.1.1.toNat x.operand.toNat x.compare.toNat
        (w.2.store x.addr.toNat (leBytes 8 v.1)).sendResponse x r.xfer r.vc none stOk (if v.2 then 1 else 0) w.1.1.toNat []

/-! ## Stream transfers (R357–R361) -/

/-- The receive item of a stream: the peer and XFER; the peer of a scheduled transfer is the device on the port. -/
def Dev.recvItem (d : Dev) (p peer xfer : Nat) : Option (List Byte) :=
  (d.schedItems (portHalf p)).find? fun i => isStreamItem 1 i && siPeer i == peer && siXfer i == xfer

/-- A completion token enters its queue with the EPOCH and SEQ the queue expects (R358). -/
def Dev.completion (d : Dev) (i : List Byte) (mark : Option Nat) (poison : Bool) : Dev :=
  let t := siTile i
  let q := siSlotQ i
  let y := d.queue t q
  let f := if mark.isSome then (0, d) else d.fresh 512
  let kind := if mark.isSome then kMark else if poison then kPoison else kData
  let d := f.2.arrive t q ⟨.ofNat 3 kind, y.epoch, .ofNat 12 y.seq, .ofNat 512 (mark.getD f.1)⟩
  d.modRecv (siKey i) fun x => { x with queued := x.queued ++ [mark.isSome] }

/-- Sums rounded into a link format, as rows; a row with a poisoned element is POISON (R297). -/
def rowsOf (isF32 : Bool) : Nat → List (Option Nat) → List (Row × Bool)
  | 0, _ => []
  | n + 1, es =>
    let m := if isF32 then 16 else 32
    if es.isEmpty then [] else
    let now := es.take m
    let w := if isF32 then 32 else 16
    let enc (x : Nat) : Nat := if isF32 then x else bf16.rne (fp32.val x)
    (BitVec.ofNat 512 (now.zipIdx.foldl (fun a e => a + enc (e.1.getD 0) * 2 ^ (w * e.2)) 0), now.any (·.isNone)) ::
      rowsOf isF32 n (es.drop m)

/-- The sum of transfer k goes out on stream NEXT; the sums of a stream leave in transfer order, whatever order they came in (R298). -/
def Dev.passOn (d : Dev) (i : List Byte) (k : Nat) : Dev :=
  let h := tileHalf (siTile i)
  match fmGet (d.recvS (siKey i)).sums k, (d.schedItems h).find? fun s => isStreamItem 0 s && siXfer s == leAt i 24 2 with
  | some sum, some s =>
    (d.modRecv (siKey i) fun x => { x with sums := fmErase x.sums k }).streamReady h s none (rowsOf (siFp32 s) (sum.length + 1) sum)
  | _, _ => d

/-- The held tokens that are due are delivered, strictly in transfer order; a MARK before the transfer of its index. -/
def Dev.deliverDue (d : Dev) (i : List Byte) : Nat → Dev
  | 0 => d
  | n + 1 =>
    let x := d.recvS (siKey i)
    match (x.held.filter fun h => h.1 == x.next && h.2.1.isSome) ++ (x.held.filter fun h => h.1 == x.next) with
    | [] => d
    | h :: _ =>
      let d := d.modRecv (siKey i) fun x => { x with held := x.held.erase h, next := if h.2.1.isSome then x.next else x.next + 1 }
      let d := if h.2.1.isSome then d else d.passOn i h.1
      (d.completion i h.2.1 h.2.2).deliverDue i n

/-- The token of a transfer written joins those held (R358, R360). -/
def Dev.transferDone (d : Dev) (i : List Byte) (k : Nat) (mark : Option Nat) (poison : Bool) : Dev :=
  let d := d.modRecv (siKey i) fun x => { x with held := x.held ++ [(k, mark, poison)] }
  d.deliverDue i (d.recvS (siKey i)).held.length

/-- The ring address of row 0 of transfer k (R358). -/
def siRing (i : List Byte) (k : Nat) : Nat := siDest i + k % max 1 (siBufs i) * siUnits i * 64

/-- The elements of rows in a link format: 32 of BF16 or 16 of FP32 a row; a POISON row's are `none`. -/
def elemsOf (isF32 : Bool) (rows : List (Row × Bool)) : List (Option Nat) :=
  rows.flatMap fun r =>
    (List.range (if isF32 then 16 else 32)).map fun e =>
      if r.2 then none
      else some (if isF32 then bits r.1.toNat (32 * e) 32 else bits r.1.toNat (16 * e) 16 * 65536)

/-- Each element of the chunk is added to the local contribution in FP32, rounded once (R297); a poisoned contribution
poisons its sum (R298). -/
def addElems (a b : List (Option Nat)) : List (Option Nat) :=
  (a.zip b).map fun p =>
    match p.1, p.2 with
    | some x, some y => some (addF32 x y)
    | _, _ => none

/-- A sum makes the layer nonfinite: NaN, infinite or poisoned (R299). -/
def sumBad : Option Nat → Bool
  | none => true
  | some x => match fp32.val x with
    | .fin _ _ _ => false
    | _ => true

/-- The nonfinite flag of a layer. -/
def Dev.setNf (d : Dev) (h : HalfId) (layer : Nat) : Dev :=
  let a := d.stepAdd h + 8 * (layer / 64)
  d.fset F.FAB_NF_NF (d.fget F.FAB_NF_NF a ||| 2 ^ (layer % 64)) a

/-- The nonfinite flag of a layer is set. -/
def Dev.isNf (d : Dev) (h : HalfId) (layer : Nat) : Bool := bit (d.fget F.FAB_NF_NF (d.stepAdd h + 8 * (layer / 64))) (layer % 64)

/-- A layer of a half's image, as reduced shards and updates are kept. -/
def Dev.updKey (d : Dev) (h : HalfId) (layer : Nat) : Nat := (if d.split && h then 256 else 0) + layer

/-- A reduced shard with a nonfinite or poisoned element: the flag, and the event once (R299). -/
def Dev.redNf (d : Dev) (h : HalfId) (layer : Nat) : Dev :=
  if d.isNf h layer then d else (d.event E.UPD_RED_NF).setNf h layer

/-- The elements of transfer k are one part of a reduced shard (R298): a part that comes again takes its place. -/
def Dev.shardPart (d : Dev) (h : HalfId) (layer key k : Nat) (sum : List (Option Nat)) : Dev :=
  let d := if sum.any sumBad then d.redNf h layer else d
  { d with fab := { d.fab with reduced := fmMod d.fab.reduced key [] fun m => fmSet m k sum } }

/-- The device is of the own sheaf. -/
def Dev.inSheaf (d : Dev) (id : Nat) : Bool := bits id 0 13 == bits d.me 0 13

/-- The ranks of the sheaf whose streams deliver a layer's shard here. -/
def Dev.sheafRanks (d : Dev) (h : HalfId) (layer : Nat) : List Nat :=
  ((d.schedItems h).filter fun i => isStreamItem 1 i && leAt i 11 1 == 2 && leAt i 13 1 == layer && d.inSheaf (siPeer i)).map
    fun i => rankOf (siPeer i)

/-- A contribution of a sheaf's reduce-scatter waits until all have come; then the owner adds them in rank order 0 to 7, its own, `mine`,
at its own rank (Table 14-9). -/
def Dev.sheafChunk (d : Dev) (h : HalfId) (layer k rank : Nat) (es mine : List (Option Nat)) : Dev :=
  let key := d.updKey h layer * 2 ^ 32 + k
  let got := fmSet ((fmGet d.fab.parts key).getD []) rank es
  if (d.sheafRanks h layer).all fun r => got.any (·.1 == r) then
    let sum := match fmSet got (rankOf d.me) mine with
      | [] => []
      | x :: xs => xs.foldl (fun (a : List (Option Nat)) y => addElems a y.2) x.2
    { d with fab := { d.fab with parts := fmErase d.fab.parts key } }.shardPart h layer (1024 + d.updKey h layer) k sum
  else { d with fab := { d.fab with parts := fmSet d.fab.parts key got } }

/-- The rows of transfer k of a receive item with OPX `opx` arrive whole: written to the ring, or added to the local rows and
sent on or delivered; then the completion token (R297–R299, R358, R361). `lower`: the half shard that travels in the +
direction. -/
def Dev.chunk (d : Dev) (h : HalfId) (i : List Byte) (k : Nat) (lower : Bool) (rows : List (Row × Bool)) (es : List RdErr) :
    Dev :=
  let bad := rows.any (·.2)
  match leAt i 11 1 with
  | 0 => (d.writeRows (siRing i k) rows).transferDone i k none bad
  | opx =>
    let mine := d.readRows (siRing i k) rows.length es
    let far := elemsOf (siFp32 i) rows
    let own := elemsOf (siFp32 i) mine.1
    let d := mine.2
    let layer := leAt i 13 1
    let d := if opx = 1 then d.modRecv (siKey i) fun x => { x with sums := fmSet x.sums k (addElems far own) }
      else if d.inSheaf (siPeer i) then d.sheafChunk h layer k (rankOf (siPeer i)) far own
      else d.shardPart h layer (2 * d.updKey h layer + (if lower then 0 else 1)) k (addElems far own)
    d.transferDone i k none bad

/-- What arrives on a stream: the frames' XFER, the peer, the index, MARK, RESENT, the rows. -/
structure StreamIn where
  xfer : Nat
  peer : Nat
  idx : Nat
  mark : Option Nat
  resent : Bool
  rows : List (Row × Bool)
  deriving DecidableEq, Repr

/-- The oldest whole stream transfer on a port; of a scheduled one the index is the slot's occurrence `k`. -/
def Dev.streamIn (d : Dev) (p k : Nat) : Option (RxXfer × Xfer × StreamIn) :=
  (((d.port p).rx.filter (·.done)).filterMap fun r =>
    if r.sched then
      some (r, { Xfer.blank with origin := .ofNat 16 (d.fget F.LNK_PARTNER_FABRIC_ID (portAdd p)) },
        ⟨r.xfer, d.fget F.LNK_PARTNER_FABRIC_ID (portAdd p), k, none, false, r.toks.map fun t => (t.payload, t.kind.toNat == kPoison)⟩)
    else
      let x := xferOf r.toks
      if x.op = 0 then
        some (r, x, ⟨r.xfer, x.origin.toNat, x.index.toNat, if bit x.flags.toNat 0 then some x.operand.toNat else none,
          bit x.flags.toNat 1, x.rows⟩)
      else none).head?

/-- A stream transfer that is not taken is refused with a status; a scheduled one is discarded. -/
def Dev.refuseStream (d : Dev) (r : RxXfer) (x : Xfer) (st : Nat) : Dev :=
  if r.sched then d else d.sendResponse x r.xfer r.vc none st 0 0 []

/-- The transfer belongs to an older replay of its pass than one that has come: it is discarded (R275, R283). -/
def Dev.staleReplay (d : Dev) (i : List Byte) (p : PassId) : Bool :=
  match fmGet (d.recvS (siKey i)).bufs p.index with
  | some (step, replays, _) => step == p.step && decide (p.replays < replays)
  | none => false

/-- The arrival buffer of a transfer's pass; the first transfer of a newer replay count discards what is held for the pass, and transfer k
is due next (R275). -/
def Dev.newReplay (d : Dev) (i : List Byte) (k : Nat) (p : PassId) : Dev :=
  let fresh (x : RecvS) : RecvS := { x with bufs := fmSet x.bufs p.index (p.step, p.replays, 0) }
  match fmGet (d.recvS (siKey i)).bufs p.index with
  | some (step, replays, _) =>
    if step = p.step && replays = p.replays then d
    else if step = p.step then d.modRecv (siKey i) fun x => fresh { x with held := [], sums := [], next := k }
    else d.modRecv (siKey i) fresh
  | none => d.modRecv (siKey i) fresh

/-- The transfer has been delivered already and comes again, of no newer replay: it has no effect (DEDUCED: R358 delivers one completion
token of a transfer, and R359 has its buffer belong to a later one). -/
def Dev.deliveredAlready (d : Dev) (i : List Byte) (s : StreamIn) (p : PassId) : Bool :=
  s.mark.isNone && decide (s.idx < (d.recvS (siKey i)).next) &&
    (fmGet (d.recvS (siKey i)).bufs p.index).any fun b => b.1 == p.step && b.2.1 == p.replays

/-- A transfer of a pass has come whole. -/
def Dev.passArrival (d : Dev) (i : List Byte) (p : PassId) : Dev :=
  d.modRecv (siKey i) fun x =>
    { x with bufs := fmMod x.bufs p.index (p.step, p.replays, 0) fun (b : Nat × Nat × Nat) => (b.1, b.2.1, b.2.2 + 1) }

/-- STREAM_TRANSFER and COLLECTIVE_CHUNK: a stream transfer on a port that matches a receive item (`add`: one whose OPX adds)
is taken; `of_` is the pass it carries (R275). -/
def Dev.streamTransfer (d : Dev) (p k : Nat) (of_ : PassId) (add : Bool) (es : List RdErr) : Dev :=
  match d.streamIn p k with
  | none => d
  | some (r, x, s) =>
    let h := portHalf p
    let c := if r.sched then (none, d) else d.originCheck p x (portHalf p)
    match d.recvItem p s.peer s.xfer with
    | none =>
      if add then d else
      let d := c.2.takeRx p r
      match c.1 with
      | some st => d.refuseStream r x st
      | none => (d.event E.FAB_STREAM_UNKNOWN).refuseStream r x stBadFormat
    | some i =>
      if (leAt i 11 1 != 0) != add then d else
      let d := c.2.takeRx p r
      match c.1 with
      | some st => d.refuseStream r x st
      | none =>
        if d.half h != 4 && d.half h != 5 then d.refuseStream r x stBusy
        else if d.staleReplay i of_ || d.deliveredAlready i s of_ then d
        else
          let d := d.newReplay i s.idx of_
          let d := if s.resent then d.count F.TIL_SLOT_MISS_COUNT 1 (tileAdd (siTile i)) else d
          if s.mark.isSome then d.transferDone i s.idx s.mark false
          else (d.passArrival i of_).chunk h i s.idx (p % 2 == 1) s.rows es

/-! ## Vote waves (R363, R364) -/

/-- Entries of one tenant and vote ID merge. -/
def mergeVote (es : List VoteEntry) (e : VoteEntry) : List VoteEntry :=
  if e.count = 0 then es
  else if es.any fun x => x.tenant == e.tenant && x.id == e.id then
    es.map fun x =>
      if x.tenant == e.tenant && x.id == e.id then
        { x with count := x.count + e.count, vand := x.vand && e.vand, or0 := x.or0 || e.or0, or1 := x.or1 || e.or1 }
      else x
  else es ++ [e]

/-- The 16 bytes of an entry, as a number. -/
def voteBytes (e : VoteEntry) : Nat :=
  let b (x : Bool) (k : Nat) : Nat := if x then 2 ^ k else 0
  e.tenant.toNat + e.id.toNat * 2 ^ 16 + e.count.toNat * 2 ^ 48 + e.size.toNat * 2 ^ 72 +
    (b e.vand 0 + b e.or0 1 + b e.or1 2 + b e.result 3) * 2 ^ 96 + e.tick.toNat * 2 ^ 104

/-- Units of four entries each. -/
def voteUnits : Nat → List VoteEntry → List Row
  | 0, _ => []
  | n + 1, es =>
    BitVec.ofNat 512 ((es.take 4).zipIdx.foldl (fun a e => a + voteBytes e.1 * 2 ^ (128 * e.2)) 0) ::
      (if (es.drop 4).isEmpty then [] else voteUnits n (es.drop 4))

/-- The VOTE frames of up to 64 entries each on a port; LAST on the last. None goes out during a compute reset
or a winnow (R339). -/
def Dev.sendVotes (d : Dev) (p tick : Nat) : Nat → List VoteEntry → Dev
  | 0, _ => d
  | n + 1, es =>
    if d.half (portHalf p) = 6 then d else
    let rest := es.drop 64
    let d := d.sendFrame p
      { TxFrame.blank 4 with xfer := tick % 65536, last := rest.isEmpty, units := voteUnits 16 (es.take 64) }
    if rest.isEmpty then d else d.sendVotes p tick n rest

/-- The ports of this device's children. -/
def Dev.children (d : Dev) : List Nat := (List.range 15).filter fun p => (d.port p).child && d.linkUp p

/-- Results are taken here and passed to the children (R364). -/
def Dev.spreadResults (d : Dev) (es : List VoteEntry) : Dev :=
  if es.isEmpty then d else
  let d := { d with fab := { d.fab with results := d.fab.results ++ es } }
  d.children.foldl (fun d p => d.sendVotes p d.now (es.length / 64 + 1) es) d

/-- The master accumulates entries; a vote whose COUNT reaches SIZE completes, and one that never does stays open (R364, R365). At most 1,024 votes are open: an entry that would
open another is dropped. It keeps the last 64 seal-round results (R385). -/
def Dev.accumulate (d : Dev) (es : List VoteEntry) : Dev :=
  let os := es.foldl (fun os e =>
    if os.length < 1024 || os.any (fun x => x.tenant == e.tenant && x.id == e.id) then mergeVote os e else os) d.fab.opens
  let done := os.filter fun e => decide (e.size ≤ e.count)
  let rounds := d.srv.rounds ++ done.filter fun e => e.id.toNat % 16 == 2
  let d := { d with fab := { d.fab with opens := os.filter fun e => !decide (e.size ≤ e.count) }
                    srv := { d.srv with rounds := rounds.drop (rounds.length - 64) } }
  d.spreadResults (done.map fun e => { e with result := true, count := e.size, tick := .ofNat 24 d.now })

/-- The tally is one that votes travel by: LOCKED or HOLDOVER (R363). -/
def Dev.votes (d : Dev) : Bool := d.lockState == 3 || d.lockState == 4

/-- VOTE_WAVE: the contributions since the last wave begin wave t (R363). -/
def Dev.voteWave (d : Dev) : Dev :=
  if !d.votes then d
  else
    let es := d.fab.votes
    let d := { d with fab := { d.fab with votes := [] } }
    if d.isMaster then d.accumulate es
    else { d with fab := { d.fab with waves := d.fab.waves ++ [⟨d.now, es.foldl mergeVote [], []⟩], lastWave := some d.now } }

/-- Entries of a child for wave `xfer` (the low bits of its tick) join it, or, where it has gone, the next one (R363). -/
def Dev.joinWave (d : Dev) (p xfer : Nat) (last : Bool) (cs : List VoteEntry) : Dev :=
  let ahead (w : Wave) : Nat := (w.tick + 65536 - xfer) % 65536
  let joined (n : Nat) (l : Bool) (w : Wave) : Wave :=
    if ahead w = n then { w with entries := cs.foldl mergeVote w.entries, done := if l then w.done ++ [p] else w.done } else w
  let into (n : Nat) (l : Bool) : Dev := { d with fab := { d.fab with waves := d.fab.waves.map (joined n l) } }
  if d.fab.waves.any (fun w => ahead w == 0) then into 0 last
  else
    let late := d.fab.lastWave.any fun t => decide ((t + 65536 - xfer % 65536) % 65536 < 32768)
    let d' := if d.fab.waves.any (fun w => ahead w == 1) then into 1 false else { d with fab := { d.fab with votes := d.fab.votes ++ cs } }
    if late then d'.event E.FAB_VOTE_LATE else d'

/-- VOTE_FRAME's entries on a port: results from the parent pass on; contributions of a child join its wave (R363, R364). -/
def Dev.voteFrame (d : Dev) (p xfer : Nat) (last : Bool) (es : List VoteEntry) : Dev :=
  if !d.votes then d
  else
    let d := d.spreadResults (es.filter (·.result))
    let cs := es.filter fun e => !e.result && e.count != 0
    if !(d.port p).child then d
    else if d.isMaster then d.accumulate cs
    else d.joinWave p xfer last cs

/-- TREE_DEPTH of the image in force (Table 6-2); 0 without one. -/
def Dev.treeDepth (d : Dev) : Nat :=
  match (d.image false).or (d.image true) with
  | some i => leAt i.bytes 0x1E 1
  | none => 0

/-- A wave is due: every child's frames have come, or max(0, TREE_DEPTH − d) × 0.75 µs have passed since its tick boundary; a tick is
1.024 µs (R31, R363). -/
def Dev.waveDue (d : Dev) (w : Wave) : Bool :=
  d.children.all (w.done.contains ·) ||
    decide ((d.treeDepth - d.fget F.TAL_STATUS_DEPTH) * 750 * d.cyclesPerTick ≤
      ((d.now - w.tick) * d.cyclesPerTick + d.fget F.TAL_PHASE_CYCLE) * 1024)

/-- VOTE_WAVE_SEND: the oldest wave that is due goes to the parent (R363). -/
def Dev.voteWaveSend (d : Dev) : Dev :=
  let p := d.fget F.TAL_STATUS_PARENT
  match d.fab.waves.find? d.waveDue with
  | none => d
  | some w =>
    if !d.votes || d.isMaster || 15 ≤ p then d
    else
      ({ d with fab := { d.fab with waves := d.fab.waves.erase w } }).sendVotes p w.tick (w.entries.length / 64 + 1) w.entries

end Sys2Proof.Machine
end

