-- ==== Sys2Proof/Machine/InForce.lean ====
section
/-! DEFINITION. Putting a configuration in force: queues and their preloads, slots, fields, what a halt of the dataflow clears (R147,
R283). -/

namespace Sys2Proof.Machine

/-- A tile belongs to a half's scope: every tile, or in split tenancy those of the half. -/
def Dev.inScope (d : Dev) (h : HalfId) (t : Nat) : Bool := !d.split || tileHalf t == h

/-- The preloaded tokens of a queue, in section order, with the tags their items give (Table 6-3). -/
def preloadsOf (b : List Byte) (t q : Nat) : List Token :=
  ((itemsOf b 4 0xFF 80).filter fun i => leAt i 0 2 == t && leAt i 2 1 == q).map fun i =>
    let tag := leAt i 4 2
    ⟨.ofNat 3 (bits tag 0 3), bit tag 3, .ofNat 12 (bits tag 4 12), rowOf (bytesAt i 16 64)⟩

/-- A queue as its QUEUES item and its preload make it: empty but for the preload, every other entry a credit (Table 6-6). -/
def queueOf (b i : List Byte) : Queue :=
  let pre := preloadsOf b (leAt i 0 2) (leAt i 2 1)
  { Queue.init with
    base := leAt i 4 2, depth := leAt i 6 2, starve := leAt i 3 1, tokens := pre, credits := leAt i 6 2 - pre.length }

/-- Every unit of a scope stops: its slots, firings, walks, fields, window entries and what the networks carry for it are
dropped. -/
def Dev.dropUnits (d : Dev) (h : HalfId) : Dev :=
  let keep (t : Nat) : Bool := !d.inScope h t
  let d := d.slots.foldl (fun d p =>
    if keep (p.1 / 32) then d else
    match p.2.active with
    | some c =>
      let a := tileAdd (p.1 / 32) + 32 * c.engine
      if c.cls = 0 then d.fieldGone c
      else if c.cls = 2 || c.cls = 3 then (d.fset F.TIL_SE_STATUS_ACTIVE 0 a).fset F.TIL_SE_STATUS_AHEAD 0 a
      else d
    | none => d) d
  let d := d.tiles.foldl (fun d p =>
    if keep p.1 || p.2.groups.isEmpty then d else d.fset F.TIL_VX_STATUS_GROUPS_BUSY 0 (tileAdd p.1)) d
  { d with
    slots := d.slots.filter fun p => keep (p.1 / 32)
    queues := d.queues.filter fun p => keep (p.1 / 128)
    insts := d.insts.filter fun p => d.split && decide (256 ≤ p.1) != h
    tiles := fmMap d.tiles fun t x =>
      if keep t then x else { x with groups := [], win := [], winOrder := [], winHead := 0 }
    net := { d.net with
      cfg := d.net.cfg.filter fun m => keep m.tile
      mem := d.net.mem.filter fun m => keep m.tile
      memBack := d.net.memBack.filter fun m => keep m.tile
      till := d.net.till.filter fun m => keep m.tile
      bars := d.net.bars.filter fun p => d.split && decide (64 ≤ p.1) != h
      votes := d.net.votes.filter fun p => d.split && decide (64 ≤ p.1) != h } }

/-- Configuration n of image `b` becomes the active configuration of every slot of a scope: queues cleared and preloads written,
epochs, expected epochs and SEQ at 0, shadows empty (steps 2 to 4 of R147; step 3 of R283). -/
def Dev.forceConfig (d : Dev) (h : HalfId) (b : List Byte) (n : Nat) : Dev :=
  let d := d.dropUnits h
  let d := { d with queues := (itemsOf b 3 0xFF 16).foldl (fun m i => fmSet m (qKey (leAt i 0 2) (leAt i 2 1)) (queueOf b i)) d.queues }
  (placements b n).foldl (fun d p =>
    let c := cfgOf n (recordOf b n p)
    (d.setSlot p.tile p.slot (slotTake (some c) false)).fieldTake p.tile p.slot none (some c)) d

/-- Configuration n of the image in force becomes the active one again (R283). -/
def Dev.resetTo (d : Dev) (h : HalfId) (n : Nat) : Dev :=
  match d.image h with
  | none => d.dropUnits h
  | some i => (d.forceConfig h i.bytes n).setImage h (some { i with cur := n, prev := n, epoch := false })

end Sys2Proof.Machine
end

