-- ==== Sys2Proof/Machine/StepData.lean ====
section
/-! DEFINITION. What the step and survival read of an image and of memory: STEP and SURVIVAL items, layer shards, protected tensors,
parity units, the state ingot, digests (R294, R302, R370–R382). -/

namespace Sys2Proof.Machine

/-! ## STEP items (Tables 11-7, 11-8, 12-5) -/

/-- The image in force of a half's scope, or an empty one. -/
def Dev.imageBytes (d : Dev) (h : HalfId) : List Byte := ((d.image h).map (·.bytes)).getD []

/-- The STEP items of a kind. -/
def stepItems (b : List Byte) (k : Nat) : List (List Byte) := (itemsOf b 13 0xFF 64).filter fun i => leAt i 0 1 == k

/-- The step record. -/
def stepRec (b : List Byte) : List Byte := ((stepItems b 0).head?).getD []
def microBatches (b : List Byte) : Nat := leAt (stepRec b) 1 1
def replayLimit (b : List Byte) : Nat := leAt (stepRec b) 2 1
def layerCount (b : List Byte) : Nat := leAt (stepRec b) 4 2
def maxSkips (b : List Byte) : Nat := leAt (stepRec b) 6 2
def sealOffset (b : List Byte) : Nat := leAt (stepRec b) 8 4
def sealStride (b : List Byte) : Nat := leAt (stepRec b) 12 4
def sealRounds (b : List Byte) : Nat := leAt (stepRec b) 16 1
def voteTicks (b : List Byte) : Nat := leAt (stepRec b) 17 1
def passTimeout (b : List Byte) : Nat := leAt (stepRec b) 20 4
def stepSeed (b : List Byte) : Nat := leAt (stepRec b) 32 4

/-- The layer groups in recompute mode (R276). -/
def recomputeGroups (b : List Byte) : List Nat := ((stepItems b 2).filter fun i => leAt i 2 1 == 1).map fun i => leAt i 1 1

/-- REFRESH_EVERY of a schedule record (Table 12-5). -/
def scEvery (r : List Byte) : Nat := leAt r 36 2

/-- Eager commit (Table 6-1). -/
def isEager (b : List Byte) : Bool := bit (leAt b 0x0F 1) 1

/-- The record of a layer. -/
def layerRec (b : List Byte) (l : Nat) : Option (List Byte) := (stepItems b 1).find? fun i => leAt i 1 1 == l
def lrGroup (i : List Byte) : Nat := leAt i 2 1
def lrUpdate (i : List Byte) : Bool := bit (leAt i 3 1) 0
def lrShard (i : List Byte) (copyB : Bool) : Nat := if copyB then leAt i 16 8 else leAt i 8 8
def lrBytes (i : List Byte) : Nat := leAt i 24 8

/-- The layers with a trainable shard, in layer order. -/
def updLayers (b : List Byte) : List Nat :=
  (List.range (layerCount b)).filter fun l => ((layerRec b l).map lrUpdate).getD false

/-- The configuration of a pass kind (Table 11-8). -/
def passConfig (b : List Byte) (kind : Nat) : Nat :=
  (((stepItems b 4).find? fun i => leAt i 1 1 == kind).map fun i => leAt i 2 1).getD 0

/-! ## Layer shards (Tables 12-2, 12-3) -/

/-- A shard header. -/
structure Shard where
  rows : Nat
  cols : Nat
  block : Nat
  root : Nat
  wfmt : Nat
  flags : Nat
  tensor : Nat
  colBase : Nat
  raw : List Byte
  deriving DecidableEq, Repr

/-- The header in the first 64 bytes of a copy. -/
def shardOf (b : List Byte) : Shard :=
  { rows := leAt b 0 4, cols := leAt b 4 4, block := leAt b 8 1, root := leAt b 9 1, wfmt := leAt b 10 1, flags := leAt b 11 1
    tensor := leAt b 12 4, colBase := leAt b 16 8, raw := b }

/-- b, the preconditioner block. -/
def Shard.b (x : Shard) : Nat := if x.block = 0 then 64 else if x.block = 1 then 128 else 256

/-- nb, the layer blocks. -/
def Shard.nb (x : Shard) : Nat := (x.rows + x.b - 1) / x.b

/-- Whole ingots of a byte count, in bytes. -/
def ingotBytes (n : Nat) : Nat := (n + 4095) / 4096 * 4096

def Shard.wOff (_ : Shard) : Nat := 4096
def Shard.mOff (x : Shard) : Nat := x.wOff + ingotBytes (2 * x.rows * x.cols)
def Shard.lOff (x : Shard) : Nat := x.mOff + ingotBytes (2 * x.rows * x.cols)
def Shard.pOff (x : Shard) : Nat := x.lOff + ingotBytes (4 * x.nb * x.b ^ 2)
def Shard.total (x : Shard) : Nat := x.pOff + ingotBytes (2 * x.nb * x.b ^ 2)

/-- The checks of R303, in order. -/
def Dev.shardCheck (d : Dev) (x : Shard) (bytes : Nat) : Option Nat :=
  firstFail [
    failIf (2 < x.block || !(x.root == 2 || x.root == 4) || 1 < x.wfmt || 1 < x.flags || leAt x.raw 24 40 != 0) stBadFormat,
    failIf (65536 < x.rows) stCountRange,
    failIf (bytes < x.total) stLenRange,
    failIf (x.block == 2 && d.split) stNoResource]

/-- The selector of a layer: `true` copy B (R289). -/
def Dev.sel (d : Dev) (h : HalfId) (l : Nat) : Bool := bit (d.fget F.DEV_STEP_SEL_SEL (d.stepAdd h + 8 * (l / 64))) (l % 64)

/-- A bit of a register group of 64 layers each. -/
def Dev.setLayerBit (d : Dev) (f : Fld) (add l : Nat) : Dev :=
  d.fset f (d.fget f (add + 8 * (l / 64)) ||| 2 ^ (l % 64)) (add + 8 * (l / 64))

/-- The copy of a layer the engines read. -/
def Dev.readCopy (d : Dev) (h : HalfId) (i : List Byte) (l : Nat) : Nat :=
  lrShard i (!isEager (d.imageBytes h) && d.sel h l)

/-- The copy of a layer the engines write (R289, R290). -/
def Dev.writeCopy (d : Dev) (h : HalfId) (i : List Byte) (l : Nat) : Nat :=
  if isEager (d.imageBytes h) then lrShard i false else lrShard i (!d.sel h l)

/-- The header of a copy. -/
def Dev.shardAt (d : Dev) (a : Nat) : Shard := shardOf (memBytes d.mem a 64)

/-- A bit of the reserved rest of the header ingot of a copy is nonzero (R302); unlisted bytes are zero. -/
def Dev.headerRest (d : Dev) (a : Nat) : Bool :=
  d.mem.any fun (c : Host.Cell) => decide (a + 64 ≤ c.1) && decide (c.1 < a + 4096) && c.2 != 0#8

/-- A pass of a kind and micro-batch has ended in the attempt. -/
def RunS.hasEnded (r : RunS) (kind mb : Nat) : Bool := r.ended.any fun e => e.1 == kind && e.2.1 == mb

/-- Every backward pass of the attempt has ended (R271). -/
def Dev.backwardDone (d : Dev) (h : HalfId) : Bool :=
  match (d.stepc h).run with
  | some r => (List.range (microBatches (d.imageBytes h))).all (r.hasEnded 3)
  | none => false

/-- A layer's refresh falls in the attempt (R309). -/
def Dev.refreshDue (d : Dev) (h : HalfId) (r : RunS) (l : Nat) : Bool :=
  let k := scEvery ((fmGet r.chosen l).getD [])
  k != 0 && (d.fget F.DEV_STEP_NUM_N (d.stepAdd h) + 1) % k == 0

/-- A layer is updated, and refreshed where that is due. -/
def Dev.layerDone (d : Dev) (h : HalfId) (r : RunS) (l : Nat) : Bool :=
  r.updated.contains l && (!d.refreshDue h r l || r.ended.contains (5, l, 0))

/-! ## Reading with errors -/

/-- What the code meets at some words, before they are used (R237, R238): events, poison, refetches. -/
def Dev.meet (d : Dev) (es : List (Nat × RdErr)) : Dev := es.foldl (fun d e => (d.readWordR e.1 e.2).2) d

/-- Bytes of a range, page by page, counted at their stacks; the words of `es` have been counted where they were met. -/
def Dev.countRange (d : Dev) (a n : Nat) (wr : Bool) (es : List (Nat × RdErr) := []) : Dev :=
  (List.range ((a % 4096 + n + 4095) / 4096)).foldl (fun d i =>
    let p := a / 4096 * 4096 + 4096 * i
    let lo := max a p
    let hi := min (a + n) (p + 4096)
    d.countStk lo (hi - lo - 8 * (es.filter fun e => decide (lo ≤ e.1) && decide (e.1 < hi)).length) wr) d

/-- A range read: its bytes counted, and every poison word of it that `es` does not name read as poison (R237). -/
def Dev.rangeRead (d : Dev) (a n : Nat) (es : List (Nat × RdErr) := []) : Dev :=
  let ps := d.poison.filter fun p =>
    decide (a / 8 ≤ p.1) && decide (8 * p.1 < a + n) && !es.any (fun e => e.1 / 8 == p.1) && !d.unreachable (8 * p.1)
  ps.foldl (fun d p => if 8 * p.1 < 0xA000000000 then d.event E.STK_POISON_READ (stackAdd (d.stackOf (8 * p.1))) else d)
    (d.countRange a n false es)

/-! ## SURVIVAL items (Table 15-1) -/

/-- The SURVIVAL items of a kind. -/
def survItems (b : List Byte) (k : Nat) : List (List Byte) := (itemsOf b 12 0xFF 64).filter fun i => leAt i 0 1 == k

/-- The survival header. -/
def survHdr (b : List Byte) : Option (List Byte) := (survItems b 0).head?
def shRecover (i : List Byte) : Bool := bit (leAt i 1 1) 0
def shImgHolder (i : List Byte) : Nat := leAt i 2 2
def shImgAlt (i : List Byte) : Nat := leAt i 4 2
def shImgFeeds (i : List Byte) : Nat := leAt i 6 1
def shGroups (i : List Byte) : Nat := leAt i 8 2
def shCadence (i : List Byte) : Nat := leAt i 10 1
def shReturn (i : List Byte) : Nat := leAt i 12 4
def shParity (i : List Byte) : Nat := leAt i 16 8
def shState (i : List Byte) : Nat := leAt i 24 8
def shSnap (i : List Byte) : Nat := leAt i 32 8

def tiEscrow (i : List Byte) : Bool := leAt i 1 1 == 0
def tiChange (i : List Byte) : Nat := leAt i 2 1
def tiRegion (i : List Byte) : Nat := leAt i 3 1
def tiLayer (i : List Byte) : Nat := leAt i 4 2
def tiTensor (i : List Byte) : Nat := leAt i 6 2
def tiBase (i : List Byte) : Nat := leAt i 8 8
def tiIngots (i : List Byte) : Nat := leAt i 16 4
def tiFeeds (i : List Byte) : Nat := leAt i 21 1
def tiPartner (i : List Byte) : Nat := leAt i 22 2
def tiAlt (i : List Byte) : Nat := leAt i 24 2
def tiReplica (i : List Byte) : Nat := leAt i 26 2
def tiAltValid (i : List Byte) : Bool := bit (leAt i 28 1) 0
def tiReplicaValid (i : List Byte) : Bool := bit (leAt i 28 1) 1

def hiOwner (i : List Byte) : Nat := leAt i 2 2
def hiTensor (i : List Byte) : Nat := leAt i 4 2
def hiSlot (i : List Byte) (one : Bool) : Nat := if one then leAt i 16 8 else leAt i 8 8
def hiIngots (i : List Byte) : Nat := leAt i 24 4
def hiKey (i : List Byte) : Nat := hiOwner i * 65536 + hiTensor i

/-- The digest ingots of n data ingots (R370). -/
def digestIngots (n : Nat) : Nat := (n + 511) / 512

/-- The tensor item of a tensor index. -/
def tensorItem (b : List Byte) (k : Nat) : Option (List Byte) := (survItems b 1).find? fun i => tiTensor i == k

/-- A mirroring attempt: (N + 1) mod CADENCE = 0 (R375). -/
def Dev.mirroring (d : Dev) (h : HalfId) : Bool :=
  match survHdr (d.imageBytes h) with
  | some s => shCadence s != 0 && (d.fget F.DEV_STEP_NUM_N (d.stepAdd h) + 1) % shCadence s == 0
  | none => false

/-- The address of a tensor's data: a range, or a region of the layer's copy `at_` (Table 15-1). -/
def Dev.tensorBase (d : Dev) (i : List Byte) (at_ : Nat) : Nat :=
  let x := d.shardAt at_
  match tiRegion i with
  | 0 => tiBase i
  | 1 => at_ + x.wOff
  | 2 => at_ + x.mOff
  | 3 => at_ + x.lOff
  | 4 => at_ + x.pOff
  | _ => at_

/-- Where a tensor's data lies: as the next step reads it (`next`, the copy a seal makes current), or as this one does. -/
def Dev.tensorAt (d : Dev) (h : HalfId) (i : List Byte) (next : Bool) : Nat :=
  if tiRegion i = 0 then tiBase i
  else
    match layerRec (d.imageBytes h) (tiLayer i) with
    | none => 0
    | some l =>
      let upd := (((d.stepc h).run.map (·.updated)).getD []).contains (tiLayer i)
      d.tensorBase i (if next && upd then d.writeCopy h l (tiLayer i) else d.readCopy h l (tiLayer i))

/-- An ingot's bytes. -/
def Dev.ingot (d : Dev) (a : Nat) : List Byte := memBytes d.mem a 4096

/-- The 4,096-byte ingots that hold the digests of ingots, 512 each (R381). -/
def digestBytes (ingots : List (List Byte)) : List (List Byte) :=
  let ds := ingots.flatMap fun g => leBytes 8 (crc64 g)
  (List.range (digestIngots ingots.length)).map fun i =>
    let x := bytesAt ds (4096 * i) 4096
    x ++ List.replicate (4096 - x.length) 0#8

/-- A tensor digest (R382). -/
def tensorDigest (ingots : List (List Byte)) : Nat := crc64 (ingots.flatMap fun g => leBytes 8 (crc64 g))

/-! ## The state ingot and parity units (R377, R378) -/

/-- The feed cursor's 32 bytes. -/
def Dev.cursorBytes (d : Dev) : List Byte := (List.range 4).flatMap fun k => leBytes 8 (d.fget F.FED_CURSOR_CURSOR (8 * k))

/-- The state ingot for a step number, cursor and selectors. -/
def stateIngot (n seed imageId : Nat) (cursor : List Byte) (sels : List Nat) : List Byte :=
  let x := leBytes 8 n ++ leBytes 4 seed ++ leBytes 4 0 ++ leBytes 8 imageId ++ cursor ++ sels.flatMap (leBytes 8)
  x ++ List.replicate (4096 - x.length) 0#8

/-- The words of DEV_STEP_SEL; with `next` as a seal leaves them, when every layer with a shard has been updated (R288). -/
def Dev.selWords (d : Dev) (h : HalfId) (next : Bool) : List Nat :=
  let b := d.imageBytes h
  (List.range 4).map fun k =>
    let w := d.fget F.DEV_STEP_SEL_SEL (d.stepAdd h + 8 * k)
    if next && !isEager b then
      (updLayers b).foldl (fun w l => if l / 64 = k then w ^^^ 2 ^ (l % 64) else w) w
    else w

/-- The state ingot as it stands, or as it will stand after the seal. -/
def Dev.stateBytes (d : Dev) (h : HalfId) (next : Bool) : List Byte :=
  let b := d.imageBytes h
  stateIngot (d.fget F.DEV_STEP_NUM_N (d.stepAdd h) + if next then 1 else 0) (stepSeed b) (leAt b 0x28 8) d.cursorBytes
    (d.selWords h next)

/-- The parity units of R377: the state ingot `st`, the ingots of the parity items read by `rd`, the digest ingots. -/
def parityUnits (b st : List Byte) (at_ : List Byte → Nat) (rd : Nat → List Byte) : List (List Byte) :=
  let u := st :: ((survItems b 1).filter fun i => !tiEscrow i).flatMap fun i =>
    (List.range (tiIngots i)).map fun k => rd (at_ i + 4096 * k)
  u ++ digestBytes u

/-- U, the number of parity units. -/
def unitCount (b : List Byte) : Nat :=
  let n := ((survItems b 1).filter fun i => !tiEscrow i).foldl (fun n i => n + tiIngots i) 1
  n + digestIngots n

/-- The stripe of unit u of rank r, and the stripe's holder rank (R377). -/
def stripeOf (r u : Nat) : Nat × Nat :=
  let i := u % 7
  let j := 8 * (u / 7) + (if i < r then i else i + 1)
  (j, j % 8)

/-- The unit a rank contributes to a stripe. -/
def unitOf (r j : Nat) : Nat := 7 * (j / 8) + (if j % 8 < r then j % 8 else j % 8 - 1)

/-- XOR of two byte strings. -/
def xorBytes (a b : List Byte) : List Byte := (a.zip b).map fun p => p.1 ^^^ p.2

end Sys2Proof.Machine
end

