-- ==== Sys2Proof/Machine/Escrow.lean ====
section
/-! DEFINITION. Escrow and sheaf parity: the owner's mirrors and deltas, the holder's slots, adoption (R373–R381). -/

namespace Sys2Proof.Machine

/-! ## The holder's slots (R374) -/

/-- The slot that is CUR of a holder item: `true` SLOT1. -/
def Dev.curSlot (d : Dev) (i : List Byte) : Bool := (fmGet d.srv.cur (hiKey i)).getD 0 != 0

/-- The address of CUR, or of PEND; an image has one slot (Table 15-1). -/
def Dev.slotAddr (d : Dev) (i : List Byte) (pend : Bool) : Nat :=
  hiSlot i (hiTensor i != 0xFFFF && d.curSlot i != pend)

/-- The offset of the escrow header ingot in a slot: after the data and digest ingots; an image has no digest ingots (R370). -/
def hiHeader (i : List Byte) : Nat := 4096 * (hiIngots i + if hiTensor i = 0xFFFF then 0 else digestIngots (hiIngots i))

/-- The escrow header ingot of a copy (R374). -/
def escrowHeader (owner tensor step digest state : Nat) : List Byte :=
  let x := leBytes 2 owner ++ leBytes 2 tensor ++ leBytes 8 step ++ leBytes 8 digest ++ leBytes 1 state
  x ++ List.replicate (4096 - x.length) 0#8

/-- The state byte of a slot's header: 0 empty, 1 filling, 2 complete, 3 bad. -/
def Dev.slotState (d : Dev) (i : List Byte) (pend : Bool) : Nat := (memGet d.mem (d.slotAddr i pend + hiHeader i + 20)).toNat

/-- The state byte of PEND's header set. -/
def Dev.setSlotState (d : Dev) (i : List Byte) (st : Nat) : Dev :=
  { d with mem := memPut d.mem (d.slotAddr i true + hiHeader i + 20) (BitVec.ofNat 8 st) }

/-- The step number of CUR's header. -/
def Dev.slotStep (d : Dev) (i : List Byte) : Nat := leNat (memBytes d.mem (d.slotAddr i false + hiHeader i + 4) 8)

/-- CUR and PEND are exchanged; what was CUR is empty (R376). -/
def Dev.adoptSlot (d : Dev) (i : List Byte) : Dev :=
  let d := { d with srv := { d.srv with cur := fmSet d.srv.cur (hiKey i) (if d.curSlot i then 0 else 1) } }
  d.setSlotState i 0

/-- The parity slot of an ingot that is CUR, as its address. -/
def Dev.parAddr (d : Dev) (s : List Byte) (k : Nat) (pend : Bool) : Nat :=
  let cur := (fmGet d.srv.cur (2 ^ 32 + k)).getD 0 != 0
  shParity s + 4096 * ((if cur != pend then shGroups s else 0) + k)

/-- PEND replaces CUR for a parity ingot. -/
def Dev.adoptParity (d : Dev) (k : Nat) : Dev :=
  let cur := (fmGet d.srv.cur (2 ^ 32 + k)).getD 0
  { d with srv := { d.srv with cur := fmSet d.srv.cur (2 ^ 32 + k) (1 - cur), parPend := d.srv.parPend.erase k } }

/-- The holder adopts at a seal (R376, R379): every complete PEND, the changed parity ingots; at a mirroring seal the CUR
header of every other copy takes the new step number. -/
def Dev.adoptAll (d : Dev) (h : HalfId) (owner : Option Nat) (step : Nat) (mirroring : Bool) : Dev :=
  let is := (survItems (d.imageBytes h) 2).filter fun i =>
    hiTensor i != 0xFFFF && (match owner with | some o => hiOwner i == o | none => true)
  let d := is.foldl (fun d i =>
    if d.slotState i true = 2 then d.adoptSlot i
    else if mirroring then d.store (d.slotAddr i false + hiHeader i + 4) (leBytes 8 step)
    else d) d
  d.srv.parPend.foldl (fun d k => d.adoptParity k) d

/-- The holder drops what is pending at any other outcome (R376, R379). -/
def Dev.dropPending (d : Dev) (h : HalfId) (owner : Option Nat) : Dev :=
  let is := (survItems (d.imageBytes h) 2).filter fun i =>
    hiTensor i != 0xFFFF && (match owner with | some o => hiOwner i == o | none => true)
  let d := is.foldl (fun d i => d.setSlotState i 0) d
  { d with srv := { d.srv with parPend := [], stripes := [] } }

/-! ## The owner's mirrors (R375) -/

/-- The rows of ingots, each with whether it holds poison. -/
def Dev.memRows (d : Dev) (a n : Nat) : List (Row × Bool) :=
  (List.range (64 * n)).map fun r => (rowOf (memBytes d.mem (a + 64 * r) 64), d.anyPoison (a + 64 * r) 64)

/-- Rows of bytes. -/
def rowsOfBytes (b : List Byte) : List (Row × Bool) :=
  (List.range ((b.length + 63) / 64)).map fun r => (rowOf (bytesAt b (64 * r) 64), false)

/-- A mirror or delta has failed: MIRROR_FAIL, and FAULT at the seal rounds, or the failure of the baseline (R375, R380). -/
def Dev.mirrorFail (d : Dev) (h : HalfId) (st : Nat) : Dev :=
  (d.event E.DEV_SRV_MIRROR_FAIL).modRun h fun r =>
    if r.base = 1 then { r with baseFail := r.baseFail.or (some st) }
    else { r with fail := r.fail.or (some stAbandoned) }

/-- An escrow PUSH to a holder: `what` names the tensor and, above, parity and its stripe; it counts as unanswered until its
RESPONSE. -/
def Dev.pushEscrow (d : Dev) (h : HalfId) (target what off tensor : Nat) (rows : List (Row × Bool)) : Dev :=
  let r := d.issue
    { Xfer.blank with
      op := 3, tenant := .ofNat 16 (d.tagOf h), target := .ofNat 16 target, addr := .ofNat 48 off
      operand := .ofNat 64 what, len := .ofNat 32 ((rows.length + 63) / 64), rows } (.escrow tensor)
  match r.1 with
  | none => r.2.modRun h fun x => { x with acks := x.acks + 1 }
  | some st => r.2.mirrorFail h st

/-- The holder a tensor mirrors to (R384 step 3). -/
def Dev.mirrorTarget (d : Dev) (i : List Byte) : Nat := if d.srv.alt.contains (tiTensor i) then tiAlt i else tiPartner i

/-- A tensor is mirrored in the four steps of R375 with step number `step` in the header; `a`: where its data lies; `es`: what the code
meets at its words (R238). -/
def Dev.mirrorTensor (d : Dev) (h : HalfId) (i : List Byte) (a step : Nat) (es : List (Nat × RdErr)) : Dev :=
  let n := tiIngots i
  let es := es.filter fun e => decide (a ≤ e.1) && decide (e.1 < a + 4096 * n)
  let d := (d.rangeRead a (4096 * n) es).meet es
  let ingots := (List.range n).map fun k => d.ingot (a + 4096 * k)
  let dig := digestBytes ingots
  let hdr (st : Nat) := rowsOfBytes (escrowHeader d.me (tiTensor i) step (tensorDigest ingots) st)
  let off := 4096 * (n + dig.length)
  let t := d.mirrorTarget i
  let d := d.pushEscrow h t (tiTensor i) off (tiTensor i) (hdr 1)
  let d := d.pushEscrow h t (tiTensor i) 0 (tiTensor i) (d.memRows a n ++ dig.flatMap rowsOfBytes)
  let d := d.pushEscrow h t (tiTensor i) off (tiTensor i) (hdr 2)
  let d := { d with srv := { d.srv with refreshed := d.srv.refreshed.filter (· != tiTensor i) } }
  d.count F.DEV_SRV_INGOTS_MIRRORED (n + dig.length + 1)

/-- The escrow tensors an attempt must mirror so far (R375). -/
def Dev.dueTensors (d : Dev) (h : HalfId) : List (List Byte) :=
  let upd := (((d.stepc h).run.map (·.updated)).getD [])
  (survItems (d.imageBytes h) 1).filter fun i =>
    tiEscrow i &&
      (if tiRegion i != 0 then upd.contains (tiLayer i)
       else tiChange i == 0 || (tiChange i == 1 && d.srv.refreshed.contains (tiTensor i)))

/-! ## The owner's word at the end of an attempt (R288, R291, R376) -/

/-- The devices that hold copies or parity of this device. -/
def Dev.holders (d : Dev) (h : HalfId) : List Nat :=
  if (survHdr (d.imageBytes h)).isNone then [] else
  (((survItems (d.imageBytes h) 1).filter tiEscrow).map d.mirrorTarget ++
    ((List.range 8).filter (· != rankOf d.me)).map fun r => r * 8192 + bits d.me 0 13).eraseDups

/-- Every holder is told to adopt what is pending, with the new step number, after a seal of a mirroring attempt or another one, or to
discard it. DESIGN CHOICE: the word is a COPY header without rows on virtual channel 1, bit 61 (adopt), 60 (discard) and 59 (mirroring) of its
operand, the step in COMPARE; R288 gives it no form. -/
def Dev.tellHolders (d : Dev) (h : HalfId) (adopt mirroring : Bool) (step : Nat) : Dev :=
  (d.holders h).foldl (fun d t =>
    (d.sendXfer
      { Xfer.blank with
        op := 3, tenant := .ofNat 16 (d.tagOf h), origin := .ofNat 16 d.me, target := .ofNat 16 t, compare := .ofNat 64 step
        operand := .ofNat 64 ((if adopt then 2 ^ 61 else 2 ^ 60) + if mirroring then 2 ^ 59 else 0) } 0xFFFF 1 none).2) d

/-- The holder acts on an owner's word, if it comes over the owner's route and from its tenant. -/
def Dev.holderTold (d : Dev) (p : Nat) (x : Xfer) : Dev :=
  let h := portHalf p
  let c := d.originCheck p x h
  if c.1.isSome || x.tenant.toNat != d.tagOf h then c.2
  else if bit x.operand.toNat 61 then c.2.adoptAll h (some x.origin.toNat) x.compare.toNat (bit x.operand.toNat 59)
  else c.2.dropPending h (some x.origin.toNat)

/-! ## Parity (R377–R380) -/

/-- The fabric ID of a rank of the own sheaf. -/
def Dev.sheafId (d : Dev) (r : Nat) : Nat := r * 8192 + bits d.me 0 13

/-- An ingot as it stood before the attempt, where the attempt has kept it (R379). -/
def Dev.oldIngot (d : Dev) (h : HalfId) (a : Nat) : List Byte :=
  match (d.stepc h).run.bind fun r => fmGet r.old a with
  | some b => b
  | none => d.ingot a

/-- The parity units after the seal. -/
def Dev.unitsAfter (d : Dev) (h : HalfId) : List (List Byte) :=
  parityUnits (d.imageBytes h) (d.stateBytes h true) (d.tensorAt h · true) d.ingot

/-- The parity units as they stand. -/
def Dev.unitsNow (d : Dev) (h : HalfId) : List (List Byte) :=
  parityUnits (d.imageBytes h) (d.stateBytes h false) (d.tensorAt h · false) d.ingot

/-- The parity units at the last mirroring seal or baseline: as before this attempt, or the snapshot (R379). -/
def Dev.unitsBefore (d : Dev) (h : HalfId) : List (List Byte) :=
  let b := d.imageBytes h
  match survHdr b with
  | none => []
  | some s =>
    if shCadence s = 1 then parityUnits b (d.stateBytes h false) (d.tensorAt h · false) (d.oldIngot h)
    else (List.range (unitCount b)).map fun u => d.ingot (shSnap s + 4096 * u)

/-- The units go into the snapshot (R379, R380). -/
def Dev.writeSnapshot (d : Dev) (h : HalfId) (units : List (List Byte)) : Dev :=
  match survHdr (d.imageBytes h) with
  | some s =>
    if shCadence s ≤ 1 then d
    else units.zipIdx.foldl (fun d u => (d.poke (shSnap s + 4096 * u.2) u.1).countRange (shSnap s + 4096 * u.2) 4096 true) d
  | none => d

/-- A unit or delta goes to its stripe's holder: what it is is named beside it (bit 63: parity; bit 62: a whole unit; the
stripe). -/
def Dev.pushUnit (d : Dev) (h : HalfId) (u : Nat) (full : Bool) (b : List Byte) : Dev :=
  let s := stripeOf (rankOf d.me) u
  (d.pushEscrow h (d.sheafId s.2) (2 ^ 63 + (if full then 2 ^ 62 else 0) + s.1) 0 4096 (rowsOfBytes b)).count
    F.DEV_SRV_INGOTS_MIRRORED

/-- The parity deltas of a mirroring attempt: one for each unit whose value changes (R379). -/
def Dev.sendDeltas (d : Dev) (h : HalfId) : Dev :=
  ((d.unitsBefore h).zip (d.unitsAfter h)).zipIdx.foldl (fun d p =>
    let x := xorBytes p.1.1 p.1.2
    if x.all (· == 0#8) then d else d.pushUnit h p.2 false x) d

/-- Every unit in full, and zeros for the stripes the device's units do not reach (R377, R380). -/
def Dev.sendAllUnits (d : Dev) (h : HalfId) (units : List (List Byte)) : Dev :=
  match survHdr (d.imageBytes h) with
  | none => d
  | some s =>
    (List.range (7 * shGroups s)).foldl (fun d u => d.pushUnit h u true ((units[u]?).getD (List.replicate 4096 0#8))) d

/-- The device contributes to the baseline vote, once (R380). -/
def Dev.voteBaseline (d : Dev) (h : HalfId) : Dev :=
  match (d.stepc h).run with
  | none => d
  | some r =>
    let b := d.imageBytes h
    let bad := r.baseFail.isSome
    (d.contribute (d.tagOf h) (voteId 3 0 0 (d.fget F.DEV_STEP_NUM_N (d.stepAdd h))) (leAt b 0x18 4) (!bad) false bad).modRun h
      fun r => { r with base := 2 }

/-- BASELINE; `es`: what the code meets at the words it reads (R380). -/
def Dev.baseline (d : Dev) (h : HalfId) (es : List (Nat × RdErr)) : Dev :=
  match (d.stepc h).run with
  | none => d
  | some r =>
    if r.base ≠ 0 then d else
    let b := d.imageBytes h
    let n := d.fget F.DEV_STEP_NUM_N (d.stepAdd h)
    let d := d.modRun h fun r => { r with base := 1 }
    let d := ((survItems b 1).filter tiEscrow).foldl (fun d i => d.mirrorTensor h i (d.tensorAt h i false) n es) d
    let d := (d.sendAllUnits h (d.unitsNow h)).writeSnapshot h (d.unitsNow h)
    if ((d.stepc h).run.map (·.acks)).getD 0 = 0 then d.voteBaseline h else d

/-- A step phase begins (Table 1-3): the register holds the latest, with its trace record (R422). -/
def Dev.setPhase (d : Dev) (h : HalfId) (n : Nat) : Dev :=
  let a := d.stepAdd h
  if d.fget F.DEV_STEP_STATUS_PHASE a < n then (d.fset F.DEV_STEP_STATUS_PHASE n a).traceRec 2 [if h then 1 else 0, n] else d

/-- MIRROR: a tensor of the attempt, or with 4,096 its parity deltas, once each, in a mirroring attempt whose TAIL pass is in
flight; `es`: what the code meets at the words it reads (R375, R379). -/
def Dev.mirror (d : Dev) (h : HalfId) (k : Nat) (es : List (Nat × RdErr)) : Dev :=
  match (d.stepc h).run with
  | none => d
  | some r =>
    if !d.mirroring h || r.mirrored.contains k || r.fail.isSome || !(r.passes.any fun p => p.kind == 5) then d
    else
      let n := d.fget F.DEV_STEP_NUM_N (d.stepAdd h)
      let mark (d : Dev) : Dev := (d.modRun h fun r => { r with mirrored := r.mirrored ++ [k] }).setPhase h 9
      if k = 4096 then
        if (updLayers (d.imageBytes h)).all (d.layerDone h r) then ((mark d).meet es).sendDeltas h else d
      else
        match (d.dueTensors h).find? fun i => tiTensor i == k with
        | some i =>
          if tiRegion i != 0 && !d.layerDone h r (tiLayer i) then d else (mark d).mirrorTensor h i (d.tensorAt h i true) (n + 1) es
        | none => d

/-! ## The holder's side -/

/-- The half whose image names what escrow traffic reaches: that of the arrival port. -/
def Dev.escrowItem (d : Dev) (p : Nat) (x : Xfer) : Option (List Byte) :=
  (survItems (d.imageBytes (portHalf p)) 2).find? fun i =>
    hiOwner i == x.origin.toNat && hiTensor i == x.operand.toNat % 65536

/-- The data ingots of PEND agree with the digests beside them, and none is poison. -/
def Dev.slotGood (d : Dev) (i : List Byte) (pend : Bool) : Bool :=
  let a := d.slotAddr i pend
  let n := hiIngots i
  !d.anyPoison a (4096 * n) &&
    (List.range n).all fun k => crc64 (d.ingot (a + 4096 * k)) == leNat (memBytes d.mem (a + 4096 * n + 8 * k) 8)

/-- ESCROW_TRANSFER: escrow traffic that is not parity: a PUSH into PEND with the digests checked on arrival, or a PULL from CUR
for a refetch or restore, or the owner's word to adopt or discard (R239, R288, R374–R376). -/
def Dev.escrowTransfer (d : Dev) (p out : Nat) (es : List RdErr) : Dev :=
  match d.arrived p 3 true with
  | none => d
  | some (r, x) =>
    if bit x.operand.toNat 63 then d else
    let d := d.takeRx p r
    if bit x.operand.toNat 61 || bit x.operand.toNat 60 then d.holderTold p x else
    let reply (d : Dev) (st : Nat) (rows : List (Row × Bool)) : Dev := d.sendResponse x r.xfer r.vc none st 0 0 rows
    match d.escrowItem p x with
    | none => reply d stTenantMismatch []
    | some i =>
      let a := d.slotAddr i (!xferPull x)
      let c := d.formCheck p x (d.addrHalf a) out
      match c.1 with
      | some st => reply c.2 st []
      | none =>
        let d := c.2
        let off := x.addr.toNat
        let n := 4096 * x.len.toNat
        if off % 4096 != 0 then reply d stAlign []
        else if hiHeader i + 4096 < off + n || x.tenant.toNat != d.tagOf (portHalf p) then reply d stTenantMismatch []
        else
          let d := d.count F.FAB_REMOTE_SERVED
          if xferPull x then
            let w := d.readRows (a + off) (64 * x.len.toNat) es
            reply w.2 stOk w.1
          else
            let d := d.writeRows (a + off) (x.rows.take (64 * x.len.toNat))
            let data := 4096 * hiIngots i
            if off ≤ data && data < off + n && off + n ≤ hiHeader i && !d.slotGood i true then
              reply (d.setSlotState i 3) stDigestMismatch []
            else reply d stOk []

/-- PARITY_DELTA: a delta is XORed into PEND, CUR copied there first; a whole unit of a baseline is gathered with the six others
of its stripe, and the stripe adopted with the last (R379, R380). -/
def Dev.parityDelta (d : Dev) (p out : Nat) : Dev :=
  match d.arrived p 3 true with
  | none => d
  | some (r, x) =>
    if !bit x.operand.toNat 63 then d else
    let d := d.takeRx p r
    let reply (d : Dev) (st : Nat) : Dev := d.sendResponse x r.xfer r.vc none st 0 0 []
    match survHdr (d.imageBytes (portHalf p)) with
    | none => reply d stTenantMismatch
    | some s =>
      let j := x.operand.toNat % 2 ^ 32
      let k := j / 8
      let c := d.formCheck p x (portHalf p) out
      match c.1 with
      | some st => reply c.2 st
      | none =>
        let d := c.2
        let rank := rankOf x.origin.toNat
        if shGroups s ≤ k || j % 8 != rankOf d.me || !d.inSheaf x.origin.toNat || rank == rankOf d.me ||
            x.tenant.toNat != d.tagOf (portHalf p) then
          reply d stTenantMismatch
        else
          let d := d.count F.FAB_REMOTE_SERVED
          let v := (x.rows.flatMap fun q => rowBytes q.1).take 4096
          let pend := d.parAddr s k true
          if bit x.operand.toNat 62 then
            let got := (fmGet d.srv.stripes k).getD []
            let d := if got.contains rank then d else d.store pend (if got.isEmpty then v else xorBytes (d.ingot pend) v)
            let got := if got.contains rank then got else got ++ [rank]
            let d := { d with srv := { d.srv with stripes := fmSet d.srv.stripes k got } }
            let d := if 7 ≤ got.length then
                { d.adoptParity k with srv := { (d.adoptParity k).srv with stripes := fmErase d.srv.stripes k } }
              else d
            reply d stOk
          else
            let d := if d.srv.parPend.contains k then d
              else
                { d.store pend (d.ingot (d.parAddr s k false)) with srv := { d.srv with parPend := d.srv.parPend ++ [k] } }
            reply (d.store pend (xorBytes (d.ingot pend) v)) stOk

end Sys2Proof.Machine
end

