-- ==== Sys2Proof/Machine/Update.lean ====
section
/-! DEFINITION. The update engines: schedule records, the dispatch of layer blocks, the update datapath, its failures (R300–R317). -/

namespace Sys2Proof.Machine

/-! ## Schedule records (R311–R313) -/

def scGroup (r : List Byte) : Nat := leAt r 1 1
def scFirst (r : List Byte) : Nat := leAt r 4 8
def scCount (r : List Byte) : Nat := leAt r 12 4
def scLr (r : List Byte) : Nat := leAt r 16 4
def scBeta1 (r : List Byte) : Nat := leAt r 20 4
def scBeta2 (r : List Byte) : Nat := leAt r 24 4
def scDecay (r : List Byte) : Nat := leAt r 28 4
def scEps (r : List Byte) : Nat := leAt r 32 4
def scIters (r : List Byte) : Nat := leAt r 38 1

/-- The record covers step n. -/
def scCovers (r : List Byte) (n : Nat) : Bool := decide (scFirst r ≤ n) && decide (n < scFirst r + scCount r)

/-- A schedule record with a nonfinite constant, an ITERS outside its range, or a reserved value. -/
def schedBad (r : List Byte) : Bool :=
  (List.range 5).any (fun k => leAt r (16 + 4 * k) 4 / 2 ^ 23 % 256 == 255) ||
    (scEvery r != 0 && (scIters r == 0 || decide (32 < scIters r))) || leAt r 0 1 != 3 || leAt r 2 2 != 0 || leAt r 39 25 != 0

/-- Two records of one group whose step ranges overlap. -/
def schedClash (a b : List Byte) : Bool :=
  scGroup a == scGroup b && scCount a != 0 && scCount b != 0 && decide (scFirst a < scFirst b + scCount b) &&
    decide (scFirst b < scFirst a + scCount a)

/-- Some two records of a list clash. -/
def anyClash : List (List Byte) → Bool
  | [] => false
  | r :: rs => rs.any (schedClash r) || anyClash rs

/-- The checks of R312 of records to be added to those held. -/
def schedCheck (held new : List (List Byte)) : Option Nat :=
  firstFail [
    failIf (new.any schedBad || anyClash (held ++ new)) stBadFormat,
    failIf (new.any fun r => decide (2 ^ 64 < scFirst r + scCount r)) stCountRange,
    failIf (decide (4096 < held.length + new.length)) stNoResource]

/-- SCHED_APPEND (R312, R395): the records at ADDR are checked and added, all or none. -/
def Dev.schedAppend (d : Dev) (h : HalfId) (seq : Nat) (es : List RdErr) : Dev :=
  d.begin h seq 0x08 fun d e =>
    let w := d.readRows (e.arg 24 8) (e.arg 32 4) es
    let d := w.2
    let new := w.1.map fun r => rowBytes r.1
    if w.1.any (·.2) then d.finish h seq stPoison
    else
      match schedCheck (d.stepc h).sched new with
      | some st => d.finish h seq st
      | none => (d.modStep h fun s => { s with sched := s.sched ++ new }).finish h seq stOk

/-- The record in force for a layer in step n: that of its group, else that of every group (R313). -/
def schedFor (rs : List (List Byte)) (group n : Nat) : Option (List Byte) :=
  (rs.find? fun r => scGroup r == group && scCovers r n).or (rs.find? fun r => scGroup r == 0xFF && scCovers r n)

/-! ## An attempt fails on this device -/

/-- The units of a controller's scope are held or released. -/
def Dev.holdScope (d : Dev) (h : HalfId) (v : Bool) : Dev := if d.split then d.setHeld h v else { d with heldW := v, heldE := v }

/-- The attempt in progress has failed here: the first cause stays; its work stops; what its units hold is cleared before the
next attempt (R287). -/
def Dev.failAttempt (d : Dev) (h : HalfId) (st : Nat) (layer : Option Nat) : Dev :=
  match ((d.stepc h).run).bind (·.sa) with
  | none => d
  | some _ =>
    (d.modRun h fun r =>
      { r with fail := r.fail.or (some st), firstLayer := if r.firstLayer = 65535 then layer.getD 65535 else r.firstLayer
               stopped := true, passes := [], replay := [], dirty := true }).holdScope h true

/-! ## Dispatch (R301, R307) -/

/-- A receive item delivers the layer's reduced shard. -/
def Dev.delivered (d : Dev) (h : HalfId) (l : Nat) : Bool :=
  (d.schedItems h).any fun i => isStreamItem 1 i && leAt i 11 1 == 2 && leAt i 13 1 == l

/-- A poisonable element in memory. -/
def Dev.elem (d : Dev) (w a : Nat) : Option Nat := if d.isPoison a then none else some (leNat (memBytes d.mem a w))

/-- The reduced elements held of a half shard, in transfer order; of a shard that is not in halves, those of the half's rows. -/
def Dev.reducedOf (d : Dev) (h : HalfId) (l : Nat) (upper : Bool) : List (Option Nat) :=
  match fmGet d.fab.reduced (1024 + d.updKey h l), layerRec (d.imageBytes h) l with
  | some ps, some i =>
    let rows := (d.shardAt (d.readCopy h i l)).rows
    ((ps.flatMap (·.2)).zipIdx.filter fun e => decide (rows / 2 ≤ e.2 % rows) == upper).map (·.1)
  | _, _ => ((fmGet d.fab.reduced (2 * d.updKey h l + (if upper then 1 else 0))).getD []).flatMap (·.2)

/-- With one device on the axis the owner delivers its own contribution, once every backward pass has ended: the FP32 matrix at `own`,
column-major (R271, R361). -/
def Dev.deliverOwn (d : Dev) (h : HalfId) (l : Nat) (x : Shard) (own : Option Nat) : Dev :=
  match own with
  | none => d
  | some a =>
    if !d.backwardDone h || d.delivered h l || !(d.reducedOf h l false).isEmpty || !(d.reducedOf h l true).isEmpty then d else
    let low := x.rows / 2
    let part (r0 n : Nat) : List (Option Nat) :=
      (List.range (x.cols * n)).map fun k => d.elem 4 (a + 4 * (k / n * x.rows + r0 + k % n))
    let lo := part 0 low
    let hi := part low (x.rows - low)
    let d := if (lo ++ hi).any sumBad then d.redNf h l else d
    { d with fab := { d.fab with
        reduced := fmSet (fmSet d.fab.reduced (2 * d.updKey h l) [(0, lo)]) (2 * d.updKey h l + 1) [(0, hi)] } }

/-- The layer's reduced shard is complete: both half shards, rows below ⌊ROWS / 2⌋ and the others. -/
def Dev.shardWhole (d : Dev) (h : HalfId) (l : Nat) (x : Shard) : Bool :=
  decide (x.rows / 2 * x.cols ≤ (d.reducedOf h l false).length) &&
    decide ((x.rows - x.rows / 2) * x.cols ≤ (d.reducedOf h l true).length)

/-- Engines in a group (Table 12-1). -/
def Shard.engines (x : Shard) : Nat := if x.block = 0 then 1 else if x.block = 1 then 4 else 16

/-- The engines of a mask, from `g`. -/
def groupMask (g n : Nat) : Nat := (2 ^ n - 1) * 2 ^ g

/-- The lowest-numbered free group of a size that serves a half, as its first engine. -/
def Dev.freeGroup (d : Dev) (h : HalfId) (n : Nat) : Option Nat :=
  let busy := d.fget F.UPD_STATUS_BUSY
  let base := if d.split && h then 8 else 0
  ((List.range ((if d.split then 8 else 16) / n)).map fun k => base + k * n).find? fun g => busy &&& groupMask g n == 0

/-- A layer's update is complete; in eager mode that sets its commit bit and the one of the attempt's ledger entry (R290, R308). -/
def Dev.layerUpdated (d : Dev) (h : HalfId) (l : Nat) : Dev :=
  let k := d.updKey h l
  let a := ((d.stepc h).run.map (·.aEntry)).getD 0
  let d := { d.modRun h fun r => { r with updated := r.updated ++ [l] } with
    upd := { d.upd with next := fmErase d.upd.next k, done := fmErase d.upd.done k } }
  if isEager (d.imageBytes h) then
    (d.setLayerBit F.DEV_STEP_COMMIT_COMMIT (d.stepAdd h) l).modEntry h (a + 1) fun e => { e with body := e.body ||| 2 ^ l }
  else d

/-- In eager mode with CADENCE 1 the update keeps each parity-protected ingot of the layer before it writes it (R379). -/
def Dev.keepOld (d : Dev) (h : HalfId) (l : Nat) : Dev :=
  let b := d.imageBytes h
  if !isEager b || (survHdr b).map shCadence != some 1 then d else
  let is := (survItems b 1).filter fun i => !tiEscrow i && tiRegion i != 0 && tiLayer i == l
  let as := is.flatMap fun i => (List.range (tiIngots i)).map fun k => d.tensorAt h i false + 4096 * k
  d.modRun h fun r => { r with old := as.foldl (fun m a => fmSet m a (d.ingot a)) r.old }

/-- An ingot of memory copied, poison as poison. -/
def Dev.copyIngot (d : Dev) (src dst : Nat) : Dev :=
  let inn (a : Nat) : Bool := decide (src ≤ a) && decide (a < src + 4096)
  let cs := d.mem.filter fun (c : Host.Cell) => inn c.1
  let ps := d.poison.filter fun p => inn (8 * p.1)
  let d := (d.rangeRead src 4096).zeroRange dst (dst + 4096)
  let d := { d with mem := cs.foldl (fun m (c : Host.Cell) => memPut m (dst + (c.1 - src)) c.2) d.mem }
  (ps.foldl (fun d p => d.pokePoison (dst + (8 * p.1 - src))) d).countRange dst 4096 true

/-- Before the first block of a layer is written to copy B, copy A's header goes there (R307). -/
def Dev.copyHeader (d : Dev) (h : HalfId) (i : List Byte) (l : Nat) : Dev :=
  if !isEager (d.imageBytes h) && d.writeCopy h i l == lrShard i true then d.copyIngot (d.readCopy h i l) (d.writeCopy h i l) else d

/-- UPDATE_BLOCK_DISPATCH: the next block of a layer goes to the lowest free group of its block size; `own` is where the device's
own contribution lies when no transfer delivers the shard. -/
def Dev.updateDispatch (d : Dev) (h : HalfId) (l : Nat) (own : Option Nat) : Dev :=
  match (d.stepc h).run, layerRec (d.imageBytes h) l with
  | some r, some i =>
    let eager := isEager (d.imageBytes h)
    let k := d.updKey h l
    let next := (fmGet d.upd.next k).getD 0
    let x := d.shardAt (d.readCopy h i l)
    if !lrUpdate i || r.sa.isNone || r.paused.isSome || r.updated.contains l || (r.fail.isSome && !(eager && next != 0)) ||
        (eager && !r.grads.contains l) then d
    else
      let d := d.deliverOwn h l x own
      if !d.shardWhole h l x then d
      else if x.nb = 0 then (((d.keepOld h l).copyHeader h i l).setPhase h 8).layerUpdated h l
      else if x.nb ≤ next then d
      else
        match d.freeGroup h x.engines with
        | none => d
        | some g =>
          let d := if next = 0 then (d.keepOld h l).copyHeader h i l else d
          let d := ((d.setPhase h 8).fset F.UPD_STATUS_BUSY (d.fget F.UPD_STATUS_BUSY ||| groupMask g x.engines)).fset
            F.UPD_STATUS_LAYER l
          { d with upd := { d.upd with busy := fmSet d.upd.busy g (l, next), next := fmSet d.upd.next k (next + 1) } }
  | _, _ => d

/-! ## The datapath (Table 12-4) -/

/-- a·b + c with one rounding to FP32. -/
def fmaF32 (a b c : Val) : Nat := fp32.rne ((a.mul b).add c)

/-- Every value of a list, when none is missing. -/
def allSome {α : Type} : List (Option α) → Option (List α)
  | [] => some []
  | x :: xs =>
    match x, allSome xs with
    | some a, some as => some (a :: as)
    | _, _ => none

/-- A value is NaN or infinite. -/
def Val.bad : Val → Bool
  | .fin _ _ _ => false
  | _ => true

/-- The weight format. -/
def Shard.fmt (x : Shard) : Fmt := if x.wfmt = 0 then bf16 else fp16

/-- The element index of the stochastic roundings (R306). -/
def Shard.index (x : Shard) (r c : Nat) : Nat := (x.colBase + c) * x.rows + r

/-- The rows of block `blk` that are not absent. -/
def Shard.valid (x : Shard) (blk : Nat) : Nat := min x.b (x.rows - blk * x.b)

/-- The sum of a list of products through blocks of 64, the partial sum passed on (R73, R74). -/
def chainSum : Nat → Option Nat → List Val → Nat
  | 0, inc, _ => inc.getD 0
  | n + 1, inc, ps =>
    let s := colSum (ps.take 64 ++ (match inc with | some v => [fp32.val v] | none => []))
    if (ps.drop 64).isEmpty then s else chainSum n (some s) (ps.drop 64)

/-- Chunks of 64 addends added one after another into an accumulator (R74). -/
def accChunks : Nat → Nat → List Val → Nat
  | 0, acc, _ => acc
  | n + 1, acc, ps => if ps.isEmpty then acc else accChunks n (addF32 acc (colSum (ps.take 64))) (ps.drop 64)

/-- What one block's update yields: the new M and W by column (rows of the block), the new L row-major; `none` is poison;
whether a value was nonfinite. -/
structure BlockOut where
  m : List (List (Option Nat))
  w : List (List (Option Nat))
  l : List (Option Nat)
  nf : Bool
  deriving DecidableEq, Repr

/-- Table 12-4 for one layer block: g and the M, W read, by column; L and P of the block, row-major; `rec` the schedule record. -/
def updateBlock (x : Shard) (blk step seed : Nat) (rec : List Byte) (g m w : List (List (Option Nat)))
    (l p : List (Option Nat)) : BlockOut :=
  let n := x.valid blk
  let r0 := blk * x.b
  let col (a : List (List (Option Nat))) (c : Nat) : List (Option Nat) := (a[c]?).getD []
  let at_ (a : List (List (Option Nat))) (r c : Nat) : Option Nat := ((col a c)[r]?).getD none
  let gb (r c : Nat) : Option Val := (at_ g r c).map fun v => bf16.val (bf16.rne (fp32.val v))
  let l' := (List.range (x.b * x.b)).map fun k =>
    let i := k / x.b
    let j := k % x.b
    let ps := if i < n && j < n then
        allSome ((List.range x.cols).map fun c =>
          match gb i c, gb j c with
          | some a, some b => some (a.mul b)
          | _, _ => none)
      else some []
    match (l[k]?).getD none, ps with
    | some v, some ps => some (accChunks (x.cols + 1) (fp32.rne ((fp32.val (scBeta2 rec)).mul (fp32.val v))) ps)
    | _, _ => none
  let m' := (List.range x.cols).map fun c => (List.range n).map fun r =>
    match at_ g r c, at_ m r c with
    | some gv, some mv =>
      let v := fmaF32 (fp32.val (scBeta1 rec)) (bf16.val mv) (fp32.val gv)
      some (bf16.enc (fp32.val v) (.stoch (randomWord (x.tensor + 1) step seed (x.index (r0 + r) c)))).1
    | _, _ => none
  let u (r c : Nat) : Option Val :=
    if bit x.flags 0 then
      (allSome ((List.range n).map fun k =>
        match (p[r * x.b + k]?).getD none, at_ m' k c with
        | some pv, some mv => some ((bf16.val pv).mul (bf16.val mv))
        | _, _ => none)).map fun ps => fp32.val (chainSum (n + 1) none ps)
    else (at_ m' r c).map bf16.val
  let wp := (List.range x.cols).map fun c => (List.range n).map fun r =>
    match at_ w r c, u r c with
    | some wv, some uv =>
      let t := fmaF32 (fp32.val (scLr rec)).neg uv (x.fmt.val wv)
      some (fmaF32 (fp32.val (scDecay rec)).neg (x.fmt.val wv) (fp32.val t))
    | _, _ => none
  let w' := wp.zipIdx.map fun q => q.1.zipIdx.map fun z => z.1.map fun v =>
    (x.fmt.enc (fp32.val v) (.stoch (randomWord x.tensor step seed (x.index (r0 + z.2) q.2)))).1
  let bad (f : Fmt) (o : Option Nat) : Bool := (o.map fun v => (f.val v).bad).getD false
  { m := m', w := w', l := l'
    nf := wp.any (·.any (bad fp32)) || m'.any (·.any (bad bf16)) || l'.any (bad fp32) }

/-- Elements stored one after another from `a`; a word with a poisoned element is poison, and one that is covered in part keeps
its poison (R237). -/
def Dev.storeElems (d : Dev) (w a : Nat) (vs : List (Option Nat)) : Dev :=
  let bs : List (Option Byte) := vs.flatMap fun v =>
    match v with
    | some x => (leBytes w x).map some
    | none => List.replicate w none
  let e := a + bs.length
  (List.range ((e + 7) / 8 - a / 8)).foldl (fun d i =>
    let k := 8 * (a / 8 + i)
    let new := (List.range 8).map fun j =>
      if a ≤ k + j && k + j < e then (bs[k + j - a]?).getD none
      else if d.isPoison k then none else some (memGet d.mem (k + j))
    match allSome new with
    | some b => d.poke k b
    | none => d.pokePoison k) d

/-- UPDATE_BLOCK_DONE: the group that begins with engine g finishes its block (R305–R308, R315); `es` is what the code met at
the words it read. -/
def Dev.updateDone (d : Dev) (g : Nat) (es : List (Nat × RdErr)) : Dev :=
  let h := d.split && decide (8 ≤ g)
  match fmGet d.upd.busy g with
  | none => d
  | some (layer, blk) =>
    let d := { d with upd := { d.upd with busy := fmErase d.upd.busy g } }
    match (d.stepc h).run, layerRec (d.imageBytes h) layer with
    | some r, some i =>
      let src := d.readCopy h i layer
      let dst := d.writeCopy h i layer
      let x := d.shardAt src
      let d := d.fset F.UPD_STATUS_BUSY (d.fget F.UPD_STATUS_BUSY &&& (65535 - groupMask g x.engines))
      let d := d.meet es
      let n := x.valid blk
      let r0 := blk * x.b
      let low := x.rows / 2
      let lo := d.reducedOf h layer false
      let hi := d.reducedOf h layer true
      let cols (off : Nat) := (List.range x.cols).map fun c => (List.range n).map fun q =>
        d.elem 2 (src + off + 2 * (x.rows * c + r0 + q))
      let grad := (List.range x.cols).map fun c => (List.range n).map fun q =>
        let q := r0 + q
        if q < low then (lo[c * low + q]?).getD none else (hi[c * (x.rows - low) + (q - low)]?).getD none
      let m := cols x.mOff
      let w := cols x.wOff
      let la := x.lOff + 4 * blk * x.b ^ 2
      let pa := x.pOff + 2 * blk * x.b ^ 2
      let prec := bit x.flags 0
      let l := (List.range (x.b ^ 2)).map fun k => d.elem 4 (src + la + 4 * k)
      let p := if prec then (List.range (x.b ^ 2)).map fun k => d.elem 2 (src + pa + 2 * k) else []
      let poison := (m.any (·.any (·.isNone))) || (w.any (·.any (·.isNone))) || l.any (·.isNone) || p.any (·.isNone)
      let seed := d.fget F.TIL_VX_SEED_SEED (tileAdd (if d.split && h then 256 else 0))
      let step := d.fget F.DEV_STEP_NUM_N (d.stepAdd h)
      let out := updateBlock x blk step seed ((fmGet r.chosen layer).getD []) grad m w l p
      let touch (d : Dev) (base : Nat) (wr : Bool) : Dev :=
        let one (d : Dev) (a k : Nat) : Dev := if wr then d.countRange (base + a) k true else d.rangeRead (base + a) k es
        let d := (List.range x.cols).foldl (fun d c =>
          one (one d (x.wOff + 2 * (x.rows * c + r0)) (2 * n)) (x.mOff + 2 * (x.rows * c + r0)) (2 * n)) d
        one d la (4 * x.b ^ 2)
      let d := touch d src false
      let d := if prec then d.rangeRead (src + pa) (2 * x.b ^ 2) es else d
      let d := (List.range x.cols).foldl (fun d c =>
        (d.storeElems 2 (dst + x.wOff + 2 * (x.rows * c + r0)) ((out.w[c]?).getD [])).storeElems 2
          (dst + x.mOff + 2 * (x.rows * c + r0)) ((out.m[c]?).getD [])) d
      let d := touch (d.storeElems 4 (dst + la) out.l) dst true
      let elems := n * x.cols
      let macs := d.upd.macs + (if prec then 2 else 1) * x.b * elems
      let d := (d.count F.UPD_ELEMENTS_COUNT elems).count F.UPD_MACS_COUNT (macs / 4096)
      let k := d.updKey h layer
      let done := (fmGet d.upd.done k).getD 0 + 1
      let d := { d with upd := { d.upd with macs := macs % 4096, done := fmSet d.upd.done k done } }
      let d := if out.nf then ((d.event E.UPD_UPDATE_NF).setNf h layer) else d
      let d := if poison then ((d.event E.UPD_POISON).setNf h layer) else d
      let d := if done = x.nb then d.layerUpdated h layer else d
      if poison then d.failAttempt h stPoison (some layer)
      else if out.nf then d.failAttempt h stNonfinite (some layer)
      else d
    | _, _ => d.fset F.UPD_STATUS_BUSY 0

end Sys2Proof.Machine
end

