-- ==== Sys2Proof/Machine/Feed.lean ====
section
/-! DEFINITION. The feed port: arming, shuffle and ingest, NVMe commands, cold checkpoints, BAR2, the links (R486–R497). -/

namespace Sys2Proof.Machine

/-- The feed port is in root mode. -/
def Dev.rootMode (d : Dev) : Bool := d.flag F.FED_STATUS_MODE

/-- The namespace a FED_NS entry names, when it has been found (R492). -/
def Dev.nsFor (d : Dev) (k : Nat) : Option Namespace :=
  d.feed.ns.find? fun n => n.ctrl == d.fget F.FED_NS_CTRL (8 * k) && n.nsid == d.fget F.FED_NS_NSID (8 * k)

/-- BIND of an entry names the scope of FED_CTRL. -/
def Dev.nsBound (d : Dev) (k : Nat) : Bool :=
  d.fget F.FED_NS_BIND (8 * k) == (match d.feedScope with | .whole => 3 | .west => 1 | .east => 2)

/-- The half whose step controller the feed serves. -/
def Dev.feedHalf (d : Dev) : HalfId :=
  match d.feedScope with
  | .east => true
  | _ => false

/-! ## The descriptor and the shards (Tables 20-4, 20-5) -/

def fdMask (b : List Byte) : Nat := leAt b 1 1
def fdMicro (b : List Byte) : Nat := leAt b 2 1
def fdReaders (b : List Byte) : Nat := leAt b 4 4
def fdIndex (b : List Byte) : Nat := leAt b 8 4
def fdSeed (b : List Byte) : Nat := leAt b 12 4
def fdDest (b : List Byte) : Nat := leAt b 24 8
def fdSlot (b : List Byte) : Nat := leAt b 32 4
def fdFirst (b : List Byte) : Nat := leAt b 36 4
def fdCount (b : List Byte) : Nat := leAt b 40 4

/-- The FED_NS entries of NS_MASK, ascending; entry 8 stands for the one shard of host memory. -/
def fdEntries (b : List Byte) : List Nat :=
  if leAt b 0 1 = 1 then [8] else (List.range 8).filter fun k => bit (fdMask b) k

/-- A shard header is wrong (Table 20-4). -/
def shardHeaderBad (s : List Byte) : Bool :=
  leAt s 0 4 != 0x44485346 || leAt s 4 1 != 1 || !(leAt s 5 1 == 2 || leAt s 5 1 == 4) || leAt s 6 2 != 0 ||
    leAt s 16 4 % 4096 != 0 || decide (leAt s 16 4 < 64 + leAt s 20 4 * leAt s 5 1) ||
    (bytesAt s 32 4060).any (· != 0#8) || leAt s 4092 4 != crc32c (bytesAt s 0 4092)

/-- RECORDS, REC_BYTES, MAX_TOKENS and TOKEN_BYTES of a shard header. -/
def shardInfo (k : Nat) (s : List Byte) : Nat × Nat × Nat × Nat × Nat :=
  (k, leAt s 8 8, leAt s 16 4, leAt s 20 4, leAt s 5 1)

/-- R, the records of the shards. -/
def FeedJob.records (j : FeedJob) : Nat := j.shards.foldl (fun n s => n + s.2.1) 0

/-- The checks of R493 in order; `heads`: the shard headers of the usable entries (`none`: the request failed). -/
def Dev.armCheck (d : Dev) (b : List Byte) (poison : Bool) (heads : List (Option (List Byte))) : Option Nat :=
  let sc := d.feedScope
  let a := d.fget F.FED_FEED_DESC_ADDR
  let usable (k : Nat) : Bool := k == 8 || ((d.nsFor k).isSome && d.nsBound k)
  let n := (heads.filterMap id).foldl (fun n s => n + leAt s 8 8) 0
  let tok := ((heads.filterMap id).map fun s => leAt s 5 1).foldl max 0
  firstFail [
    failIf (!(scopeHalves sc).all (fun h => d.half h == 3 || d.half h == 5) ||
      leAt b 0 1 != (if d.rootMode then 0 else 1)) stWrongState,
    failIf (a % 64 != 0 || fdDest b % 4096 != 0 || fdSlot b % 4096 != 0) stAlign,
    failIf poison stPoison,
    failIf (heads.any (·.isNone)) stPartnerAbsent,
    failIf (leAt b 3 1 != 0 || leAt b 44 20 != 0 || (leAt b 0 1 == 1 && fdMask b != 0) || (heads.filterMap id).any shardHeaderBad)
      stBadFormat,
    failIf (fdReaders b ≤ fdIndex b || 65536 < fdReaders b || fdMicro b != microBatches (d.imageBytes d.feedHalf) ||
      !(fdEntries b).all usable || n == 0) stCountRange,
    failIf (!d.tenantRange sc a 64 || !d.tenantRange sc (fdDest b) (fdMicro b * fdSlot b) || fdSlot b < 64 + fdCount b * tok)
      stLenRange]

/-- The feed is unarmed (R493). -/
def Dev.disarm (d : Dev) : Dev :=
  { d.fset F.FED_FEED_STATUS_STATE 0 with feed := { d.feed with armed := none, ingest := [], cmds := d.feed.cmds.filter fun p => p.2.use != 0 } }

/-- The words of the cursor. -/
def Dev.setCursor (d : Dev) (ws : List Nat) : Dev :=
  ws.zipIdx.foldl (fun d p => d.fset F.FED_CURSOR_CURSOR p.1 (8 * p.2)) d

/-- ARM (R493): the descriptor is read, the checks are made, and the feed is armed with the cursor kept or reset. -/
def Dev.arm (d : Dev) (w : Who) (es : List RdErr) (heads : List (Option (List Byte))) : Dev :=
  if !d.mayWrite w 0x8000040 then d else
  let r := d.readWords (d.fget F.FED_FEED_DESC_ADDR / 8 * 8) 8 es
  let b := wordBytes r.1.1
  let d := r.2
  match d.armCheck b r.1.2.1 heads with
  | some st => d.disarm.fset F.FED_FEED_STATUS_LAST_STATUS st
  | none =>
    let j : FeedJob := { desc := b, shards := ((fdEntries b).zip (heads.filterMap id)).map fun p => shardInfo p.1 p.2 }
    let crc := crc32c b
    let d := if d.fget F.FED_CURSOR_CURSOR 16 % 2 ^ 32 = crc then d
      else d.setCursor [0, 0, crc + j.records % 2 ^ 32 * 2 ^ 32, 0]
    { (d.fset F.FED_FEED_STATUS_STATE 1).fset F.FED_FEED_STATUS_LAST_STATUS stOk with feed := { d.feed with armed := some j } }

/-! ## Shuffle (R494) -/

/-- The half width of the permutation: the smallest h ≥ 1 with 4^h ≥ r. -/
def feistelBits (r : Nat) : Nat := ((List.range 33).find? fun h => 1 ≤ h && decide (r ≤ 4 ^ h)).getD 32

/-- One pass of the four rounds. -/
def feistel (h e seed x : Nat) : Nat :=
  let p := (List.range 4).foldl (fun (p : Nat × Nat) round =>
    let f := philox (round, p.1, bits e 0 32, bits e 32 32) (seed, 0x46454544) 0 % 2 ^ h
    (p.2 ^^^ f, p.1)) (x % 2 ^ h, x / 2 ^ h)
  p.2 * 2 ^ h + p.1

/-- Repeated until the result names a record. -/
def shuffleGo (r h e seed : Nat) : Nat → Nat → Nat
  | 0, x => x
  | n + 1, x => let y := feistel h e seed x; if y < r then y else shuffleGo r h e seed n y

/-- The record at position k of epoch e. -/
def shuffle (r e seed k : Nat) : Nat := shuffleGo r (feistelBits r) e seed (4 ^ feistelBits r) k

/-- The record of micro-batch m of the running ingest, over all shards. -/
def Dev.ingestRecord (d : Dev) (j : FeedJob) (m : Nat) : Nat :=
  let r := max 1 j.records
  let q := d.feed.ingestBase.2 + fdIndex j.desc * fdMicro j.desc + m
  shuffle r (d.feed.ingestBase.1 + q / r) (fdSeed j.desc) (q % r)

/-- The shard a record lies in and its index there. -/
def FeedJob.locate : List (Nat × Nat × Nat × Nat × Nat) → Nat → Option ((Nat × Nat × Nat × Nat × Nat) × Nat)
  | [], _ => none
  | s :: ss, i => if i < s.2.1 then some (s, i) else FeedJob.locate ss (i - s.2.1)

/-! ## Ingest (R495) -/

/-- An NVMe command is issued. -/
def Dev.nvmeIssue (d : Dev) (c : NvmeCmd) : Dev :=
  ({ d with feed := { d.feed with cmds := fmSet d.feed.cmds d.feed.nextCmd c, nextCmd := d.feed.nextCmd + 1 } }).emit
    (.nvme c.entry c.op c.lba c.blocks)

/-- Bytes of a logical block of an entry's namespace. -/
def Dev.lbaBytes (d : Dev) (k : Nat) : Nat := if ((d.nsFor k).map (·.lba4k)).getD false then 4096 else 512

/-- A micro-batch's record is written into its slot; `bad`: the 8-byte words of the record that came poisoned. -/
def Dev.writeRecord (d : Dev) (j : FeedJob) (m : Nat) (rec : List Byte) (bad : List Nat) : Dev :=
  match FeedJob.locate j.shards (d.ingestRecord j m) with
  | none => d
  | some ((_, _, _, maxTok, tb), _) =>
    let len := leAt rec 0 4
    let wrong := bad.contains 0 || decide (maxTok < len) || leAt rec 4 4 != crc32c (bytesAt rec 64 (len * tb))
    let n := if wrong then 0 else min (fdCount j.desc) (len - fdFirst j.desc)
    let src := 64 + fdFirst j.desc * tb
    let mark (o : Nat) (bs : List Byte) : List (Option Nat) := bs.zipIdx.map fun p =>
      if bad.contains ((o + p.2) / 8) then none else some p.1.toNat
    let body := (leBytes 4 n ++ leBytes 4 0).map (fun x => some x.toNat) ++ mark 8 (bytesAt rec 8 56) ++
      mark src (bytesAt rec src (n * tb))
    let slot := fdSlot j.desc
    let body := body ++ List.replicate (slot - body.length) (some 0)
    let a := fdDest j.desc + m * slot
    let d := if wrong then d.event E.FED_RECORD_BAD else d
    (d.storeElems 1 a body).countRange a slot true

/-- A micro-batch is written; the last one ends the ingest. -/
def Dev.ingestDone (d : Dev) (m : Nat) : Dev :=
  let left := d.feed.ingest.filter (· != m)
  let d := { d with feed := { d.feed with ingest := left } }
  if left.isEmpty then (d.fset F.FED_FEED_STATUS_STATE 1).fset F.FED_FEED_STATUS_LAST_STATUS stOk else d

/-- The ingest fails: a fault of the INGEST pass (R285, R492). -/
def Dev.ingestFail (d : Dev) (st : Nat) : Dev :=
  let d := { d with feed := { d.feed with ingest := [], cmds := d.feed.cmds.filter fun p => p.2.use != 0 } }
  ((d.fset F.FED_FEED_STATUS_STATE 1).fset F.FED_FEED_STATUS_LAST_STATUS st).failAttempt d.feedHalf stAbandoned none

/-- The INGEST pass starts the ingest; the cursor advances whatever comes of it. From host memory the records come with it. -/
def Dev.startIngest (d : Dev) (h : HalfId) (host : List (Option (List Byte))) : Dev :=
  match (if scopeHas d.feedScope h then d.feed.armed else none) with
  | none => d.failAttempt h stAbandoned none
  | some j =>
    let e := d.fget F.FED_CURSOR_CURSOR
    let p := d.fget F.FED_CURSOR_CURSOR 8
    let n := p + fdReaders j.desc * fdMicro j.desc
    let r := max 1 j.records
    let d := ((d.fset F.FED_CURSOR_CURSOR (e + n / r)).fset F.FED_CURSOR_CURSOR (n % r) 8).fset F.FED_FEED_STATUS_STATE 2
    let d := { d with feed := { d.feed with ingest := List.range (fdMicro j.desc), ingestBase := (e, p) } }
    (List.range (fdMicro j.desc)).foldl (fun d m =>
      if !d.feed.ingest.contains m then d else
      match FeedJob.locate j.shards (d.ingestRecord j m) with
      | none => d.ingestDone m
      | some ((k, _, bytes, _, _), i) =>
        if k = 8 then
          match (host[m]?).getD none with
          | some rec => (d.writeRecord j m rec []).ingestDone m
          | none => d.ingestFail stPartnerAbsent
        else
          d.nvmeIssue ⟨k, 2, (4096 + i * bytes) / d.lbaBytes k, bytes / d.lbaBytes k, 0, m, false⟩) d

/-! ## Checkpoints (R496) -/

/-- The checks of R496 in order. -/
def Dev.ckptCheck (d : Dev) : Option Nat :=
  let a := d.fget F.FED_CKPT_SRC_ADDR
  let n := d.fget F.FED_CKPT_CTRL_INGOTS
  let k := d.fget F.FED_CKPT_CTRL_NS
  firstFail [
    failIf (a % 4096 != 0) stAlign,
    failIf (!d.tenantRange d.feedScope a (4096 * n) ||
      (match d.nsFor k with
       | some s => s.blocks < d.fget F.FED_CKPT_LBA_LBA + n * (4096 / d.lbaBytes k)
       | none => false)) stLenRange,
    failIf ((d.nsFor k).isNone || !d.nsBound k) stAuthFailed]

/-- The next ingot's command. -/
def Dev.ckptIssue (d : Dev) (i : Nat) : Dev :=
  match d.feed.ckpt with
  | none => d
  | some (_, k, lba, _, dir) =>
    let u := 4096 / d.lbaBytes k
    d.nvmeIssue ⟨k, if dir then 2 else 1, lba + i * u, u, 1, i, false⟩

/-- A copy ends with a status. -/
def Dev.ckptStop (d : Dev) (st : Nat) : Dev :=
  let d := (d.fset F.FED_CKPT_CTRL_GO 0).fset F.FED_CKPT_STATUS_LAST_STATUS st
  let d := { d with feed := { d.feed with ckpt := none, cmds := d.feed.cmds.filter fun p => p.2.use != 1 } }
  if st = stOk then d.fset F.FED_CKPT_STATUS_STATE 2 else (d.event E.FED_CKPT_FAIL).fset F.FED_CKPT_STATUS_STATE 3

/-- The tensor digest over the ingots moved (R382). -/
def Dev.ckptDigest (d : Dev) (a n : Nat) : Nat := tensorDigest ((List.range n).map fun k => d.ingot (a + 4096 * k))

/-- A copy starts as FED_CKPT_CTRL, whose word is `v`, asks (R496). -/
def Dev.ckptStart (d : Dev) (v : Nat) : Dev :=
  let n := bits v 8 32
  let d := d.fset F.FED_CKPT_STATUS_DONE 0
  match d.ckptCheck with
  | some st => d.ckptStop st
  | none =>
    if n = 0 then (d.fset F.FED_CKPT_DIGEST_DIGEST (tensorDigest [])).ckptStop stOk
    else
      let d := (d.fset F.FED_CKPT_CTRL_GO 1).fset F.FED_CKPT_STATUS_STATE 1
      let job := (d.fget F.FED_CKPT_SRC_ADDR, bits v 2 3, d.fget F.FED_CKPT_LBA_LBA, n, bit v 1)
      ({ d with feed := { d.feed with ckpt := some job } }).ckptIssue 0

/-- A running copy ends, and the one whose GO was written in that cycle starts (R10, R496). -/
def Dev.ckptEnd (d : Dev) (st : Nat) : Dev :=
  match d.feed.ckptAgain with
  | none => d.ckptStop st
  | some v => ({ d.ckptStop st with feed := { (d.ckptStop st).feed with ckptAgain := none } }).ckptStart v

/-- CKPT_GO: a write of FED_CKPT_CTRL with GO 1. While a copy runs GO is set already, and only the other fields are written, unless the
write falls in the cycle in which that copy ends (`clearing`): then GO stays set and a new copy starts (R10, R496). -/
def Dev.ckptGo (d : Dev) (w : Who) (v : Nat) (clearing : Bool) : Dev :=
  if !d.mayWrite w 0x8000060 || !bit v 0 then d else
  let d := ((d.fset F.FED_CKPT_CTRL_DIR (bits v 1 1)).fset F.FED_CKPT_CTRL_NS (bits v 2 3)).fset F.FED_CKPT_CTRL_INGOTS (bits v 8 32)
  if d.feed.ckpt.isSome then
    if clearing then { d with feed := { d.feed with ckptAgain := some v } } else d
  else d.ckptStart v

/-- CKPT_DONE: every ingot has moved; to a drive, the Flush has ended, and `ok` says how. -/
def Dev.ckptDone (d : Dev) (ok : Bool) : Dev :=
  match d.feed.ckpt with
  | none => d
  | some (a, k, _, n, dir) =>
    if d.fget F.FED_CKPT_STATUS_DONE < n then d else
    let d := if dir then d else d.emit (.nvme k 0 0 0)
    if dir || ok then (d.fset F.FED_CKPT_DIGEST_DIGEST (d.ckptDigest a n)).ckptEnd stOk
    else (d.event E.FED_NVME_ERR).ckptEnd stPartnerAbsent

/-! ## NVMe completions (R492) -/

/-- A command has failed: one retry, then NVME_ERR and the failure of what it served. -/
def Dev.nvmeFail (d : Dev) (id : Nat) (st : Nat) : Dev :=
  match fmGet d.feed.cmds id with
  | none => d
  | some c =>
    if !c.retried then
      ({ d with feed := { d.feed with cmds := fmSet d.feed.cmds id { c with retried := true } } }).emit (.nvme c.entry c.op c.lba c.blocks)
    else
      let d := ({ d with feed := { d.feed with cmds := fmErase d.feed.cmds id } }).event E.FED_NVME_ERR
      if c.use = 0 then d.ingestFail st else d.ckptEnd st

/-- NVME_COMPLETION: the data of a read is taken, with the words that came poisoned; `es`: what the code met at the words a
checkpoint read from memory. -/
def Dev.nvmeCompletion (d : Dev) (id : Nat) (ok : Bool) (data : List Byte) (bad : List Nat) (es : List RdErr) : Dev :=
  match fmGet d.feed.cmds id with
  | none => d
  | some c =>
    if !ok then d.nvmeFail id stPartnerAbsent else
    let d := { d with feed := { d.feed with cmds := fmErase d.feed.cmds id } }
    if c.use = 0 then
      match d.feed.armed with
      | some j => (d.writeRecord j c.item data bad).ingestDone c.item
      | none => d
    else
      match d.feed.ckpt with
      | none => d
      | some (a, _, _, n, dir) =>
        let at_ := a + 4096 * c.item
        let d := if dir then
            (d.storeElems 1 at_ ((data.take 4096).zipIdx.map fun p => if bad.contains (p.2 / 8) then none else some p.1.toNat)).countRange
              at_ 4096 true
          else (d.readRows at_ 64 es).2
        let d := d.count F.FED_CKPT_STATUS_DONE
        if c.item + 1 < n then d.ckptIssue (c.item + 1) else d

/-! ## BAR2 and the links -/

/-- The BAR2 size that LOG2SIZE gives. -/
def bar2Size (n : Nat) : Nat := if 20 ≤ n && n ≤ 36 then n else 20

/-- BAR2_ACCESS (R487, R490): a host reads `n` bytes or writes `data` at an offset; `ep`: the write's TLP is poisoned. -/
def Dev.bar2Access (d : Dev) (wr : Bool) (off n : Nat) (data : List Byte) (ep : Bool) (es : List RdErr) : Dev :=
  let len := if wr then data.length else n
  if d.rootMode || d.fget F.FED_STATUS_LINKS_UP = 0 || 2 ^ d.feed.bar2Log < off + len then d else
  let a := d.fget F.FED_BAR2_BASE / 4096 * 4096 + off
  let bad := !d.tenantRange d.feedScope a len || (scopeHalves d.feedScope).any fun h => d.half h == 6
  if bad then
    let d := d.event E.FED_EP_ABORT
    if wr then d else d.emit (.bar2 [] false true)
  else if wr then
    (d.storeElems 1 a (data.map fun x => if ep then none else some x.toNat)).countRange a len true
  else
    let w0 := a / 8 * 8
    let r := d.readWords w0 ((a + len + 7) / 8 - a / 8) es
    r.2.emit (.bar2 (bytesAt (wordBytes r.1.1) (a - w0) len) r.1.2.1 false)

/-- FEED_LINK_UP: a link is trained; in root mode Uhlea enumerates what it finds behind it: (controller, NSID, blocks, 4,096-byte
blocks). -/
def Dev.feedLinkUp (d : Dev) (link : Nat) (flit : Bool) (ns : List (Nat × Nat × Nat × Bool)) : Dev :=
  let up := d.fget F.FED_STATUS_LINKS_UP
  let slow := d.feed.noFlit.filter (· != link) ++ if flit then [] else [link]
  let d := (d.fsetB F.FED_STATUS_FLIT slow.isEmpty).fset F.FED_STATUS_LINKS_UP (up ||| 2 ^ link)
  let d := { d with feed := { d.feed with bar2Log := bar2Size (d.fget F.FED_BAR2_LOG2SIZE), noFlit := slow } }
  if !d.rootMode then d else
  let d := if ns.any fun n => 4 ≤ n.1 then d.event E.FED_NVME_ERR else d
  let all := d.feed.ns ++ (ns.filter fun n => n.1 < 4).map fun n => ⟨n.1, n.2.1, n.2.2.1, n.2.2.2⟩
  let d := { d with feed := { d.feed with ns := all } }
  d.fset F.FED_STATUS_CTRLS ((List.range 4).filter fun c => all.any (·.ctrl == c)).length

/-- FEED_LINK_DOWN: a link leaves the up state, and the controllers behind it with it. -/
def Dev.feedLinkDown (d : Dev) (link : Nat) (lost : List Nat) : Dev :=
  let up := d.fget F.FED_STATUS_LINKS_UP
  if !bit up link then d else
  let d := (d.event E.FED_LINK_DOWN).fset F.FED_STATUS_LINKS_UP (up - 2 ^ link)
  let all := d.feed.ns.filter fun n => !lost.contains n.ctrl
  let slow := d.feed.noFlit.filter (· != link)
  let d := d.fsetB F.FED_STATUS_FLIT (slow.isEmpty && up != 2 ^ link)
  let d := { d with feed := { d.feed with ns := all, noFlit := slow } }
  d.fset F.FED_STATUS_CTRLS ((List.range 4).filter fun c => all.any (·.ctrl == c)).length

end Sys2Proof.Machine
end

