-- ==== Sys2Proof/Machine/Reads.lean ====
section
/-! DEFINITION. Register reads as a session or BAR makes them: the rest of the fields that show state kept elsewhere, and the
tenant's coarsened view (R4–R7, R421, R454). -/

namespace Sys2Proof.Machine

/-- The fields of the step, fabric and feed registers that show state kept elsewhere; `h`: the half whose controller is
shown. -/
def Dev.viewMore (d : Dev) (h : HalfId) (f : Fld) (add : Nat) : Option Nat :=
  if f == F.FAB_STATUS_HELD then some (d.fab.recvs.foldl (fun n p => n + p.2.held.length) 0)
  else if f == F.FAB_STATUS_OUTSTANDING then some (d.fab.reqs.filter fun p => !isStream p.2.use).length
  else if f == F.FAB_STATUS_OPEN_VOTES then some d.fab.opens.length
  else if f == F.FAB_COORD_RANK then some (d.fget F.DEV_STRAPS_SHEAF_RANK)
  else if f == F.FAB_COORD_TENANT then some (d.tagOf h)
  else if f == F.UPD_STATUS_SCHED_USED then some (d.stepc h).sched.length
  else if f == F.UPD_STATUS_BUSY then
    some (d.fget f &&& (if !d.split then 0xFFFF else if h then 0xFF00 else 0x00FF))
  else if f == F.DEV_STEP_STATUS_EAGER then some (if isEager (d.imageBytes h) then 1 else 0)
  else if f == F.DEV_STEP_STATUS_IN_FLIGHT then some (((d.stepc h).run.map (·.passes.length)).getD 0)
  else if f == F.SEC_UNLOCK_STATUS_WAIT then
    some (if d.sec.wait = 0 then 0 else max 1 (d.sec.wait - (d.now - d.sec.waitAt) * 2 / 1953125))
  else if f == F.FED_NS_VALID then some (if (d.nsFor (add / 8)).isSome then 1 else 0)
  else if f == F.FED_NS_LBA4K then some (if ((d.nsFor (add / 8)).map (·.lba4k)).getD false then 1 else 0)
  else none

/-- A field as a reader's half has it. -/
def Dev.fieldFor (d : Dev) (w : Who) (f : Fld) (add : Nat) : Nat :=
  let h := d.readerHalf w
  match d.viewMore h f add with
  | some v => v
  | none => d.readField w f (add + d.bank w (f.off + add))

/-! ## The tenant's view (Table 17-6) -/

/-- Fields in core cycles, beats or fractions of a cycle, with their units per core cycle. -/
def cycleFields : List (Fld × Nat) :=
  [(F.TAL_PHASE_CYCLE, 1), (F.TAL_OFFSET_OFFSET, 8), (F.TAL_PORT_DELAY_DELAY, 8), (F.FLD_BEATS_COUNT, 1),
   (F.TIL_VX_GROUP_CYC_COUNT, 1), (F.TIL_NI_PORT_WAIT_COUNT, 1)]

/-- Idle counters with the indexes of their group and the stride of the groups. -/
def idleFields : List (Fld × Nat × Nat) :=
  [(F.TIL_IDLE_COUNT, 11, 0x10000), (F.TIL_UNIT_CNT_COUNT, 16, 128), (F.FAB_IDLE_COUNT, 11, 0x10000),
   (F.FAB_IDLE_LAST_COUNT, 11, 0x10000)]

/-- Rounded down to a whole multiple of `m`, as a signed 32-bit value. -/
def floorSigned (m v : Nat) : Nat :=
  let z : Int := if v < 2 ^ 31 then v else (v : Int) - 2 ^ 32
  ((z / m * m) % 2 ^ 32).toNat

/-- What a tenant sees of a field whose value is `v`. -/
def Dev.coarse (d : Dev) (s : Scope) (f : Fld) (add v : Nat) : Nat :=
  if f == F.MBX_POWER_AVG then
    let mw := if !d.split then v
      else d.meanPower fun r => (match s with | .east => r.2.1 | _ => r.1) + r.2.2 / 2
    (mw + 12500) / 25000 * 25000
  else if f == F.MBX_POWER_LAST || f == F.MBX_TEMP_SENSOR || (0xA000100 ≤ f.off && f.off < 0xA000400) then 0
  else if f == F.MBX_TEMP_MAX then ((s16 v / 80 * 80) % 65536).toNat
  else if f.off == F.SEC_STAGE_DATA.off then 0
  else
    match cycleFields.find? fun p => p.1 == f with
    | some p => if f == F.TAL_OFFSET_OFFSET then floorSigned (8 * d.cyclesPerTick) v
      else v / (p.2 * d.cyclesPerTick) * (p.2 * d.cyclesPerTick)
    | none =>
      match idleFields.find? fun p => p.1 == f with
      | some (_, n, st) =>
        let base := add / st * st
        let total := (List.range n).foldl (fun t k => t + d.fget f (base + 8 * k)) 0
        if total = 0 then 0 else 64 * v / total
      | none => v

/-- The register is of a resource the other half owns. -/
def Dev.otherHalfReg (d : Dev) (s : Scope) (off : Nat) : Bool :=
  d.split && ((match regHalf off with
    | some h => !scopeHas s h
    | none => false) ||
    (decide (0x9000300 ≤ off) && decide (off < 0x9000340) && !scopeHas s (decide (0x9000320 ≤ off))))

/-- The word a session or BAR reads at a register-space offset: coarsened for a tenant (R421). -/
def Dev.readFor (d : Dev) (w : Who) (off : Nat) : Nat :=
  match regAt off with
  | none => 0
  | some (r, add) =>
    match w with
    | .tenant s =>
      if d.otherHalfReg s off then 0
      else r.fields.foldl (fun n f => n + d.coarse s f add (d.fieldFor w f add) % 2 ^ f.w * 2 ^ f.lo) 0
    | _ => r.fields.foldl (fun n f => n + d.fieldFor w f add % 2 ^ f.w * 2 ^ f.lo) 0

end Sys2Proof.Machine
end

