-- ==== Sys2Proof/Machine/Bars.lean ====
section
/-! DEFINITION. What a host reads through BAR0 and BAR4 of the feed port (R5, R405, R488, R489, Table 20-2). -/

namespace Sys2Proof.Machine

/-- The endpoint reads as the tenant of FED_CTRL.SCOPE (R488). -/
def Dev.feedReader (d : Dev) : Who := .tenant d.feedScope

/-- The bytes a slot of the BAR4 ledger view shows: the entry as the reader sees it (R405), or zeros. -/
def Dev.slotBytes (d : Dev) (l : Ledger) (e : Option Entry) : List Byte :=
  match e with
  | some e => (l.view (d.readerTag d.feedReader) e).bytes
  | none => List.replicate 64 0#8

/-- Slot `i` of the recent area: the entry of SEQ s with s mod 1,024 = i, while s is among the 1,024 most recent (R489). -/
def Ledger.recentSlot (l : Ledger) (i : Nat) : Option Entry :=
  (l.mirror.find? fun p => p.1 % 1024 == i && decide (l.head < p.1 + 1024)).map (·.2)

/-- Slot `i` of the held area: the entries not ended and older than the 1,024 most recent, in ascending SEQ (R489). -/
def Ledger.heldSlot (l : Ledger) (i : Nat) : Option Entry :=
  ((l.mirror.filter fun p => !p.2.ended && decide (p.1 + 1024 ≤ l.head))[i]?).map (·.2)

/-- The 64 bytes at a slot of BAR4's ledger areas (Table 20-2). -/
def Dev.bar4Slot (d : Dev) (off : Nat) : List Byte :=
  let l := d.led (d.readerHalf d.feedReader)
  if 0x10000 ≤ off && off < 0x20000 then d.slotBytes l (l.recentSlot ((off - 0x10000) / 64))
  else if 0x20000 ≤ off && off < 0x28000 then d.slotBytes l (l.heldSlot ((off - 0x20000) / 64))
  else List.replicate 64 0#8

/-- The register-space offset that a BAR0 byte names: the low 48 MiB, or the aperture (Table 20-2). -/
def Dev.bar0Off (d : Dev) (off : Nat) : Nat :=
  if off < 0x3000000 then off else d.fget F.FED_APERTURE_PAGE * 0x1000000 + (off - 0x3000000)

/-- A read of `n` bytes through BAR0: a register, or ones in every byte, counted, where the access is narrow or misaligned (R5). -/
def Dev.bar0Read (d : Dev) (off n : Nat) : Nat × Dev :=
  if n = 8 && off % 8 = 0 then (d.readFor d.feedReader (d.bar0Off off), d)
  else (2 ^ (8 * n) - 1, d.accessError)

/-- A 64-bit read through BAR4: CMD_RESP and CMD_RESP_SEQ, and the ledger areas (Table 20-2). -/
def Dev.bar4Read (d : Dev) (off : Nat) : Nat :=
  if off = 0x40 then d.readFor d.feedReader 0x200020
  else if off = 0x48 then d.readFor d.feedReader 0x200028
  else leAt (d.bar4Slot (off / 64 * 64)) (off % 64) 8

end Sys2Proof.Machine
end

