-- ==== Sys2Proof/Machine/Strongbox.lean ====
section
/-! DEFINITION. The strongbox: writing records, recycling sectors, the scan at start (R423–R427). -/

namespace Sys2Proof.Machine

/-- The next free slot is taken by a record; the last of a sector starts the erase of the next (R425). -/
def Dev.sbProgram (d : Dev) (r : SbRec) : Dev :=
  let seq := d.fget F.MBX_SB_HEAD_SEQ + 1
  let n := d.mg.sbNext
  let next := (n + 1) % 262144
  let d := { d with mg := { d.mg with sb := fmSet d.mg.sb n (.valid { r with seq := seq }), sbNext := next } }
  let d := d.fset F.MBX_SB_HEAD_SEQ seq
  if next % 256 = 0 then d.fset F.MBX_SB_STATUS_ERASING 1 else d

/-- The record that tells how many were dropped. -/
def Dev.droppedRec (d : Dev) : SbRec :=
  { type := 0x00F0, sev := 1, seq := 0, tally := d.now, boot := d.fget F.MBX_STATUS_BOOT
    fabricId := if d.flag F.DEV_FABRIC_VALID then d.fget F.DEV_FABRIC_ID else 0xFFFF
    state := d.half false, body := [d.mg.sbDropped] }

/-- STRONGBOX_WRITE: the oldest queued record is programmed, behind a Dropped record where one is due; none while a sector is
being erased. -/
def Dev.strongboxWrite (d : Dev) : Dev :=
  if !d.uhlea || d.flag F.MBX_SB_STATUS_ERASING then d
  else if d.mg.sbDropped ≠ 0 then ({ d with mg := { d.mg with sbDropped := 0 } } : Dev).sbProgram d.droppedRec
  else
    match d.mg.sbQueue with
    | [] => d
    | r :: rs => ({ d with mg := { d.mg with sbQueue := rs } } : Dev).sbProgram r

/-- SECTOR_ERASE_DONE: the sector to be written next is free. -/
def Dev.sectorEraseDone (d : Dev) : Dev :=
  if !d.flag F.MBX_SB_STATUS_ERASING then d else
  let lo := d.mg.sbNext / 256 * 256
  { d.fset F.MBX_SB_STATUS_ERASING 0 with mg := { d.mg with sb := fmEraseRange d.mg.sb lo (lo + 256) } }

/-- The valid records in SEQ order. -/
def Dev.sbRecords (d : Dev) : List SbRec :=
  (d.mg.sb.filterMap fun p => match p.2 with
    | .valid r => some r
    | .torn => none).mergeSort fun a b => a.seq ≤ b.seq

/-- The record being written when power fails is torn (R426). -/
def Dev.sbTear (d : Dev) : Dev :=
  let n := d.mg.sbNext
  { d with mg := { d.mg with sb := fmSet d.mg.sb n .torn, sbNext := (n + 1) % 262144 } }

/-- At each start Uhlea finds the newest valid record and counts the torn slots; an erase that was cut off is done again
(R425, R426). -/
def Dev.sbScan (d : Dev) : Dev :=
  let d := d.fset F.MBX_SB_HEAD_SEQ ((d.sbRecords.map (·.seq)).foldl max 0)
  let d := d.mg.sb.foldl (fun d p => if p.2 == .torn then d.mbxEvent E.MBX_SB_TORN else d) d
  if d.mg.sbNext % 256 = 0 && (fmGet d.mg.sb d.mg.sbNext).isSome then d.fset F.MBX_SB_STATUS_ERASING 1 else d

/-- A record's values as a message body. -/
def SbRec.vals (r : SbRec) : List Nat := [r.type, r.sev, r.seq, r.tally, r.boot, r.fabricId, r.state] ++ r.body

end Sys2Proof.Machine
end

