-- ==== Sys2Proof/Machine/Session.lean ====
section
/-! DEFINITION. Management sessions and their messages (R416–R422, R427, R432). -/

namespace Sys2Proof.Machine

/-! ## Opening and closing (R417, R432, R438) -/

/-- Ticks in 60 s. -/
def ticks60 : Nat := 58593750

/-- A refused session: the events and the Access record (Table 17-8: 0 session refused). -/
def Dev.sessionRefused (d : Dev) : Dev := (((d.event E.SEC_AUTH_FAIL).mbxEvent E.MBX_SESSION_FAIL).sbLog 0x0080 1 [0])

/-- A handshake from an address fails; the eighth within 60 s makes the device refuse the address. -/
def Dev.handshakeFails (d : Dev) (addr : Nat) : Dev :=
  let ts := (((fmGet d.sec.addrFails addr).getD []).filter fun t => decide (d.now < t + ticks60)) ++ [d.now]
  let d := d.sessionRefused
  if 8 ≤ ts.length then
    { d with sec := { d.sec with addrFails := fmErase d.sec.addrFails addr, addrRefused := d.sec.addrRefused ++ [addr] } }
  else { d with sec := { d.sec with addrFails := fmSet d.sec.addrFails addr ts } }

/-- The role is one the device grants: an operator of a claimed device, a tenant of an OWNED scope with its root, a claim while
unclaimed (Table 18-2). -/
def Dev.grantsRole (d : Dev) (w : Who) : Bool :=
  match w with
  | .operator => d.flag F.SEC_STATUS_CLAIMED
  | .claim => !d.flag F.SEC_STATUS_CLAIMED
  | .tenant s => (d.scopeTag s).isSome && (s == .whole) == !d.split
  | _ => false

/-- A tenant's role. -/
def isTenant : Who → Bool
  | .tenant _ => true
  | _ => false

/-- The role's limit of sessions is reached: 4 of the operator, 12 of tenants. -/
def Dev.sessionsFull (d : Dev) (w : Who) : Bool :=
  let n := (d.mg.sessions.filter fun p => isTenant p.2.role == isTenant w).length
  decide ((if isTenant w then 12 else 4) ≤ n)

/-- SESSION_OPEN from a network address with the role the client chain gives (`none`: the handshake fails or no role fits, a
revoked serial included). -/
def Dev.sessionOpen (d : Dev) (addr : Nat) (role : Option Who) : Dev :=
  if !d.uhlea || !d.flag F.MBX_STATUS_PORT_UP || d.sec.addrRefused.contains addr then d else
  match role with
  | none => d.handshakeFails addr
  | some w =>
    if !d.grantsRole w then d.handshakeFails addr
    else if d.sessionsFull w then (d.mbxEvent E.MBX_SESSION_FAIL).emit (.mgmt 255 0x0B 1 0 [stNoResource, 0])
    else
      let id := ((List.range 16).find? fun k => (fmGet d.mg.sessions k).isNone).getD 15
      { d with mg := { d.mg with sessions := fmSet d.mg.sessions id ⟨w, 1, 1, 0⟩ } }

/-- ADDRESS_REFUSAL_EXPIRED. -/
def Dev.addrAgain (d : Dev) (addr : Nat) : Dev :=
  { d with sec := { d.sec with addrRefused := d.sec.addrRefused.filter (· != addr) } }

/-- The trace stops while profiling is locked (R422). -/
def Dev.traceLocked (d : Dev) : Dev := if d.profOpen then d else d.fset F.MBX_TRACE_CTRL_ENABLE 0

/-- The unlocks that meet `p` end, with an Access record (2: locked). -/
def Dev.endUnlocks (d : Dev) (p : Option Nat → Bool) : Dev :=
  let prof := d.flag F.SEC_STATUS_PROF_UNLOCKED && p d.sec.profBy
  let dbg := d.flag F.SEC_STATUS_DEBUG_UNLOCKED && p d.sec.debugBy
  let d := if prof then { d.fset F.SEC_STATUS_PROF_UNLOCKED 0 with sec := { d.sec with profBy := none } } else d
  let d := if dbg then { d.fset F.SEC_STATUS_DEBUG_UNLOCKED 0 with sec := { d.sec with debugBy := none } } else d
  (if prof || dbg then d.sbLog 0x0080 0 [2] else d).traceLocked

/-- A session is gone, and with it the unlocks it opened. -/
def Dev.sessionClose (d : Dev) (id : Nat) : Dev :=
  if (fmGet d.mg.sessions id).isNone then d
  else ({ d with mg := { d.mg with sessions := fmErase d.mg.sessions id } }).endUnlocks (· == some id)

/-- The sessions of some roles close. -/
def Dev.closeRoles (d : Dev) (p : Who → Bool) : Dev :=
  (d.mg.sessions.filter fun x => p x.2.role).foldl (fun d x => d.sessionClose x.1) d

/-! ## Messages (R418, R419) -/

/-- A message is refused with ERROR: the status code and the SEQ of the message (Table 17-5). -/
def Dev.msgError (d : Dev) (id : Nat) (m : MsgHdr) (st : Nat) : Dev :=
  (d.mbxEvent E.MBX_SESSION_FAIL).sendMsg id 0x0B m.tag.toNat [st, m.seq.toNat]

/-- The checks of R419 in order; `roleOk`: the TYPE is open to the role; `countOk`: a count keeps its limit. -/
def Dev.message (d : Dev) (id : Nat) (m : MsgHdr) (roleOk : Who → Bool) (countOk : Bool) (k : Dev → Session → Dev) : Dev :=
  if !d.uhlea then d else
  match fmGet d.mg.sessions id with
  | none => d
  | some s =>
    if !m.good || m.seq.toNat != s.seqIn then (d.mbxEvent E.MBX_SESSION_FAIL).sessionClose id
    else
      let d := { d with mg := { d.mg with sessions := fmSet d.mg.sessions id { s with seqIn := s.seqIn + 1 } } }
      if 65504 < m.len then d.msgError id m stLenRange
      else if m.rsv then d.msgError id m stBadFormat
      else if !roleOk s.role then d.msgError id m stAuthFailed
      else if !countOk then d.msgError id m stCountRange
      else k d { s with seqIn := s.seqIn + 1 }

/-- Operator and tenant. -/
def bothRoles : Who → Bool
  | .operator | .tenant _ => true
  | _ => false

/-- Operator, tenant and claim: a claim session may read, and write SEC_STAGE (Table 18-2). -/
def anyRole : Who → Bool
  | .operator | .tenant _ | .claim => true
  | _ => false

/-- The operator only. -/
def operatorRole : Who → Bool
  | .operator => true
  | _ => false

/-- The register-space offset a register address names, if it lies in register space (Table 9-1). -/
def regOffset (a : Nat) : Option Nat := match place a with
  | .reg o => some o
  | _ => none

/-- COMMAND_SUBMIT: a COMMAND message of a session, whose role makes it source 0 or 1 (Table 17-5), a write of CMD_SUB7, or a relayed
descriptor. -/
def Dev.submission (d : Dev) (src id : Nat) (m : MsgHdr) (desc : Row) : Dev :=
  if 2 ≤ src then d.commandSubmit src desc
  else if (d.submitter src id).isNone then d
  else d.message id m anyRole true fun d _ =>
    match d.submitter src id with
    | some u => d.enqueue ⟨u, id, m.tag.toNat, desc⟩
    | none => d

/-- REG_READ: the values; a misaligned address reads as ones and is counted (R5). -/
def Dev.regRead (d : Dev) (id : Nat) (m : MsgHdr) (as : List Nat) : Dev :=
  d.message id m anyRole (decide (1 ≤ as.length) && decide (as.length ≤ 64)) fun d s =>
    let vs := as.map fun a => match regOffset a with
      | some o => if o % 8 = 0 then d.readFor s.role o else 2 ^ 64 - 1
      | none => 0
    let d := as.foldl (fun d a => if (regOffset a).any (· % 8 != 0) then d.accessError else d) d
    d.sendMsg id 0x02 m.tag.toNat vs

/-- A session's write of one register: its status. -/
def Dev.sessionWrite (d : Dev) (w : Who) (a v : Nat) : Nat × Dev :=
  match regOffset a with
  | none => (stOk, d)
  | some o =>
    if o % 8 ≠ 0 then (stAlign, d.accessError)
    else if !d.mayWrite w o then (stAuthFailed, d)
    else (stOk, d.plainWrite o v 0 (d.bank w o))

/-- REG_WRITE: one status per pair; the pairs take effect in order. -/
def Dev.regWrite (d : Dev) (id : Nat) (m : MsgHdr) (ps : List (Nat × Nat)) : Dev :=
  d.message id m anyRole (decide (1 ≤ ps.length) && decide (ps.length ≤ 64)) fun d s =>
    let r := ps.foldl (fun (r : List Nat × Dev) p =>
      let x := r.2.sessionWrite s.role p.1 p.2
      (r.1 ++ [x.1], x.2)) ([], d)
    r.2.sendMsg id 0x02 m.tag.toNat r.1

/-- LEDGER_READ: the snapshots of `n` sequence numbers from `first` on, as the reader may see them (R405). -/
def Dev.ledgerRead (d : Dev) (id : Nat) (m : MsgHdr) (first n : Nat) : Dev :=
  d.message id m bothRoles (decide (n ≤ 256)) fun d s =>
    let l := d.led (d.readerHalf s.role)
    let es := (List.range n).filterMap fun k => l.snapshot (first + k)
    d.sendMsg id 0x02 m.tag.toNat (es.map fun e => leNat (l.view (d.readerTag s.role) e).bytes)

/-- TELEMETRY: a subscription; a shorter period than the role's minimum is raised to it (R420). -/
def Dev.telemetry (d : Dev) (id : Nat) (m : MsgHdr) (period : Nat) : Dev :=
  d.message id m bothRoles true fun d s =>
    let p := max (if isTenant s.role then 100 else 1) period
    ({ d with mg := { d.mg with sessions := fmSet d.mg.sessions id { s with period := p } } }).sendMsg id 0x02 m.tag.toNat [stOk]

/-- The registers a telemetry report shows: power, temperature, the sensors, taps and rails. -/
def telemetryOffs : List Nat :=
  [0xA000040, 0xA000048] ++ (List.range 64).map (fun k => 0xA000100 + 8 * k) ++ (List.range 16).map (fun k => 0xA000300 + 8 * k) ++
    (List.range 16).map fun k => 0xA000380 + 8 * k

/-- TELEMETRY_REPORT: the period of a session has passed: a report with the tally count, the readings as the role sees them, and
for the operator the readings of the sensor bus (R414, R420, R421). -/
def Dev.telemetryReport (d : Dev) (id : Nat) : Dev :=
  match fmGet d.mg.sessions id with
  | none => d
  | some s =>
    if s.period = 0 || !d.uhlea then d
    else d.sendMsg id 0x06 0 ([d.now] ++ telemetryOffs.map (d.readFor s.role) ++ if isTenant s.role then [] else d.mg.i3c.map (·.2))

/-- STRONGBOX_READ: valid records in SEQ order from the first asked for, or from the oldest held (R427). -/
def Dev.strongboxRead (d : Dev) (id : Nat) (m : MsgHdr) (first n : Nat) : Dev :=
  d.message id m operatorRole (decide (n ≤ 255)) fun d _ =>
    d.sendMsg id 0x02 m.tag.toNat (((d.sbRecords.filter fun r => first ≤ r.seq).take n).flatMap SbRec.vals)

/-- TRACE_READ: records of the ring from an index on, to an operator with profiling unlocked (R422). -/
def Dev.traceRead (d : Dev) (id : Nat) (m : MsgHdr) (first n : Nat) : Dev :=
  d.message id m (fun w => operatorRole w && d.profOpen) true fun d _ =>
    d.sendMsg id 0x02 m.tag.toNat (((d.mg.trace.drop first).take n).flatMap fun r => [r.kind, r.count, r.phase] ++ r.vals)

end Sys2Proof.Machine
end

