-- ==== Sys2Proof/Machine/Security.lean ====
section
/-! DEFINITION. Licences, provisioning, unlocks, tenancy, quotes, bound weight bundles (R430–R450). -/

namespace Sys2Proof.Machine

/-- The first `n` bytes of the staging buffer (R433). -/
def Dev.stageBytes (d : Dev) (n : Nat) : List Byte :=
  ((List.range ((n + 7) / 8)).flatMap fun k => leBytes 8 (d.fget F.SEC_STAGE_DATA (8 * k))).take n

/-- Every byte of `[lo, hi]` of a blob is zero. -/
def zeroBytes (b : List Byte) (lo hi : Nat) : Bool := (bytesAt b lo (hi + 1 - lo)).all (· == 0#8)

/-- The LICENCE command of a KIND comes to its start; `k` carries it out. -/
def Dev.beginLicence (d : Dev) (h : HalfId) (seq kind : Nat) (k : Dev → Entry → Dev) : Dev :=
  match d.entry h seq with
  | none => d
  | some e => if e.opcode = 0x16 && e.arg 24 1 = kind then d.begin h seq 0x16 k else d

/-- A licence or blob is refused (R441). -/
def Dev.licenceRefused (d : Dev) (h : HalfId) (seq st : Nat) : Dev :=
  ((d.event E.SEC_LICENCE_REFUSED).sbLog 0x0071 1 [st]).finish h seq st

/-! ## Licences (R440–R442) -/

/-- The first failure of the checks of R441; `sigOk`: the signature verifies. -/
def Dev.licenceCheck (d : Dev) (b : List Byte) (len : Nat) (sigOk : Bool) : Option Nat :=
  let f := leAt b 5 1
  firstFail [
    failIf (len != 160) stLenRange,
    failIf (leAt b 0 4 != 0x43494C4B || leAt b 4 1 != 1 || 5 ≤ f || 2 ≤ leAt b 6 1 || !zeroBytes b 7 7 || !zeroBytes b 20 63)
      stBadFormat,
    failIf (leAt b 8 8 != d.sec.serial || !sigOk) stAuthFailed,
    failIf ((fmGet d.sec.licSeq f).any fun n => decide (leAt b 16 4 ≤ n)) stWrongState,
    failIf (decide (32 ≤ d.sec.licences.length)) stNoResource]

/-- LICENCE_INSTALL (R441). -/
def Dev.licenceInstall (d : Dev) (h : HalfId) (seq : Nat) (sigOk : Bool) : Dev :=
  d.beginLicence h seq 0 fun d e =>
    let len := e.arg 28 4
    let b := d.stageBytes len
    match d.licenceCheck b len sigOk with
    | some st => d.licenceRefused h seq st
    | none =>
      let f := leAt b 5 1
      let l : Licence := ⟨f, leAt b 6 1, leAt b 16 4, b⟩
      let d := { d with sec := { d.sec with licences := d.sec.licences ++ [l], licSeq := fmSet d.sec.licSeq f l.seq } }
      let fs := d.fget F.SEC_LIC_FEATURES
      let d := d.fset F.SEC_LIC_FEATURES (if bit fs f == (l.action == 0) then fs else if l.action = 0 then fs + 2 ^ f else fs - 2 ^ f)
      let d := d.fset F.SEC_LIC_COUNT d.sec.licences.length
      (d.sbLog 0x0071 0 [stOk]).finish h seq stOk

/-! ## Provisioning (R430, R431) -/

/-- The first failure of a blob's checks, in the order of R441: length, format, the certificates' lengths and the count of revoked
serials (R15), serial and signature, generation. SIGNER 0 is accepted only while the device is unclaimed, SIGNER 1 only once it is claimed. -/
def Dev.blobCheck (d : Dev) (b : List Byte) (len : Nat) (sigOk : Bool) : Option Nat :=
  let m := leAt b 208 2
  let f := leAt b 210 2
  let r := leAt b 212 2
  firstFail [
    failIf (len != 256 + m + f + 8 * r + 96) stLenRange,
    failIf (leAt b 0 4 != 0x56504B5A || leAt b 4 1 != 1 || 2 ≤ leAt b 5 1 || !zeroBytes b 6 7 || !zeroBytes b 121 127 ||
      !zeroBytes b 214 255) stBadFormat,
    failIf (m == 0 || decide (4096 < m) || f == 0 || decide (4096 < f)) stLenRange,
    failIf (decide (1024 < r)) stCountRange,
    failIf (leAt b 8 8 != d.sec.serial || !sigOk || (leAt b 5 1 == 1) != d.flag F.SEC_STATUS_CLAIMED) stAuthFailed,
    failIf (decide (leAt b 16 8 ≤ d.sec.gen)) stWrongState]

/-- PROVISION (R431). -/
def Dev.provision (d : Dev) (h : HalfId) (seq : Nat) (sigOk : Bool) : Dev :=
  d.beginLicence h seq 1 fun d e =>
    let len := e.arg 28 4
    let b := d.stageBytes len
    match d.blobCheck b len sigOk with
    | some st => d.licenceRefused h seq st
    | none =>
      let m := leAt b 208 2
      let f := leAt b 210 2
      let d := { d with sec := { d.sec with
        mgmtRoot := bytesAt b 256 m, fabricRoot := bytesAt b (256 + m) f, debugKey := bytesAt b 24 97
        pwSalt := bytesAt b 128 32, pwHash := bytesAt b 160 48, gen := leAt b 16 8
        revoked := (List.range (leAt b 212 2)).map fun i => leAt b (256 + m + f + 8 * i) 8 } }
      let d := (d.fset F.SEC_STATUS_CLAIMED 1).closeRoles operatorRole
      ((d.endUnlocks fun _ => true).sbLog 0x0080 0 [3]).finish h seq stOk

/-! ## Unlocks (R435–R438) -/

/-- HMAC-SHA-384 with a key of at most 128 bytes. -/
def hmac384 (k m : List Byte) : List Byte :=
  let k := k ++ List.replicate (128 - k.length) 0#8
  sha384 (k.map (· ^^^ 0x5C#8) ++ sha384 (k.map (· ^^^ 0x36#8) ++ m))

/-- The further rounds of PBKDF2: the last value, the sum so far. -/
def pbkdf2Rounds (pw : List Byte) : Nat → List Byte → List Byte → List Byte
  | 0, _, t => t
  | n + 1, u, t =>
    let u := hmac384 pw u
    pbkdf2Rounds pw n u (xorBytes t u)

/-- PBKDF2-HMAC-SHA-384, 10,000 iterations, 48 bytes (Table 18-1). -/
def pbkdf2 (pw salt : List Byte) : List Byte :=
  let u := hmac384 pw (salt ++ [0#8, 0#8, 0#8, 1#8])
  pbkdf2Rounds pw 9999 u u

/-- The session is an operator's. -/
def Dev.operatorSession (d : Dev) (id : Nat) : Bool := (fmGet d.mg.sessions id).any fun x => operatorRole x.role

/-- The lockout wait after a number of failures in a row (R437). -/
def lockout (fails : Nat) : Nat := if fails < 5 then 0 else min 3600 (60 * 2 ^ min 6 (fails - 5))

/-- An attempt is decided: SEC_PW and SEC_SIG are cleared, the status is shown, the event is set and recorded; a failure counts
and may start a wait, unless it fell in one. -/
def Dev.attemptEnds (d : Dev) (st : Nat) : Dev :=
  let d := (List.range 8).foldl (fun d k => d.fset F.SEC_PW_PW 0 (8 * k)) d
  let d := (List.range 12).foldl (fun d k => d.fset F.SEC_SIG_SIG 0 (8 * k)) d
  let d := d.fset F.SEC_UNLOCK_STATUS_LAST_STATUS st
  if st = stOk then
    (({ d.fset F.SEC_UNLOCK_STATUS_FAILS 0 with sec := { d.sec with wait := 0 } }).event E.SEC_UNLOCK).sbLog 0x0080 0 [1]
  else
    let d := (d.event E.SEC_UNLOCK_FAIL).sbLog 0x0080 1 [4]
    if d.sec.wait ≠ 0 then d else
    let d := d.count F.SEC_UNLOCK_STATUS_FAILS
    { d with sec := { d.sec with wait := lockout (d.fget F.SEC_UNLOCK_STATUS_FAILS), waitAt := d.now } }

/-- A request written together with LOCK: LOCK wins, and the request fails; with which of the failure codes of Table 16-5 is not
stated (R438). The device returns no other code (R16). -/
def Dev.lockedOut (d : Dev) : Dev :=
  let f := (d.endUnlocks fun _ => true).fresh 8
  f.2.attemptEnds (1 + f.1 % 0x1A)

/-- PROF_REQ by a session; `lock`: LOCK is written in the same cycle. -/
def Dev.profReq (d : Dev) (id : Nat) (lock : Bool) : Dev :=
  if !d.operatorSession id then d
  else if lock then d.lockedOut
  else if d.sec.wait ≠ 0 then d.attemptEnds stBusy
  else
    let pw := (List.range 8).flatMap fun k => leBytes 8 (d.fget F.SEC_PW_PW (8 * k))
    if pbkdf2 pw d.sec.pwSalt == d.sec.pwHash then
      ({ d.fset F.SEC_STATUS_PROF_UNLOCKED 1 with sec := { d.sec with profBy := some id } }).attemptEnds stOk
    else d.attemptEnds stAuthFailed

/-- DEBUG_REQ by a session; `sigOk`: SEC_SIG verifies under the debug key over the nonce and the serial. -/
def Dev.debugReq (d : Dev) (id : Nat) (lock sigOk : Bool) : Dev :=
  if !d.operatorSession id then d else
  let valid := d.flag F.SEC_UNLOCK_STATUS_NONCE_VALID
  let d := d.fset F.SEC_UNLOCK_STATUS_NONCE_VALID 0
  if lock then d.lockedOut
  else if d.sec.wait ≠ 0 then d.attemptEnds stBusy
  else if [false, true].any fun h => d.scopeState h != 0 then d.attemptEnds stWrongState
  else if valid && sigOk then
    ({ d.fset F.SEC_STATUS_DEBUG_UNLOCKED 1 with sec := { d.sec with debugBy := some id } }).attemptEnds stOk
  else d.attemptEnds stAuthFailed

/-- NONCE_REQ by a session: a fresh 32-byte nonce. -/
def Dev.nonceReq (d : Dev) (id : Nat) : Dev :=
  if !d.operatorSession id then d else
  let f := d.fresh 256
  let d := (List.range 4).foldl (fun d k => d.fset F.SEC_NONCE_NONCE (bits f.1 (64 * k) 64) (8 * k)) f.2
  d.fset F.SEC_UNLOCK_STATUS_NONCE_VALID 1

/-- NONCE_EXPIRED: 60 s have passed. -/
def Dev.nonceExpired (d : Dev) : Dev := d.fset F.SEC_UNLOCK_STATUS_NONCE_VALID 0

/-- LOCK by a session. -/
def Dev.lockCmd (d : Dev) (id : Nat) : Dev := if d.operatorSession id then d.endUnlocks fun _ => true else d

/-- UNLOCK_WAIT_EXPIRED. -/
def Dev.unlockWaitExpired (d : Dev) : Dev := { d with sec := { d.sec with wait := 0 } }

/-! ## Tenancy (R443–R445) -/

/-- A half takes a scope state and a tag. -/
def Dev.setTenant (d : Dev) (h : HalfId) (st tag : Nat) : Dev :=
  (d.fset (if h then F.SEC_STATUS_SCOPE_E else F.SEC_STATUS_SCOPE_W) st).fset (if h then F.SEC_STATUS_TAG_E else F.SEC_STATUS_TAG_W) tag

/-- The halves of a scope take a scope state, a tag and a tenant root. -/
def Dev.setOwner (d : Dev) (s : Scope) (st tag : Nat) (root : List Byte) : Dev :=
  let d := (scopeHalves s).foldl (fun d h => d.setTenant h st tag) d
  { d with sec := { d.sec with
      tenantRootW := if scopeHas s false then root else d.sec.tenantRootW
      tenantRootE := if scopeHas s true then root else d.sec.tenantRootE } }

/-- The device returns to whole-device tenancy only when both halves are FREE_CLEAN (R445). -/
def Dev.joinHalves (d : Dev) : Dev :=
  if d.scopeState false = 0 && d.scopeState true = 0 then d.fset F.SEC_STATUS_SPLIT 0 else d

/-- The TENANT command of an ACTION comes to its start; `k` carries it out. -/
def Dev.beginTenant (d : Dev) (h : HalfId) (seq action : Nat) (k : Dev → Entry → Dev) : Dev :=
  match d.entry h seq with
  | none => d
  | some e => if e.opcode = 0x11 && e.arg 24 1 = action then d.begin h seq 0x11 k else d

/-- What keeps a scope from being assigned (Table 18-5, R445). -/
def Dev.assignCheck (d : Dev) (s : Scope) (tag : Nat) : Option Nat :=
  let other := match s with
    | .west => true
    | _ => false
  let o := d.scopeState other
  firstFail [
    failIf ((scopeHalves s).any fun h => d.scopeState h != 0) stWrongState,
    failIf (s != .whole && !(o == 0 || (o == 1 && d.split))) stWrongState,
    failIf (d.flag F.SEC_STATUS_DEBUG_UNLOCKED) stWrongState,
    failIf (s != .whole && o == 1 && d.tagOf other == tag) stTenantMismatch]

/-- TENANT_ASSIGN. The entry ends in the ledger it stands in, before the tenancy changes. -/
def Dev.tenantAssign (d : Dev) (h : HalfId) (seq : Nat) : Dev :=
  d.beginTenant h seq 0 fun d e =>
    let s := scopeOf (e.arg 25 1)
    let tag := e.arg 26 2
    match d.assignCheck s tag with
    | some st => d.finish h seq st
    | none =>
      let d := (d.finish h seq stOk).setOwner s 1 tag (d.stageBytes (e.arg 28 4))
      (d.fset F.SEC_STATUS_SPLIT (if s = .whole then 0 else 1)).sbLog 0x0061 0 [e.arg 25 1, 0]

/-- TENANT_RELEASE: the scope is FREE_DIRTY, its sessions close, its root is removed. -/
def Dev.tenantRelease (d : Dev) (h : HalfId) (seq : Nat) : Dev :=
  d.beginTenant h seq 1 fun d e =>
    let s := scopeOf (e.arg 25 1)
    let owned := (scopeHalves s).all fun k => d.scopeState k == 1 && d.tagOf k == e.arg 26 2
    if !owned || (s == .whole) == d.split then d.finish h seq stWrongState
    else
      let d := (d.finish h seq stOk).closeRoles (· == .tenant s)
      (d.setOwner s 2 0 []).sbLog 0x0061 0 [e.arg 25 1, 1]

/-! ## Attestation (R449, R450) -/

/-- The image in the slot the device runs. -/
def Dev.runSlot (d : Dev) : List Byte := if d.boot.runB then d.boot.slotB else d.boot.slotA

/-- The image in the slot it does not run. -/
def Dev.otherSlot (d : Dev) : List Byte := if d.boot.runB then d.boot.slotA else d.boot.slotB

/-- The DIGEST of a component in an update image's manifest (Table 19-9). -/
def componentDigest (b : List Byte) (c : Nat) : List Byte :=
  match (List.range 5).find? fun i => leAt b (0x40 + 64 * i) 1 == c with
  | some i => bytesAt b (0x40 + 64 * i + 16) 48
  | none => List.replicate 48 0#8

/-- The image measurement of a half, zero with no image in force or in compute reset or winnow. -/
def Dev.measure (d : Dev) (h : HalfId) : List Byte :=
  if (d.image h).isNone || d.half h = 6 then List.replicate 48 0#8 else if h then d.sec.measE else d.sec.measW

/-- Block 9: the states, flags, the requester's tag, the tally count and the serial. -/
def Dev.stateBlock (d : Dev) (tag : Nat) : List Byte :=
  let b (n : Nat) (v : Bool) : Nat := if v then 2 ^ n else 0
  let flags := b 0 (d.flag F.DEV_STATE_UPDATE_STAGED) + b 1 (d.flag F.SEC_STATUS_PROF_UNLOCKED) +
    b 2 (d.flag F.SEC_STATUS_DEBUG_UNLOCKED) + b 3 d.split + b 4 (!d.flag F.SEC_STATUS_CLAIMED)
  leBytes 1 (d.half false) ++ leBytes 1 (d.half true) ++ leBytes 1 flags ++ leBytes 2 tag ++ leBytes 3 0 ++ leBytes 8 d.now ++
    leBytes 8 d.sec.serial

/-- The measurement blocks of Table 18-7 but for block 1, whose digest (the boot ROM's) is given. `west`: the requester is the
tenant of the west half. -/
def Dev.measureBlocks (d : Dev) (rom : List Byte) (tag : Nat) (west : Bool) : List (List Byte) :=
  let z := List.replicate 48 0#8
  let lics := d.sec.licences.mergeSort fun a b => a.feature ≤ b.feature
  [rom] ++ ((List.range 4).map fun c => componentDigest d.runSlot c) ++
    [d.measure false, if d.split && !west then d.measure true else z, sha384 (lics.flatMap (·.raw)), d.stateBlock tag,
     if d.flag F.DEV_STATE_UPDATE_STAGED then sha384 (d.otherSlot.take 512) else z]

/-- A signed measurements response over a nonce goes out: the boot ROM's digest is not stated. -/
def Dev.quoteOut (d : Dev) (nonce : List Byte) (tag : Nat) (west : Bool) : Dev :=
  let f := d.fresh 384
  f.2.emit (.quote nonce (f.2.measureBlocks (leBytes 48 f.1) tag west))

/-- QUOTE: the response, whose bytes and length the encoding and the signature leave open, goes to DST; its length is the
RESULT. -/
def Dev.quote (d : Dev) (h : HalfId) (seq : Nat) : Dev :=
  d.begin h seq 0x17 fun d e =>
    let d := d.quoteOut (leBytes 32 (e.arg 32 32)) e.tenant (e.source != 0 && d.split && d.tagOf false == e.tenant)
    let l := d.fresh 16
    let n := 1 + l.1 % 1024
    let b := l.2.fresh (8 * 1024)
    ((b.2.store (e.arg 24 8) (leBytes n b.1)).setResult h seq n).finish h seq stOk

/-- The tag of a session's role, 0 for the operator. -/
def Dev.roleTag (d : Dev) (w : Who) : Nat := (d.readerTag w).getD 0

/-- SPDM: a request of a supported code (0 GET_VERSION … 5 CHALLENGE, 6 GET_MEASUREMENTS with its nonce; anything else is answered
with SPDM's own error) is answered in one message, whose bytes are SPDM's. -/
def Dev.spdm (d : Dev) (id : Nat) (m : MsgHdr) (code : Nat) (nonce : List Byte) : Dev :=
  d.message id m bothRoles true fun d s =>
    let d := if code = 6 then d.quoteOut nonce (d.roleTag s.role) (s.role == .tenant .west) else d
    let f := d.fresh 64
    f.2.sendMsg id 0x08 m.tag.toNat [min code 7, f.1]

/-! ## Bound weight bundles (R446–R448) -/

/-- The scope an ingest engine serves. -/
def Dev.engineScope (d : Dev) (i : Nat) : Scope := if !d.split then .whole else if i = 0 then .west else .east

/-- The first failure of the checks of R447 on a bundle's header and entries; `hdr`: 256 bytes, `es`: the entries. -/
def bundleFormat (hdr : List Byte) (es : List (List Byte)) : Bool :=
  leAt hdr 0 4 == 0x444E4257 && leAt hdr 4 1 == 1 && zeroBytes hdr 5 7 && zeroBytes hdr 12 15 && zeroBytes hdr 60 63 &&
    zeroBytes hdr 161 255 && leAt hdr 16 8 % 4096 == 0 && es.all (fun e => zeroBytes e 48 63) &&
    (es.zip (es.drop 1)).all fun p => decide (leAt p.1 0 8 < leAt p.2 0 8)

/-- An ingest ends without having run, or in the middle (R448). -/
def Dev.bundleFails (d : Dev) (i st : Nat) : Dev :=
  let a := 0x20 * i
  let d := ((d.fset F.SEC_BND_CTRL_GO 0 a).fset F.SEC_BND_STATUS_STATE 3 a).fset F.SEC_BND_STATUS_LAST_STATUS st a
  { d with sec := { d.sec with bundles := fmErase d.sec.bundles i } }

/-- An ingest starts with the present SRC and DST (R447): `unwrapOk`: the content key's unwrap passes its integrity check; `es`: what
the code meets in the header and the entries. -/
def Dev.bundleStart (d : Dev) (i : Nat) (unwrapOk : Bool) (es : List RdErr) : Dev :=
  let a := 0x20 * i
  let src := d.fget F.SEC_BND_SRC_ADDR a
  let dst := d.fget F.SEC_BND_DST_ADDR a
  let s := d.engineScope i
  let hdr := memBytes d.mem src 256
  let n := min 65536 (leAt hdr 8 4)
  let plain := leAt hdr 16 8
  let body := src + (256 + 64 * n + 4095) / 4096 * 4096
  let d := d.fset F.SEC_BND_STATUS_INGOTS 0 a
  let bad (d : Dev) (st : Nat) : Dev := (d.event E.SEC_BUNDLE_FAIL).bundleFails i st
  if src % 4096 ≠ 0 || dst % 4096 ≠ 0 then bad d stAlign
  else if !d.tenantRange s src (body - src + plain) || !d.tenantRange s dst plain then bad d stLenRange
  else
    let r := d.readWords src (32 + 8 * n) es
    let d := r.2
    let ents := (List.range n).map fun k => memBytes d.mem (src + 256 + 64 * k) 64
    if r.1.2.1 then bad d stPoison
    else if !bundleFormat hdr ents then bad d stBadFormat
    else if leAt hdr 8 4 = 0 || 65536 < leAt hdr 8 4 then bad d stCountRange
    else
      match ents.find? fun e => leAt e 0 8 == d.sec.serial with
      | some e =>
        if !unwrapOk then bad d stAuthFailed else
        let d := (d.fset F.SEC_BND_CTRL_GO 1 a).fset F.SEC_BND_STATUS_STATE 1 a
        { d with sec := { d.sec with bundles := fmSet d.sec.bundles i ⟨body, dst, plain, e⟩ } }
      | none => bad d stAuthFailed

/-- BUNDLE_GO: a write of 1 to GO. While an ingest of the engine runs GO is set already, and the write changes nothing, unless it falls
in the cycle in which that ingest ends (`clearing`): then GO stays set and a new ingest starts (R10, R448). -/
def Dev.bundleGo (d : Dev) (i : Nat) (w : Who) (unwrapOk : Bool) (es : List RdErr) (clearing : Bool) : Dev :=
  let a := 0x20 * i
  if !d.mayWrite w (0x9000310 + a) then d
  else if d.flag F.SEC_BND_CTRL_GO a then
    if clearing then { d with sec := { d.sec with bundleAgain := fmSet d.sec.bundleAgain i (unwrapOk, es) } } else d
  else d.bundleStart i unwrapOk es

/-- After an ingest's end, the one whose GO was written in that cycle starts (R10, R448). -/
def Dev.bundleNext (d : Dev) (i : Nat) : Dev :=
  match fmGet d.sec.bundleAgain i with
  | none => d
  | some g => ({ d with sec := { d.sec with bundleAgain := fmErase d.sec.bundleAgain i } }).bundleStart i g.1 g.2

/-- BUNDLE_DONE: the plaintext as the engine decrypts it is written in ingot order; a bad tag overwrites it with zeros. -/
def Dev.bundleDone (d : Dev) (i : Nat) (tagOk : Bool) (plain : List Byte) : Dev :=
  match fmGet d.sec.bundles i with
  | none => d
  | some j =>
    let a := 0x20 * i
    let d := d.store j.dst ((plain ++ List.replicate (j.len - plain.length) 0#8).take j.len)
    let d := d.fset F.SEC_BND_STATUS_INGOTS (min (j.len / 4096) (2 ^ 32 - 1)) a
    if tagOk then
      let d := { d with sec := { d.sec with bundles := fmErase d.sec.bundles i } }
      (((d.fset F.SEC_BND_CTRL_GO 0 a).fset F.SEC_BND_STATUS_STATE 2 a).fset F.SEC_BND_STATUS_LAST_STATUS stOk a).bundleNext i
    else (((d.store j.dst (List.replicate j.len 0#8)).event E.SEC_BUNDLE_FAIL).bundleFails i stDigestMismatch).bundleNext i

/-- A reset or a winnow ends the ingests of a scope with ABANDONED (R448), and a GO written in that cycle with them. -/
def Dev.endBundles (d : Dev) (s : Scope) : Dev :=
  d.sec.bundles.foldl (fun d p =>
    if !d.split || scopeHas s (p.1 == 1) then
      ({ d with sec := { d.sec with bundleAgain := fmErase d.sec.bundleAgain p.1 } }).bundleFails p.1 stAbandoned
    else d) d

end Sys2Proof.Machine
end

