-- ==== Sys2Proof/Machine/Refresh.lean ====
section
/-! DEFINITION. The preconditioner refresh: the inverse root of a layer block in split-BF16 arithmetic (R81, R309, R310). -/

namespace Sys2Proof.Machine

/-! ## Elementwise FP32 arithmetic -/

/-- a × b rounded to nearest even. -/
def mulF32 (a b : Nat) : Nat := fp32.rne ((fp32.val a).mul (fp32.val b))

/-- −a. -/
def negF32 (a : Nat) : Nat := a ^^^ 2 ^ 31

/-- a / b rounded to nearest even: the quotient's leading bits and one bit for a remainder. -/
def divF32 (a b : Nat) : Nat :=
  match fp32.val a, fp32.val b with
  | .nan, _ | _, .nan | .inf _, .inf _ => fp32.nan
  | .inf s, .fin t _ _ => fp32.infinity (s != t)
  | .fin s _ _, .inf t => fp32.rne (.fin (s != t) 0 0)
  | .fin s m e, .fin t n f =>
    if n = 0 then (if m = 0 then fp32.nan else fp32.infinity (s != t))
    else
      let k := 64 + topBit n
      let q := m * 2 ^ k / n
      fp32.rne (.fin (s != t) (2 * q + if m * 2 ^ k % n = 0 then 0 else 1) (e - f - k - 1))

/-- A small whole number in FP32. -/
def natF32 (n : Nat) : Nat := fp32.rne (.fin false n 0)

/-- Sums of neighbours, level by level, until one is left (R203). -/
def pairSum : Nat → List Nat → Nat
  | 0, xs => xs.headD 0
  | n + 1, xs =>
    match xs with
    | [] => 0
    | [x] => x
    | _ => pairSum n ((List.range ((xs.length + 1) / 2)).map fun k =>
        match xs[2 * k + 1]? with
        | some y => addF32 ((xs[2 * k]?).getD 0) y
        | none => (xs[2 * k]?).getD 0)

/-! ## Matrices, as lists of rows -/

/-- An FP32 matrix. -/
abbrev Mat := List (List Nat)

/-- An element. -/
def Mat.at_ (a : Mat) (i j : Nat) : Nat := (((a[i]?).getD [])[j]?).getD 0

/-- The matrix of n rows and columns with the elements f gives. -/
def matOf (n : Nat) (f : Nat → Nat → Nat) : Mat := (List.range n).map fun i => (List.range n).map fun j => f i j

/-- The sum of products of a row and a column in the six-term split, one pass for each term into one accumulator, the smallest terms
first (R81, Table 3-8). DEDUCED: of terms of one size, the later one of the table comes first, and a pass goes through the blocks of 64 in
ascending order. -/
def dotSplit (r c : List (Nat × Nat × Nat)) : Nat :=
  let hi (x : Nat × Nat × Nat) : Nat := x.1
  let mid (x : Nat × Nat × Nat) : Nat := x.2.1
  let lo (x : Nat × Nat × Nat) : Nat := x.2.2
  let pass (f g : Nat × Nat × Nat → Nat) : Nat :=
    chainSum (r.length + 1) none ((r.zip c).map fun p => (bf16.val (f p.1)).mul (bf16.val (g p.2)))
  [pass lo hi, pass hi lo, pass mid hi, pass hi mid, pass hi hi].foldl addF32 (pass mid mid)

/-- The product of two matrices of n rows and columns. -/
def matMul (n : Nat) (a b : Mat) : Mat :=
  let rows := a.map (·.map split32)
  let cols := (List.range n).map fun j => (List.range n).map fun i => split32 (b.at_ i j)
  rows.map fun r => cols.map fun c => dotSplit r c

/-- An element is NaN or infinite. -/
def Mat.bad (a : Mat) : Bool := a.any (·.any fun x => (fp32.val x).bad)

/-! ## The iteration (R309) -/

/-- What the refresh of a block yields: an element of x or mm was NaN or infinite, mm has not come within 2^−6 of the identity, the new P,
row-major BF16. -/
structure Root where
  nonfinite : Bool
  noconv : Bool
  prec : List Nat
  deriving DecidableEq, Repr

/-- The iteration's state: x, mm, and whether either has held a nonfinite element. -/
structure RootS where
  x : Mat
  mm : Mat
  bad : Bool
  deriving DecidableEq, Repr

/-- One iteration. -/
def RootS.next (n p : Nat) (s : RootS) : RootS :=
  let t := matOf n fun i j => divF32 (addF32 (if i = j then natF32 (p + 1) else 0) (negF32 (s.mm.at_ i j))) (natF32 p)
  let x := matMul n s.x t
  let tt := matMul n t t
  let mm := matMul n (if p = 2 then tt else matMul n tt tt) s.mm
  { x, mm, bad := s.bad || x.bad || mm.bad }

/-- n iterations. -/
def RootS.iter (n p : Nat) : Nat → RootS → RootS
  | 0, s => s
  | k + 1, s => (s.next n p).iter n p k

/-- P of a block of b rows of which n are rows of the layer, from its statistic. DEDUCED: the rows and columns beyond stay the identity's
in x and mm too; a row's sum of magnitudes is taken pairwise, as RED takes a sum. -/
def inverseRoot (b n root eps iters : Nat) (l : List Nat) : Root :=
  let one : Nat := natF32 1
  let unit (i j : Nat) : Nat := if i = j then one else 0
  let inn (i j : Nat) : Bool := decide (i < n) && decide (j < n)
  let a := matOf b fun i j => if inn i j then addF32 ((l[i * b + j]?).getD 0) (if i = j then eps else 0) else unit i j
  let sums := a.map fun r => pairSum b (r.map fun x => x % 2 ^ 31)
  let alpha := sums.foldl (fun m x => if (fp32.val m).lt (fp32.val x) then x else m) 0
  let c := exp2Op fp32 0 (divF32 (negF32 (log2Op fp32 0 alpha)) (natF32 root))
  let x := matOf b fun i j => if inn i j then mulF32 c (unit i j) else unit i j
  let mm := matOf b fun i j => if inn i j then divF32 (a.at_ i j) alpha else unit i j
  let s := RootS.iter b root iters { x, mm, bad := x.bad || mm.bad }
  let far (i j : Nat) : Bool :=
    match (fp32.val (s.mm.at_ i j)).add (fp32.val (unit i j)).neg with
    | .fin _ m e => (Val.fin false 1 (-6)).ltNum (.fin false m e)
    | _ => true
  { nonfinite := s.bad
    noconv := (List.range b).any fun i => (List.range b).any fun j => far i j
    prec := s.x.flatten.map fun v => bf16.rne (fp32.val v) }

end Sys2Proof.Machine
end

