-- ==== Sys2Proof/Machine/TrainStep.lean ====
section
/-! DEFINITION. The training step: runs, attempts, passes, gates, the seal, preemption and stops (R267–R293, R309, R310, R373, R380). -/

namespace Sys2Proof.Machine

/-! ## Helpers -/

/-- N, the step number. -/
def Dev.stepNum (d : Dev) (h : HalfId) : Nat := d.fget F.DEV_STEP_NUM_N (d.stepAdd h)

/-- The devices of the job. -/
def Dev.jobSize (d : Dev) (h : HalfId) : Nat := leAt (d.imageBytes h) 0x18 4

/-- The attempt count of the vote IDs. -/
def Dev.attemptNo (d : Dev) (h : HalfId) : Nat := d.fget F.DEV_STEP_ATTEMPTS_COUNT (d.stepAdd h)

/-- The device's coordinate on the pipeline axis and that axis's length; (0, 1) where no axis has the role (R272). -/
def Dev.pipeline (d : Dev) (h : HalfId) : Nat × Nat :=
  match d.fabricItem h with
  | none => (0, 1)
  | some b =>
    match (List.range 4).find? fun a => leAt b (8 + a) 1 == 1 with
    | none => (0, 1)
    | some a => (((coordsOf d.axes d.me)[a]?).getD 0, max 1 (leAt b (2 * a) 2))

/-- A vote's result is used up. -/
def Dev.dropResult (d : Dev) (tag id : Nat) : Dev :=
  { d with fab := { d.fab with results := d.fab.results.filter fun e => !(e.tenant.toNat == tag && e.id.toNat == id) } }

/-- A fault of Table 11-3 belongs to the controller of a half. -/
def Dev.faultHere (d : Dev) (h : HalfId) (f : Bool × Nat) : Bool := !d.split || f.1 == h

/-- The faults reported to a controller are taken. -/
def Dev.dropFaults (d : Dev) (h : HalfId) : Dev := { d with faults := d.faults.filter fun f => !d.faultHere h f }

/-- An ingot's refetch belongs to the controller of a half. -/
def Dev.refetchHere (d : Dev) (h : HalfId) (a : Nat) : Bool := !d.split || stackHalf (d.stackOf a) == h

/-- A loss report of a half's job to the master, relayed over the tally tree (R384): tag, RECOVER, the lost device, if there is one. -/
def Dev.sendLoss (d : Dev) (h : HalfId) (lost : Option Nat) : Dev :=
  d.emit (.fabric 4 ([d.tagOf h, if (survHdr (d.imageBytes h)).any shRecover then 1 else 0] ++ lost.toList))

/-! ## A run starts (R270, R303, R373, R380) -/

/-- The expected partner of a pairing: its feed as declared, the pairing's owner, tensor and ingots. -/
structure Pairing where
  id : Nat
  feed : Option Nat
  holder : Bool
  owner : Nat
  tensor : Nat
  ingots : Nat
  sheaf : Bool
  deriving DecidableEq, Repr

/-- The handshakes of R373 in item order, the sheaf's other devices last. -/
def Dev.pairings (d : Dev) (h : HalfId) : List Pairing :=
  let b := d.imageBytes h
  match survHdr b with
  | none => []
  | some s =>
    let img := (b.length + 4095) / 4096
    let me := d.me
    [⟨shImgHolder s, some (bits (shImgFeeds s) 0 4), true, me, 0xFFFF, img, false⟩,
     ⟨shImgAlt s, some (bits (shImgFeeds s) 4 4), true, me, 0xFFFF, img, false⟩] ++
    ((survItems b 1).filter tiEscrow).flatMap (fun i =>
      ⟨tiPartner i, some (bits (tiFeeds i) 0 4), true, me, tiTensor i, tiIngots i, false⟩ ::
        (if tiAltValid i then [⟨tiAlt i, some (bits (tiFeeds i) 4 4), true, me, tiTensor i, tiIngots i, false⟩] else [])) ++
    (survItems b 2).map (fun i => ⟨hiOwner i, none, true, hiOwner i, hiTensor i, hiIngots i, false⟩) ++
    ((List.range 8).filter (· != rankOf me)).map fun r => ⟨d.sheafId r, none, false, 0, 0, 0, true⟩

/-- One handshake: its failure. -/
def Dev.handshakeOne (d : Dev) (h : HalfId) (peers : List Peer) (p : Pairing) : Option Nat :=
  let s := (survHdr (d.imageBytes h)).getD []
  match peers.find? fun q => q.id.toNat == p.id && q.reached with
  | none => some stPartnerAbsent
  | some q =>
    let mine := d.fget F.DEV_STRAPS_FEED_ID
    let declared := q.pairs.any fun x => x.1 == p.owner && x.2.1 == p.tensor && x.2.2.1 == p.ingots
    firstFail [
      failIf (p.holder && (q.feed.toNat == mine || (p.feed.map (· != q.feed.toNat)).getD false)) stFeedShared,
      failIf (q.tag.toNat != d.tagOf h) stTenantMismatch,
      failIf ((p.sheaf && q.groups != shGroups s) || q.cadence != shCadence s || (!p.sheaf && !declared)) stCountRange]

/-- Some holder does not show step N: a baseline is due (R380). -/
def Dev.baselineDue (d : Dev) (h : HalfId) (peers : List Peer) : Bool :=
  let b := d.imageBytes h
  let n := d.stepNum h
  (survHdr b).isSome &&
    (((survItems b 1).filter tiEscrow).any (fun i =>
      !peers.any fun q => q.id.toNat == tiPartner i && q.pairs.any fun x => x.1 == d.me && x.2.1 == tiTensor i && x.2.2.2 == n) ||
     ((List.range 8).filter (· != rankOf d.me)).any (fun r => !peers.any fun q => q.id.toNat == d.sheafId r && q.parStep == n))

/-- The first failure of the shard headers, in layer order (R303). -/
def Dev.headersCheck (d : Dev) (h : HalfId) : Option Nat :=
  firstFail ((updLayers (d.imageBytes h)).map fun l =>
    match layerRec (d.imageBytes h) l with
    | none => none
    | some i =>
      let a := d.readCopy h i l
      if d.anyPoison a 4096 then some stPoison
      else (if d.headerRest a then some stBadFormat else d.shardCheck (d.shardAt a) (lrBytes i)))

/-- The header ingots of the current copies are read (R302, R303). -/
def Dev.readHeaders (d : Dev) (h : HalfId) (es : List (Nat × RdErr)) : Dev :=
  (updLayers (d.imageBytes h)).foldl (fun d l =>
    match layerRec (d.imageBytes h) l with
    | some i => d.rangeRead (d.readCopy h i l) 4096 es
    | none => d) d

/-- A run before its first attempt. -/
def RunS.fresh (entry start limit : Nat) : RunS :=
  { entry, start, base := 0, baseFail := none, limit, seals := 0, stop := none, preempt := none, paused := none, sa := none
    passes := [], replay := [], admitted := 0, ended := [], stopped := false, dirty := false, fail := none, firstLayer := 65535, replays := 0
    epoch := false, gate := 0, gradVoted := [], grads := [], updated := [], chosen := [], acks := 0, mirrored := [], idle0 := [], miss0 := 0, old := []
    roundVoted := none, aEntry := 0 }

/-- RUN: the shard headers, the survival handshake with `peers`, then the step loop; `es`: what the code met at the headers. -/
def Dev.run (d : Dev) (h : HalfId) (seq : Nat) (peers : List Peer) (es : List (Nat × RdErr)) : Dev :=
  d.begin h seq 0x04 fun d e =>
    let d := (d.readHeaders h es).meet es
    match firstFail (d.headersCheck h :: (d.pairings h).map (d.handshakeOne h peers)) with
    | some st => d.finish h seq st
    | none =>
      let due := d.baselineDue h peers
      let start := if e.execAt = 0 then d.now + 1 else e.execAt
      let d := d.modStep h fun s => { s with run := some (RunS.fresh seq start (e.arg 24 8)) }
      let d := (d.setScope (d.halfScope h) 4 0).holdScope h true
      let d := (d.fset F.DEV_STEP_STATUS_SKIPS 0 (d.stepAdd h)).fset F.DEV_STEP_STATUS_PHASE 0 (d.stepAdd h)
      if due then d else d.voteBaseline h

/-! ## The end of an attempt and of a run (R287–R292, R366) -/

/-- The growth of FAB_IDLE over the attempt (R366). -/
def Dev.idleSnapshot (d : Dev) (idle0 : List Nat) : Dev :=
  (List.range 11).foldl (fun d c =>
    d.fset F.FAB_IDLE_LAST_COUNT (d.fget F.FAB_IDLE_COUNT (8 * c) - (idle0[c]?).getD 0) (8 * c)) d

/-- Slot misses of a half's tiles. -/
def Dev.slotMisses (d : Dev) (h : HalfId) : Nat :=
  (d.scopeTiles h).foldl (fun n t => n + d.fget F.TIL_SLOT_MISS_COUNT (tileAdd t)) 0

/-- Blocks at work end, and in eager mode the updates in progress end too (R290, R316). -/
def Dev.drainUpdates (d : Dev) (h : HalfId) : Nat → Dev
  | 0 => d
  | n + 1 =>
    let here (k : Nat) : Bool := !d.split || (decide (8 ≤ k) == h)
    match d.upd.busy.find? fun p => here p.1 with
    | some (g, _) => (d.updateDone g []).drainUpdates h n
    | none =>
      if !isEager (d.imageBytes h) then d else
      match d.upd.next.find? fun p => !d.split || (decide (256 ≤ p.1) == h) with
      | some (k, _) => (d.updateDispatch h (k % 256) none).drainUpdates h n
      | none => d

/-- The update engines hold nothing of a half's attempt. -/
def Dev.clearUpdates (d : Dev) (h : HalfId) : Dev :=
  let here (k b : Nat) : Bool := !d.split || (decide (b ≤ k) == h)
  let mask := if !d.split then 0xFFFF else if h then 0xFF00 else 0x00FF
  { d.fset F.UPD_STATUS_BUSY (d.fget F.UPD_STATUS_BUSY &&& (0xFFFF - mask)) with
    upd := { d.upd with busy := d.upd.busy.filter fun p => !here p.1 8
                        next := d.upd.next.filter fun p => !here p.1 256
                        done := d.upd.done.filter fun p => !here p.1 256 } }

/-- A bound on the steps that end the updates in progress. -/
def Dev.updateSteps (d : Dev) (h : HalfId) : Nat :=
  let b := d.imageBytes h
  16 + 2 * (updLayers b).foldl (fun n l =>
    n + (match layerRec b l with | some i => (d.shardAt (d.readCopy h i l)).nb | none => 0)) 0

/-- The attempt ends with a status: its entries, the step registers, the idle snapshot (R291, R366, R402). -/
def Dev.endAttempt (d : Dev) (h : HalfId) (st : Nat) (unknown : Bool) : Dev :=
  match ((d.stepc h).run).bind (·.sa) with
  | none => d
  | some sa =>
    let d := (d.drainUpdates h (d.updateSteps h)).clearUpdates h
    match (d.stepc h).run with
    | none => d
    | some r =>
      let a := d.stepAdd h
      let body := d.stepNum h + min r.firstLayer 65535 * 2 ^ 64 + min r.replays 65535 * 2 ^ 80 +
        min (d.slotMisses h - r.miss0) (2 ^ 32 - 1) * 2 ^ 96 + min (d.now - sa) (2 ^ 32 - 1) * 2 ^ 128 +
        d.fget F.DEV_STEP_STATUS_ROUND a * 2 ^ 160
      let d := d.modEntry h r.aEntry fun e => { e with body := body, flags := e.flags ||| (if unknown then 1 else 0) }
      let d := if st = stOk then
          (updLayers (d.imageBytes h)).foldl (fun d l =>
            (d.setLayerBit F.DEV_STEP_COMMIT_COMMIT a l).modEntry h (r.aEntry + 1) fun e => { e with body := e.body ||| 2 ^ l }) d
        else d
      let d := (List.range 3).foldl (fun d k => d.endEntry h (r.aEntry + k) (if st = stOk then 3 else 4) st) d
      let d := (d.fset F.DEV_STEP_STATUS_LAST_STATUS st a).fset F.DEV_STEP_STATUS_PHASE 0 a
      let d := d.fset F.DEV_STEP_STATUS_SKIPS (if st = stOk then 0 else min (d.fget F.DEV_STEP_STATUS_SKIPS a + 1) 65535) a
      let d := if st = stPoison then d.event E.DEV_STEP_POISON a else d
      let d := if st = stOk then d else d.sbLog 0x0040 1 [st, r.firstLayer]
      let d := (d.idleSnapshot r.idle0).dropFaults h
      let d := { d with refetched := d.refetched.filter fun x => !d.refetchHere h x
                        refetch := d.refetch.filter fun x => !d.refetchHere h x.1 }
      (d.modRun h fun r =>
        { r with sa := none, passes := [], replay := [], admitted := 0, ended := [], stopped := false, fail := none, firstLayer := 65535, replays := 0
                 epoch := false, gate := 0, gradVoted := [], grads := [], updated := [], chosen := [], acks := 0, mirrored := [], old := []
                 roundVoted := none }).holdScope h true

/-- The run ends with a status: the RUN entry, a STOP and a PREEMPT that wait, DEV_STATE LOADED (R292, R395). -/
def Dev.endRun (d : Dev) (h : HalfId) (st : Nat) : Dev :=
  match (d.stepc h).run with
  | none => d
  | some r =>
    let d := if r.dirty then d.resetTo h (passConfig (d.imageBytes h) 0) else d
    let d := (d.modEntry h r.entry fun e => { e with status := 0 }).finish h r.entry st
    let d := match r.stop with | some s => d.finish h s stOk | none => d
    let d := match r.preempt with | some (s, _) => d.finish h s stWrongState | none => d
    let d := d.modStep h fun s => { s with run := none }
    ((d.setScope (d.halfScope h) 3 0).holdScope h false).fset F.DEV_STEP_STATUS_PHASE 0 (d.stepAdd h)

/-- A failed attempt ends; the run goes on with the next batch or ends (R292). `moved`: another device of the job has a commit bit
or a failed gradient gate. -/
def Dev.attemptFails (d : Dev) (h : HalfId) (st : Nat) (moved : Bool) : Dev :=
  match (d.stepc h).run with
  | none => d
  | some r =>
    let b := d.imageBytes h
    let a := d.stepAdd h
    let tick := d.fget F.DEV_STEP_SEAL_TALLY a
    let gate := r.firstLayer != 65535
    let d := (d.endAttempt h st false).tellHolders h false false 0
    let own := (List.range 4).any fun k => d.fget F.DEV_STEP_COMMIT_COMMIT (a + 8 * k) != 0
    let ends := (isEager b && (own || gate || moved)) || decide (maxSkips b < d.fget F.DEV_STEP_STATUS_SKIPS a)
    let d := d.modRun h fun r => { r with start := tick + 1 }
    if ends then
      let d := d.endRun h st
      if own then d.sendLoss h none else d
    else if r.stop.isSome then d.endRun h stOk
    else d

/-! ## The baseline vote and the start of an attempt (R270, R313, R380, R402) -/

/-- BASELINE_VOTE (R380). -/
def Dev.baselineVote (d : Dev) (h : HalfId) : Dev :=
  match (d.stepc h).run with
  | none => d
  | some r =>
    let id := voteId 3 0 0 (d.stepNum h)
    match (if r.base = 2 then d.fabResult (d.tagOf h) id else none) with
    | none => d
    | some v =>
      let d := d.dropResult (d.tagOf h) id
      if v.or1 || !v.vand then d.endRun h (r.baseFail.getD stPartnerFault)
      else
        let b := d.imageBytes h
        let tb := d.now - (d.now + 2 ^ 24 - v.tick.toNat) % 2 ^ 24
        let s0 := max r.start (tb + voteTicks b)
        (d.modRun h fun r => { r with base := 3, start := s0 }).fset F.DEV_STEP_SEAL_TALLY (s0 + sealOffset b) (d.stepAdd h)

/-- The records of the layers with a shard; `none` when one has none (R313). -/
def Dev.chooseRecords (d : Dev) (h : HalfId) : Option (FMap (List Byte)) :=
  let b := d.imageBytes h
  (updLayers b).foldl (fun (m : Option (FMap (List Byte))) l =>
    match m, (layerRec b l).bind fun i => schedFor (d.stepc h).sched (lrGroup i) (d.stepNum h) with
    | some m, some r => some (fmSet m l r)
    | _, _ => none) (some [])

/-- The entry of an attempt: opcode 0xF0 to 0xF2 and its body (Table 16-8). -/
def attemptEntry (op run tenant sa body : Nat) : Entry :=
  { Entry.blank with tag := run, opcode := op, source := 4, state := 2, tenant, accept := sa, body }

/-- ATTEMPT_START at S_a. -/
def Dev.attemptStart (d : Dev) (h : HalfId) : Dev :=
  match (d.stepc h).run with
  | none => d
  | some r =>
    if r.base ≠ 3 || r.sa.isSome || r.paused.isSome || r.preempt.isSome || (d.stepc h).hold || d.now < r.start then d else
    match d.chooseRecords h with
    | none => (d.event E.UPD_SCHED_MISSING).endRun h stNoResource
    | some m =>
      let b := d.imageBytes h
      let a := d.stepAdd h
      let n := d.stepNum h
      let d := if r.dirty then d.resetTo h (passConfig b 0) else d
      let d := (d.scopeTiles h).foldl (fun d t => d.fset F.TIL_VX_STEP_STEP n (tileAdd t)) d
      let d := (List.range 4).foldl (fun d k => (d.fset F.FAB_NF_NF 0 (a + 8 * k)).fset F.DEV_STEP_COMMIT_COMMIT 0 (a + 8 * k)) d
      let keys := ((d.schedItems h).filter fun i => leAt i 0 1 == 0).map siKey
      let red (k : Nat) : Bool := !d.split || (decide (if k < 1024 then 512 ≤ k else 1280 ≤ k) == h)
      let part (k : Nat) : Bool := !d.split || (decide (256 * 2 ^ 32 ≤ k) == h)
      let d := { d with fab := { d.fab with
        sends := d.fab.sends.filter fun p => !keys.contains p.1
        recvs := d.fab.recvs.filter fun p => !keys.contains p.1
        reduced := d.fab.reduced.filter fun p => !red p.1
        parts := d.fab.parts.filter fun p => !part p.1 } }
      let tenant := ((d.entry h r.entry).map (·.tenant)).getD 0
      let first := (d.led h).head + 1
      let d := d.appendEntry h (attemptEntry 0xF0 r.entry tenant r.start (n + 65535 * 2 ^ 64))
      let d := d.appendEntry h (attemptEntry 0xF1 r.entry tenant r.start 0)
      let d := d.appendEntry h (attemptEntry 0xF2 r.entry tenant r.start (leNat d.cursorBytes))
      let d := { d with mg := { d.mg with subWait := 3 } }
      let olds := if d.mirroring h && (survHdr b).map shCadence == some 1 then
          ((survItems b 1).filter fun i => !tiEscrow i && tiRegion i == 0 && tiChange i != 2).flatMap fun i =>
            (List.range (tiIngots i)).map fun k => tiBase i + 4096 * k
        else []
      let old := olds.foldl (fun m x => fmSet m x (d.ingot x)) ([] : FMap (List Byte))
      let idle := (List.range 11).map fun c => d.fget F.FAB_IDLE_COUNT (8 * c)
      let miss := d.slotMisses h
      let d := d.modRun h fun r =>
        { r with sa := some r.start, chosen := m, dirty := false, old := old, idle0 := idle, miss0 := miss, aEntry := first }
      let d := (d.count F.DEV_STEP_ATTEMPTS_COUNT 1 a).fset F.DEV_STEP_STATUS_ROUND 0 a
      let d := d.fset F.DEV_STEP_SEAL_TALLY (r.start + sealOffset b) a
      (d.fset F.DEV_STEP_STATUS_PHASE 0 a).setPhase h 1

/-! ## Passes (R273, R276, R282–R285) -/

/-- A pass of this kind can be replayed (Table 11-2). -/
def replayable (kind : Nat) : Bool := kind == 1 || kind == 2 || kind == 3

/-- The phase a pass of a kind begins. -/
def passPhase (kind : Nat) : Nat :=
  match kind with
  | 0 => 1
  | 1 | 2 => 2
  | 3 => 5
  | 4 => 3
  | _ => 6

/-- The pass may come next in the attempt, each once: the forward pass of a micro-batch on the first stage when its batch is ingested,
RECOMPUTE only of a group in recompute mode and after the forward pass, BACKWARD after the loss gate, the forward pass and every such
RECOMPUTE, LOSS after the forward pass and before the gate, TAIL after the last backward pass (Tables 11-1 and 11-2, R271, R276). Within
these the order is the step program's, which comes with the command. -/
def Dev.passDue (d : Dev) (h : HalfId) (r : RunS) (kind mb group : Nat) : Bool :=
  let b := d.imageBytes h
  let same (e : Nat × Nat × Nat) : Bool :=
    e.1 == kind && (kind == 0 || kind == 5 || e.2.1 == mb) && (kind != 2 || e.2.2 == group)
  let ids := r.passes.map fun p => (p.kind, p.mb, p.group)
  !(r.ended ++ ids).any same &&
    match kind with
    | 0 => true
    | 1 => (d.pipeline h).1 != 0 ||
        ((r.ended ++ ids).any (fun e => e.1 == 0) && !(scopeHas d.feedScope h && d.feed.ingest.contains mb))
    | 2 => (recomputeGroups b).contains group && r.hasEnded 1 mb
    | 3 => r.gate == 2 && r.hasEnded 1 mb && (recomputeGroups b).all fun g => r.ended.contains (2, mb, g)
    | 4 => r.gate == 0 && r.hasEnded 1 mb
    | _ => d.backwardDone h

/-- The arrival buffer of a pass's input holds all that the pass reads of it (R273, R275). -/
def Dev.inputWhole (d : Dev) (h : HalfId) (x : PassInput) : Bool :=
  match fmGet (d.recvS (x.peer.toNat * 65536 + x.xfer.toNat)).bufs x.index with
  | some (step, _, n) => step == d.stepNum h && decide (x.transfers ≤ n)
  | none => x.transfers == 0

/-- PASS_ADMIT: the next pass of the step program, with what it reads from other devices; `host`: the records of an INGEST pass from host
memory. -/
def Dev.passAdmit (d : Dev) (h : HalfId) (kind mb group : Nat) (inputs : List PassInput) (host : List (Option (List Byte))) : Dev :=
  match (d.stepc h).run with
  | none => d
  | some r =>
    if r.sa.isNone || r.stopped || r.fail.isSome || r.paused.isSome || r.preempt.isSome || !r.replay.isEmpty || 64 ≤ r.passes.length ||
        5 < kind || microBatches (d.imageBytes h) ≤ mb || !d.passDue h r kind mb group || !inputs.all (d.inputWhole h) then d
    else
      let b := d.imageBytes h
      let d := (d.modRun h fun r =>
        { r with passes := r.passes ++ [⟨kind, mb, group, d.now, 0, r.admitted⟩], admitted := r.admitted + 1 }).holdScope h false
      let d := d.setPhase h (passPhase kind)
      if kind = 0 then d.startIngest h host
      else if kind = 5 then
        match survHdr b with
        | some s => d.store (shState s) (d.stateBytes h true)
        | none => d
      else d

/-- One block is refreshed: its new P from the statistic just written, or the P of the copy being read where the iteration was nonfinite
or did not converge, or the statistic is poisoned (R309, R310). -/
def Dev.refreshBlock (d : Dev) (h : HalfId) (l : Nat) (i : List Byte) (rec_ : List Byte) (blk : Nat) (es : List (Nat × RdErr)) : Dev :=
  let src := d.readCopy h i l
  let dst := d.writeCopy h i l
  let x := d.shardAt src
  let n := 2 * x.b ^ 2
  let o := x.pOff + n * blk
  let la := dst + x.lOff + 2 * n * blk
  let stat := allSome ((List.range (x.b ^ 2)).map fun k => d.elem 4 (la + 4 * k))
  let d := d.rangeRead la (2 * n) es
  let root := stat.map (inverseRoot x.b (x.valid blk) x.root (scEps rec_) (scIters rec_))
  let kept (d : Dev) (ev : Ev) : Dev :=
    let d := (d.event ev).count F.UPD_REFRESH_KEPT
    if src = dst then d
    else
      let old := (List.range (x.b ^ 2)).map fun k => d.elem 2 (src + o + 2 * k)
      ((d.rangeRead (src + o) n es).storeElems 2 (dst + o) old).countRange (dst + o) n true
  match root with
  | none => kept d E.UPD_ROOT_NONFINITE
  | some r =>
    if r.nonfinite then kept d E.UPD_ROOT_NONFINITE
    else if r.noconv then kept d E.UPD_ROOT_NOCONV
    else
      let d := (d.storeElems 2 (dst + o) (r.prec.map some)).countRange (dst + o) n true
      { d with mem := memPut d.mem (dst + 11) (memGet d.mem (dst + 11) ||| 1#8) }.count F.UPD_REFRESH_DONE

/-- Every updated layer whose refresh is due and has not been made is refreshed, block by block (R309). The tensors with CHANGE 1 that a
refresh changes are due for mirroring (R375). -/
def Dev.refreshLayers (d : Dev) (h : HalfId) (r : RunS) (es : List (Nat × RdErr)) : Dev :=
  let b := d.imageBytes h
  let ls := (updLayers b).filter fun l => d.refreshDue h r l && r.updated.contains l && !r.ended.contains (5, l, 0)
  if ls.isEmpty then d else
  let due := ((survItems b 1).filter fun t => tiEscrow t && tiRegion t == 0 && tiChange t == 1).map tiTensor
  let d := { d with srv := { d.srv with refreshed := d.srv.refreshed ++ due.filter fun t => !d.srv.refreshed.contains t } }
  ls.foldl (fun d l =>
    match layerRec b l with
    | none => d
    | some i =>
      ((List.range (d.shardAt (d.readCopy h i l)).nb).foldl (fun d k => d.refreshBlock h l i ((fmGet r.chosen l).getD []) k es) d).modRun h
        fun r => { r with ended := r.ended ++ [(5, l, 0)] }) (d.meet es)

/-- No flit of a half's passes is in its networks: tokens, load and store messages, till messages, rows on their way to a reader. -/
def Dev.netsQuiet (d : Dev) (h : HalfId) : Bool :=
  d.queues.all (fun (p : Nat × Queue) => !d.inScope h (p.1 / 128) || (p.2.flight.isEmpty && p.2.wait.isEmpty)) &&
    (d.net.mem ++ d.net.memBack).all (fun m => !d.inScope h m.tile) && d.net.till.all (fun m => !d.inScope h m.tile) &&
    d.slots.all fun (p : Nat × Slot) =>
      !d.inScope h (p.1 / 32) || p.2.halo == 0 && ((p.2.active.map d.isFar).getD false ||
        ((p.2.walk.map (·.ahead)).getD []).all fun k => match k with
          | .row _ m v => m || v.isSome
          | _ => true)

/-- Every unit of a half has finished its firings: no walk, no firing on a lane group, no run of a field (R273). -/
def Dev.unitsQuiet (d : Dev) (h : HalfId) : Bool :=
  d.netsQuiet h &&
    d.slots.all (fun (p : Nat × Slot) => !d.inScope h (p.1 / 32) || (p.2.walk.isNone && p.2.vx.done.isEmpty)) &&
    d.tiles.all (fun (p : Nat × Tile) => !d.inScope h p.1 || p.2.groups.isEmpty) &&
    d.insts.all fun (p : Nat × Inst) => (d.split && decide (256 ≤ p.1) != h) || p.2.run.isNone

/-- PASS_END: the pass at place `i` among those in flight ends. What an ingest has yet to write keeps INGEST in flight; the last of the
passes through the units ends when these have finished. A TAIL pass refreshes what is due and ends with the attempt (R273, R281); `es`:
what the refresh meets at the words it reads. When no replayed pass is left, a refetched ingot counts as any other (R242). -/
def Dev.passEnd (d : Dev) (h : HalfId) (i : Nat) (es : List (Nat × RdErr)) : Dev :=
  match (d.stepc h).run with
  | none => d
  | some r =>
    match r.passes[i]? with
    | none => d
    | some p =>
      let units := (r.passes.filter fun p => p.kind != 0).length
      if p.kind = 5 then d.refreshLayers h r es
      else if p.kind = 0 && scopeHas d.feedScope h && !d.feed.ingest.isEmpty then d
      else if p.kind != 0 && units == 1 && !d.unitsQuiet h then d
      else
        let left := r.passes.eraseIdx i
        let d := d.modRun h fun r => { r with passes := left, ended := r.ended ++ [(p.kind, p.mb, p.group)] }
        let d := if left.any fun p => 0 < p.replays then d
          else { d with refetched := d.refetched.filter fun x => !d.refetchHere h x }
        if left.isEmpty then d.holdScope h true else d

/-- An ingot already refetched was read uncorrectable again while its passes are replayed (R242). -/
def Dev.lostAgain (d : Dev) (h : HalfId) (x : Nat × Option (Nat × Nat)) : Bool := d.refetchHere h x.1 && d.refetched.contains x.1

/-- Such ingots are given up: REFETCH_FAIL and its record (R241). -/
def Dev.refetchLost (d : Dev) (h : HalfId) : Dev :=
  let xs := d.refetch.filter (d.lostAgain h)
  let d := { d with refetch := d.refetch.filter fun x => !d.lostAgain h x }
  xs.foldl (fun d x =>
    (d.event E.STK_REFETCH_FAIL (stackAdd (d.stackOf x.1))).sbLog 0x0020 2 [d.stackOf x.1, (d.stackMap x.1).2.1, x.1, 2]) d

/-- ABANDON: the faults reported stop admission and hold the units; the passes in flight await their replay, or the attempt
fails (R242, R282–R285). -/
def Dev.abandon (d : Dev) (h : HalfId) : Dev :=
  match (d.stepc h).run with
  | none => d.dropFaults h
  | some r =>
    let fs := d.faults.filter (d.faultHere h)
    let d := d.dropFaults h
    if fs.isEmpty || r.sa.isNone || r.fail.isSome || r.passes.isEmpty then d else
    let a := d.stepAdd h
    let again := r.passes.any (fun p => 0 < p.replays) && d.refetch.any (d.lostAgain h)
    if !r.passes.all (fun p => replayable p.kind) then d.failAttempt h stAbandoned none
    else if fs.any (·.2 == 2) && r.epoch && r.passes.any (fun p => 0 < p.replays) then
      ((((d.event E.DEV_STEP_ABANDON a).failAttempt h stEpochFault none).endAttempt h stEpochFault false).tellHolders h false false 0).endRun h
        stEpochFault
    else if again then ((d.event E.DEV_STEP_ABANDON a).refetchLost h).failAttempt h stPoison none
    else if r.passes.any (fun p => replayLimit (d.imageBytes h) ≤ p.replays) then
      ((d.event E.DEV_STEP_ABANDON a).event E.DEV_STEP_REPLAY_LIMIT a).failAttempt h stAbandoned none
    else
      ((d.event E.DEV_STEP_ABANDON a).modRun h fun r => { r with stopped := true, dirty := true, epoch := r.epoch || fs.any (·.2 == 2), replay := r.replay ++ r.passes, passes := [] }).holdScope h true

/-- PASS_TIMEOUT: a pass in flight for more than PASS_TIMEOUT ticks (R282). -/
def Dev.passTimeoutEvent (d : Dev) (h : HalfId) : Dev :=
  let n := passTimeout (d.imageBytes h)
  match (d.stepc h).run with
  | none => d
  | some r => if n != 0 && r.passes.any (fun p => p.tick + n < d.now) then (d.passFault h 6).abandon h else d

/-- REPLAY: the networks have drained and the refetches are done: the dataflow returns to the configuration of the oldest
abandoned pass and the passes are readmitted (steps 3 to 6 of R283). -/
def Dev.replay (d : Dev) (h : HalfId) : Dev :=
  match (d.stepc h).run with
  | none => d
  | some r =>
    match r.replay with
    | [] => d
    | p :: _ =>
      if r.fail.isSome || r.paused.isSome || !d.netsQuiet h || d.refetch.any (fun x => d.refetchHere h x.1) then d else
      let d := d.resetTo h (passConfig (d.imageBytes h) p.kind)
      let d := d.modRun h fun r =>
        { r with passes := r.replay.map fun p => { p with tick := d.now, replays := p.replays + 1 }
                 replay := [], stopped := false, dirty := false, replays := r.replays + 1 }
      (d.count F.DEV_STEP_REPLAYS_COUNT r.replay.length (d.stepAdd h)).holdScope h false

/-! ## Gates (R262, R272) -/

/-- The hub samples and clears the vote bits of the tiles and the fabric interfaces' flags (R262). -/
def Dev.gateSample (d : Dev) (h : HalfId) : Bool × Dev :=
  let ts := d.scopeTiles h
  let a := d.stepAdd h
  let nf := ts.any (fun t => d.flag F.TIL_VX_VOTE_NF (tileAdd t)) ||
    (List.range 4).any fun k => d.fget F.FAB_NF_NF (a + 8 * k) != 0
  let d := ts.foldl (fun d t => d.fset F.TIL_VX_VOTE_NF 0 (tileAdd t)) d
  (nf, (List.range 4).foldl (fun d k => d.fset F.FAB_NF_NF 0 (a + 8 * k)) d)

/-- LOSS_GATE: once the last forward pass, and on the last stage the loss, have ended the device contributes; once the result has come the gate passes
or fails. -/
def Dev.lossGate (d : Dev) (h : HalfId) : Dev :=
  match (d.stepc h).run with
  | none => d
  | some r =>
    let id := voteId 0 0 0 (d.attemptNo h)
    if r.sa.isNone || r.fail.isSome then d
    else if r.gate = 0 then
      let pl := d.pipeline h
      if r.passes.any (fun p => p.kind ≤ 2 || p.kind == 4) || !r.replay.isEmpty ||
          !(List.range (microBatches (d.imageBytes h))).all (r.hasEnded 1) ||
          (pl.1 + 1 == pl.2 && !r.ended.any fun e => e.1 == 4) then d else
      let s := d.gateSample h
      ((s.2.contribute (d.tagOf h) id (d.jobSize h) true s.1 false).modRun h fun r => { r with gate := 1 }).setPhase h 4
    else if r.gate = 1 then
      match d.fabResult (d.tagOf h) id with
      | none => d
      | some v =>
        let d := d.dropResult (d.tagOf h) id
        if v.or0 then
          ((d.event E.DEV_STEP_LOSS_NF (d.stepAdd h)).modRun h fun r => { r with gate := 3 }).failAttempt h stNonfinite none
        else d.modRun h fun r => { r with gate := 2 }
    else d

/-- GRADIENT_GATE of a layer whose reduced shard is complete: the device contributes, or the result decides. `own`: where the
device's own contribution lies when no transfer delivers the shard. -/
def Dev.gradientGate (d : Dev) (h : HalfId) (l : Nat) (own : Option Nat) : Dev :=
  match (d.stepc h).run, layerRec (d.imageBytes h) l with
  | some r, some i =>
    let p := d.pipeline h
    let id := voteId 1 l p.1 (d.attemptNo h)
    if !lrUpdate i || r.sa.isNone || r.fail.isSome then d
    else if !r.gradVoted.contains l then
      let x := d.shardAt (d.readCopy h i l)
      let d := d.deliverOwn h l x own
      if !d.shardWhole h l x then d else
      let s := d.gateSample h
      ((s.2.contribute (d.tagOf h) id (d.jobSize h / p.2) true s.1 false).modRun h fun r =>
        { r with gradVoted := r.gradVoted ++ [l] }).setPhase h 7
    else if r.grads.contains l then d
    else
      match d.fabResult (d.tagOf h) id with
      | none => d
      | some v =>
        let d := d.dropResult (d.tagOf h) id
        if v.or0 then
          let poison := (d.reducedOf h l false ++ d.reducedOf h l true).any (·.isNone)
          (d.event E.DEV_STEP_GRAD_NF (d.stepAdd h)).failAttempt h (if poison then stPoison else stNonfinite) (some l)
        else d.modRun h fun r => { r with grads := r.grads ++ [l] }
  | _, _ => d

/-! ## Preemption and stops (R278–R281, R395) -/

/-- The tally of a command: its execute-at value, or its acceptance (R280). -/
def Entry.when_ (e : Entry) : Nat := if e.execAt = 0 then e.accept else e.execAt

/-- PREEMPT: admission stops at the next pass boundary. -/
def Dev.preempt (d : Dev) (h : HalfId) (seq : Nat) : Dev :=
  d.begin h seq 0x05 fun d e =>
    match (d.stepc h).run with
    | some r => if r.preempt.isSome then d.finish h seq stWrongState else d.modRun h fun r => { r with preempt := some (seq, e.when_) }
    | none => d.finish h seq stWrongState

/-- PREEMPT_DONE: no pass is in flight; the device is PAUSED, and the RUN entry shows PREEMPTED (R399). -/
def Dev.preemptDone (d : Dev) (h : HalfId) : Dev :=
  match (d.stepc h).run with
  | none => d
  | some r =>
    match r.preempt with
    | none => d
    | some (seq, tally) =>
      if !r.passes.isEmpty || !r.replay.isEmpty then d else
      let d := (d.setScope (d.halfScope h) 5 0).event E.DEV_STEP_PREEMPTED (d.stepAdd h)
      let d := (d.modEntry h r.entry fun e => { e with status := stPreempted }).finish h seq stOk
      (d.modRun h fun r => { r with preempt := none, paused := some tally }).holdScope h true

/-- RESUME: RUNNING again; the seal rounds, or the next start, move later by the time between the two commands (R280). -/
def Dev.resume (d : Dev) (h : HalfId) (seq : Nat) : Dev :=
  d.begin h seq 0x06 fun d e =>
    match (d.stepc h).run with
    | none => d.finish h seq stWrongState
    | some r =>
      if (d.stepc h).hold then d.finish h seq stWrongState else
      let a := d.stepAdd h
      let by_ := e.when_ - r.paused.getD e.when_
      let d := d.setScope (d.halfScope h) 4 0
      let d := d.modEntry h r.entry fun e => { e with status := 0 }
      let d := d.modRun h fun r => { r with paused := none, start := if r.sa.isSome then r.start else r.start + by_ }
      (d.fset F.DEV_STEP_SEAL_TALLY (d.fget F.DEV_STEP_SEAL_TALLY a + by_) a).finish h seq stOk

/-- STOP is begun in one of its two modes. -/
def Dev.beginStop (d : Dev) (h : HalfId) (seq mode : Nat) (k : Dev → Dev) : Dev :=
  match d.entry h seq with
  | some e => if e.arg 24 1 = mode then d.begin h seq 0x07 fun d _ => k d else d
  | none => d

/-- What recovery left PAUSED, with no run, returns to LOADED (R388). -/
def Dev.unpause (d : Dev) (h : HalfId) (seq : Nat) : Dev :=
  ((d.modStep h fun s => { s with hold := false }).setScope (d.halfScope h) 3 0).finish h seq stOk

/-- STOP_AT_ATTEMPT_END: MODE 0. -/
def Dev.stopAtEnd (d : Dev) (h : HalfId) (seq : Nat) : Dev :=
  d.beginStop h seq 0 fun d =>
    match (d.stepc h).run with
    | none => d.unpause h seq
    | some r =>
      if r.stop.isSome then d.finish h seq stWrongState
      else
        let d := d.modRun h fun r => { r with stop := some seq }
        if r.sa.isNone then (d.modStep h fun s => { s with hold := false }).endRun h stOk else d

/-- STOP_NOW: MODE 1; the attempt ends ABANDONED and the run OK. -/
def Dev.stopNow (d : Dev) (h : HalfId) (seq : Nat) : Dev :=
  d.beginStop h seq 1 fun d =>
    match (d.stepc h).run with
    | none => d.unpause h seq
    | some r =>
      let d := if r.sa.isSome then ((d.failAttempt h stAbandoned none).endAttempt h stAbandoned false).tellHolders h false false 0 else d
      ((d.modStep h fun s => { s with hold := false }).endRun h stOk).finish h seq stOk

/-! ## The seal (R286–R292) -/

/-- Every phase is complete and every gate has passed (R286, R375, R379). -/
def Dev.sealReady (d : Dev) (h : HalfId) (r : RunS) : Bool :=
  let ls := updLayers (d.imageBytes h)
  r.fail.isNone && r.gate == 2 && ls.all (fun l => r.grads.contains l && d.layerDone h r l) &&
    r.passes.map (·.kind) == [5] && r.replay.isEmpty && r.acks == 0 &&
    (!d.mirroring h || ((d.dueTensors h).all (fun i => r.mirrored.contains (tiTensor i)) && r.mirrored.contains 4096))

/-- The attempt's work has ended on this device, and its seal round has not come (R287). -/
def Dev.workOver (d : Dev) (h : HalfId) : Bool :=
  match (d.stepc h).run with
  | some r => r.sa.isSome && r.paused.isNone && (r.fail.isSome || d.sealReady h r)
  | none => false

/-- The vote of a seal round. -/
def Dev.sealId (d : Dev) (h : HalfId) : Nat := voteId 2 (d.fget F.DEV_STEP_STATUS_ROUND (d.stepAdd h)) 0 (d.attemptNo h)

/-- SEAL_VOTE: the device contributes to the current round, until the vote closes. -/
def Dev.sealVote (d : Dev) (h : HalfId) : Dev :=
  match (d.stepc h).run with
  | none => d
  | some r =>
    let a := d.stepAdd h
    let j := d.fget F.DEV_STEP_STATUS_ROUND a
    if r.sa.isNone || r.paused.isSome || r.roundVoted == some j ||
        d.fget F.DEV_STEP_SEAL_TALLY a < d.now + voteTicks (d.imageBytes h) then d
    else
      let ready := d.sealReady h r
      let nf := r.fail == some stNonfinite || r.fail == some stPoison
      let d := d.contribute (d.tagOf h) (d.sealId h) (d.jobSize h) ready nf (r.fail.isSome && !nf)
      let d := d.modRun h fun r => { r with roundVoted := some j }
      if ready || r.fail.isSome then d.setPhase h 11 else d

/-- The seal of R288: selectors, adoption, snapshot, N, the schedule records that are past. -/
def Dev.seal (d : Dev) (h : HalfId) (updated : List Nat) : Dev :=
  let b := d.imageBytes h
  let a := d.stepAdd h
  let n := d.stepNum h
  let mir := d.mirroring h
  let d := if isEager b then d
    else updated.foldl (fun d l =>
      d.fset F.DEV_STEP_SEL_SEL (d.fget F.DEV_STEP_SEL_SEL (a + 8 * (l / 64)) ^^^ 2 ^ (l % 64)) (a + 8 * (l / 64))) d
  let d := d.tellHolders h true mir (n + 1)
  let d := d.fset F.DEV_STEP_NUM_N (n + 1) a
  let d := d.modStep h fun s => { s with sched := s.sched.filter fun r => decide (n + 1 < scFirst r + scCount r) }
  if mir && (survHdr b).isSome then d.writeSnapshot h (d.unitsNow h) else d

/-- SEAL_ROUND: at the round's tick the attempt seals, fails or passes to the next round; with no result by then it ends TIMEOUT with
SEAL_UNKNOWN (R288, R365). `moved`: another device of the job has a commit bit set, or a failed gradient gate (R292). -/
def Dev.sealRound (d : Dev) (h : HalfId) (moved : Bool) : Dev :=
  match (d.stepc h).run with
  | none => d
  | some r =>
    let b := d.imageBytes h
    let a := d.stepAdd h
    let j := d.fget F.DEV_STEP_STATUS_ROUND a
    let tick := d.fget F.DEV_STEP_SEAL_TALLY a
    if r.sa.isNone || r.paused.isSome || d.now < tick then d else
    match d.fabResult (d.tagOf h) (d.sealId h) with
    | none =>
      let d := (d.event E.DEV_STEP_SEAL_UNKNOWN a).endAttempt h stTimeout true
      let own := (List.range 4).any fun k => d.fget F.DEV_STEP_COMMIT_COMMIT (a + 8 * k) != 0
      let d := d.endRun h stTimeout
      if own then d.sendLoss h none else d
    | some v =>
      let d := d.dropResult (d.tagOf h) (d.sealId h)
      if v.or0 || v.or1 then d.attemptFails h (r.fail.getD (if v.or0 then stNonfinite else stAbandoned)) moved
      else if v.vand then
        let d := (d.setPhase h 10).endAttempt h stOk false
        let d := d.seal h r.updated
        let d := d.modRun h fun r => { r with seals := r.seals + 1, start := tick + 1 }
        if (r.limit != 0 && r.limit ≤ r.seals + 1) || r.stop.isSome then d.endRun h stOk else d
      else if j + 1 < sealRounds b then
        (d.fset F.DEV_STEP_STATUS_ROUND (j + 1) a).fset F.DEV_STEP_SEAL_TALLY (tick + sealStride b) a
      else (d.event E.DEV_STEP_SEAL_TIMEOUT a).attemptFails h (r.fail.getD stTimeout) moved

end Sys2Proof.Machine
end

