-- ==== Sys2Proof/Machine/Reset.lean ====
section
/-! DEFINITION. The winnow and the reset levels of one scope: compute and site (R45, R339, R404, R451–R453, R463–R469). -/

namespace Sys2Proof.Machine

/-! ## What a scope's reset clears -/

/-- The half whose ledger, image and step controller serve a scope. -/
def scopeHalf : Scope → HalfId
  | .east => true
  | _ => false

/-- The step controllers, images and ledgers of a scope: one for the whole device, one per half in split tenancy. -/
def Dev.controllers (d : Dev) (s : Scope) : List HalfId := if d.split then scopeHalves s else [false]

/-- SCOPE as the commands encode it (R451). -/
def scopeNum : Scope → Nat
  | .whole => 0
  | .west => 1
  | .east => 2

/-- The staging buffers that serve a half. -/
def Dev.staging (d : Dev) (h : HalfId) : Staging := if d.split && h then d.stage1 else d.stage0
def Dev.setStaging (d : Dev) (h : HalfId) (s : Staging) : Dev :=
  if d.split && h then { d with stage1 := s } else { d with stage0 := s }

/-- The ports of a scope. -/
def scopePorts (s : Scope) : List Nat := (List.range 15).filter fun p => scopeHas s (portHalf p)

/-- The tiles of a scope. -/
def scopeTileIds (s : Scope) : List Nat := (List.range 512).filter fun t => scopeHas s (tileHalf t)

/-- The streams, requests, votes and sums of a half's units are dropped. -/
def Dev.dropFabric (d : Dev) (h : HalfId) : Dev :=
  let keys := (d.schedItems h).map siKey
  let mine (t : Nat) : Bool := d.inScope h t
  { d with fab := { d.fab with
      reqs := d.fab.reqs.filter fun r => match r.2.use with
        | .unit t _ => !mine t
        | .copy k _ => d.split && k != h
        | .escrow _ => d.split
        | .stream k _ => d.split && !keys.contains k
      sends := d.fab.sends.filter fun p => d.split && !keys.contains p.1
      recvs := d.fab.recvs.filter fun p => d.split && !keys.contains p.1
      votes := d.fab.votes.filter fun v => d.split && v.tenant.toNat != d.tagOf h
      failed := d.fab.failed.filter fun k => !mine (k / 32)
      detours := if d.split then d.fab.detours else []
      reduced := if d.split then d.fab.reduced else [] } }

/-- Units stop; configurations, shadows, queue stores, instruction memories, broadcast slots, window pools, extents and schedule
records are cleared, the scratchpad is zero, the tile counters are cleared, and no image is in force. -/
def Dev.clearScope (d : Dev) (s : Scope) : Dev :=
  let d := (d.controllers s).foldl (fun d h => (d.dropFabric h).dropUnits h) d
  let ts := d.tiles.filter fun p => !scopeHas s (tileHalf p.1) || !p.2.micro.isEmpty
  let clear (t : Nat) (x : Tile) : Tile := if scopeHas s (tileHalf t) then { Tile.init with micro := x.micro } else x
  let d := { d with tiles := fmMap ts clear }
  let d := (scopeHalves s).foldl (fun d k => d.zeroRange (sliceBase (if k then 256 else 0)) (sliceBase (if k then 512 else 256))) d
  let d := (scopeTileIds s).foldl (fun d t =>
    (d.clearCounters t).regReset (0x1002200 + tileAdd t) (0x1002400 + tileAdd t)) d
  (d.controllers s).foldl (fun d h => ((d.modStep h fun c => { c with sched := [] }).setImage h none).holdScope h false) d

/-- A run of a half ends without a seal: no pass is replayed, no update goes on (R464, R465). -/
def Dev.dropRun (d : Dev) (h : HalfId) : Dev :=
  let d := d.clearUpdates h
  let d := if ((d.stepc h).run.bind (·.sa)).isSome then (d.endAttempt h stAbandoned false).dropPending h none else d
  let d := (d.modStep h fun c => { c with run := none, hold := false }).dropFaults h
  { d.fset F.DEV_STEP_STATUS_PHASE 0 (d.stepAdd h) with
    refetch := d.refetch.filter fun x => !d.refetchHere h x.1
    refetched := d.refetched.filter fun x => !d.refetchHere h x }

/-- Every STARTED entry of a ledger but one ends FAILED with ABANDONED (R404). -/
def Dev.endStarted (d : Dev) (h : HalfId) (own : Nat) : Dev :=
  let n := ((d.led h).entries.filter fun e => e.state == 2 && e.seq != own).length
  let d := d.endWhere h (fun e => e.state == 2 && e.seq != own) 4 stAbandoned
  (List.range n).foldl (fun d _ => d.event E.CMD_RESET_LOST) d

/-- A RESET entry of a level is appended (R404). -/
def Dev.resetEntry (d : Dev) (h : HalfId) (level : Nat) : Dev :=
  d.appendEntry h { Entry.blank with opcode := 0xF3, source := 4, state := 3, accept := d.now, result := level }

/-- The scope that a ledger's half stands for. -/
def Dev.isFeedOf (d : Dev) (s : Scope) : Bool := !d.split || d.feedScope == s

/-! ## The winnow (R451–R453) -/

/-- The winnow running on a scope has failed: its entry, the event, the record; the scope is FREE_DIRTY. -/
def Dev.winnowFails (d : Dev) (s : Scope) : Dev :=
  let key := scopeNum s
  match fmGet d.sec.winnows key with
  | none => d
  | some (seq, start) =>
    let d := (d.finish (d.split && s == .east) seq stAbandoned).event E.SEC_WINNOW_FAIL
    let d := { d with sec := { d.sec with winnows := fmErase d.sec.winnows key } }
    ((d.setOwner s 2 0 []).fsetB F.SEC_STATUS_WINNOW_ACTIVE (!d.sec.winnows.isEmpty)).sbLog 0x0060 1 [start, d.now, stAbandoned]

/-- Counters and registers that a winnow clears: those of the scope's stacks and ports, the fabric windows and idle counters, the
update, survival and feed counters (R182, R244, R317, R341, R367, R389, R497). -/
def Dev.winnowRegs (d : Dev) (s : Scope) : Dev :=
  let tag := d.tagOf (scopeHalf s)
  let d := ((List.range 8).filter fun k => scopeHas s (stackHalf k)).foldl (fun d k =>
    let a := stackAdd k
    let d := d.fclear ((allEvents.filter fun e => e.bit.off == F.STK_EVENT_CORR.off).map (·.cnt)) a
    d.fclear [F.STK_LAST_ERR_ADDR, F.STK_LAST_ERR_PC, F.STK_RD_BYTES_COUNT, F.STK_WR_BYTES_COUNT] a) d
  let d := (scopePorts s).foldl (fun d p => d.fclear [F.LNK_TX_UNITS_COUNT, F.LNK_RX_UNITS_COUNT] (portAdd p)) d
  let d := (List.range 8).foldl (fun d w =>
    if !d.split || d.fget F.FAB_WIN_LEN_TENANT (16 * w) = tag then d.regReset (0x6000100 + 16 * w) (0x6000110 + 16 * w) else d) d
  let d := (d.regReset 0x6000200 0x6000400).regReset (0x6000400 + d.stepAdd (scopeHalf s)) (0x6000420 + d.stepAdd (scopeHalf s))
  let blk (lo hi : Nat) (d : Dev) : Dev :=
    (allEvents.filter fun e => lo ≤ e.bit.off && e.bit.off < hi).foldl (fun d e => (d.fset e.bit 0).fset e.cnt 0) d
  let d := blk 0x6008000 0x6009000 d
  let d := d.fclear [F.UPD_ELEMENTS_COUNT, F.UPD_MACS_COUNT, F.UPD_REFRESH_DONE, F.UPD_REFRESH_KEPT]
  let d := (blk 0x1200 0x1300 d).fclear [F.DEV_SRV_INGOTS_MIRRORED, F.DEV_SRV_INGOTS_RESTORED]
  if d.isFeedOf s then
    let d := d.fclear ((allEvents.filter fun e => e.bit.off == F.FED_EVENT_LINK_DOWN.off).map (·.cnt))
    let d := { d with feed := { d.feed with ckpt := none, cmds := d.feed.cmds.filter fun p => p.2.use == 0 } }
    ((d.regReset 0x8000050 0x8000078).setCursor [0, 0, 0, 0]).disarm
  else d

/-- WINNOW: from its start to the clears of the first millisecond (Table 18-8). -/
def Dev.winnow (d : Dev) (h : HalfId) (seq : Nat) : Dev :=
  d.begin h seq 0x12 fun d e =>
    let s := scopeOf (e.arg 24 1)
    let d := (d.supersede h).setScope s 6 1
    let d := ((d.fset F.SEC_STATUS_WINNOW_ACTIVE 1).fset F.MBX_RESET_CAUSE_LEVEL 7).closeRoles (· == .tenant s)
    let d := (d.endUnlocks fun _ => true).endBundles s
    let d := ((d.controllers s).foldl (fun d k => d.dropRun k) d).clearScope s
    let d := (d.controllers s).foldl (fun d k => d.setStaging k { (d.staging k) with a := [], b := [] }) (d.winnowRegs s)
    { d with mg := { d.mg with trace := [] }
             sec := { d.sec with winnows := fmSet d.sec.winnows (scopeNum s) (seq, d.now) } }

/-- The stack addresses of a scope. -/
def scopeStack (s : Scope) : Nat × Nat :=
  (if s = .east then 0x5000000000 else 0, if s = .west then 0x5000000000 else 0xA000000000)

/-- A stack of the scope is DEGRADED. -/
def Dev.degradedStack (d : Dev) (s : Scope) : Bool :=
  (List.range 8).any fun k => scopeHas s (stackHalf k) && d.flag F.STK_STATUS_DEGRADED (stackAdd k)

/-- WINNOW_END: the clears of the scope's stack memory have finished (`ok`), or have come only to an address. -/
def Dev.winnowEnd (d : Dev) (s : Scope) (ok : Bool) (upto : Nat) : Dev :=
  let key := scopeNum s
  match fmGet d.sec.winnows key with
  | none => d
  | some (seq, start) =>
    let (lo, hi) := scopeStack s
    let good := ok && !d.degradedStack s
    let d := d.zeroRange lo (if good then hi else min upto hi)
    if !good then (d.winnowFails s).setScope s 2 0
    else
      let d := d.finish (d.split && s == .east) seq stOk
      let d := (scopeHalves s).foldl (fun d k => if d.scopeState k = 2 then d.setTenant k 0 0 else d) d
      let d := { d with sec := { d.sec with winnows := fmErase d.sec.winnows key } }
      let d := (d.fsetB F.SEC_STATUS_WINNOW_ACTIVE (!d.sec.winnows.isEmpty)).setScope s 2 0
      (scopePorts s).foldl (fun d p => d.keySwitch p) (d.joinHalves.sbLog 0x0060 0 [start, d.now, stOk])

/-! ## The compute reset (R464, R465) -/

/-- The steps 1 to 4 of a compute reset; its own entry goes on. -/
def Dev.computeReset (d : Dev) (h : HalfId) (seq : Nat) : Dev :=
  d.begin h seq 0x13 fun d e =>
    let s := scopeOf (e.arg 24 1)
    let k := scopeHalf s
    if d.half k = 6 && d.halfSub k = 0 then d.finish h seq stOk
    else
      let d := (d.winnowFails s).supersede h
      let d := ((d.setScope s 6 0).fset F.MBX_RESET_CAUSE_LEVEL 5).endBundles s
      let d := (d.dropRun k).endStarted h seq
      let d := d.clearScope s
      let d := { d with feed := if d.isFeedOf s then { d.feed with ckpt := none } else d.feed }
      if d.isFeedOf s then d.disarm else d

/-- COMPUTE_RESET_DONE: the scope is IDLE, the command ends OK, the RESET entry is appended. -/
def Dev.computeResetDone (d : Dev) (s : Scope) : Dev :=
  let k := scopeHalf s
  if d.half k ≠ 6 || d.halfSub k ≠ 0 || (s == .whole) == d.split then d
  else
    let d := d.endWhere k (fun e => e.opcode == 0x13 && e.state == 2) 3 stOk
    (d.setScope s 2 0).resetEntry k 5

/-! ## The site reset (R468) -/

/-- The matrix state of a site is cleared: cell registers, shadows, accumulators, FLD_EVENT and FLD_EVCNT. -/
def Dev.clearSite (d : Dev) (site : Nat) : Dev :=
  let d := { d with insts := fmMap d.insts fun k i => if k / 64 = site then { i with blocks := [], acc := [] } else i }
  (allEvents.filter fun e => e.bit.off == F.FLD_EVENT_INT_SAT.off).foldl (fun d e =>
    (d.fset e.bit 0 (siteAdd site)).fset e.cnt 0 (siteAdd site)) (d.fset F.MBX_RESET_CAUSE_LEVEL 6)

/-- A compute reset of the site's half, or a test of the same site, is running (R469). -/
def Dev.resetRuns (d : Dev) (h : HalfId) (e : Entry) : Bool :=
  ((d.opHalves h e).any fun k => d.half k == 6 && d.halfSub k == 0) ||
    d.ledgers.any fun l => (d.led l).entries.any fun x =>
      x.opcode == 0x15 && x.state == 2 && x.arg 25 1 == 1 && x.arg 24 1 == e.arg 24 1

/-- The SITE_RESET command with a TEST value comes to its start; `k` carries it out, but during a reset of the same or a higher level
it ends OK with no further effect (R469). -/
def Dev.beginSite (d : Dev) (h : HalfId) (seq test : Nat) (k : Dev → Entry → Dev) : Dev :=
  match d.entry h seq with
  | none => d
  | some e =>
    if e.opcode = 0x15 && e.arg 25 1 = test then
      d.begin h seq 0x15 fun n e => if d.resetRuns h e then n.finish h seq stOk else k n e
    else d

/-- SITE_RESET: TEST 0. -/
def Dev.siteReset (d : Dev) (h : HalfId) (seq : Nat) : Dev :=
  d.beginSite h seq 0 fun d e => (d.clearSite (e.arg 24 1)).finish h seq stOk

/-- The 64 tiles of a site, by row × 8 + column (R19). -/
def siteTiles (site : Nat) : List Nat :=
  (List.range 64).map fun k => site / 4 * 256 + (site / 2 % 2 * 8 + k / 8) * 16 + site % 2 * 8 + k % 8

/-- SITE_TEST: TEST 1; the slices of the tiles are zero. -/
def Dev.siteTest (d : Dev) (h : HalfId) (seq : Nat) : Dev :=
  d.beginSite h seq 1 fun d e =>
    (siteTiles (e.arg 24 1)).foldl (fun d t => d.zeroRange (sliceBase t) (sliceBase t + 0x240000)) (d.clearSite (e.arg 24 1))

/-- SITE_TEST_DONE: bit k of `fails` says that site-local tile k failed: RESULT, and an entry on the repair page for each. -/
def Dev.siteTestDone (d : Dev) (h : HalfId) (seq fails : Nat) : Dev :=
  match d.entry h seq with
  | none => d
  | some e =>
    if e.opcode ≠ 0x15 || e.state ≠ 2 || e.arg 25 1 ≠ 1 then d else
    let d := (siteTiles (e.arg 24 1)).zipIdx.foldl (fun d p =>
      if bit fails p.2 then d.recordTile (p.1 / 256) (p.1 / 16 % 16) (d.physCol p.1) 0 else d) d
    (d.setResult h seq (fails % 2 ^ 64)).finish h seq stOk

end Sys2Proof.Machine
end

