-- ==== Sys2Proof/Machine/Routes.lean ====
section
/-! DEFINITION. Routes in physical coordinates: routers, links, the routers the stacks attach to (R245, R248, R530). -/

namespace Sys2Proof.Machine

/-- The physical column of a tile as a number, west half 0–16, east half 17–33 (R248, R249). -/
def Dev.lineCol (d : Dev) (t : Nat) : Nat := (if tileHalf t then 17 else 0) + d.physCol t

/-- The router of a tile: physical row, column as a number. -/
def Dev.router (d : Dev) (t : Nat) : Nat × Nat := (t / 16 % 16, d.lineCol t)

/-- The router through which the traffic of an address in stack memory enters and leaves its stack (R530). -/
def Dev.stackRouter (d : Dev) (a : Nat) : Nat × Nat :=
  let m := d.stackMap a
  let k := m.1 % 4
  (if k < 2 then 0 else 15, 17 * (m.1 / 4) + (if k % 2 = 0 then m.2.1 / 8 else 9 + m.2.1 / 8))

/-- The router at which the traffic of an address leaves the networks: that of its slice's tile, or of its stack. -/
def Dev.targetRouter (d : Dev) (a : Nat) : Nat × Nat :=
  match place a with
  | .scratch t _ => d.router t
  | _ => d.stackRouter a

/-- The numbers from a to b, both ends included, in the direction of travel. -/
def stretch (a b : Nat) : List Nat :=
  if a ≤ b then (List.range (b - a + 1)).map (a + ·) else (List.range (a - b + 1)).map (a - ·)

/-- The routers a route passes: along the source's row, west to east over the bridge between columns 16 and 17, then along the
destination's column (R245). -/
def routeOf (a b : Nat × Nat) : List (Nat × Nat) :=
  (stretch a.2 b.2).map (fun c => (a.1, c)) ++ ((stretch a.1 b.1).drop 1).map fun r => (r, b.2)

/-- The link directions a route between two tiles takes, and the tile it enters (R245). A link is (kind, row or column, from). -/
def Dev.links (d : Dev) (a b : Nat) : List (Nat × Nat × Nat) :=
  let p := d.router a
  let q := d.router b
  ((stretch p.2 q.2).dropLast.map fun c => (if p.2 ≤ q.2 then 0 else 1, p.1, c)) ++
    ((stretch p.1 q.1).dropLast.map fun r => (if p.1 ≤ q.1 then 2 else 3, q.2, r)) ++ [(4, 0, b)]

end Sys2Proof.Machine
end

