-- ==== Sys2Proof/Machine/LoadItems.lean ====
section
/-! DEFINITION. What the loader checks of one item of an image alone, section type by section type, in the order of R144: the
rows of Table 6-11 in table order, and then the rule that lays the item out (R162, R191, R214, R215, R259, R295, R312, R357,
R371). -/

namespace Sys2Proof.Machine

/-- An item of a section: its place in the section, its byte offset in the image, its bytes (of a CODE item the header and the
padded code). -/
structure It where
  s : Sect
  idx : Nat
  off : Nat
  b : List Byte
  deriving DecidableEq, Repr

/-- What the loader's checks look at: the device, the image, the half that a half image targets, the scope loaded. -/
structure Load where
  d : Dev
  b : List Byte
  half : Option HalfId
  scope : Scope
  deriving DecidableEq, Repr

/-- A check: the status it fails with, the offset of the field it concerns, whether it fails. -/
abbrev Chk := Nat × Nat × Bool

/-- The statuses of Table 6-11 beside the general ones. -/
def stRsv : Nat := 0x45
def stVal : Nat := 0x51
def stTile : Nat := 0x52

/-- The item size of a type; CODE has none (Table 6-3). -/
def itemSize (ty : Nat) : Nat :=
  match ty with
  | 1 => 8 | 2 => 128 | 3 => 16 | 4 => 80 | 5 => 32 | 6 => 24 | 7 => 128 | 9 => 16 | 10 => 128 | 11 => 32 | 12 => 64 | 13 => 64
  | _ => 0

/-- The types a configuration has its own section of (Table 6-3). -/
def perConfig (ty : Nat) : Bool := [1, 2, 5, 6, 7].contains ty

/-- The CODE items from a byte offset, as many as are left, up to one that runs past the section's end (R215). -/
def codeItemsFrom (b : List Byte) (s : Sect) : Nat → Nat → List It
  | 0, _ => []
  | n + 1, pos =>
    let size := 8 + (leAt b (pos + 4) 4 + 7) / 8 * 8
    ⟨s, s.count - (n + 1), pos, bytesAt b pos size⟩ ::
      (if s.off + s.len < pos + size then [] else codeItemsFrom b s n (pos + size))

/-- The items of a section in order. -/
def sectItems (b : List Byte) (s : Sect) : List It :=
  if s.ty = 8 then codeItemsFrom b s s.count s.off
  else (List.range s.count).map fun i => ⟨s, i, s.off + itemSize s.ty * i, bytesAt b (s.off + itemSize s.ty * i) (itemSize s.ty)⟩

/-- The items of a type and configuration. -/
def itsOf (b : List Byte) (ty : Nat) (cfg : Nat := 0xFF) : List It :=
  match sectOf b ty cfg with
  | some s => sectItems b s
  | none => []

def It.n (i : It) (o n : Nat) : Nat := leAt i.b o n

/-- Fields as (offset, bytes, first reserved bit) must have their reserved bits zero. -/
def It.rsv (i : It) (l : List (Nat × Nat × Nat)) : List Chk := l.map fun p => (stRsv, p.1, i.n p.1 p.2.1 / 2 ^ p.2.2 != 0)

/-- Fields as (offset, whether the value is reserved). -/
def vals (l : List (Nat × Bool)) : List Chk := l.map fun p => (stVal, p.1, p.2)
def counts (l : List (Nat × Bool)) : List Chk := l.map fun p => (stCountRange, p.1, p.2)

/-- A tile ID is above 511 or outside the target half. -/
def Load.badTile (l : Load) (t : Nat) : Bool := decide (511 < t) || l.half.any (· != tileHalf t)
def Load.tiles (l : Load) (xs : List (Nat × Nat)) : List Chk := xs.map fun p => (stTile, p.1, l.badTile p.2)

/-! ## Dataflow sections (Tables 6-4 to 6-10) -/

def placementChecks (l : Load) (i : It) : List Chk :=
  i.rsv [(0, 2, 9)] ++ vals [(2, 31 < i.n 2 1), (3, 12 < i.n 3 1)] ++ l.tiles [(0, i.n 0 2)] ++
    counts [(4, decide ((itsOf l.b 2 i.s.cfg).length ≤ i.n 4 4))]

/-- The inputs and outputs a class may have: least and most of each (Tables 5-1, 5-5). -/
def portLimits (cls : Nat) : (Nat × Nat) × (Nat × Nat) :=
  match cls with
  | 0 => ((1, 2), (0, 8)) | 1 => ((1, 8), (0, 8)) | 2 => ((0, 2), (1, 4)) | 3 => ((1, 3), (0, 1)) | 4 => ((0, 8), (0, 8))
  | 5 => ((2, 2), (2, 4)) | 6 => ((3, 5), (1, 1)) | 7 => ((2, 4), (1, 1)) | 8 | 10 => ((2, 2), (1, 1))
  | 9 | 11 => ((1, 1), (1, 1)) | 12 => ((1, 1), (2, 8)) | _ => ((0, 8), (0, 8))

/-- A vector instruction holds a reserved code (R191). -/
def VIns.reserved (v : VIns) : Bool :=
  !((1 ≤ v.op && v.op ≤ 0x20) || (0x24 ≤ v.op && v.op ≤ 0x27)) || decide (4 < v.ty) || v.rnd == 3 ||
    ((v.op == 0x1C || v.op == 0x1D) && decide (19 < v.c)) || (v.op == 0x20 && decide (3 < v.b))

/-- A conversion from or to an MX format. -/
def VIns.mxIn (v : VIns) : Bool := v.op == 0x1C && (cfmt v.c).mx
def VIns.mxOut (v : VIns) : Bool := v.op == 0x1D && (cfmt v.c).mx

/-- The output ports an instruction writes (R198). -/
def VIns.ports (v : VIns) : List Nat :=
  if v.op = 0x1E then [v.b] else if v.op = 0x1D then (if v.mxOut then [v.b, v.b + 1] else [v.b]) else []

/-- The parts of a token of a format, for a TYPE (R196). -/
def fmtParts (f : CFmt) (ty : Nat) : Nat := (if f.width = 6 then 64 else 512 / f.width) / (512 / elemW ty)

/-- PART lies beyond the token's parts (R196). -/
def VIns.partBad (v : VIns) : Bool :=
  (v.op == 0x1E && v.part != 0) || ((v.op == 0x1C || v.op == 0x1D) && decide (fmtParts (cfmt v.c) v.ty ≤ v.part))

/-- R191, but for the reserved codes that the row of Table 6-11 has found. -/
def vectorChecks (i : It) : List Chk :=
  let c := cfgOf 0 i.b
  let ks := List.range (min 16 c.vlen)
  let all (st : Nat) (p : Nat → VIns → Bool) : List Chk := ks.map fun k => (st, 64 + 4 * k, p k (c.vins k))
  counts [(56, 16 < c.vlen), (56, c.vlen = 0 && i.n 3 1 != 0)] ++
    all stCountRange (fun _ v => v.srcs.any fun n => n < 8 && decide (i.n 2 1 ≤ n)) ++
    all stCountRange (fun _ v => v.ports.any fun p => decide (i.n 3 1 ≤ p)) ++
    all stCountRange (fun _ v => v.partBad) ++
    all stVal (fun k v => v.srcs.any fun n => 16 ≤ n && decide (k ≤ n - 16)) ++
    all stVal (fun _ v => v.mxIn && [7, 15, 31].contains v.a) ++
    all stVal (fun _ v => v.mxOut && !paired v.ty) ++
    all stVal (fun _ v => 0x09 ≤ v.op && v.op ≤ 0x0C && decide (3 ≤ v.ty)) ++
    vals [(57, !([0, 1, 2, 4, 8, 16].contains c.vspan))] ++ all stVal (fun _ v => v.op == 0x20 && c.vspan == 0)

/-! ## Control-core code (R215, R526, R527) -/

/-- The code of a tile: the placed bytes of its CODE items, and where its data words lie. -/
def codeOf (b : List Byte) (t : Nat) : Tile :=
  ((itsOf b 8).filter fun i => i.n 0 2 == t).foldl (fun x i =>
    let o := x.code.length
    let n := i.b.length - 8
    { x with code := x.code ++ i.b.drop 8
             data := if i.n 2 2 = 0 then x.data else x.data ++ [(o + n - min n (8 * i.n 2 2), o + n)] }) Tile.init

/-- The byte offset of a CODE item in its tile's code. -/
def codeBase (b : List Byte) (i : It) : Nat :=
  ((itsOf b 8).filter fun j => j.n 0 2 == i.n 0 2 && decide (j.idx < i.idx)).foldl (fun n j => n + (j.b.length - 8)) 0

/-- An opcode of Table 8-9, with a CSR of it. -/
def ccKnown (w : Nat) : Bool :=
  let o := bits w 0 8
  o ≤ 0x0D || (0x10 ≤ o && o ≤ 0x17) || (0x20 ≤ o && o ≤ 0x29) || (0x30 ≤ o && o ≤ 0x32) || (0x40 ≤ o && o ≤ 0x43) ||
    (0x50 ≤ o && o ≤ 0x54) || (o == 0x55 && decide (bits w 18 14 ≤ 6)) || (0x60 ≤ o && o ≤ 0x63)

/-- The zero-fields of an instruction (Table 8-17). -/
def ccZeros (w : Nat) : Nat :=
  let o := bits w 0 8
  let rd := bits w 8 5
  let rs1 := bits w 13 5
  let top := bits w 28 4
  let rs3 := bits w 23 5
  if o ≤ 0x0D || o = 0x61 || o = 0x62 then top + rs3
  else if o = 0x17 || o = 0x40 || o = 0x42 || o = 0x55 || o = 0x26 then rs1
  else if o = 0x41 || o = 0x43 || o = 0x50 || o = 0x52 then rd
  else if o = 0x51 then top + rd
  else if o = 0x53 then rd + bits w 18 14
  else if o = 0x60 then rd + rs1
  else if o = 0x63 then top + rd + bits w 18 5 + rs3
  else if o = 0x28 || o = 0x29 then rd + rs1
  else if o = 0x54 then bits w 8 24
  else if o = 0x32 then top else 0

/-- The target of a branch, BEX, BNEX or JAL at a byte offset. -/
def ccTarget (w pc : Nat) : Option Int :=
  let o := bits w 0 8
  if 0x20 ≤ o && o ≤ 0x29 && o != 0x27 then some ((pc : Int) + 4 * ccImm w) else none

/-- The next word follows: every instruction word but JAL, JALR and EEND. -/
def ccFalls (w : Nat) : Bool := !([0x26, 0x27, 0x54].contains (bits w 0 8))

def codeChecks (l : Load) (i : It) : List Chk :=
  let x := codeOf l.b (i.n 0 2)
  let o := codeBase l.b i
  let pcs := ((List.range ((i.b.length - 8) / 4)).map fun k => o + 4 * k).filter fun (pc : Nat) => x.isInstr pc
  let each (p : Nat → Nat → Bool) : List Chk := pcs.map fun pc => (stVal, 8 + pc - o, p pc (leAt x.code pc 4))
  l.tiles [(0, i.n 0 2)] ++ [(stLenRange, 4, decide (i.s.off + i.s.len < i.off + 8 + (i.n 4 4 + 7) / 8 * 8))] ++
    [(stAlign, 4, i.n 4 4 % 4 != 0)] ++ counts [(2, (i.b.length - 8) / 8 < i.n 2 2)] ++
    each (fun _ w => !ccKnown w) ++ each (fun _ w => ccZeros w != 0) ++
    each (fun pc w => (ccTarget w pc).any fun t => !x.isInstr t) ++ each (fun pc w => ccFalls w && !x.isInstr (pc + 4 : Nat)) ++
    each (fun _ w => bits w 0 8 == 0x17 && (decide (ccImm w < 0) || decide ((x.code.length : Int) < 8 * ccImm w + 8))) ++
    each (fun _ w => bits w 0 8 == 0x60 && decide (63 < bits w 18 14))

/-- The tiles whose slots a UNITS item configures. -/
def tilesNaming (b : List Byte) (i : It) : List Nat := ((placements b i.s.cfg).filter fun p => p.unit == i.idx).map (·.tile)

def unitsChecks (l : Load) (i : It) : List Chk :=
  let cls := i.n 0 1
  let nin := i.n 2 1
  let nout := i.n 3 1
  let c := cfgOf 0 i.b
  let out (o : Nat) : Nat := i.n (24 + 4 * o) 4
  let used := (List.range 8).filter fun o => out o != 0xFFFFFFFF
  let usedIn := (List.range 8).filter fun k => i.n (8 + 2 * k) 2 != 0xFFFF
  let lim := portLimits cls
  i.rsv ((if cls = 9 then [] else [(4, 4, if cls = 11 then 8 else 0)]) ++ (used.map fun o => (27 + 4 * o, 1, 0)) ++
      (if cls = 1 then [(58, 1, 1), (59, 1, 0)] ++ (List.range 16).map fun k => (64 + 4 * k, 4, if k < c.vlen then 29 else 0)
       else if cls = 4 then [(60, 68, 0)] else [(56, 72, 0)])) ++
    vals ([(0, decide (12 < cls)), (1, i.n 1 1 == 0)] ++ (usedIn.map fun k => (8 + 2 * k, decide (127 < i.n (8 + 2 * k) 2))) ++
      (used.map fun o => (26 + 4 * o, decide (127 < bits (out o) 16 8))) ++
      (if cls = 1 then (List.range (min 16 c.vlen)).map fun k => (64 + 4 * k, (c.vins k).reserved) else [])) ++
    l.tiles (used.map fun o => (24 + 4 * o, out o % 65536)) ++
    counts ([(2, decide (nin < lim.1.1) || decide (lim.1.2 < nin)), (3, decide (nout < lim.2.1) || decide (lim.2.2 < nout))] ++
      (usedIn.map fun k => (8 + 2 * k, decide (nin ≤ k))) ++ (used.map fun o => (24 + 4 * o, decide (nout ≤ o)))) ++
    [(0x5E, 4, cls == 11 && i.n 4 1 &&& 0xF4 != 0)] ++
    (if cls = 1 then vectorChecks i
     else if cls = 4 then
      [(stAlign, 56, i.n 56 4 % 4 != 0),
       (stVal, 56, (tilesNaming l.b i).any fun t => !(codeOf l.b t).isInstr (i.n 56 4 : Nat))]
     else [])

def queuesChecks (l : Load) (i : It) : List Chk :=
  i.rsv [(10, 6, 0)] ++ vals [(2, 127 < i.n 2 1), (4, i.n 4 2 = 8192 && i.n 6 2 = 0)] ++ l.tiles [(0, i.n 0 2)] ++
    counts [(4, 8192 < i.n 4 2 + i.n 6 2), (8, i.n 6 2 < i.n 8 2)] ++ [(0x58, 3, decide (4 < i.n 3 1))]

def preloadChecks (l : Load) (i : It) : List Chk :=
  i.rsv [(3, 1, 0), (6, 10, 0)] ++ vals [(2, 127 < i.n 2 1), (4, 4 < i.n 4 2 % 8)] ++ l.tiles [(0, i.n 0 2)]

def reconvChecks (l : Load) (i : It) : List Chk :=
  i.rsv [(3, 1, 0), (26, 6, 0)] ++ vals [(2, 31 < i.n 2 1), (6, 31 < i.n 6 1), (7, 127 < i.n 7 1), (20, i.n 20 2 = 0)] ++
    l.tiles [(0, i.n 0 2), (4, i.n 4 2)]

/-- INT8 or INT4; an MX format (Table 3-1). -/
def fmtInt (f : Nat) : Bool := f == 8 || f == 9
def fmtMx (f : Nat) : Bool := decide (10 ≤ f)

def fieldsChecks (l : Load) (i : It) : List Chk :=
  let sh := shapeOf (i.n 2 1)
  let sf := i.n 4 1 % 16
  let mf := i.n 4 1 / 16
  let cfg := i.n 4 8
  let int := fmtInt sf || fmtInt mf
  let slide := bit cfg 12
  i.rsv [(4, 8, 20), (22, 2, 0)] ++ [(stRsv, 12, bits (i.n 12 8) 10 6 != 0 || bits (i.n 12 8) 29 35 != 0)] ++
    vals [(0, 7 < i.n 0 1), (1, 63 < i.n 1 1), (2, 6 < i.n 2 1), (4, 1 < bits cfg 10 2), (20, 127 < i.n 20 1),
      (21, if bit cfg 9 then 127 < i.n 21 1 else i.n 21 1 != 0xFF)] ++
    [(stTile, 0, l.half.any fun h => h != decide (4 ≤ i.n 0 1))] ++
    counts [(3, sh.2.2.2 < i.n 3 1), (1, i.n 3 1 ≤ i.n 1 1), (12, 64 * sh.1 < bits (i.n 12 8) 0 10),
      (12, 64 * sh.2.1 < bits (i.n 12 8) 16 13), (4, slide && (bits cfg 13 7 = 0 || 64 < bits cfg 13 7))] ++
    [(0x59, 4, fmtInt sf != fmtInt mf), (stNotLicensed, 4, bit cfg 8 && !l.d.licensed 1), (0x5A, 4, slide && fmtMx mf),
      (0x5B, 4, slide && bit cfg 8), (0x5C, 4, bit cfg 9 && int), (0x5D, 4, bits cfg 10 2 == 1 && int)]

/-- The scratchpad bytes that the image's split assigns to a tile (R222). -/
def scratchOf (b : List Byte) (t : Nat) : List Byte := (((itemsOf b 9 0xFF 16).find? fun i => leAt i 0 2 == t)).getD []
def regionOf (b : List Byte) (t : Nat) : Nat := let i := scratchOf b t; leAt i 4 4 + leAt i 8 4 + leAt i 12 4

/-- The configuration of a STREAM item, for its walk. -/
def streamCfg (i : It) : Cfg := { cfgOf 0 [] with cls := if i.n 3 1 < 4 then 2 else 3, extra := i.b }

def streamChecks (l : Load) (i : It) : List Chk :=
  let c := streamCfg i
  let lv := i.n 4 1
  let w := decide (4 ≤ i.n 3 1)
  let place := (placements l.b i.s.cfg).find? fun p => p.tile == i.n 0 2 && p.slot == i.n 2 1
  let set (o : Nat) : Bool := i.n o 1 != 0xFF
  let tl := [68, 69, 70, 71].filter set
  let roles := ((List.range 4).map fun p => i.n (64 + p) 1).filter (· != 0xFF)
  i.rsv ([(0, 2, 9), (6, 1, 5), (7, 1, 0)] ++ (if bit (i.n 6 1) 0 then [] else [(8, 8, 48)]) ++ [(78, 2, 0), (96, 32, 0)]) ++
    vals ([(2, decide (31 < i.n 2 1)), (3, decide (5 < i.n 3 1))] ++
      ((List.range 4).map fun p => (64 + p, set (64 + p) && decide (4 < i.n (64 + p) 1))) ++
      [(73, decide (2 < i.n 73 1)), (75, decide (3 < i.n 75 1)), (76, decide (3 < i.n 76 1)), (77, decide (3 < i.n 77 1))]) ++
    l.tiles [(0, i.n 0 2)] ++
    vals [(2, !place.any fun p => p.cls == 2 || p.cls == 3), (3, !place.any fun p => p.cls == c.cls)] ++
    counts ([(4, decide (6 < lv)), (5, i.n 5 1 == 0 || decide (64 < i.n 5 1))] ++
      ([68, 69, 70, 71, 72].map fun o => (o, set o && decide (lv ≤ i.n o 1))) ++
      [(74, (i.n 73 1 == 2 && decide (lv ≤ i.n 74 1)) || (i.n 73 1 == 1 && decide (63 < i.n 74 1)))]) ++
    vals ((tl.map fun o => (o, tl.any fun q => decide (q < o) && i.n q 1 == i.n o 1)) ++
      ([(68, 69), (70, 71)].map fun p => (p.2, !set p.1 && set p.2)) ++
      ([(68, 69), (70, 71)].map fun p => (p.2, set p.1 && decide (i.n p.1 1 ≤ i.n p.2 1))) ++
      [(72, set 72 && !([68, 70].any fun o => set o && i.n o 1 == i.n 72 1))]) ++
    [(stAlign, 8, bits (i.n 8 8) 0 48 % 64 != 0)] ++
    ((List.range 6).map fun k => (stAlign, 20 + 8 * k, i.n (20 + 8 * k) 4 % 64 != 0)) ++
    [(stLenRange, 8, !c.walkInBounds l.half (regionOf l.b) 0)] ++
    counts [(64, (w && roles.any (· != 0)) || roles.eraseDups.length != roles.length || (w && decide (1 < roles.length))),
      (92, decide (0xFFFFFFFF < i.n 92 4 * i.n 80 4))]

def scratchChecks (l : Load) (i : It) : List Chk :=
  i.rsv [(2, 2, 0)] ++ l.tiles [(0, i.n 0 2)] ++ ([4, 8, 12].map fun o => (stAlign, o, i.n o 4 % 4096 != 0)) ++
    [(stLenRange, 4, decide (2359296 < i.n 4 4 + i.n 8 4 + i.n 12 4))]

def fabricChecks (l : Load) (i : It) : List Chk :=
  let len (a : Nat) : Nat := i.n (2 * a) 2
  let role (a : Nat) : Nat := i.n (8 + a) 1
  let product := len 0 * len 1 * len 2 * len 3
  i.rsv (((List.range 15).flatMap fun p => [(14 + 4 * p, 1, 1), (15 + 4 * p, 1, 0)]) ++ [(72, 8, 60), (80, 48, 0)]) ++
    vals ((List.range 4).map fun a => (8 + a, decide (4 < role a))) ++
    counts (((List.range 4).map fun a => (2 * a, len a == 0 || decide (256 < len a))) ++
      [(0, decide (8192 < product) || 8 * product != leAt l.b 0x18 4)]) ++
    ((List.range 4).map fun a => (0x5F, 8 + a, role a != 4 && (List.range a).any fun k => role k == role a)) ++
    [(0x60, 72, (List.range 15).any fun p => bits (i.n 72 8) (4 * p) 4 == 15)]

/-! ## Schedule, survival, step -/

def scheduleChecks (l : Load) (i : It) : List Chk :=
  let recv := i.n 1 1 == 1
  let size := siBufs i.b * siUnits i.b * 64
  let ring := match place (siDest i.b) with
    | .stack => !l.d.tenantRange l.scope (siDest i.b) size
    | .scratch t o => l.badTile t || decide (regionOf l.b t < o + size)
    | _ => true
  match i.n 0 1 with
  | 0 =>
    i.rsv [(17, 1, 0), (26, 6, 0)] ++
      vals [(1, 1 < i.n 1 1), (2, 0x8000 ≤ i.n 2 2), (6, 1 < i.n 6 1), (7, !recv && siSched i.b && 14 < i.n 7 1),
        (11, recv && 2 < i.n 11 1), (12, 1 < i.n 12 1), (16, (if recv then 127 else 31) < i.n 16 1)] ++
      l.tiles [(14, i.n 14 2)] ++
      counts [(8, i.n 8 2 = 0), (13, recv && i.n 11 1 = 2 && layerCount l.b ≤ i.n 13 1),
        (10, recv && (i.n 10 1 = 0 || 64 < i.n 10 1))] ++ [(stLenRange, 18, recv && ring)]
  | 1 =>
    i.rsv [(3, 1, 0), (6, 2, 0), (20, 12, 0)] ++
      vals [(1, 3 < i.n 1 1), (2, 14 < i.n 2 1), (12, i.n 12 4 = 0 && i.n 16 4 != 1)]
  | _ => vals [(0, true)]

/-- The stack ranges an item of SURVIVAL names, as (field, address, bytes); those of layer regions lie in the shards (R371). -/
def survRanges (b : List Byte) (i : It) : List (Nat × Nat × Nat) :=
  let slot := 4096 * (hiIngots i.b + 1 + if hiTensor i.b = 0xFFFF then 0 else digestIngots (hiIngots i.b))
  match i.n 0 1 with
  | 0 => [(16, shParity i.b, 8192 * shGroups i.b), (24, shState i.b, 4096)] ++
      (if 1 < shCadence i.b then [(32, shSnap i.b, 4096 * unitCount b)] else [])
  | 1 => if tiRegion i.b = 0 then [(8, tiBase i.b, 4096 * tiIngots i.b)] else []
  | _ => (8, hiSlot i.b false, slot) :: (if hiTensor i.b = 0xFFFF then [] else [(16, hiSlot i.b true, slot)])

/-- The ranges of an item that lie outside tenant stack memory. -/
def Load.rangesOut (l : Load) (rs : List (Nat × Nat × Nat)) : List Chk :=
  rs.map fun r => (stLenRange, r.1, !l.d.tenantRange l.scope r.2.1 r.2.2)

def survivalChecks (l : Load) (i : It) : List Chk :=
  let me := leAt l.b 0x1C 2
  let feed := l.d.fget F.DEV_STRAPS_FEED_ID % 16
  let rs := survRanges l.b i
  match i.n 0 1 with
  | 0 =>
    i.rsv [(1, 1, 1), (7, 1, 0), (11, 1, 0), (40, 24, 0)] ++
      [(stFeedShared, 6, shImgFeeds i.b % 16 == feed || shImgFeeds i.b / 16 == feed)] ++
      counts [(8, shGroups i.b = 0 || 16384 < shGroups i.b), (10, shCadence i.b = 0)] ++
      vals [(2, shImgHolder i.b = me), (4, shImgAlt i.b = me), (32, decide (1 < shCadence i.b) == (shSnap i.b == 0))] ++
      ([16, 24, 32].map fun o => (stAlign, o, i.n o 8 % 4096 != 0)) ++ l.rangesOut rs
  | 1 =>
    let esc := tiEscrow i.b
    i.rsv ([(28, 1, 2), (29, 35, 0)] ++ if tiRegion i.b = 0 then [] else [(8, 8, 0)]) ++
      vals [(1, 1 < i.n 1 1), (2, 2 < i.n 2 1), (3, 5 < i.n 3 1), (6, 4096 ≤ tiTensor i.b)] ++
      counts [(4, tiRegion i.b != 0 && layerCount l.b ≤ tiLayer i.b)] ++
      [(stFeedShared, 21, esc && (tiFeeds i.b % 16 == feed || (tiAltValid i.b && tiFeeds i.b / 16 == feed)))] ++
      vals [(22, esc && tiPartner i.b = me), (24, esc && tiAltValid i.b && tiAlt i.b = me),
        (24, esc && tiAltValid i.b && tiAlt i.b = tiPartner i.b), (20, !esc && i.n 20 1 != 0)] ++
      [(stAlign, 8, tiBase i.b % 4096 != 0)] ++ l.rangesOut rs ++
      [(stLenRange, 16, !esc && tiChange i.b == 0 && decide (1024 < tiIngots i.b))]
  | 2 =>
    i.rsv ([(1, 1, 0)] ++ (if hiTensor i.b = 0xFFFF then [(16, 8, 0)] else []) ++ [(28, 36, 0)]) ++
      vals [(4, 4096 ≤ hiTensor i.b && hiTensor i.b != 0xFFFF)] ++
      ([8, 16].map fun o => (stAlign, o, i.n o 8 % 4096 != 0)) ++ l.rangesOut rs
  | _ => vals [(0, true)]

def stepChecks (l : Load) (i : It) : List Chk :=
  let b := i.b
  let vt := i.n 17 1
  match i.n 0 1 with
  | 0 =>
    i.rsv [(3, 1, 0), (18, 2, 0), (36, 28, 0)] ++
      counts [(1, i.n 1 1 = 0 || 64 < i.n 1 1), (4, i.n 4 2 = 0 || 256 < i.n 4 2), (8, i.n 8 4 ≤ vt),
        (12, i.n 12 4 = 0 || i.n 12 4 < vt), (16, i.n 16 1 = 0), (17, vt = 0)]
  | 1 =>
    let eager := isEager l.b
    i.rsv [(3, 1, 1), (4, 4, 0), (32, 32, 0)] ++ ([8, 16, 24].map fun o => (stAlign, o, i.n o 8 % 4096 != 0)) ++
      l.rangesOut ((if lrBytes b = 0 then [] else [(8, lrShard b false, lrBytes b)]) ++
        (if lrBytes b = 0 || lrShard b true = 0 then [] else [(16, lrShard b true, lrBytes b)])) ++
      vals [(16, if eager then lrShard b true != 0 else lrUpdate b && lrShard b true = 0)]
  | 2 => i.rsv [(3, 61, 0)] ++ vals [(2, 1 < i.n 2 1)]
  | 3 =>
    i.rsv [(2, 2, 0), (39, 25, 0)] ++ ((List.range 5).map fun k => (stBadFormat, 16 + 4 * k, i.n (16 + 4 * k) 4 / 2 ^ 23 % 256 == 255)) ++
      [(stBadFormat, 38, scEvery b != 0 && (scIters b == 0 || decide (32 < scIters b))),
       (stCountRange, 4, decide (2 ^ 64 < scFirst b + scCount b))]
  | 4 =>
    i.rsv [(3, 1, 0), (8, 56, 0)] ++ vals [(1, 5 < i.n 1 1)] ++ counts [(2, configCount l.b ≤ i.n 2 1)]
  | _ => vals [(0, true)]

/-- The checks of one item. -/
def Load.itemChecks (l : Load) (i : It) : List Chk :=
  match i.s.ty with
  | 1 => placementChecks l i
  | 2 => unitsChecks l i
  | 3 => queuesChecks l i
  | 4 => preloadChecks l i
  | 5 => reconvChecks l i
  | 6 => fieldsChecks l i
  | 7 => streamChecks l i
  | 8 => codeChecks l i
  | 9 => scratchChecks l i
  | 10 => fabricChecks l i
  | 11 => scheduleChecks l i
  | 12 => survivalChecks l i
  | _ => stepChecks l i

end Sys2Proof.Machine
end

