-- ==== Sys2Proof/Machine/LoadCross.lean ====
section
/-! DEFINITION. What the loader checks across the items of an image, after the last item: the remaining rows of phase 3 of Table
6-11 in table order, then R279, R295, R312, R357 and R371 (R144); and how a failure is named in the report (R146). -/

namespace Sys2Proof.Machine

/-- A check that failed: the status, the directory index, the item index, the byte offset in the image (R146). -/
structure Bad where
  st : Nat
  dir : Nat
  item : Nat
  off : Nat
  deriving DecidableEq, Repr

/-- A failure of an item, at a field. -/
def It.bad (i : It) (st : Nat) (o : Nat := 0) : Bad := ⟨st, i.s.at_, i.idx, i.off + o⟩

/-- A failure across the items of one section. -/
def Sect.bad (s : Sect) (st : Nat) : Bad := ⟨st, s.at_, 0xFFFFFFFF, s.off⟩

/-- A failure between two items names the later one in the loader's order, with its first byte. -/
def laterBad (st : Nat) (i j : It) : Bad :=
  if i.s.at_ < j.s.at_ || (i.s.at_ = j.s.at_ && i.idx ≤ j.idx) then j.bad st else i.bad st

/-- The first failure of a list of checks in order. -/
def firstBad (l : List (Option Bad)) : Option Bad := l.findSome? id

/-- The first item of a list that fails against an earlier one. -/
def clash (st : Nat) (p : It → It → Bool) : List It → List It → Option Bad
  | _, [] => none
  | seen, i :: is => if seen.any (p · i) then some (i.bad st) else clash st p (seen ++ [i]) is

/-- The sections of a type, in directory order. -/
def sectsTy (b : List Byte) (ty : Nat) : List Sect := (sectsOf b).filter (·.ty == ty)

/-- The first failing item of the sections of a type. -/
def findIn (b : List Byte) (ty : Nat) (f : It → Option Bad) : Option Bad :=
  (sectsTy b ty).findSome? fun s => (sectItems b s).findSome? f

/-! ## Rows of Table 6-11 -/

/-- PLACEMENT.CLASS differs from UNITS.CLASS. -/
def classDiffers (l : Load) : Option Bad :=
  findIn l.b 1 fun i =>
    match (itsOf l.b 2 i.s.cfg)[i.n 4 4]? with
    | some u => if u.n 0 1 = i.n 3 1 then none else some (laterBad stVal i u)
    | none => none

/-- Two PLACEMENT items name one slot, or two STREAM items bind one engine of one tile. -/
def slotConflict (l : Load) : Option Bad :=
  (sectsOf l.b).findSome? fun s =>
    if s.ty = 1 then clash 0x53 (fun i j => i.n 0 3 == j.n 0 3) [] (sectItems l.b s)
    else if s.ty = 7 then clash 0x53 (fun i j => i.n 0 2 == j.n 0 2 && i.n 3 1 == j.n 3 1) [] (sectItems l.b s)
    else none

/-- A stream placement without a STREAM item for its slot. -/
def streamMissing (l : Load) : Option Bad :=
  findIn l.b 1 fun i =>
    if (i.n 3 1 = 2 || i.n 3 1 = 3) && (streamItem l.b i.s.cfg (i.n 0 2) (i.n 2 1)).isNone then some (i.bad stVal 3) else none

/-- The units of a class one tile may hold (Table 5-1). -/
def classLimit (cls : Nat) : Nat := (([1, 16, 4, 2, 8] : List Nat)[cls]?).getD 32

/-- Some key occurs more often among a list than a limit allows. -/
def tooMany (ks : List Nat) (limit : Nat → Nat) : Bool := ks.any fun k => decide (limit k < ks.count k)

/-- Class limits, the queues of a tile, preload counts. -/
def countRow (l : Load) : Option Bad :=
  let qs := itsOf l.b 3
  let ps := itsOf l.b 4
  (sectsOf l.b).findSome? fun s =>
    let is := sectItems l.b s
    if s.ty = 1 then
      if tooMany (is.map fun i => i.n 0 2 * 256 + i.n 3 1) fun k => classLimit (k % 256) then some (s.bad stCountRange) else none
    else if s.ty = 3 then
      firstBad [(is.find? fun i => i.n 8 2 != (ps.filter fun p => p.n 0 3 == i.n 0 3).length).map (·.bad stCountRange 8),
        if tooMany (is.map fun i => i.n 0 2) fun _ => 128 then some (s.bad stCountRange) else none]
    else if s.ty = 4 then
      (is.find? fun i => !qs.any fun q => q.n 0 3 == i.n 0 3).map (·.bad stCountRange 2)
    else none

/-- Two queues of one tile overlap, or one queue is declared twice. -/
def queueOverlap (l : Load) : Option Bad :=
  clash 0x54 (fun i j => i.n 0 2 == j.n 0 2 && (i.n 2 1 == j.n 2 1 ||
    (i.n 6 2 != 0 && j.n 6 2 != 0 && decide (i.n 4 2 < j.n 4 2 + j.n 6 2) && decide (j.n 4 2 < i.n 4 2 + i.n 6 2)))) [] (itsOf l.b 3)

/-- A tile's code is above 65,536 bytes. -/
def codeSize (l : Load) : Option Bad :=
  (sectsTy l.b 8).findSome? fun s =>
    if (sectItems l.b s).any fun i => decide (65536 < (codeOf l.b (i.n 0 2)).code.length) then some (s.bad stLenRange) else none

/-- The unit that writes a queue in a configuration, with its tile and output port. -/
def writerOf (b : List Byte) (cfg : Nat) (q : Nat × Nat) : Option (Nat × Cfg × Nat) :=
  (placements b cfg).findSome? fun p =>
    match slotCfg b cfg p.tile p.slot with
    | some c => ((List.range c.outs.length).find? fun o => (c.outs[o]?).getD none == some q).map fun o => (p.tile, c, o)
    | none => none

/-- The ACC_MODEs of the run tokens a reader's walk can emit: the last computed tile of an output unit takes RUN_LAST, with two or more
the first takes RUN_FIRST, with three or more the others take RUN_MID (R170). -/
def readerModes (c : Cfg) : List Nat :=
  let n := match c.red with
    | some r => c.lcount r
    | none => 1
  if c.levels = 0 || (List.range c.levels).any (fun l => c.lcount l == 0) then []
  else [c.sd 77 1] ++ (if 2 ≤ n then [c.sd 75 1] else []) ++ (if 3 ≤ n then [c.sd 76 1] else [])

/-- The data inputs of a steering unit. -/
def Cfg.dataIns (c : Cfg) : List Nat := if c.cls = 6 then List.range (c.ins.length - 1) else if c.cls = 7 then List.range c.ins.length else [0]

/-- The ACC_MODEs of the run tokens that an image gives a queue: its preloaded CTRL tokens, and those of the readers that write it or
reach it through steering units; `none`: some other unit writes there, and the image does not settle its tokens (R101). -/
def runModes (b : List Byte) (cfg : Nat) : Nat → Nat × Nat → Option (List Nat)
  | 0, _ => none
  | n + 1, q =>
    let pre := if cfg = 0 then ((itemsOf b 4 0xFF 80).filter fun i => leAt i 0 2 == q.1 && leAt i 2 1 == q.2 && leAt i 4 2 % 8 == kCtrl).map
      fun i => bits (leAt i 16 8) 32 3 else []
    match writerOf b cfg q with
    | none => some pre
    | some (t, c, o) =>
      if c.cls = 2 then (if c.sd (64 + o) 1 = 1 then some (pre ++ readerModes c) else none)
      else if 5 ≤ c.cls && c.cls ≤ 12 then
        (c.dataIns.filterMap c.inq).foldl (fun a k =>
          match a, runModes b cfg n (t, k) with
          | some x, some y => some (x ++ y)
          | _, _ => none) (some pre)
      else none

/-- ROW_SCALE on an instance to which its image gives only PASS or INIT runs (R101). -/
def rowScaleRuns (l : Load) : Option Bad :=
  findIn l.b 6 fun f =>
    if !bit (f.n 4 8) 9 then none else
    let t := blockTile (f.n 0 1) (f.n 2 1) (f.n 1 1) 0
    match runModes l.b f.s.cfg ((placements l.b f.s.cfg).length + 1) (t, f.n 20 1) with
    | some ms => if !ms.isEmpty && ms.all (· ≤ 1) then some (f.bad 0x5C) else none
    | none => none

/-- Table 2-5: the units of one scheduled slot of a port. -/
def slotUnits (profile port : Nat) : Nat :=
  let u := if profile = 0 then 360 else if profile = 1 then 368 else 373
  if port < 8 then 2 * u else u

/-- The scheduled send stream of a slot item: its XFER on its PORT. -/
def streamOfSlot (l : Load) (i : It) : Option It :=
  (itsOf l.b 11).find? fun s => isStreamItem 0 s.b && siSched s.b && s.n 2 2 == i.n 4 2 && s.n 7 1 == i.n 2 1

/-- A slot item occurs at a tick of the attempt (Table 14-7). -/
def occursAt (i : It) (t : Nat) : Bool :=
  let f := i.n 8 4
  let p := i.n 12 4
  f ≤ t && (if p = 0 then t == f && i.n 16 4 != 0 else (t - f) % p == 0 && decide ((t - f) / p < i.n 16 4))

/-- The items of one slot of one port that have come before or with an item carry more than Table 2-5 allows in some tick. -/
def slotOverfull (l : Load) (i : It) : Bool :=
  let same := (itsOf l.b 11).filter fun j => j.n 0 1 == 1 && j.n 1 2 == i.n 1 2 && decide (j.idx ≤ i.idx)
  (List.range (i.n 16 4)).any fun k =>
    let t := i.n 8 4 + k * i.n 12 4
    let used := (same.filter (occursAt · t)).foldl (fun n j => n + ((streamOfSlot l j).map fun s => siUnits s.b).getD 0) 0
    decide (slotUnits (leAt l.b 0x0B 1) (i.n 2 1) < used)

/-- The slot items. -/
def slotCheck (l : Load) (f : It → Option Bad) : Option Bad := findIn l.b 11 fun i => if i.n 0 1 = 1 then f i else none

/-- The FABRIC item. -/
def Load.fabric (l : Load) : Option It := (itsOf l.b 10).head?

/-- A scheduled transfer uses a slot outside its port's mask. -/
def slotUnmasked (l : Load) : Option Bad :=
  slotCheck l fun i =>
    match l.fabric with
    | some f => if bit (f.n 72 8) (4 * i.n 2 1 + i.n 1 1) then none else some (laterBad 0x61 i f)
    | none => none

/-- The holders an item of SURVIVAL names: the image holders, or an escrow tensor's partner and valid alternate. -/
def holdersOf (i : It) : List Nat :=
  if i.n 0 1 = 0 then [shImgHolder i.b, shImgAlt i.b]
  else if i.n 0 1 = 1 && tiEscrow i.b then tiPartner i.b :: (if tiAltValid i.b then [tiAlt i.b] else []) else []

/-- A holder is more than 4 hops away (R346). -/
def escrowHops (l : Load) : Option Bad :=
  findIn l.b 12 fun i =>
    match l.fabric with
    | some f =>
      let axes := (List.range 4).map fun a => max 1 (f.n (2 * a) 2)
      if (holdersOf i).any fun h => decide (4 < hops axes (leAt l.b 0x1C 2) h) then some (laterBad 0x62 i f) else none
    | none => none

/-! ## STEP (R279, R295, R312) -/

/-- The STEP items of a kind. -/
def stepIts (l : Load) (k : Nat) : List It := (itsOf l.b 13).filter fun i => i.n 0 1 == k

/-- A LONGEST above LONGEST_PASS (R279). -/
def longestPass (l : Load) : Option Bad :=
  ((stepIts l 4).find? fun i => decide (leAt l.b 0x24 4 < i.n 4 4)).map (·.bad stCountRange 4)

/-- One step record, every layer and every pass kind exactly once (R295). -/
def stepComplete (l : Load) : Option Bad :=
  let n := layerCount l.b
  let once (is : List It) (k : Nat) : Bool := (is.filter fun i => i.n 1 1 == k).length == 1
  let ok := (stepIts l 0).length == 1 && (stepIts l 1).length == n && (List.range n).all (once (stepIts l 1)) &&
    (stepIts l 4).length == 6 && (List.range 6).all (once (stepIts l 4))
  if ok then none else (sectsTy l.b 13).head?.map (·.bad stCountRange)

/-- The shard ranges of a layer record. -/
def shardRanges (i : It) : List (Nat × Nat) :=
  (lrShard i.b false, lrBytes i.b) :: (if lrShard i.b true = 0 then [] else [(lrShard i.b true, lrBytes i.b)])

/-- Two ranges share a byte. -/
def meets (a b : Nat × Nat) : Bool := a.2 != 0 && b.2 != 0 && decide (a.1 < b.1 + b.2) && decide (b.1 < a.1 + a.2)

/-- The first range of a list that meets an earlier one, by the item that names it. -/
def rangeClash (st : Nat) : List (Nat × Nat) → List (It × Nat × Nat) → Option Bad
  | _, [] => none
  | seen, r :: rs => if seen.any (meets · r.2) then some (r.1.bad st) else rangeClash st (seen ++ [r.2]) rs

def shardOverlap (l : Load) : Option Bad :=
  rangeClash stLenRange [] ((stepIts l 1).flatMap fun i => (shardRanges i).map fun r => (i, r))

/-- Two schedule records clash, or there are more than 4,096 (R312). -/
def schedTable (l : Load) : Option Bad :=
  firstBad [clash stBadFormat (fun i j => schedClash i.b j.b) [] (stepIts l 3),
    if 4096 < (stepIts l 3).length then (sectsTy l.b 13).head?.map (·.bad stNoResource) else none]

/-! ## SCHEDULE (R357) -/

/-- The STREAM items of a send item's writer, in any configuration. -/
def writersOf (l : Load) (i : It) : List It :=
  (List.range (configCount l.b)).flatMap fun n => (itsOf l.b 7 n).filter fun s => s.n 0 2 == siTile i.b && s.n 2 1 == siSlotQ i.b

/-- A send item that carries the sums of an ADD_FORWARD item. -/
def isNext (l : Load) (i : It) : Bool :=
  (itsOf l.b 11).any fun r => isStreamItem 1 r.b && r.n 11 1 == 1 && r.n 24 2 == siXfer i.b

/-- The rows of a full walk. -/
def walkRows (i : It) : Nat := if i.n 4 1 = 0 then 0 else (streamCfg i).iters

def sendCheck (l : Load) (f : It → Option Bad) : Option Bad := findIn l.b 11 fun i => if isStreamItem 0 i.b then f i else none

/-- The checks of R357 that concern several items, in its order. -/
def scheduleCross (l : Load) : Option Bad :=
  firstBad [
    slotCheck l fun i => if (streamOfSlot l i).isNone then some (i.bad stVal 4) else none,
    sendCheck l fun i =>
      match l.fabric with
      | some f =>
        let p := i.n 7 1
        if siSched i.b && (f.n (12 + 4 * p) 2 != siPeer i.b || bit (f.n (14 + 4 * p) 1) 0) then some (laterBad stVal i f) else none
      | none => none,
    sendCheck l fun i => ((writersOf l i).find? fun s => walkRows s != siUnits i.b).map (laterBad stCountRange i),
    sendCheck l fun i =>
      let ws := writersOf l i
      if ws.isEmpty then (if isNext l i then none else some (i.bad stCountRange 14))
      else (ws.find? fun s => !(4 ≤ s.n 3 1 && bit (s.n 6 1) 0 && s.n 14 2 == siPeer i.b)).map (laterBad stCountRange i)]

/-! ## SURVIVAL (R371) -/

/-- The SURVIVAL items of a kind. -/
def survIts (l : Load) (k : Nat) : List It := (itsOf l.b 12).filter fun i => i.n 0 1 == k

/-- The checks of R371 that concern several items, in its order. -/
def survivalCross (l : Load) : Option Bad :=
  match (sectsTy l.b 12).head? with
  | none => none
  | some s =>
    let g := (survIts l 0).head?
    let ts := survIts l 1
    let whole (b : Bool) : Option Bad := if b then some (s.bad stCountRange) else none
    let layer (i : It) : Option It := (stepIts l 1).find? fun r => r.n 1 1 == tiLayer i.b
    firstBad [
      whole ((survIts l 0).length != 1), whole (decide (4096 < ts.length) || decide (8192 < (survIts l 2).length)),
      ts.findSome? fun i =>
        match g with
        | some h => if tiEscrow i.b && i.n 20 1 != shCadence h.b then some (laterBad stCountRange i h) else none
        | none => none,
      whole (g.any fun h => decide (7 * shGroups h.b < unitCount l.b)),
      ts.findSome? fun i =>
        match layer i with
        | some r => if tiRegion i.b ≠ 0 && !lrUpdate r.b then some (laterBad stVal i r) else none
        | none => none,
      clash stVal (fun i j => tiTensor i.b == tiTensor j.b) [] ts,
      rangeClash stLenRange [] ((itsOf l.b 12).flatMap fun i => (survRanges l.b i).map fun r => (i, r.2)),
      ts.findSome? fun i =>
        (stepIts l 1).findSome? fun r =>
          if tiRegion i.b = 0 && (shardRanges r).any (meets (tiBase i.b, 4096 * tiIngots i.b)) then some (laterBad stLenRange i r)
          else none]

/-- No item of a CODE section runs past its end, and yet the items do not fill it exactly (R215). -/
def codeUnfilled (b : List Byte) (s : Sect) : Bool :=
  let is := sectItems b s
  s.ty == 8 && is.all (fun i => decide (i.off + i.b.length ≤ s.off + s.len)) &&
    !(is.length == s.count && (is.getLast?.map fun i => i.off + i.b.length).getD s.off == s.off + s.len)

/-- The first check that an item fails. That a CODE section is not filled comes between the rows of Table 6-11 and the other checks of
its first item, and names the section (R144, R146, R215). -/
def Load.itemBad (l : Load) (i : It) : Option Bad :=
  match (l.itemChecks i).find? (·.2.2) with
  | some c => if codeUnfilled l.b i.s && c.1 != stTile then some (i.s.bad stLenRange) else some (i.bad c.1 c.2.1)
  | none => if codeUnfilled l.b i.s then some (i.s.bad stLenRange) else none

/-- Phase 3 (R144): item by item, then across items. -/
def Load.phase3 (l : Load) : Option Bad :=
  firstBad [
    (sectsOf l.b).findSome? fun s =>
      firstBad [
        (sectItems l.b s).findSome? l.itemBad,
        if codeUnfilled l.b s then some (s.bad stLenRange) else none],
    classDiffers l, slotConflict l, streamMissing l, countRow l, queueOverlap l, codeSize l, rowScaleRuns l,
    slotCheck l fun i => if slotOverfull l i then some (i.bad stLenRange) else none,
    slotUnmasked l, escrowHops l, longestPass l, stepComplete l, shardOverlap l, schedTable l, scheduleCross l, survivalCross l]

end Sys2Proof.Machine
end

