-- ==== Sys2Proof/Machine/LoadGraph.lean ====
section
/-! DEFINITION. What the loader checks of the unit graph of each configuration and of the resources (phases 4 and 5 of Table 6-11:
R115, R125, R128–R130, R156, R249–R252, R371, R474). -/

namespace Sys2Proof.Machine

/-- A placed unit of a configuration, with its UNITS item. -/
structure GUnit where
  it : It
  tile : Nat
  slot : Nat
  cfg : Cfg
  deriving DecidableEq, Repr

/-- The placed units of a configuration, in UNITS section order. -/
def graphOf (b : List Byte) (n : Nat) : List GUnit :=
  (itsOf b 2 n).flatMap fun i =>
    ((placements b n).filter fun p => p.unit == i.idx).map fun p => ⟨i, p.tile, p.slot, cfgOf n (recordOf b n p)⟩

/-- The queues that a unit's live inputs and outputs name. -/
def GUnit.ins (u : GUnit) : List (Nat × Nat) := (u.cfg.ins.filterMap id).map fun q => (u.tile, q)
def GUnit.outs (u : GUnit) : List (Nat × Nat) := u.cfg.outs.filterMap id

/-- A unit is the one in a tile's slot. -/
def GUnit.isAt (u : GUnit) (t s : Nat) : Bool := u.tile == t && u.slot == s
def GUnit.same (u v : GUnit) : Bool := u.isAt v.tile v.slot

/-- The QUEUES item of a queue. -/
def queueIt (b : List Byte) (q : Nat × Nat) : Option It := (itsOf b 3).find? fun i => i.n 0 2 == q.1 && i.n 2 1 == q.2

/-- The QUEUES items' queue. -/
def It.queue (i : It) : Nat × Nat := (i.n 0 2, i.n 2 1)

/-- The closure of a list under a successor function, in at most `fuel` rounds. -/
def closure {α : Type} [BEq α] (succ : α → List α) : Nat → List α → List α
  | 0, l => l
  | n + 1, l =>
    let new := ((l.flatMap succ).filter fun x => !l.contains x).eraseDups
    if new.isEmpty then l else closure succ n (l ++ new)

/-! ## Queues (R114, R115, R125) -/

/-- The first QUEUES or UNITS item of configuration n, in the loader's order, that fails. -/
def findQU (b : List Byte) (n : Nat) (st : Nat) (fq fu : It → Bool) : Option Bad :=
  (sectsOf b).findSome? fun s =>
    if s.ty = 3 then ((sectItems b s).find? fq).map (·.bad st)
    else if s.ty = 2 && s.cfg = n then ((sectItems b s).find? fu).map (·.bad st) else none

def queueMulti (b : List Byte) (n : Nat) : Option Bad :=
  let g := graphOf b n
  findQU b n 0x56 (fun i => decide (1 < (g.flatMap GUnit.outs).count i.queue) || decide (1 < (g.flatMap GUnit.ins).count i.queue))
    fun _ => false

/-- A queue with only one end, a port that names no queue of QUEUES, a steering unit with an unused port. -/
def queueDangling (b : List Byte) (n : Nat) : Option Bad :=
  let g := graphOf b n
  let os := g.flatMap GUnit.outs
  let is := g.flatMap GUnit.ins
  findQU b n 0x57 (fun i => os.contains i.queue != is.contains i.queue) fun i =>
    g.any fun u => u.it == i && ((u.ins ++ u.outs).any (fun q => (queueIt b q).isNone) ||
      (decide (5 ≤ u.cfg.cls) && (u.cfg.ins.any (·.isNone) || u.cfg.outs.any (·.isNone))))

def queueZeroDepth (b : List Byte) (n : Nat) : Option Bad :=
  let g := graphOf b n
  findQU b n 0x55 (fun i => i.n 6 2 == 0 && (g.flatMap fun u => u.ins ++ u.outs).contains i.queue) fun _ => false

/-! ## Reconvergent pairs (R128, R129) -/

/-- The units that consume a queue. -/
def consumers (g : List GUnit) (q : Nat × Nat) : List GUnit := g.filter fun u => u.ins.contains q

/-- The inputs of j that paths reach which leave f by the queue q and pass through neither f nor j. -/
def reached (g : List GUnit) (f j : GUnit) (q : Nat × Nat) : List (Nat × Nat) :=
  let free (u : GUnit) : Bool := !u.same f && !u.same j
  let us := closure (fun u => (u.outs.flatMap (consumers g)).filter free) g.length ((consumers g q).filter free)
  ((q :: us.flatMap GUnit.outs).filter fun k => j.ins.contains k).eraseDups

/-- The inputs of j that form reconvergent pairs with f: none where fewer than two are reached, or all through one output. -/
def pairInputs (g : List GUnit) (f j : GUnit) : List (Nat × Nat) :=
  let rs := f.outs.map (reached g f j)
  let all := rs.flatten.eraseDups
  if f.same j || f.outs.length < 2 || all.length < 2 || rs.any (fun r => all.all r.contains) then [] else all

/-- The fork and the join of a record. -/
def recUnits (g : List GUnit) (i : It) : Option (GUnit × GUnit) :=
  match g.find? (·.isAt (i.n 0 2) (i.n 2 1)), g.find? (·.isAt (i.n 4 2) (i.n 6 1)) with
  | some f, some j => some (f, j)
  | _, _ => none

/-- Two records name the same fork and join. -/
def samePair (i j : It) : Bool := i.n 0 3 == j.n 0 3 && i.n 4 3 == j.n 4 3

/-- A record describes no pair (R129). -/
def noPair (b : List Byte) (n : Nat) (g : List GUnit) (i : It) : Bool :=
  let before := (itsOf b 5 n).filter fun j => samePair i j && decide (j.idx < i.idx)
  match recUnits g i with
  | some (f, j) =>
    let ins := pairInputs g f j
    !ins.contains (i.n 4 2, i.n 7 1) || before.any (fun k => k.n 7 1 == i.n 7 1) || decide (ins.length ≤ before.length + 1)
  | none => true

/-- The field a record that describes no pair is wrong in: SHORT_Q where its fork and its join form a pair, else the fork. -/
def noPairField (g : List GUnit) (i : It) : Nat :=
  match recUnits g i with
  | some (f, j) => if 2 ≤ (pairInputs g f j).length then 7 else 0
  | none => 0

/-- A reconvergent pair without its record: the join's UNITS item is named. -/
def reconvMissing (b : List Byte) (n : Nat) (g : List GUnit) : Option Bad :=
  g.findSome? fun j =>
    if g.any fun f =>
      let k := (pairInputs g f j).length
      decide ((((itsOf b 5 n).filter fun i => (i.n 0 2 == f.tile && i.n 2 1 == f.slot) && j.isAt (i.n 4 2) (i.n 6 1))).length + 1 < k)
    then some (j.it.bad 0x63) else none

/-- The tile that an output leaves from (R529). -/
def GUnit.outTile (u : GUnit) (o : Nat) : Nat := u.cfg.outTile u.tile o

/-- The producer latency of a class (R529). -/
def GUnit.latency (u : GUnit) : Nat :=
  if u.cfg.cls = 1 then ((List.range u.cfg.vlen).foldl (fun n k => n + vcost (u.cfg.vins k).op) 0) + 2 else 1

/-- Whether an edge crosses the bridge, and the network distance of R249. -/
def netDist (a b : Nat) : Nat × Nat :=
  let row (t : Nat) : Int := (t / 16 % 16 : Nat)
  let col (t : Nat) : Int := (t % 16 : Nat)
  let dr := (row a - row b).natAbs
  if tileHalf a = tileHalf b then (0, dr + (col a - col b).natAbs + 1)
  else
    let w := if tileHalf a then b else a
    let e := if tileHalf a then a else b
    (1, dr + (15 - w % 16) + e % 16 + 2)

/-- λf + λr of the edge that a queue is (R116, R251). -/
def edgeDelay (g : List GUnit) (q : Nat × Nat) : Nat :=
  match g.find? fun u => u.outs.contains q with
  | none => 0
  | some u =>
    let o := ((List.range u.cfg.outs.length).find? fun o => (u.cfg.outs[o]?).getD none == some q).getD 0
    let t := u.outTile o
    if t = q.1 then u.latency + 1
    else
      let (x, dist) := netDist t q.1
      u.latency + 2 * (dist + 8 * x) + 1

/-- The two inequalities of R128: the deadlock minimum, or the full-rate depth. -/
def depthFails (b : List Byte) (g : List GUnit) (i : It) (rate : Bool) : Bool :=
  let q := (i.n 4 2, i.n 7 1)
  let depth : Int := (((queueIt b q).map fun k => k.n 6 2).getD 0 : Nat)
  let lead : Int := (i.n 16 2 : Int) - (i.n 18 2 : Int)
  if rate then
    let x : Int := (i.n 8 4 : Int) - (i.n 12 4 : Int) + (edgeDelay g q : Int)
    decide (depth < -((-x).fdiv (i.n 20 2 : Int)) + lead)
  else decide (depth < lead + 1)

/-! ## Loops (R130) -/

/-- Among the queues that meet `p`, the smallest that lies on a loop of such queues none of which is smaller. -/
def loopThrough (b : List Byte) (g : List GUnit) (p : It → Bool) : Option It :=
  let qs := ((itsOf b 3).filter p).map It.queue
  let le (x y : Nat × Nat) : Bool := decide (x.1 * 128 + x.2 ≤ y.1 * 128 + y.2)
  let next (q k : Nat × Nat) : List (Nat × Nat) := ((consumers g k).flatMap GUnit.outs).filter fun y => qs.contains y && le q y
  let bad := qs.filter fun q => (closure (next q) qs.length (next q q)).contains q
  match bad.find? fun q => bad.all (le q) with
  | some q => queueIt b q
  | none => none

/-! ## Waves (R156) -/

/-- The successors of an instruction word (R527). -/
def ccSucc (x : Tile) (all : List Nat) (pc : Nat) : List Nat :=
  let w := leAt x.code pc 4
  (if ccFalls w then [pc + 4] else []) ++ ((ccTarget w pc).map Int.toNat).toList ++ (if bits w 0 8 = 0x27 then all else [])

/-- Some instruction word reached from ENTRY has no path to an EEND (R527). -/
def canFailToEnd (x : Tile) (entry : Nat) : Bool :=
  let all := ((List.range (x.code.length / 4)).map (4 * ·)).filter fun (pc : Nat) => x.isInstr pc
  let succ := ccSucc x all
  (closure succ all.length [entry]).any fun pc =>
    !(closure succ all.length [pc]).any fun k => bits (leAt x.code k 4) 0 8 == 0x54

/-- The units a MARK reaches: those with no live input, and what paths of live queues lead to from them. -/
def marked (g : List GUnit) : List GUnit :=
  closure (fun u => u.outs.flatMap (consumers g)) g.length (g.filter fun u => u.ins.isEmpty)

/-- A transition from m to n breaks a wave rule at a unit of m: its slot names a queue of m in n, and the slot at the queue's other
end does not; or a field instance moves. -/
def transitionBad (g h : List GUnit) (u : GUnit) : Bool :=
  let names (v : GUnit) (out : Bool) (q : Nat × Nat) : Bool :=
    h.any fun w => w.same v && (if out then w.outs else w.ins).contains q
  (u.ins.any fun q => g.any fun v => v.outs.contains q && names v true q != names u false q) ||
    (u.cfg.cls == 0 && h.any fun w => w.same u && w.cfg.cls == 0 && (w.cfg.site != u.cfg.site || w.cfg.inst != u.cfg.inst))

def epochWave (b : List Byte) (m : Nat) : Option Bad :=
  let g := graphOf b m
  let unit (p : GUnit → Bool) : Option Bad := (g.find? p).map (·.it.bad 0x69)
  firstBad (((List.range (configCount b)).filter (· != m)).map fun n => firstBad [
    unit fun u => !(marked g).contains u,
    unit fun u => u.ins.isEmpty && u.cfg.cls == 4 && canFailToEnd (codeOf b u.tile) (leAt u.cfg.body 0 4),
    unit (transitionBad g (graphOf b n))])

/-- Phase 4 of one configuration, its rows in table order. -/
def phase4 (b : List Byte) (n : Nat) : Option Bad :=
  let g := graphOf b n
  let recs (st : Nat) (o : Nat) (p : It → Bool) : Option Bad := ((itsOf b 5 n).find? p).map (·.bad st o)
  let loops (st : Nat) (p : It → Bool) : Option Bad := (loopThrough b g p).map (·.bad st)
  firstBad [queueMulti b n, queueDangling b n, queueZeroDepth b n,
    ((itsOf b 5 n).find? (noPair b n g)).map fun i => i.bad stVal (noPairField g i), reconvMissing b n g, recs 0x64 22 fun i => i.n 22 2 != i.n 24 2,
    recs 0x65 7 (depthFails b g · false), recs 0x66 7 (depthFails b g · true),
    loops 0x67 fun i => i.n 8 2 == 0, loops 0x68 fun i => i.n 8 2 == i.n 6 2, epochWave b n]

/-! ## Resources (phase 5) -/

/-- The stack memory of the scope that is free to a tenant: that of its stacks in service. -/
def Load.freeStack (l : Load) : Nat :=
  ((List.range 8).filter fun k => scopeHas l.scope (stackHalf k) && !l.d.flag F.STK_STATUS_DEGRADED (stackAdd k) &&
    !(stackHalf k && l.d.eastLost)).length * (0x4E80000000 / 4)

/-- The halves of the tiles an item names or addresses (R474). -/
def usesHalf (l : Load) (i : It) (h : HalfId) : Bool :=
  let t (x : Nat) : Bool := tileHalf x == h
  let slice (a : Nat) : Bool := match place a with
    | .scratch x _ => t x
    | _ => false
  match i.s.ty with
  | 1 | 3 | 4 | 8 | 9 => t (i.n 0 2)
  | 2 => (cfgOf 0 i.b).outs.any fun o => o.any fun x => t x.1
  | 5 => t (i.n 0 2) || t (i.n 4 2)
  | 6 => decide (4 ≤ i.n 0 1) == h
  | 7 =>
    let c := streamCfg i
    t (i.n 0 2) || ((!c.isGlobal || bits c.baseAddr 48 16 == leAt l.b 0x1C 2) && !(c.levels == 0 || (List.range c.levels).any fun k => c.lcount k == 0) &&
      !rowsAllowed c (fun a => !slice a.toNat) c.levels (c.rowAddr 0 []))
  | 11 => isStreamItem 1 i.b && slice (siDest i.b)
  | 13 => i.n 0 1 == 1 && (slice (lrShard i.b false) || slice (lrShard i.b true))
  | 12 => (survRanges l.b i).any fun r => slice r.2.1
  | _ => false

/-- The routes of a configuration with the item each belongs to and its field: queue edges between tiles, then scheduled halo
walks (R250, R252). -/
def routesOf (b : List Byte) (n : Nat) : List (It × Nat × Nat × Nat) :=
  let g := graphOf b n
  (g.flatMap fun u => (List.range u.cfg.outs.length).filterMap fun o =>
    match (u.cfg.outs[o]?).getD none with
    | some q => if u.outTile o = q.1 then none else some (u.it, 24 + 4 * o, u.outTile o, q.1)
    | none => none) ++
  (itsOf b 7 n).filterMap fun i =>
    match place (i.n 8 8), g.find? (·.isAt (i.n 0 2) (i.n 2 1)) with
    | .scratch t _, some u =>
      if 4 ≤ i.n 3 1 && bits (i.n 6 1) 0 1 = 0 && bit (i.n 6 1) 4 && t != u.tile then some (u.it, 0, u.tile, t) else none
    | _, _ => none

/-- A lane of a link direction, of a bridge row direction or into a tile. -/
abbrev Lane8 := (Nat × Nat × Nat) × Nat

/-- The lanes of a route: the lowest free one on each link; `none`: a link has none of its 8 left (R252). -/
def lanesOn (used : List Lane8) : List (Nat × Nat × Nat) → Option (List Lane8)
  | [] => some []
  | l :: ls =>
    match (List.range 8).find? (fun k => !used.contains (l, k)), lanesOn used ls with
    | some k, some r => some ((l, k) :: r)
    | _, _ => none

/-- The lanes of routes allocated in order, and the first route that finds none (R252). -/
def Dev.allot (d : Dev) (used : List Lane8) : List (It × Nat × Nat × Nat) →
    List ((It × Nat × Nat × Nat) × List Lane8) × Option Bad
  | [] => ([], none)
  | r :: rs =>
    match lanesOn used (d.links r.2.2.1 r.2.2.2) with
    | none => ([], some (r.1.bad stNoResource r.2.1))
    | some ls => let q := d.allot (used ++ ls) rs; ((r, ls) :: q.1, q.2)

/-- Phase 5, in the order of R144. -/
def Load.phase5 (l : Load) : Option Bad :=
  let down (h : HalfId) : Bool := l.d.flag (if h then F.DEV_STATE_DEGRADED_E else F.DEV_STATE_DEGRADED_W)
  let regions := ((survIts l 1).filter fun i => !tiEscrow i.b && tiRegion i.b != 0).foldl (fun n i => n + tiIngots i.b) 0
  let every := (survIts l 0).any fun h => shCadence h.b == 1
  firstBad ([
    (stepIts l 0).findSome? fun i => if l.freeStack < i.n 24 8 then some (i.bad stNoResource 24) else none,
    (sectsOf l.b).findSome? fun s =>
      ((sectItems l.b s).find? fun i => [false, true].any fun h => down h && usesHalf l i h).map (·.bad stNoResource)] ++
    ((List.range (configCount l.b)).map fun n => (l.d.allot [] (routesOf l.b n)).2) ++
    [if isEager l.b && every && 512 * 256 < regions then (sectsTy l.b 12).head?.map (·.bad stNoResource) else none])

end Sys2Proof.Machine
end

