-- ==== Sys2Proof/Machine/Port.lean ====
section
/-! DEFINITION. The lanes routes hold, and the port of a tile: one flit a core cycle, its sources in rotation (R247, R250, R252). -/

namespace Sys2Proof.Machine

/-! ## Routes of the image in force -/

/-- The unit and output a route of an image belongs to; no output: a halo walk. -/
def routeSrc (r : It × Nat × Nat × Nat) : PortSrc :=
  ⟨r.2.2.1, slotKey (r.1.n 0 2) (r.1.n 2 1), if r.2.1 = 0 then none else some ((r.2.1 - 24) / 4)⟩

/-- The routes of configuration n of the image that serves a half, in the order of R252, with their lanes. -/
def Dev.routes (d : Dev) (h : HalfId) (n : Nat) : List ((It × Nat × Nat × Nat) × List Lane8) :=
  match d.image h with
  | some i => (d.allot [] (routesOf i.bytes n)).1
  | none => []

/-- The configuration number a slot runs. -/
def Dev.slotNum (d : Dev) (k : Nat) : Option Nat := (d.slot (k / 32) (k % 32)).active.map (·.num)

/-- The lanes the route of a source to the unit in slot `u` of tile `v` holds: those of the configuration that one of its ends still runs
beside the current one, as long as that configuration has the route; else those of the current one (R252). -/
def Dev.lanes (d : Dev) (x : PortSrc) (v u : Nat) : List Lane8 :=
  let h := tileHalf x.tile
  let cur := ((d.image h).map (·.cur)).getD 0
  let old := [d.slotNum x.unit, d.slotNum (slotKey v u)].filterMap fun n => n.filter (· != cur)
  ((old ++ [cur]).findSome? fun n =>
    ((d.routes h n).find? fun r => routeSrc r.1 == x && r.1.2.2.2 == v).map (·.2)).getD []

/-! ## The port -/

/-- The scheduled sources with a flit ready at a tile's port. -/
def Dev.portReady (d : Dev) (t : Nat) : List PortSrc :=
  ((d.queues.flatMap fun (p : Nat × Queue) => p.2.wait.filter (·.tile == t)) ++
    d.slots.filterMap fun (p : Nat × Slot) =>
      if p.1 / 32 == t && decide (0 < p.2.halo) then some (⟨t, p.1, none⟩ : PortSrc) else none).eraseDups

/-- The bounded flits that wait at a tile's port. -/
def Tile.bulkWait (x : Tile) : Nat := x.bulk.foldl (fun n p => n + p.2) 0

/-- The sources of a tile's port in order, the bounded plane (`none`) last (R247). A source whose route the configuration in force no
longer has counts just before it (DESIGN CHOICE: R247 numbers no such route). -/
def Dev.portOrder (d : Dev) (t : Nat) : List PortSrc :=
  match d.image (tileHalf t) with
  | some i => (d.routes (tileHalf t) i.cur).filterMap fun r => if (routeSrc r.1).tile = t then some (routeSrc r.1) else none
  | none => []

/-- A flit of a scheduled source leaves the port. -/
def Dev.portTake (d : Dev) (x : PortSrc) : Dev :=
  match x.out with
  | none => d.modSlot (x.unit / 32) (x.unit % 32) fun y => { y with halo := y.halo - 1 }
  | some _ =>
    match d.queues.find? fun p => p.2.wait.contains x with
    | some p => { d with queues := fmSet d.queues p.1 { p.2 with wait := p.2.wait.erase x } }
    | none => d

/-- A flit of the bounded plane leaves the port: of the lowest-numbered virtual channel that has one (R253, R254). -/
def Tile.bulkTake (x : Tile) : Tile :=
  match x.bulk with
  | [] => x
  | p :: l => { x with bulk := if p.2 ≤ 1 then l else (p.1, p.2 - 1) :: l }

/-- A core cycle of a tile's port: the ready source that comes first in the rotation injects one flit, the others wait (R247,
Table 10-8). -/
def Dev.portServe (d : Dev) (t : Nat) : Dev :=
  let os := d.portOrder t
  let n := os.length + 2
  let bulk := decide (0 < (d.tile t).bulkWait)
  let ready : List (Nat × Option PortSrc) :=
    (d.portReady t).map (fun x => (os.idxOf x, some x)) ++ if bulk then [(n - 1, none)] else []
  let place (k : Nat) : Nat := (k + n - (d.tile t).portTurn % n) % n
  match ready.find? fun x => ready.all fun y => decide (place x.1 ≤ place y.1) with
  | none => d
  | some (k, x) =>
    let d := match x with
      | some x => (d.portTake x).count F.TIL_NI_TX_SCHED 1 (tileAdd t)
      | none => (d.modTile t Tile.bulkTake).count F.TIL_NI_TX_BOUNDED 1 (tileAdd t)
    (d.count F.TIL_NI_PORT_WAIT_COUNT (ready.length - 1) (tileAdd t)).modTile t fun y => { y with portTurn := (k + 1) % n }

/-- A core cycle of every port at which a flit waits. -/
def Dev.portsServe (d : Dev) : Dev :=
  ((d.queues.flatMap (fun (p : Nat × Queue) => p.2.wait.map (·.tile)) ++
    d.slots.filterMap (fun (p : Nat × Slot) => if 0 < p.2.halo then some (p.1 / 32) else none) ++
    d.tiles.filterMap fun (p : Nat × Tile) => if 0 < p.2.bulkWait then some p.1 else none).eraseDups).foldl Dev.portServe d

end Sys2Proof.Machine
end

