-- ==== Sys2Proof/Machine/Cycle.lean ====
section
/-! DEFINITION. Time: the tick, and one core cycle with its idle attribution (R34, R91, R120, R132–R134, R366). -/

namespace Sys2Proof.Machine

/-- TICK: the tally's tick, the links' new allowances, and a new tick for the heartbeats (R34, R36, R48, R327, R470). The tick under
way does not end while an execute-at entry of it has yet to start (R46). -/
def Dev.tick (d : Dev) : Dev :=
  if d.owesStart then d else
  let d := d.tallyTick.linkTick
  { d with pw := { d.pw with hbSeen := false } }

/-! ## Idle attribution (Table 5-11) -/

/-- The inputs and outputs of a steering unit's firing set; an empty control input alone decides (R133). -/
def Dev.steerSet (d : Dev) (t : Nat) (x : Slot) (c : Cfg) : List Nat × List Nat :=
  let ctl := if c.cls = 6 then c.ins.length - 1 else 1
  let sels := if c.cls = 5 then c.outs.length else if c.cls = 6 then ctl else 1
  let word (k : Steer → List Nat × List Nat) : List Nat × List Nat :=
    match d.ready t x c ctl with
    | none => ([ctl], [])
    | some h =>
      let w := steer c.cls sels h 0
      if w.n = 0 then ([ctl], []) else k w
  match c.cls with
  | 5 => word fun w => ([0, ctl], [w.sel])
  | 6 => word fun w => ([w.sel, ctl], [0])
  | 7 => ((x.turnIn c.ins.length c.ins.length).toList, [0])
  | 8 =>
    match d.ready t x c ctl with
    | none => ([ctl], [])
    | some h => ([0, ctl], if (steer 8 sels h 0).n = 0 then [] else [0])
  | 10 => word fun w => ([0, ctl], if w.keep then [0] else [])
  | 12 => ([0], List.range c.outs.length)
  | _ => ([0], [0])

/-- The firing set of a unit in its present state: the inputs it waits for and the outputs it writes. -/
def Dev.firingSet (d : Dev) (t : Nat) (x : Slot) (c : Cfg) : List Nat × List Nat :=
  match c.cls with
  | 0 => ([], [])
  | 1 => (c.live, List.range c.outs.length)
  | 2 => if x.walk.isSome then ([], List.range c.outs.length) else (c.live, [])
  | 3 => if x.walk.isSome then ([0], []) else (c.live, [])
  | 4 =>
    let w := leAt (d.tile t).code x.cc.pc 4
    let i := bits w 18 14
    if bits w 0 8 = 0x40 then ([i], []) else if bits w 0 8 = 0x41 then ([], [i]) else ([], [])
  | _ => d.steerSet t x c

/-- The operator waits for an answer that Table 5-11 does not name: it is busy (R211). -/
def CcWait.isBusy : CcWait → Bool
  | .none | .barrier _ => false
  | _ => true

/-- The unit waits for a configuration: in the swap's own cycle, with an input closed, at its program's end without live inputs, or for
ever, where a MARK of it has become POISON (R155, R158, R211). -/
def Dev.reconfiguring (d : Dev) (t : Nat) (x : Slot) (c : Cfg) : Bool :=
  x.swapped || !x.closed.isEmpty || (c.cls == 4 && x.cc.ended) ||
    ((c.cls == 2 || c.cls == 3) && c.live.isEmpty && x.walked && x.walk.isNone) ||
    c.live.any fun i => match c.inq i with
      | some q => (d.queue t q).markLost && (d.queue t q).tokens.isEmpty
      | none => false

/-- What a core cycle counts as at the unit in slot s of tile t: 0–9 an idle cause, 10 fired, 11 busy (R132, R133). A unit that waits
for something Table 5-11 does not name, such as the answer of a memory, counts as busy; so does one that could fire and does not. -/
def Dev.cycleOf (d : Dev) (t s : Nat) (x : Slot) (c : Cfg) : Nat :=
  let h := tileHalf t
  let fs := d.firingSet t x c
  if x.fired then 10
  else if d.workOver h then 3
  else if (c.cls ≠ 0 && decide (x.since < c.ii)) || (c.cls = 4 && x.cc.wait.isBusy) then 11
  else if d.half h = 5 || d.heldHalf h then 6
  else if d.reconfiguring t x c then 7
  else if c.cls = 0 then d.fieldCycle t x c
  else if c.cls = 1 && d.gated h then 5
  else if c.cls = 4 && x.cc.wait != .none then 3
  else if c.cls = 2 && d.loadWaits t s then 1
  else match (fs.1.mergeSort (· ≤ ·)).find? fun i => (c.inq i).isSome && (d.ready t x c i).isNone with
    | some i => ((c.inq i).map fun q => d.starveOf t q).getD 0
    | none => if fs.2.any fun o => !d.credit c o then 1 else 11

/-- The order of the causes of R133 and R134, at a tile none of whose units fires or is busy. -/
def tileOrder : List Nat := [6, 7, 5, 3, 2, 4, 8, 9, 0, 1]

/-- What the cycle counts as at a tile whose units count `cs`: 10 active. -/
def tileCause (cs : List Nat) : Nat :=
  if cs.any (10 ≤ ·) then 10 else (tileOrder.find? fun k => cs.contains k).getD 10

/-- The units that count this cycle: those with an active configuration on a half that is RUNNING or PAUSED (R132). -/
def Dev.counted (d : Dev) : List (Nat × Nat × Nat) :=
  d.slots.filterMap fun p =>
    let t := p.1 / 32
    match p.2.active with
    | some c => if d.half (tileHalf t) = 4 || d.half (tileHalf t) = 5 then some (t, p.1 % 32, d.cycleOf t (p.1 % 32) p.2 c) else none
    | none => none

/-- A slot at the end of a core cycle that counted as `k` (`none`: not counted): the idle stretch grows, stands still in a cycle of cause
preempt, or is broken (R122); a gated field's beats stand still (R90); a VSETE of the cycle leaves its value in the counter (R216). -/
def Slot.cycle (x : Slot) (gatedField : Bool) (k : Option Nat) : Slot :=
  { x with
    since := if gatedField then x.since else min (x.since + 1) 256
    fired := false
    swapped := false
    idle := match k with
      | some 6 => x.idle
      | some k => if k < 10 then x.idle + 1 else 0
      | none => 0
    stalled := x.stalled && (match k with | some k => decide (k < 10) | none => false)
    vx := { x.vx with elem := x.vx.vsete.getD x.vx.elem, vsete := none }
    cc := { x.cc with wait := match x.cc.wait with
      | .cycles n => if n ≤ 1 then .none else .cycles (n - 1)
      | w => w } }

/-- A tile at the end of a core cycle: its engines and its slice's till may serve again (R109, R176), its broadcasts take
effect (R207), their flits have left the fabric interface (R349), and samples see the extents written in it (R183). -/
def Tile.cycle (x : Tile) : Tile :=
  { x with
    vxBusy := false
    ccBusy := false
    tillBusy := false
    far := [0, 0, 0, 0]
    extOld := []
    extReg := []
    bslots := x.bnext.foldl (fun m b => fmSet m b.1 b.2.1) x.bslots
    bpoison := x.bnext.foldl (fun m b => setBit m b.1 b.2.2) x.bpoison
    bnext := [] }

/-- Slots that wait for nothing but their shadow, or for an instance another slot held, swap (R106, R154). -/
def Dev.autoSwaps (d : Dev) : Dev :=
  d.slots.foldl (fun d p => if p.2.shadow.isSome then d.autoSwap (p.1 / 32) (p.1 % 32) else d) d

/-- A core cycle passes: the phase within the tick moves on, and stays on the tick's last cycle until the tick ends; every unit and
tile counts the cycle; firings of the next cycle may come. -/
def Dev.coreCycle (d : Dev) : Dev :=
  let us := d.counted
  let ks : FMap Nat := us.map fun u => (slotKey u.1 u.2.1, u.2.2)
  let gf (k : Nat) (x : Slot) : Bool := (x.active.map (·.cls)) == some 0 && d.gated (tileHalf (k / 32))
  let d := { d with slots := fmMap d.slots fun k x => x.cycle (gf k x) (fmGet ks k) }
  let d := d.portsServe.acceptCycle
  let d := us.foldl (fun d u => d.count F.TIL_UNIT_CNT_COUNT 1 (tileAdd u.1 + 8 * (16 * u.2.1 + u.2.2))) d
  let d := ((us.map (·.1)).eraseDups).foldl (fun d t =>
    let k := tileCause ((us.filter (·.1 == t)).map (·.2.2))
    (d.count F.TIL_IDLE_COUNT 1 (tileAdd t + 8 * k)).count F.FAB_IDLE_COUNT 1 (8 * k)) d
  let d : Dev := d.latchCounters
  let last := ((d.cyclesPerTick : Int) + d.tally.adj).toNat - 1
  let slot : Nat := d.fget F.TAL_PHASE_SLOT
  let d : Dev := d.setCycle (min (d.fget F.TAL_PHASE_CYCLE + 1) last)
  let d := if d.fget F.TAL_PHASE_SLOT = slot then d else (List.range 15).foldl (fun d p => d.slotBegins p) d
  let d := { d with tiles := fmMap d.tiles fun _ x => x.cycle, insts := fmMap d.insts fun _ i => i.cycle }
  let d := { d with net := { d.net with levels := d.net.levels.map fun (p : HalfId × Nat × Nat) => (p.1, p.2.1, min (p.2.2 + 1) 20) } }
  d.autoSwaps

/-- TICK (R34). -/
def execTick (s : State) : Host.Outcome State Fault Refusal := onLive Dev.tick s

end Sys2Proof.Machine
end

