-- ==== Sys2Proof/Machine/Reply.lean ====
section
/-! DEFINITION. The requester's side of the fabric: responses, timeouts, resends, COPY, escrow refetches (R239–R242, R347, R350, R354,
R395). -/

namespace Sys2Proof.Machine

/-! ## Requests that end (Table 14-4) -/

/-- The half an escrow request was sent for: the one that bears its tenant tag. -/
def Dev.reqHalf (d : Dev) (x : Xfer) : HalfId := d.split && d.tagOf true == x.tenant.toNat

/-- An escrow push is answered; with the last of a baseline the device votes (R375, R380). -/
def Dev.escrowAnswered (d : Dev) (h : HalfId) : Dev :=
  let d := d.modRun h fun r => { r with acks := r.acks - 1 }
  match (d.stepc h).run with
  | some r => if r.base = 1 && r.acks = 0 then d.voteBaseline h else d
  | none => d

/-- A dynamic request fails with a status: its rows are POISON, its store fails, its command ends, its mirror has failed. -/
def Dev.reqFails (d : Dev) (tag : Nat) (r : Req) (st : Nat) : Dev :=
  let d := d.setReqs (fmErase d.fab.reqs tag)
  match r.use with
  | .unit t s =>
    if r.x.op = 1 then d.farRow t s r.x.addr.toNat (0, true)
    else { d with fab := { d.fab with failed := d.fab.failed ++ [slotKey t s] } }
  | .copy h seq => d.finish h seq st
  | .escrow _ => (d.mirrorFail (d.reqHalf r.x) st).escrowAnswered (d.reqHalf r.x)
  | .stream _ _ => d

/-- A dynamic request has been served: the row or the ingots that came are written, its command ends OK. -/
def Dev.reqServed (d : Dev) (tag : Nat) (r : Req) (rows : List (Row × Bool)) : Dev :=
  let d := d.setReqs (fmErase d.fab.reqs tag)
  match r.use with
  | .unit t s => if r.x.op = 1 then d.farRow t s r.x.addr.toNat (rows.headD (0, true)) else d
  | .copy h seq =>
    let d := if xferPull r.x then d.writeRows r.x.src.toNat (rows.take (64 * r.x.len.toNat)) else d
    d.finish h seq stOk
  | .escrow _ => d.escrowAnswered (d.reqHalf r.x)
  | .stream _ _ => d

/-- The answer to a dynamic request: BUSY makes it wait for its resend, up to RETRIES times; PARTNER_ABSENT and PARTNER_FAULT move
it onto a detour where there is one that it has not travelled. -/
def Dev.reqAnswer (d : Dev) (tag : Nat) (r : Req) (st : Nat) (rows : List (Row × Bool)) : Dev :=
  if st = stOk then d.reqServed tag r rows
  else if st = stBusy && r.tries < d.fget F.FAB_CTRL_RETRIES then
    d.setReqs (fmSet d.fab.reqs tag { r with held := true, tries := r.tries + 1 })
  else if (st = stPartnerAbsent || st = stPartnerFault) && (d.route r.x.target.toNat none).detour &&
      !d.fab.detours.contains r.x.target.toNat then
    let q := d.sendReq tag
    match q.1 with
    | none => q.2
    | some st' => q.2.reqFails tag r st'
  else d.reqFails tag r st

/-! ## Streams that were not taken -/

/-- The send item of a stream, in either half's image. -/
def Dev.sendItemOf (d : Dev) (key : Nat) : Option (HalfId × List Byte) :=
  let of (h : HalfId) := ((d.schedItems h).find? fun i => isStreamItem 0 i && siKey i == key).map fun i => (h, i)
  (of false).or (if d.split then of true else none)

/-- A stream transfer is refused: BUSY, PARTNER_ABSENT and PARTNER_FAULT make it wait and be sent again without limit; any other
failure shows as POISON at the writer (Table 14-4). -/
def Dev.streamRefused (d : Dev) (peer xfer idx st : Nat) : Dev :=
  let key := peer * 65536 + xfer
  match d.sendItemOf key, (d.sendS key).sent.find? (·.idx == idx) with
  | some (h, it), some t =>
    if st = stBusy || st = stPartnerAbsent || st = stPartnerFault then
      let x : Xfer :=
        { Xfer.blank with
          flags := .ofNat 8 ((if t.mark.isSome then 1 else 0) + (if siSched it && t.mark.isNone then 2 else 0))
          tenant := .ofNat 16 (d.tagOf h), origin := .ofNat 16 d.me, target := .ofNat 16 peer, index := .ofNat 32 idx
          operand := .ofNat 64 (t.mark.getD 0), rows := t.rows }
      if d.fab.reqs.any fun r => r.2.use == .stream key idx then d
      else
        { d with fab := { d.fab with
            nextTag := (d.fab.nextTag + 1) % 2 ^ 32, reqs := fmSet d.fab.reqs d.fab.nextTag ⟨x, .stream key idx, 0, true⟩ } }
    else { d with fab := { d.fab with failed := d.fab.failed ++ [slotKey (siTile it) (siSlotQ it)] } }
  | _, _ => d

/-- A status comes back for a transfer with the frames' XFER: a stream below 0x8000, a dynamic request by its tag above. An answer
to a request that has ended is late. -/
def Dev.answered (d : Dev) (peer xfer tag st : Nat) (rows : List (Row × Bool)) : Dev :=
  if xfer < 0x8000 then d.streamRefused peer xfer tag st
  else
    match fmGet d.fab.reqs tag with
    | none => d.event E.FAB_LATE_RESPONSE
    | some r => if isStream r.use then d.event E.FAB_LATE_RESPONSE else d.reqAnswer tag r st rows

/-- REMOTE_RESPONSE: the oldest response on a port. -/
def Dev.remoteResponse (d : Dev) (p : Nat) : Dev :=
  match (d.arrived p 8).or (d.arrived p 8 true) with
  | none => d
  | some (r, x) => (d.takeRx p r).answered x.origin.toNat r.xfer x.index.toNat x.status.toNat x.rows

/-- REMOTE_TIMEOUT: RTIMEOUT ticks without an answer; a stream transfer waits to be sent again (Table 14-4). -/
def Dev.remoteTimeout (d : Dev) (tag : Nat) : Dev :=
  match fmGet d.fab.reqs tag with
  | none => d
  | some r =>
    if d.fget F.FAB_CTRL_RTIMEOUT = 0 || isStream r.use then d
    else (d.event E.FAB_REMOTE_TIMEOUT).reqFails tag r stTimeout

/-- RETRY_RESEND: a request or stream transfer that waits goes out again. -/
def Dev.retryResend (d : Dev) (tag : Nat) : Dev :=
  match fmGet d.fab.reqs tag with
  | none => d
  | some r =>
    if !r.held then d else
    match r.use with
    | .stream key _ =>
      let s := d.sendXfer r.x (key % 65536) (if bit r.x.flags.toNat 1 then 0 else 2) none
      match s.1 with
      | none => s.2.setReqs (fmErase s.2.fab.reqs tag)
      | some _ => s.2
    | _ =>
      let s := d.sendReq tag
      match s.1 with
      | none => s.2
      | some st => s.2.reqAnswer tag { r with held := false } st []

/-! ## COPY (R350, R395) -/

/-- COPY: between two local ranges, or with another device by PUSH or PULL on virtual channel 3. -/
def Dev.copy (d : Dev) (h : HalfId) (seq : Nat) (es : List RdErr) : Dev :=
  d.begin h seq 0x09 fun d e =>
    let src := e.arg 24 8
    let dst := e.arg 32 8
    let n := e.arg 40 4
    let tag := e.tenant
    if n = 0 then d.finish h seq stOk
    else if d.isLocal src && d.isLocal dst then
      let w := d.readRows (bits src 0 48) (64 * n) es
      (w.2.writeRows (bits dst 0 48) w.1).finish h seq stOk
    else
      let push := d.isLocal src
      let far := if push then dst else src
      let near := if push then src else dst
      let w := if push then d.readRows (bits near 0 48) (64 * n) es else ([], d)
      let r := w.2.issue
        { Xfer.blank with
          op := 3, flags := if push then 0 else 4, tenant := .ofNat 16 tag, target := .ofNat 16 (bits far 48 16)
          addr := .ofNat 48 (bits far 0 48), src := .ofNat 48 (bits near 0 48), len := .ofNat 32 n, rows := w.1 } (.copy h seq)
      match r.1 with
      | none => r.2
      | some st => r.2.finish h seq st

/-! ## Escrow refetches (R239–R242) -/

/-- The escrow tensor an ingot belongs to. -/
def Dev.escrowOf (d : Dev) (h : HalfId) (a : Nat) : Option (List Byte) :=
  (survItems (d.imageBytes h) 1).find? fun i =>
    let b := d.tensorAt h i false
    tiEscrow i && decide (b ≤ a) && decide (a < b + 4096 * tiIngots i)

/-- A Memory record about an ingot (Table 17-8): 0 uncorrectable, 1 refetched, 2 given up. -/
def Dev.memoryLog (d : Dev) (a outcome : Nat) : Dev :=
  d.sbLog 0x0020 (if outcome = 1 then 1 else 2) [d.stackOf a, (d.stackMap a).2.1, a, outcome]

/-- The soft repair of a stack row: the event, and the row on the repair page as pending; its bank and row are not stated. -/
def Dev.softRepair (d : Dev) (a : Nat) : Dev :=
  let k := d.stackOf a
  let f := (d.event E.STK_SOFT_REPAIR (stackAdd k)).fresh 8
  let g := f.2.fresh 32
  g.2.recordRow ⟨k, (d.stackMap a).2.1, f.1, 0, g.1, a⟩

/-- The refetch is given up (R241). -/
def Dev.refetchFails (d : Dev) (h : HalfId) (a : Nat) : Dev :=
  ((d.event E.STK_REFETCH_FAIL (stackAdd (d.stackOf a))).memoryLog a 2).failAttempt h stPoison none

/-- The window entry is rewritten from the repaired ingot, and is VALID with its REMAIN unchanged. -/
def Dev.windowRepair (d : Dev) (a : Nat) (win : Option (Nat × Nat)) (b : List Byte) : Dev :=
  match win with
  | none => d
  | some (t, k) =>
    match fmGet (d.tile t).win k with
    | none => d
    | some e =>
      let d := d.poke (d.windowBase t + 4096 * e.frame + (a - e.src)) b
      let more := d.refetch.any fun x => x.2 == some (t, k)
      d.modTile t fun x => { x with win := fmSet x.win k { e with state := if more then e.state else 3 } }

/-- ESCROW_REFETCH of the first ingot that waits: the partner is asked; whether it was reached, the step its copy was taken at, the copy
and its digest; what the code meets as the ingot is read back, and whether a spare row is left (R239–R241). A word that stays
uncorrectable with no spare row is the one left as poison. -/
def Dev.escrowRefetch (d : Dev) (reached : Bool) (step : Nat) (b : List Byte) (digest : Nat) (back : List RdErr) (spare : Bool) :
    Dev :=
  match d.refetch with
  | [] => d
  | (a, win) :: rest =>
    let h := d.split && stackHalf (d.stackOf a)
    let d := { d with refetch := rest }
    match d.escrowOf h a with
    | none => d.failAttempt h stPoison none
    | some i =>
      let img := d.imageBytes h
      let l := tiLayer i
      let d := d.emit (.fabric 11 [d.mirrorTarget i, tiTensor i, a - d.tensorAt h i false])
      let written := isEager img && tiRegion i != 0 && bit (d.fget F.DEV_STEP_COMMIT_COMMIT (d.stepAdd h + 8 * (l / 64))) (l % 64)
      if !reached || step != d.stepNum h || written || b.length != 4096 || crc64 b != digest then d.refetchFails h a
      else
        let r := ((d.poke a b).countRange a 4096 true).readWords a 512 back
        if r.1.2.2 && !spare then r.2.refetchFails h a
        else
          let d := if r.1.2.2 then ((r.2.softRepair a).poke a b).countRange a 4096 true else r.2
          let d := d.windowRepair a win b
          { (d.event E.STK_REFETCH_OK (stackAdd (d.stackOf a))).memoryLog a 1 with refetched := d.refetched ++ [a] }

end Sys2Proof.Machine
end

