-- ==== Sys2Proof/Machine/BoardOps.lean ====
section
/-! DEFINITION. The meanings of the commands of the board services, of the requester and of COPY (R239, R354, R395, R408–R425, R439, R511, R522). -/

namespace Sys2Proof.Machine

/-- SENSOR_SAMPLE (R411). -/
def execSensorSample (temps : List (Option Nat)) (taps readouts : List Nat) (s : State) :
    Host.Outcome State Fault Refusal :=
  onPowered (fun d => d.sensorSample temps taps readouts) s

/-- THERMAL_TRIP (R524). -/
def execThermalTrip (s : State) : Host.Outcome State Fault Refusal := onPowered Dev.thermalTrip s

/-- THROTTLE_UPDATE (R522). -/
def execThrottleUpdate (h : HalfId) (power : Fin 3) (s : State) : Host.Outcome State Fault Refusal :=
  onLive (fun d => d.throttleUpdate h power.val) s

/-- THROTTLE_LEVEL (R264). -/
def execThrottleLevel (h : HalfId) (s : State) : Host.Outcome State Fault Refusal := onLive (fun d => d.throttleLevel h) s

/-- PMBUS_POLL (R412). -/
def execPmbusPoll (rails : List (Option (Nat × Nat × Nat))) (s : State) : Host.Outcome State Fault Refusal :=
  onPowered (fun d => d.pmbusPoll rails) s

/-- I3C_POLL (R414). -/
def execI3cPoll (values : List (Option Nat)) (s : State) : Host.Outcome State Fault Refusal :=
  onPowered (fun d => d.i3cPoll values) s

/-- I3C_IBI (R414). -/
def execI3cIbi (join : Bool) (src : BitVec 7) (s : State) : Host.Outcome State Fault Refusal :=
  onPowered (fun d => d.i3cIbi join src.toNat) s

/-- PROFILE (R511). -/
def execProfile (h : HalfId) (seq : Word) (ok : List Bool) (s : State) : Host.Outcome State Fault Refusal :=
  onLive (fun d => d.profileCmd h seq.toNat ok) s

/-- PLL_RELOCKED (R511). -/
def execPllRelocked (ok : List Bool) (s : State) : Host.Outcome State Fault Refusal := onLive (fun d => d.pllRelocked ok) s

/-- MGMT_LANE_UP (R416). -/
def execMgmtLaneUp (fec : Bool) (s : State) : Host.Outcome State Fault Refusal := onPowered (fun d => d.mgmtLaneUp fec) s

/-- MGMT_LANE_DOWN (R416). -/
def execMgmtLaneDown (s : State) : Host.Outcome State Fault Refusal := onPowered Dev.mgmtLaneDown s

/-- JTAG_INSTRUCTION (R439). -/
def execJtagInstruction (ix : Nat) (s : State) : Host.Outcome State Fault Refusal :=
  onPowered (fun d => d.jtagInstruction ix) s

/-- STRONGBOX_WRITE (R425). -/
def execStrongboxWrite (s : State) : Host.Outcome State Fault Refusal := onPowered Dev.strongboxWrite s

/-- SECTOR_ERASE_DONE (R425). -/
def execSectorEraseDone (s : State) : Host.Outcome State Fault Refusal := onPowered Dev.sectorEraseDone s

/-- REMOTE_RESPONSE (R354). -/
def execRemoteResponse (p : PortId) (s : State) : Host.Outcome State Fault Refusal :=
  onLive (fun d => d.remoteResponse p.val) s

/-- REMOTE_TIMEOUT (R354). -/
def execRemoteTimeout (tag : BitVec 32) (s : State) : Host.Outcome State Fault Refusal :=
  onLive (fun d => d.remoteTimeout tag.toNat) s

/-- RETRY_RESEND (R354). -/
def execRetryResend (tag : BitVec 32) (s : State) : Host.Outcome State Fault Refusal :=
  onLive (fun d => d.retryResend tag.toNat) s

/-- COPY (R395). -/
def execCopy (h : HalfId) (seq : Word) (es : List RdErr) (s : State) : Host.Outcome State Fault Refusal :=
  onLive (fun d => d.copy h seq.toNat es) s

/-- ESCROW_REFETCH (R239). -/
def execEscrowRefetch (reached : Bool) (step : Nat) (bytes : List Byte) (digest : Nat) (back : List RdErr) (spare : Bool) (s : State) :
    Host.Outcome State Fault Refusal :=
  onLive (fun d => d.escrowRefetch reached step bytes digest back spare) s

end Sys2Proof.Machine
end

