-- ==== Sys2Proof/Machine/Configure.lean ====
section
/-! DEFINITION. The meanings of the staging and reconfiguration commands (R148–R158). -/

namespace Sys2Proof.Machine

/-- STAGE (R148). -/
def execStage (h : HalfId) (seq : Word) (s : State) : Host.Outcome State Fault Refusal :=
  onLive (fun d => d.stageCmd h seq.toNat) s

/-- CONFIG_MESSAGE (R149). -/
def execConfigMessage (t : TileId) (s : State) : Host.Outcome State Fault Refusal :=
  onLive (fun d => d.configMessage t.toNat) s

/-- MARK_ARRIVAL (R151). -/
def execMarkArrival (t : TileId) (q : QueueId) (tok : Option Token) (s : State) : Host.Outcome State Fault Refusal :=
  onLive (fun d => d.markArrival t.toNat q.toNat tok) s

/-- INPUT_CLOSE (R152). -/
def execInputClose (t : TileId) (slot : SlotId) (input : Fin 8) (s : State) : Host.Outcome State Fault Refusal :=
  onLive (fun d => d.inputClose t.toNat slot.toNat input.val) s

/-- UNIT_SWAP (R153). -/
def execUnitSwap (t : TileId) (slot : SlotId) (s : State) : Host.Outcome State Fault Refusal :=
  onLive (fun d => d.unitSwap t.toNat slot.toNat) s

end Sys2Proof.Machine
end

