-- ==== Sys2Proof/Machine/ControlOps.lean ====
section
/-! DEFINITION. The meanings of the control core's commands, one per instruction of Table 8-9 (R206–R216, R256–R261). -/

namespace Sys2Proof.Machine

/-- CC_ADD (R209). -/
def execCcAdd (t : TileId) (slot : SlotId) (s : State) : Host.Outcome State Fault Refusal :=
  onLive (fun d => d.ccInt t.toNat slot.toNat 0x00) s

/-- CC_SUB (R209). -/
def execCcSub (t : TileId) (slot : SlotId) (s : State) : Host.Outcome State Fault Refusal :=
  onLive (fun d => d.ccInt t.toNat slot.toNat 0x01) s

/-- CC_AND (R209). -/
def execCcAnd (t : TileId) (slot : SlotId) (s : State) : Host.Outcome State Fault Refusal :=
  onLive (fun d => d.ccInt t.toNat slot.toNat 0x02) s

/-- CC_OR (R209). -/
def execCcOr (t : TileId) (slot : SlotId) (s : State) : Host.Outcome State Fault Refusal :=
  onLive (fun d => d.ccInt t.toNat slot.toNat 0x03) s

/-- CC_XOR (R209). -/
def execCcXor (t : TileId) (slot : SlotId) (s : State) : Host.Outcome State Fault Refusal :=
  onLive (fun d => d.ccInt t.toNat slot.toNat 0x04) s

/-- CC_SLL (R209). -/
def execCcSll (t : TileId) (slot : SlotId) (s : State) : Host.Outcome State Fault Refusal :=
  onLive (fun d => d.ccInt t.toNat slot.toNat 0x05) s

/-- CC_SRL (R209). -/
def execCcSrl (t : TileId) (slot : SlotId) (s : State) : Host.Outcome State Fault Refusal :=
  onLive (fun d => d.ccInt t.toNat slot.toNat 0x06) s

/-- CC_SRA (R209). -/
def execCcSra (t : TileId) (slot : SlotId) (s : State) : Host.Outcome State Fault Refusal :=
  onLive (fun d => d.ccInt t.toNat slot.toNat 0x07) s

/-- CC_SLT (R209). -/
def execCcSlt (t : TileId) (slot : SlotId) (s : State) : Host.Outcome State Fault Refusal :=
  onLive (fun d => d.ccInt t.toNat slot.toNat 0x08) s

/-- CC_SLTU (R209). -/
def execCcSltu (t : TileId) (slot : SlotId) (s : State) : Host.Outcome State Fault Refusal :=
  onLive (fun d => d.ccInt t.toNat slot.toNat 0x09) s

/-- CC_MUL (R209). -/
def execCcMul (t : TileId) (slot : SlotId) (s : State) : Host.Outcome State Fault Refusal :=
  onLive (fun d => d.ccInt t.toNat slot.toNat 0x0A) s

/-- CC_MULHU (R209). -/
def execCcMulhu (t : TileId) (slot : SlotId) (s : State) : Host.Outcome State Fault Refusal :=
  onLive (fun d => d.ccInt t.toNat slot.toNat 0x0B) s

/-- CC_MINU (R209). -/
def execCcMinu (t : TileId) (slot : SlotId) (s : State) : Host.Outcome State Fault Refusal :=
  onLive (fun d => d.ccInt t.toNat slot.toNat 0x0C) s

/-- CC_MAXU (R209). -/
def execCcMaxu (t : TileId) (slot : SlotId) (s : State) : Host.Outcome State Fault Refusal :=
  onLive (fun d => d.ccInt t.toNat slot.toNat 0x0D) s

/-- CC_ADDI (R209). -/
def execCcAddi (t : TileId) (slot : SlotId) (s : State) : Host.Outcome State Fault Refusal :=
  onLive (fun d => d.ccImmOp t.toNat slot.toNat 0x10 0x00) s

/-- CC_ANDI (R209). -/
def execCcAndi (t : TileId) (slot : SlotId) (s : State) : Host.Outcome State Fault Refusal :=
  onLive (fun d => d.ccImmOp t.toNat slot.toNat 0x11 0x02) s

/-- CC_ORI (R209). -/
def execCcOri (t : TileId) (slot : SlotId) (s : State) : Host.Outcome State Fault Refusal :=
  onLive (fun d => d.ccImmOp t.toNat slot.toNat 0x12 0x03) s

/-- CC_XORI (R209). -/
def execCcXori (t : TileId) (slot : SlotId) (s : State) : Host.Outcome State Fault Refusal :=
  onLive (fun d => d.ccImmOp t.toNat slot.toNat 0x13 0x04) s

/-- CC_SLLI (R209). -/
def execCcSlli (t : TileId) (slot : SlotId) (s : State) : Host.Outcome State Fault Refusal :=
  onLive (fun d => d.ccImmOp t.toNat slot.toNat 0x14 0x05) s

/-- CC_SRLI (R209). -/
def execCcSrli (t : TileId) (slot : SlotId) (s : State) : Host.Outcome State Fault Refusal :=
  onLive (fun d => d.ccImmOp t.toNat slot.toNat 0x15 0x06) s

/-- CC_SRAI (R209). -/
def execCcSrai (t : TileId) (slot : SlotId) (s : State) : Host.Outcome State Fault Refusal :=
  onLive (fun d => d.ccImmOp t.toNat slot.toNat 0x16 0x07) s

/-- CC_BEQ (R209). -/
def execCcBeq (t : TileId) (slot : SlotId) (s : State) : Host.Outcome State Fault Refusal :=
  onLive (fun d => d.ccBranch t.toNat slot.toNat 0x20) s

/-- CC_BNE (R209). -/
def execCcBne (t : TileId) (slot : SlotId) (s : State) : Host.Outcome State Fault Refusal :=
  onLive (fun d => d.ccBranch t.toNat slot.toNat 0x21) s

/-- CC_BLT (R209). -/
def execCcBlt (t : TileId) (slot : SlotId) (s : State) : Host.Outcome State Fault Refusal :=
  onLive (fun d => d.ccBranch t.toNat slot.toNat 0x22) s

/-- CC_BGE (R209). -/
def execCcBge (t : TileId) (slot : SlotId) (s : State) : Host.Outcome State Fault Refusal :=
  onLive (fun d => d.ccBranch t.toNat slot.toNat 0x23) s

/-- CC_BLTU (R209). -/
def execCcBltu (t : TileId) (slot : SlotId) (s : State) : Host.Outcome State Fault Refusal :=
  onLive (fun d => d.ccBranch t.toNat slot.toNat 0x24) s

/-- CC_BGEU (R209). -/
def execCcBgeu (t : TileId) (slot : SlotId) (s : State) : Host.Outcome State Fault Refusal :=
  onLive (fun d => d.ccBranch t.toNat slot.toNat 0x25) s

/-- CC_LDC (R209). -/
def execCcLdc (t : TileId) (slot : SlotId) (s : State) : Host.Outcome State Fault Refusal :=
  onLive (fun d => d.ccLdc t.toNat slot.toNat) s

/-- CC_JAL (R209). -/
def execCcJal (t : TileId) (slot : SlotId) (s : State) : Host.Outcome State Fault Refusal :=
  onLive (fun d => d.ccJal t.toNat slot.toNat) s

/-- CC_JALR (R527). -/
def execCcJalr (t : TileId) (slot : SlotId) (s : State) : Host.Outcome State Fault Refusal :=
  onLive (fun d => d.ccJalr t.toNat slot.toNat) s

/-- CC_ST (R212). -/
def execCcSt (t : TileId) (slot : SlotId) (s : State) : Host.Outcome State Fault Refusal :=
  onLive (fun d => d.ccSt t.toNat slot.toNat) s

/-- CC_TILL (R175). -/
def execCcTill (t : TileId) (slot : SlotId) (s : State) : Host.Outcome State Fault Refusal :=
  onLive (fun d => d.ccTill t.toNat slot.toNat) s

/-- CC_QPOP (R210). -/
def execCcQpop (t : TileId) (slot : SlotId) (s : State) : Host.Outcome State Fault Refusal :=
  onLive (fun d => d.ccQpop t.toNat slot.toNat) s

/-- CC_QPUSH (R210). -/
def execCcQpush (t : TileId) (slot : SlotId) (s : State) : Host.Outcome State Fault Refusal :=
  onLive (fun d => d.ccQpush t.toNat slot.toNat) s

/-- CC_TBRD (R209). -/
def execCcTbrd (t : TileId) (slot : SlotId) (s : State) : Host.Outcome State Fault Refusal :=
  onLive (fun d => d.ccTbrd t.toNat slot.toNat) s

/-- CC_TBWR (R209). -/
def execCcTbwr (t : TileId) (slot : SlotId) (s : State) : Host.Outcome State Fault Refusal :=
  onLive (fun d => d.ccTbwr t.toNat slot.toNat) s

/-- CC_BCAST (R207). -/
def execCcBcast (t : TileId) (slot : SlotId) (s : State) : Host.Outcome State Fault Refusal :=
  onLive (fun d => d.ccBcast t.toNat slot.toNat) s

/-- CC_EXTW (R216). -/
def execCcExtw (t : TileId) (slot : SlotId) (s : State) : Host.Outcome State Fault Refusal :=
  onLive (fun d => d.ccExtw t.toNat slot.toNat) s

/-- CC_VSETE (R201). -/
def execCcVsete (t : TileId) (slot : SlotId) (s : State) : Host.Outcome State Fault Refusal :=
  onLive (fun d => d.ccVsete t.toNat slot.toNat) s

/-- CC_STAGE (R148). -/
def execCcStage (t : TileId) (slot : SlotId) (s : State) : Host.Outcome State Fault Refusal :=
  onLive (fun d => d.ccStage t.toNat slot.toNat) s

/-- CC_EEND (R154). -/
def execCcEend (t : TileId) (slot : SlotId) (s : State) : Host.Outcome State Fault Refusal :=
  onLive (fun d => d.ccEend t.toNat slot.toNat) s

/-- CC_CSRR (R209). -/
def execCcCsrr (t : TileId) (slot : SlotId) (s : State) : Host.Outcome State Fault Refusal :=
  onLive (fun d => d.ccCsrr t.toNat slot.toNat) s

/-- CC_BAR (R259). -/
def execCcBar (t : TileId) (slot : SlotId) (s : State) : Host.Outcome State Fault Refusal :=
  onLive (fun d => d.ccBar t.toNat slot.toNat) s

/-- CC_WAITT (R209). -/
def execCcWaitt (t : TileId) (slot : SlotId) (s : State) : Host.Outcome State Fault Refusal :=
  onLive (fun d => d.ccWaitt t.toNat slot.toNat) s

/-- CC_BEX (R209). -/
def execCcBex (t : TileId) (slot : SlotId) (s : State) : Host.Outcome State Fault Refusal :=
  onLive (fun d => d.ccBex t.toNat slot.toNat 0x28 true) s

/-- CC_BNEX (R209). -/
def execCcBnex (t : TileId) (slot : SlotId) (s : State) : Host.Outcome State Fault Refusal :=
  onLive (fun d => d.ccBex t.toNat slot.toNat 0x29 false) s

/-- CC_LD (R212). -/
def execCcLd (t : TileId) (slot : SlotId) (err : RdErr) (s : State) : Host.Outcome State Fault Refusal :=
  onLive (fun d => d.ccLd t.toNat slot.toNat err) s

/-- CC_VOR (R260). -/
def execCcVor (t : TileId) (slot : SlotId) (s : State) : Host.Outcome State Fault Refusal :=
  onLive (fun d => d.ccVote t.toNat slot.toNat 0x61 false) s

/-- CC_VAND (R260). -/
def execCcVand (t : TileId) (slot : SlotId) (s : State) : Host.Outcome State Fault Refusal :=
  onLive (fun d => d.ccVote t.toNat slot.toNat 0x62 true) s

/-- LDST_REQUEST (R256). -/
def execLdstRequest (t : TileId) (slot : SlotId) (err : RdErr) (s : State) : Host.Outcome State Fault Refusal :=
  onLive (fun d => d.ldstRequest t.toNat slot.toNat err) s

/-- LDST_REPLY (R212). -/
def execLdstReply (t : TileId) (slot : SlotId) (s : State) : Host.Outcome State Fault Refusal :=
  onLive (fun d => d.ldstReply t.toNat slot.toNat) s

/-- TILL_REPLY (R175). -/
def execTillReply (t : TileId) (slot : SlotId) (s : State) : Host.Outcome State Fault Refusal :=
  onLive (fun d => d.tillReply t.toNat slot.toNat) s

/-- WAITT_RELEASE (R209). -/
def execWaittRelease (t : TileId) (slot : SlotId) (s : State) : Host.Outcome State Fault Refusal :=
  onLive (fun d => d.waittRelease t.toNat slot.toNat) s

/-- BARRIER_COMPLETE (R259). -/
def execBarrierComplete (h : HalfId) (barrier : BitVec 6) (s : State) : Host.Outcome State Fault Refusal :=
  onLive (fun d => d.barrierComplete h barrier.toNat) s

/-- VOTE_RESULT (R260). -/
def execVoteResult (h : HalfId) (channel : BitVec 3) (s : State) : Host.Outcome State Fault Refusal :=
  onLive (fun d => d.voteResult h channel.toNat) s

/-- TILE_COMMAND (R256). -/
def execTileCommand (t : TileId) (body : List Byte) (s : State) : Host.Outcome State Fault Refusal :=
  onLive (fun d => d.tileCommand t.toNat body) s

end Sys2Proof.Machine
end

