-- ==== Sys2Proof/Machine/Dataflow.lean ====
section
/-! DEFINITION. The meanings of the queue, firing and steering commands (R112–R137). -/

namespace Sys2Proof.Machine

/-- TOKEN_ARRIVAL (R112). -/
def execTokenArrival (t : TileId) (q : QueueId) (tok : Option Token) (s : State) : Host.Outcome State Fault Refusal :=
  onLive (fun d => d.tokenArrival t.toNat q.toNat tok) s

/-- CREDIT_RETURN (R116). -/
def execCreditReturn (t : TileId) (q : QueueId) (s : State) : Host.Outcome State Fault Refusal :=
  onLive (fun d => d.creditBack t.toNat q.toNat) s

/-- SWITCH_FIRE (R123). -/
def execSwitchFire (t : TileId) (slot : SlotId) (s : State) : Host.Outcome State Fault Refusal :=
  onLive (fun d => d.switchFire t.toNat slot.toNat) s

/-- MERGE_CONTROLLED_FIRE (R123). -/
def execMergeControlledFire (t : TileId) (slot : SlotId) (s : State) : Host.Outcome State Fault Refusal :=
  onLive (fun d => d.mergeFire t.toNat slot.toNat) s

/-- MERGE_ROTATION_FIRE (R123). -/
def execMergeRotationFire (t : TileId) (slot : SlotId) (s : State) : Host.Outcome State Fault Refusal :=
  onLive (fun d => d.rotateFire t.toNat slot.toNat) s

/-- REPEAT_CONTROLLED_FIRE (R124). -/
def execRepeatControlledFire (t : TileId) (slot : SlotId) (s : State) : Host.Outcome State Fault Refusal :=
  onLive (fun d => d.repeatFire t.toNat slot.toNat) s

/-- REPEAT_STATIC_FIRE (R124). -/
def execRepeatStaticFire (t : TileId) (slot : SlotId) (s : State) : Host.Outcome State Fault Refusal :=
  onLive (fun d => d.repeatStaticFire t.toNat slot.toNat) s

/-- DROP_CONTROLLED_FIRE (R123). -/
def execDropControlledFire (t : TileId) (slot : SlotId) (s : State) : Host.Outcome State Fault Refusal :=
  onLive (fun d => d.dropFire t.toNat slot.toNat) s

/-- DROP_STATIC_FIRE (R126). -/
def execDropStaticFire (t : TileId) (slot : SlotId) (s : State) : Host.Outcome State Fault Refusal :=
  onLive (fun d => d.dropStaticFire t.toNat slot.toNat) s

/-- FORK_FIRE (R127). -/
def execForkFire (t : TileId) (slot : SlotId) (s : State) : Host.Outcome State Fault Refusal :=
  onLive (fun d => d.forkFire t.toNat slot.toNat) s

/-- STALL_LONG (R122). -/
def execStallLong (t : TileId) (slot : SlotId) (s : State) : Host.Outcome State Fault Refusal :=
  onLive (fun d => d.stallLong t.toNat slot.toNat) s

/-- CNT_CLEAR (R137). -/
def execCntClear (who : Who) (t : TileId) (hw : Word) (s : State) : Host.Outcome State Fault Refusal :=
  onLive (fun d => if d.mayWrite who (0x1004018 + tileAdd t.toNat) then d.cntClear t.toNat hw.toNat else d) s

end Sys2Proof.Machine
end

