-- ==== Sys2Proof/Machine/FabricOps.lean ====
section
/-! DEFINITION. The meanings of the commands of the fabric interface as sender and target (R342–R368, R374, R379). -/

namespace Sys2Proof.Machine

/-- SCHEDULED_SLOT (R53). -/
def execScheduledSlot (p : PortId) (slot : BitVec 2) (s : State) : Host.Outcome State Fault Refusal :=
  onLive (fun d => d.scheduledSlot p.val slot.toNat) s

/-- STREAM_TRANSFER (R358). -/
def execStreamTransfer (p : PortId) (k : Nat) (of_ : PassId) (es : List RdErr) (s : State) : Host.Outcome State Fault Refusal :=
  onLive (fun d => d.streamTransfer p.val k of_ false es) s

/-- COLLECTIVE_CHUNK (R361). -/
def execCollectiveChunk (p : PortId) (k : Nat) (of_ : PassId) (es : List RdErr) (s : State) : Host.Outcome State Fault Refusal :=
  onLive (fun d => d.streamTransfer p.val k of_ true es) s

/-- STREAM_RELEASE (R359). -/
def execStreamRelease (peer xfer : BitVec 16) (k : Nat) (s : State) : Host.Outcome State Fault Refusal :=
  onLive (fun d => d.streamRelease peer.toNat xfer.toNat k) s

/-- REMOTE_LOAD (R350). -/
def execRemoteLoad (p : PortId) (out : Nat) (es : List RdErr) (s : State) : Host.Outcome State Fault Refusal :=
  onLive (fun d => d.remoteLoad p.val out es) s

/-- REMOTE_STORE (R350). -/
def execRemoteStore (p : PortId) (out : Nat) (s : State) : Host.Outcome State Fault Refusal :=
  onLive (fun d => d.remoteStore p.val out) s

/-- REMOTE_COPY (R350). -/
def execRemoteCopy (p : PortId) (out : Nat) (es : List RdErr) (s : State) : Host.Outcome State Fault Refusal :=
  onLive (fun d => d.remoteCopy p.val out es) s

/-- REMOTE_ADD (R351). -/
def execRemoteAdd (p : PortId) (out : Nat) (e : RdErr) (s : State) : Host.Outcome State Fault Refusal :=
  onLive (fun d => d.remoteAtomic 4 p.val out e) s

/-- REMOTE_MAX (R351). -/
def execRemoteMax (p : PortId) (out : Nat) (e : RdErr) (s : State) : Host.Outcome State Fault Refusal :=
  onLive (fun d => d.remoteAtomic 5 p.val out e) s

/-- REMOTE_SWAP (R351). -/
def execRemoteSwap (p : PortId) (out : Nat) (e : RdErr) (s : State) : Host.Outcome State Fault Refusal :=
  onLive (fun d => d.remoteAtomic 6 p.val out e) s

/-- REMOTE_CAS (R351). -/
def execRemoteCas (p : PortId) (out : Nat) (e : RdErr) (s : State) : Host.Outcome State Fault Refusal :=
  onLive (fun d => d.remoteAtomic 7 p.val out e) s

/-- VOTE_WAVE (R363). -/
def execVoteWave (s : State) : Host.Outcome State Fault Refusal := onLive Dev.voteWave s

/-- VOTE_WAVE_SEND (R363). -/
def execVoteWaveSend (s : State) : Host.Outcome State Fault Refusal := onLive Dev.voteWaveSend s

/-- ESCROW_TRANSFER (R374). -/
def execEscrowTransfer (p : PortId) (out : Nat) (es : List RdErr) (s : State) : Host.Outcome State Fault Refusal :=
  onLive (fun d => d.escrowTransfer p.val out es) s

/-- PARITY_DELTA (R379). -/
def execParityDelta (p : PortId) (out : Nat) (s : State) : Host.Outcome State Fault Refusal :=
  onLive (fun d => d.parityDelta p.val out) s

end Sys2Proof.Machine
end

