-- ==== Sys2Proof/Machine/FeedOps.lean ====
section
/-! DEFINITION. The meanings of the feed port's commands (R486–R497). -/

namespace Sys2Proof.Machine

/-- ARM (R493). -/
def execArm (who : Who) (es : List RdErr) (heads : List (Option (List Byte))) (s : State) :
    Host.Outcome State Fault Refusal :=
  onLive (fun d => d.arm who es heads) s

/-- NVME_COMPLETION (R492). -/
def execNvmeCompletion (id : Nat) (ok : Bool) (data : List Byte) (bad : List Nat) (es : List RdErr) (s : State) :
    Host.Outcome State Fault Refusal :=
  onLive (fun d => d.nvmeCompletion id ok data bad es) s

/-- NVME_TIMEOUT (R492). -/
def execNvmeTimeout (id : Nat) (s : State) : Host.Outcome State Fault Refusal := onLive (fun d => d.nvmeFail id stTimeout) s

/-- CKPT_GO (R496). -/
def execCkptGo (who : Who) (v : Word) (clearing : Bool) (s : State) : Host.Outcome State Fault Refusal :=
  onLive (fun d => d.ckptGo who v.toNat clearing) s

/-- CKPT_DONE (R496). -/
def execCkptDone (ok : Bool) (s : State) : Host.Outcome State Fault Refusal := onLive (fun d => d.ckptDone ok) s

/-- BAR2_ACCESS (R490). -/
def execBar2Access (write : Bool) (off : BitVec 36) (n : Nat) (data : List Byte) (ep : Bool) (es : List RdErr) (s : State) :
    Host.Outcome State Fault Refusal :=
  onLive (fun d => d.bar2Access write off.toNat n data ep es) s

/-- FEED_LINK_DOWN (R487). -/
def execFeedLinkDown (link : Fin 4) (lost : List Nat) (s : State) : Host.Outcome State Fault Refusal :=
  onLive (fun d => d.feedLinkDown link.val lost) s

/-- FEED_LINK_UP (R487). -/
def execFeedLinkUp (link : Fin 4) (flit : Bool) (ns : List (Nat × Nat × Nat × Bool)) (s : State) :
    Host.Outcome State Fault Refusal :=
  onLive (fun d => d.feedLinkUp link.val flit ns) s

end Sys2Proof.Machine
end

