-- ==== Sys2Proof/Machine/Restart.lean ====
section
/-! DEFINITION. Package and cold resets, bring-up, the charge between the halves, the watchdog, the fabric ID (R22, R404, R409,
R455–R463, R466–R475, R484, R512). -/

namespace Sys2Proof.Machine

/-! ## Package and cold resets (R404, R409, R428, R429, R438, R457, R463, R466) -/

/-- Fields kept in flash or fuses through every reset: the tenancy and claim, the licences, the slots. -/
def flashFields : List Fld :=
  [F.SEC_STATUS_CLAIMED, F.SEC_STATUS_SPLIT, F.SEC_STATUS_SCOPE_W, F.SEC_STATUS_SCOPE_E, F.SEC_STATUS_TAG_W, F.SEC_STATUS_TAG_E,
   F.SEC_LIC_FEATURES, F.SEC_LIC_COUNT, F.DEV_SLOTS_SLOT_A, F.DEV_SLOTS_SLOT_B, F.DEV_SLOTS_FLOOR, F.DEV_REPAIR_TILES,
   F.DEV_REPAIR_ROWS, F.DEV_UPDATE_PHASE, F.DEV_UPDATE_LAST_STATUS, F.DEV_UPDATE_BLOCKS, F.DEV_UPDATE_UPDATE_ID,
   F.DEV_STATE_UPDATE_STAGED, F.MBX_STATUS_BOOT]

/-- Fields a package reset keeps besides: the straps and the repair map of the last cold reset. -/
def packageFields : List Fld :=
  [F.DEV_STRAPS_FEED_ID, F.DEV_STRAPS_SHEAF_RANK, F.DEV_STRAPS_TALLY_MASTER, F.DEV_STRAPS_BOOT_SEL, F.DEV_STRAPS_FEED_PORT_MODE, F.FED_STATUS_MODE,
   F.DEV_REPAIR_PENDING, F.DEV_STATE_DEGRADED_W, F.DEV_STATE_DEGRADED_E]

/-- The register file after a package reset (which keeps MBX_) or a cold one. -/
def Dev.keptRegs (d : Dev) (cold : Bool) : FMap Nat :=
  d.regs.filter fun p => (flashFields ++ if cold then [] else packageFields).any (fun f => f.key 0 == p.1) ||
    (!cold && decide (8 * 0xA000000 ≤ p.1) && decide (p.1 < 8 * 0xB000000))

/-- The management subsystem after a reset; `kept`: the standby rail stayed in range. -/
def MgmtS.restart (m : MgmtS) (cold kept : Bool) : MgmtS :=
  { m with
    sessions := [], sensorWait := [], tripArm := [], lpW := 0, lpE := 0, levelW := 0, levelE := 0, subs := [], subLast := 3, subWait := 0
    started := false
    tripLatch := m.tripLatch && (kept || !cold)
    sbQueue := if kept then m.sbQueue else [], sbDropped := if kept then m.sbDropped else 0
    trace := if kept then m.trace else [], powerLog := if kept then m.powerLog else [] }

/-- A ledger after a reset: the ring is gone with the stack memory, the mirror stays with the standby rail; without it numbering
goes on at the head recorded in the strongbox plus 65,536 (R404). -/
def Ledger.restart (l : Ledger) (kept : Bool) (noted : Option Nat) : Ledger :=
  if kept then { l with ring := [], slot := 0 }
  else { Ledger.init with head := match noted with
    | some n => n + 65536
    | none => 0 }

/-- Every block but the standby domain is in reset, and the management processor restarts. -/
def Dev.restart (d : Dev) (cold kept : Bool) (code : Nat) : Dev :=
  let n : Dev :=
    { Dev.reset with
      regs := d.keptRegs cold
      pw := { d.pw with relock := none, echoDue := false, hbSeen := false, tripped := d.pw.tripped && !cold, stbyLost := d.pw.stbyLost || !kept
                        profile := if code = 1 then 1 else d.pw.profile }
      led0 := d.led0.restart kept d.boot.sbHead0
      led1 := d.led1.restart kept d.boot.sbHead1
      mg := d.mg.restart cold kept
      sec := { d.sec with profBy := none, debugBy := none, wait := 0, addrFails := [], addrRefused := [], bundles := [], winnows := [] }
      boot := { d.boot with step := 4, cause := code, kicked := false, update := if kept then d.boot.update else none }
      srv := if kept then { SrvS.init with rounds := d.srv.rounds, recovery := d.srv.recovery } else SrvS.init
      out := d.out
      free := d.free }
  let n := [F.MBX_STATUS_RUNNING, F.MBX_STATUS_PORT_UP, F.MBX_PORT_LINK_UP, F.MBX_TRACE_CTRL_ENABLE, F.MBX_STATUS_THROT_W,
    F.MBX_STATUS_THROT_E].foldl (fun n f => n.fset f 0) n
  let n := if cold then (n.fset F.MBX_STATUS_SRAM_KEPT 0).fsetB F.MBX_RESET_CAUSE_TRIP (d.mg.tripLatch && kept) else n
  let n := n.fset F.MBX_RESET_CAUSE_LEVEL code
  d.sec.winnows.foldl (fun n p => (n.event E.SEC_WINNOW_FAIL).setOwner (scopeOf p.1) 2 0 []) n

/-- A package reset by the PACKAGE_RESET command (code 0x03), the watchdog (0x04) or an activation; the watchdog's event shows at
the next start. -/
def Dev.packageReset (d : Dev) (code : Nat) : Dev :=
  let n := d.restart false true code
  if code = 4 then n.event E.DEV_WDOG else n

/-- PACKAGE_RESET: the reset follows the start of its entry; ACCEPTED entries are superseded. -/
def Dev.packageResetCmd (d : Dev) (h : HalfId) (seq : Nat) : Dev :=
  d.begin h seq 0x14 fun d _ => (d.supersede h).packageReset 3

/-- COLD_RESET: PWR_GOOD or RESET_N or both have fallen; `vstby`: the standby rail stayed in range; `torn`: a strongbox record was
being written. -/
def Dev.coldReset (d : Dev) (pwr rst vstby torn : Bool) : Dev :=
  if !pwr && !rst then d else
  let d := if torn && !d.mg.sbQueue.isEmpty then d.sbTear else d
  let n := d.restart true vstby (if pwr then 1 else 2)
  { n with pw := { n.pw with pwrGood := d.pw.pwrGood && !pwr, resetN := d.pw.resetN && !rst } }

/-! ## Bring-up (Table 19-3) -/

/-- BRINGUP: PWR_GOOD and RESET_N are both high: the straps are sampled and the repair map is computed; `pageOk`: the repair
page's CRC is right. -/
def Dev.bringup (d : Dev) (feedId rank : Nat) (master : Bool) (bootSel : Nat) (root pageOk : Bool) : Dev :=
  if d.powered then d else
  let d := { d with pw := { d.pw with pwrGood := true, resetN := true }
                    boot := { d.boot with step := 4, cause := max 1 d.boot.cause, pageBad := !pageOk } }
  let d := (d.fset F.DEV_STRAPS_FEED_ID feedId).fset F.DEV_STRAPS_SHEAF_RANK rank
  let d := ((d.fsetB F.DEV_STRAPS_TALLY_MASTER master).fset F.DEV_STRAPS_BOOT_SEL bootSel).fsetB F.DEV_STRAPS_FEED_PORT_MODE root
  let d := d.fsetB F.FED_STATUS_MODE root
  let d := if pageOk then d else d.event E.DEV_REPAIR_BAD
  (d.fset F.DEV_REPAIR_PENDING 0).repairMap

/-- The state of a slot (R481); `b`: slot B. -/
def Dev.slotMark (d : Dev) (b : Bool) : Nat := d.fget (if b then F.DEV_SLOTS_SLOT_B else F.DEV_SLOTS_SLOT_A)
def Dev.setSlotMark (d : Dev) (b : Bool) (v : Nat) : Dev := d.fset (if b then F.DEV_SLOTS_SLOT_B else F.DEV_SLOTS_SLOT_A) v

/-- The slot the boot ROM tries first (R481). -/
def Dev.firstSlot (d : Dev) : Bool :=
  match d.fget F.DEV_STRAPS_BOOT_SEL with
  | 1 => false
  | 2 => true
  | _ =>
    if d.slotMark false = 2 then false
    else if d.slotMark true = 2 then true
    else d.slotMark false != 3 && d.slotMark true == 3

/-- The settings come into force: the registers they hold and the fabric ID (R459, R484). -/
def Dev.applySettings (d : Dev) : Dev :=
  let ps := d.boot.settings.filter fun (p : Nat × Nat) => isSetting (p.1 / 64 * 8)
  let d := { d with regs := ps.foldl (fun (m : FMap Nat) (p : Nat × Nat) => fmSet m p.1 p.2) d.regs }
  match d.boot.settingsFabric with
  | some i => ((d.fset F.DEV_FABRIC_ID i).fset F.DEV_FABRIC_VALID 1).refreshMaster
  | none => d

/-- A FORMAT older than Uhlea's own: every setting returns to its default, and a scope that was not FREE_CLEAN is FREE_DIRTY. -/
def Dev.resetSettings (d : Dev) : Dev :=
  let d := { d with boot := { d.boot with settings := [], settingsFabric := none, settingsFormat := d.boot.uhleaFormat } }
  let d := [false, true].foldl (fun d h => if d.scopeState h = 0 then d else d.setTenant h 2 0) d
  (d.event E.DEV_SETTINGS_RESET).sbLog 0x00A0 1 []

/-- At its start Uhlea finds the trip latch set, and clears it (R524, Table 17-12). -/
def Dev.tripFound (d : Dev) : Dev :=
  if d.mg.tripLatch then ({ d with mg := { d.mg with tripLatch := false } } : Dev).mbxEvent E.MBX_THERM_TRIP else d

/-- Uhlea starts from a slot. -/
def Dev.startUhlea (d : Dev) (b kept : Bool) (format : Nat) : Dev :=
  let d := if kept then d else
    { d with led0 := d.led0.restart false d.boot.sbHead0, led1 := d.led1.restart false d.boot.sbHead1
             mg := d.mg.restart false false, srv := SrvS.init, boot := { d.boot with update := none } }
  let d := (((d.fset F.MBX_STATUS_RUNNING 1).fsetB F.MBX_STATUS_SLOT b).fsetB F.MBX_STATUS_SRAM_KEPT kept).count F.MBX_STATUS_BOOT
  let d := { d with boot := { d.boot with step := 6, runB := b, kicked := false, uhleaFormat := format }, pw := { d.pw with stbyLost := false } }
  let trial := d.slotMark b == 2
  let d := (d.fsetB F.DEV_STATE_TRIAL trial).setScope .whole 1 0
  let d := if d.boot.settingsFormat < format && !trial then d.resetSettings else d
  (d.applySettings.showRepair.sbScan.tripFound).sbLog 0x0001 0 [if b then 1 else 0, d.boot.cause, if kept then 1 else 0, d.led0.head]

/-- UHLEA_START: the boot ROM has verified a slot; `ok`, `ok2`: the slot tried first, and the other, verify; `kept`: the kept
regions pass their integrity check (R409); `format`: the settings FORMAT of the Uhlea that starts. A TRIAL slot that fails is
FAILED, but not where BOOT_SEL names a slot. Where both fail, the device stays at STATE 0. -/
def Dev.uhleaStart (d : Dev) (ok ok2 kept : Bool) (format : Nat) : Dev :=
  if !d.powered || d.boot.step ≠ 4 || d.fget F.DEV_STRAPS_BOOT_SEL = 3 then d else
  let b := d.firstSlot
  let keep := kept && !d.pw.stbyLost
  if ok then d.startUhlea b keep format
  else
    let fails := d.fget F.DEV_STRAPS_BOOT_SEL = 0 && d.slotMark b = 2
    let d := if fails then d.setSlotMark b 5 else d
    let d := if fails then
        ((d.emit (.fabric 5 [4, d.fget F.DEV_UPDATE_UPDATE_ID])).fset F.DEV_UPDATE_PHASE 6).event E.DEV_UPDATE_FAIL
      else d
    if ok2 then d.startUhlea (!b) keep format else d

/-- Uhlea runs, and bring-up is at a step. -/
def Dev.atStep (d : Dev) (n : Nat) : Bool := d.uhlea && d.boot.step == n

/-- STACK_TRAINING_DONE: the stack is trained and its rows are hard repaired where they are pending (`rep`: which found a spare), or
it is DEGRADED; its words are zero. -/
def Dev.stackTrainingDone (d : Dev) (k : Nat) (ok : Bool) (rep : List Bool) : Dev :=
  let a := stackAdd k
  if !d.atStep 6 || d.flag F.STK_STATUS_TRAINED a || d.flag F.STK_STATUS_DEGRADED a then d else
  let r := d.boot.rows.foldl (fun (r : List RowDefect × List Bool) x =>
    if x.stack = k && x.state = 0 && ok then (r.1 ++ [{ x with state := if r.2.headD true then 1 else 2 }], r.2.drop 1)
    else (r.1 ++ [x], r.2)) ([], rep)
  let d := { d with boot := { d.boot with rows := r.1 } }
  let d := if ok then d.fset F.STK_STATUS_TRAINED 1 a else d.fset F.STK_STATUS_DEGRADED 1 a
  let all := (List.range 8).all fun k => d.flag F.STK_STATUS_TRAINED (stackAdd k) || d.flag F.STK_STATUS_DEGRADED (stackAdd k)
  if all then { d with boot := { d.boot with step := 7 } } else d

/-- The east half becomes ORPHAN: its event, and everything it owns is out of reach (R22, R471). -/
def Dev.orphan (d : Dev) : Dev :=
  if d.half true = 7 then d else (d.setHalf true 7 1).event E.DEV_ORPHAN

/-- Both halves claim charge: each enters FAULT, and one record names both fuse readings (R472). -/
def Dev.dualClaim (d : Dev) : Dev :=
  let enter (d : Dev) (h : HalfId) : Dev :=
    if d.half h = 7 && d.halfSub h = 0 then d else (d.setHalf h 7 0).event E.DEV_DUAL_CLAIM
  let b (v : Bool) : Nat := if v then 1 else 0
  (enter (enter d false) true).sbLog 0x0002 2 [7, b d.pw.fuseW, b d.pw.fuseE]

/-- BRIDGE_TRAINING_DONE: the bridge is trained, or the east half is ORPHAN. A half whose fuse does not match its bridge end enters
FAULT (R472); admission and the tally follow. -/
def Dev.bridgeTrainingDone (d : Dev) (ok : Bool) : Dev :=
  if !d.atStep 7 then d else
  let d := { d with boot := { d.boot with step := 10 } }
  let d := if ok then d else d.orphan
  let bad (h fuse : Bool) (d : Dev) : Dev := if fuse == h then (d.setHalf h 7 0).event E.DEV_DUAL_CLAIM else d
  let b (v : Bool) : Nat := if v then 1 else 0
  if d.pw.fuseW && !d.pw.fuseE then d
  else ((bad true d.pw.fuseE (bad false d.pw.fuseW d))).sbLog 0x0002 2 [7, b d.pw.fuseW, b d.pw.fuseE]

/-- TALLY_WAIT_EXPIRED: 16 ticks have passed. -/
def Dev.tallyWaitExpired (d : Dev) : Dev := if d.atStep 10 then { d with boot := { d.boot with step := 11 } } else d

/-- The mirror's entries back in the ring, in sequence order; those found ACCEPTED or STARTED end FAILED with ABANDONED and
RESET_LOST (R404). -/
def Ledger.rebuild (l : Ledger) : Ledger :=
  let fix (e : Entry) : Entry :=
    if e.ended then e else { e with state := 4, status := stAbandoned, flags := e.flags ||| 2, due := false }
  let m := fmMap l.mirror fun _ e => fix e
  Ledger.pruneMirror
    { l with mirror := m, ring := m.zipIdx.map fun p => (p.2, p.1.2), slot := m.length % 65536 }

/-- A ledger is rebuilt; the RESET entry follows; after a cold reset the head goes to the strongbox. -/
def Dev.rebuildLedger (d : Dev) (h : HalfId) : Dev :=
  let lost := ((d.led h).mirror.filter fun p => !p.2.ended).length
  let d := d.setLed h (d.led h).rebuild
  let d := (List.range lost).foldl (fun d _ => d.event E.CMD_RESET_LOST) d
  let d := d.resetEntry h d.boot.cause
  if 3 ≤ d.boot.cause then d else
  let seq := (d.led h).head
  let d := d.sbLog 0x0090 0 [if h then 1 else 0, seq]
  { d with boot := if d.split && h then { d.boot with sbHead1 := some seq } else { d.boot with sbHead0 := some seq } }

/-- BRINGUP_COMPLETE: the ledger is rebuilt and the halves are IDLE; a device on a TRIAL slot reports TRIAL_UP (R482). -/
def Dev.bringupComplete (d : Dev) : Dev :=
  if !d.atStep 11 && !(d.atStep 10 && d.lockState == 3) then d else
  let d := d.ledgers.foldl (fun d h => d.rebuildLedger h) d
  let d := { d with boot := { d.boot with step := 0 } }
  let d := d.setScope .whole 2 0
  if d.flag F.DEV_STATE_TRIAL then d.emit (.fabric 5 [3, d.fget F.DEV_UPDATE_UPDATE_ID]) else d

/-! ## The watchdog (R467, R481) -/

/-- WATCHDOG: a period has passed without a kick. A TRIAL slot whose Uhlea has never kicked is FAILED. -/
def Dev.watchdog (d : Dev) : Dev :=
  if !d.uhlea || d.fget F.DEV_STRAPS_BOOT_SEL = 3 then d else
  let b := d.boot.runB
  let fails := d.slotMark b = 2 && !d.boot.kicked && d.fget F.DEV_STRAPS_BOOT_SEL = 0
  let d := if fails then
      ((d.setSlotMark b 5).emit (.fabric 5 [4, d.fget F.DEV_UPDATE_UPDATE_ID])).fset F.DEV_UPDATE_PHASE 6
    else d
  let d := d.packageReset 4
  if fails then d.event E.DEV_UPDATE_FAIL else d

/-- KICK: only Uhlea restarts the period. -/
def Dev.kick (d : Dev) (w : Who) : Dev := if d.uhlea && w == .uhlea then { d with boot := { d.boot with kicked := true } } else d

/-! ## The charge between the halves (R470–R472) -/

/-- The heartbeats run, from step 8 of bring-up on. -/
def Dev.charged (d : Dev) : Bool := d.uhlea && (d.boot.step == 0 || 8 ≤ d.boot.step)

/-- HEARTBEAT: the west half's word of a tick. -/
def Dev.heartbeat (d : Dev) : Dev :=
  if !d.charged then d else
  let d := (d.emit (.bridge false d.pw.fuseW (d.now % 65536) (d.half false))).fsetB F.DEV_CHARGE_CLAIM_W d.pw.fuseW
  { d with pw := { d.pw with echoDue := true } }

/-- HEARTBEAT_RX: the east half receives a word with a right CRC, and answers with its echo. -/
def Dev.heartbeatRx (d : Dev) (claim : Bool) : Dev :=
  if !d.charged then d else
  let d := (d.fset F.DEV_CHARGE_MISS_E 0).fsetB F.DEV_CHARGE_CLAIM_W claim
  let d := { d with pw := { d.pw with hbSeen := true } }
  let d := if claim && d.pw.fuseE then d.dualClaim else d
  (d.emit (.bridge true d.pw.fuseE (d.now % 65536) (d.half true))).fsetB F.DEV_CHARGE_CLAIM_E d.pw.fuseE

/-- ECHO_RX: the west half receives an echo with a right CRC. -/
def Dev.echoRx (d : Dev) (claim : Bool) : Dev :=
  if !d.charged then d else
  let d := (d.fset F.DEV_CHARGE_MISS_W 0).fsetB F.DEV_CHARGE_CLAIM_E claim
  let d := { d with pw := { d.pw with echoDue := false } }
  if claim && d.pw.fuseW then d.dualClaim else d

/-- A word is missed: the count in a row, up to 16; the 16th makes the east half ORPHAN. -/
def Dev.wordMissed (d : Dev) (f : Fld) : Dev :=
  let n := min 16 (d.fget f + 1)
  let d := (d.fset f n).event E.DEV_HB_MISS
  if n = 16 then d.orphan else d

/-- HEARTBEAT_MISS: no heartbeat in this tick. -/
def Dev.heartbeatMiss (d : Dev) : Dev := if !d.charged || d.pw.hbSeen then d else d.wordMissed F.DEV_CHARGE_MISS_E

/-- ECHO_MISS: no echo within 400 cycles of the heartbeat. -/
def Dev.echoMiss (d : Dev) : Dev :=
  if !d.charged || !d.pw.echoDue then d
  else ({ d with pw := { d.pw with echoDue := false } }).wordMissed F.DEV_CHARGE_MISS_W

/-! ## The fabric ID (R459) -/

/-- FABRIC_ID_WRITE: discarded in any state but IDLE, or where bits [15:13] differ from the sheaf rank. DESIGN CHOICE: a device that
becomes the tally master in UNLOCKED, ACQUIRE or HOLDOVER, states the master never enters (R43), goes to FREE_RUN and from there to
LOCKED as R43 says. -/
def Dev.fabricIdWrite (d : Dev) (w : Who) (v : Nat) : Dev :=
  let idle := d.half false = 2 && (d.half true = 2 || d.half true = 7)
  if !d.uhlea || !d.mayWrite w 0x18 || !idle || bits v 13 3 ≠ d.fget F.DEV_STRAPS_SHEAF_RANK then d else
  let d := ((d.fset F.DEV_FABRIC_ID v).fset F.DEV_FABRIC_VALID 1).refreshMaster
  let d := if d.isMaster && d.lockState != 3 then d.setLock 0 else d
  ({ d with boot := { d.boot with settingsFabric := some (v % 65536) } }).settingsWritten

end Sys2Proof.Machine
end

