-- ==== Sys2Proof/Machine/Firmware.lean ====
section
/-! DEFINITION. Firmware update: staging, chain delivery, verification, the microcode broadcast, activation (R476–R483). -/

namespace Sys2Proof.Machine

/-- The slot that is not running, replaced. -/
def Dev.setOtherSlot (d : Dev) (b : List Byte) : Dev :=
  { d with boot := if d.boot.runB then { d.boot with slotA := b } else { d.boot with slotB := b } }

/-- The update in progress, changed. -/
def Dev.modUpdate (d : Dev) (f : UpdateS → UpdateS) : Dev := { d with boot := { d.boot with update := d.boot.update.map f } }

/-- The bytes of a block. -/
def blockSize : Nat := 65536

/-- The blocks of an image. -/
def UpdateS.blocks (u : UpdateS) : Nat := (u.len + blockSize - 1) / blockSize

/-- DEV_UPDATE's phase and, at an end, its status. -/
def Dev.updPhase (d : Dev) (ph : Nat) : Dev := d.fset F.DEV_UPDATE_PHASE ph
def Dev.updStatus (d : Dev) (ph st : Nat) : Dev := (d.updPhase ph).fset F.DEV_UPDATE_LAST_STATUS st

/-- A report to the master: 1 COMPLETE, 2 SHORTFALL, 3 TRIAL_UP, 4 TRIAL_FAIL, with the UPDATE_ID and a status (R479, R482). -/
def Dev.reportUpdate (d : Dev) (kind id st : Nat) : Dev := d.emit (.fabric 5 [kind, id, st])

/-! ## The header (R476) -/

/-- The manifest entries of a header. -/
def manifest (b : List Byte) : List (List Byte) := (List.range 5).map fun i => bytesAt b (0x40 + 64 * i) 64
def mfOff (e : List Byte) : Nat := leAt e 8 4
def mfLen (e : List Byte) : Nat := leAt e 12 4

/-- Two payloads overlap. -/
def mfOverlap (a b : List Byte) : Bool := mfOff a < mfOff b + mfLen b && mfOff b < mfOff a + mfLen a

/-- The first failure of the header's checks; `sigOk`: the signature verifies. A payload shorter than 28 bytes, or in the header's
block, is out of range. -/
def Dev.headerCheck (d : Dev) (b : List Byte) (sigOk : Bool) : Option Nat :=
  let m := manifest b
  let total := leAt b 0x18 8
  firstFail [
    failIf (leAt b 0 4 != 0x50554B5A || leAt b 4 2 != 512 || !zeroBytes b 0x0A 0x0B || !zeroBytes b 0x14 0x17 || !zeroBytes b 0x20 0x3F ||
      !zeroBytes b 0x1E0 0x1FF || m.any fun e => !zeroBytes e 1 3 || 5 ≤ leAt e 0 1) stBadFormat,
    failIf (leAt b 6 2 != 9 || 0xB0 < leAt b 8 1) stBadFormat,
    failIf (!sigOk) stAuthFailed,
    failIf (decide (leAt b 0x0C 4 < d.fget F.DEV_SLOTS_FLOOR)) stWrongState,
    failIf (leAt b 9 1 != 5 || !(List.range 5).all fun c => m.any fun e => leAt e 0 1 == c) stCountRange,
    failIf (67108864 < total || (m.any fun e => total < mfOff e + mfLen e || mfLen e < 28 || mfOff e < 512) ||
      (List.range 5).any fun i => (m.drop (i + 1)).any fun e => mfOverlap ((m[i]?).getD []) e) stLenRange,
    failIf (m.any fun e => mfOff e % 65536 != 0) stAlign,
    failIf (d.flag F.DEV_STATE_UPDATE_STAGED || d.slotMark false == 2 || d.slotMark true == 2) stWrongState]

/-! ## Staging and chain delivery (R477–R479) -/

/-- The master sends UPDATE_ACTIVATE to every device it staged: ACTION, UPDATE_ID, EXEC_AT or 0. -/
def Dev.activateAll (d : Dev) (action at_ : Nat) : Dev :=
  match d.boot.update with
  | none => d
  | some u => u.staged.foldl (fun d dev => d.emit (.fabric 7 [dev, action, u.id, at_])) d

/-- The staging has failed: its entry, the event, the report to the master, which aborts the devices it staged. -/
def Dev.stageFails (d : Dev) (st : Nat) : Dev :=
  match d.boot.update with
  | none => d
  | some u =>
    let d := ((d.activateAll 1 0).finish u.entryHalf u.entrySeq st).event E.DEV_UPDATE_FAIL
    let d := { (d.updStatus 6 st).setSlotMark (!d.boot.runB) 0 with boot := { d.boot with update := none } }
    (d.sbLog 0x0070 1 [st]).reportUpdate 2 u.id st

/-- A block goes to a downstream port. -/
def Dev.sendBlock (d : Dev) (p id k len : Nat) : Dev :=
  let b := bytesAt d.otherSlot (blockSize * k) (min blockSize (len - blockSize * k))
  d.emit (.fabric 6 [p, 0, id, k, b.length, crc32c b, leNat b])

/-- A branch sends until four blocks are out or every block held has been sent. -/
def Dev.pumpBranch (d : Dev) (p : Nat) : Nat → Dev
  | 0 => d
  | n + 1 =>
    match d.boot.update with
    | none => d
    | some u =>
      match fmGet u.down p with
      | none => d
      | some b =>
        if b.dead || 4 ≤ b.sent.length || u.held ≤ b.next then d
        else
          let d := d.modUpdate fun u => { u with down := fmSet u.down p { b with next := b.next + 1, sent := fmSet b.sent b.next 1 } }
          (d.sendBlock p u.id b.next u.len).pumpBranch p n

/-- Every branch sends. -/
def Dev.pumpBranches (d : Dev) : Dev :=
  match d.boot.update with
  | none => d
  | some u => u.down.foldl (fun d p => d.pumpBranch p.1 4) d

/-- A block is held: once all are, the payloads are to be verified. -/
def Dev.blockHeld (d : Dev) (n : Nat) : Dev :=
  let d := (d.modUpdate fun u => { u with held := n }).fset F.DEV_UPDATE_BLOCKS n
  let d := d.pumpBranches
  match d.boot.update with
  | some u => if u.blocks ≤ n then d.updPhase 2 else d
  | none => d

/-- The image of SRC_KIND 0 or 1: read from stack memory (`none` where a word is poison), or as the host gives it. -/
def Dev.stageSource (d : Dev) (e : Entry) (host : Option (List Byte)) : Option (List Byte) :=
  let n := e.arg 40 8
  if e.arg 24 1 = 0 then (if d.anyPoison (e.arg 32 8) n then none else some (memBytes d.mem (e.arg 32 8) n))
  else host.map fun b => (b ++ List.replicate (n - b.length) 0#8).take n

/-- UPDATE_STAGE: an update that was being received gives way. `sigOk`: the header's signature verifies; `host`: the image in the
feed window, or `none` where it cannot be read; `staged`: the devices that the fabric master stages. -/
def Dev.updateStage (d : Dev) (h : HalfId) (seq : Nat) (sigOk : Bool) (host : Option (List Byte)) (staged : List Nat) : Dev :=
  d.begin h seq 0x18 fun d e =>
    let k := e.arg 24 1
    let id := e.arg 52 4
    let ports := (List.range 15).filter fun p => bit (e.arg 48 2) p
    let u : UpdateS :=
      { id, entryHalf := h, entrySeq := seq, srcKind := k, upPort := e.arg 25 1
        down := ports.map fun p => (p, { acked := 0, next := 0, sent := [], dead := false }), len := e.arg 40 8, held := 0
        banksLoaded := false, coresDone := [], coreTries := [], reports := [], staged }
    let busy := d.flag F.DEV_STATE_UPDATE_STAGED || d.slotMark false = 2 || d.slotMark true = 2
    if busy then ((d.event E.DEV_UPDATE_FAIL).fset F.DEV_UPDATE_LAST_STATUS stWrongState).finish h seq stWrongState
    else
      let d := if d.boot.update.isSome then d.stageFails stUpdateIncomplete else d
      let d := (d.updPhase 1).fset F.DEV_UPDATE_UPDATE_ID id
      let d := ({ d with boot := { d.boot with update := some u } }).fset F.DEV_UPDATE_BLOCKS 0
      if (ports ++ if k = 2 then [u.upPort] else []).any fun p => !d.linkUp p then d.stageFails stPartnerAbsent
      else if k = 2 then d
      else
        match d.stageSource e host with
        | none => d.stageFails (if k = 0 then stPoison else stPartnerAbsent)
        | some b =>
          match d.headerCheck (b.take 512) sigOk with
          | some st => d.stageFails st
          | none => (d.setOtherSlot b).blockHeld u.blocks

/-- An answer to an upstream sender: 1 ACK, 2 NAK, with a block index and a status. -/
def Dev.blockAnswer (d : Dev) (p kind id k st : Nat) : Dev := d.emit (.fabric 6 [p, kind, id, k, st])

/-- UPDATE_BLOCK: a block of the update being received arrives at the upstream port. -/
def Dev.updateBlock (d : Dev) (p id k : Nat) (data : List Byte) (crc : Nat) (sigOk : Bool) : Dev :=
  match d.boot.update with
  | none => d
  | some u =>
    if u.srcKind ≠ 2 || u.id ≠ id || u.upPort ≠ p then d
    else if crc32c data ≠ crc || u.held < k then d.blockAnswer p 2 id u.held stOk
    else if k < u.held then d.blockAnswer p 1 id k stOk
    else
      match if k = 0 then d.headerCheck (data.take 512) sigOk else none with
      | some st => (d.blockAnswer p 2 id 0 st).stageFails st
      | none =>
        let d := (d.setOtherSlot ((if k = 0 then [] else d.otherSlot) ++ data)).blockAnswer p 1 id k stOk
        d.blockHeld (k + 1)

/-- A block is sent again; one sent eight times fails its branch, and the staging with it, with TIMEOUT. -/
def Dev.resendBlock (d : Dev) (p k : Nat) : Dev :=
  match d.boot.update with
  | none => d
  | some u =>
    match fmGet u.down p with
    | none => d
    | some b =>
      match fmGet b.sent k with
      | none => d
      | some n =>
        if b.dead then d
        else if 8 ≤ n then
          (d.modUpdate fun u => { u with down := fmSet u.down p { b with dead := true } }).stageFails stTimeout
        else
          (d.modUpdate fun u => { u with down := fmSet u.down p { b with sent := fmSet b.sent k (n + 1) } }).sendBlock p u.id k u.len

/-- UPDATE_BLOCK_ACK: an ACK frees a block; a NAK has it sent again, or with a status ends the branch. -/
def Dev.updateBlockAck (d : Dev) (p id k : Nat) (nak : Bool) (st : Nat) : Dev :=
  match d.boot.update with
  | none => d
  | some u =>
    if u.id ≠ id then d else
    match fmGet u.down p with
    | none => d
    | some b =>
      if nak && st != 0 then d.modUpdate fun u => { u with down := fmSet u.down p { b with dead := true } }
      else if nak then d.resendBlock p k
      else
        (d.modUpdate fun u => { u with down := fmSet u.down p { b with acked := max b.acked (k + 1), sent := fmErase b.sent k } }).pumpBranch p 4

/-- UPDATE_BLOCK_RESEND: 64 ticks without an ACK. -/
def Dev.updateBlockResend (d : Dev) (p k : Nat) : Dev := d.resendBlock p k

/-! ## Verification and the microcode (R479, R480) -/

/-- The 32-byte messages of the microcode. -/
def microMsgs (b : List Byte) : Nat :=
  match (manifest b).find? fun e => leAt e 0 1 == 2 with
  | some e => (mfLen e - 28 + 31) / 32
  | none => 0

/-- A report at the master, from a device (itself included). -/
def Dev.noteReport (d : Dev) (dev kind : Nat) : Dev := d.modUpdate fun u => { u with reports := fmSet u.reports dev kind }

/-- The master, whose own staging is done, finds every device it staged COMPLETE: its entry ends OK, and it sends the commit for a tick
at least 64 ahead (R482). DEDUCED: the entry of the master stays open until then, since an abort ends it FAILED. -/
def Dev.judgeComplete (d : Dev) : Dev :=
  match d.boot.update with
  | none => d
  | some u =>
    if !u.staged.isEmpty && d.flag F.DEV_STATE_UPDATE_STAGED && (u.staged.all fun x => fmGet u.reports x == some 1) then
      let f := (d.finish u.entryHalf u.entrySeq stOk).fresh 16
      f.2.activateAll 0 (d.now + 64 + f.1)
    else d

/-- Everything is in place: the update is staged, and COMPLETE is reported. -/
def Dev.stageDone (d : Dev) : Dev :=
  match d.boot.update with
  | none => d
  | some u =>
    let d := if u.staged.isEmpty then d.finish u.entryHalf u.entrySeq stOk else d
    let d := (d.fset F.DEV_STATE_UPDATE_STAGED 1).setSlotMark (!d.boot.runB) 1
    let d := (d.updStatus 4 stOk).sbLog 0x0070 0 [leNat (sha384 (d.otherSlot.take 512)), stOk]
    ((d.reportUpdate 1 u.id stOk).noteReport d.me 1).judgeComplete

/-- UPDATE_VERIFY: each payload against its DIGEST and its GCM tag (`tagsOk`); then the banks are loaded and the broadcast may begin. -/
def Dev.updateVerify (d : Dev) (tagsOk : Bool) : Dev :=
  if d.fget F.DEV_UPDATE_PHASE ≠ 2 || d.boot.update.isNone then d else
  let b := d.otherSlot
  let good := (manifest b).all fun e => sha384 (bytesAt b (mfOff e) (mfLen e)) == bytesAt e 16 48
  if !(good && tagsOk) then d.stageFails stDigestMismatch
  else
    let d := (d.modUpdate fun u => { u with banksLoaded := true }).updPhase 3
    if microMsgs b = 0 then d.stageDone else d

/-- MICROCODE_MESSAGE: core t receives message n while no half is RUNNING or PAUSED; `crcOk`: the block that the message completes has
a good CRC-32C. A gap or a bad block has the block sent again; the third bad try fails the update. -/
def Dev.microcodeMessage (d : Dev) (t n : Nat) (body : List Byte) (crcOk : Bool) : Dev :=
  match d.boot.update with
  | none => d
  | some u =>
    let busy (h : HalfId) : Bool := d.half h == 4 || d.half h == 5
    if d.fget F.DEV_UPDATE_PHASE ≠ 3 || busy false || busy true || u.coresDone.contains t then d else
    let m := (d.tile t).micro
    let next := m.length
    let total := microMsgs d.otherSlot
    let ends := (n + 1) % 2048 == 0 || n + 1 == total
    if n ≠ next || (ends && !crcOk) then
      let blk := next / 2048
      let tries := (fmGet u.coreTries (2 * t + blk)).getD 0 + 1
      let d := d.modTile t fun x => { x with micro := fmEraseRange x.micro (2048 * blk) (2048 * (blk + 1)) }
      let d := d.modUpdate fun u => { u with coreTries := fmSet u.coreTries (2 * t + blk) tries }
      if 3 ≤ tries then d.stageFails stUpdateIncomplete else d
    else
      let d := d.modTile t fun x => { x with micro := fmSet x.micro n (body.take 32) }
      if n + 1 < total then d
      else
        let d := d.modUpdate fun u => { u with coresDone := u.coresDone ++ [t] }
        if u.coresDone.length + 1 = 512 then d.stageDone else d

/-! ## Activation (R481–R483) -/

/-- The master gives the update up: its entry ends UPDATE_INCOMPLETE, and every device is to abort. -/
def Dev.abortAll (d : Dev) : Dev :=
  match d.boot.update with
  | none => d
  | some u => (d.finish u.entryHalf u.entrySeq stUpdateIncomplete).activateAll 1 0

/-- UPDATE_REPORT: at the master, from a device: 1 COMPLETE, 2 SHORTFALL, 3 TRIAL_UP, 4 TRIAL_FAIL. The last COMPLETE starts the commit at
a tick at least 64 ahead; the last TRIAL_UP confirms. -/
def Dev.updateReport (d : Dev) (dev kind : Nat) : Dev :=
  match d.boot.update with
  | none => d
  | some u =>
    if !u.staged.contains dev then d else
    let d := d.noteReport dev kind
    let up := u.staged.all fun x => x == dev || fmGet u.reports x == some 3
    if kind = 2 then d.abortAll
    else if kind = 4 then d.activateAll 3 0
    else if kind = 1 then d.judgeComplete
    else if kind = 3 && up then d.activateAll 2 0
    else d

/-- UPDATE_REPORT_TIMEOUT: a report is missing 1,024 ticks after the staging began, or a TRIAL is not up 60 s after the commit. -/
def Dev.updateReportTimeout (d : Dev) : Dev :=
  match d.boot.update with
  | none => d
  | some u =>
    if u.staged.isEmpty then d
    else if d.fget F.DEV_UPDATE_PHASE = 5 then
      if u.staged.all fun x => fmGet u.reports x == some 3 then d else d.activateAll 3 0
    else if u.staged.all fun x => (fmGet u.reports x).isSome then d else d.abortAll

/-- The UPDATE_ACTIVATE command of an ACTION comes to its start, about the update staged (or in TRIAL); any other UPDATE_ID fails with
WRONG_STATE. -/
def Dev.beginActivate (d : Dev) (h : HalfId) (seq action : Nat) (trial : Bool) (k : Dev → Dev) : Dev :=
  match d.entry h seq with
  | none => d
  | some e =>
    if e.opcode ≠ 0x19 || e.arg 24 1 ≠ action then d else
    d.begin h seq 0x19 fun d e =>
      let there := if trial then d.slotMark false == 2 || d.slotMark true == 2 else d.flag F.DEV_STATE_UPDATE_STAGED
      if there && e.arg 28 4 = d.fget F.DEV_UPDATE_UPDATE_ID then k d else d.finish h seq stWrongState

/-- The record of an activation's outcome (Table 17-8). -/
def Dev.firmwareLog (d : Dev) (slot : List Byte) (st : Nat) : Dev := d.sbLog 0x0070 (if st = stOk then 0 else 1) [leNat (sha384 (slot.take 512)), st]

/-- UPDATE_COMMIT: the staged slot is TRIAL, and the package resets. -/
def Dev.updateCommit (d : Dev) (h : HalfId) (seq : Nat) : Dev :=
  d.beginActivate h seq 0 false fun d =>
    let d := ((d.finish h seq stOk).setSlotMark (!d.boot.runB) 2).fset F.DEV_STATE_UPDATE_STAGED 0
    ((d.updPhase 5).firmwareLog d.otherSlot stOk).packageReset 3

/-- UPDATE_ABORT: the staged slot is EMPTY. -/
def Dev.updateAbort (d : Dev) (h : HalfId) (seq : Nat) : Dev :=
  d.beginActivate h seq 1 false fun d =>
    let d := ((d.finish h seq stOk).setSlotMark (!d.boot.runB) 0).fset F.DEV_STATE_UPDATE_STAGED 0
    let d := ((d.updStatus 6 stUpdateIncomplete).event E.DEV_UPDATE_FAIL).firmwareLog d.otherSlot stUpdateIncomplete
    { d with boot := { d.boot with update := none } }

/-- The slot in TRIAL; `true`: slot B. -/
def Dev.trialSlot (d : Dev) : Bool := d.slotMark true == 2

/-- UPDATE_CONFIRM: TRIAL becomes ACTIVE, the previous slot OLD, and the header's FLOOR is installed. -/
def Dev.updateConfirm (d : Dev) (h : HalfId) (seq : Nat) : Dev :=
  d.beginActivate h seq 2 true fun d =>
    let b := d.trialSlot
    let slot := if b then d.boot.slotB else d.boot.slotA
    let d := ((d.finish h seq stOk).setSlotMark b 3).setSlotMark (!b) 4
    let d := ((d.fset F.DEV_SLOTS_FLOOR (leAt slot 0x10 4)).fset F.DEV_STATE_TRIAL 0).updStatus 0 stOk
    { d.firmwareLog slot stOk with boot := { d.boot with update := none } }

/-- UPDATE_REVERT: TRIAL becomes FAILED, and the package resets into the previous slot. -/
def Dev.updateRevert (d : Dev) (h : HalfId) (seq : Nat) : Dev :=
  d.beginActivate h seq 3 true fun d =>
    let b := d.trialSlot
    let d := ((d.finish h seq stOk).setSlotMark b 5).updStatus 6 stUpdateIncomplete
    let d := (d.firmwareLog (if b then d.boot.slotB else d.boot.slotA) stUpdateIncomplete).packageReset 3
    { d.event E.DEV_UPDATE_FAIL with boot := { d.boot with update := none } }

/-- TRIAL_POLL: a device in TRIAL asks the master for the outcome. -/
def Dev.trialPoll (d : Dev) : Dev :=
  if d.uhlea && d.flag F.DEV_STATE_TRIAL then d.emit (.fabric 8 [d.me, d.fget F.DEV_UPDATE_UPDATE_ID]) else d

end Sys2Proof.Machine
end

