-- ==== Sys2Proof/Machine/FirmwareOps.lean ====
section
/-! DEFINITION. The meanings of the firmware update's commands (R476–R485). -/

namespace Sys2Proof.Machine

/-- UPDATE_STAGE (R477). -/
def execUpdateStage (h : HalfId) (seq : Word) (sigOk : Bool) (host : Option (List Byte)) (staged : List Nat) (s : State) :
    Host.Outcome State Fault Refusal :=
  onLive (fun d => d.updateStage h seq.toNat sigOk host staged) s

/-- UPDATE_BLOCK (R478). -/
def execUpdateBlock (p : PortId) (id : BitVec 32) (k : Nat) (data : List Byte) (crc : BitVec 32) (sigOk : Bool) (s : State) :
    Host.Outcome State Fault Refusal :=
  onLive (fun d => d.updateBlock p.val id.toNat k data crc.toNat sigOk) s

/-- UPDATE_BLOCK_ACK (R478). -/
def execUpdateBlockAck (p : PortId) (id : BitVec 32) (k : Nat) (nak : Bool) (st : BitVec 8) (s : State) :
    Host.Outcome State Fault Refusal :=
  onLive (fun d => d.updateBlockAck p.val id.toNat k nak st.toNat) s

/-- UPDATE_BLOCK_RESEND (R478). -/
def execUpdateBlockResend (p : PortId) (k : Nat) (s : State) : Host.Outcome State Fault Refusal :=
  onLive (fun d => d.updateBlockResend p.val k) s

/-- UPDATE_VERIFY (R479). -/
def execUpdateVerify (tagsOk : Bool) (s : State) : Host.Outcome State Fault Refusal :=
  onLive (fun d => d.updateVerify tagsOk) s

/-- MICROCODE_MESSAGE (R480). -/
def execMicrocodeMessage (t : TileId) (n : Nat) (body : List Byte) (crcOk : Bool) (s : State) :
    Host.Outcome State Fault Refusal :=
  onLive (fun d => d.microcodeMessage t.toNat n body crcOk) s

/-- UPDATE_REPORT (R482). -/
def execUpdateReport (dev kind : Nat) (s : State) : Host.Outcome State Fault Refusal :=
  onLive (fun d => d.updateReport dev kind) s

/-- UPDATE_REPORT_TIMEOUT (R482). -/
def execUpdateReportTimeout (s : State) : Host.Outcome State Fault Refusal := onLive Dev.updateReportTimeout s

/-- UPDATE_COMMIT (R482). -/
def execUpdateCommit (h : HalfId) (seq : Word) (s : State) : Host.Outcome State Fault Refusal :=
  onLive (fun d => d.updateCommit h seq.toNat) s

/-- UPDATE_ABORT (R482). -/
def execUpdateAbort (h : HalfId) (seq : Word) (s : State) : Host.Outcome State Fault Refusal :=
  onLive (fun d => d.updateAbort h seq.toNat) s

/-- UPDATE_CONFIRM (R482). -/
def execUpdateConfirm (h : HalfId) (seq : Word) (s : State) : Host.Outcome State Fault Refusal :=
  onLive (fun d => d.updateConfirm h seq.toNat) s

/-- UPDATE_REVERT (R482). -/
def execUpdateRevert (h : HalfId) (seq : Word) (s : State) : Host.Outcome State Fault Refusal :=
  onLive (fun d => d.updateRevert h seq.toNat) s

/-- TRIAL_POLL (R483). -/
def execTrialPoll (s : State) : Host.Outcome State Fault Refusal := onLive Dev.trialPoll s

end Sys2Proof.Machine
end

