-- ==== Sys2Proof/Machine/Loader.lean ====
section
/-! DEFINITION. The loader: taking an image into the staging buffer not in force, phases 0 to 2, the report, and putting an image
in force (R138–R147, R220). -/

namespace Sys2Proof.Machine

/-! ## Staging buffers (R138, R220) -/

/-- Whether buffer B takes the image of a load: the buffer not in force; with no image in force, a new image goes to the buffer the
last one did not use, and SRC_KIND 3 names the one it used. -/
def Dev.stageIsB (d : Dev) (h : HalfId) (kind : Nat) : Bool :=
  match d.image h with
  | some i => !i.bufB
  | none => if kind = 3 then (d.staging h).lastB else !(d.staging h).lastB

/-- Where a staging buffer lies: in the reserved range of half 0, or in split tenancy of the half's own (Table 9-4). -/
def Dev.stagingAddr (d : Dev) (h : HalfId) (isB : Bool) : Nat := reservedBase (d.split && h) + (if isB then 0x80000000 else 0)

/-- What a staging buffer holds. -/
def Staging.get (s : Staging) (isB : Bool) : List Byte := if isB then s.b else s.a

/-- A buffer with its first bytes overwritten. -/
def Staging.put (s : Staging) (isB : Bool) (bs : List Byte) : Staging :=
  if isB then { s with b := bs ++ s.b.drop bs.length } else { s with a := bs ++ s.a.drop bs.length }

/-! ## Reading the source -/

/-- Where an image comes from: SRC_KIND, SRC; the bytes a source outside the device delivers, and the status with which it fails
when it delivers fewer. -/
structure ImgSrc where
  kind : Nat
  addr : Nat
  bytes : List Byte
  fail : Nat
  deriving DecidableEq, Repr

/-- Bytes `[o, o + n)` of an image from its source, or the status of the failure. -/
def Dev.imgRead (d : Dev) (h : HalfId) (sc : Scope) (s : ImgSrc) (o n : Nat) (es : List RdErr) :
    Except Nat (List Byte) × Dev :=
  let deliver (bs : List Byte) : Except Nat (List Byte) :=
    let x := (bs.drop o).take n
    if x.length < n then .error (if s.kind = 2 && isFailure s.fail then s.fail else stPartnerAbsent) else .ok x
  if s.kind = 3 then
    let isB := d.stageIsB h 3
    (.ok (bytesAt ((d.staging h).get isB ++ List.replicate (o + n) 0#8) o n), d.rangeRead (d.stagingAddr h isB + o) n)
  else if s.kind ≠ 0 then (deliver s.bytes, d)
  else
    let a := s.addr + o
    if !d.tenantRange sc a n then (.error stLenRange, d)
    else
      let r := d.readWords (a / 8 * 8) ((a + n + 7) / 8 - a / 8) es
      (if r.1.2.1 then .error stPoison else .ok (((wordBytes r.1.1).drop (a % 8)).take n), r.2)

/-! ## Phase 0: the header -/

/-- A failure of the header phase, at an offset. -/
def hdrBad (st off : Nat) : Bad := ⟨st, 0xFFFF, 0xFFFFFFFF, off⟩

/-- Checks as (status, offset, whether it fails): the first failure. -/
def firstHdr (l : List Chk) : Option Bad := (l.find? (·.2.2)).map fun c => hdrBad c.1 c.2.1

/-- The half a half image targets, for a load by an entry of half `h`'s ledger; in split tenancy an image without HALF targets
that half. -/
def Dev.targetHalf (d : Dev) (h : HalfId) (b : List Byte) : HalfId := if d.split then (halfImage b).getD h else false

/-- The state of R145: each half of the whole device, or the target half, is IDLE or LOADED; in any other state, a half in ORPHAN
too, the status is WRONG_STATE. -/
def Dev.loadState (d : Dev) (h : HalfId) : Option Nat :=
  failIf (!(if d.split then [h] else [false, true]).all fun k => d.half k == 2 || d.half k == 3) stWrongState

/-- Before anything is read: the half of the tenant; of the operator in split tenancy, that some half may load (R145). -/
def Dev.loadStateFirst (d : Dev) (h : HalfId) (e : Entry) : Option Nat :=
  if d.split && e.source == 0 && (d.loadState (!h)).isNone then none else d.loadState h

/-- The rows of phase 0 after the state, in table order; `most`: MAX_LEN; `tenant`: the tag of a loading tenant. -/
def Dev.headerChecks (d : Dev) (most : Nat) (tenant : Option Nat) (b : List Byte) : Option Bad :=
  let n (o k : Nat) : Nat := leAt b o k
  let sched := bit (n 0x0F 1) 0
  let half := halfImage b
  let total := n 0x10 8
  let id := n 0x1C 2
  let depth := d.fget F.TAL_STATUS_DEPTH
  let lacks := (List.range 5).any fun k => bit (n 0x20 4) k && !d.licensed k
  firstHdr [
    (0x40, 0, n 0 4 != 0x4C4E4B53), (0x41, 4, n 4 2 != 256), (0x42, 6, n 6 1 != 1), (0x43, 8, n 8 2 != 9), (0x44, 0x0A, 0xB0 < n 0x0A 1),
    (stRsv, 0x0F, n 0x0F 1 / 16 != 0), (stRsv, 0x1F, n 0x1F 1 != 0), (stRsv, 0x20, n 0x20 4 / 32 != 0), (stRsv, 0x60, n 0x60 2 != 0),
    (stRsv, 0x62, n 0x62 2 != 0), (stRsv, 0x64, n 0x64 156 != 0),
    (stLenRange, 0x10, 2147483648 < total || most < total || total < 256 + 32 * n 0x0C 2),
    (stCountRange, 0x0C, n 0x0C 2 == 0 || 64 < n 0x0C 2), (stCountRange, 0x0E, n 0x0E 1 == 0 || 16 < n 0x0E 1),
    (stCountRange, 0x18, n 0x18 4 < 8 || 65536 < n 0x18 4),
    (stVal, 0x0B, 2 < n 0x0B 1), (0x46, 0x0B, n 0x0B 1 != d.pw.profile),
    (0x47, 0x0B, sched && (List.range 15).any fun p =>
      d.link p == 3 && d.fget F.LNK_PARTNER_PROFILE (portAdd p) != n 0x0B 1),
    (stNotLicensed, 0x20, lacks), (stNotLicensed, 0x18, 4096 < n 0x18 4 && !d.licensed 2),
    (0x48, 0x1C, !d.flag F.DEV_FABRIC_VALID || id != d.fget F.DEV_FABRIC_ID || id / 8192 != d.fget F.DEV_STRAPS_SHEAF_RANK),
    (0x49, 0x1E, (sched && 128 < n 0x1E 1) || (depth != 0xFF && n 0x1E 1 < depth)),
    (0x4A, 0x0F, half.isSome && !d.split),
    (stTenantMismatch, 0x0F, tenant.any fun t => half.any fun k => d.scopeState k != 1 || d.tagOf k != t)]

/-! ## Phase 1: the directory -/

/-- The sections an image must have, in the order the loader judges them (Table 6-3). -/
def requiredSects (b : List Byte) : List (Nat × Nat) :=
  let cs := List.range (configCount b)
  cs.map (fun c => (1, c)) ++ cs.map (fun c => (2, c)) ++ [(3, 0xFF), (9, 0xFF), (10, 0xFF)] ++
    (if bit (leAt b 0x0F 1) 0 then [(11, 0xFF)] else []) ++ [(13, 0xFF)]

/-- Two sections that hold bytes overlap. -/
def Sect.overlaps (s t : Sect) : Bool := 0 < s.len && 0 < t.len && s.off < t.off + t.len && t.off < s.off + s.len

/-- Phase 1, its rows in table order, each in directory order. -/
def directoryChecks (b : List Byte) : Option Bad :=
  let ss := sectsOf b
  let total := leAt b 0x10 8
  let dirEnd := 256 + 32 * leAt b 0x0C 2
  let row (s : Sect) (st o : Nat) : Bad := ⟨st, s.at_, 0xFFFFFFFF, 256 + 32 * s.at_ + o⟩
  let raw (s : Sect) (o n : Nat) : Nat := leAt b (256 + 32 * s.at_ + o) n
  let each (st o : Nat) (p : Sect → Bool) : Option Bad := (ss.find? p).map fun s => row s st o
  let earlier (s : Sect) (p : Sect → Bool) : Bool := ss.any fun t => decide (t.at_ < s.at_) && p t
  firstBad [
    ss.findSome? fun s => if raw s 3 1 != 0 then some (row s stRsv 3) else if raw s 24 8 != 0 then some (row s stRsv 24) else none,
    each stAlign 8 fun s => s.off % 64 != 0,
    each 0x4B 8 fun s => total < s.off + s.len || s.off < dirEnd || earlier s s.overlaps,
    each 0x4C 0 fun s => s.ty == 0 || 13 < s.ty,
    each 0x4D 2 fun s => if perConfig s.ty then configCount b ≤ s.cfg else s.cfg != 0xFF,
    each 0x4E 0 fun s => earlier s fun t => t.ty == s.ty && t.cfg == s.cfg,
    ((requiredSects b).find? fun x => (sectOf b x.1 x.2).isNone).map fun x => ⟨0x4F, 0xFFFF, x.1 + x.2 * 65536, 0x0C⟩,
    each 0x50 16 fun s => s.ty != 8 && s.len != s.count * itemSize s.ty]

/-- Phases 1 to 5 with their numbers: the first failure. -/
def Load.check (l : Load) : Option (Nat × Bad) :=
  let ph (n : Nat) (x : Option Bad) : Option (Nat × Bad) := x.map fun y => (n, y)
  [ph 1 (directoryChecks l.b),
   ph 2 (if sha384 (bytesAt l.b 256 (leAt l.b 0x10 8 - 256)) = bytesAt l.b 0x30 48 then none else some (hdrBad stDigestMismatch 0x30)),
   ph 3 l.phase3,
   ph 4 ((List.range (configCount l.b)).findSome? (phase4 l.b)),
   ph 5 l.phase5].findSome? id

/-! ## In force (R147) -/

/-- A tile's code, data words and scratchpad split as an image gives them, its broadcast slots zero. -/
def loadTile (b : List Byte) (t : Nat) (x : Tile) : Tile :=
  let c := codeOf b t
  let s := (itsOf b 9).find? fun i => i.n 0 2 == t
  let part (o : Nat) : Nat := (s.map fun i => i.n o 4).getD 0
  { x with code := c.code, data := c.data, stash := part 4, window := part 8, work := part 12, bslots := [], bpoison := 0 }

/-- The barriers a tile's instruction words name (R259). -/
def barMask (b : List Byte) (t : Nat) : Nat :=
  let x := codeOf b t
  ((List.range (x.code.length / 4)).map (4 * ·)).foldl (fun m (pc : Nat) =>
    let w := leAt x.code pc 4
    if x.isInstr pc && bits w 0 8 == 0x60 then m ||| 2 ^ bits w 18 6 else m) 0

/-- The tiles of a scope take an image's code and split; their BAR masks, seeds, extents and counters (R147, R137, R182, R259,
R268). -/
def Dev.loadTiles (d : Dev) (sc : Scope) (b : List Byte) : Dev :=
  (scopeTileIds sc).foldl (fun d t =>
    let old := d.tile t
    let new := loadTile b t old
    let d := if new = old then d else d.modTile t fun _ => new
    let d := (d.fset F.TIL_SYNC_BMASK_MASK (barMask b t) (tileAdd t)).fset F.TIL_VX_SEED_SEED (stepSeed b) (tileAdd t)
    (d.clearCounters t).regReset (0x1002200 + tileAdd t) (0x1002400 + tileAdd t)) d

/-- TAL_SLOT_MASK takes the FABRIC item's value; in split tenancy, the bits of the half's own ports. -/
def Dev.loadSlotMask (d : Dev) (sc : Scope) (b : List Byte) : Dev :=
  let m := leAt (((itemsOf b 10 0xFF 128).head?).getD []) 72 8
  let old := d.fget F.TAL_SLOT_MASK_MASK
  d.fset F.TAL_SLOT_MASK_MASK ((List.range 15).foldl (fun n p =>
    n + bits (if scopeHas sc (portHalf p) then m else old) (4 * p) 4 * 2 ^ (4 * p)) 0)

/-- The coordinates of R344. -/
def Dev.loadCoord (d : Dev) (b : List Byte) : Dev :=
  let i := ((itemsOf b 10 0xFF 128).head?).getD []
  let cs := coordsOf ((List.range 4).map fun a => max 1 (leAt i (2 * a) 2)) (leAt b 0x1C 2)
  let x (k : Nat) : Nat := (cs[k]?).getD 0
  (((d.fset F.FAB_COORD_X (x 0)).fset F.FAB_COORD_Y (x 1)).fset F.FAB_COORD_Z (x 2)).fset F.FAB_COORD_W (x 3)

/-- Every counter and event bit of register space from `lo` to `hi` is cleared. -/
def Dev.clearEvents (d : Dev) (lo hi : Nat) : Dev :=
  (allEvents.filter fun e => lo ≤ e.bit.off && e.bit.off < hi).foldl (fun d e => (d.fset e.bit 0).fset e.cnt 0) d

/-- The step, update, survival and fabric registers that a load clears (R267, R296, R317, R367, R389). -/
def Dev.loadRegs (d : Dev) (h : HalfId) : Dev :=
  let d := (d.clearEvents 0x6008000 0x6009000).fclear
    [F.UPD_ELEMENTS_COUNT, F.UPD_MACS_COUNT, F.UPD_REFRESH_DONE, F.UPD_REFRESH_KEPT]
  let d := (d.clearEvents 0x1200 0x1300).fclear [F.DEV_SRV_INGOTS_MIRRORED, F.DEV_SRV_INGOTS_RESTORED]
  (d.regReset 0x6000200 0x6000400).regReset (0x1000 + d.stepAdd h) (0x1200 + d.stepAdd h)

/-- The ports whose partner does not pass the check of an image put in force are quarantined (R330). -/
def Dev.loadNeighbours (d : Dev) (sc : Scope) : Dev :=
  (scopePorts sc).foldl (fun d p =>
    let a := portAdd p
    if d.link p = 3 && !d.neighbourOk p (d.fget F.LNK_PARTNER_FABRIC_ID a) (d.fget F.LNK_PARTNER_PORT a)
        (d.fget F.LNK_PARTNER_SERIAL_SERIAL a) then (d.event E.LNK_ID_MISMATCH a).quarantine p
    else d) d

/-- The measurement of R139. -/
def Dev.takeMeasure (d : Dev) (h : HalfId) (b : List Byte) : Dev :=
  let m := sha384 (b.take 256)
  { d with sec := if d.split && h then { d.sec with measE := m } else { d.sec with measW := m } }

/-- An image that has passed every check is put in force; `isB`: the staging buffer it lies in, `tag` the tenant that loads it. -/
def Dev.putInForce (d : Dev) (h : HalfId) (b : List Byte) (isB : Bool) (tag : Nat) : Dev :=
  let sc : Scope := if d.split then (if h then .east else .west) else .whole
  let d := ((d.dropRun h).dropFabric h).forceConfig h b 0
  let d := ((d.loadTiles sc b).loadSlotMask sc b).loadCoord b
  let d := (d.loadRegs h).takeMeasure h b
  let d := d.modStep h fun c => { c with run := none, sched := stepItems b 3 }
  let d := if d.isFeedOf sc then d.disarm else d
  let d := d.setImage h (some { bytes := b, bufB := isB, cur := 0, epoch := false, prev := 0, tag := tag })
  let d := (d.setStaging h { d.staging h with lastB := isB }).holdScope h false
  (d.setScope sc 3 0).loadNeighbours sc

/-! ## The command -/

/-- The load report of R146. -/
def reportOf (phase : Nat) (x : Bad) : Nat := x.st + phase * 2 ^ 8 + x.dir * 2 ^ 16 + x.item * 2 ^ 32 + x.off * 2 ^ 64

/-- The whole image has been taken into the buffer: phases 1 to 5, and the image is put in force; the first failure with its
phase. -/
def Dev.loadChecked (d : Dev) (k : HalfId) (isB : Bool) (tag : Nat) (b : List Byte) : Dev × Option (Nat × Bad) :=
  let sc : Scope := if d.split then (if k then .east else .west) else .whole
  match Load.check { d, b, half := if d.split then some k else none, scope := sc } with
  | some x => (d, some x)
  | none => (d.putInForce k b isB tag, none)

/-- A load from a source: the header and its phase, the rest of the image, the other phases (R142–R147). A source that cannot be
read ends the load in phase 0 with its status. -/
def Dev.loadFrom (d : Dev) (h : HalfId) (sc : Scope) (s : ImgSrc) (most : Nat) (tenant : Option Nat) (es : List RdErr) :
    Dev × Option (Nat × Bad) :=
  let (r, d) := d.imgRead h sc s 0 256 es
  match r with
  | .error st => (d, some (0, hdrBad st 0))
  | .ok hdr =>
    let k := d.targetHalf h hdr
    match d.loadState k with
    | some st => (d, some (0, hdrBad st 0))
    | none =>
      match d.headerChecks most tenant hdr with
      | some x => (d, some (0, x))
      | none =>
        let n := leAt hdr 0x10 8
        let isB := d.stageIsB k s.kind
        let (r, d) := d.imgRead k sc s 256 (n - 256) (es.drop ((s.addr + 263) / 8 - s.addr / 8))
        match r with
        | .error st => (d, some (0, hdrBad st 256))
        | .ok rest =>
          let d := if s.kind = 3 then d else d.countRange (d.stagingAddr k isB) n true
          (d.setStaging k ((d.staging k).put isB (hdr ++ rest))).loadChecked k isB (tenant.getD 0) (hdr ++ rest)

/-- The entry of a load ends with its report (R146). -/
def Dev.loadEnds (d : Dev) (h : HalfId) (seq : Nat) : Option (Nat × Bad) → Dev
  | some (phase, x) => (d.setResult h seq (reportOf phase x)).finish h seq x.st
  | none => (d.setResult h seq 0).finish h seq stOk

/-- LOAD: the state first (R145), then the load; an image put in force supersedes what the ledger still holds ACCEPTED
(R398). -/
def Dev.load (d : Dev) (h : HalfId) (seq : Nat) (src : List Byte) (fail : Nat) (es : List RdErr) : Dev :=
  d.begin h seq 0x02 fun d e =>
    match d.loadStateFirst h e with
    | some st => d.loadEnds h seq (some (0, hdrBad st 0))
    | none =>
      let sc : Scope := if d.split && e.source != 0 then (if h then .east else .west) else .whole
      let r := d.loadFrom h sc ⟨e.arg 24 1, e.arg 32 8, src, fail⟩ (e.arg 40 8) (if e.source = 0 then none else some e.tenant) es
      (if r.2.isNone then r.1.supersede h else r.1).loadEnds h seq r.2

end Sys2Proof.Machine
end

