-- ==== Sys2Proof/Machine/Recovery.lean ====
section
/-! DEFINITION. Recovery: loss reports, the master's steps, the orders a job device carries out (R383–R388, Table 15-3). -/

namespace Sys2Proof.Machine

/-! ## Loss reports (R384) -/

/-- LOSS_DETECT: a port to a job device has shown ABSENT, or DEGRADED with a faulted half, for 1,024 ticks. -/
def Dev.lossDetect (d : Dev) (p : Nat) : Dev :=
  let out := d.partner p == 0 || (d.partner p == 4 && d.fget F.LNK_PARTNER_STATE (portAdd p) == 7)
  match (if out then d.neighbour p else none) with
  | some (id, false) => d.sendLoss (d.split && portHalf p) (some id)
  | _ => d

/-! ## The master (R384–R388) -/

/-- The master's strongbox record of a recovery: the step, N_r, the outcome, the lost devices (R387). -/
def Dev.recoveryLog (d : Dev) (r : Recovery) (sev st : Nat) : Dev := d.sbLog 0x0050 sev ([r.step, r.resume, st] ++ r.lost)

/-- The master enters a step: its registers, and the orders go out. -/
def Dev.recoveryOrders (d : Dev) (r : Recovery) : Dev :=
  let d := (d.fset F.DEV_SRV_STATUS_STEP r.step).fset F.DEV_SRV_STATUS_MASTER 1
  let d := d.fset F.DEV_SRV_STATUS_LOST ((r.lost.head?).getD 0)
  ({ d with srv := { d.srv with recovery := some r } }).emit (.fabric 9 ([r.step, r.tag, r.resume] ++ r.lost))

/-- A half's job is left PAUSED by a failed recovery: the run's entry holds the status (R388). -/
def Dev.recoverFailed (d : Dev) (h : HalfId) (st : Nat) : Dev :=
  if !d.recovering h || !(d.stepc h).hold then d else
  let d := if (d.stepc h).run.isSome then d.endRun h st else d
  let d := (d.modStep h fun s => { s with hold := false }).setScope (d.halfScope h) 5 0
  ((d.holdScope h true).fset F.DEV_SRV_STATUS_STEP 0).event E.DEV_SRV_RECOVERY_FAIL

/-- The recovery this master runs has failed. -/
def Dev.recoveryFails (d : Dev) (r : Recovery) (st : Nat) : Dev :=
  let d := (d.recoveryLog r 2 st).emit (.fabric 10 [r.tag, st])
  let d := d.ledgers.foldl (fun d h => if d.tagOf h = r.tag then d.recoverFailed h st else d) d
  { (d.fset F.DEV_SRV_STATUS_STEP 0).fset F.DEV_SRV_STATUS_MASTER 0 with srv := { d.srv with recovery := none } }

/-- LOSS_REPORT: the first for a job with RECOVER set opens its recovery; one about another device joins it, unless its sheaf has
lost a device already (R384, R386). -/
def Dev.lossReport (d : Dev) (tag : Nat) (lost : Option Nat) (recover : Bool) : Dev :=
  if !d.isMaster then d else
  match d.srv.recovery with
  | none =>
    if !recover then d
    else
      let r : Recovery := { step := 1, lost := lost.toList, tag := tag, resume := 0 }
      (d.recoveryLog r 1 stOk).recoveryOrders r
  | some r =>
    match lost with
    | none => d
    | some l =>
      if r.tag ≠ tag || r.lost.contains l then d
      else if r.lost.any fun x => bits x 0 13 == bits l 0 13 then d.recoveryFails { r with lost := r.lost ++ [l] } stPartnerAbsent
      else { d with srv := { d.srv with recovery := some { r with lost := r.lost ++ [l] } } }

/-- RECOVERY_STEP: the step has finished on every device, or failed on one with a status; `cur`: the steps that the CUR headers of
the job show, as step 2 reports them. -/
def Dev.recoveryStep (d : Dev) (st : Nat) (cur : List Nat) : Dev :=
  match d.srv.recovery with
  | none => d
  | some r =>
    if st ≠ stOk then d.recoveryFails r st
    else if r.step = 2 && cur.any (· != cur.headD 0) then d.recoveryFails r stDigestMismatch
    else if r.step = 2 && cur.isEmpty then d
    else
      let r := if r.step = 2 then { r with resume := cur.headD 0 } else r
      let d := d.recoveryLog r 0 stOk
      if 9 ≤ r.step then
        { (d.fset F.DEV_SRV_STATUS_STEP 0).fset F.DEV_SRV_STATUS_MASTER 0 with srv := { d.srv with recovery := none } }
      else d.recoveryOrders { r with step := r.step + 1 }

/-- RETURN_TIMEOUT: a lost device has not come back within RETURN_TICKS. -/
def Dev.returnTimeout (d : Dev) : Dev :=
  match d.srv.recovery with
  | some r => if r.step = 4 then d.recoveryFails r stPartnerAbsent else d
  | none => d

/-! ## The orders on a job device (Table 15-3) -/

/-- XOR of sources of one ingot each; zeros where there is none. -/
def xorAll (xs : List (List Byte)) : List Byte :=
  match xs with
  | [] => List.replicate 4096 0#8
  | x :: rest => rest.foldl xorBytes x

/-- Step 1: the attempt ends ABANDONED without counting against MAX_SKIPS; the job is PAUSED and held. -/
def Dev.recoverHold (d : Dev) (h : HalfId) : Dev :=
  if !(3 ≤ d.half h && d.half h ≤ 5) then d else
  let a := d.stepAdd h
  let skips := d.fget F.DEV_STEP_STATUS_SKIPS a
  let d := if ((d.stepc h).run.bind (·.sa)).isSome then
      (((d.failAttempt h stAbandoned none).endAttempt h stAbandoned false).dropPending h none).fset F.DEV_STEP_STATUS_SKIPS skips a
    else d
  ((d.modStep h fun s => { s with hold := true }).setScope (d.halfScope h) 5 0).holdScope h true

/-- The newest ATTEMPT entry of a ledger. -/
def Ledger.lastAttempt (l : Ledger) : Option Entry :=
  (l.entries.filter fun e => e.opcode == 0xF0 && e.source == 4).foldl (fun m e =>
    match m with
    | some x => if x.seq < e.seq then some e else m
    | none => some e) none

/-- A late seal (R385): the attempt's entry shows SEAL_UNKNOWN, and its round's outcome was seal. -/
def Dev.lateSeal (d : Dev) (h : HalfId) : Dev :=
  match (d.led h).lastAttempt with
  | none => d
  | some e =>
    if e.state ≠ 4 || e.status ≠ stTimeout || !bit e.flags 0 || bit e.flags 2 then d else
    let a := d.stepAdd h
    let d := d.seal h (updLayers (d.imageBytes h))
    let d := d.modEntry h e.seq fun e => { e with state := 3, status := stOk, flags := e.flags ||| 4 }
    ((d.fset F.DEV_STEP_STATUS_LAST_STATUS stOk a).fset F.DEV_STEP_STATUS_SKIPS 0 a).event E.DEV_SRV_LATE_SEAL

/-- The holder adopts or discards what is pending of each owner the order names (R385, R376). -/
def Dev.recoverOwners (d : Dev) (h : HalfId) (o : Order) : Dev :=
  o.owners.foldl (fun d x =>
    if x.2 then d.adoptAll h (some x.1.toNat) o.resume true else d.dropPending h (some x.1.toNat)) d

/-- The image goes to its holder or alternate in full. -/
def Dev.mirrorImage (d : Dev) (h : HalfId) (target : Nat) : Dev :=
  let b := d.imageBytes h
  let n := (b.length + 4095) / 4096
  let ingots := (List.range n).map fun k =>
    let x := bytesAt b (4096 * k) 4096
    x ++ List.replicate (4096 - x.length) 0#8
  let hdr (st : Nat) := rowsOfBytes (escrowHeader d.me 0xFFFF (d.stepNum h) (tensorDigest ingots) st)
  let d := d.pushEscrow h target 0xFFFF (4096 * n) 0xFFFF (hdr 1)
  let d := d.pushEscrow h target 0xFFFF 0 0xFFFF (ingots.flatMap rowsOfBytes)
  (d.pushEscrow h target 0xFFFF (4096 * n) 0xFFFF (hdr 2)).count F.DEV_SRV_INGOTS_MIRRORED (n + 1)

/-- ALT_IN_USE follows the tensors that mirror to their alternate. -/
def Dev.setAlt (d : Dev) (ts : List Nat) : Dev :=
  ({ d with srv := { d.srv with alt := ts } }).fsetB F.DEV_SRV_STATUS_ALT_IN_USE (!ts.isEmpty)

/-- Step 3: what a lost holder held goes to the alternate, which is primary until step 8; PARTNER_ABSENT where no alternate is valid
and alive. -/
def Dev.recoverRepair (d : Dev) (h : HalfId) (lost : List Nat) : Dev × Nat :=
  let b := d.imageBytes h
  let ts := (survItems b 1).filter fun i => tiEscrow i && lost.contains (tiPartner i) && !d.srv.alt.contains (tiTensor i)
  let img := ((survHdr b).any fun s => lost.contains (shImgHolder s)) && !d.srv.alt.contains 0xFFFF
  let imgAlt := ((survHdr b).map shImgAlt).getD 0
  if (ts.any fun i => !tiAltValid i || lost.contains (tiAlt i)) || (img && lost.contains imgAlt) then (d, stPartnerAbsent)
  else if ts.isEmpty && !img then (d, stOk)
  else
    let d := d.setAlt (d.srv.alt ++ ts.map tiTensor ++ if img then [0xFFFF] else [])
    let d := ts.foldl (fun d i => d.mirrorTensor h i (d.tensorAt h i false) (d.stepNum h) []) d
    ((if img then d.mirrorImage h imgAlt else d).event E.DEV_SRV_REPAIRED, stOk)

/-- The state ingot of step N_r: rebuilt, as it lies in memory, or from the snapshot (R378, R385). -/
def Dev.stateOf (d : Dev) (h : HalfId) (o : Order) : Option (List Byte) :=
  let mine := match survHdr (d.imageBytes h) with
    | some s => [d.ingot (shState s)] ++ if shCadence s ≤ 1 then [] else [d.ingot (shSnap s)]
    | none => []
  if o.state.isEmpty then mine.find? fun b => leAt b 0 8 == o.resume else some (xorAll o.state)

/-- N, SEED and the selectors from a state ingot. -/
def Dev.takeIngot (d : Dev) (h : HalfId) (b : List Byte) : Dev :=
  let a := d.stepAdd h
  let d := d.fset F.DEV_STEP_NUM_N (leAt b 0 8) a
  let d := (d.scopeTiles h).foldl (fun d t => d.fset F.TIL_VX_SEED_SEED (leAt b 8 4) (tileAdd t)) d
  (List.range 4).foldl (fun d k => d.fset F.DEV_STEP_SEL_SEL (leAt b (56 + 8 * k) 8) (a + 8 * k)) d

/-- Ingots are written by a restore. -/
def Dev.restoreIngots (d : Dev) (a : Nat) (gs : List (List Byte)) : Dev :=
  gs.zipIdx.foldl (fun d g => ((d.poke (a + 4096 * g.2) (g.1.take 4096)).countRange (a + 4096 * g.2) 4096 true).count
    F.DEV_SRV_INGOTS_RESTORED) d

/-- The parity-protected tensors from the device's own snapshot (R385). -/
def Dev.rollBack (d : Dev) (h : HalfId) : Dev :=
  let b := d.imageBytes h
  match survHdr b with
  | none => d
  | some s =>
    ((survItems b 1).filter fun i => !tiEscrow i).foldl (fun (r : Dev × Nat) i =>
      let n := tiIngots i
      (r.1.restoreIngots (r.1.tensorAt h i false) ((List.range n).map fun k => r.1.ingot (shSnap s + 4096 * (r.2 + k))), r.2 + n)) (d, 1)
      |>.1

/-- What a tensor is restored from: the data whose XOR it is, the digests it is to be held to, the step of an escrow copy. -/
structure Source where
  data : List (List (List Byte))
  digests : List Nat
  step : Option Nat
  deriving DecidableEq, Repr

/-- The data of n ingots is whole. -/
def wholeData (n : Nat) (g : List (List Byte)) : Bool := g.length == n && g.all fun b => b.length == 4096

/-- The source of a tensor in the order of R383, 1: of an escrow tensor the complete CUR of the primary holder, or of the alternate; of
another one its stripes; then a valid replica; `none` where there is none. -/
def restoreSource (x : Restore) (i : List Byte) : Option Source :=
  let n := tiIngots i
  let ofCopy (c : Option CopyAt) : Option Source :=
    match c with
    | some c => if c.state = 2 && wholeData n c.ingots then some ⟨[c.ingots], c.digests, some c.step⟩ else none
    | none => none
  let ofTwin : Option Source :=
    match x.twin with
    | some g => if tiReplicaValid i && wholeData n g then some ⟨[g], [], none⟩ else none
    | none => none
  let first : Option Source :=
    if tiEscrow i then (ofCopy x.primary).or (if tiAltValid i then ofCopy x.alternate else none)
    else if x.units.length = 7 && x.units.all (wholeData n) then some ⟨x.units, x.rebuilt, none⟩ else none
  first.or ofTwin

/-- A tensor's source and data (R383, 1 and 2); the digests it is to be held to. -/
def Dev.restoreTensor (d : Dev) (h : HalfId) (x : Restore) : Dev × Nat :=
  match tensorItem (d.imageBytes h) x.tensor.toNat with
  | none => (d, stPartnerAbsent)
  | some i =>
    match restoreSource x i with
    | none => (d, stPartnerAbsent)
    | some c =>
      let d := d.restoreIngots (d.tensorAt h i false)
        ((List.range (tiIngots i)).map fun k => xorAll (c.data.map fun s => (s[k]?).getD []))
      ({ d with srv := { d.srv with digests := fmSet d.srv.digests x.tensor.toNat c.digests } }, stOk)

/-- Steps of a restore in order, up to the first failure. -/
def eachRestore (f : Dev → Restore → Dev × Nat) : Dev → List Restore → Dev × Nat
  | d, [] => (d, stOk)
  | d, x :: xs =>
    let r := f d x
    if r.2 = stOk then eachRestore f r.1 xs else r

/-- Step 6: the state ingot first, whose selectors name the copies; below N_s the device's own snapshot; then the tensors
ordered. -/
def Dev.recoverRebuild (d : Dev) (h : HalfId) (o : Order) : Dev × Nat :=
  let back := decide (o.resume < d.stepNum h)
  let d := match d.stateOf h o with
    | some b => d.takeIngot h b
    | none => d
  eachRestore (fun d x => d.restoreTensor h x) (if back then d.rollBack h else d) o.restores

/-- Digests, step and replica of a restored tensor (R383, 3 to 5). -/
def Dev.verifyTensor (d : Dev) (h : HalfId) (resume : Nat) (x : Restore) : Dev × Nat :=
  match tensorItem (d.imageBytes h) x.tensor.toNat with
  | none => (d, stOk)
  | some i =>
    let gs := (List.range (tiIngots i)).map fun k => d.ingot (d.tensorAt h i false + 4096 * k)
    let want := (fmGet d.srv.digests x.tensor.toNat).getD []
    let bad := (!want.isEmpty && gs.map crc64 != want) || ((restoreSource x i).bind (·.step)).any (· != resume)
    if bad then (d.event E.DEV_SRV_DIGEST_FAIL, stDigestMismatch)
    else if tiReplicaValid i && x.replica.any (· != tensorDigest gs) then
      ((d.event E.DEV_SRV_REPLICA_MISMATCH).event E.DEV_SRV_DIGEST_FAIL, stDigestMismatch)
    else ({ d with srv := { d.srv with digests := fmErase d.srv.digests x.tensor.toNat } }, stOk)

/-- Step 8: what a returned device holds goes to it again in full, and the alternate is left; a returned device recomputes its
parity ingots from the units of the other ranks. -/
def Dev.recoverRefill (d : Dev) (h : HalfId) (o : Order) (lost : List Nat) : Dev :=
  let b := d.imageBytes h
  let ts := (survItems b 1).filter fun i => tiEscrow i && lost.contains (tiPartner i)
  let d := d.setAlt (d.srv.alt.filter fun t => t != 0xFFFF && !(ts.any fun i => tiTensor i == t))
  let d := ts.foldl (fun d i => d.mirrorTensor h i (d.tensorAt h i false) (d.stepNum h) []) d
  match survHdr b with
  | none => d
  | some s =>
    let d := if lost.contains (shImgHolder s) then d.mirrorImage h (shImgHolder s) else d
    o.parity.foldl (fun d p => d.store (d.parAddr s p.1 false) (xorAll p.2)) d

/-- Step 9: the held run ends ABANDONED, the job is LOADED with the feed cursor of step N_r. -/
def Dev.recoverResume (d : Dev) (h : HalfId) (o : Order) : Dev :=
  let d := if (d.stepc h).run.isSome then d.endRun h stAbandoned else d
  let d := (d.modStep h fun s => { s with hold := false }).setScope (d.halfScope h) 3 0
  let d := match d.stateOf h o with
    | some b => d.setCursor ((List.range 4).map fun k => leAt b (24 + 8 * k) 8)
    | none => d
  ((d.holdScope h false).fset F.DEV_SRV_STATUS_STEP 0).event E.DEV_SRV_RECOVERY_OK

/-- The registers of a device that takes part in a recovery at a step. -/
def Dev.takePart (d : Dev) (h : HalfId) (step : Nat) (o : Order) : Dev :=
  let first := !(d.stepc h).hold
  let d := ((d.fset F.DEV_SRV_STATUS_STEP step).fset F.DEV_SRV_STATUS_LOST ((o.lost.head?.map (·.toNat)).getD 0)).modStep h
    fun s => { s with hold := true }
  let d := if step = 1 then d else d.fset F.DEV_SRV_RESUME_STEP o.resume
  if first then d.event E.DEV_SRV_RECOVERY_START else d

/-- Step 5 on a returned device: the image its holder has sent is loaded under every check, and the job is PAUSED. -/
def Dev.recoverImage (d : Dev) (h : HalfId) (seq : Nat) (b : List Byte) : Dev × Nat :=
  let r := d.loadFrom h (d.halfScope h) ⟨2, 0, b, 0⟩ 2147483648 none []
  match r.2 with
  | some (phase, x) => (r.1.setResult h seq (reportOf phase x), x.st)
  | none => (((r.1.modStep h fun s => { s with hold := true }).setScope (d.halfScope h) 5 0).holdScope h true, stOk)

/-- RECOVER: one step's order on a job device; a step that fails ends the recovery here too (R384–R388). -/
def Dev.recover (d : Dev) (h : HalfId) (seq : Nat) (o : Order) : Dev :=
  d.begin h seq 0x20 fun d e =>
    let step := e.arg 24 1
    if o.failed ≠ 0#8 then (d.recoverFailed h o.failed.toNat).finish h seq stOk
    else
      let lost := o.lost.map (·.toNat)
      let d := (d.takePart h step o)
      let r : Dev × Nat := match step with
        | 1 => (d.recoverHold h, stOk)
        | 2 => (((if o.sealed then d.lateSeal h else d).recoverOwners h o), stOk)
        | 3 => d.recoverRepair h lost
        | 5 => match o.image with
          | some b => d.recoverImage h seq b
          | none => (d, stOk)
        | 6 => d.recoverRebuild h o
        | 7 => eachRestore (fun d x => d.verifyTensor h o.resume x) d o.restores
        | 8 => ((d.recoverRefill h o lost).recoverOwners h o, stOk)
        | 9 => (d.recoverResume h o, stOk)
        | _ => (d, stOk)
      (if r.2 = stOk then r.1 else r.1.recoverFailed h r.2).finish h seq r.2

end Sys2Proof.Machine
end

