-- ==== Sys2Proof/Machine/LinkIn.lean ====
section
/-! DEFINITION. The writes of a port's command bits, and the stamps and frames a port receives (R36, R41, R322–R341, R354, R363, R384,
R390). -/

namespace Sys2Proof.Machine

/-- A write of 1 to a command bit of LNK_CTRL: 1 QUARANTINE, 2 RELEASE, 3 READMIT; a write the writer may not make is
discarded (R336, R328, R419). -/
def Dev.linkCtrl (d : Dev) (w : Who) (p k : Nat) : Dev :=
  if !d.mayWrite w (0x7000010 + portAdd p) then d
  else if k = 1 then d.quarantine p else if k = 2 then d.release p else d.readmit p

/-- A stamp takes effect; one of depth 0 that does not come from fabric ID 0 is malformed (Table 13-7). -/
def Dev.stampIn (d : Dev) (p count depth lock : Nat) (off : Int) : Dev :=
  if depth = 0 && d.fget F.LNK_PARTNER_FABRIC_ID (portAdd p) != 0 then d.misbehave p E.LNK_MALFORMED
  else d.stampReceived p count depth lock off

/-! ## What frames carry -/

/-- A bounded transfer that is complete and names another device is in transit: it goes on toward its target, or its origin is told
why not (R345–R347, R354). -/
def Dev.transit (d : Dev) (p : Nat) (f : Frame) : Dev :=
  match (d.port p).rx.find? fun r => r.done && !r.sched && r.xfer == f.xfer.toNat && r.vc == f.vc.toNat with
  | none => d
  | some r =>
    let x := xferOf r.toks
    if x.target.toNat = d.me then d
    else
      let d := d.takeRx p r
      let s := d.sendXfer x r.xfer r.vc (some p)
      match s.1 with
      | none => s.2
      | some st => s.2.sendResponse x r.xfer r.vc none st 0 0 []

/-- Management traffic goes on: a loss report to the parent, other traffic by its route (R384, R390). -/
def Dev.relay (d : Dev) (target : Nat) (m : Relay) : Dev :=
  let out (p : Nat) (u : Row) : Dev := d.sendFrame p { TxFrame.blank 9 with xfer := target, units := [u] }
  let go (u : Row) : Dev :=
    match d.routeNext target none with
    | some (p, _) => out p u
    | none => d
  match m with
  | .loss tag lost rec =>
    let p := d.fget F.TAL_STATUS_PARENT
    let u : Row := BitVec.ofNat 512 (tag.toNat + ((lost.map fun l => l.toNat + 2 ^ 16).getD 0) * 2 ^ 16 + (if rec then 2 ^ 33 else 0))
    if p < 15 then out p u else d
  | .command desc => go desc
  | .other u => go u
  | .digest asker tensor => go (BitVec.ofNat 512 (asker.toNat + tensor.toNat * 2 ^ 16 + 2 ^ 34))

/-- The digest of a tensor of the SURVIVAL section, in either half's image, over its current data (R382). -/
def Dev.digestServed (d : Dev) (tensor : Nat) : Option Nat :=
  let of (h : HalfId) : Option Nat := (tensorItem (d.imageBytes h) tensor).map fun i =>
    tensorDigest ((List.range (tiIngots i)).map fun k => d.ingot (d.tensorAt h i false + 4096 * k))
  (of false).or (if d.split then of true else none)

/-- MGMT traffic: for this device, or to be relayed; loss reports are for the master; a tensor digest asked for goes back to the asker
(R382; DESIGN CHOICE: the units of both, which no table lays out). -/
def Dev.mgmtIn (d : Dev) (target : Nat) (m : Relay) : Dev :=
  match m with
  | .loss tag lost rec => if d.isMaster then d.lossReport tag.toNat (lost.map (·.toNat)) rec else d.relay target m
  | .command desc => if target = d.me then d.commandSubmit 3 desc else d.relay target m
  | .other _ => if target = d.me then d else d.relay target m
  | .digest asker tensor =>
    if target = d.me then
      match d.digestServed tensor.toNat with
      | some g => d.relay asker.toNat (.other (BitVec.ofNat 512 (d.me + tensor.toNat * 2 ^ 16 + 2 ^ 35 + g * 2 ^ 64)))
      | none => d
    else d.relay target m

/-- A refused DATA frame: the device that forwarded the transfer sends its origin a RESPONSE with the status (R333, R354). -/
def Dev.refusedIn (d : Dev) (f : Frame) (st : Nat) (x : Xfer) : Dev :=
  if x.origin.toNat = d.me then d.answered x.target.toNat f.xfer.toNat x.index.toNat st []
  else d.sendResponse x f.xfer.toNat 0 none st 0 0 []

/-- A frame's body takes effect. -/
def Dev.deliver (d : Dev) (p : Nat) (f : Frame) (b : FrameBody) : Dev :=
  match b with
  | .none => d
  | .data =>
    let d := d.takeData p f
    if f.last && !f.sched then d.transit p f else d
  | .credit ack nak cs => d.takeCredit p ack.toNat (nak.map (·.toNat)) cs
  | .vote es => d.voteFrame p f.xfer.toNat f.last es
  | .identity (some i) => d.identity p i
  | .identity none => d
  | .delay echo rtt turn => d.delayFrame p echo rtt turn
  | .state ps code half spare child => d.takeState p ps.toNat code.toNat half spare.toNat child
  | .refuse st x => d.refusedIn f st.toNat x
  | .mgmt target m => d.mgmtIn target.toNat m
  | .stamp count depth lock off => d.stampIn p count.toNat depth.toNat lock.toNat off.toInt

/-- A frame of a kind arrives: the checks of R323; on a sealed link it waits for its batch, a stamp's arrival time with it, but
for IDLE, DELAY and SEAL; a frame that takes no effect counts in its batch too (R338). -/
def Dev.frameIn (d : Dev) (p kind : Nat) (f : Frame) (b : FrameBody) : Dev :=
  let f := { f with kind := .ofNat 4 kind }
  let r := d.rxFrame p f
  if decide (2 ≤ d.link p) && decide (d.link p ≤ 4) && r.2.flag F.LNK_STATUS_SEALED (portAdd p) && !unbatched kind then
    r.2.modPort p fun x => { x with batch := x.batch ++ [if r.1 then (f, b) else ({ f with kind := 0 }, .none)] }
  else if r.1 then r.2.deliver p f b else r.2

/-- A SEAL frame arrives (R338). -/
def Dev.sealIn (d : Dev) (p : Nat) (f : Frame) (tagOk : Bool) (batch epoch count : Nat) : Dev :=
  let r := d.rxFrame p { f with kind := 10 }
  if r.1 then r.2.sealFrame p tagOk batch epoch count fun d f b => d.deliver p f b else r.2

/-- STAMP_RECEIVED (R36). -/
def execStampReceived (p : PortId) (f : Frame) (count : Word) (depth : BitVec 8) (lock : BitVec 3) (offset : BitVec 32) (s : State) :
    Host.Outcome State Fault Refusal :=
  onLive (fun d => d.frameIn p.val 3 f (.stamp count depth lock offset)) s

end Sys2Proof.Machine
end

