-- ==== Sys2Proof/Machine/FrameOps.lean ====
section
/-! DEFINITION. The meanings of the frames a port receives (R322–R341, R354, R363, R390). -/

namespace Sys2Proof.Machine

/-- DATA_FRAME (R324). -/
def execDataFrame (p : PortId) (f : Frame) (s : State) : Host.Outcome State Fault Refusal :=
  onLive (fun d => d.frameIn p.val 1 f .data) s

/-- IDLE_FRAME (R322). -/
def execIdleFrame (p : PortId) (f : Frame) (s : State) : Host.Outcome State Fault Refusal :=
  onLive (fun d => d.frameIn p.val 0 f .none) s

/-- CREDIT_FRAME (R325). -/
def execCreditFrame (p : PortId) (f : Frame) (ack : BitVec 16) (nak : Option (BitVec 16)) (credits : List Nat) (s : State) :
    Host.Outcome State Fault Refusal :=
  onLive (fun d => d.frameIn p.val 2 f (.credit ack nak credits)) s

/-- VOTE_FRAME (R363). -/
def execVoteFrame (p : PortId) (f : Frame) (es : List VoteEntry) (s : State) : Host.Outcome State Fault Refusal :=
  onLive (fun d => d.frameIn p.val 4 f (.vote es)) s

/-- ADMIT_FRAME (R330). -/
def execAdmitFrame (p : PortId) (f : Frame) (ident : Option Ident) (s : State) : Host.Outcome State Fault Refusal :=
  onLive (fun d => d.frameIn p.val 5 f (.identity ident)) s

/-- DELAY_FRAME (R328). -/
def execDelayFrame (p : PortId) (f : Frame) (echo : Bool) (rtt turnaround : Nat) (s : State) :
    Host.Outcome State Fault Refusal :=
  onLive (fun d => d.frameIn p.val 6 f (.delay echo rtt turnaround)) s

/-- STATE_FRAME (R332). -/
def execStateFrame (p : PortId) (f : Frame) (ps code : BitVec 3) (half : Bool) (spare : BitVec 4) (child : Bool) (s : State) :
    Host.Outcome State Fault Refusal :=
  onLive (fun d => d.frameIn p.val 7 f (.state ps code half spare child)) s

/-- REFUSE_FRAME (R354). -/
def execRefuseFrame (p : PortId) (f : Frame) (status : BitVec 8) (x : Xfer) (s : State) :
    Host.Outcome State Fault Refusal :=
  onLive (fun d => d.frameIn p.val 8 f (.refuse status x)) s

/-- MGMT_FRAME (R390). -/
def execMgmtFrame (p : PortId) (f : Frame) (target : BitVec 16) (m : Relay) (s : State) :
    Host.Outcome State Fault Refusal :=
  onLive (fun d => d.frameIn p.val 9 f (.mgmt target m)) s

/-- SEAL_FRAME (R338). -/
def execSealFrame (p : PortId) (f : Frame) (tagOk : Bool) (batch epoch count : Nat) (s : State) :
    Host.Outcome State Fault Refusal :=
  onLive (fun d => d.sealIn p.val f tagOk batch epoch count) s

end Sys2Proof.Machine
end

