-- ==== Sys2Proof/Machine/LinkOps.lean ====
section
/-! DEFINITION. The meanings of the links' own commands (R318–R341). -/

namespace Sys2Proof.Machine

/-- SEAL_BATCH_CLOSE (R338). -/
def execSealBatchClose (p : PortId) (s : State) : Host.Outcome State Fault Refusal :=
  onLive (fun d => d.sealBatchClose p.val) s

/-- KEY_SWITCH (R338). -/
def execKeySwitch (p : PortId) (s : State) : Host.Outcome State Fault Refusal := onLive (fun d => d.keySwitch p.val) s

/-- ADMISSION (R328). -/
def execAdmission (p : PortId) (s : State) : Host.Outcome State Fault Refusal := onLive (fun d => d.admission p.val) s

/-- LANE_TRAINING_DONE (R328). -/
def execLaneTrainingDone (p : PortId) (ok : List Bool) (eye : List (Nat × Nat)) (s : State) :
    Host.Outcome State Fault Refusal :=
  onLive (fun d => d.laneTrainingDone p.val ok eye) s

/-- ADMISSION_TIMEOUT (R328). -/
def execAdmissionTimeout (p : PortId) (s : State) : Host.Outcome State Fault Refusal :=
  onLive (fun d => d.admissionTimeout p.val) s

/-- BACKOFF_EXPIRED (R331). -/
def execBackoffExpired (p : PortId) (s : State) : Host.Outcome State Fault Refusal :=
  onLive (fun d => d.backoffExpired p.val) s

/-- SPARE_SUB (R320). -/
def execSpareSub (p : PortId) (lane : BitVec 4) (s : State) : Host.Outcome State Fault Refusal :=
  onLive (fun d => d.spareSub p.val lane.toNat) s

/-- RETRAIN (R326). -/
def execRetrain (p : PortId) (s : State) : Host.Outcome State Fault Refusal := onLive (fun d => d.retrainCmd p.val) s

/-- LANE_LOCK_LOSS (R340). -/
def execLaneLockLoss (p : PortId) (s : State) : Host.Outcome State Fault Refusal := onLive (fun d => d.laneLockLoss p.val) s

/-- REPLAY_TIMEOUT (R326). -/
def execReplayTimeout (p : PortId) (s : State) : Host.Outcome State Fault Refusal :=
  onLive (fun d => d.replayTimeout p.val) s

/-- QUARANTINE (R336). -/
def execQuarantine (who : Who) (p : PortId) (s : State) : Host.Outcome State Fault Refusal :=
  onLive (fun d => d.linkCtrl who p.val 1) s

/-- RELEASE (R336). -/
def execRelease (who : Who) (p : PortId) (s : State) : Host.Outcome State Fault Refusal :=
  onLive (fun d => d.linkCtrl who p.val 2) s

/-- READMIT (R328). -/
def execReadmit (who : Who) (p : PortId) (s : State) : Host.Outcome State Fault Refusal :=
  onLive (fun d => d.linkCtrl who p.val 3) s

end Sys2Proof.Machine
end

