-- ==== Sys2Proof/Machine/LoadOps.lean ====
section
/-! DEFINITION. The meaning of LOAD (R142–R147). -/

namespace Sys2Proof.Machine

/-- LOAD (R147). -/
def execLoad (h : HalfId) (seq : Word) (src : List Byte) (fail : BitVec 8) (es : List RdErr) (s : State) :
    Host.Outcome State Fault Refusal :=
  onLive (fun d => d.load h seq.toNat src fail.toNat es) s

end Sys2Proof.Machine
end

