-- ==== Sys2Proof/Machine/Damage.lean ====
section
/-! DEFINITION. Damaged flits and dropped messages (R238, R265). -/

namespace Sys2Proof.Machine

/-- The tile of the output that feeds a queue. -/
def Dev.sourceOf (d : Dev) (u q : Nat) : Option Nat :=
  d.slots.findSome? fun p => p.2.active.bind fun c =>
    ((List.range c.outs.length).find? fun o => (c.outs[o]?).getD none == some (u, q)).map (c.outTile (p.1 / 32))

/-- The router of tile t lies on a route. -/
def Dev.passes (d : Dev) (t : Nat) (a b : Nat × Nat) : Bool := (routeOf a b).contains (d.router t)

/-- A control message is dropped at tile t, which reports a fault (R265, R282). -/
def Dev.ctlDrop (d : Dev) (t : Nat) : Dev := (d.event E.TIL_NI_CTL_DROP (tileAdd t)).passFault (tileHalf t) 4

/-- A request or reply of a core that is dropped at tile t: over the control network to or from a slice as a control message, over the
bounded plane to or from a stack as a bulk flit with a bad header. -/
def Dev.memDrop (d : Dev) (t a : Nat) : Dev := if place a == .stack then d.event E.TIL_NI_HDR_DROP (tileAdd t) else d.ctlDrop t

/-- FLIT_ERROR: the router of tile t, on the route of what it names, meets damage (R238, R265): 0 a corrected word; 1 an uncorrectable
payload of the n-th token on its way to queue q of tile u, delivered as POISON, 2 its header, the flit dropped; a control message
dropped: 3 the n-th configuration message to tile u, 4 and 5 a load or store request and reply, 6 and 7 a till request and reply of the
operator in slot q of tile u, 8 a tile command or microcode block for tile u; 9 the payload of the n-th row on its way to the reader
in slot q of tile u. -/
def Dev.flitError (d : Dev) (t kind u q n : Nat) : Dev :=
  let y := d.queue u q
  let here (a b : Nat × Nat) : Bool := d.passes t a b
  let edge : Bool := match d.sourceOf u q with
    | some v => here (d.router v) (d.router u)
    | none => true
  match kind with
  | 0 => d.event E.TIL_NI_FLIT_CORR (tileAdd t)
  | 1 =>
    match y.moving[n]? with
    | some k =>
      if !edge then d else
      (d.event E.TIL_NI_FLIT_UNCORR (tileAdd t)).setQueue u q
        { y with flight := y.flight.set n { k with kind := BitVec.ofNat 3 kPoison } }
    | none => d
  | 2 =>
    if n < y.moving.length && edge then
      (d.event E.TIL_NI_HDR_DROP (tileAdd t)).setQueue u q { y with flight := y.flight.eraseIdx n }
    else d
  | 3 =>
    match (d.net.cfg.filter fun m => m.tile == u)[n]? with
    | some m => ({ d with net := { d.net with cfg := d.net.cfg.erase m } }).ctlDrop t
    | none => d
  | 4 =>
    match d.net.mem.find? fun m => m.tile == u && m.op == q && here (d.router u) (d.targetRouter m.addr) with
    | some m => ({ d with net := { d.net with mem := d.net.mem.erase m } }).memDrop t m.addr
    | none => d
  | 5 =>
    match d.net.memBack.find? fun m => m.tile == u && m.op == q && here (d.targetRouter m.addr) (d.router u) with
    | some m => ({ d with net := { d.net with memBack := d.net.memBack.erase m } }).memDrop t m.addr
    | none => d
  | 6 =>
    match d.net.till.find? fun m => m.tile == u && m.op == q && m.reply.isNone && here (d.router u) (d.targetRouter m.addr) with
    | some m => ({ d with net := { d.net with till := d.net.till.erase m } }).ctlDrop t
    | none => d
  | 7 =>
    match d.net.till.find? fun m => m.tile == u && m.op == q && m.reply.isSome && here (d.targetRouter m.addr) (d.router u) with
    | some m => ({ d with net := { d.net with till := d.net.till.erase m } }).ctlDrop t
    | none => d
  | 8 => d.ctlDrop t
  | _ =>
    let x := d.slot u q
    match x.walk with
    | some w =>
      match flightAddr n w.ahead with
      | some a =>
        if here (d.targetRouter a) (d.router u) then
          (d.event E.TIL_NI_FLIT_UNCORR (tileAdd t)).setSlot u q { x with walk := some { w with ahead := fillRow (0, true) n w.ahead } }
        else d
      | none => d
    | none => d

end Sys2Proof.Machine
end

