-- ==== Sys2Proof/Machine/Memory.lean ====
section
/-! DEFINITION. The meanings of the window, scrub and network-error commands (R227–R244, R265). -/

namespace Sys2Proof.Machine

/-- WIN_CMD (R232). -/
def execWinCmd (who : Who) (t : TileId) (v : Word) (s : State) : Host.Outcome State Fault Refusal :=
  onLive (fun d => if d.mayWrite who (0x1006018 + tileAdd t.toNat) then d.winCmd t.toNat v.toNat else d) s

/-- WINDOW_PLACE (R233). -/
def execWindowPlace (t : TileId) (s : State) : Host.Outcome State Fault Refusal := onLive (fun d => d.windowPlace t.toNat) s

/-- WINDOW_LOAD_DONE (R233). -/
def execWindowLoadDone (t : TileId) (handle : BitVec 8) (errs : List RdErr) (s : State) :
    Host.Outcome State Fault Refusal :=
  onLive (fun d => d.windowLoadDone t.toNat handle.toNat errs) s

/-- WIN_REL (R234). -/
def execWinRel (who : Who) (t : TileId) (v : Word) (s : State) : Host.Outcome State Fault Refusal :=
  onLive (fun d => if d.mayWrite who (0x1006020 + tileAdd t.toNat) then d.winRel t.toNat v.toNat else d) s

/-- FLIT_ERROR (R265). -/
def execFlitError (t : TileId) (kind : Fin 10) (tile : TileId) (q : QueueId) (n : Nat) (s : State) :
    Host.Outcome State Fault Refusal :=
  onLive (fun d => d.flitError t.toNat kind.val tile.toNat q.toNat n) s

/-- STACK_SCRUB (R230). -/
def execStackScrub (k : StackId) (errs : List (Nat × RdErr × Bool)) (s : State) : Host.Outcome State Fault Refusal :=
  onLive (fun d => d.stackScrub k.val errs) s

end Sys2Proof.Machine
end

