-- ==== Sys2Proof/Machine/RecoveryOps.lean ====
section
/-! DEFINITION. The meanings of the commands of recovery (R384–R388). -/

namespace Sys2Proof.Machine

/-- LOSS_DETECT (R384). -/
def execLossDetect (p : PortId) (s : State) : Host.Outcome State Fault Refusal := onLive (fun d => d.lossDetect p.val) s

/-- LOSS_REPORT (R384). -/
def execLossReport (tag : BitVec 16) (lost : Option (BitVec 16)) (recover : Bool) (s : State) :
    Host.Outcome State Fault Refusal :=
  onLive (fun d => d.lossReport tag.toNat (lost.map (·.toNat)) recover) s

/-- RECOVERY_STEP (R384). -/
def execRecoveryStep (status : BitVec 8) (cur : List Nat) (s : State) : Host.Outcome State Fault Refusal :=
  onLive (fun d => d.recoveryStep status.toNat cur) s

/-- RETURN_TIMEOUT (R384). -/
def execReturnTimeout (s : State) : Host.Outcome State Fault Refusal := onLive Dev.returnTimeout s

/-- RECOVER (R385). -/
def execRecover (h : HalfId) (seq : Word) (o : Order) (s : State) : Host.Outcome State Fault Refusal :=
  onLive (fun d => d.recover h seq.toNat o) s

end Sys2Proof.Machine
end

