-- ==== Sys2Proof/Machine/ResetOps.lean ====
section
/-! DEFINITION. The meanings of winnow, the resets, bring-up, the watchdog and the halves' charge (R451–R475). -/

namespace Sys2Proof.Machine

/-- WINNOW (R451). -/
def execWinnow (h : HalfId) (seq : Word) (s : State) : Host.Outcome State Fault Refusal :=
  onLive (fun d => d.winnow h seq.toNat) s

/-- WINNOW_END (R451). -/
def execWinnowEnd (scope : Scope) (ok : Bool) (upto : Nat) (s : State) : Host.Outcome State Fault Refusal :=
  onLive (fun d => d.winnowEnd scope ok upto) s

/-- COMPUTE_RESET (R464). -/
def execComputeReset (h : HalfId) (seq : Word) (s : State) : Host.Outcome State Fault Refusal :=
  onLive (fun d => d.computeReset h seq.toNat) s

/-- COMPUTE_RESET_DONE (R464). -/
def execComputeResetDone (scope : Scope) (s : State) : Host.Outcome State Fault Refusal :=
  onLive (fun d => d.computeResetDone scope) s

/-- PACKAGE_RESET (R466). -/
def execPackageReset (h : HalfId) (seq : Word) (s : State) : Host.Outcome State Fault Refusal :=
  onLive (fun d => d.packageResetCmd h seq.toNat) s

/-- SITE_RESET (R468). -/
def execSiteReset (h : HalfId) (seq : Word) (s : State) : Host.Outcome State Fault Refusal :=
  onLive (fun d => d.siteReset h seq.toNat) s

/-- SITE_TEST (R468). -/
def execSiteTest (h : HalfId) (seq : Word) (s : State) : Host.Outcome State Fault Refusal :=
  onLive (fun d => d.siteTest h seq.toNat) s

/-- SITE_TEST_DONE (R468). -/
def execSiteTestDone (h : HalfId) (seq : Word) (fails : Word) (s : State) : Host.Outcome State Fault Refusal :=
  onLive (fun d => d.siteTestDone h seq.toNat fails.toNat) s

/-- COLD_RESET (R457). -/
def execColdReset (pwr rst vstby torn : Bool) (s : State) : Host.Outcome State Fault Refusal :=
  onDev (fun d => d.coldReset pwr rst vstby torn) s

/-- BRINGUP (R460). -/
def execBringup (feedId rank : Nat) (master : Bool) (bootSel : Fin 4) (root pageOk : Bool) (s : State) :
    Host.Outcome State Fault Refusal :=
  onDev (fun d => d.bringup feedId rank master bootSel.val root pageOk) s

/-- UHLEA_START (R481). -/
def execUhleaStart (ok ok2 kept : Bool) (format : Nat) (s : State) : Host.Outcome State Fault Refusal :=
  onPowered (fun d => d.uhleaStart ok ok2 kept format) s

/-- STACK_TRAINING_DONE (R460). -/
def execStackTrainingDone (k : StackId) (ok : Bool) (rep : List Bool) (s : State) : Host.Outcome State Fault Refusal :=
  onPowered (fun d => d.stackTrainingDone k.val ok rep) s

/-- BRIDGE_TRAINING_DONE (R460). -/
def execBridgeTrainingDone (ok : Bool) (s : State) : Host.Outcome State Fault Refusal :=
  onPowered (fun d => d.bridgeTrainingDone ok) s

/-- TALLY_WAIT_EXPIRED (R460). -/
def execTallyWaitExpired (s : State) : Host.Outcome State Fault Refusal := onPowered Dev.tallyWaitExpired s

/-- BRINGUP_COMPLETE (R460). -/
def execBringupComplete (s : State) : Host.Outcome State Fault Refusal := onPowered Dev.bringupComplete s

/-- WATCHDOG (R467). -/
def execWatchdog (s : State) : Host.Outcome State Fault Refusal := onPowered Dev.watchdog s

/-- KICK (R467). -/
def execKick (who : Who) (s : State) : Host.Outcome State Fault Refusal := onPowered (fun d => d.kick who) s

/-- HEARTBEAT (R470). -/
def execHeartbeat (s : State) : Host.Outcome State Fault Refusal := onLive Dev.heartbeat s

/-- HEARTBEAT_RX (R470). -/
def execHeartbeatRx (claim : Bool) (s : State) : Host.Outcome State Fault Refusal := onLive (fun d => d.heartbeatRx claim) s

/-- ECHO_RX (R470). -/
def execEchoRx (claim : Bool) (s : State) : Host.Outcome State Fault Refusal := onLive (fun d => d.echoRx claim) s

/-- HEARTBEAT_MISS (R471). -/
def execHeartbeatMiss (s : State) : Host.Outcome State Fault Refusal := onLive Dev.heartbeatMiss s

/-- ECHO_MISS (R471). -/
def execEchoMiss (s : State) : Host.Outcome State Fault Refusal := onLive Dev.echoMiss s

/-- FABRIC_ID_WRITE (R459). -/
def execFabricIdWrite (who : Who) (v : BitVec 16) (s : State) : Host.Outcome State Fault Refusal :=
  onLive (fun d => d.fabricIdWrite who v.toNat) s

end Sys2Proof.Machine
end

