-- ==== Sys2Proof/Machine/SecurityOps.lean ====
section
/-! DEFINITION. The meanings of the commands of provisioning, unlocks, tenancy and bundles (R431–R450). -/

namespace Sys2Proof.Machine

/-- LICENCE_INSTALL (R441). -/
def execLicenceInstall (h : HalfId) (seq : Word) (sigOk : Bool) (s : State) : Host.Outcome State Fault Refusal :=
  onLive (fun d => d.licenceInstall h seq.toNat sigOk) s

/-- PROVISION (R431). -/
def execProvision (h : HalfId) (seq : Word) (sigOk : Bool) (s : State) : Host.Outcome State Fault Refusal :=
  onLive (fun d => d.provision h seq.toNat sigOk) s

/-- PROF_REQ (R435). -/
def execProfReq (id : Nat) (lock : Bool) (s : State) : Host.Outcome State Fault Refusal :=
  onPowered (fun d => d.profReq id lock) s

/-- DEBUG_REQ (R435). -/
def execDebugReq (id : Nat) (lock sigOk : Bool) (s : State) : Host.Outcome State Fault Refusal :=
  onPowered (fun d => d.debugReq id lock sigOk) s

/-- NONCE_REQ (R435). -/
def execNonceReq (id : Nat) (s : State) : Host.Outcome State Fault Refusal := onPowered (fun d => d.nonceReq id) s

/-- NONCE_EXPIRED (R435). -/
def execNonceExpired (s : State) : Host.Outcome State Fault Refusal := onPowered Dev.nonceExpired s

/-- LOCK (R438). -/
def execLock (id : Nat) (s : State) : Host.Outcome State Fault Refusal := onPowered (fun d => d.lockCmd id) s

/-- UNLOCK_WAIT_EXPIRED (R437). -/
def execUnlockWaitExpired (s : State) : Host.Outcome State Fault Refusal := onPowered Dev.unlockWaitExpired s

/-- TENANT_ASSIGN (R444). -/
def execTenantAssign (h : HalfId) (seq : Word) (s : State) : Host.Outcome State Fault Refusal :=
  onLive (fun d => d.tenantAssign h seq.toNat) s

/-- TENANT_RELEASE (R444). -/
def execTenantRelease (h : HalfId) (seq : Word) (s : State) : Host.Outcome State Fault Refusal :=
  onLive (fun d => d.tenantRelease h seq.toNat) s

/-- QUOTE (R449). -/
def execQuote (h : HalfId) (seq : Word) (s : State) : Host.Outcome State Fault Refusal :=
  onLive (fun d => d.quote h seq.toNat) s

/-- SPDM (R449). -/
def execSpdm (id : Nat) (m : MsgHdr) (code : Nat) (nonce : List Byte) (s : State) : Host.Outcome State Fault Refusal :=
  onPowered (fun d => d.spdm id m code nonce) s

/-- BUNDLE_GO (R447). -/
def execBundleGo (ix : Fin 2) (who : Who) (unwrapOk : Bool) (es : List RdErr) (clearing : Bool) (s : State) :
    Host.Outcome State Fault Refusal :=
  onLive (fun d => d.bundleGo ix.val who unwrapOk es clearing) s

/-- BUNDLE_DONE (R447). -/
def execBundleDone (ix : Fin 2) (tagOk : Bool) (plain : List Byte) (s : State) : Host.Outcome State Fault Refusal :=
  onLive (fun d => d.bundleDone ix.val tagOk plain) s

end Sys2Proof.Machine
end

