-- ==== Sys2Proof/Machine/Sessions.lean ====
section
/-! DEFINITION. The meanings of the management sessions' messages (R417–R434). -/

namespace Sys2Proof.Machine

/-- SESSION_OPEN (R432). -/
def execSessionOpen (addr : Nat) (role : Option Who) (s : State) : Host.Outcome State Fault Refusal :=
  onPowered (fun d => d.sessionOpen addr role) s

/-- SESSION_CLOSE (R438). -/
def execSessionClose (id : Nat) (s : State) : Host.Outcome State Fault Refusal := onPowered (fun d => d.sessionClose id) s

/-- ADDRESS_REFUSAL_EXPIRED (R432). -/
def execAddressRefusalExpired (addr : Nat) (s : State) : Host.Outcome State Fault Refusal :=
  onPowered (fun d => d.addrAgain addr) s

/-- COMMAND_SUBMIT (R392). -/
def execCommandSubmit (src : Fin 4) (session : Nat) (m : MsgHdr) (desc : Row) (s : State) : Host.Outcome State Fault Refusal :=
  onLive (fun d => d.submission src.val session m desc) s

/-- REG_READ (R418). -/
def execRegRead (id : Nat) (m : MsgHdr) (addrs : List Nat) (s : State) : Host.Outcome State Fault Refusal :=
  onPowered (fun d => d.regRead id m addrs) s

/-- REG_WRITE (R419). -/
def execRegWrite (id : Nat) (m : MsgHdr) (pairs : List (Nat × Nat)) (s : State) : Host.Outcome State Fault Refusal :=
  onPowered (fun d => d.regWrite id m pairs) s

/-- LEDGER_READ (R418). -/
def execLedgerRead (id : Nat) (m : MsgHdr) (first n : Nat) (s : State) : Host.Outcome State Fault Refusal :=
  onPowered (fun d => d.ledgerRead id m first n) s

/-- TELEMETRY (R420). -/
def execTelemetry (id : Nat) (m : MsgHdr) (period : Nat) (s : State) : Host.Outcome State Fault Refusal :=
  onPowered (fun d => d.telemetry id m period) s

/-- TELEMETRY_REPORT (R420). -/
def execTelemetryReport (id : Nat) (s : State) : Host.Outcome State Fault Refusal :=
  onPowered (fun d => d.telemetryReport id) s

/-- STRONGBOX_READ (R427). -/
def execStrongboxRead (id : Nat) (m : MsgHdr) (first n : Nat) (s : State) : Host.Outcome State Fault Refusal :=
  onPowered (fun d => d.strongboxRead id m first n) s

/-- TRACE_READ (R422). -/
def execTraceRead (id : Nat) (m : MsgHdr) (first n : Nat) (s : State) : Host.Outcome State Fault Refusal :=
  onPowered (fun d => d.traceRead id m first n) s

end Sys2Proof.Machine
end

