-- ==== Sys2Proof/Machine/StepOps.lean ====
section
/-! DEFINITION. The meanings of the commands of the training step and the update engines (R267–R317). -/

namespace Sys2Proof.Machine

/-- SCHED_APPEND (R312). -/
def execSchedAppend (h : HalfId) (seq : Word) (es : List RdErr) (s : State) : Host.Outcome State Fault Refusal :=
  onLive (fun d => d.schedAppend h seq.toNat es) s

/-- RUN (R270). -/
def execRun (h : HalfId) (seq : Word) (peers : List Peer) (es : List (Nat × RdErr)) (s : State) :
    Host.Outcome State Fault Refusal :=
  onLive (fun d => d.run h seq.toNat peers es) s

/-- BASELINE (R380). -/
def execBaseline (h : HalfId) (errs : List (Nat × RdErr)) (s : State) : Host.Outcome State Fault Refusal :=
  onLive (fun d => d.baseline h errs) s

/-- BASELINE_VOTE (R380). -/
def execBaselineVote (h : HalfId) (s : State) : Host.Outcome State Fault Refusal := onLive (fun d => d.baselineVote h) s

/-- ATTEMPT_START (R270). -/
def execAttemptStart (h : HalfId) (s : State) : Host.Outcome State Fault Refusal := onLive (fun d => d.attemptStart h) s

/-- PASS_ADMIT (R273). -/
def execPassAdmit (h : HalfId) (kind : Fin 6) (mb group : BitVec 8) (inputs : List PassInput) (host : List (Option (List Byte)))
    (s : State) : Host.Outcome State Fault Refusal :=
  onLive (fun d => d.passAdmit h kind.val mb.toNat group.toNat inputs host) s

/-- PASS_END (R273). -/
def execPassEnd (h : HalfId) (ix : BitVec 6) (es : List (Nat × RdErr)) (s : State) : Host.Outcome State Fault Refusal :=
  onLive (fun d => d.passEnd h ix.toNat es) s

/-- PASS_TIMEOUT (R282). -/
def execPassTimeout (h : HalfId) (s : State) : Host.Outcome State Fault Refusal := onLive (fun d => d.passTimeoutEvent h) s

/-- ABANDON (R283). -/
def execAbandon (h : HalfId) (s : State) : Host.Outcome State Fault Refusal := onLive (fun d => d.abandon h) s

/-- REPLAY (R283). -/
def execReplay (h : HalfId) (s : State) : Host.Outcome State Fault Refusal := onLive (fun d => d.replay h) s

/-- LOSS_GATE (R272). -/
def execLossGate (h : HalfId) (s : State) : Host.Outcome State Fault Refusal := onLive (fun d => d.lossGate h) s

/-- GRADIENT_GATE (R272). -/
def execGradientGate (h : HalfId) (layer : BitVec 8) (own : Option (BitVec 48)) (s : State) :
    Host.Outcome State Fault Refusal :=
  onLive (fun d => d.gradientGate h layer.toNat (own.map (·.toNat))) s

/-- PREEMPT (R278). -/
def execPreempt (h : HalfId) (seq : Word) (s : State) : Host.Outcome State Fault Refusal :=
  onLive (fun d => d.preempt h seq.toNat) s

/-- PREEMPT_DONE (R278). -/
def execPreemptDone (h : HalfId) (s : State) : Host.Outcome State Fault Refusal := onLive (fun d => d.preemptDone h) s

/-- RESUME (R278). -/
def execResume (h : HalfId) (seq : Word) (s : State) : Host.Outcome State Fault Refusal :=
  onLive (fun d => d.resume h seq.toNat) s

/-- SEAL_VOTE (R286). -/
def execSealVote (h : HalfId) (s : State) : Host.Outcome State Fault Refusal := onLive (fun d => d.sealVote h) s

/-- SEAL_ROUND (R286). -/
def execSealRound (h : HalfId) (moved : Bool) (s : State) : Host.Outcome State Fault Refusal :=
  onLive (fun d => d.sealRound h moved) s

/-- UPDATE_BLOCK_DISPATCH (R301). -/
def execUpdateBlockDispatch (h : HalfId) (layer : BitVec 8) (own : Option (BitVec 48)) (s : State) :
    Host.Outcome State Fault Refusal :=
  onLive (fun d => d.updateDispatch h layer.toNat (own.map (·.toNat))) s

/-- UPDATE_BLOCK_DONE (R308). -/
def execUpdateBlockDone (g : Fin 16) (es : List (Nat × RdErr)) (s : State) : Host.Outcome State Fault Refusal :=
  onLive (fun d => d.updateDone g.val es) s

/-- MIRROR (R375). -/
def execMirror (h : HalfId) (tensor : BitVec 13) (errs : List (Nat × RdErr)) (s : State) : Host.Outcome State Fault Refusal :=
  onLive (fun d => d.mirror h tensor.toNat errs) s

/-- STOP_AT_ATTEMPT_END (R395). -/
def execStopAtAttemptEnd (h : HalfId) (seq : Word) (s : State) : Host.Outcome State Fault Refusal :=
  onLive (fun d => d.stopAtEnd h seq.toNat) s

/-- STOP_NOW (R395). -/
def execStopNow (h : HalfId) (seq : Word) (s : State) : Host.Outcome State Fault Refusal :=
  onLive (fun d => d.stopNow h seq.toNat) s

end Sys2Proof.Machine
end

