-- ==== Sys2Proof/Machine/Streams.lean ====
section
/-! DEFINITION. The meanings of the stream-engine and till commands (R159–R183). -/

namespace Sys2Proof.Machine

/-- STREAM_WALK_START (R163). -/
def execStreamWalkStart (t : TileId) (slot : SlotId) (s : State) : Host.Outcome State Fault Refusal :=
  onLive (fun d => d.walkStart t.toNat slot.toNat) s

/-- ROW_FETCH (R165). -/
def execRowFetch (t : TileId) (slot : SlotId) (s : State) : Host.Outcome State Fault Refusal :=
  onLive (fun d => d.rowFetch t.toNat slot.toNat) s

/-- MEMORY_ROW_RETURN (R165). -/
def execMemoryRowReturn (t : TileId) (slot : SlotId) (k : Nat) (errs : List RdErr) (s : State) :
    Host.Outcome State Fault Refusal :=
  onLive (fun d => d.rowReturn t.toNat slot.toNat k errs) s

/-- STREAM_READER_FIRE (R529). -/
def execStreamReaderFire (t : TileId) (slot : SlotId) (scale : BitVec 48) (errs : List RdErr) (s : State) :
    Host.Outcome State Fault Refusal :=
  onLive (fun d => d.readerFire t.toNat slot.toNat scale.toNat errs) s

/-- STREAM_WRITER_FIRE (R174). -/
def execStreamWriterFire (t : TileId) (slot : SlotId) (s : State) : Host.Outcome State Fault Refusal :=
  onLive (fun d => d.writerFire t.toNat slot.toNat) s

/-- STREAM_WALK_END (R154). -/
def execStreamWalkEnd (t : TileId) (slot : SlotId) (s : State) : Host.Outcome State Fault Refusal :=
  onLive (fun d => d.walkEnd t.toNat slot.toNat) s

/-- TILL_REQUEST (R175). -/
def execTillRequest (t : TileId) (err : RdErr) (s : State) : Host.Outcome State Fault Refusal :=
  onLive (fun d => d.tillRequest t.toNat err) s

end Sys2Proof.Machine
end

