-- ==== Sys2Proof/Machine/VectorOps.lean ====
section
/-! DEFINITION. The meanings of the vector engine's commands, one per operation of Table 8-2 (R184–R205). -/

namespace Sys2Proof.Machine

/-- VECTOR_FIRE (R186). -/
def execVectorFire (t : TileId) (slot : SlotId) (vsete : Option Word) (s : State) : Host.Outcome State Fault Refusal :=
  onLive (fun d => d.vectorFire t.toNat slot.toNat (vsete.map BitVec.toNat)) s

/-- VECTOR_OUTPUT (R187). -/
def execVectorOutput (t : TileId) (slot : SlotId) (s : State) : Host.Outcome State Fault Refusal :=
  onLive (fun d => d.vectorOutput t.toNat slot.toNat) s

/-- VX_ADD (R192). -/
def execVxAdd (t : TileId) (g : GroupId) (s : State) : Host.Outcome State Fault Refusal :=
  onLive (fun d => d.vxElementwise t.toNat g.toNat 0x01) s

/-- VX_SUB (R192). -/
def execVxSub (t : TileId) (g : GroupId) (s : State) : Host.Outcome State Fault Refusal :=
  onLive (fun d => d.vxElementwise t.toNat g.toNat 0x02) s

/-- VX_MUL (R192). -/
def execVxMul (t : TileId) (g : GroupId) (s : State) : Host.Outcome State Fault Refusal :=
  onLive (fun d => d.vxElementwise t.toNat g.toNat 0x03) s

/-- VX_FMA (R192). -/
def execVxFma (t : TileId) (g : GroupId) (s : State) : Host.Outcome State Fault Refusal :=
  onLive (fun d => d.vxElementwise t.toNat g.toNat 0x04) s

/-- VX_MAX (R193). -/
def execVxMax (t : TileId) (g : GroupId) (s : State) : Host.Outcome State Fault Refusal :=
  onLive (fun d => d.vxElementwise t.toNat g.toNat 0x05) s

/-- VX_MIN (R193). -/
def execVxMin (t : TileId) (g : GroupId) (s : State) : Host.Outcome State Fault Refusal :=
  onLive (fun d => d.vxElementwise t.toNat g.toNat 0x06) s

/-- VX_ABS (R192). -/
def execVxAbs (t : TileId) (g : GroupId) (s : State) : Host.Outcome State Fault Refusal :=
  onLive (fun d => d.vxElementwise t.toNat g.toNat 0x07) s

/-- VX_NEG (R192). -/
def execVxNeg (t : TileId) (g : GroupId) (s : State) : Host.Outcome State Fault Refusal :=
  onLive (fun d => d.vxElementwise t.toNat g.toNat 0x08) s

/-- VX_EXP2 (R194). -/
def execVxExp2 (t : TileId) (g : GroupId) (s : State) : Host.Outcome State Fault Refusal :=
  onLive (fun d => d.vxElementwise t.toNat g.toNat 0x09) s

/-- VX_LOG2 (R194). -/
def execVxLog2 (t : TileId) (g : GroupId) (s : State) : Host.Outcome State Fault Refusal :=
  onLive (fun d => d.vxElementwise t.toNat g.toNat 0x0A) s

/-- VX_RCP (R194). -/
def execVxRcp (t : TileId) (g : GroupId) (s : State) : Host.Outcome State Fault Refusal :=
  onLive (fun d => d.vxElementwise t.toNat g.toNat 0x0B) s

/-- VX_RSQRT (R194). -/
def execVxRsqrt (t : TileId) (g : GroupId) (s : State) : Host.Outcome State Fault Refusal :=
  onLive (fun d => d.vxElementwise t.toNat g.toNat 0x0C) s

/-- VX_CMPEQ (R192). -/
def execVxCmpeq (t : TileId) (g : GroupId) (s : State) : Host.Outcome State Fault Refusal :=
  onLive (fun d => d.vxElementwise t.toNat g.toNat 0x0D) s

/-- VX_CMPLT (R192). -/
def execVxCmplt (t : TileId) (g : GroupId) (s : State) : Host.Outcome State Fault Refusal :=
  onLive (fun d => d.vxElementwise t.toNat g.toNat 0x0E) s

/-- VX_CMPLE (R192). -/
def execVxCmple (t : TileId) (g : GroupId) (s : State) : Host.Outcome State Fault Refusal :=
  onLive (fun d => d.vxElementwise t.toNat g.toNat 0x0F) s

/-- VX_SEL (R192). -/
def execVxSel (t : TileId) (g : GroupId) (s : State) : Host.Outcome State Fault Refusal :=
  onLive (fun d => d.vxElementwise t.toNat g.toNat 0x10) s

/-- VX_AND (R192). -/
def execVxAnd (t : TileId) (g : GroupId) (s : State) : Host.Outcome State Fault Refusal :=
  onLive (fun d => d.vxElementwise t.toNat g.toNat 0x11) s

/-- VX_OR (R192). -/
def execVxOr (t : TileId) (g : GroupId) (s : State) : Host.Outcome State Fault Refusal :=
  onLive (fun d => d.vxElementwise t.toNat g.toNat 0x12) s

/-- VX_XOR (R192). -/
def execVxXor (t : TileId) (g : GroupId) (s : State) : Host.Outcome State Fault Refusal :=
  onLive (fun d => d.vxElementwise t.toNat g.toNat 0x13) s

/-- VX_SHL (R192). -/
def execVxShl (t : TileId) (g : GroupId) (s : State) : Host.Outcome State Fault Refusal :=
  onLive (fun d => d.vxElementwise t.toNat g.toNat 0x14) s

/-- VX_SHR (R192). -/
def execVxShr (t : TileId) (g : GroupId) (s : State) : Host.Outcome State Fault Refusal :=
  onLive (fun d => d.vxElementwise t.toNat g.toNat 0x15) s

/-- VX_SAR (R192). -/
def execVxSar (t : TileId) (g : GroupId) (s : State) : Host.Outcome State Fault Refusal :=
  onLive (fun d => d.vxElementwise t.toNat g.toNat 0x16) s

/-- VX_IADD (R192). -/
def execVxIadd (t : TileId) (g : GroupId) (s : State) : Host.Outcome State Fault Refusal :=
  onLive (fun d => d.vxElementwise t.toNat g.toNat 0x17) s

/-- VX_ISUB (R192). -/
def execVxIsub (t : TileId) (g : GroupId) (s : State) : Host.Outcome State Fault Refusal :=
  onLive (fun d => d.vxElementwise t.toNat g.toNat 0x18) s

/-- VX_IMUL (R192). -/
def execVxImul (t : TileId) (g : GroupId) (s : State) : Host.Outcome State Fault Refusal :=
  onLive (fun d => d.vxElementwise t.toNat g.toNat 0x19) s

/-- VX_IMAX (R192). -/
def execVxImax (t : TileId) (g : GroupId) (s : State) : Host.Outcome State Fault Refusal :=
  onLive (fun d => d.vxElementwise t.toNat g.toNat 0x1A) s

/-- VX_IMIN (R192). -/
def execVxImin (t : TileId) (g : GroupId) (s : State) : Host.Outcome State Fault Refusal :=
  onLive (fun d => d.vxElementwise t.toNat g.toNat 0x1B) s

/-- VX_CVTI (R197). -/
def execVxCvti (t : TileId) (g : GroupId) (s : State) : Host.Outcome State Fault Refusal :=
  onLive (fun d => d.vxCvti t.toNat g.toNat) s

/-- VX_CVTO (R197). -/
def execVxCvto (t : TileId) (g : GroupId) (s : State) : Host.Outcome State Fault Refusal :=
  onLive (fun d => d.vxCvto t.toNat g.toNat) s

/-- VX_OUT (R192). -/
def execVxOut (t : TileId) (g : GroupId) (s : State) : Host.Outcome State Fault Refusal :=
  onLive (fun d => d.vxOut t.toNat g.toNat) s

/-- VX_IOTA (R201). -/
def execVxIota (t : TileId) (g : GroupId) (s : State) : Host.Outcome State Fault Refusal :=
  onLive (fun d => d.vxIota t.toNat g.toNat) s

/-- VX_RED (R203). -/
def execVxRed (t : TileId) (g : GroupId) (s : State) : Host.Outcome State Fault Refusal :=
  onLive (fun d => d.vxRed t.toNat g.toNat) s

/-- VX_RSM (R205). -/
def execVxRsm (t : TileId) (g : GroupId) (s : State) : Host.Outcome State Fault Refusal :=
  onLive (fun d => d.vxRsm t.toNat g.toNat) s

/-- VX_RSF (R205). -/
def execVxRsf (t : TileId) (g : GroupId) (s : State) : Host.Outcome State Fault Refusal :=
  onLive (fun d => d.vxRsf t.toNat g.toNat) s

/-- VX_RSL (R205). -/
def execVxRsl (t : TileId) (g : GroupId) (s : State) : Host.Outcome State Fault Refusal :=
  onLive (fun d => d.vxRsl t.toNat g.toNat) s

/-- VX_RSGET (R205). -/
def execVxRsget (t : TileId) (g : GroupId) (s : State) : Host.Outcome State Fault Refusal :=
  onLive (fun d => d.vxRsget t.toNat g.toNat) s

end Sys2Proof.Machine
end

