-- ==== Sys2Proof/Machine/Dispatch.lean ====
section
/-! DEFINITION. The dispatch of the commands to their meanings, one arm per constructor. -/

namespace Sys2Proof.Machine

/-- The effect of a command on everything but the queue. -/
def exec (i : Instr) (s : State) : Host.Outcome State Fault Refusal :=
  match i with
  | .registerWrite who off width v hw => Sys2Proof.Machine.execRegisterWrite who off width v hw s
  | .refLost => Sys2Proof.Machine.execRefLost s
  | .refValid => Sys2Proof.Machine.execRefValid s
  | .tick => Sys2Proof.Machine.execTick s
  | .stampReceived p f count depth lock offset => Sys2Proof.Machine.execStampReceived p f count depth lock offset s
  | .schedClassRestored => Sys2Proof.Machine.execSchedClassRestored s
  | .stampLost => Sys2Proof.Machine.execStampLost s
  | .holdExpired => Sys2Proof.Machine.execHoldExpired s
  | .relock who => Sys2Proof.Machine.execRelock who s
  | .schedOff who v => Sys2Proof.Machine.execSchedOff who v s
  | .execAtStart h seq => Sys2Proof.Machine.execExecAtStart h seq s
  | .scheduledSlot p slot => Sys2Proof.Machine.execScheduledSlot p slot s
  | .stationaryLoad site inst block src t slot => Sys2Proof.Machine.execStationaryLoad site inst block src t slot s
  | .stationaryLoadDone site inst block errs => Sys2Proof.Machine.execStationaryLoadDone site inst block errs s
  | .fieldRunStart site inst => Sys2Proof.Machine.execFieldRunStart site inst s
  | .fieldSlot site inst odd => Sys2Proof.Machine.execFieldSlot site inst odd s
  | .tokenArrival t q tok => Sys2Proof.Machine.execTokenArrival t q tok s
  | .creditReturn t q => Sys2Proof.Machine.execCreditReturn t q s
  | .switchFire t slot => Sys2Proof.Machine.execSwitchFire t slot s
  | .mergeControlledFire t slot => Sys2Proof.Machine.execMergeControlledFire t slot s
  | .mergeRotationFire t slot => Sys2Proof.Machine.execMergeRotationFire t slot s
  | .repeatControlledFire t slot => Sys2Proof.Machine.execRepeatControlledFire t slot s
  | .repeatStaticFire t slot => Sys2Proof.Machine.execRepeatStaticFire t slot s
  | .dropControlledFire t slot => Sys2Proof.Machine.execDropControlledFire t slot s
  | .dropStaticFire t slot => Sys2Proof.Machine.execDropStaticFire t slot s
  | .forkFire t slot => Sys2Proof.Machine.execForkFire t slot s
  | .stallLong t slot => Sys2Proof.Machine.execStallLong t slot s
  | .cntClear who t hw => Sys2Proof.Machine.execCntClear who t hw s
  | .commandSubmit src session m desc => Sys2Proof.Machine.execCommandSubmit src session m desc s
  | .nop h seq => Sys2Proof.Machine.execNop h seq s
  | .load h seq src fail es => Sys2Proof.Machine.execLoad h seq src fail es s
  | .stage h seq => Sys2Proof.Machine.execStage h seq s
  | .configMessage t => Sys2Proof.Machine.execConfigMessage t s
  | .markArrival t q tok => Sys2Proof.Machine.execMarkArrival t q tok s
  | .inputClose t slot input => Sys2Proof.Machine.execInputClose t slot input s
  | .unitSwap t slot => Sys2Proof.Machine.execUnitSwap t slot s
  | .streamWalkStart t slot => Sys2Proof.Machine.execStreamWalkStart t slot s
  | .rowFetch t slot => Sys2Proof.Machine.execRowFetch t slot s
  | .memoryRowReturn t slot k errs => Sys2Proof.Machine.execMemoryRowReturn t slot k errs s
  | .streamReaderFire t slot scale errs => Sys2Proof.Machine.execStreamReaderFire t slot scale errs s
  | .streamWriterFire t slot => Sys2Proof.Machine.execStreamWriterFire t slot s
  | .streamWalkEnd t slot => Sys2Proof.Machine.execStreamWalkEnd t slot s
  | .tillRequest t err => Sys2Proof.Machine.execTillRequest t err s
  | .tillReply t slot => Sys2Proof.Machine.execTillReply t slot s
  | .vectorFire t slot vsete => Sys2Proof.Machine.execVectorFire t slot vsete s
  | .vectorOutput t slot => Sys2Proof.Machine.execVectorOutput t slot s
  | .vxAdd t g => Sys2Proof.Machine.execVxAdd t g s
  | .vxSub t g => Sys2Proof.Machine.execVxSub t g s
  | .vxMul t g => Sys2Proof.Machine.execVxMul t g s
  | .vxFma t g => Sys2Proof.Machine.execVxFma t g s
  | .vxMax t g => Sys2Proof.Machine.execVxMax t g s
  | .vxMin t g => Sys2Proof.Machine.execVxMin t g s
  | .vxAbs t g => Sys2Proof.Machine.execVxAbs t g s
  | .vxNeg t g => Sys2Proof.Machine.execVxNeg t g s
  | .vxExp2 t g => Sys2Proof.Machine.execVxExp2 t g s
  | .vxLog2 t g => Sys2Proof.Machine.execVxLog2 t g s
  | .vxRcp t g => Sys2Proof.Machine.execVxRcp t g s
  | .vxRsqrt t g => Sys2Proof.Machine.execVxRsqrt t g s
  | .vxCmpeq t g => Sys2Proof.Machine.execVxCmpeq t g s
  | .vxCmplt t g => Sys2Proof.Machine.execVxCmplt t g s
  | .vxCmple t g => Sys2Proof.Machine.execVxCmple t g s
  | .vxSel t g => Sys2Proof.Machine.execVxSel t g s
  | .vxAnd t g => Sys2Proof.Machine.execVxAnd t g s
  | .vxOr t g => Sys2Proof.Machine.execVxOr t g s
  | .vxXor t g => Sys2Proof.Machine.execVxXor t g s
  | .vxShl t g => Sys2Proof.Machine.execVxShl t g s
  | .vxShr t g => Sys2Proof.Machine.execVxShr t g s
  | .vxSar t g => Sys2Proof.Machine.execVxSar t g s
  | .vxIadd t g => Sys2Proof.Machine.execVxIadd t g s
  | .vxIsub t g => Sys2Proof.Machine.execVxIsub t g s
  | .vxImul t g => Sys2Proof.Machine.execVxImul t g s
  | .vxImax t g => Sys2Proof.Machine.execVxImax t g s
  | .vxImin t g => Sys2Proof.Machine.execVxImin t g s
  | .vxCvti t g => Sys2Proof.Machine.execVxCvti t g s
  | .vxCvto t g => Sys2Proof.Machine.execVxCvto t g s
  | .vxOut t g => Sys2Proof.Machine.execVxOut t g s
  | .vxIota t g => Sys2Proof.Machine.execVxIota t g s
  | .vxRed t g => Sys2Proof.Machine.execVxRed t g s
  | .vxRsm t g => Sys2Proof.Machine.execVxRsm t g s
  | .vxRsf t g => Sys2Proof.Machine.execVxRsf t g s
  | .vxRsl t g => Sys2Proof.Machine.execVxRsl t g s
  | .vxRsget t g => Sys2Proof.Machine.execVxRsget t g s
  | .ccAdd t slot => Sys2Proof.Machine.execCcAdd t slot s
  | .ccSub t slot => Sys2Proof.Machine.execCcSub t slot s
  | .ccAnd t slot => Sys2Proof.Machine.execCcAnd t slot s
  | .ccOr t slot => Sys2Proof.Machine.execCcOr t slot s
  | .ccXor t slot => Sys2Proof.Machine.execCcXor t slot s
  | .ccSll t slot => Sys2Proof.Machine.execCcSll t slot s
  | .ccSrl t slot => Sys2Proof.Machine.execCcSrl t slot s
  | .ccSra t slot => Sys2Proof.Machine.execCcSra t slot s
  | .ccSlt t slot => Sys2Proof.Machine.execCcSlt t slot s
  | .ccSltu t slot => Sys2Proof.Machine.execCcSltu t slot s
  | .ccMul t slot => Sys2Proof.Machine.execCcMul t slot s
  | .ccMulhu t slot => Sys2Proof.Machine.execCcMulhu t slot s
  | .ccMinu t slot => Sys2Proof.Machine.execCcMinu t slot s
  | .ccMaxu t slot => Sys2Proof.Machine.execCcMaxu t slot s
  | .ccAddi t slot => Sys2Proof.Machine.execCcAddi t slot s
  | .ccAndi t slot => Sys2Proof.Machine.execCcAndi t slot s
  | .ccOri t slot => Sys2Proof.Machine.execCcOri t slot s
  | .ccXori t slot => Sys2Proof.Machine.execCcXori t slot s
  | .ccSlli t slot => Sys2Proof.Machine.execCcSlli t slot s
  | .ccSrli t slot => Sys2Proof.Machine.execCcSrli t slot s
  | .ccSrai t slot => Sys2Proof.Machine.execCcSrai t slot s
  | .ccLdc t slot => Sys2Proof.Machine.execCcLdc t slot s
  | .ccBeq t slot => Sys2Proof.Machine.execCcBeq t slot s
  | .ccBne t slot => Sys2Proof.Machine.execCcBne t slot s
  | .ccBlt t slot => Sys2Proof.Machine.execCcBlt t slot s
  | .ccBge t slot => Sys2Proof.Machine.execCcBge t slot s
  | .ccBltu t slot => Sys2Proof.Machine.execCcBltu t slot s
  | .ccBgeu t slot => Sys2Proof.Machine.execCcBgeu t slot s
  | .ccJal t slot => Sys2Proof.Machine.execCcJal t slot s
  | .ccJalr t slot => Sys2Proof.Machine.execCcJalr t slot s
  | .ccBex t slot => Sys2Proof.Machine.execCcBex t slot s
  | .ccBnex t slot => Sys2Proof.Machine.execCcBnex t slot s
  | .ccLd t slot err => Sys2Proof.Machine.execCcLd t slot err s
  | .ccSt t slot => Sys2Proof.Machine.execCcSt t slot s
  | .ldstRequest t slot err => Sys2Proof.Machine.execLdstRequest t slot err s
  | .ldstReply t slot => Sys2Proof.Machine.execLdstReply t slot s
  | .ccTill t slot => Sys2Proof.Machine.execCcTill t slot s
  | .ccQpop t slot => Sys2Proof.Machine.execCcQpop t slot s
  | .ccQpush t slot => Sys2Proof.Machine.execCcQpush t slot s
  | .ccTbrd t slot => Sys2Proof.Machine.execCcTbrd t slot s
  | .ccTbwr t slot => Sys2Proof.Machine.execCcTbwr t slot s
  | .ccBcast t slot => Sys2Proof.Machine.execCcBcast t slot s
  | .ccExtw t slot => Sys2Proof.Machine.execCcExtw t slot s
  | .ccVsete t slot => Sys2Proof.Machine.execCcVsete t slot s
  | .ccStage t slot => Sys2Proof.Machine.execCcStage t slot s
  | .ccEend t slot => Sys2Proof.Machine.execCcEend t slot s
  | .ccCsrr t slot => Sys2Proof.Machine.execCcCsrr t slot s
  | .ccBar t slot => Sys2Proof.Machine.execCcBar t slot s
  | .ccVor t slot => Sys2Proof.Machine.execCcVor t slot s
  | .ccVand t slot => Sys2Proof.Machine.execCcVand t slot s
  | .ccWaitt t slot => Sys2Proof.Machine.execCcWaitt t slot s
  | .waittRelease t slot => Sys2Proof.Machine.execWaittRelease t slot s
  | .barrierComplete h barrier => Sys2Proof.Machine.execBarrierComplete h barrier s
  | .voteResult h channel => Sys2Proof.Machine.execVoteResult h channel s
  | .throttleUpdate h power => Sys2Proof.Machine.execThrottleUpdate h power s
  | .throttleLevel h => Sys2Proof.Machine.execThrottleLevel h s
  | .flitError t kind tile q n => Sys2Proof.Machine.execFlitError t kind tile q n s
  | .winCmd who t v => Sys2Proof.Machine.execWinCmd who t v s
  | .windowPlace t => Sys2Proof.Machine.execWindowPlace t s
  | .windowLoadDone t handle errs => Sys2Proof.Machine.execWindowLoadDone t handle errs s
  | .winRel who t v => Sys2Proof.Machine.execWinRel who t v s
  | .stackScrub k errs => Sys2Proof.Machine.execStackScrub k errs s
  | .escrowRefetch reached step bytes digest back spare => Sys2Proof.Machine.execEscrowRefetch reached step bytes digest back spare s
  | .run h seq peers es => Sys2Proof.Machine.execRun h seq peers es s
  | .baseline h errs => Sys2Proof.Machine.execBaseline h errs s
  | .baselineVote h => Sys2Proof.Machine.execBaselineVote h s
  | .attemptStart h => Sys2Proof.Machine.execAttemptStart h s
  | .passAdmit h kind mb group inputs host => Sys2Proof.Machine.execPassAdmit h kind mb group inputs host s
  | .passEnd h ix es => Sys2Proof.Machine.execPassEnd h ix es s
  | .passTimeout h => Sys2Proof.Machine.execPassTimeout h s
  | .abandon h => Sys2Proof.Machine.execAbandon h s
  | .replay h => Sys2Proof.Machine.execReplay h s
  | .lossGate h => Sys2Proof.Machine.execLossGate h s
  | .gradientGate h layer own => Sys2Proof.Machine.execGradientGate h layer own s
  | .preempt h seq => Sys2Proof.Machine.execPreempt h seq s
  | .preemptDone h => Sys2Proof.Machine.execPreemptDone h s
  | .resume h seq => Sys2Proof.Machine.execResume h seq s
  | .sealVote h => Sys2Proof.Machine.execSealVote h s
  | .sealRound h moved => Sys2Proof.Machine.execSealRound h moved s
  | .collectiveChunk p k of_ es => Sys2Proof.Machine.execCollectiveChunk p k of_ es s
  | .updateBlockDispatch h layer own => Sys2Proof.Machine.execUpdateBlockDispatch h layer own s
  | .updateBlockDone g es => Sys2Proof.Machine.execUpdateBlockDone g es s
  | .schedAppend h seq es => Sys2Proof.Machine.execSchedAppend h seq es s
  | .mirror h tensor errs => Sys2Proof.Machine.execMirror h tensor errs s
  | .escrowTransfer p out es => Sys2Proof.Machine.execEscrowTransfer p out es s
  | .parityDelta p out => Sys2Proof.Machine.execParityDelta p out s
  | .tileCommand t body => Sys2Proof.Machine.execTileCommand t body s
  | .microcodeMessage t n body crcOk => Sys2Proof.Machine.execMicrocodeMessage t n body crcOk s
  | .dataFrame p f => Sys2Proof.Machine.execDataFrame p f s
  | .idleFrame p f => Sys2Proof.Machine.execIdleFrame p f s
  | .creditFrame p f ack nak credits => Sys2Proof.Machine.execCreditFrame p f ack nak credits s
  | .replayTimeout p => Sys2Proof.Machine.execReplayTimeout p s
  | .admitFrame p f ident => Sys2Proof.Machine.execAdmitFrame p f ident s
  | .delayFrame p f echo rtt turnaround => Sys2Proof.Machine.execDelayFrame p f echo rtt turnaround s
  | .stateFrame p f ps code half spare child => Sys2Proof.Machine.execStateFrame p f ps code half spare child s
  | .refuseFrame p f status x => Sys2Proof.Machine.execRefuseFrame p f status x s
  | .mgmtFrame p f target m => Sys2Proof.Machine.execMgmtFrame p f target m s
  | .sealFrame p f tagOk batch epoch count => Sys2Proof.Machine.execSealFrame p f tagOk batch epoch count s
  | .sealBatchClose p => Sys2Proof.Machine.execSealBatchClose p s
  | .keySwitch p => Sys2Proof.Machine.execKeySwitch p s
  | .admission p => Sys2Proof.Machine.execAdmission p s
  | .laneTrainingDone p ok eye => Sys2Proof.Machine.execLaneTrainingDone p ok eye s
  | .admissionTimeout p => Sys2Proof.Machine.execAdmissionTimeout p s
  | .backoffExpired p => Sys2Proof.Machine.execBackoffExpired p s
  | .spareSub p lane => Sys2Proof.Machine.execSpareSub p lane s
  | .retrain p => Sys2Proof.Machine.execRetrain p s
  | .laneLockLoss p => Sys2Proof.Machine.execLaneLockLoss p s
  | .quarantine who p => Sys2Proof.Machine.execQuarantine who p s
  | .release who p => Sys2Proof.Machine.execRelease who p s
  | .readmit who p => Sys2Proof.Machine.execReadmit who p s
  | .streamTransfer p k of_ es => Sys2Proof.Machine.execStreamTransfer p k of_ es s
  | .streamRelease peer xfer k => Sys2Proof.Machine.execStreamRelease peer xfer k s
  | .remoteLoad p out es => Sys2Proof.Machine.execRemoteLoad p out es s
  | .remoteStore p out => Sys2Proof.Machine.execRemoteStore p out s
  | .remoteCopy p out es => Sys2Proof.Machine.execRemoteCopy p out es s
  | .remoteAdd p out e => Sys2Proof.Machine.execRemoteAdd p out e s
  | .remoteMax p out e => Sys2Proof.Machine.execRemoteMax p out e s
  | .remoteSwap p out e => Sys2Proof.Machine.execRemoteSwap p out e s
  | .remoteCas p out e => Sys2Proof.Machine.execRemoteCas p out e s
  | .remoteResponse p => Sys2Proof.Machine.execRemoteResponse p s
  | .remoteTimeout tag => Sys2Proof.Machine.execRemoteTimeout tag s
  | .retryResend tag => Sys2Proof.Machine.execRetryResend tag s
  | .voteWave => Sys2Proof.Machine.execVoteWave s
  | .voteFrame p f es => Sys2Proof.Machine.execVoteFrame p f es s
  | .voteWaveSend => Sys2Proof.Machine.execVoteWaveSend s
  | .lossDetect p => Sys2Proof.Machine.execLossDetect p s
  | .lossReport tag lost recover => Sys2Proof.Machine.execLossReport tag lost recover s
  | .recoveryStep status cur => Sys2Proof.Machine.execRecoveryStep status cur s
  | .returnTimeout => Sys2Proof.Machine.execReturnTimeout s
  | .recover h seq o => Sys2Proof.Machine.execRecover h seq o s
  | .stopAtAttemptEnd h seq => Sys2Proof.Machine.execStopAtAttemptEnd h seq s
  | .stopNow h seq => Sys2Proof.Machine.execStopNow h seq s
  | .copy h seq es => Sys2Proof.Machine.execCopy h seq es s
  | .cancel h seq => Sys2Proof.Machine.execCancel h seq s
  | .profile h seq ok => Sys2Proof.Machine.execProfile h seq ok s
  | .tenantAssign h seq => Sys2Proof.Machine.execTenantAssign h seq s
  | .tenantRelease h seq => Sys2Proof.Machine.execTenantRelease h seq s
  | .winnow h seq => Sys2Proof.Machine.execWinnow h seq s
  | .winnowEnd scope ok upto => Sys2Proof.Machine.execWinnowEnd scope ok upto s
  | .computeReset h seq => Sys2Proof.Machine.execComputeReset h seq s
  | .computeResetDone scope => Sys2Proof.Machine.execComputeResetDone scope s
  | .packageReset h seq => Sys2Proof.Machine.execPackageReset h seq s
  | .siteReset h seq => Sys2Proof.Machine.execSiteReset h seq s
  | .siteTest h seq => Sys2Proof.Machine.execSiteTest h seq s
  | .siteTestDone h seq fails => Sys2Proof.Machine.execSiteTestDone h seq fails s
  | .licenceInstall h seq sigOk => Sys2Proof.Machine.execLicenceInstall h seq sigOk s
  | .provision h seq sigOk => Sys2Proof.Machine.execProvision h seq sigOk s
  | .quote h seq => Sys2Proof.Machine.execQuote h seq s
  | .updateStage h seq sigOk host staged => Sys2Proof.Machine.execUpdateStage h seq sigOk host staged s
  | .updateBlock p id k data crc sigOk => Sys2Proof.Machine.execUpdateBlock p id k data crc sigOk s
  | .updateBlockAck p id k nak st => Sys2Proof.Machine.execUpdateBlockAck p id k nak st s
  | .updateBlockResend p k => Sys2Proof.Machine.execUpdateBlockResend p k s
  | .updateVerify tagsOk => Sys2Proof.Machine.execUpdateVerify tagsOk s
  | .updateReport dev kind => Sys2Proof.Machine.execUpdateReport dev kind s
  | .updateReportTimeout => Sys2Proof.Machine.execUpdateReportTimeout s
  | .updateCommit h seq => Sys2Proof.Machine.execUpdateCommit h seq s
  | .updateAbort h seq => Sys2Proof.Machine.execUpdateAbort h seq s
  | .updateConfirm h seq => Sys2Proof.Machine.execUpdateConfirm h seq s
  | .updateRevert h seq => Sys2Proof.Machine.execUpdateRevert h seq s
  | .trialPoll => Sys2Proof.Machine.execTrialPoll s
  | .lgrSel who seq => Sys2Proof.Machine.execLgrSel who seq s
  | .strongboxWrite => Sys2Proof.Machine.execStrongboxWrite s
  | .sectorEraseDone => Sys2Proof.Machine.execSectorEraseDone s
  | .sessionOpen addr role => Sys2Proof.Machine.execSessionOpen addr role s
  | .sessionClose id => Sys2Proof.Machine.execSessionClose id s
  | .regRead id m addrs => Sys2Proof.Machine.execRegRead id m addrs s
  | .regWrite id m pairs => Sys2Proof.Machine.execRegWrite id m pairs s
  | .ledgerRead id m first n => Sys2Proof.Machine.execLedgerRead id m first n s
  | .telemetry id m period => Sys2Proof.Machine.execTelemetry id m period s
  | .telemetryReport id => Sys2Proof.Machine.execTelemetryReport id s
  | .strongboxRead id m first n => Sys2Proof.Machine.execStrongboxRead id m first n s
  | .spdm id m code nonce => Sys2Proof.Machine.execSpdm id m code nonce s
  | .traceRead id m first n => Sys2Proof.Machine.execTraceRead id m first n s
  | .sensorSample temps taps readouts => Sys2Proof.Machine.execSensorSample temps taps readouts s
  | .pmbusPoll rails => Sys2Proof.Machine.execPmbusPoll rails s
  | .i3cPoll values => Sys2Proof.Machine.execI3cPoll values s
  | .i3cIbi join src => Sys2Proof.Machine.execI3cIbi join src s
  | .profReq id lock => Sys2Proof.Machine.execProfReq id lock s
  | .debugReq id lock sigOk => Sys2Proof.Machine.execDebugReq id lock sigOk s
  | .nonceReq id => Sys2Proof.Machine.execNonceReq id s
  | .nonceExpired => Sys2Proof.Machine.execNonceExpired s
  | .lock id => Sys2Proof.Machine.execLock id s
  | .unlockWaitExpired => Sys2Proof.Machine.execUnlockWaitExpired s
  | .bundleGo ix who unwrapOk es clearing => Sys2Proof.Machine.execBundleGo ix who unwrapOk es clearing s
  | .bundleDone ix tagOk plain => Sys2Proof.Machine.execBundleDone ix tagOk plain s
  | .coldReset pwr rst vstby torn => Sys2Proof.Machine.execColdReset pwr rst vstby torn s
  | .bringup feedId rank master bootSel root pageOk => Sys2Proof.Machine.execBringup feedId rank master bootSel root pageOk s
  | .uhleaStart ok ok2 kept format => Sys2Proof.Machine.execUhleaStart ok ok2 kept format s
  | .stackTrainingDone k ok rep => Sys2Proof.Machine.execStackTrainingDone k ok rep s
  | .bridgeTrainingDone ok => Sys2Proof.Machine.execBridgeTrainingDone ok s
  | .tallyWaitExpired => Sys2Proof.Machine.execTallyWaitExpired s
  | .bringupComplete => Sys2Proof.Machine.execBringupComplete s
  | .watchdog => Sys2Proof.Machine.execWatchdog s
  | .kick who => Sys2Proof.Machine.execKick who s
  | .heartbeat => Sys2Proof.Machine.execHeartbeat s
  | .heartbeatRx claim => Sys2Proof.Machine.execHeartbeatRx claim s
  | .echoRx claim => Sys2Proof.Machine.execEchoRx claim s
  | .heartbeatMiss => Sys2Proof.Machine.execHeartbeatMiss s
  | .echoMiss => Sys2Proof.Machine.execEchoMiss s
  | .thermalTrip => Sys2Proof.Machine.execThermalTrip s
  | .fabricIdWrite who v => Sys2Proof.Machine.execFabricIdWrite who v s
  | .arm who es heads => Sys2Proof.Machine.execArm who es heads s
  | .nvmeCompletion id ok data bad es => Sys2Proof.Machine.execNvmeCompletion id ok data bad es s
  | .nvmeTimeout id => Sys2Proof.Machine.execNvmeTimeout id s
  | .ckptGo who v clearing => Sys2Proof.Machine.execCkptGo who v clearing s
  | .ckptDone ok => Sys2Proof.Machine.execCkptDone ok s
  | .bar2Access write off n data ep es => Sys2Proof.Machine.execBar2Access write off n data ep es s
  | .feedLinkDown link lost => Sys2Proof.Machine.execFeedLinkDown link lost s
  | .refPresent => Sys2Proof.Machine.execRefPresent s
  | .pllRelocked ok => Sys2Proof.Machine.execPllRelocked ok s
  | .feedLinkUp link flit ns => Sys2Proof.Machine.execFeedLinkUp link flit ns s
  | .mgmtLaneUp fec => Sys2Proof.Machine.execMgmtLaneUp fec s
  | .mgmtLaneDown => Sys2Proof.Machine.execMgmtLaneDown s
  | .jtagInstruction ix => Sys2Proof.Machine.execJtagInstruction ix s
  | .addressRefusalExpired addr => Sys2Proof.Machine.execAddressRefusalExpired addr s

end Sys2Proof.Machine
end

