-- ==== Sys2Proof/Machine/Step.lean ====
section
/-! DEFINITION. One step of the block: the command at the front of the queue, or on an empty queue one core cycle. -/

namespace Sys2Proof.Machine

/-- The block takes the command at the front of its queue; with none waiting, a core cycle passes while the clocks run. -/
def step (s : State) : Host.Outcome State Fault Refusal :=
  match s.pending with
  | [] => onLive Dev.coreCycle s
  | c :: rest => exec c { s with pending := rest }

/-- The state with the command a word spells at the front of its queue; a word that spells none changes nothing. -/
def State.withFetchWord (s : State) (nbits w : Nat) : State :=
  match decodeTableWord nbits w with
  | some c => { s with pending := c :: s.pending }
  | none => s

end Sys2Proof.Machine
end

