-- ==== Sys2Proof/WellFormed.lean ====
section
/-! DEFINITION. Well-formed commands: operands that the outside of the device can contribute, where the operand's type alone does not
say so (Tables 13-2, 13-3, 16-1, R5, R256, R322). -/

namespace Sys2Proof

/-- A frame's header fields bound its payload: UNITS has five bits (Table 13-2). -/
def frameWf (f : Frame) : Bool := decide (f.payload.length < 32)

/-- The roles a session may have (Table 17-3): no session acts as Uhlea or as a core. -/
def roleWf : Who → Bool
  | .operator | .claim | .tenant _ => true
  | .uhlea | .core _ => false

/-- The operands are ones that a sender can produce. -/
def Instr.wellFormed : Instr → Bool
  | .registerWrite _ _ width _ _ => width == 8 || width == 16 || width == 32 || width == 64
  | .refLost => true
  | .refValid => true
  | .tick => true
  | .stampReceived _ _ _ _ _ _ => true
  | .schedClassRestored => true
  | .stampLost => true
  | .holdExpired => true
  | .relock _ => true
  | .schedOff _ _ => true
  | .execAtStart _ _ => true
  | .scheduledSlot _ _ => true
  | .stationaryLoad _ _ _ _ _ _ => true
  | .stationaryLoadDone _ _ _ _ => true
  | .fieldRunStart _ _ => true
  | .fieldSlot _ _ _ => true
  | .tokenArrival _ _ _ => true
  | .creditReturn _ _ => true
  | .switchFire _ _ => true
  | .mergeControlledFire _ _ => true
  | .mergeRotationFire _ _ => true
  | .repeatControlledFire _ _ => true
  | .repeatStaticFire _ _ => true
  | .dropControlledFire _ _ => true
  | .dropStaticFire _ _ => true
  | .forkFire _ _ => true
  | .stallLong _ _ => true
  | .cntClear _ _ _ => true
  | .commandSubmit _ _ m _ => decide (m.len ≤ 4294967295)
  | .nop _ _ => true
  | .load _ _ src _ _ => decide (src.length ≤ 2147483648)
  | .stage _ _ => true
  | .configMessage _ => true
  | .markArrival _ _ _ => true
  | .inputClose _ _ _ => true
  | .unitSwap _ _ => true
  | .streamWalkStart _ _ => true
  | .rowFetch _ _ => true
  | .memoryRowReturn _ _ _ _ => true
  | .streamReaderFire _ _ _ _ => true
  | .streamWriterFire _ _ => true
  | .streamWalkEnd _ _ => true
  | .tillRequest _ _ => true
  | .tillReply _ _ => true
  | .vectorFire _ _ _ => true
  | .vectorOutput _ _ => true
  | .vxAdd _ _ => true
  | .vxSub _ _ => true
  | .vxMul _ _ => true
  | .vxFma _ _ => true
  | .vxMax _ _ => true
  | .vxMin _ _ => true
  | .vxAbs _ _ => true
  | .vxNeg _ _ => true
  | .vxExp2 _ _ => true
  | .vxLog2 _ _ => true
  | .vxRcp _ _ => true
  | .vxRsqrt _ _ => true
  | .vxCmpeq _ _ => true
  | .vxCmplt _ _ => true
  | .vxCmple _ _ => true
  | .vxSel _ _ => true
  | .vxAnd _ _ => true
  | .vxOr _ _ => true
  | .vxXor _ _ => true
  | .vxShl _ _ => true
  | .vxShr _ _ => true
  | .vxSar _ _ => true
  | .vxIadd _ _ => true
  | .vxIsub _ _ => true
  | .vxImul _ _ => true
  | .vxImax _ _ => true
  | .vxImin _ _ => true
  | .vxCvti _ _ => true
  | .vxCvto _ _ => true
  | .vxOut _ _ => true
  | .vxIota _ _ => true
  | .vxRed _ _ => true
  | .vxRsm _ _ => true
  | .vxRsf _ _ => true
  | .vxRsl _ _ => true
  | .vxRsget _ _ => true
  | .ccAdd _ _ => true
  | .ccSub _ _ => true
  | .ccAnd _ _ => true
  | .ccOr _ _ => true
  | .ccXor _ _ => true
  | .ccSll _ _ => true
  | .ccSrl _ _ => true
  | .ccSra _ _ => true
  | .ccSlt _ _ => true
  | .ccSltu _ _ => true
  | .ccMul _ _ => true
  | .ccMulhu _ _ => true
  | .ccMinu _ _ => true
  | .ccMaxu _ _ => true
  | .ccAddi _ _ => true
  | .ccAndi _ _ => true
  | .ccOri _ _ => true
  | .ccXori _ _ => true
  | .ccSlli _ _ => true
  | .ccSrli _ _ => true
  | .ccSrai _ _ => true
  | .ccLdc _ _ => true
  | .ccBeq _ _ => true
  | .ccBne _ _ => true
  | .ccBlt _ _ => true
  | .ccBge _ _ => true
  | .ccBltu _ _ => true
  | .ccBgeu _ _ => true
  | .ccJal _ _ => true
  | .ccJalr _ _ => true
  | .ccBex _ _ => true
  | .ccBnex _ _ => true
  | .ccLd _ _ _ => true
  | .ccSt _ _ => true
  | .ldstRequest _ _ _ => true
  | .ldstReply _ _ => true
  | .ccTill _ _ => true
  | .ccQpop _ _ => true
  | .ccQpush _ _ => true
  | .ccTbrd _ _ => true
  | .ccTbwr _ _ => true
  | .ccBcast _ _ => true
  | .ccExtw _ _ => true
  | .ccVsete _ _ => true
  | .ccStage _ _ => true
  | .ccEend _ _ => true
  | .ccCsrr _ _ => true
  | .ccBar _ _ => true
  | .ccVor _ _ => true
  | .ccVand _ _ => true
  | .ccWaitt _ _ => true
  | .waittRelease _ _ => true
  | .barrierComplete _ _ => true
  | .voteResult _ _ => true
  | .throttleUpdate _ _ => true
  | .throttleLevel _ => true
  | .flitError _ _ _ _ _ => true
  | .winCmd _ _ _ => true
  | .windowPlace _ => true
  | .windowLoadDone _ _ _ => true
  | .winRel _ _ _ => true
  | .stackScrub _ _ => true
  | .escrowRefetch _ _ bytes _ _ _ => bytes.length == 0 || bytes.length == 4096
  | .run _ _ _ _ => true
  | .baseline _ _ => true
  | .baselineVote _ => true
  | .attemptStart _ => true
  | .passAdmit _ _ _ _ _ _ => true
  | .passEnd _ _ _ => true
  | .passTimeout _ => true
  | .abandon _ => true
  | .replay _ => true
  | .lossGate _ => true
  | .gradientGate _ _ _ => true
  | .preempt _ _ => true
  | .preemptDone _ => true
  | .resume _ _ => true
  | .sealVote _ => true
  | .sealRound _ _ => true
  | .collectiveChunk _ _ _ _ => true
  | .updateBlockDispatch _ _ _ => true
  | .updateBlockDone _ _ => true
  | .schedAppend _ _ _ => true
  | .mirror _ _ _ => true
  | .escrowTransfer _ _ _ => true
  | .parityDelta _ _ => true
  | .tileCommand _ body => body.length == 32
  | .microcodeMessage _ _ body _ => body.length == 32
  | .dataFrame _ f => frameWf f
  | .idleFrame _ f => frameWf f
  | .creditFrame _ f _ _ credits => frameWf f && decide (credits.length ≤ 8)
  | .replayTimeout _ => true
  | .admitFrame _ f _ => frameWf f
  | .delayFrame _ f _ _ _ => frameWf f
  | .stateFrame _ f _ _ _ _ _ => frameWf f
  | .refuseFrame _ f _ _ => frameWf f
  | .mgmtFrame _ f _ _ => frameWf f
  | .sealFrame _ f _ batch epoch count => frameWf f && decide (batch < 2 ^ 64) && decide (epoch < 256) && decide (count < 256)
  | .sealBatchClose _ => true
  | .keySwitch _ => true
  | .admission _ => true
  | .laneTrainingDone _ ok eye => decide (ok.length ≤ 9) && decide (eye.length ≤ 9)
  | .admissionTimeout _ => true
  | .backoffExpired _ => true
  | .spareSub _ _ => true
  | .retrain _ => true
  | .laneLockLoss _ => true
  | .quarantine _ _ => true
  | .release _ _ => true
  | .readmit _ _ => true
  | .streamTransfer _ _ _ _ => true
  | .streamRelease _ _ _ => true
  | .remoteLoad _ _ _ => true
  | .remoteStore _ _ => true
  | .remoteCopy _ _ _ => true
  | .remoteAdd _ _ _ => true
  | .remoteMax _ _ _ => true
  | .remoteSwap _ _ _ => true
  | .remoteCas _ _ _ => true
  | .remoteResponse _ => true
  | .remoteTimeout _ => true
  | .retryResend _ => true
  | .voteWave => true
  | .voteFrame _ f es => frameWf f && decide (es.length ≤ 64)
  | .voteWaveSend => true
  | .lossDetect _ => true
  | .lossReport _ _ _ => true
  | .recoveryStep _ _ => true
  | .returnTimeout => true
  | .recover _ _ _ => true
  | .stopAtAttemptEnd _ _ => true
  | .stopNow _ _ => true
  | .copy _ _ _ => true
  | .cancel _ _ => true
  | .profile _ _ ok => decide (ok.length ≤ 64)
  | .tenantAssign _ _ => true
  | .tenantRelease _ _ => true
  | .winnow _ _ => true
  | .winnowEnd _ _ _ => true
  | .computeReset _ _ => true
  | .computeResetDone _ => true
  | .packageReset _ _ => true
  | .siteReset _ _ => true
  | .siteTest _ _ => true
  | .siteTestDone _ _ _ => true
  | .licenceInstall _ _ _ => true
  | .provision _ _ _ => true
  | .quote _ _ => true
  | .updateStage _ _ _ _ _ => true
  | .updateBlock _ _ _ _ _ _ => true
  | .updateBlockAck _ _ _ _ _ => true
  | .updateBlockResend _ _ => true
  | .updateVerify _ => true
  | .updateReport _ kind => decide (1 ≤ kind) && decide (kind ≤ 4)
  | .updateReportTimeout => true
  | .updateCommit _ _ => true
  | .updateAbort _ _ => true
  | .updateConfirm _ _ => true
  | .updateRevert _ _ => true
  | .trialPoll => true
  | .lgrSel _ _ => true
  | .strongboxWrite => true
  | .sectorEraseDone => true
  | .sessionOpen _ role => role.all roleWf
  | .sessionClose _ => true
  | .regRead _ _ _ => true
  | .regWrite _ _ _ => true
  | .ledgerRead _ _ _ _ => true
  | .telemetry _ _ _ => true
  | .telemetryReport _ => true
  | .strongboxRead _ _ _ _ => true
  | .spdm _ _ _ _ => true
  | .traceRead _ _ _ _ => true
  | .sensorSample temps _ readouts => decide (temps.length ≤ 64) && decide (readouts.length ≤ 8)
  | .pmbusPoll _ => true
  | .i3cPoll _ => true
  | .i3cIbi _ _ => true
  | .profReq _ _ => true
  | .debugReq _ _ _ => true
  | .nonceReq _ => true
  | .nonceExpired => true
  | .lock _ => true
  | .unlockWaitExpired => true
  | .bundleGo _ _ _ _ _ => true
  | .bundleDone _ _ _ => true
  | .coldReset _ _ _ _ => true
  | .bringup feedId rank _ _ _ _ => decide (feedId < 16) && decide (rank < 8)
  | .uhleaStart _ _ _ _ => true
  | .stackTrainingDone _ _ _ => true
  | .bridgeTrainingDone _ => true
  | .tallyWaitExpired => true
  | .bringupComplete => true
  | .watchdog => true
  | .kick _ => true
  | .heartbeat => true
  | .heartbeatRx _ => true
  | .echoRx _ => true
  | .heartbeatMiss => true
  | .echoMiss => true
  | .thermalTrip => true
  | .fabricIdWrite _ _ => true
  | .arm _ _ _ => true
  | .nvmeCompletion _ _ _ _ _ => true
  | .nvmeTimeout _ => true
  | .ckptGo _ _ _ => true
  | .ckptDone _ => true
  | .bar2Access write _ n data _ _ => decide (n ≤ 4096) && (!write || data.length == n)
  | .feedLinkDown _ _ => true
  | .refPresent => true
  | .pllRelocked _ => true
  | .feedLinkUp _ _ _ => true
  | .mgmtLaneUp _ => true
  | .mgmtLaneDown => true
  | .jtagInstruction _ => true
  | .addressRefusalExpired _ => true

end Sys2Proof
end

