-- ==== Sys2Proof/Safety.lean ====
section
/-! DEFINITION. What counts as a safe state and a safe run of the block. -/

namespace Sys2Proof

open Sys2Proof.Machine

/-- The sparse parts of a device are in canonical form, so that equal devices are equal data. -/
def canonical (d : Dev) : Prop := fmWf d.regs = true ∧ Memory.wf d.mem = true ∧ fmWf d.poison = true

/-- A safe run: from `s`, every one of the commands waiting is taken, and none ends in a fault or a refusal. -/
def safeRun (s : State) : Prop :=
  (∀ r, Sys2Proof.core.run s.pending.length s ≠ .fault r) ∧ ∀ q, Sys2Proof.core.run s.pending.length s ≠ .refused q

/-! ## The vocabulary of the statements -/

/-- Command `c` completes in `s`: it answers a next state, the queue stays as it was, and the device that results meets `P`. -/
def Does (c : Instr) (s : State) (P : Dev → Prop) : Prop :=
  ∃ t, Sys2Proof.Machine.exec c s = .next t ∧ t.pending = s.pending ∧ P t.dev

/-- Every register field of `d` outside the bit addresses `ks` reads in `e` as in `d`. -/
def regsBut (ks : List Nat) (d e : Dev) : Prop := ∀ k, k ∉ ks → fmGet e.regs k = fmGet d.regs k

/-- The bit addresses of an event: its bit and its counter. -/
def evKeys (v : Ev) (add : Nat := 0) : List Nat := [v.bit.key add, v.cnt.key add]

/-- Every byte of memory outside `[lo, hi)` reads in `e` as in `d`, and is poison in `e` as in `d`, by words. -/
def memBut (lo hi : Nat) (d e : Dev) : Prop :=
  (∀ a, ¬(lo ≤ a ∧ a < hi) → memGet e.mem a = memGet d.mem a) ∧
    ∀ a, ¬(lo / 8 ≤ a / 8 ∧ a / 8 < (hi + 7) / 8) → e.isPoison a = d.isPoison a

/-- All of memory, poison included, is as before. -/
def memSame (d e : Dev) : Prop := e.mem = d.mem ∧ e.poison = d.poison

/-- The entry `e` of sequence number `seq` has opcode `op` and comes to its start: none has started in this core cycle, order and state let it (R396, R397). -/
def startable (d : Dev) (h : HalfId) (seq op : Nat) (e : Entry) : Prop :=
  d.entry h seq = some e ∧ e.opcode = op ∧ d.mg.started = false ∧ (d.led h).mayStart e = true ∧ d.stateCheck h e = none

/-- The entry of `seq` in half `h`'s ledger has ended in `st` with `status`. -/
def endedAs (d : Dev) (h : HalfId) (seq st status : Nat) : Prop :=
  ∃ e, d.entry h seq = some e ∧ e.state = st ∧ e.status = status

/-- The entry of `seq` in half `h`'s ledger is STARTED. -/
def isStarted (d : Dev) (h : HalfId) (seq : Nat) : Prop := ∃ e, d.entry h seq = some e ∧ e.state = 2

/-- From `d` to `e`, input `i` of a unit of tile `t` has given up its head token, and the freed credit is on its way back. -/
def takesHead (d e : Dev) (t : Nat) (c : Cfg) (i : Nat) : Prop :=
  ∀ q, c.inq i = some q →
    (e.queue t q).tokens = (d.queue t q).tokens.drop 1 ∧ (e.queue t q).freed = (d.queue t q).freed + 1

/-- From `d` to `e`, input `i` of a unit of tile `t` has kept its tokens. -/
def keepsHead (d e : Dev) (t : Nat) (c : Cfg) (i : Nat) : Prop :=
  ∀ q, c.inq i = some q → (e.queue t q).tokens = (d.queue t q).tokens

/-- From `d` to `e`, output `o` of the unit in slot `x` has sent one token, numbered by the port, against a credit; a VOID token carries zeros. -/
def putsToken (d e : Dev) (x : Slot) (c : Cfg) (o kind : Nat) (payload : Row) : Prop :=
  ∀ t q, (c.outs[o]?).getD none = some (t, q) →
    (e.queue t q).flight =
      (d.queue t q).flight ++
        [⟨BitVec.ofNat 3 kind, x.epoch, BitVec.ofNat 12 ((fmGet x.seqs o).getD 0), if kind = kVoid then 0 else payload⟩] ∧
    (e.queue t q).credits = (d.queue t q).credits - 1

/-- From `d` to `e`, only registers, queues and slots have changed. -/
def unitsOnly (d e : Dev) : Prop := e = { d with regs := e.regs, queues := e.queues, slots := e.slots }

/-- From `d` to `e`, the firing `f` on lane group `g` has executed its instruction `i` with result `r`, its output tokens now `outs`: it goes on
to the next instruction with one transient more, or has left the group with its tokens ready to leave (R187, R188). -/
def vxExecuted (e : Dev) (t g : Nat) (f : VFire) (c : Cfg) (i : VIns) (outs : List Row) (r : Row) : Prop :=
  if c.vlen ≤ f.pc + 1 then
    fmGet (e.tile t).groups g = none ∧
      fmGet (e.slot t f.slot).vx.done f.num =
        some (if f.poison || f.readsPoison i.srcs then kPoison else if f.void then kVoid else kData, outs)
  else
    fmGet (e.tile t).groups g =
      some { f with pc := f.pc + 1, trans := f.trans ++ [r], outs := outs, poison := f.poison || f.readsPoison i.srcs }

/-- From `d` to `e`, only registers, tiles and slots have changed. -/
def engineOnly (d e : Dev) : Prop := e = { d with regs := e.regs, tiles := e.tiles, slots := e.slots }

/-- From `d` to `e`, the control core of a tile has issued for slot `sl` in this cycle (R109); every other tile is as before. -/
def ccTurnUsed (d e : Dev) (t sl : Nat) : Prop :=
  e.tile t = { d.tile t with ccLast := sl, ccBusy := true } ∧ ∀ j, j ≠ t → fmGet e.tiles j = fmGet d.tiles j

/-- From `d` to `e`, a control core's operator has issued an instruction: its context is `y`, the tile's issue of the cycle is used, the instruction is counted, and every other slot
is as before. -/
def ccIssues (d e : Dev) (t sl : Nat) (y : CcCtx) : Prop :=
  e.slot t sl = { d.slot t sl with cc := y } ∧ (∀ k, k ≠ slotKey t sl → fmGet e.slots k = fmGet d.slots k) ∧
    e.fget F.TIL_CC_INSTR_COUNT (tileAdd t) = min (d.fget F.TIL_CC_INSTR_COUNT (tileAdd t) + 1) (2 ^ F.TIL_CC_INSTR_COUNT.w - 1) ∧
    ccTurnUsed d e t sl

/-- From `d` to `e`, a control core's instruction on a queue has changed registers, queues, slots and its tile's issue of the cycle only. -/
def ccTokens (d e : Dev) (t sl : Nat) : Prop :=
  ccTurnUsed d e t sl ∧ e = { d with regs := e.regs, queues := e.queues, slots := e.slots, tiles := e.tiles }

/-- The instruction of `ccIssues` changes no register but the count, and nothing else but slots and tiles (and the counter of free values). -/
def ccQuiet (d e : Dev) (t : Nat) : Prop :=
  regsBut [F.TIL_CC_INSTR_COUNT.key (tileAdd t)] d e ∧ e = { d with regs := e.regs, slots := e.slots, tiles := e.tiles, free := e.free }

/-- From context `x` to `y`, register `rd` takes the value `v` with poison bit `p` (s0 discards it), the PC is `pc`, the core waits as `q` says, and the
rest stays. -/
def ccWrote (x y : CcCtx) (rd v : Nat) (p : Bool) (pc : Nat) (q : CcWait := x.wait) : Prop :=
  y.get rd = (if rd = 0 then (0, false) else (v, p)) ∧ (∀ r, r ≠ rd → y.get r = x.get r) ∧
    y = { x with regs := y.regs, poison := y.poison, pc := pc, wait := q }

/-- From `d` to `e`, a control core's operator has faulted and stopped: the event is set, the strongbox and the step controller hear of it
(R213). -/
def ccStops (d e : Dev) (t sl : Nat) (v : Ev) : Prop :=
  e.slot t sl = { d.slot t sl with cc := { (d.slot t sl).cc with faulted := true } } ∧ e.fget v.bit (tileAdd t) = 1 ∧ ccTurnUsed d e t sl ∧
    e.faults = d.faults ++ [(tileHalf t, 3)] ∧
    e = { d with regs := e.regs, slots := e.slots, tiles := e.tiles, faults := e.faults, mg := e.mg, out := e.out }

/-- A frame of kind `k` on port `p` passes the checks of R323 that do not depend on its kind's content: an admitted port, no damage, its CRC,
no reserved bit, UNITS that fit, the next SEQ where it has one, the partner's ID once that is known; the link is not sealed. -/
def frameGood (d : Dev) (p : Nat) (f : Frame) (k : Nat) : Prop :=
  2 ≤ d.link p ∧ d.link p ≤ 4 ∧ f.lanes = [] ∧ f.fec = 0 ∧ f.crc.toNat = frameCrc { f with kind := .ofNat 4 k } ∧ f.rsv = false ∧
    frameUnitsOk { f with kind := .ofNat 4 k } = true ∧ (sequenced k = true → f.seq.toNat = (d.port p).rxSeq) ∧
    (5 ≤ (d.port p).step → f.hopSrc.toNat = d.fget F.LNK_PARTNER_FABRIC_ID (portAdd p)) ∧
    d.flag F.LNK_STATUS_SEALED (portAdd p) = false

/-- From `d` to `e`, port `p` begins its training: the partner shows ABSENT, and a port expected absent holds instead (R328). -/
def startsTraining (d e : Dev) (p : Nat) : Prop :=
  e.link p = (if d.expectAbsent p then 5 else 1) ∧ e.partner p = 0 ∧ e.fget F.LNK_STATUS_SCHED_OK (portAdd p) = 0 ∧ memSame d e

/-- The 64 bytes at an address as a row, and whether a word of it is poison; a poison word reads as zeros. -/
def rowAt (d : Dev) (a : Nat) : Row × Bool :=
  (rowOf ((List.range 8).flatMap fun j => if d.isPoison (a + 8 * j) then leBytes 8 0 else memBytes d.mem (a + 8 * j) 8),
    (List.range 8).any fun j => d.isPoison (a + 8 * j))

/-- In `e`, the row at `a` holds what was stored: the payload's 64 bytes and no poison, or eight poison words (R237). -/
def rowStored (e : Dev) (a : Nat) (v : Row × Bool) : Prop :=
  (v.2 = false → memBytes e.mem a 64 = rowBytes v.1) ∧ ∀ i < 64, e.isPoison (a + i) = v.2

/-- What a frame carries, without its place in the port's sequence. -/
def frameBody (f : TxFrame) : TxFrame := { f with seq := 0, sent := 0 }

/-- The frames of a port that are unacknowledged or wait for credits, oldest first: the scheduled ones (`none`), or those of a virtual channel
and buffer class by their place in the lists of credits. -/
def framesOn (d : Dev) (q : Nat) (c : Option Nat) : List TxFrame :=
  (((d.port q).replay ++ (d.port q).wait).filter fun f => (if f.sched then none else some (creditIx f.vc f.cls)) == c).map frameBody

/-- From `d` to `e`, every port but `q` has the frames it had, and `q`, if there is one, the frames of a bounded transfer with header `y` more,
behind those of its virtual channel and buffer class. -/
def sendsXfer (d e : Dev) (q : Option Nat) (y : Xfer) (xf vc : Nat) : Prop :=
  ∀ z c, framesOn e z c = framesOn d z c ++ (if q = some z ∧ c = some (creditIx vc (d.sendClass z y.origin.toNat)) then
    (framesOf false vc (d.sendClass z y.origin.toNat) 0 xf (y.rows.length + 2)
      ((xferUnit { y with units := .ofNat 32 y.rows.length }, false) :: y.rows)).map frameBody else [])

/-- From `d` to `e`, the transfer `r` has left port `p`'s receive buffer, and the RESPONSE to its request `x` has gone toward its origin, with
the status, the old value, the flags and the rows given (R350, Table 14-1); one without a route is lost. -/
def responds (d e : Dev) (p : Nat) (r : RxXfer) (x : Xfer) (st rfl old : Nat) (rows : List (Row × Bool)) : Prop :=
  (∀ q, (e.port q).rx = if q = p then (d.port q).rx.erase r else (d.port q).rx) ∧
    sendsXfer d e (d.route x.origin.toNat none).port
      { Xfer.blank with op := 8, tenant := x.tenant, origin := .ofNat 16 d.me, target := x.origin, index := x.index, operand := .ofNat 64 old, status := .ofNat 8 st, rflags := .ofNat 8 rfl, rows := rows }
      r.xfer r.vc

/-- The registers that count reads and writes of the word at `a` and the poison met there. -/
def wordKeys (d : Dev) (a : Nat) : List Nat :=
  if a < 0xA000000000 then
    [F.STK_RD_BYTES_COUNT.key (stackAdd (d.stackOf a)), F.STK_WR_BYTES_COUNT.key (stackAdd (d.stackOf a))] ++
      evKeys E.STK_POISON_READ (stackAdd (d.stackOf a))
  else match place a with
    | .scratch t _ => evKeys E.TIL_MEM_SP_POISON_READ (tileAdd t)
    | _ => evKeys E.TIL_MEM_SP_POISON_READ

/-- The registers that sending a transfer may change: the DETOUR event and the units sent on each port. -/
def sendKeys : List Nat := evKeys E.FAB_DETOUR ++ (List.range 15).map fun q => F.LNK_TX_UNITS_COUNT.key (portAdd q)

/-- From `d` to `e`, a request on the `n` bytes at `a` has been served: it is counted, and nothing outside memory, the ports, the detours and
the counters of those bytes and of sending has changed. -/
def served (a n : Nat) (d e : Dev) : Prop :=
  e.fget F.FAB_REMOTE_SERVED = min (d.fget F.FAB_REMOTE_SERVED + 1) (2 ^ F.FAB_REMOTE_SERVED.w - 1) ∧
    regsBut (F.FAB_REMOTE_SERVED.key 0 :: sendKeys ++ (List.range n).flatMap fun i => wordKeys d (a + i)) d e ∧
    e = { d with regs := e.regs, mem := e.mem, poison := e.poison, ports := e.ports, fab := { d.fab with detours := e.fab.detours }, out := e.out, free := e.free }

/-- From `d` to `e`, a request has been refused: memory and the count of requests served are as before, and nothing but registers, ports and
detours has changed. -/
def turnedAway (d e : Dev) : Prop :=
  e.fget F.FAB_REMOTE_SERVED = d.fget F.FAB_REMOTE_SERVED ∧ memSame d e ∧
    e = { d with regs := e.regs, ports := e.ports, fab := { d.fab with detours := e.fab.detours }, out := e.out, free := e.free }

/-- From `d` to `e`, the dynamic request `q` with its tag has failed with `st` and is held no more: a GLOBAL reader's row is POISON, a GLOBAL
writer's completion token will be, a command ends with the status, a mirror or delta has failed (Table 14-4, R375). -/
def reqFailed (d e : Dev) (tag : Nat) (q : Req) (st : Nat) : Prop :=
  (∀ k, fmGet e.fab.reqs k = if k = tag then none else fmGet d.fab.reqs k) ∧ memSame d e ∧
    match q.use with
    | .unit t s =>
      (q.x.op = 1 → (e.slot t s).walk = (d.slot t s).walk.map fun w => { w with ahead := fillAt q.x.addr.toNat (0, true) w.ahead }) ∧
        (q.x.op ≠ 1 → e.fab.failed = d.fab.failed ++ [slotKey t s])
    | .copy h seq => ∀ n, d.entry h seq = some n → n.state < 3 → endedAs e h seq 4 st
    | .escrow _ => e.fget E.DEV_SRV_MIRROR_FAIL.bit = 1
    | .stream _ _ => True

/-- Of a device, the range `[lo, hi)` of memory reads as zero, without poison. -/
def zeroed (e : Dev) (lo hi : Nat) : Prop := ∀ a, lo ≤ a → a < hi → memGet e.mem a = 0 ∧ e.isPoison a = false

/-- From `d` to `e`, the bytes `bs` are stored from `a` on and the words they lie in are not poison, every other byte and word as before; a word
that is covered in part has to be free of poison for that (R237). -/
def bytesStored (d e : Dev) (a : Nat) (bs : List Byte) : Prop :=
  (a % 8 = 0 ∨ d.isPoison a = false) → ((a + bs.length) % 8 = 0 ∨ d.isPoison (a + bs.length - 1) = false) →
    (∀ i, memGet e.mem i = if a ≤ i ∧ i < a + bs.length then (bs[i - a]?).getD 0#8 else memGet d.mem i) ∧
      ∀ i, e.isPoison i = if a / 8 ≤ i / 8 ∧ i / 8 < (a + bs.length + 7) / 8 then false else d.isPoison i

/-- The first of a list of checks that fails, by its status. -/
def firstOf (cs : List (Bool × Nat)) : Option Nat := (cs.find? fun c => c.1).map (·.2)

/-- From `d` to `e`, only the ledgers, the trace and signals have changed: a command has started or ended and nothing else. -/
def ledgerOnly (d e : Dev) : Prop := e = { d with led0 := e.led0, led1 := e.led1, mg := e.mg, out := e.out }

/-- From `d` to `e`, the update `u` that was being staged has failed with `st`: its entry has ended so, its slot is EMPTY, DEV_UPDATE shows the
failure, and SHORTFALL has gone to the master (R479). -/
def stageFailed (d e : Dev) (u : UpdateS) (st : Nat) : Prop :=
  e.boot.update = none ∧ e.fget F.DEV_UPDATE_PHASE = 6 ∧ e.fget F.DEV_UPDATE_LAST_STATUS = st ∧ e.slotMark (!d.boot.runB) = 0 ∧
    e.fget F.DEV_EVENT_UPDATE_FAIL = 1 ∧ .fabric 5 [2, u.id, st] ∈ e.out ∧ memSame d e ∧
    (∀ z ∈ u.staged, .fabric 7 [z, 1, u.id, 0] ∈ e.out) ∧
    ∀ n, d.entry u.entryHalf u.entrySeq = some n → n.state < 3 → endedAs e u.entryHalf u.entrySeq 4 st

/-- From `d` to `e`, the update `u` is staged: its slot is STAGED, COMPLETE has gone to the master, and its entry has ended OK, at the
master once every device it staged is COMPLETE (R479, R482). -/
def stageComplete (d e : Dev) (u : UpdateS) : Prop :=
  e.fget F.DEV_STATE_UPDATE_STAGED = 1 ∧ e.slotMark (!d.boot.runB) = 1 ∧ e.fget F.DEV_UPDATE_PHASE = 4 ∧ e.fget F.DEV_UPDATE_LAST_STATUS = stOk ∧
    .fabric 5 [1, u.id, stOk] ∈ e.out ∧ memSame d e ∧
    ∀ n, (∀ z ∈ u.staged, z = d.me ∨ fmGet u.reports z = some 1) → d.entry u.entryHalf u.entrySeq = some n → n.state < 3 → endedAs e u.entryHalf u.entrySeq 3 stOk

end Sys2Proof
end

