-- ==== Sys2Proof/Certificates/Slice0/Obligations.lean ====
section
/-! DEFINITION. The statements for the provers, one definition each. -/

open Sys2Proof Sys2Proof.Machine

/-- The block's queue is first in, first out. -/
def Obligations.StepTakesTheFrontCommand : Prop :=
  ∀ (s : State) (c : Instr) (rest : List Instr), s.pending = c :: rest → step s = exec c { s with pending := rest }

/-- The clock of the block (the model's choice, log 1): Table 2-1 gives the cycles of a tick. No command of the block stops it, and none touches the queue: every run of the waiting commands is safe. -/
def Obligations.IdleStepsAndWaitingCommands : Prop :=
  (∀ s : State, s.pending = [] →
    (s.dev.live = false → step s = .next s) ∧
    (s.dev.live = true → ∃ e, step s = .next { s with dev := e } ∧
      e.fget F.TAL_PHASE_CYCLE =
        min (s.dev.fget F.TAL_PHASE_CYCLE + 1) (((s.dev.cyclesPerTick : Int) + s.dev.tally.adj).toNat - 1) % 2 ^ 11 ∧
      e.mg.started = false ∧ memSame s.dev e)) ∧
    ((∀ (c : Instr) (s : State), Does c s fun _ => True) ∧ (∀ s : State, safeRun s) ∧
    ∀ s : State, ∃ t, Sys2Proof.core.run s.pending.length s = .next t ∧ t.pending = [])

/-- What reset leaves: the reset columns of the register tables, Table 2-9 for TAL_STATUS (values of the model: log 11, 12). -/
def Obligations.ResetLeavesResetValues : Prop :=
  (∀ (f : Fld) (a : Nat), State.reset.dev.fget f a = f.rst) ∧
  State.reset.pending = [] ∧ State.reset.dev.powered = false ∧ State.reset.dev.mem = [] ∧ State.reset.dev.poison = [] ∧
  State.reset.dev.led0.ring = [] ∧ State.reset.dev.queues = [] ∧ State.reset.dev.mg.sessions = [] ∧
  State.reset.dev.img0 = none ∧ State.reset.dev.lockState = 0 ∧ State.reset.dev.fget F.TAL_STATUS_PARENT = 0xF ∧
  State.reset.dev.fget F.TAL_STATUS_DEPTH = 0xFF ∧ State.reset.dev.half false = 0 ∧ State.reset.dev.half true = 0

/-- The first half of the headline invariant. -/
def Obligations.ResetStateIsCanonical : Prop :=
  canonical State.reset.dev

/-- The headline invariant: equal devices are equal data after every command of the table. -/
def Obligations.EveryStepKeepsCanonicalForm : Prop :=
  ∀ s t : State, canonical s.dev → step s = .next t → canonical t.dev

/-- R457: every block but the standby logic is held in reset. R524: the trip stops every clock except standby. -/
def Obligations.ResetAndTripStopTheBlocks : Prop :=
  (∀ (c : Instr) (s : State), s.dev.powered = false → (∀ p r v t, c ≠ .coldReset p r v t) →
    (∀ a b m k r o, c ≠ .bringup a b m k r o) → exec c s = .next s) ∧
    (∀ s : State, s.dev.pw.tripped = true →
    exec .tick s = .next s ∧ (∀ t q k, exec (.tokenArrival t q k) s = .next s) ∧ (∀ t x, exec (.switchFire t x) s = .next s) ∧
    (∀ t x v, exec (.vectorFire t x v) s = .next s) ∧ (∀ t x, exec (.ccAdd t x) s = .next s) ∧
    (∀ t x r, exec (.ccLd t x r) s = .next s) ∧ (∀ h q p es, exec (.run h q p es) s = .next s) ∧
    (∀ p f, exec (.dataFrame p f) s = .next s) ∧ (∀ p o es, exec (.remoteLoad p o es) s = .next s) ∧
    (∀ h q b f es, exec (.load h q b f es) s = .next s) ∧ (∀ h q es, exec (.copy h q es) s = .next s) ∧
    ∀ w es hs, exec (.arm w es hs) s = .next s)

/-- R33, with Table 2-3's first row and the scheduled class of Table 2-2. R32, Table 2-9. R43 and Table 2-3's rows that leave FREE_RUN; R36 for the master's count. -/
def Obligations.ReferenceLossAndReturn : Prop :=
  (∀ s : State, s.dev.live = true →
    (s.dev.flag F.TAL_STATUS_REF_PRESENT = true →
      Does .refLost s fun e =>
        e.fget F.TAL_STATUS_REF_PRESENT = 0 ∧ e.fget F.TAL_EVENT_REF_LOST = 1 ∧
        e.fget F.TAL_EVCNT0_REF_LOST_CNT = min (s.dev.fget F.TAL_EVCNT0_REF_LOST_CNT + 1) 0xFFFF ∧
        e.lockState = 0 ∧ e.schedEn = false ∧ e.fget F.TAL_STATUS_PARENT = 0xF ∧
        regsBut ([F.TAL_STATUS_REF_PRESENT.key 0, F.TAL_STATUS_STATE.key 0, F.TAL_STATUS_SCHED_EN.key 0,
          F.TAL_STATUS_PARENT.key 0, F.TAL_STATUS_DEPTH.key 0] ++ evKeys E.TAL_REF_LOST) s.dev e ∧
        e = { s.dev with regs := e.regs, tally := e.tally, led0 := e.led0, led1 := e.led1, mg := e.mg, out := e.out }) ∧
    (s.dev.flag F.TAL_STATUS_REF_PRESENT = false → exec .refLost s = .next s)) ∧
    (∀ s : State, s.dev.live = true →
    Does .refPresent s fun e =>
      e.fget F.TAL_STATUS_REF_PRESENT = 1 ∧ regsBut [F.TAL_STATUS_REF_PRESENT.key 0] s.dev e ∧ e = { s.dev with regs := e.regs }) ∧
    (∀ s : State, s.dev.live = true →
    (s.dev.lockState = 0 → s.dev.flag F.TAL_STATUS_REF_PRESENT = true →
      Does .refValid s fun e =>
        (s.dev.isMaster = true → e.lockState = 3 ∧ e.now = s.dev.advertised % 2 ^ 64 ∧
          e.fget F.TAL_STATUS_PARENT = 0xF) ∧
        (s.dev.isMaster = false → e.now = s.dev.now ∧ e.lockState = if s.dev.bestParent.isSome then 2 else 1) ∧
        memSame s.dev e) ∧
    (s.dev.lockState ≠ 0 → exec .refValid s = .next s))

/-- R34: it never decreases, and at all ones it stops; R39: the held count. R39 for ACQUIRE, R42 for LOCKED; Table 2-13 for the offset. -/
def Obligations.TickAdvancesAndParentStampLocks : Prop :=
  (∀ s : State, s.dev.live = true →
    (s.dev.owesStart = true → exec .tick s = .next s) ∧
    (s.dev.owesStart = false → Does .tick s fun e =>
      (s.dev.tally.hold = 0 → e.now = min (s.dev.now + 1) (2 ^ 64 - 1)) ∧
      (s.dev.tally.hold ≠ 0 → e.now = s.dev.now ∧ e.tally.hold = s.dev.tally.hold - 1) ∧
      e.fget F.TAL_PHASE_CYCLE = 0 ∧ e.fget F.TAL_PHASE_SLOT = 0 ∧ memSame s.dev e)) ∧
    (∀ (s : State) (p : PortId) (f : Frame) (count : Word) (depth : BitVec 8) (lock : BitVec 3) (off : BitVec 32), s.dev.live = true →
    ((s.dev.link p.val < 2 ∨ 4 < s.dev.link p.val) → exec (.stampReceived p f count depth lock off) s = .next s) ∧
    (s.dev.linkUp p.val = true → frameGood s.dev p.val f 3 →
      (depth = 0#8 → s.dev.fget F.LNK_PARTNER_FABRIC_ID (portAdd p.val) = 0) → s.dev.isMaster = false → s.dev.fget F.TAL_STATUS_PARENT = p.val →
      (s.dev.lockState = 2 → lock = 3#3 →
        Does (.stampReceived p f count depth lock off) s fun e => e.lockState = 3 ∧ s.dev.now % 2 ^ 64 ≤ e.now ∧ memSame s.dev e) ∧
      (s.dev.lockState = 3 →
        Does (.stampReceived p f count depth lock off) s fun e =>
          e.fget F.TAL_OFFSET_OFFSET = off.toNat ∧ e.now = s.dev.now ∧ e.lockState = 3 ∧
          ((128 < off.toInt ∨ off.toInt < -128) → e.fget F.TAL_EVENT_BOUND_EXCEEDED = 1 ∧ e.schedEn = false) ∧ memSame s.dev e)))

/-- R38, R42 and the rows of Table 2-3 that name STAMP_LOST and HOLD_EXPIRED. R43's last sentences and Table 2-14. -/
def Obligations.ParentLossHoldoverAndRelock : Prop :=
  (∀ s : State, s.dev.live = true → s.dev.isMaster = false →
    (s.dev.lockState = 3 → Does .stampLost s fun e =>
      e.lockState = 4 ∧ e.fget F.TAL_EVENT_STAMP_LOST = 1 ∧ e.now = s.dev.now ∧ memSame s.dev e) ∧
    (s.dev.lockState = 2 → Does .stampLost s fun e =>
      (e.lockState = 1 ∨ e.lockState = 2) ∧ e.fget F.TAL_EVENT_STAMP_LOST = 1 ∧ e.now = s.dev.now ∧ memSame s.dev e) ∧
    (s.dev.lockState = 4 → s.dev.fget F.TAL_STATUS_PARENT ≠ 0xF → Does .stampLost s fun e =>
      e.lockState = 4 ∧ e.fget F.TAL_EVENT_STAMP_LOST = 1 ∧ e.now = s.dev.now ∧ memSame s.dev e) ∧
    (s.dev.lockState = 4 → Does .holdExpired s fun e =>
      (e.lockState = if s.dev.bestParent.isSome then 2 else 1) ∧ e.fget F.TAL_EVENT_HOLD_EXPIRED = 1 ∧ e.now = s.dev.now ∧
      memSame s.dev e) ∧
    (s.dev.lockState = 3 → Does .schedClassRestored s fun e =>
      e.schedEn = !s.dev.flag F.TAL_CTRL_SCHED_OFF ∧ regsBut [F.TAL_STATUS_SCHED_EN.key 0] s.dev e ∧ memSame s.dev e)) ∧
    (∀ s : State, s.dev.live = true →
    (s.dev.isMaster = false → s.dev.lockState ≠ 0 →
      Does (.relock .operator) s fun e => e.lockState = 2 ∧ e.fget F.TAL_CTRL_RELOCK = 0 ∧ e.now = s.dev.now ∧ memSame s.dev e) ∧
    ((s.dev.isMaster = true ∨ s.dev.lockState = 0) →
      Does (.relock .operator) s fun e => e.lockState = s.dev.lockState ∧ e.fget F.TAL_CTRL_RELOCK = 0 ∧
        regsBut [F.TAL_CTRL_RELOCK.key 0] s.dev e ∧ e = { s.dev with regs := e.regs }) ∧
    (∀ v, Does (.schedOff .operator v) s fun e =>
      e.fget F.TAL_CTRL_SCHED_OFF = (if v then 1 else 0) ∧ (v = true → e.schedEn = false) ∧
      regsBut [F.TAL_CTRL_SCHED_OFF.key 0, F.TAL_STATUS_SCHED_EN.key 0] s.dev e ∧ e = { s.dev with regs := e.regs }) ∧
    (∀ t v, exec (.relock (.core t)) s = .next s ∧ exec (.schedOff (.core t) v) s = .next s))

/-- R5's discarded write and its counter; R6's unassigned offset; the writer's rights of R419 and R454. Table 0-2 by access type; R8: the hardware set wins over the clear, and its counter counts (R9). -/
def Obligations.RegisterWritesByAccessType : Prop :=
  (∀ (s : State) (who : Who) (off : BitVec 32) (width : Nat) (v hw : Word), s.dev.regClocked off.toNat = true →
    ((width ≠ 64 ∨ off.toNat % 8 ≠ 0) →
      Does (.registerWrite who off width v hw) s fun e =>
        e.fget F.DEV_REG_ERR_COUNT = min (s.dev.fget F.DEV_REG_ERR_COUNT + 1) (2 ^ 64 - 1) ∧
        regsBut [F.DEV_REG_ERR_COUNT.key 0] s.dev e ∧ e = { s.dev with regs := e.regs }) ∧
    (off.toNat % 8 = 0 → regAt off.toNat = none →
      exec (.registerWrite who off 64 v hw) s = .next s) ∧
    (off.toNat % 8 = 0 → s.dev.mayWrite who off.toNat = false → exec (.registerWrite who off 64 v 0) s = .next s)) ∧
    (∀ (s : State) (who : Who) (off : BitVec 32) (v : Word) (r : RegDef) (add : Nat) (f : Fld),
    s.dev.regClocked off.toNat = true → s.dev.mayWrite who off.toNat = true → off.toNat % 8 = 0 → off.toNat ≠ 0x8000020 →
    regAt off.toNat = some (r, add) → f ∈ r.fields → rowFields.contains f = false → f ≠ F.MBX_TRACE_CTRL_ENABLE →
      Does (.registerWrite who off 64 v 0) s (fun e =>
        (f.acc = .rw → e.fget f (add + s.dev.bank who off.toNat) = bits v.toNat f.lo f.w) ∧
        ((f.acc = .ro ∨ f.acc = .rc) →
          e.fget f (add + s.dev.bank who off.toNat) = s.dev.fget f (add + s.dev.bank who off.toNat)) ∧
        (f.acc = .w1s → e.fget f (add + s.dev.bank who off.toNat) =
          (s.dev.fget f (add + s.dev.bank who off.toNat) ||| bits v.toNat f.lo f.w) % 2 ^ f.w) ∧
        (f.acc = .w1c → f.w = 1 → v.toNat.testBit f.lo = true → e.fget f (add + s.dev.bank who off.toNat) = 0) ∧
        (f.acc = .w1c → f.w = 1 → v.toNat.testBit f.lo = false →
          e.fget f (add + s.dev.bank who off.toNat) = s.dev.fget f (add + s.dev.bank who off.toNat) % 2) ∧
        regsBut (r.fields.map fun g => g.key (add + s.dev.bank who off.toNat)) s.dev e ∧
        e = { s.dev with regs := e.regs, tiles := e.tiles, boot := e.boot }) ∧
      ∀ ev ∈ allEvents, ev.bit = f →
        Does (.registerWrite who off 64 v (BitVec.ofNat 64 (2 ^ f.lo))) s fun e =>
          e.fget f (add + s.dev.bank who off.toNat) = 1 ∧
          e.fget ev.cnt (add + s.dev.bank who off.toNat) =
            min (s.dev.fget ev.cnt (add + s.dev.bank who off.toNat) + 1) (2 ^ ev.cnt.w - 1))

/-- R391–R393, R400; Table 16-2's checks are the model's acceptCheck and acceptCheck2. -/
def Obligations.SubmissionAcceptedOrRefused : Prop :=
  ∀ (s : State) (src : Fin 4) (session : Nat) (m : MsgHdr) (r : Row) (u : Submitter), s.dev.live = true →
    s.dev.submitter src.val session = some u →
    (s.dev.mg.subs = [] → s.dev.mg.subWait = 0 →
      (src.val = 3 ∨ (src.val < 2 ∧ s.dev.uhlea = true ∧
        ∃ x, fmGet s.dev.mg.sessions session = some x ∧ m.good = true ∧ m.seq.toNat = x.seqIn ∧ m.len ≤ 65504 ∧ m.rsv = false)) →
      (s.dev.acceptCheck u r = none → (s.dev.led (s.dev.ledgerFor u r)).dup (descArg r 8 8) u.src u.tag = none →
        s.dev.acceptCheck2 u (s.dev.ledgerFor u r) r = none →
        Does (.commandSubmit src session m r) s fun e =>
          (e.led (s.dev.ledgerFor u r)).head = (s.dev.led (s.dev.ledgerFor u r)).head + 1 ∧
          (∃ x ∈ (e.led (s.dev.ledgerFor u r)).entries, x.seq = (s.dev.led (s.dev.ledgerFor u r)).head + 1 ∧ x.state = 1 ∧
            x.tag = descArg r 8 8 ∧ x.opcode = descArg r 0 1 ∧ x.source = u.src ∧ x.tenant = u.tag ∧
            x.execAt = descArg r 16 8 ∧ x.desc = r) ∧
          (src.val = 3 → e.out.getLast? = some (.response 3 stAccepted 0 0 ((s.dev.led (s.dev.ledgerFor u r)).head + 1))) ∧
          (∀ x, src.val < 2 → fmGet s.dev.mg.sessions session = some x → e.out.getLast? = some (.mgmt session 0x02 x.seqOut m.tag.toNat
            [stAccepted, 0, 0, (s.dev.led (s.dev.ledgerFor u r)).head + 1])) ∧ memSame s.dev e) ∧
      (∀ st, s.dev.acceptCheck u r = some st →
        Does (.commandSubmit src session m r) s fun e =>
          e.fget F.CMD_EVENT_REFUSED = 1 ∧ regsBut (evKeys E.CMD_REFUSED) s.dev e ∧
          (src.val = 3 → e.out = s.dev.out ++ [.response 3 st 0 0 0]) ∧
          (∀ x, src.val < 2 → fmGet s.dev.mg.sessions session = some x →
            e.out = s.dev.out ++ [.mgmt session 0x02 x.seqOut m.tag.toNat [st, 0, 0, 0]]) ∧
          e = { s.dev with regs := e.regs, mg := e.mg, out := e.out })) ∧
    (src.val = 3 → 64 ≤ (s.dev.mg.subs.filter fun q => q.who.src == 3).length →
      Does (.commandSubmit src session m r) s fun e =>
        e.out = s.dev.out ++ [.response 3 stBusy 0 0 0] ∧ regsBut (evKeys E.CMD_QUEUE_FULL) s.dev e ∧
        e = { s.dev with regs := e.regs, out := e.out })

/-- R397's refused state: visible in the ledger at the command's turn. -/
def Obligations.WrongStateFailsTheEntryOnly : Prop :=
  ∀ (s : State) (h : HalfId) (seq : Word) (e : Entry) (st : Nat) (c : Instr) (op : Nat), s.dev.live = true →
    (c, op) ∈ [(Instr.stage h seq, 0x03), (.preempt h seq, 0x05), (.resume h seq, 0x06), (.copy h seq [], 0x09),
      (.profile h seq [], 0x10), (.tenantAssign h seq, 0x11), (.winnow h seq, 0x12), (.computeReset h seq, 0x13)] →
    s.dev.entry h seq.toNat = some e → e.opcode = op → (op = 0x11 → e.arg 24 1 = 0) →
    s.dev.mg.started = false → (s.dev.led h).mayStart e = true → s.dev.stateCheck h e = some st →
      Does c s fun d =>
        endedAs d h seq.toNat 4 st ∧ d = { s.dev with led0 := d.led0, led1 := d.led1, mg := d.mg, out := d.out }

/-- R395's NOP, R398's CANCEL, R46 and R48 for the execute-at value. -/
def Obligations.NopCancelAndExecAt : Prop :=
  ∀ (s : State) (h : HalfId) (seq : Word) (e : Entry), s.dev.live = true →
    (startable s.dev h seq.toNat 0x01 e → Does (.nop h seq) s fun d =>
      endedAs d h seq.toNat 3 0 ∧ d = { s.dev with led0 := d.led0, led1 := d.led1, mg := d.mg, out := d.out }) ∧
    (∀ t, startable s.dev h seq.toNat 0x0A e → s.dev.entry h (e.arg 24 8) = some t → e.arg 24 8 ≠ seq.toNat → t.state = 1 →
      (e.source = 0 ∨ t.tenant = e.tenant) → Does (.cancel h seq) s fun d =>
        endedAs d h (e.arg 24 8) 5 0 ∧ endedAs d h seq.toNat 3 0 ∧
        d = { s.dev with led0 := d.led0, led1 := d.led1, mg := d.mg, out := d.out }) ∧
    (∀ t, startable s.dev h seq.toNat 0x0A e → s.dev.entry h (e.arg 24 8) = some t →
      (t.state ≠ 1 ∨ (e.source ≠ 0 ∧ t.tenant ≠ e.tenant)) → Does (.cancel h seq) s fun d => endedAs d h seq.toNat 4 stWrongState) ∧
    (s.dev.entry h seq.toNat = some e → e.state = 1 → e.execAt ≠ 0 → e.execAt = s.dev.now → Does (.execAtStart h seq) s fun d =>
      ((s.dev.lockState = 3 ∨ s.dev.lockState = 4) → d.entry h seq.toNat = some { e with due := true }) ∧
      ((s.dev.lockState ≠ 3 ∧ s.dev.lockState ≠ 4) → endedAs d h seq.toNat 4 stTimeout) ∧
      d = { s.dev with led0 := d.led0, led1 := d.led1, mg := d.mg, out := d.out })

/-- R405; the reader's ledger and tag are the model's readerHalf and readerTag. -/
def Obligations.LedgerSnapshotByReader : Prop :=
  ∀ (s : State) (who : Who) (seq : Word), s.dev.live = true →
    Does (.lgrSel who seq) s fun d =>
      d.fget F.LGR_SEL_SEQ = seq.toNat ∧
      (∀ x, (s.dev.led (s.dev.readerHalf who)).snapshot seq.toNat = some x →
        d.fget F.LGR_CTRL_FOUND = 1 ∧
        ∀ k < 8, d.fget F.LGR_DATA_DATA (8 * k) =
          leAt ((s.dev.led (s.dev.readerHalf who)).view (s.dev.readerTag who) x).bytes (8 * k) 8) ∧
      ((s.dev.led (s.dev.readerHalf who)).snapshot seq.toNat = none →
        d.fget F.LGR_CTRL_FOUND = 0 ∧ ∀ k < 8, d.fget F.LGR_DATA_DATA (8 * k) = 0) ∧
      regsBut ([F.LGR_SEL_SEQ.key 0, F.LGR_CTRL_FOUND.key 0] ++ (List.range 8).map fun k => F.LGR_DATA_DATA.key (8 * k)) s.dev d ∧
      d = { s.dev with regs := d.regs }

/-- R112, R117 and R151 for what a queue expects next. R116: the queue returns the credit. -/
def Obligations.ArrivingTokensAndReturnedCredits : Prop :=
  (∀ (s : State) (t : TileId) (q : QueueId) (k : Token), s.dev.live = true →
    ((s.dev.queue t.toNat q.toNat).tokens.length < (s.dev.queue t.toNat q.toNat).depth → k.kind.toNat < 5 →
      k.seq.toNat = (s.dev.queue t.toNat q.toNat).seq → k.epoch = (s.dev.queue t.toNat q.toNat).epoch →
      Does (.tokenArrival t q (some k)) s fun e =>
        e.queue t.toNat q.toNat =
          { s.dev.queue t.toNat q.toNat with
            tokens := (s.dev.queue t.toNat q.toNat).tokens ++ [k]
            seq := if k.kind.toNat = kMark then 0 else (k.seq.toNat + 1) % 4096
            epoch := if k.kind.toNat = kMark then !(s.dev.queue t.toNat q.toNat).epoch else (s.dev.queue t.toNat q.toNat).epoch } ∧
        (∀ t' q', qKey t' q' ≠ qKey t.toNat q.toNat → e.queue t' q' = s.dev.queue t' q') ∧ e = { s.dev with queues := e.queues }) ∧
    ((s.dev.queue t.toNat q.toNat).tokens.length < (s.dev.queue t.toNat q.toNat).depth →
      (5 ≤ k.kind.toNat ∨ k.seq.toNat ≠ (s.dev.queue t.toNat q.toNat).seq) →
      Does (.tokenArrival t q (some k)) s fun e =>
        (e.queue t.toNat q.toNat).tokens = (s.dev.queue t.toNat q.toNat).tokens ++ [{ k with kind := 4#3 }] ∧
        (e.queue t.toNat q.toNat).seq = (k.seq.toNat + 1) % 4096 ∧
        (5 ≤ k.kind.toNat → e.fget F.TIL_DF_EVENT_KIND_FAULT (tileAdd t.toNat) = 1) ∧
        (k.seq.toNat ≠ (s.dev.queue t.toNat q.toNat).seq → e.fget F.TIL_DF_EVENT_SEQ_GAP (tileAdd t.toNat) = 1) ∧ memSame s.dev e) ∧
    ((s.dev.queue t.toNat q.toNat).depth ≤ (s.dev.queue t.toNat q.toNat).tokens.length →
      Does (.tokenArrival t q (some k)) s fun e =>
        e.queue t.toNat q.toNat = s.dev.queue t.toNat q.toNat ∧ e.fget F.TIL_DF_EVENT_Q_OVERFLOW (tileAdd t.toNat) = 1 ∧
        e.faults = s.dev.faults ++ [(tileHalf t.toNat, 1)] ∧
        regsBut (evKeys E.TIL_DF_Q_OVERFLOW (tileAdd t.toNat)) s.dev e ∧ e = { s.dev with regs := e.regs, faults := e.faults }) ∧
    (∀ rest, (s.dev.queue t.toNat q.toNat).moving = k :: rest →
      exec (.tokenArrival t q none) s =
        exec (.tokenArrival t q (some k))
          { s with dev := s.dev.setQueue t.toNat q.toNat { s.dev.queue t.toNat q.toNat with flight := (s.dev.queue t.toNat q.toNat).flight.drop 1 } })) ∧
    (∀ (s : State) (t : TileId) (q : QueueId), s.dev.live = true →
    (0 < (s.dev.queue t.toNat q.toNat).freed → Does (.creditReturn t q) s fun e =>
      e.queue t.toNat q.toNat =
        { s.dev.queue t.toNat q.toNat with
          freed := (s.dev.queue t.toNat q.toNat).freed - 1, credits := (s.dev.queue t.toNat q.toNat).credits + 1 } ∧
      e = { s.dev with queues := e.queues, fab := e.fab, out := e.out }) ∧
    ((s.dev.queue t.toNat q.toNat).freed = 0 → exec (.creditReturn t q) s = .next s))

/-- Table 5-5's firing sets; `steer` is Table 5-7, `coverLeft` R124's count. -/
def Obligations.ControlledSteeringMovesOneToken : Prop :=
  ∀ (s : State) (t : TileId) (sl : SlotId) (x : Slot) (c : Cfg) (k v : Token), s.dev.live = true →
    (s.dev.canFire t.toNat sl.toNat [5] = some (x, c) → s.dev.ready t.toNat x c 1 = some k → s.dev.ready t.toNat x c 0 = some v →
      c.inq 0 ≠ c.inq 1 → (steer 5 c.outs.length k v.kind.toNat).n ≠ 0 →
      s.dev.credit c (steer 5 c.outs.length k v.kind.toNat).sel = true →
      Does (.switchFire t sl) s fun e =>
        takesHead s.dev e t.toNat c 0 ∧
        (if (coverLeft x (steer 5 c.outs.length k v.kind.toNat).n).2 then takesHead s.dev e t.toNat c 1
         else keepsHead s.dev e t.toNat c 1) ∧
        putsToken s.dev e x c (steer 5 c.outs.length k v.kind.toNat).sel
          ((steer 5 c.outs.length k v.kind.toNat).kind.getD v.kind.toNat) v.payload ∧
        ((steer 5 c.outs.length k v.kind.toNat).fault = true → e.fget F.TIL_DF_EVENT_STEER_FAULT (tileAdd t.toNat) = 1) ∧
        (e.slot t.toNat sl.toNat).fired = true ∧ (e.slot t.toNat sl.toNat).since = 0 ∧ unitsOnly s.dev e) ∧
    (s.dev.canFire t.toNat sl.toNat [6] = some (x, c) → s.dev.ready t.toNat x c (c.ins.length - 1) = some k →
      s.dev.ready t.toNat x c (steer 6 (c.ins.length - 1) k 0).sel = some v →
      c.inq (steer 6 (c.ins.length - 1) k 0).sel ≠ c.inq (c.ins.length - 1) →
      (steer 6 (c.ins.length - 1) k 0).n ≠ 0 → s.dev.credit c 0 = true →
      Does (.mergeControlledFire t sl) s fun e =>
        takesHead s.dev e t.toNat c (steer 6 (c.ins.length - 1) k 0).sel ∧
        (if (coverLeft x (steer 6 (c.ins.length - 1) k 0).n).2 then takesHead s.dev e t.toNat c (c.ins.length - 1)
         else keepsHead s.dev e t.toNat c (c.ins.length - 1)) ∧
        putsToken s.dev e x c 0 ((steer 6 (c.ins.length - 1) k v.kind.toNat).kind.getD v.kind.toNat) v.payload ∧
        (e.slot t.toNat sl.toNat).fired = true ∧ unitsOnly s.dev e) ∧
    (s.dev.canFire t.toNat sl.toNat [10] = some (x, c) → s.dev.ready t.toNat x c 1 = some k → s.dev.ready t.toNat x c 0 = some v →
      c.inq 0 ≠ c.inq 1 → (steer 10 1 k v.kind.toNat).n ≠ 0 →
      ((steer 10 1 k v.kind.toNat).keep = true → s.dev.credit c 0 = true) →
      Does (.dropControlledFire t sl) s fun e =>
        takesHead s.dev e t.toNat c 0 ∧
        (if (coverLeft x (steer 10 1 k v.kind.toNat).n).2 then takesHead s.dev e t.toNat c 1 else keepsHead s.dev e t.toNat c 1) ∧
        ((steer 10 1 k v.kind.toNat).keep = true →
          putsToken s.dev e x c 0 ((steer 10 1 k v.kind.toNat).kind.getD v.kind.toNat) v.payload) ∧
        ((steer 10 1 k v.kind.toNat).keep = false → v.kind.toNat = kPoison →
          e.fget F.TIL_DF_EVENT_POISON_DROPPED (tileAdd t.toNat) = 1) ∧
        (e.slot t.toNat sl.toNat).fired = true ∧ unitsOnly s.dev e)

/-- R123, R124, R126 and R127 for the units without a covered data token, and the repeats. R122's once per stretch; R137's clear. -/
def Obligations.RepeatRotateDropForkAndStalls : Prop :=
  (∀ (s : State) (t : TileId) (sl : SlotId) (x : Slot) (c : Cfg) (v : Token), s.dev.live = true →
    (∀ i, s.dev.canFire t.toNat sl.toNat [7] = some (x, c) → x.turnIn c.ins.length c.ins.length = some i →
      s.dev.ready t.toNat x c i = some v → s.dev.credit c 0 = true →
      Does (.mergeRotationFire t sl) s fun e =>
        takesHead s.dev e t.toNat c i ∧ putsToken s.dev e x c 0 v.kind.toNat v.payload ∧
        (e.slot t.toNat sl.toNat).turn = (i + 1) % max 1 c.ins.length ∧ unitsOnly s.dev e) ∧
    (∀ k, s.dev.canFire t.toNat sl.toNat [8] = some (x, c) → s.dev.ready t.toNat x c 0 = some v →
      s.dev.ready t.toNat x c 1 = some k → c.inq 0 ≠ c.inq 1 → (steer 8 1 k v.kind.toNat).n ≠ 0 → s.dev.credit c 0 = true →
      Does (.repeatControlledFire t sl) s fun e =>
        (if (coverLeft x (steer 8 1 k v.kind.toNat).n).2 then takesHead s.dev e t.toNat c 0 ∧ takesHead s.dev e t.toNat c 1
         else keepsHead s.dev e t.toNat c 0 ∧ keepsHead s.dev e t.toNat c 1) ∧
        putsToken s.dev e x c 0 ((steer 8 1 k v.kind.toNat).kind.getD v.kind.toNat) v.payload ∧ unitsOnly s.dev e) ∧
    (s.dev.canFire t.toNat sl.toNat [9] = some (x, c) → s.dev.ready t.toNat x c 0 = some v →
      (c.param ≠ 0 → s.dev.credit c 0 = true) →
      Does (.repeatStaticFire t sl) s fun e =>
        (c.param = 0 → takesHead s.dev e t.toNat c 0) ∧
        (c.param ≠ 0 →
          (if (coverLeft x c.param).2 then takesHead s.dev e t.toNat c 0 else keepsHead s.dev e t.toNat c 0) ∧
          putsToken s.dev e x c 0 v.kind.toNat v.payload ∧ (e.slot t.toNat sl.toNat).left = (coverLeft x c.param).1) ∧
        unitsOnly s.dev e) ∧
    (s.dev.canFire t.toNat sl.toNat [11] = some (x, c) → s.dev.ready t.toNat x c 0 = some v →
      (bit c.param v.kind.toNat = false → s.dev.credit c 0 = true) →
      Does (.dropStaticFire t sl) s fun e =>
        takesHead s.dev e t.toNat c 0 ∧ (bit c.param v.kind.toNat = false → putsToken s.dev e x c 0 v.kind.toNat v.payload) ∧
        unitsOnly s.dev e) ∧
    (s.dev.canFire t.toNat sl.toNat [12] = some (x, c) → s.dev.ready t.toNat x c 0 = some v →
      (∀ o < c.outs.length, s.dev.credit c o = true) → c.outs.Nodup →
      Does (.forkFire t sl) s fun e =>
        takesHead s.dev e t.toNat c 0 ∧ (∀ o < c.outs.length, putsToken s.dev e x c o v.kind.toNat v.payload) ∧ unitsOnly s.dev e)) ∧
    (∀ (s : State) (t : TileId) (sl : SlotId) (who : Who), s.dev.live = true →
    (s.dev.fget F.TIL_DF_CTRL_STALL_LIMIT (tileAdd t.toNat) ≠ 0 → (s.dev.slot t.toNat sl.toNat).active.isSome = true →
      (s.dev.slot t.toNat sl.toNat).stalled = false →
      s.dev.fget F.TIL_DF_CTRL_STALL_LIMIT (tileAdd t.toNat) * s.dev.cyclesPerTick ≤ (s.dev.slot t.toNat sl.toNat).idle →
      Does (.stallLong t sl) s fun e =>
        e.fget F.TIL_DF_EVENT_STALL_LONG (tileAdd t.toNat) = 1 ∧
        e.slot t.toNat sl.toNat = { s.dev.slot t.toNat sl.toNat with stalled := true } ∧
        regsBut (evKeys E.TIL_DF_STALL_LONG (tileAdd t.toNat)) s.dev e ∧ e = { s.dev with regs := e.regs, slots := e.slots }) ∧
    ((s.dev.slot t.toNat sl.toNat).stalled = true → exec (.stallLong t sl) s = .next s) ∧
    (s.dev.mayWrite who (0x1004018 + tileAdd t.toNat) = true →
      Does (.cntClear who t 0) s fun e =>
        (∀ p ∈ tileCounters, ∀ o ∈ p.2, e.fget p.1 (tileAdd t.toNat + o) =
          if livesInCycle (p.1.off % 0x10000) then s.dev.thisCycle p.1 (tileAdd t.toNat + o) % 2 ^ p.1.w else 0) ∧
        (∀ v ∈ tileEvents, e.fget v.cnt (tileAdd t.toNat) =
          if livesInCycle (v.cnt.off % 0x10000) then s.dev.thisCycle v.cnt (tileAdd t.toNat) % 2 ^ v.cnt.w else 0) ∧ e.fget F.TIL_DF_CTRL_CNT_CLEAR (tileAdd t.toNat) = 0 ∧
        regsBut ((tileCounters.flatMap fun p => p.2.map fun o => p.1.key (tileAdd t.toNat + o)) ++
          (tileEvents.map fun v => v.cnt.key (tileAdd t.toNat)) ++ [F.TIL_DF_CTRL_CNT_CLEAR.key (tileAdd t.toNat)]) s.dev e ∧
        e = { s.dev with regs := e.regs }))

/-- R143, R146 and R147; the checks are the model's loadFrom. R148; the check of CONFIG is one of R397's. -/
def Obligations.LoadAndStagePutImagesInForce : Prop :=
  (∀ (s : State) (h : HalfId) (seq : Word) (src : List Byte) (fail : BitVec 8) (es : List RdErr) (e : Entry),
    s.dev.live = true → startable s.dev h seq.toNat 0x02 e → s.dev.step0.run = none → s.dev.step1.run = none →
    (s.dev.startEntry h seq.toNat).loadStateFirst h e = none →
    ∀ sc, sc = (if s.dev.split && e.source != 0 then (if h then Scope.east else .west) else .whole) →
    ∀ r, r = (s.dev.startEntry h seq.toNat).loadFrom h sc ⟨e.arg 24 1, e.arg 32 8, src, fail.toNat⟩ (e.arg 40 8)
      (if e.source = 0 then none else some e.tenant) es →
    (r.2 = none → Does (.load h seq src fail es) s fun d =>
      endedAs d h seq.toNat 3 stOk ∧ (∃ x, d.entry h seq.toNat = some x ∧ x.result = 0) ∧
      ∃ k i, d.image k = some i ∧ i.cur = 0 ∧ i.epoch = false) ∧
    (∀ phase x, r.2 = some (phase, x) → x.st ≠ stOk → Does (.load h seq src fail es) s fun d =>
      endedAs d h seq.toNat 4 x.st ∧ (∃ y, d.entry h seq.toNat = some y ∧ y.result = reportOf phase x % 2 ^ 128) ∧
      d.img0 = s.dev.img0 ∧ d.img1 = s.dev.img1 ∧ d.queues = s.dev.queues ∧ d.slots = s.dev.slots ∧ d.tiles = s.dev.tiles ∧
      d.half false = s.dev.half false ∧ d.half true = s.dev.half true)) ∧
    (∀ (s : State) (h : HalfId) (seq : Word) (e : Entry) (i : Image), s.dev.live = true → startable s.dev h seq.toNat 0x03 e →
    s.dev.image h = some i →
    (e.arg 24 1 < configCount i.bytes → e.arg 24 1 ≠ i.cur → Does (.stage h seq) s fun d =>
      endedAs d h seq.toNat 3 stOk ∧ d.image h = some { i with cur := e.arg 24 1, epoch := !i.epoch, prev := i.cur } ∧
      (∃ ms, d.net = { s.dev.net with cfg := s.dev.net.cfg ++ ms } ∧ ∀ m ∈ ms, m.num = e.arg 24 1 ∧ m.epoch = !i.epoch) ∧
      d = { s.dev with led0 := d.led0, led1 := d.led1, mg := d.mg, out := d.out, img0 := d.img0, img1 := d.img1, net := d.net }) ∧
    (configCount i.bytes ≤ e.arg 24 1 → Does (.stage h seq) s fun d =>
      endedAs d h seq.toNat 4 stCountRange ∧ d.image h = some i ∧ d.net = s.dev.net) ∧
    (e.arg 24 1 < configCount i.bytes → e.arg 24 1 = i.cur → Does (.stage h seq) s fun d =>
      endedAs d h seq.toNat 4 stWrongState ∧ d.image h = some i ∧ d.net = s.dev.net))

/-- R149, R151 and R152. R150, R153–R155; `drained` is the model's reading of "every firing has written its outputs". -/
def Obligations.ConfigurationMessagesAndUnitSwap : Prop :=
  (∀ (s : State) (t : TileId), s.dev.live = true →
    (∀ m c, s.dev.net.cfg.find? (fun m => m.tile == t.toNat) = some m → (s.dev.slot t.toNat m.slot).active = some c →
      c.live ≠ [] → (s.dev.slot t.toNat m.slot).shadow = none → m.epoch ≠ (s.dev.slot t.toNat m.slot).epoch → m.index = 0 →
      Does (.configMessage t) s fun e =>
        e.net.cfg = s.dev.net.cfg.erase m ∧
        (m.count = 1 → (e.slot t.toNat m.slot).shadow = some (cfgOf m.num [])) ∧
        (1 < m.count → (e.slot t.toNat m.slot).shadow = none ∧ (e.slot t.toNat m.slot).parts = [(0, m.body)]) ∧
        (e.slot t.toNat m.slot).active = some c ∧ e = { s.dev with net := e.net, slots := e.slots }) ∧
    (∀ m, s.dev.net.cfg.find? (fun m => m.tile == t.toNat) = some m → (s.dev.slot t.toNat m.slot).shadow.isSome = true →
      Does (.configMessage t) s fun e =>
        e.net.cfg = s.dev.net.cfg.erase m ∧ e.slots = s.dev.slots ∧ e.faults = s.dev.faults ++ [(tileHalf t.toNat, 2)]) ∧
    (∀ (q : QueueId) (k : Token), k.kind.toNat = kMark → k.seq.toNat = (s.dev.queue t.toNat q.toNat).seq →
      k.epoch = (s.dev.queue t.toNat q.toNat).epoch →
      (s.dev.queue t.toNat q.toNat).tokens.length < (s.dev.queue t.toNat q.toNat).depth →
      Does (.markArrival t q (some k)) s fun e =>
        (e.queue t.toNat q.toNat).tokens = (s.dev.queue t.toNat q.toNat).tokens ++ [k] ∧
        (e.queue t.toNat q.toNat).epoch = !(s.dev.queue t.toNat q.toNat).epoch ∧ (e.queue t.toNat q.toNat).seq = 0 ∧
        e = { s.dev with queues := e.queues }) ∧
    (∀ (sl : SlotId) (i : Fin 8) (c : Cfg) (k : Token), (s.dev.slot t.toNat sl.toNat).active = some c →
      s.dev.head t.toNat c i.val = some k → k.kind.toNat = kMark → (s.dev.slot t.toNat sl.toNat).closed.contains i.val = false →
      Does (.inputClose t sl i) s fun e =>
        takesHead s.dev e t.toNat c i.val ∧
        e.slot t.toNat sl.toNat =
          { s.dev.slot t.toNat sl.toNat with
            closed := (s.dev.slot t.toNat sl.toNat).closed ++ [i.val]
            marks := (s.dev.slot t.toNat sl.toNat).marks ++ [bits k.payload.toNat 0 8] } ∧
        e = { s.dev with queues := e.queues, slots := e.slots })) ∧
    (∀ (s : State) (t : TileId) (sl : SlotId) (x : Slot) (c n : Cfg), s.dev.live = true → x = s.dev.slot t.toNat sl.toNat →
    x.active = some c → x.shadow = some n → c.cls ≠ 3 → (∀ i ∈ c.live, x.closed.contains i = true) →
    x.fired = false → (n.cls = 0 → s.dev.heldElsewhere t.toNat sl.toNat n = false) →
    s.dev.drained t.toNat sl.toNat x c = true → (∀ o < c.outs.length, s.dev.credit c o = true) →
    (∀ o p, o < c.outs.length → p < c.outs.length → o ≠ p → (c.outs[o]?).getD none ≠ none →
      (c.outs[o]?).getD none ≠ (c.outs[p]?).getD none) →
    ((∀ k ∈ x.marks, k = n.num) → Does (.unitSwap t sl) s fun e =>
      (∀ o < c.outs.length, putsToken s.dev e x c o kMark (BitVec.ofNat 512 n.num)) ∧
      (e.slot t.toNat sl.toNat).active = (if n.cls = 255 then none else some n) ∧
      (e.slot t.toNat sl.toNat).epoch = !x.epoch ∧ (e.slot t.toNat sl.toNat).shadow = none ∧
      (e.slot t.toNat sl.toNat).closed = [] ∧ memSame s.dev e) ∧
    ((∃ k ∈ x.marks, k ≠ n.num) → Does (.unitSwap t sl) s fun e =>
      e.slots = s.dev.slots ∧ e.queues = s.dev.queues ∧ e.faults = s.dev.faults ++ [(tileHalf t.toNat, 2)]))

/-- R163 and R164; R160 for the order of a walk. R164 and R180; the completion token's payload is free (the log's entry on it). -/
def Obligations.WalksStartAndEnd : Prop :=
  (∀ (s : State) (t : TileId) (sl : SlotId) (x : Slot) (c : Cfg), s.dev.live = true →
    s.dev.canFire t.toNat sl.toNat [2, 3] = some (x, c) → x.walk = none → (c.hasStart = false → x.walked = false) →
    (c.hasStart = true → (s.dev.ready t.toNat x c c.startIn).isSome = true) →
    (c.hasGate = true → (s.dev.ready t.toNat x c c.gateIn).isSome = true) →
    (c.hasStart = true → c.hasGate = true → c.inq c.startIn ≠ c.inq c.gateIn) →
    Does (.streamWalkStart t sl) s fun e =>
      (c.hasStart = true → takesHead s.dev e t.toNat c c.startIn) ∧ (c.hasGate = true → takesHead s.dev e t.toNat c c.gateIn) ∧
      (∃ w, (e.slot t.toNat sl.toNat).walk = some w ∧ w.ahead = [] ∧ w.rows = 0 ∧
        w.idx = (if c.levels = 0 ∨ ∃ l < c.levels, c.lcount l = 0 then none else some (List.replicate c.levels 0)) ∧
        ((∃ k, (s.dev.ready t.toNat x c c.startIn = some k ∧ c.hasStart = true ∨
            s.dev.ready t.toNat x c c.gateIn = some k ∧ c.hasGate = true) ∧ k.kind.toNat = kPoison) →
          w.fault = true ∧ e.fget F.TIL_SE_EVENT_WALK_FAULT (tileAdd t.toNat) = 1)) ∧
      e.fget F.TIL_SE_STATUS_ACTIVE (tileAdd t.toNat + 32 * c.engine) = 1 ∧ unitsOnly s.dev e) ∧
    (∀ (s : State) (t : TileId) (sl : SlotId) (x : Slot) (c : Cfg) (w : Walk), s.dev.live = true →
    x = s.dev.slot t.toNat sl.toNat → x.active = some c → x.walk = some w → x.shadow = none → w.ahead = [] →
    (walkStep s.dev t.toNat c (c.iters + 1) w).1.1 = none → (walkStep s.dev t.toNat c (c.iters + 1) w).2.ahead = [] →
    (c.cls = 2 → Does (.streamWalkEnd t sl) s fun e =>
      (e.slot t.toNat sl.toNat).walk = none ∧ (e.slot t.toNat sl.toNat).walked = true ∧
      e.fget F.TIL_SE_STATUS_ACTIVE (tileAdd t.toNat + 32 * c.engine) = 0 ∧ unitsOnly s.dev e) ∧
    (c.cls = 3 → s.dev.credit c 0 = true → ((c.outs[0]?).getD none ≠ none → (s.dev.canFire t.toNat sl.toNat [3]).isSome = true) → s.dev.unanswered t.toNat sl.toNat = false →
      s.dev.sendItem t.toNat sl.toNat = none → s.dev.fab.failed.contains (slotKey t.toNat sl.toNat) = false →
      Does (.streamWalkEnd t sl) s fun e =>
        (e.slot t.toNat sl.toNat).walk = none ∧ e.fget F.TIL_SE_STATUS_ACTIVE (tileAdd t.toNat + 32 * c.engine) = 0 ∧
        ((c.outs[0]?).getD none ≠ none → ∃ v, putsToken s.dev e x c 0 (if w.fault then kPoison else kData) v) ∧ memSame s.dev e))

/-- R165; R237 for poison, R3 for the byte order. R165, R159 and R237: a POISON token is stored as eight poison words. -/
def Obligations.RowsAreFetchedSentAndStored : Prop :=
  (∀ (s : State) (t : TileId) (sl : SlotId) (x : Slot) (c : Cfg) (w : Walk), s.dev.live = true →
    x = s.dev.slot t.toNat sl.toNat → x.active = some c → x.walk = some w → s.dev.isFar c = false →
    (∀ a m, c.cls = 2 → s.dev.rowCredit c w = true → w.fetched < c.sd 5 1 * 64 →
      (walkStep s.dev t.toNat c (c.iters + 1) w).1.1 = some (a, m) →
      Does (.rowFetch t sl) s fun e =>
        (∃ v, (e.slot t.toNat sl.toNat).walk =
          some { (walkStep s.dev t.toNat c (c.iters + 1) w).2 with
            ahead := (walkStep s.dev t.toNat c (c.iters + 1) w).2.ahead ++ [.row a.toNat m v] } ∧
          (w.fault = false → v = if m then some (0, false) else none) ∧ (w.fault = true → v = some (0, true))) ∧
        e = { s.dev with regs := e.regs, slots := e.slots }) ∧
    (∀ k a, flightAddr k w.ahead = some a → a % 8 = 0 → s.dev.anyPoison a 64 = false →
      Does (.memoryRowReturn t sl k []) s fun e =>
        (e.slot t.toNat sl.toNat).walk = some { w with ahead := fillRow (rowOf (memBytes s.dev.mem a 64), false) k w.ahead } ∧
        memSame s.dev e ∧ e = { s.dev with regs := e.regs, slots := e.slots, tiles := e.tiles }) ∧
    (∀ k a, flightAddr k w.ahead = some a → a % 8 = 0 → (∃ i < 8, s.dev.isPoison (a + 8 * i) = true) →
      Does (.memoryRowReturn t sl k []) s fun e =>
        (∃ v, (e.slot t.toNat sl.toNat).walk = some { w with ahead := fillRow (v, true) k w.ahead }) ∧ memSame s.dev e)) ∧
    (∀ (s : State) (t : TileId) (sl : SlotId) (x : Slot) (c : Cfg) (w : Walk), s.dev.live = true → x.walk = some w →
    w.fault = false →
    (∀ a m v p l o, s.dev.canFire t.toNat sl.toNat [2] = some (x, c) → w.ahead = .row a m (some (v, p)) :: l →
      c.fieldFeed = false → c.portOf 0 = some o → s.dev.credit c o = true →
      ∀ scale errs, Does (.streamReaderFire t sl scale errs) s fun e =>
        putsToken s.dev e x c o (if p then kPoison else kData) v ∧ (e.slot t.toNat sl.toNat).walk = some { w with ahead := l } ∧
        (e.slot t.toNat sl.toNat).fired = true ∧ unitsOnly s.dev e) ∧
    (∀ k a, s.dev.canFire t.toNat sl.toNat [3] = some (x, c) → s.dev.ready t.toNat x c 0 = some k →
      (walkStep s.dev t.toNat c (c.iters + 1) w).1.1 = some (a, false) → a.toNat % 64 = 0 → s.dev.sendItem t.toNat sl.toNat = none →
      s.dev.isFar c = false → k.kind.toNat ≠ kVoid →
      Does (.streamWriterFire t sl) s fun e =>
        takesHead s.dev e t.toNat c 0 ∧
        (k.kind.toNat ≠ kPoison → memBytes e.mem a.toNat 64 = rowBytes k.payload ∧ e.anyPoison a.toNat 64 = false) ∧
        (k.kind.toNat = kPoison → ∀ i < 8, e.isPoison (a.toNat + 8 * i) = true) ∧ memBut a.toNat (a.toNat + 64) s.dev e ∧
        e = { s.dev with regs := e.regs, mem := e.mem, poison := e.poison, queues := e.queues, slots := e.slots, tiles := e.tiles }))

/-- R175's three outcomes, R176's order and R177's poisoned word. -/
def Obligations.TillAddsSaturatesOrExhausts : Prop :=
  ∀ (s : State) (t : TileId) (q : TillReq) (word : Nat), s.dev.live = true →
    tillPick (s.dev.tile t.toNat).arb (s.dev.tillQueue t.toNat) = some q → (s.dev.tile t.toNat).tillBusy = false →
    q.addr % 8 = 0 → word = leNat (memBytes s.dev.mem q.addr 8) →
    (s.dev.isPoison q.addr = false → Does (.tillRequest t .none) s fun e =>
      e.net.till = (s.dev.net.till.map fun z => if z = q then
        { q with
          reply := some (word, decide (q.limit ≤ word), decide (word < q.limit ∧ 2 ^ 64 ≤ word + q.addend), false)
          seq := s.dev.net.next } else z) ∧
      (q.limit ≤ word → e.mem = s.dev.mem) ∧
      (word < q.limit → leNat (memBytes e.mem q.addr 8) = min (word + q.addend) (2 ^ 64 - 1)) ∧
      (word < q.limit → 2 ^ 64 ≤ word + q.addend → e.fget F.TIL_TILL_EVENT_SATURATED (tileAdd t.toNat) = 1) ∧
      memBut q.addr (q.addr + 8) s.dev e ∧
      (e.tile t.toNat).tillBusy = true ∧
      (e.tile t.toNat).arb = (if 1 < (s.dev.tillQueue t.toNat).length then q.tile else (s.dev.tile t.toNat).arb) ∧
      e = { s.dev with
        regs := e.regs, mem := e.mem, poison := e.poison, tiles := e.tiles
        net := { s.dev.net with till := e.net.till, next := s.dev.net.next + 1 } }) ∧
    (s.dev.isPoison q.addr = true → Does (.tillRequest t .none) s fun e =>
      (∃ old, e.net.till = s.dev.net.till.map fun z => if z = q then
        { q with reply := some (old, true, false, true), seq := s.dev.net.next } else z) ∧
      e.fget F.TIL_TILL_EVENT_POISONED (tileAdd t.toNat) = 1 ∧ memSame s.dev e)

/-- R109's rotation, R186's lowest group, R201's counter, R216's VSETE in the same cycle. R187: firings leave in order; R113 for the kind. -/
def Obligations.VectorFiringAndOutput : Prop :=
  (∀ (s : State) (t : TileId) (sl : SlotId) (vs : Option Word) (x : Slot) (c : Cfg) (g : Nat), s.dev.live = true →
    s.dev.canFire t.toNat sl.toNat [1] = some (x, c) → (s.dev.tile t.toNat).freeGroup = some g → 0 < c.vlen →
    s.dev.vxTurn t.toNat sl.toNat = true →
    (∀ i ∈ c.live, (s.dev.ready t.toNat x c i).isSome = true) → (∀ o < c.outs.length, s.dev.credit c o = true) →
    (∀ i ∈ c.live, ∀ j ∈ c.live, i ≠ j → c.inq i ≠ c.inq j) →
    Does (.vectorFire t sl vs) s fun e =>
      (∃ f, fmGet (e.tile t.toNat).groups g = some f ∧ f.slot = sl.toNat ∧ f.num = x.vx.issued ∧ f.pc = 0 ∧ f.trans = [] ∧
        f.ins = ((List.range c.ins.length).map fun i => ((s.dev.ready t.toNat x c i).map (·.payload)).getD 0) ∧
        (f.poison = true ↔ ∃ i < c.ins.length, ∃ k, s.dev.ready t.toNat x c i = some k ∧ k.kind.toNat = kPoison)) ∧
      (∀ g' < g, fmGet (s.dev.tile t.toNat).groups g' ≠ none) ∧ (∀ i ∈ c.live, takesHead s.dev e t.toNat c i) ∧
      (e.slot t.toNat sl.toNat).vx.issued = x.vx.issued + 1 ∧
      (e.slot t.toNat sl.toNat).vx.elem =
        (match vs with | some n => n.toNat | none => (x.vx.elem + c.firingElems) % 2 ^ 64) ∧
      (e.slot t.toNat sl.toNat).fired = true ∧
      e.fget F.TIL_VX_ISSUED_COUNT (tileAdd t.toNat) = min (s.dev.fget F.TIL_VX_ISSUED_COUNT (tileAdd t.toNat) + 1) (2 ^ 64 - 1) ∧
      e = { s.dev with regs := e.regs, queues := e.queues, tiles := e.tiles, slots := e.slots }) ∧
    (∀ (s : State) (t : TileId) (sl : SlotId) (x : Slot) (c : Cfg) (kind : Nat) (outs : List Row), s.dev.live = true →
    x = s.dev.slot t.toNat sl.toNat → x.active = some c → fmGet x.vx.done x.vx.output = some (kind, outs) →
    outs.length = c.outs.length →
    (∀ o p, o < c.outs.length → p < c.outs.length → o ≠ p → (c.outs[o]?).getD none ≠ none →
      (c.outs[o]?).getD none ≠ (c.outs[p]?).getD none) →
    Does (.vectorOutput t sl) s fun e =>
      (∀ o v u q, outs[o]? = some v → (c.outs[o]?).getD none = some (u, q) →
        (e.queue u q).flight =
          (s.dev.queue u q).flight ++ [⟨BitVec.ofNat 3 kind, x.epoch, BitVec.ofNat 12 ((fmGet x.seqs o).getD 0), if kind = kVoid then 0 else v⟩]) ∧
      (e.slot t.toNat sl.toNat).vx.output = x.vx.output + 1 ∧ fmGet (e.slot t.toNat sl.toNat).vx.done x.vx.output = none ∧
      unitsOnly s.dev e)

/-- Table 8-4's elementwise rows (`velem`), R188 for what executing an instruction leaves. Table 8-4 by the exact integers, narrowed at the end. -/
def Obligations.ElementwiseAndIntegerVectorOperations : Prop :=
  (∀ (s : State) (t : TileId) (g : GroupId) (k : Instr) (op : Nat) (f : VFire) (c : Cfg) (i : VIns), s.dev.live = true →
    (k, op) ∈ [(Instr.vxAdd t g, 0x01), (.vxSub t g, 0x02), (.vxMul t g, 0x03), (.vxFma t g, 0x04), (.vxMax t g, 0x05),
      (.vxMin t g, 0x06), (.vxAbs t g, 0x07), (.vxNeg t g, 0x08), (.vxExp2 t g, 0x09), (.vxLog2 t g, 0x0A), (.vxRcp t g, 0x0B),
      (.vxRsqrt t g, 0x0C), (.vxCmpeq t g, 0x0D), (.vxCmplt t g, 0x0E), (.vxCmple t g, 0x0F), (.vxSel t g, 0x10),
      (.vxAnd t g, 0x11), (.vxOr t g, 0x12), (.vxXor t g, 0x13), (.vxShl t g, 0x14), (.vxShr t g, 0x15), (.vxSar t g, 0x16),
      (.vxIadd t g, 0x17), (.vxIsub t g, 0x18), (.vxImul t g, 0x19), (.vxImax t g, 0x1A), (.vxImin t g, 0x1B)] →
    s.dev.vnext t.toNat g.toNat op = some (f, c, i) →
    Does k s fun e =>
      (∃ r, vxExecuted e t.toNat g.toNat f c i f.outs r ∧
        elems i.ty r =
          (((elems i.ty (f.src i.a)).zip ((elems i.ty (f.src i.b)).zip (elems i.ty (f.src i.c)))).map
            fun x => velem i.ty op x.1 x.2.1 x.2.2 % 2 ^ elemW i.ty) ∧
        (∀ fm, tyFmt i.ty = some fm → floatResult op = true → (∃ y ∈ elems i.ty r, nonfinite fm y = true) →
          e.fget F.TIL_VX_EVENT_NONFINITE (tileAdd t.toNat) = 1)) ∧
      engineOnly s.dev e) ∧
    (∀ (ty a b c : Nat), a < 2 ^ elemW ty → b < 2 ^ elemW ty → c < 2 ^ elemW ty →
    velem ty 0x17 a b c = (a + b) % 2 ^ elemW ty ∧
    velem ty 0x18 a b c = (a + 2 ^ elemW ty - b) % 2 ^ elemW ty ∧
    velem ty 0x19 a b c = a * b % 2 ^ elemW ty ∧
    velem ty 0x11 a b c = a &&& b ∧ velem ty 0x12 a b c = a ||| b ∧ velem ty 0x13 a b c = a ^^^ b ∧
    velem ty 0x14 a b c = a * 2 ^ (b % elemW ty) % 2 ^ elemW ty ∧ velem ty 0x15 a b c = a / 2 ^ (b % elemW ty) ∧
    velem ty 0x10 a b c = (if c = 0 then b else a) ∧
    (ty = 3 →
      velem ty 0x0D a b c = (if a = b then 2 ^ 32 - 1 else 0) ∧
      velem ty 0x0E a b c = (if (BitVec.ofNat 32 a).toInt < (BitVec.ofNat 32 b).toInt then 2 ^ 32 - 1 else 0) ∧
      velem ty 0x0F a b c = (if (BitVec.ofNat 32 a).toInt ≤ (BitVec.ofNat 32 b).toInt then 2 ^ 32 - 1 else 0) ∧
      velem ty 0x08 a b c = (2 ^ 32 - a) % 2 ^ 32))

/-- R196's parts, R198's scale, R200's random word by element index. -/
def Obligations.OutIotaAndConversions : Prop :=
  ∀ (s : State) (t : TileId) (g : GroupId) (f : VFire) (c : Cfg) (i : VIns), s.dev.live = true →
    (s.dev.vnext t.toNat g.toNat 0x1E = some (f, c, i) → i.part = 0 → i.b < f.outs.length →
      Does (.vxOut t g) s fun e =>
        vxExecuted e t.toNat g.toNat f c i (f.outs.set i.b (f.src i.a)) (f.src i.a) ∧ engineOnly s.dev e) ∧
    (s.dev.vnext t.toNat g.toNat 0x1F = some (f, c, i) →
      Does (.vxIota t g) s fun e =>
        (∃ r, vxExecuted e t.toNat g.toNat f c i f.outs r ∧
          elems 3 r = (List.range 16).map fun p => (f.elem + p) % 2 ^ 32) ∧
        engineOnly s.dev e) ∧
    (s.dev.vnext t.toNat g.toNat 0x1C = some (f, c, i) → (cfmt i.c).mx = false →
      Does (.vxCvti t g) s fun e =>
        (∃ r, vxExecuted e t.toNat g.toNat f c i f.outs r ∧
          ∀ j < 512 / elemW i.ty, (elems i.ty r)[j]? =
            some ((toTy i.ty ((cfmt i.c).val (bits (f.src i.a).toNat ((cfmt i.c).width * (i.part * (512 / elemW i.ty) + j)) (cfmt i.c).width))
              (rndOf i.rnd (randomWord c.vtensor (s.dev.fget F.TIL_VX_STEP_STEP (tileAdd t.toNat))
                (s.dev.fget F.TIL_VX_SEED_SEED (tileAdd t.toNat)) (f.elem + j)))).1 % 2 ^ elemW i.ty)) ∧
        engineOnly s.dev e) ∧
    (s.dev.vnext t.toNat g.toNat 0x1D = some (f, c, i) →
      Does (.vxCvto t g) s fun e =>
        (∃ outs, vxExecuted e t.toNat g.toNat f c i outs (f.src i.a) ∧ outs.length = f.outs.length ∧
          ∀ p, p ≠ i.b → ((cfmt i.c).mx = true → p ≠ i.b + 1) → outs[p]? = f.outs[p]?) ∧
        engineOnly s.dev e)

/-- R203 and R204 for RED, R205 for the row statistics of Table 8-4. -/
def Obligations.ReductionsAndRowStatistics : Prop :=
  ∀ (s : State) (t : TileId) (g : GroupId) (f : VFire) (c : Cfg) (i : VIns), s.dev.live = true →
    (s.dev.vnext t.toNat g.toNat 0x20 = some (f, c, i) → f.span + 1 ≠ c.vspan →
      Does (.vxRed t g) s fun e =>
        (∃ p, p.at_ = f.span ∧ fmGet (e.slot t.toNat f.slot).vx.parts f.pc =
          some ((fmGet (s.dev.slot t.toNat f.slot).vx.parts f.pc).getD [] ++ [p])) ∧
        vxExecuted e t.toNat g.toNat f c i f.outs 0 ∧ engineOnly s.dev e) ∧
    (s.dev.vnext t.toNat g.toNat 0x20 = some (f, c, i) → f.span + 1 = c.vspan →
      Does (.vxRed t g) s fun e =>
        fmGet (e.slot t.toNat f.slot).vx.parts f.pc = none ∧
        (∃ r v, vxExecuted e t.toNat g.toNat f c i f.outs r ∧ ∀ y ∈ elems i.ty r, y = v % 2 ^ elemW i.ty) ∧
        e = { s.dev with regs := e.regs, tiles := e.tiles, slots := e.slots, free := e.free }) ∧
    (s.dev.vnext t.toNat g.toNat 0x24 = some (f, c, i) → f.void = false →
      Does (.vxRsm t g) s fun e =>
        (e.vrow t.toNat f i).2.l = (s.dev.vrow t.toNat f i).2.l ∧
        (bit i.part 0 = true → (e.vrow t.toNat f i).2.f = 0x3F800000 ∧
          (e.vrow t.toNat f i).2.m = (if f.lane0 i = fp32.infinity true then fp32.infinity true
            else fmax fp32 true (fp32.infinity true) (f.lane0 i))) ∧
        (bit i.part 0 = false → (e.vrow t.toNat f i).2.m = (if f.lane0 i = fp32.infinity true then (s.dev.vrow t.toNat f i).2.m
            else fmax fp32 true (s.dev.vrow t.toNat f i).2.m (f.lane0 i))) ∧
        (∀ r, r ≠ (s.dev.vrow t.toNat f i).1 →
          fmGet (e.slot t.toNat f.slot).vx.rows r = fmGet (s.dev.slot t.toNat f.slot).vx.rows r) ∧ engineOnly s.dev e) ∧
    (s.dev.vnext t.toNat g.toNat 0x26 = some (f, c, i) → f.void = false →
      Does (.vxRsl t g) s fun e =>
        (e.vrow t.toNat f i).2.l = (if bit i.part 0 then f.lane0 i
          else fp32.rne (((fp32.val (s.dev.vrow t.toNat f i).2.l).mul (fp32.val (s.dev.vrow t.toNat f i).2.f)).add
            (fp32.val (f.lane0 i)))) ∧
        (e.vrow t.toNat f i).2.m = (s.dev.vrow t.toNat f i).2.m ∧ (e.vrow t.toNat f i).2.f = (s.dev.vrow t.toNat f i).2.f ∧
        engineOnly s.dev e) ∧
    (s.dev.vnext t.toNat g.toNat 0x25 = some (f, c, i) →
      Does (.vxRsf t g) s fun e =>
        (∃ r, vxExecuted e t.toNat g.toNat f c i f.outs r ∧
          ∀ y ∈ elems i.ty r, y = (toTy i.ty (fp32.val (s.dev.vrow t.toNat f i).2.f) .rne).1 % 2 ^ elemW i.ty) ∧
        (e.slot t.toNat f.slot).vx.rows = (s.dev.slot t.toNat f.slot).vx.rows ∧ engineOnly s.dev e) ∧
    (s.dev.vnext t.toNat g.toNat 0x27 = some (f, c, i) →
      Does (.vxRsget t g) s fun e =>
        (∃ r, vxExecuted e t.toNat g.toNat f c i f.outs r ∧
          ∀ y ∈ elems i.ty r, y = (toTy i.ty (fp32.val (if bit i.part 0 then (s.dev.vrow t.toNat f i).2.l
            else (s.dev.vrow t.toNat f i).2.m)) .rne).1 % 2 ^ elemW i.ty) ∧
        (e.slot t.toNat f.slot).vx.rows = (s.dev.slot t.toNat f.slot).vx.rows ∧ engineOnly s.dev e)

/-- Table 8-4 whole: no operand of a vector instruction stops it (R187, R188). -/
def Obligations.EveryVectorInstructionCompletes : Prop :=
  ∀ (s : State) (t : TileId) (g : GroupId) (k : Instr) (op : Nat) (f : VFire) (c : Cfg) (i : VIns), s.dev.live = true →
    (k, op) ∈ [(Instr.vxAdd t g, 0x01), (.vxSub t g, 0x02), (.vxMul t g, 0x03), (.vxFma t g, 0x04), (.vxMax t g, 0x05),
      (.vxMin t g, 0x06), (.vxAbs t g, 0x07), (.vxNeg t g, 0x08), (.vxExp2 t g, 0x09), (.vxLog2 t g, 0x0A), (.vxRcp t g, 0x0B),
      (.vxRsqrt t g, 0x0C), (.vxCmpeq t g, 0x0D), (.vxCmplt t g, 0x0E), (.vxCmple t g, 0x0F), (.vxSel t g, 0x10),
      (.vxAnd t g, 0x11), (.vxOr t g, 0x12), (.vxXor t g, 0x13), (.vxShl t g, 0x14), (.vxShr t g, 0x15), (.vxSar t g, 0x16),
      (.vxIadd t g, 0x17), (.vxIsub t g, 0x18), (.vxImul t g, 0x19), (.vxImax t g, 0x1A), (.vxImin t g, 0x1B),
      (.vxCvti t g, 0x1C), (.vxCvto t g, 0x1D), (.vxOut t g, 0x1E), (.vxIota t g, 0x1F), (.vxRed t g, 0x20), (.vxRsm t g, 0x24),
      (.vxRsf t g, 0x25), (.vxRsl t g, 0x26), (.vxRsget t g, 0x27)] →
    s.dev.vnext t.toNat g.toNat op = some (f, c, i) →
    ∃ t', Sys2Proof.Machine.exec k s = .next t' ∧ t'.pending = s.pending ∧
      (∃ outs r, vxExecuted t'.dev t.toNat g.toNat f c i outs r) ∧
      t'.dev = { s.dev with regs := t'.dev.regs, tiles := t'.dev.tiles, slots := t'.dev.slots, free := t'.dev.free }

/-- Table 8-9's integer and immediate groups; R212 for poison, R206 for s0. Shift counts of 64 and more: the result is a free value
(the log's entry on them). -/
def Obligations.ControlCoreIntegerGroups : Prop :=
  ∀ (s : State) (t : TileId) (sl : SlotId) (x : Slot) (c : Cfg) (w : Nat), s.dev.live = true →
    ∀ (a b : Nat × Bool) (m : Nat), a = x.cc.get (ccRs1 w) → b = x.cc.get (ccRs2 w) → m = (ccImm w % 2 ^ 64).toNat →
    (∀ p ∈ ([(.ccAdd t sl, 0x00, a.1 + b.1), (.ccSub t sl, 0x01, a.1 + 2 ^ 64 - b.1), (.ccAnd t sl, 0x02, a.1 &&& b.1),
        (.ccOr t sl, 0x03, a.1 ||| b.1), (.ccXor t sl, 0x04, a.1 ^^^ b.1),
        (.ccSlt t sl, 0x08, if Cfg.lstride.toIntN 64 a.1 < Cfg.lstride.toIntN 64 b.1 then 1 else 0),
        (.ccSltu t sl, 0x09, if a.1 < b.1 then 1 else 0), (.ccMul t sl, 0x0A, a.1 * b.1),
        (.ccMulhu t sl, 0x0B, a.1 * b.1 / 2 ^ 64), (.ccMinu t sl, 0x0C, min a.1 b.1), (.ccMaxu t sl, 0x0D, max a.1 b.1)] :
        List (Instr × Nat × Nat)), s.dev.ccNext t.toNat sl.toNat p.2.1 = some (x, c, w) →
      Does p.1 s fun e => ∃ y, ccIssues s.dev e t.toNat sl.toNat y ∧
        ccWrote x.cc y (ccRd w) (p.2.2 % 2 ^ 64) (a.2 || b.2) (x.cc.pc + 4)
          (if p.2.1 = 0x0A then .cycles 2 else x.cc.wait) ∧ ccQuiet s.dev e t.toNat) ∧
    (∀ p ∈ ([(.ccAddi t sl, 0x10, a.1 + m), (.ccAndi t sl, 0x11, a.1 &&& m), (.ccOri t sl, 0x12, a.1 ||| m),
        (.ccXori t sl, 0x13, a.1 ^^^ m)] : List (Instr × Nat × Nat)), s.dev.ccNext t.toNat sl.toNat p.2.1 = some (x, c, w) →
      Does p.1 s fun e => ∃ y, ccIssues s.dev e t.toNat sl.toNat y ∧
        ccWrote x.cc y (ccRd w) (p.2.2 % 2 ^ 64) a.2 (x.cc.pc + 4) ∧ ccQuiet s.dev e t.toNat) ∧
    (∀ p ∈ ([(.ccSll t sl, 0x05, b.1, a.1 * 2 ^ b.1, a.2 || b.2), (.ccSrl t sl, 0x06, b.1, a.1 / 2 ^ b.1, a.2 || b.2),
        (.ccSra t sl, 0x07, b.1, (Cfg.lstride.toIntN 64 a.1 / 2 ^ b.1 % 2 ^ 64).toNat, a.2 || b.2),
        (.ccSlli t sl, 0x14, m, a.1 * 2 ^ m, a.2), (.ccSrli t sl, 0x15, m, a.1 / 2 ^ m, a.2),
        (.ccSrai t sl, 0x16, m, (Cfg.lstride.toIntN 64 a.1 / 2 ^ m % 2 ^ 64).toNat, a.2)] : List (Instr × Nat × Nat × Nat × Bool)),
      s.dev.ccNext t.toNat sl.toNat p.2.1 = some (x, c, w) →
      Does p.1 s fun e => ∃ y v, ccIssues s.dev e t.toNat sl.toNat y ∧ (p.2.2.1 < 64 → v = p.2.2.2.1 % 2 ^ 64) ∧ v < 2 ^ 64 ∧
        ccWrote x.cc y (ccRd w) v p.2.2.2.2 (x.cc.pc + 4) ∧ ccQuiet s.dev e t.toNat)

/-- Table 8-9's flow group, LDC, CSRR and WAITT. -/
def Obligations.ControlCoreFlowConstantsAndWaits : Prop :=
  ∀ (s : State) (t : TileId) (sl : SlotId) (x : Slot) (c : Cfg) (w : Nat), s.dev.live = true →
    (∀ (a b : Nat × Bool), a = x.cc.get (bits w 8 5) → b = x.cc.get (bits w 13 5) → a.2 = false → b.2 = false →
      ∀ p ∈ ([(.ccBeq t sl, 0x20, decide (a.1 = b.1)), (.ccBne t sl, 0x21, decide (a.1 ≠ b.1)),
        (.ccBlt t sl, 0x22, decide (Cfg.lstride.toIntN 64 a.1 < Cfg.lstride.toIntN 64 b.1)),
        (.ccBge t sl, 0x23, decide (Cfg.lstride.toIntN 64 b.1 ≤ Cfg.lstride.toIntN 64 a.1)),
        (.ccBltu t sl, 0x24, decide (a.1 < b.1)), (.ccBgeu t sl, 0x25, decide (b.1 ≤ a.1)),
        (.ccBex t sl, 0x28, x.cc.ex), (.ccBnex t sl, 0x29, !x.cc.ex)] : List (Instr × Nat × Bool)),
      s.dev.ccNext t.toNat sl.toNat p.2.1 = some (x, c, w) →
      Does p.1 s fun e =>
        ccIssues s.dev e t.toNat sl.toNat
          { x.cc with pc := if p.2.2 then ((x.cc.pc : Int) + 4 * ccImm w).toNat else x.cc.pc + 4 } ∧ ccQuiet s.dev e t.toNat) ∧
    (s.dev.ccNext t.toNat sl.toNat 0x26 = some (x, c, w) →
      Does (.ccJal t sl) s fun e => ∃ y, ccIssues s.dev e t.toNat sl.toNat y ∧
        ccWrote x.cc y (ccRd w) ((x.cc.pc + 4) % 2 ^ 64) false ((x.cc.pc : Int) + 4 * ccImm w).toNat ∧ ccQuiet s.dev e t.toNat) ∧
    (∀ v, s.dev.ccNext t.toNat sl.toNat 0x27 = some (x, c, w) → x.cc.get (ccRs1 w) = (v, false) →
      (s.dev.tile t.toNat).isInstr (v + 4 * ccImm w) = true →
      Does (.ccJalr t sl) s fun e => ∃ y, ccIssues s.dev e t.toNat sl.toNat y ∧
        ccWrote x.cc y (ccRd w) ((x.cc.pc + 4) % 2 ^ 64) false (v + 4 * ccImm w).toNat ∧ ccQuiet s.dev e t.toNat) ∧
    (∀ p ∈ ([(.ccLdc t sl, 0x17, true, leAt (s.dev.tile t.toNat).code (8 * ccImm w).toNat 8),
        (.ccCsrr t sl, 0x55, bits w 18 14 == 0, s.dev.now), (.ccCsrr t sl, 0x55, bits w 18 14 == 4, t.toNat),
        (.ccCsrr t sl, 0x55, bits w 18 14 == 5, s.dev.fget F.DEV_FABRIC_ID)] : List (Instr × Nat × Bool × Nat)),
      s.dev.ccNext t.toNat sl.toNat p.2.1 = some (x, c, w) → p.2.2.1 = true →
      Does p.1 s fun e => ∃ y, ccIssues s.dev e t.toNat sl.toNat y ∧
        ccWrote x.cc y (ccRd w) (p.2.2.2 % 2 ^ 64) false (x.cc.pc + 4) ∧ ccQuiet s.dev e t.toNat) ∧
    (∀ v, s.dev.ccNext t.toNat sl.toNat 0x63 = some (x, c, w) → x.cc.get (ccRs1 w) = (v, false) →
      Does (.ccWaitt t sl) s fun e =>
        ccIssues s.dev e t.toNat sl.toNat { x.cc with pc := x.cc.pc + 4, wait := if v ≤ s.dev.now then x.cc.wait else .tally v } ∧
        ccQuiet s.dev e t.toNat) ∧
    (∀ v, (s.dev.slot t.toNat sl.toNat).cc.wait = .tally v →
      Does (.waittRelease t sl) s fun e =>
        (e.slot t.toNat sl.toNat).cc = { (s.dev.slot t.toNat sl.toNat).cc with wait := if v ≤ s.dev.now then .none else .tally v } ∧
        e = { s.dev with slots := e.slots })

/-- R213: every case, with what the instruction leaves alone. -/
def Obligations.ControlCoreFaultsStopTheOperator : Prop :=
  ∀ (s : State) (t : TileId) (sl : SlotId) (x : Slot) (c : Cfg) (w : Nat), s.dev.live = true →
    (∀ p ∈ ([(.ccBeq t sl, 0x20), (.ccBne t sl, 0x21), (.ccBlt t sl, 0x22), (.ccBge t sl, 0x23), (.ccBltu t sl, 0x24),
        (.ccBgeu t sl, 0x25)] : List (Instr × Nat)), s.dev.ccNext t.toNat sl.toNat p.2 = some (x, c, w) →
      ((x.cc.get (bits w 8 5)).2 = true ∨ (x.cc.get (bits w 13 5)).2 = true) →
      Does p.1 s fun e => ccStops s.dev e t.toNat sl.toNat E.TIL_CC_POISON_USE) ∧
    (∀ p ∈ ([(.ccJalr t sl, 0x27), (.ccLd t sl .none, 0x30), (.ccSt t sl, 0x31), (.ccTill t sl, 0x32), (.ccExtw t sl, 0x51),
        (.ccVsete t sl, 0x52), (.ccStage t sl, 0x53), (.ccWaitt t sl, 0x63)] : List (Instr × Nat)),
      s.dev.ccNext t.toNat sl.toNat p.2 = some (x, c, w) → (x.cc.get (ccRs1 w)).2 = true →
      Does p.1 s fun e => ccStops s.dev e t.toNat sl.toNat E.TIL_CC_POISON_USE) ∧
    (∀ p ∈ ([(.ccTill t sl, 0x32), (.ccExtw t sl, 0x51)] : List (Instr × Nat)), s.dev.ccNext t.toNat sl.toNat p.2 = some (x, c, w) →
      ((x.cc.get (ccRs2 w)).2 = true ∨ (x.cc.get (ccRs3 w)).2 = true) →
      Does p.1 s fun e => ccStops s.dev e t.toNat sl.toNat E.TIL_CC_POISON_USE) ∧
    (∀ v a, ∀ p ∈ ([(.ccLd t sl .none, 0x30), (.ccSt t sl, 0x31)] : List (Instr × Nat)),
      s.dev.ccNext t.toNat sl.toNat p.2 = some (x, c, w) → x.cc.get (ccRs1 w) = (v, false) →
      a = (((v : Int) + ccImm w) % 2 ^ 64).toNat →
      (a % 8 ≠ 0 → Does p.1 s fun e => ccStops s.dev e t.toNat sl.toNat E.TIL_CC_ALIGN) ∧
      (a % 8 = 0 → (place a = .hole ∨ ∃ o, place a = .reg o ∧ ¬(0x1000000 + tileAdd t.toNat ≤ o ∧ o < 0x1010000 + tileAdd t.toNat)) →
        Does p.1 s fun e => ccStops s.dev e t.toNat sl.toNat E.TIL_CC_BOUNDS)) ∧
    (∀ v, s.dev.ccNext t.toNat sl.toNat 0x27 = some (x, c, w) → x.cc.get (ccRs1 w) = (v, false) →
      (s.dev.tile t.toNat).isInstr (v + 4 * ccImm w) = false →
      Does (.ccJalr t sl) s fun e => ccStops s.dev e t.toNat sl.toNat E.TIL_CC_BOUNDS) ∧
    (s.dev.ccNext t.toNat sl.toNat 0x41 = some (x, c, w) →
      ((x.cc.get (ccRs1 w)).1 % 8 = 2 ∨ 5 ≤ (x.cc.get (ccRs1 w)).1 % 8) →
      Does (.ccQpush t sl) s fun e => ccStops s.dev e t.toNat sl.toNat E.TIL_CC_BAD_KIND) ∧
    (∀ v, s.dev.ccNext t.toNat sl.toNat 0x53 = some (x, c, w) → x.cc.get (ccRs1 w) = (v, false) →
      s.dev.mayStage (tileHalf t.toNat) v = false →
      Does (.ccStage t sl) s fun e => ccStops s.dev e t.toNat sl.toNat E.TIL_CC_STAGE)

/-- Table 8-9's token and tile groups. -/
def Obligations.ControlCoreTokensAndTileInstructions : Prop :=
  ∀ (s : State) (t : TileId) (sl : SlotId) (x : Slot) (c : Cfg) (w : Nat), s.dev.live = true →
    ∀ i, i = bits w 18 14 →
    (∀ k, s.dev.ccNext t.toNat sl.toNat 0x40 = some (x, c, w) → s.dev.ready t.toNat x c i = some k →
      Does (.ccQpop t sl) s fun e => takesHead s.dev e t.toNat c i ∧
        (∃ y, ccWrote x.cc y (ccRd w) (k.kind.toNat + (if k.epoch then 8 else 0) + 16 * k.seq.toNat) false (x.cc.pc + 4) ∧
          (e.slot t.toNat sl.toNat).cc = { y with buf := k.payload, bufPoison := if k.kind.toNat = kPoison then 0xFF else 0 }) ∧
        (e.slot t.toNat sl.toNat).fired = true ∧ ccTokens s.dev e t.toNat sl.toNat) ∧
    (∀ a, s.dev.ccNext t.toNat sl.toNat 0x41 = some (x, c, w) → a = x.cc.get (ccRs1 w) → a.1 % 8 ≠ 2 → a.1 % 8 < 5 →
      s.dev.credit c i = true →
      Does (.ccQpush t sl) s fun e =>
        putsToken s.dev e x c i (if x.cc.bufPoison ≠ 0 ∨ a.2 = true then kPoison else a.1 % 8) x.cc.buf ∧
        (e.slot t.toNat sl.toNat).cc = { x.cc with pc := x.cc.pc + 4 } ∧ (e.slot t.toNat sl.toNat).fired = true ∧
        ccTokens s.dev e t.toNat sl.toNat) ∧
    (s.dev.ccNext t.toNat sl.toNat 0x42 = some (x, c, w) → i < 8 →
      Does (.ccTbrd t sl) s fun e => ∃ y, ccIssues s.dev e t.toNat sl.toNat y ∧
        ccWrote x.cc y (ccRd w) (bits x.cc.buf.toNat (64 * i) 64) (bit x.cc.bufPoison i) (x.cc.pc + 4) ∧ ccQuiet s.dev e t.toNat) ∧
    (∀ a, s.dev.ccNext t.toNat sl.toNat 0x43 = some (x, c, w) → a = x.cc.get (ccRs1 w) → i < 8 →
      Does (.ccTbwr t sl) s fun e => ∃ b p, ccIssues s.dev e t.toNat sl.toNat
          { x.cc with pc := x.cc.pc + 4, buf := b, bufPoison := p } ∧
        (∀ j < 8, bits b.toNat (64 * j) 64 = (if j = i then a.1 else bits x.cc.buf.toNat (64 * j) 64) ∧
          bit p j = (if j = i then a.2 else bit x.cc.bufPoison j)) ∧ ccQuiet s.dev e t.toNat) ∧
    (∀ a, s.dev.ccNext t.toNat sl.toNat 0x50 = some (x, c, w) → a = x.cc.get (ccRs1 w) → i < 8 →
      Does (.ccBcast t sl) s fun e => (e.slot t.toNat sl.toNat).cc = { x.cc with pc := x.cc.pc + 4 } ∧
        (∀ j, fmGet (e.tile t.toNat).bnext j = if j = i then some a else fmGet (s.dev.tile t.toNat).bnext j) ∧
        e.tile t.toNat = { s.dev.tile t.toNat with bnext := (e.tile t.toNat).bnext, ccLast := sl.toNat, ccBusy := true } ∧
        regsBut [F.TIL_CC_INSTR_COUNT.key (tileAdd t.toNat)] s.dev e ∧ engineOnly s.dev e) ∧
    (∀ a m n o, s.dev.ccNext t.toNat sl.toNat 0x51 = some (x, c, w) → x.cc.get (ccRs1 w) = (a, false) →
      x.cc.get (ccRs2 w) = (m, false) → x.cc.get (ccRs3 w) = (n, false) → o = tileAdd t.toNat + 8 * (a % 64) →
      (s.dev.tile t.toNat).extReg.contains (a % 64) = false →
      Does (.ccExtw t sl) s fun e => (e.slot t.toNat sl.toNat).cc = { x.cc with pc := x.cc.pc + 4 } ∧
        e.fget F.TIL_EXT_EXT_M o = m % 2 ^ F.TIL_EXT_EXT_M.w ∧ e.fget F.TIL_EXT_EXT_N o = n % 2 ^ F.TIL_EXT_EXT_N.w ∧
        regsBut [F.TIL_EXT_EXT_M.key o, F.TIL_EXT_EXT_N.key o, F.TIL_CC_INSTR_COUNT.key (tileAdd t.toNat)] s.dev e ∧
        engineOnly s.dev e) ∧
    (∀ a v, s.dev.ccNext t.toNat sl.toNat 0x52 = some (x, c, w) → x.cc.get (ccRs1 w) = (a, false) → i < 32 →
      (s.dev.slot t.toNat i).active = some v → v.cls = 1 →
      Does (.ccVsete t sl) s fun e => (e.slot t.toNat i).vx = { (s.dev.slot t.toNat i).vx with vsete := some a } ∧
        (e.slot t.toNat sl.toNat).cc = { x.cc with pc := x.cc.pc + 4 } ∧
        ccTurnUsed s.dev e t.toNat sl.toNat ∧ regsBut [F.TIL_CC_INSTR_COUNT.key (tileAdd t.toNat)] s.dev e ∧ engineOnly s.dev e) ∧
    (∀ a, s.dev.ccNext t.toNat sl.toNat 0x53 = some (x, c, w) → x.cc.get (ccRs1 w) = (a, false) →
      s.dev.mayStage (tileHalf t.toNat) a = true →
      Does (.ccStage t sl) s fun e => ccIssues s.dev e t.toNat sl.toNat { x.cc with pc := x.cc.pc + 4 } ∧
        (e.image (tileHalf t.toNat)).map (·.cur) = some a ∧ memSame s.dev e ∧ e.queues = s.dev.queues) ∧
    (s.dev.ccNext t.toNat sl.toNat 0x54 = some (x, c, w) → x.shadow = none →
      Does (.ccEend t sl) s fun e =>
        ccIssues s.dev e t.toNat sl.toNat { x.cc with pc := x.cc.pc + 4, ended := true } ∧ ccQuiet s.dev e t.toNat)

/-- R212 and R256 for LD and ST, R175 and R177 for TILL. -/
def Obligations.ControlCoreLoadsStoresAndTills : Prop :=
  ∀ (s : State) (t : TileId) (sl : SlotId) (x : Slot) (c : Cfg) (w : Nat), s.dev.live = true →
    (∀ v a, x.cc.get (ccRs1 w) = (v, false) → a = (((v : Int) + ccImm w) % 2 ^ 64).toNat → a % 8 = 0 →
      (s.dev.ccNext t.toNat sl.toNat 0x30 = some (x, c, w) →
        (s.dev.ccPlace t.toNat a = some .own → s.dev.isPoison a = false →
          Does (.ccLd t sl .none) s fun e => ∃ y, ccIssues s.dev e t.toNat sl.toNat y ∧
            ccWrote x.cc y (ccRd w) (leNat (memBytes s.dev.mem a 8)) false (x.cc.pc + 4) ∧ ccQuiet s.dev e t.toNat) ∧
        (s.dev.ccPlace t.toNat a = some .own → s.dev.isPoison a = true →
          Does (.ccLd t sl .none) s fun e => ((e.slot t.toNat sl.toNat).cc.get (ccRd w)).2 = (ccRd w != 0) ∧
            e.fget F.TIL_MEM_EVENT_SP_POISON_READ (tileAdd t.toNat) = 1 ∧ engineOnly s.dev e) ∧
        (∀ o, s.dev.ccPlace t.toNat a = some (.reg o) →
          Does (.ccLd t sl .none) s fun e => ∃ y, ccIssues s.dev e t.toNat sl.toNat y ∧
            ccWrote x.cc y (ccRd w) (s.dev.readReg (.core t) o % 2 ^ 64) false (x.cc.pc + 4) ∧ ccQuiet s.dev e t.toNat) ∧
        (s.dev.ccPlace t.toNat a = some .far →
          Does (.ccLd t sl .none) s fun e =>
            (e.slot t.toNat sl.toNat).cc = { x.cc with pc := x.cc.pc + 4, wait := .load (ccRd w) } ∧
            e.net = { s.dev.net with
              mem := s.dev.net.mem ++ [⟨t.toNat, sl.toNat, false, a, 0, false, s.dev.net.next⟩], next := s.dev.net.next + 1 } ∧
            e = { s.dev with regs := e.regs, slots := e.slots, tiles := e.tiles, net := e.net })) ∧
      (s.dev.ccNext t.toNat sl.toNat 0x31 = some (x, c, w) → ∀ r, r = x.cc.get (ccRd w) →
        (s.dev.ccPlace t.toNat a = some .own →
          Does (.ccSt t sl) s fun e => (e.slot t.toNat sl.toNat).cc = { x.cc with pc := x.cc.pc + 4 } ∧
            (r.2 = false → memBytes e.mem a 8 = leBytes 8 r.1 ∧ e.isPoison a = false) ∧ (r.2 = true → e.isPoison a = true) ∧
            memBut a (a + 8) s.dev e ∧ ccTurnUsed s.dev e t.toNat sl.toNat ∧
            e = { s.dev with regs := e.regs, mem := e.mem, poison := e.poison, slots := e.slots, tiles := e.tiles }) ∧
        (∀ o, s.dev.ccPlace t.toNat a = some (.reg o) → r.2 = false →
          Does (.ccSt t sl) s fun e => e = (s.dev.tileWrite o r.1).ccIssued t.toNat sl.toNat id) ∧
        (s.dev.ccPlace t.toNat a = some .far →
          Does (.ccSt t sl) s fun e => (e.slot t.toNat sl.toNat).cc = { x.cc with pc := x.cc.pc + 4, wait := .store } ∧
            e.net = { s.dev.net with
              mem := s.dev.net.mem ++ [⟨t.toNat, sl.toNat, true, a, r.1, r.2, s.dev.net.next⟩], next := s.dev.net.next + 1 } ∧
            e = { s.dev with regs := e.regs, slots := e.slots, tiles := e.tiles, net := e.net }))) ∧
    (∀ r, s.dev.net.mem.find? (fun r => r.tile == t.toNat && r.op == sl.toNat) = some r → r.addr % 8 = 0 →
      s.dev.requestAhead t.toNat r.addr r.seq = false →
      (r.write = true → Does (.ldstRequest t sl .none) s fun e =>
        (r.poison = false → memBytes e.mem r.addr 8 = leBytes 8 r.val ∧ e.isPoison r.addr = false) ∧
        (r.poison = true → e.isPoison r.addr = true) ∧ memBut r.addr (r.addr + 8) s.dev e ∧
        e.net = { s.dev.net with
          mem := s.dev.net.mem.erase r, memBack := s.dev.net.memBack ++ [{ r with seq := s.dev.net.next }], next := s.dev.net.next + 1 } ∧
        e = { s.dev with regs := e.regs, mem := e.mem, poison := e.poison, net := e.net }) ∧
      (r.write = false → Does (.ldstRequest t sl .none) s fun e =>
        e.net = { s.dev.net with
          mem := s.dev.net.mem.erase r, next := s.dev.net.next + 1
          memBack := s.dev.net.memBack ++
            [{ r with
               val := if s.dev.isPoison r.addr then 0 else leNat (memBytes s.dev.mem r.addr 8), poison := s.dev.isPoison r.addr
               seq := s.dev.net.next }] } ∧
        e = { s.dev with regs := e.regs, net := e.net })) ∧
    (∀ r rd y, s.dev.net.memBack.find? (fun r => r.tile == t.toNat && r.op == sl.toNat) = some r →
      s.dev.replyAhead t.toNat r.addr r.seq = false →
      y = (s.dev.slot t.toNat sl.toNat).cc →
      (y.wait = .load rd → Does (.ldstReply t sl) s fun e =>
        (∃ z, ccWrote y z rd (r.val % 2 ^ 64) r.poison y.pc ∧ (e.slot t.toNat sl.toNat).cc = { z with wait := .none }) ∧
        e = { s.dev with slots := e.slots, net := { s.dev.net with memBack := s.dev.net.memBack.erase r } }) ∧
      (y.wait = .store → Does (.ldstReply t sl) s fun e => (e.slot t.toNat sl.toNat).cc = { y with wait := .none } ∧
        e = { s.dev with slots := e.slots, net := { s.dev.net with memBack := s.dev.net.memBack.erase r } })) ∧
    (∀ a b l, s.dev.ccNext t.toNat sl.toNat 0x32 = some (x, c, w) → x.cc.get (ccRs1 w) = (a, false) →
      x.cc.get (ccRs2 w) = (b, false) → x.cc.get (ccRs3 w) = (l, false) →
      (a % 8 = 0 → (∃ u o, place a = .scratch u o) → Does (.ccTill t sl) s fun e =>
        (e.slot t.toNat sl.toNat).cc = { x.cc with pc := x.cc.pc + 4, wait := .till (ccRd w) } ∧
        e.net = { s.dev.net with
          till := s.dev.net.till ++ [⟨t.toNat, sl.toNat, a, b, l, none, s.dev.net.next⟩], next := s.dev.net.next + 1 } ∧
        e = { s.dev with regs := e.regs, slots := e.slots, tiles := e.tiles, net := e.net }) ∧
      ((a % 8 ≠ 0 ∨ ∀ u o, place a ≠ .scratch u o) → Does (.ccTill t sl) s fun e =>
        (∃ y, ccWrote x.cc y (ccRd w) 0 false (x.cc.pc + 4) ∧
          (e.slot t.toNat sl.toNat).cc = { y with ex := true, sat := false, psn := false, wait := .none }) ∧
        e.fget F.TIL_TILL_EVENT_ALIGN (tileAdd t.toNat) = 1 ∧ engineOnly s.dev e)) ∧
    (∀ r q rd y, s.dev.net.till.find? (fun r => r.tile == t.toNat && r.op == sl.toNat && r.reply.isSome) = some r → r.reply = some q →
      s.dev.replyAhead t.toNat r.addr r.seq = false →
      y = (s.dev.slot t.toNat sl.toNat).cc → y.wait = .till rd →
      Does (.tillReply t sl) s fun e =>
        (∃ z, ccWrote y z rd (q.1 % 2 ^ 64) false y.pc ∧
          (e.slot t.toNat sl.toNat).cc = { z with ex := q.2.1, sat := q.2.2.1, psn := q.2.2.2, wait := .none }) ∧
        e = { s.dev with slots := e.slots, net := { s.dev.net with till := s.dev.net.till.erase r } })

/-- R259 for barriers; R260 and R261 for votes. -/
def Obligations.BarriersAndVotesReleaseEveryWaiter : Prop :=
  ∀ (s : State), s.dev.live = true →
    (∀ (t : TileId) (sl : SlotId) (x : Slot) (c : Cfg) (w : Nat),
      (∀ b k, s.dev.ccNext t.toNat sl.toNat 0x60 = some (x, c, w) → b = bits w 18 14 → k = s.dev.syncKey (tileHalf t.toNat) b →
        Does (.ccBar t sl) s fun e => ccIssues s.dev e t.toNat sl.toNat { x.cc with pc := x.cc.pc + 4, wait := .barrier b } ∧
          (∀ j, fmGet e.net.bars j = if j = k then
            some (if ((fmGet s.dev.net.bars k).getD []).contains t.toNat then (fmGet s.dev.net.bars k).getD []
              else (fmGet s.dev.net.bars k).getD [] ++ [t.toNat]) else fmGet s.dev.net.bars j) ∧
          e = { s.dev with regs := e.regs, slots := e.slots, tiles := e.tiles, net := { s.dev.net with bars := e.net.bars } }) ∧
      (∀ p ∈ ([(.ccVor t sl, 0x61, false), (.ccVand t sl, 0x62, true)] : List (Instr × Nat × Bool)), ∀ a ch k l,
        s.dev.ccNext t.toNat sl.toNat p.2.1 = some (x, c, w) → a = x.cc.get (ccRs1 w) → ch = (x.cc.get (ccRs2 w)).1 % 8 →
        k = s.dev.syncKey (tileHalf t.toNat) ch → l = (fmGet s.dev.net.votes k).getD [] →
        Does p.1 s fun e =>
          ccIssues s.dev e t.toNat sl.toNat { x.cc with pc := x.cc.pc + 4, wait := .vote ch (ccRd w) p.2.2 (a.2 || (x.cc.get (ccRs2 w)).2) } ∧
          (∀ j, fmGet e.net.votes j = if j = k then
            some (if l.any (fun v => v.1 == t.toNat) then l
              else l ++ [(t.toNat, a.2 || decide (a.1 % 2 = 1), !a.2 && decide (a.1 % 2 = 1))]) else fmGet s.dev.net.votes j) ∧
          e = { s.dev with regs := e.regs, slots := e.slots, tiles := e.tiles, net := { s.dev.net with votes := e.net.votes } })) ∧
    (∀ (h : HalfId) (b : BitVec 6) (l : List Nat), fmGet s.dev.net.bars (s.dev.syncKey h b.toNat) = some l → l ≠ [] →
      (∀ t ∈ s.dev.scopeTiles h, bit (s.dev.fget F.TIL_SYNC_BMASK_MASK (tileAdd t)) b.toNat = true → t ∈ l) →
      Does (.barrierComplete h b) s fun e => fmGet e.net.bars (s.dev.syncKey h b.toNat) = none ∧
        (∀ k x, fmGet s.dev.slots k = some x → fmGet e.slots k =
          some (if x.cc.wait = .barrier b.toNat ∧ (s.dev.split = true → tileHalf (k / 32) = h) then
            { x with cc := { x.cc with wait := .none } } else x)) ∧
        e = { s.dev with slots := e.slots, net := { s.dev.net with bars := e.net.bars } }) ∧
    (∀ (h : HalfId) (ch : BitVec 3) (l : List (Nat × Bool × Bool)), fmGet s.dev.net.votes (s.dev.syncKey h ch.toNat) = some l → l ≠ [] →
      (∀ t ∈ s.dev.scopeTiles h, (s.dev.tile t).votes = true → ∃ v ∈ l, v.1 = t) →
      Does (.voteResult h ch) s fun e => fmGet e.net.votes (s.dev.syncKey h ch.toNat) = none ∧
        (∀ k x rd isAnd p, fmGet s.dev.slots k = some x → x.cc.wait = .vote ch.toNat rd isAnd p →
          (s.dev.split = true → tileHalf (k / 32) = h) → ∃ x' z, fmGet e.slots k = some x' ∧
            ccWrote x.cc z rd (if (if isAnd then l.all (·.2.2) else l.any (·.2.1)) then 1 else 0) p x.cc.pc ∧
            x' = { x with cc := { z with wait := .none } }) ∧
        (∀ k x, fmGet s.dev.slots k = some x →
          ((∀ rd isAnd p, x.cc.wait ≠ .vote ch.toNat rd isAnd p) ∨ s.dev.split = true ∧ tileHalf (k / 32) ≠ h) →
          fmGet e.slots k = some x) ∧
        e = { s.dev with slots := e.slots, net := { s.dev.net with votes := e.net.votes } })

/-- R232's list, R233's placement, R234, R230. A write that the writer may not make changes nothing. -/
def Obligations.WindowPoolAndScrub : Prop :=
  ∀ (s : State) (t : TileId), s.dev.live = true → ∀ x, x = s.dev.tile t.toNat →
    (∀ who (v : Word), s.dev.mayWrite who (0x1006018 + tileAdd t.toNat) = false → exec (.winCmd who t v) s = .next s) ∧
    (∀ who (v : Word) src h n uses st, s.dev.mayWrite who (0x1006018 + tileAdd t.toNat) = true →
      src = bits v.toNat 0 28 → h = bits v.toNat 28 8 → n = bits v.toNat 36 10 → uses = bits v.toNat 46 16 →
      st = (if (fmGet x.win h).isSome then stWrongState else if (x.win.filter fun p => p.2.state == 1).length = 4 then stNoResource
        else if x.window / 4096 < n then stCountRange
        else if n ≠ 0 ∧ s.dev.tenantRange (s.dev.halfScope (tileHalf t.toNat)) (src * 4096) (n * 4096) = false then stLenRange
        else stAccepted) →
      (st ≠ stAccepted → Does (.winCmd who t v) s fun e => e.fget F.TIL_WIN_STATUS_LAST_STATUS (tileAdd t.toNat) = st ∧
        e.fget F.TIL_MEM_EVENT_WIN_REFUSED (tileAdd t.toNat) = 1 ∧
        regsBut (F.TIL_WIN_STATUS_LAST_STATUS.key (tileAdd t.toNat) :: evKeys E.TIL_MEM_WIN_REFUSED (tileAdd t.toNat)) s.dev e ∧
        e = { s.dev with regs := e.regs }) ∧
      (st = stAccepted → Does (.winCmd who t v) s fun e => e.fget F.TIL_WIN_STATUS_LAST_STATUS (tileAdd t.toNat) = st ∧
        (∀ k, k ≠ h → fmGet (e.tile t.toNat).win k = fmGet x.win k) ∧
        (n ≠ 0 → ∃ z, fmGet (e.tile t.toNat).win h = some z ∧ z.state = 1 ∧ z.ingots = n ∧ z.remain = uses ∧ z.src = src * 4096) ∧
        (n = 0 → uses ≠ 0 → ∃ z, fmGet (e.tile t.toNat).win h = some z ∧ z.state = 3 ∧ z.remain = uses) ∧
        (n = 0 → uses = 0 → fmGet (e.tile t.toNat).win h = none) ∧
        regsBut [F.TIL_WIN_STATUS_LAST_STATUS.key (tileAdd t.toNat)] s.dev e ∧ e = { s.dev with regs := e.regs, tiles := e.tiles })) ∧
    (∀ h e0 f, x.winOrder.find? (fun h => ((fmGet x.win h).map (·.state == 1)).getD false) = some h → fmGet x.win h = some e0 →
      f = (if x.window / 4096 < x.winHead + e0.ingots then 0 else x.winHead) →
      (x.framesFree f e0.ingots = true → Does (.windowPlace t) s fun e =>
        fmGet (e.tile t.toNat).win h = some { e0 with state := 2, frame := f } ∧ (e.tile t.toNat).winHead = f + e0.ingots ∧
        (∀ k, k ≠ h → fmGet (e.tile t.toNat).win k = fmGet x.win k) ∧ e = { s.dev with tiles := e.tiles }) ∧
      (∀ g z l, x.framesFree f e0.ingots = false → x.placed = g :: l → fmGet x.win g = some z →
        (z.state = 3 → z.remain = 0 →
          ({ x with win := fmErase x.win g, winOrder := x.winOrder.erase g } : Tile).framesFree f e0.ingots = true →
          Does (.windowPlace t) s fun e => (g ≠ h → fmGet (e.tile t.toNat).win g = none) ∧
            fmGet (e.tile t.toNat).win h = some { e0 with state := 2, frame := f } ∧ e = { s.dev with tiles := e.tiles }) ∧
        ((z.state ≠ 3 ∨ z.remain ≠ 0) → Does (.windowPlace t) s fun e =>
          (∀ u, e.tile u = s.dev.tile u) ∧ e = { s.dev with tiles := e.tiles }))) ∧
    (∀ (h : BitVec 8) e0 b, fmGet x.win h.toNat = some e0 → e0.state = 2 → b = s.dev.windowBase t.toNat + 4096 * e0.frame →
      e0.src % 8 = 0 → b % 8 = 0 → (e0.src + 4096 * e0.ingots ≤ b ∨ b + 4096 * e0.ingots ≤ e0.src) →
      s.dev.anyPoison e0.src (4096 * e0.ingots) = false →
      Does (.windowLoadDone t h []) s fun e => fmGet (e.tile t.toNat).win h.toNat = some { e0 with state := 3 } ∧
        memBytes e.mem b (4096 * e0.ingots) = memBytes s.dev.mem e0.src (4096 * e0.ingots) ∧ memBut b (b + 4096 * e0.ingots) s.dev e ∧
        e = { s.dev with regs := e.regs, mem := e.mem, poison := e.poison, tiles := e.tiles }) ∧
    (∀ who (v : Word) h n, s.dev.mayWrite who (0x1006020 + tileAdd t.toNat) = true → h = bits v.toNat 0 8 → n = bits v.toNat 8 16 →
      (n = 0 → exec (.winRel who t v) s = .next s) ∧
      (n ≠ 0 → ((fmGet x.win h = none) ∨ ∃ z, fmGet x.win h = some z ∧ z.state = 1) → Does (.winRel who t v) s fun e =>
        e.fget F.TIL_MEM_EVENT_WIN_MISUSE (tileAdd t.toNat) = 1 ∧ e = { s.dev with regs := e.regs }) ∧
      (∀ z, n ≠ 0 → fmGet x.win h = some z → z.state ≠ 1 → Does (.winRel who t v) s fun e =>
        fmGet (e.tile t.toNat).win h =
          (if z.ingots = 0 ∧ z.remain ≤ n then none else some { z with remain := z.remain - n }) ∧
        (z.remain < n → e.fget F.TIL_MEM_EVENT_WIN_MISUSE (tileAdd t.toNat) = 1) ∧ (n ≤ z.remain → e.regs = s.dev.regs) ∧
        (∀ k, k ≠ h → fmGet (e.tile t.toNat).win k = fmGet x.win k) ∧ e = { s.dev with regs := e.regs, tiles := e.tiles })) ∧
    (∀ (k : StackId) p, p = s.dev.fget F.STK_SCRUB_PERIOD (stackAdd k.val) → (s.dev.eastLost = true → k.val < 4) →
      (s.dev.fget F.STK_STATUS_SCRUB_ACTIVE (stackAdd k.val) = 0 →
        (p = 0 → ∀ es, exec (.stackScrub k es) s = .next s) ∧
        (p ≠ 0 → s.dev.fget F.STK_STATUS_TRAINED (stackAdd k.val) = 1 → ∀ es, Does (.stackScrub k es) s fun e =>
          e.fget F.STK_STATUS_SCRUB_ACTIVE (stackAdd k.val) = 1 ∧
          regsBut [F.STK_STATUS_SCRUB_ACTIVE.key (stackAdd k.val)] s.dev e ∧ e = { s.dev with regs := e.regs })) ∧
      (s.dev.fget F.STK_STATUS_SCRUB_ACTIVE (stackAdd k.val) = 1 →
        ((∀ a, a < 0xA000000000 → s.dev.stackOf a = k.val → s.dev.isPoison a = false) → Does (.stackScrub k []) s fun e =>
          e.fget F.STK_STATUS_SCRUB_ACTIVE (stackAdd k.val) = 0 ∧
          regsBut [F.STK_RD_BYTES_COUNT.key (stackAdd k.val), F.STK_STATUS_SCRUB_ACTIVE.key (stackAdd k.val)] s.dev e ∧
          e = { s.dev with regs := e.regs }) ∧
        (∀ a, a < 0xA000000000 → s.dev.stackOf a = k.val → s.dev.isPoison a = true → Does (.stackScrub k []) s fun e =>
          e.fget F.STK_EVENT_POISON_READ (stackAdd k.val) = 1 ∧ e = { s.dev with regs := e.regs }) ∧
        (∀ a b, a < 0xA000000000 → s.dev.stackOf a = k.val → s.dev.isPoison (a / 8 * 8) = false →
          Does (.stackScrub k [(a, .single, b)]) s fun e => e.fget F.STK_EVENT_CORR (stackAdd k.val) = 1 ∧
            e = { s.dev with regs := e.regs })))

/-- R265's list, R522's target, R264, R256. -/
def Obligations.NetworkDamageThrottleAndTileCommands : Prop :=
  ∀ (s : State), s.dev.live = true →
    ∀ onRoute, (onRoute = fun (t u : TileId) (q : QueueId) => ∀ v, s.dev.sourceOf u.toNat q.toNat = some v →
      s.dev.passes t.toNat (s.dev.router v) (s.dev.router u.toNat) = true) →
    (∀ (t u : TileId) (q : QueueId) (n : Nat), (Does (.flitError t 0 u q n) s fun e =>
        e.fget F.TIL_NI_EVENT_FLIT_CORR (tileAdd t.toNat) = 1 ∧ regsBut (evKeys E.TIL_NI_FLIT_CORR (tileAdd t.toNat)) s.dev e ∧
        e = { s.dev with regs := e.regs }) ∧
      (∀ k, (s.dev.queue u.toNat q.toNat).moving[n]? = some k → onRoute t u q → Does (.flitError t 1 u q n) s fun e =>
        e.fget F.TIL_NI_EVENT_FLIT_UNCORR (tileAdd t.toNat) = 1 ∧
        e.queue u.toNat q.toNat = { s.dev.queue u.toNat q.toNat with
          flight := (s.dev.queue u.toNat q.toNat).flight.set n { k with kind := 4#3 } } ∧
        regsBut (evKeys E.TIL_NI_FLIT_UNCORR (tileAdd t.toNat)) s.dev e ∧ e = { s.dev with regs := e.regs, queues := e.queues }) ∧
      (n < (s.dev.queue u.toNat q.toNat).moving.length → onRoute t u q → Does (.flitError t 2 u q n) s fun e =>
        e.fget F.TIL_NI_EVENT_HDR_DROP (tileAdd t.toNat) = 1 ∧
        e.queue u.toNat q.toNat = { s.dev.queue u.toNat q.toNat with flight := (s.dev.queue u.toNat q.toNat).flight.eraseIdx n } ∧
        regsBut (evKeys E.TIL_NI_HDR_DROP (tileAdd t.toNat)) s.dev e ∧ e = { s.dev with regs := e.regs, queues := e.queues }) ∧
      (∀ m, (s.dev.net.cfg.filter fun m => m.tile == u.toNat)[n]? = some m → Does (.flitError t 3 u q n) s fun e =>
        e.net = { s.dev.net with cfg := s.dev.net.cfg.erase m } ∧ e.fget F.TIL_NI_EVENT_CTL_DROP (tileAdd t.toNat) = 1 ∧
        e.faults = s.dev.faults ++ [(tileHalf t.toNat, 4)] ∧ e = { s.dev with regs := e.regs, net := e.net, faults := e.faults }) ∧
      (∀ m, s.dev.net.mem.find? (fun m => m.tile == u.toNat && m.op == q.toNat &&
          s.dev.passes t.toNat (s.dev.router u.toNat) (s.dev.targetRouter m.addr)) = some m → place m.addr ≠ .stack →
        Does (.flitError t 4 u q n) s fun e =>
          e.net = { s.dev.net with mem := s.dev.net.mem.erase m } ∧ e.fget F.TIL_NI_EVENT_CTL_DROP (tileAdd t.toNat) = 1 ∧
          e.faults = s.dev.faults ++ [(tileHalf t.toNat, 4)] ∧ e = { s.dev with regs := e.regs, net := e.net, faults := e.faults }) ∧
      (∀ m, s.dev.net.till.find? (fun m => m.tile == u.toNat && m.op == q.toNat && m.reply.isNone &&
          s.dev.passes t.toNat (s.dev.router u.toNat) (s.dev.targetRouter m.addr)) = some m →
        Does (.flitError t 6 u q n) s fun e =>
          e.net = { s.dev.net with till := s.dev.net.till.erase m } ∧ e.fget F.TIL_NI_EVENT_CTL_DROP (tileAdd t.toNat) = 1 ∧
          e.faults = s.dev.faults ++ [(tileHalf t.toNat, 4)] ∧ e = { s.dev with regs := e.regs, net := e.net, faults := e.faults }) ∧
      (∀ w a, (s.dev.slot u.toNat q.toNat).walk = some w → flightAddr n w.ahead = some a →
        s.dev.passes t.toNat (s.dev.targetRouter a) (s.dev.router u.toNat) = true → Does (.flitError t 9 u q n) s fun e =>
          e.fget F.TIL_NI_EVENT_FLIT_UNCORR (tileAdd t.toNat) = 1 ∧
          (e.slot u.toNat q.toNat).walk = some { w with ahead := fillRow (0, true) n w.ahead } ∧
          e = { s.dev with regs := e.regs, slots := e.slots })) ∧
    (∀ (h : HalfId) (power : Fin 3) p target old, p = (if h then s.dev.mg.lpE else s.dev.mg.lpW) → old = s.dev.sentLevel h →
      target = max (max (s.dev.throttleT h) (s.dev.throttleS h))
        (if power = 2 then min 16 (p + 1) else if power = 0 then p - 1 else p) →
      Does (.throttleUpdate h power) s fun e =>
        e.sentLevel h = (if old < target then old + 1 else if target < old then old - 1 else old) ∧
        e.sentLevel (!h) = s.dev.sentLevel (!h) ∧
        e.fget (if h then F.MBX_STATUS_THROT_E else F.MBX_STATUS_THROT_W) = e.sentLevel h % 2 ^ F.MBX_STATUS_THROT_W.w ∧
        e = { s.dev with regs := e.regs, net := e.net, mg := e.mg, out := e.out }) ∧
    (∀ (h : HalfId) p, s.dev.levelDue h = some p →
      (20 ≤ p.2.2 → s.dev.fget F.TAL_PHASE_CYCLE % 16 = 0 → Does (.throttleLevel h) s fun e =>
        (if h then e.mg.levelE else e.mg.levelW) = p.2.1 ∧
        (if h then e.mg.levelW = s.dev.mg.levelW else e.mg.levelE = s.dev.mg.levelE) ∧
        e = { s.dev with mg := e.mg, net := { s.dev.net with levels := s.dev.net.levels.erase p } }) ∧
      ((p.2.2 < 20 ∨ s.dev.fget F.TAL_PHASE_CYCLE % 16 ≠ 0) → exec (.throttleLevel h) s = .next s)) ∧
    (∀ (t : TileId) (b : List Byte), b.length = 32 → Does (.tileCommand t b) s fun e =>
      (e.tile t.toNat).cmds = (s.dev.tile t.toNat).cmds ++ [b] ∧ (∀ u, u ≠ t.toNat → e.tile u = s.dev.tile u) ∧
      e = { s.dev with tiles := e.tiles })

/-- R77–R79 for loads; R92, R94 and R113 for a run's start (a run of N = 0 takes no wavefront: the log's entry on it). -/
def Obligations.StationaryLoadsAndRunStart : Prop :=
  ∀ (s : State) (site : SiteId) (inst : InstId) (i : Inst) (c : Cfg), s.dev.live = true →
    s.dev.instAt site.val inst.toNat = some (i, c) → ∀ key, key = site.val * 64 + inst.toNat →
    (∀ (k : BitVec 6) (src : BitVec 48) (et : TileId) (es : SlotId) u o, s.dev.runs (tileHalf i.tile) = true →
      k.toNat < c.depth * c.groups → src.toNat % 64 = 0 → place src.toNat = .scratch u o →
      o + loadBytes c.sfmt ≤ s.dev.region u → (s.dev.split = true → tileHalf u = tileHalf i.tile) →
      Does (.stationaryLoad site inst k src et es) s fun e =>
        (∃ i', fmGet e.insts key = some i' ∧
          i'.block k.toNat =
            (if (i.block k.toNat).full = true ∨ (i.block k.toNat).loading ≠ none then
              { i.block k.toNat with waiting := (i.block k.toNat).waiting ++ [(src.toNat, et.toNat, es.toNat)] }
            else { i.block k.toNat with loading := some ⟨src.toNat, loadBytes c.sfmt / 64 - 1⟩ }) ∧
          (∀ j, j ≠ k.toNat → i'.block j = i.block j) ∧ i' = { i with blocks := i'.blocks }) ∧
        (∀ j, j ≠ key → fmGet e.insts j = fmGet s.dev.insts j) ∧ e = { s.dev with insts := e.insts }) ∧
    (∀ (k : BitVec 6) j ws, (i.block k.toNat).loading = some j → j.src % 8 = 0 → s.dev.anyPoison j.src (loadBytes c.sfmt) = false →
      ws = (List.range (loadBytes c.sfmt / 8)).map (fun w => BitVec.ofNat 64 (leNat (memBytes s.dev.mem (j.src + 8 * w) 8))) →
      (j.left ≠ 0 → exec (.stationaryLoadDone site inst k []) s = .next s) ∧
      (j.left = 0 → Does (.stationaryLoadDone site inst k []) s fun e =>
        (∃ i', fmGet e.insts key = some i' ∧
          i'.block k.toNat = { i.block k.toNat with shadow := cellsOf c.sfmt ws [], full := true, arrived := true, loading := none } ∧
          (∀ b, b ≠ k.toNat → i'.block b = i.block b) ∧ i' = { i with blocks := i'.blocks }) ∧
        (∀ b, b ≠ key → fmGet e.insts b = fmGet s.dev.insts b) ∧ e = { s.dev with regs := e.regs, insts := e.insts })) ∧
    (∀ x c' k n m, s.dev.canFire i.tile i.slot [0] = some (x, c') → s.dev.fieldHead i.tile x c c.runQ = some k → i.run = none →
      beats c.mfmt ≤ x.since → (∀ b < c.depth * c.groups, (i.block b).ready = true) →
      n = bits k.payload.toNat 0 32 → m = bits k.payload.toNat 32 3 →
      Does (.fieldRunStart site inst) s fun e =>
        (e.queue i.tile c.runQ).tokens = (s.dev.queue i.tile c.runQ).tokens.drop 1 ∧
        (e.queue i.tile c.runQ).freed = (s.dev.queue i.tile c.runQ).freed + 1 ∧
        (∃ i', fmGet e.insts key = some i' ∧ (∀ b < c.depth * c.groups, i'.block b = (i.block b).swap c.sfmt) ∧ i'.acc = i.acc ∧
          i'.feed = i.feed ∧
          (k.kind.toNat = kVoid → i'.run = none) ∧
          (k.kind.toNat = kPoison → i'.run = none ∨ ∃ n' m' f, i'.run = some ⟨n', m', 0, f, true⟩) ∧
          (k.kind.toNat ≠ kVoid → k.kind.toNat ≠ kPoison → n = 0 → i'.run = none) ∧
          (k.kind.toNat ≠ kVoid → k.kind.toNat ≠ kPoison → n ≠ 0 → i'.run = some ⟨n, m, 0, c.runFault k, false⟩)) ∧
        (k.kind.toNat ≠ kVoid → k.kind.toNat ≠ kPoison → c.runFault k = true →
          e.fget F.FLD_EVENT_RUN_FAULT (siteAdd site.val) = 1) ∧
        (k.kind.toNat = kVoid ∨ (k.kind.toNat ≠ kPoison ∧ c.runFault k = false) → e.regs = s.dev.regs) ∧
        (∀ j, j ≠ key → fmGet e.insts j = fmGet s.dev.insts j) ∧
        e = { s.dev with regs := e.regs, queues := e.queues, insts := e.insts, free := e.free })

/-- R87 for the slot, R55 and R56 for the products, R68 for the scales, R86 for the order of levels, Table 4-4 for the accumulator,
R96 and R98 for what leaves. -/
def Obligations.MovingSlotUpdatesOrEmitsEachGroup : Prop :=
  ∀ (s : State) (site : SiteId) (inst : InstId) (i i1 : Inst) (c c' : Cfg) (r : Run) (x : Slot), s.dev.live = true →
    s.dev.instAt site.val inst.toNat = some (i, c) → i.run = some r → s.dev.canFire i.tile i.slot [0] = some (x, c') →
    beats c.mfmt ≤ x.since →
    r.fault = false → r.mode < 4 → c.paired = false → c.slide = false → c.rowScale = false →
    ∀ (seg : Nat → List FeedRow) (dirty : Bool) (bts : List (List RowBeats)) (ms : List (Nat × Nat))
      (o : Nat → List (Option Nat) × Bool × Bool) (st : Nat → GroupStep),
    (∀ l, seg l = (((fmGet i.feed l).getD []).drop ((fmGet i.skip l).getD 0)).take (segRows c.mfmt)) →
    (∀ l < c.depth, (seg l).length = segRows c.mfmt) →
    (r.emits = true → ∀ g < c.groups, s.dev.credits c g (if c.outFmt = 1 then 2 else 4) = true) →
    bts = (List.range c.depth).map (fun l => (List.range 64).map fun k =>
      rowBeats c [(((levelRows c i l 0 (seg l)).2)[k]?).getD none]) →
    ms = (List.range c.depth).map (fun l => ((((seg l).head?.bind fun f => f.scales[0]?).map fun z => (z.1, z.2.1)).getD (127, 127))) →
    dirty = ((List.range c.depth).any (fun l => (levelRows c i l 0 (seg l)).1) || r.poison) →
    i1 = { i with blocks := fmMap i.blocks fun k b => b.multiply c ((bts[k / c.groups]?).getD []) } →
    (∀ g, o g = groupOut c i1 g 0 bts ms) →
    (∀ g, st g = accStep c r.mode (fmGet i.acc (g * 256 + r.at_)) (o g).1 (dirty || (o g).2.2) none false) →
    (r.mode ≠ 0 → r.at_ < 256) →
    ∀ odd, Does (.fieldSlot site inst odd) s fun e =>
      (∃ i', fmGet e.insts (site.val * 64 + inst.toNat) = some i' ∧ i'.blocks = i1.blocks ∧
        i'.run = (if r.at_ + 1 = r.n then none else some { r with at_ := r.at_ + 1 }) ∧
        (∀ l < c.depth, fmGet i'.feed l =
          some (((fmGet i.feed l).getD []).drop ((fmGet i.skip l).getD 0 + segRows c.mfmt))) ∧
        (∀ g < c.groups, fmGet i'.acc (g * 256 + r.at_) =
          if r.mode = 0 then fmGet i.acc (g * 256 + r.at_) else (st g).row)) ∧
      (∀ g < c.groups, ∀ vs t q, (st g).emit = some (some vs) → 64 * g < c.colExt → (c.outs[g]?).getD none = some (t, q) →
        (∀ g' < c.groups, g' ≠ g → (c.outs[g']?).getD none ≠ some (t, q)) →
        ∃ ks, (e.queue t q).flight = (s.dev.queue t q).flight ++ ks ∧
          ks.map (·.payload) = outRows c (vs.zipIdx.map fun v => if 64 * g + v.2 < c.colExt then v.1 else 0) ∧
          ∀ k ∈ ks, k.kind.toNat = kData) ∧
      (e.slot i.tile i.slot).fired = true ∧ memSame s.dev e ∧
      e = { s.dev with regs := e.regs, queues := e.queues, slots := e.slots, insts := e.insts, products := e.products }

/-- R270 for the loop, R380 for the baseline, R313 for the records, R402 for the entries, R271, R273, R275, R276 and R281 for the passes. -/
def Obligations.RunAttemptAndPassesProceed : Prop :=
  ∀ (s : State) (h : HalfId), s.dev.live = true → ∀ a, a = s.dev.stepAdd h →
    (∀ (seq : Word) peers e0, startable s.dev h seq.toNat 0x04 e0 →
      firstFail (s.dev.headersCheck h :: (s.dev.pairings h).map (s.dev.handshakeOne h peers)) = none →
      Does (.run h seq peers []) s fun e => isStarted e h seq.toNat ∧ e.half h = 4 ∧ e.heldHalf h = true ∧
        (∃ r, (e.stepc h).run = some r ∧ r.entry = seq.toNat ∧ r.sa = none ∧ r.limit = e0.arg 24 8 ∧
          r.start = (if e0.execAt = 0 then s.dev.now + 1 else e0.execAt) ∧
          r.base = if s.dev.baselineDue h peers then 0 else 2) ∧
        e.fget F.DEV_STEP_STATUS_SKIPS a = 0 ∧ e.fget F.DEV_STEP_STATUS_PHASE a = 0 ∧ memSame s.dev e) ∧
    (∀ r, (s.dev.stepc h).run = some r →
      (∀ es, r.base ≠ 0 → exec (.baseline h es) s = .next s) ∧
      (r.base = 0 → Does (.baseline h []) s fun e => ∃ r', (e.stepc h).run = some r' ∧ r'.base = (if r'.acks = 0 then 2 else 1) ∧
        r'.start = r.start ∧ r'.entry = r.entry) ∧
      (∀ v s0, r.base = 2 → s.dev.fabResult (s.dev.tagOf h) (voteId 3 0 0 (s.dev.stepNum h)) = some v → v.or1 = false → v.vand = true →
        s0 = max r.start (s.dev.now - (s.dev.now + 2 ^ 24 - v.tick.toNat) % 2 ^ 24 + voteTicks (s.dev.imageBytes h)) →
        Does (.baselineVote h) s fun e => (e.stepc h).run = some { r with base := 3, start := s0 } ∧
          e.fget F.DEV_STEP_SEAL_TALLY a = (s0 + sealOffset (s.dev.imageBytes h)) % 2 ^ 64 ∧ memSame s.dev e) ∧
      (∀ v, r.base = 2 → s.dev.fabResult (s.dev.tagOf h) (voteId 3 0 0 (s.dev.stepNum h)) = some v → (v.or1 = true ∨ v.vand = false) →
        r.dirty = false → s.dev.half h ≠ 7 →
        Does (.baselineVote h) s fun e => (e.stepc h).run = none ∧ e.half h = 3 ∧ memSame s.dev e) ∧
      (r.base = 3 → r.sa = none → r.paused = none → r.preempt = none → (s.dev.stepc h).hold = false → r.start ≤ s.dev.now →
        r.dirty = false →
        (∀ m, s.dev.chooseRecords h = some m → Does (.attemptStart h) s fun e =>
          (∃ r', (e.stepc h).run = some r' ∧ r'.sa = some r.start ∧ r'.chosen = m ∧ r'.aEntry = (s.dev.led h).head + 1 ∧
            r'.passes = r.passes) ∧
          (e.led h).head = (s.dev.led h).head + 3 ∧ e.fget F.DEV_STEP_STATUS_ROUND a = 0 ∧ e.fget F.DEV_STEP_STATUS_PHASE a = 1 ∧
          e.fget F.DEV_STEP_SEAL_TALLY a = (r.start + sealOffset (s.dev.imageBytes h)) % 2 ^ 64 ∧
          e.fget F.DEV_STEP_ATTEMPTS_COUNT a = min (s.dev.fget F.DEV_STEP_ATTEMPTS_COUNT a + 1) (2 ^ 64 - 1) ∧ memSame s.dev e) ∧
        (s.dev.chooseRecords h = none → s.dev.half h ≠ 7 → Does (.attemptStart h) s fun e =>
          (e.stepc h).run = none ∧ e.half h = 3 ∧ e.fget F.UPD_EVENT_SCHED_MISSING = 1 ∧ memSame s.dev e)) ∧
      (∀ (kind : Fin 6) (mb group : BitVec 8) ins host, s.dev.passDue h r kind.val mb.toNat group.toNat = false →
        exec (.passAdmit h kind mb group ins host) s = .next s) ∧
      (∀ (kind : Fin 6) (mb group : BitVec 8) ins host, r.sa.isSome = true → r.stopped = false → r.fail = none → r.paused = none →
        r.preempt = none → r.replay = [] → r.passes.length < 64 → mb.toNat < microBatches (s.dev.imageBytes h) →
        s.dev.passDue h r kind.val mb.toNat group.toNat = true → (∀ x ∈ ins, s.dev.inputWhole h x = true) → kind ≠ 0 →
        Does (.passAdmit h kind mb group ins host) s fun e =>
          (e.stepc h).run = some { r with
            passes := r.passes ++ [⟨kind.val, mb.toNat, group.toNat, s.dev.now, 0, r.admitted⟩], admitted := r.admitted + 1 } ∧
          e.heldHalf h = false ∧
          e.fget F.DEV_STEP_STATUS_PHASE a = max (s.dev.fget F.DEV_STEP_STATUS_PHASE a) (passPhase kind.val) ∧
          (kind ≠ 5 → memSame s.dev e) ∧
          (∀ v, kind = 5 → survHdr (s.dev.imageBytes h) = some v →
            memBytes e.mem (shState v) 4096 = s.dev.stateBytes h true ∧ memBut (shState v) (shState v + 4096) s.dev e)) ∧
      (∀ (mb group : BitVec 8) ins host, r.sa.isSome = true → r.stopped = false → r.fail = none → r.paused = none → r.preempt = none →
        r.replay = [] → r.passes.length < 64 → mb.toNat < microBatches (s.dev.imageBytes h) → s.dev.feed.armed = none →
        s.dev.passDue h r 0 mb.toNat group.toNat = true → (∀ x ∈ ins, s.dev.inputWhole h x = true) →
        Does (.passAdmit h 0 mb group ins host) s fun e => (∃ r', (e.stepc h).run = some r' ∧ r'.fail = some stAbandoned ∧ r'.passes = []) ∧
          e.heldHalf h = true ∧ memSame s.dev e) ∧
      (∀ (ix : BitVec 6) p es units, r.passes[ix.toNat]? = some p → units = (r.passes.filter fun p => p.kind != 0).length →
        (p.kind ≠ 5 → (p.kind = 0 → scopeHas s.dev.feedScope h = true → s.dev.feed.ingest = []) →
          (p.kind ≠ 0 → units = 1 → s.dev.unitsQuiet h = true) →
          Does (.passEnd h ix es) s fun e =>
            (e.stepc h).run = some { r with passes := r.passes.eraseIdx ix.toNat, ended := r.ended ++ [(p.kind, p.mb, p.group)] } ∧
            (r.passes.length = 1 → e.heldHalf h = true) ∧ (r.passes.length ≠ 1 → e.heldHalf h = s.dev.heldHalf h) ∧
            e = { s.dev with step0 := e.step0, step1 := e.step1, heldW := e.heldW, heldE := e.heldE, refetched := e.refetched }) ∧
        (p.kind ≠ 0 → p.kind ≠ 5 → units = 1 → s.dev.unitsQuiet h = false → exec (.passEnd h ix es) s = .next s) ∧
        (p.kind = 5 → Does (.passEnd h ix es) s fun e => ∃ r', (e.stepc h).run = some r' ∧ r'.passes = r.passes)))

/-- R282–R285 for abandoned passes; R262 and R272 for the gates. -/
def Obligations.AbandonReplayAndGates : Prop :=
  ∀ (s : State) (h : HalfId) (r : RunS), s.dev.live = true → (s.dev.stepc h).run = some r → r.sa.isSome = true → r.fail = none →
    ∀ a, a = s.dev.stepAdd h →
    (r.passes ≠ [] →
      (∀ p ∈ r.passes, replayable p.kind = true ∧ p.replays < replayLimit (s.dev.imageBytes h)) →
      s.dev.refetch.any (s.dev.lostAgain h) = false →
      (s.dev.faults.filter (s.dev.faultHere h) ≠ [] →
        ¬((∃ f ∈ s.dev.faults.filter (s.dev.faultHere h), f.2 = 2) ∧ r.epoch = true ∧ ∃ p ∈ r.passes, 0 < p.replays) →
        Does (.abandon h) s fun e =>
          (∃ r', (e.stepc h).run = some r' ∧
            r' = { r with stopped := true, dirty := true, epoch := r'.epoch, replay := r.replay ++ r.passes, passes := [] }) ∧
          e.heldHalf h = true ∧ e.fget F.DEV_STEP_EVENT_ABANDON a = 1 ∧ e.faults = s.dev.faults.filter (fun f => !s.dev.faultHere h f) ∧
          memSame s.dev e) ∧
      (s.dev.faults = [] → passTimeout (s.dev.imageBytes h) ≠ 0 →
        (∃ p ∈ r.passes, p.tick + passTimeout (s.dev.imageBytes h) < s.dev.now) →
        Does (.passTimeout h) s fun e =>
          (∃ r', (e.stepc h).run = some r' ∧
            r' = { r with stopped := true, dirty := true, epoch := r'.epoch, replay := r.replay ++ r.passes, passes := [] }) ∧
          e.heldHalf h = true ∧ e.fget F.DEV_STEP_EVENT_ABANDON a = 1 ∧ memSame s.dev e)) ∧
    (s.dev.faults.filter (s.dev.faultHere h) ≠ [] → (∃ p ∈ r.passes, replayable p.kind = false) →
      Does (.abandon h) s fun e => (∃ r', (e.stepc h).run = some r' ∧ r'.fail = some stAbandoned ∧ r'.passes = [] ∧ r'.replay = [] ∧
        r'.stopped = true) ∧ e.heldHalf h = true ∧ memSame s.dev e) ∧
    (r.replay ≠ [] → s.dev.netsQuiet h = false → exec (.replay h) s = .next s) ∧
    (∀ p l, r.replay = p :: l → r.paused = none → s.dev.netsQuiet h = true → (∀ x ∈ s.dev.refetch, s.dev.refetchHere h x.1 = false) →
      Does (.replay h) s fun e =>
        (e.stepc h).run = some { r with passes := r.replay.map fun p => { p with tick := s.dev.now, replays := p.replays + 1 },
                                        replay := [], stopped := false, dirty := false, replays := r.replays + 1 } ∧
        e.heldHalf h = false ∧ memSame s.dev e) ∧
    (∀ id, id = voteId 0 0 0 (s.dev.attemptNo h) →
      (r.gate = 0 → (∀ p ∈ r.passes, 2 < p.kind ∧ p.kind ≠ 4) → r.replay = [] →
        (∀ m < microBatches (s.dev.imageBytes h), r.hasEnded 1 m = true) →
        ((s.dev.pipeline h).1 + 1 = (s.dev.pipeline h).2 → ∃ x ∈ r.ended, x.1 = 4) → Does (.lossGate h) s fun e =>
        (e.stepc h).run = some { r with gate := 1 } ∧
        (∃ v, e.fab.votes = s.dev.fab.votes ++ [v] ∧ v.id.toNat = id % 2 ^ 32 ∧ v.count = 1 ∧ v.vand = true ∧
          (v.or0 = true ↔ (∃ t ∈ s.dev.scopeTiles h, s.dev.flag F.TIL_VX_VOTE_NF (tileAdd t) = true) ∨
            ∃ k < 4, s.dev.fget F.FAB_NF_NF (a + 8 * k) ≠ 0)) ∧
        memSame s.dev e) ∧
      (∀ v, r.gate = 1 → s.dev.fabResult (s.dev.tagOf h) id = some v →
        (v.or0 = false → Does (.lossGate h) s fun e => (e.stepc h).run = some { r with gate := 2 } ∧ memSame s.dev e ∧
          e.regs = s.dev.regs) ∧
        (v.or0 = true → Does (.lossGate h) s fun e => (∃ r', (e.stepc h).run = some r' ∧ r'.gate = 3 ∧ r'.fail = some stNonfinite ∧
          r'.stopped = true ∧ r'.passes = []) ∧ e.fget F.DEV_STEP_EVENT_LOSS_NF a = 1 ∧ memSame s.dev e))) ∧
    (∀ (l : BitVec 8) i id, layerRec (s.dev.imageBytes h) l.toNat = some i → lrUpdate i = true →
      id = voteId 1 l.toNat (s.dev.pipeline h).1 (s.dev.attemptNo h) →
      (r.gradVoted.contains l.toNat = false →
        s.dev.shardWhole h l.toNat (s.dev.shardAt (s.dev.readCopy h i l.toNat)) = true →
        Does (.gradientGate h l none) s fun e => (e.stepc h).run = some { r with gradVoted := r.gradVoted ++ [l.toNat] } ∧
          (∃ v, e.fab.votes = s.dev.fab.votes ++ [v] ∧ v.id.toNat = id % 2 ^ 32 ∧ v.count = 1) ∧ memSame s.dev e) ∧
      (∀ v, r.gradVoted.contains l.toNat = true → r.grads.contains l.toNat = false →
        s.dev.fabResult (s.dev.tagOf h) id = some v →
        (v.or0 = false → Does (.gradientGate h l none) s fun e =>
          (e.stepc h).run = some { r with grads := r.grads ++ [l.toNat] } ∧ memSame s.dev e ∧ e.regs = s.dev.regs) ∧
        (v.or0 = true → Does (.gradientGate h l none) s fun e =>
          (∃ r', (e.stepc h).run = some r' ∧ (r'.fail = some stNonfinite ∨ r'.fail = some stPoison) ∧
            (r.firstLayer = 65535 → r'.firstLayer = l.toNat)) ∧
          e.fget F.DEV_STEP_EVENT_GRAD_NF a = 1 ∧ memSame s.dev e)))

/-- R278–R280 and R395 for preemption and stops; R286–R292 for the seal. -/
def Obligations.PreemptionStopsAndSealRounds : Prop :=
  ∀ (s : State) (h : HalfId), s.dev.live = true → ∀ a, a = s.dev.stepAdd h →
    (∀ (seq : Word) e0 r, startable s.dev h seq.toNat 0x05 e0 → (s.dev.stepc h).run = some r →
      (r.preempt = none → Does (.preempt h seq) s fun e => isStarted e h seq.toNat ∧
        (e.stepc h).run = some { r with preempt := some (seq.toNat, e0.when_) } ∧
        e = { s.dev with led0 := e.led0, led1 := e.led1, mg := e.mg, step0 := e.step0, step1 := e.step1 }) ∧
      (r.preempt.isSome = true → Does (.preempt h seq) s fun e => endedAs e h seq.toNat 4 stWrongState ∧
        e = { s.dev with led0 := e.led0, led1 := e.led1, mg := e.mg, out := e.out })) ∧
    (∀ r q tl x, (s.dev.stepc h).run = some r → r.preempt = some (q, tl) → r.passes = [] → r.replay = [] → s.dev.half h ≠ 7 →
      s.dev.entry h q = some x → x.state < 3 → q ≠ r.entry →
      Does (.preemptDone h) s fun e => e.half h = 5 ∧ endedAs e h q 3 0 ∧
        (∀ y, s.dev.entry h r.entry = some y → ∃ z, e.entry h r.entry = some z ∧ z.status = stPreempted ∧ z.state = y.state) ∧
        (e.stepc h).run = some { r with preempt := none, paused := some tl } ∧ e.heldHalf h = true ∧
        e.fget F.DEV_STEP_EVENT_PREEMPTED a = 1 ∧ memSame s.dev e) ∧
    (∀ (seq : Word) e0 r, startable s.dev h seq.toNat 0x06 e0 → (s.dev.stepc h).run = some r → (s.dev.stepc h).hold = false →
      Does (.resume h seq) s fun e => e.half h = 4 ∧ endedAs e h seq.toNat 3 0 ∧
        (∃ r', (e.stepc h).run = some r' ∧ r'.paused = none ∧ r'.passes = r.passes ∧ r'.sa = r.sa ∧
          r'.start = (if r.sa.isSome then r.start else r.start + (e0.when_ - r.paused.getD e0.when_))) ∧
        e.fget F.DEV_STEP_SEAL_TALLY a =
          (s.dev.fget F.DEV_STEP_SEAL_TALLY a + (e0.when_ - r.paused.getD e0.when_)) % 2 ^ 64 ∧ memSame s.dev e) ∧
    (∀ (seq : Word) e0, startable s.dev h seq.toNat 0x07 e0 →
      (e0.arg 24 1 = 0 → (∀ r, (s.dev.stepc h).run = some r →
        (r.stop = none → r.sa.isSome = true → Does (.stopAtAttemptEnd h seq) s fun e => isStarted e h seq.toNat ∧
          (e.stepc h).run = some { r with stop := some seq.toNat } ∧
          e = { s.dev with led0 := e.led0, led1 := e.led1, mg := e.mg, step0 := e.step0, step1 := e.step1 }) ∧
        (r.stop = none → r.sa = none → (∀ p, r.preempt = some p → p.1 ≠ seq.toNat) →
          Does (.stopAtAttemptEnd h seq) s fun e => (e.stepc h).run = none ∧ e.half h = 3 ∧ endedAs e h seq.toNat 3 0 ∧ memSame s.dev e) ∧
        (r.stop.isSome = true → Does (.stopAtAttemptEnd h seq) s fun e => endedAs e h seq.toNat 4 stWrongState ∧
          (e.stepc h).run = some r ∧ memSame s.dev e))) ∧
      (e0.arg 24 1 = 1 → (∀ r, (s.dev.stepc h).run = some r → Does (.stopNow h seq) s fun e => (e.stepc h).run = none ∧ e.half h = 3) ∧
        ((s.dev.stepc h).run = none → Does (.stopNow h seq) s fun e => e.half h = 3 ∧ endedAs e h seq.toNat 3 0 ∧
          (e.stepc h).hold = false ∧ memSame s.dev e))) ∧
    (∀ r j tick, (s.dev.stepc h).run = some r → r.sa.isSome = true → r.paused = none → j = s.dev.fget F.DEV_STEP_STATUS_ROUND a →
      tick = s.dev.fget F.DEV_STEP_SEAL_TALLY a →
      (r.roundVoted ≠ some j → s.dev.now + voteTicks (s.dev.imageBytes h) ≤ tick → Does (.sealVote h) s fun e =>
        (e.stepc h).run = some { r with roundVoted := some j } ∧
        (∃ v, e.fab.votes = s.dev.fab.votes ++ [v] ∧ v.count = 1 ∧ v.id.toNat = s.dev.sealId h % 2 ^ 32 ∧ v.vand = s.dev.sealReady h r ∧
          (v.or0 = true ↔ r.fail = some stNonfinite ∨ r.fail = some stPoison) ∧
          (v.or1 = true ↔ r.fail.isSome = true ∧ r.fail ≠ some stNonfinite ∧ r.fail ≠ some stPoison)) ∧ memSame s.dev e) ∧
      ((r.roundVoted = some j ∨ tick < s.dev.now + voteTicks (s.dev.imageBytes h)) → exec (.sealVote h) s = .next s) ∧
      (tick ≤ s.dev.now →
        (∀ v moved, s.dev.fabResult (s.dev.tagOf h) (s.dev.sealId h) = some v → v.or0 = false → v.or1 = false → v.vand = false →
          j + 1 < sealRounds (s.dev.imageBytes h) → Does (.sealRound h moved) s fun e =>
            e.fget F.DEV_STEP_STATUS_ROUND a = (j + 1) % 256 ∧
            e.fget F.DEV_STEP_SEAL_TALLY a = (tick + sealStride (s.dev.imageBytes h)) % 2 ^ 64 ∧
            regsBut [F.DEV_STEP_STATUS_ROUND.key a, F.DEV_STEP_SEAL_TALLY.key a] s.dev e ∧
            e = { s.dev with regs := e.regs, fab := e.fab }) ∧
        (∀ v moved, s.dev.fabResult (s.dev.tagOf h) (s.dev.sealId h) = some v → v.or0 = false → v.or1 = false → v.vand = true →
          Does (.sealRound h moved) s fun e => e.fget F.DEV_STEP_NUM_N a = (s.dev.fget F.DEV_STEP_NUM_N a + 1) % 2 ^ 64) ∧
        (∀ moved, s.dev.fabResult (s.dev.tagOf h) (s.dev.sealId h) = none → Does (.sealRound h moved) s fun e =>
          (e.stepc h).run = none ∧ e.fget F.DEV_STEP_EVENT_SEAL_UNKNOWN a = 1)))

/-- R312; R301, R305 and R308; R375; R239–R242. -/
def Obligations.UpdateBlocksMirrorsAndRefetches : Prop :=
  ∀ (s : State) (h : HalfId), s.dev.live = true →
    (∀ (seq : Word) e0 b n new, startable s.dev h seq.toNat 0x08 e0 → b = e0.arg 24 8 → n = e0.arg 32 4 → b % 8 = 0 →
      s.dev.anyPoison b (64 * n) = false → new = (List.range n).map (fun k => memBytes s.dev.mem (b + 64 * k) 64) →
      (schedCheck (s.dev.stepc h).sched new = none → Does (.schedAppend h seq []) s fun e =>
        (e.stepc h).sched = (s.dev.stepc h).sched ++ new ∧ (e.stepc h).run = (s.dev.stepc h).run ∧ endedAs e h seq.toNat 3 0 ∧
        memSame s.dev e) ∧
      (∀ st, schedCheck (s.dev.stepc h).sched new = some st → Does (.schedAppend h seq []) s fun e =>
        e.stepc h = s.dev.stepc h ∧ endedAs e h seq.toNat 4 st ∧ memSame s.dev e)) ∧
    (∀ (l : BitVec 8) r i x k n g, (s.dev.stepc h).run = some r → layerRec (s.dev.imageBytes h) l.toNat = some i → lrUpdate i = true →
      r.sa.isSome = true → r.paused = none → r.fail = none → r.updated.contains l.toNat = false →
      (isEager (s.dev.imageBytes h) = true → r.grads.contains l.toNat = true) →
      x = s.dev.shardAt (s.dev.readCopy h i l.toNat) → k = s.dev.updKey h l.toNat → n = (fmGet s.dev.upd.next k).getD 0 →
      s.dev.shardWhole h l.toNat x = true → n < x.nb → s.dev.freeGroup h x.engines = some g →
      Does (.updateBlockDispatch h l none) s fun e =>
        fmGet e.upd.busy g = some (l.toNat, n) ∧ fmGet e.upd.next k = some (n + 1) ∧
        e.fget F.UPD_STATUS_BUSY = (s.dev.fget F.UPD_STATUS_BUSY ||| groupMask g x.engines) % 2 ^ 16 ∧
        e.fget F.UPD_STATUS_LAYER = l.toNat ∧ (n ≠ 0 → memSame s.dev e) ∧
        (n = 0 → memBut (s.dev.writeCopy h i l.toNat) (s.dev.writeCopy h i l.toNat + 4096) s.dev e)) ∧
    (∀ (g : Fin 16) l b r i x, h = (s.dev.split && decide (8 ≤ g.val)) → fmGet s.dev.upd.busy g.val = some (l, b) →
      (s.dev.stepc h).run = some r → layerRec (s.dev.imageBytes h) l = some i → x = s.dev.shardAt (s.dev.readCopy h i l) → b < x.nb →
      s.dev.writeCopy h i l % 8 = 0 →
      Does (.updateBlockDone g []) s fun e => fmGet e.upd.busy g.val = none ∧
        memBut (s.dev.writeCopy h i l) (s.dev.writeCopy h i l + x.total) s.dev e ∧ e.queues = s.dev.queues ∧ e.slots = s.dev.slots) ∧
    (∀ (k : BitVec 13) r, (s.dev.stepc h).run = some r →
      ((s.dev.mirroring h = false ∨ r.mirrored.contains k.toNat = true) → ∀ es, exec (.mirror h k es) s = .next s) ∧
      (∀ i, s.dev.mirroring h = true → r.mirrored.contains k.toNat = false → r.fail = none → (∃ p ∈ r.passes, p.kind = 5) →
        k.toNat ≠ 4096 → (s.dev.dueTensors h).find? (fun i => tiTensor i == k.toNat) = some i →
        (tiRegion i ≠ 0 → s.dev.layerDone h r (tiLayer i) = true) → Does (.mirror h k []) s fun e => (∃ r', (e.stepc h).run = some r' ∧ r'.mirrored = r.mirrored ++ [k.toNat] ∧ r'.passes = r.passes) ∧
          memSame s.dev e)) ∧
    (∀ ad rest i (bytes : List Byte) (spare : Bool), s.dev.refetch = (ad, none) :: rest → h = (s.dev.split && stackHalf (s.dev.stackOf ad)) →
      s.dev.escrowOf h ad = some i → isEager (s.dev.imageBytes h) = false → bytes.length = 4096 → ad % 8 = 0 →
      Does (.escrowRefetch true (s.dev.stepNum h) bytes (crc64 bytes) [] spare) s fun e =>
        memBytes e.mem ad 4096 = bytes ∧ e.anyPoison ad 4096 = false ∧ e.refetch = rest ∧ e.refetched = s.dev.refetched ++ [ad] ∧
        e.fget F.STK_EVENT_REFETCH_OK (stackAdd (s.dev.stackOf ad)) = 1 ∧ memBut ad (ad + 4096) s.dev e ∧
        e = { s.dev with regs := e.regs, mem := e.mem, poison := e.poison, refetch := e.refetch, refetched := e.refetched,
                         mg := e.mg, out := e.out })

/-- R323's checks and the effects of Table 13-3's kinds. -/
def Obligations.FramesAreCheckedAndTakeEffect : Prop :=
  ∀ (s : State) (p : PortId) (f : Frame), s.dev.live = true → ∀ x a, x = s.dev.port p.val → a = portAdd p.val →
    (∀ ack nak cs es idn ec rtt tu ps code hf sp ch st xf tg m tk bt ep ct sc sd sl so,
      ∀ c ∈ ([(.dataFrame p f, 1), (.idleFrame p f, 0), (.creditFrame p f ack nak cs, 2), (.voteFrame p f es, 4), (.admitFrame p f idn, 5),
        (.delayFrame p f ec rtt tu, 6), (.stateFrame p f ps code hf sp ch, 7), (.refuseFrame p f st xf, 8), (.mgmtFrame p f tg m, 9),
        (.sealFrame p f tk bt ep ct, 10), (.stampReceived p f sc sd sl so, 3)] : List (Instr × Nat)),
      s.dev.flag F.LNK_STATUS_SEALED a = false → 2 ≤ s.dev.link p.val → s.dev.link p.val ≤ 4 → f.lanes = [] → f.fec = 0 → f.crc.toNat ≠ frameCrc { f with kind := .ofNat 4 c.2 } →
      Does c.1 s fun e => e.port p.val = { x with nak := true } ∧ (∀ q, q ≠ p.val → e.port q = s.dev.port q) ∧
        e.fget F.LNK_EVENT_REPLAY a = 1 ∧ regsBut (evKeys E.LNK_REPLAY a) s.dev e ∧
        e = { s.dev with regs := e.regs, ports := e.ports, out := e.out }) ∧
    (frameGood s.dev p.val f 1 → s.dev.link p.val = 3 → s.dev.half (portHalf p.val) < 6 → (f.last = false ∨ f.sched = true) →
      (f.sched = false → s.dev.rate p.val f.vc.toNat ≠ 0 ∧ f.units.toNat ≤ s.dev.creditLeft p.val f.vc.toNat) →
      (f.sched = true → bit (s.dev.slotMask p.val) f.slot.toNat = true ∧
        (x.slotUsed[f.slot.toNat]?).getD 0 + f.units.toNat ≤ s.dev.slotUnits p.val) →
      (∀ r ∈ x.rx, ¬(r.xfer = f.xfer.toNat ∧ r.sched = f.sched ∧ r.vc = f.vc.toNat ∧ r.done = false)) →
      Does (.dataFrame p f) s fun e =>
        (e.port p.val).rx = x.rx ++ [⟨f.xfer.toNat, f.sched, f.vc.toNat, if f.sched then 0 else s.dev.frameClass p.val f, f.last, frameTokens f⟩] ∧
        (e.port p.val).rxSeq = (x.rxSeq + 1) % 65536 ∧ (∀ q, q ≠ p.val → e.port q = s.dev.port q) ∧
        regsBut [F.LNK_RX_UNITS_COUNT.key a] s.dev e ∧ e = { s.dev with regs := e.regs, ports := e.ports, out := e.out }) ∧
    (frameGood s.dev p.val f 0 → exec (.idleFrame p f) s = .next s) ∧
    (∀ tk bt ep ct, frameGood s.dev p.val f 10 → exec (.sealFrame p f tk bt ep ct) s = .next s) ∧
    (∀ (ack : BitVec 16) cs, frameGood s.dev p.val f 2 → x.wait = [] → (∃ t ∈ x.replay, t.seq = ack.toNat) →
      Does (.creditFrame p f ack none cs) s fun e =>
        (e.port p.val).replay = x.replay.dropWhile (fun t => t.seq != ack.toNat) ∧
        (e.port p.val).txCred = x.txCred.zipIdx.map (fun c => c.1 + (cs[c.2]?).getD 0) ∧ (e.port p.val).rxSeq = x.rxSeq ∧
        (∀ q, q ≠ p.val → e.port q = s.dev.port q) ∧ e = { s.dev with ports := e.ports }) ∧
    (∀ rtt tu, frameGood s.dev p.val f 6 → s.dev.half (portHalf p.val) ≠ 6 → Does (.delayFrame p f false rtt tu) s fun e =>
      (∃ o, e.out = s.dev.out ++ [o]) ∧ e = { s.dev with out := e.out }) ∧
    (∀ (code : BitVec 3) (sp : BitVec 4) ch, frameGood s.dev p.val f 7 → s.dev.link p.val = 3 → x.quarLocal = false → x.halfRx = false →
      Does (.stateFrame p f 1 code false sp ch) s fun e => e.partner p.val = 1 ∧ e.link p.val = 3 ∧
        e.fget F.LNK_PARTNER_STATE a = code.toNat ∧ e.fget F.LNK_STATUS_SPARE_TX a = sp.toNat ∧ e.fget F.LNK_STATUS_SCHED_OK a = 1 ∧
        e.port p.val = { x with rxSeq := (x.rxSeq + 1) % 65536, nak := false, halfTx := false, child := ch } ∧
        e = { s.dev with regs := e.regs, ports := e.ports, mg := e.mg, out := e.out }) ∧
    (∀ i : Ident, frameGood s.dev p.val f 5 → s.dev.link p.val = 2 → x.step = 3 →
      (i.chainOk = true → s.dev.sec.revoked.contains i.serial.toNat = false → i.sealReq = false → s.dev.flag F.LNK_CTRL_SEAL_REQ a = false →
        s.dev.neighbourOk p.val i.claimed.toNat i.port.toNat i.serial.toNat = true →
        Does (.admitFrame p f (some i)) s fun e => (e.port p.val).step = 5 ∧ e.link p.val = 2 ∧
          e.fget F.LNK_PARTNER_FABRIC_ID a = i.claimed.toNat ∧ e.fget F.LNK_PARTNER_SERIAL_SERIAL a = i.serial.toNat ∧ memSame s.dev e) ∧
      ((i.chainOk = false ∨ s.dev.sec.revoked.contains i.serial.toNat = true) → Does (.admitFrame p f (some i)) s fun e =>
        e.link p.val = 6 ∧ e.partner p.val = 0 ∧ e.fget F.LNK_ADMIT_STATUS a = stAuthFailed ∧ memSame s.dev e)) ∧
    (∀ (st : BitVec 8) (xf : Xfer), frameGood s.dev p.val f 8 → s.dev.link p.val ≠ 4 → xf.origin.toNat = s.dev.me → 0x8000 ≤ f.xfer.toNat →
      fmGet s.dev.fab.reqs xf.index.toNat = none → Does (.refuseFrame p f st xf) s fun e => e.fget F.FAB_EVENT_LATE_RESPONSE = 1 ∧
        regsBut (evKeys E.FAB_LATE_RESPONSE) s.dev e ∧ e = { s.dev with regs := e.regs, ports := e.ports, out := e.out }) ∧
    (∀ es, frameGood s.dev p.val f 4 → s.dev.link p.val ≠ 4 → s.dev.half (portHalf p.val) ≠ 6 → x.child = true → s.dev.isMaster = false →
      s.dev.votes = true → (∀ v ∈ es, v.result = false ∧ v.count ≠ 0) →
      (∀ w, s.dev.fab.waves = [w] → w.tick % 65536 = f.xfer.toNat → Does (.voteFrame p f es) s fun e =>
        e.fab = { s.dev.fab with waves := [{ w with entries := es.foldl mergeVote w.entries, done := if f.last then w.done ++ [p.val] else w.done }] } ∧
        e = { s.dev with ports := e.ports, fab := e.fab, out := e.out }) ∧
      (∀ w, s.dev.fab.waves = [] → s.dev.fab.lastWave = some w → w % 65536 = f.xfer.toNat → Does (.voteFrame p f es) s fun e =>
        e.fab = { s.dev.fab with votes := s.dev.fab.votes ++ es } ∧ e.fget F.FAB_EVENT_VOTE_LATE = 1 ∧
        e = { s.dev with regs := e.regs, ports := e.ports, fab := e.fab, out := e.out })) ∧
    (∀ (tg : BitVec 16) u, frameGood s.dev p.val f 9 → s.dev.link p.val ≠ 4 → s.dev.half (portHalf p.val) ≠ 6 → tg.toNat = s.dev.me →
      Does (.mgmtFrame p f tg (.other u)) s fun e =>
        e.port p.val = { x with rxSeq := (x.rxSeq + 1) % 65536, nak := false } ∧ e = { s.dev with ports := e.ports, out := e.out })

/-- R328 and R331 for admission; R320, R326, R336, R338, R340. -/
def Obligations.PortsAdmitRetrainQuarantineAndSeal : Prop :=
  ∀ (s : State) (p : PortId), s.dev.live = true → ∀ x a k, x = s.dev.port p.val → a = portAdd p.val → k = s.dev.link p.val →
    ((k = 0 ∨ k = 5) → Does (.admission p) s fun e => startsTraining s.dev e p.val) ∧
    (k ≠ 0 → k ≠ 5 → exec (.admission p) s = .next s) ∧
    (k = 6 → Does (.backoffExpired p) s fun e => startsTraining s.dev e p.val) ∧
    (k ≠ 6 → exec (.backoffExpired p) s = .next s) ∧
    ((k = 2 ∨ k = 3 ∨ k = 4) →
      (Does (.retrain p) s fun e => startsTraining s.dev e p.val ∧ e.fget F.LNK_EVENT_RETRAIN a = 1) ∧
      (Does (.laneLockLoss p) s fun e => startsTraining s.dev e p.val ∧ (e.port p.val).txSeq = 0 ∧ (e.port p.val).rxSeq = 0 ∧
        (e.port p.val).replay = [])) ∧
    (k ≠ 2 → k ≠ 3 → k ≠ 4 → exec (.retrain p) s = .next s ∧ exec (.laneLockLoss p) s = .next s) ∧
    (∀ ok eye n good, k = 1 → n = activeLanes p.val → good = (List.range (n + 1)).filter (fun l => (ok[l]?).getD false) →
      (2 * good.length < n → Does (.laneTrainingDone p ok eye) s fun e => e.link p.val = 6 ∧ e.partner p.val = 0 ∧
        e.fget F.LNK_ADMIT_STATUS a = stTimeout ∧ e.fget F.LNK_ADMIT_STEP a = 1 ∧ memSame s.dev e) ∧
      (n ≤ 2 * good.length → Does (.laneTrainingDone p ok eye) s fun e => e.link p.val = 2 ∧ (e.port p.val).step = 3 ∧
        (e.port p.val).halfRx = decide (good.length < n) ∧ (e.port p.val).txSeq = (x.txSeq + 3) % 65536 ∧ memSame s.dev e)) ∧
    ((k = 1 ∨ k = 2) → Does (.admissionTimeout p) s fun e => e.link p.val = 6 ∧ e.partner p.val = 0 ∧
      e.fget F.LNK_ADMIT_STATUS a = stTimeout ∧ (e.port p.val).backoff = (if x.backoff = 0 then 1 else min 64 (2 * x.backoff)) ∧
      e.fget F.LNK_EVENT_ADMIT_FAIL a = 1 ∧ memSame s.dev e) ∧
    (k ≠ 1 → k ≠ 2 → exec (.admissionTimeout p) s = .next s) ∧
    (∀ lane : BitVec 4, k = 3 → lane.toNat < activeLanes p.val →
      (s.dev.fget F.LNK_STATUS_SPARE_RX a = 0xF → s.dev.flag F.LNK_LANE_FAILED (a + 8 * activeLanes p.val) = false → x.halfRx = false →
        Does (.spareSub p lane) s fun e => e.fget F.LNK_STATUS_SPARE_RX a = lane.toNat ∧ e.fget F.LNK_LANE_FAILED (a + 8 * lane.toNat) = 1 ∧
          e.fget F.LNK_LANE_ACTIVE (a + 8 * lane.toNat) = 0 ∧ e.fget F.LNK_LANE_ACTIVE (a + 8 * activeLanes p.val) = 1 ∧
          e.fget F.LNK_EVENT_SPARE_SUB a = 1 ∧ e.link p.val = 3 ∧
          e = { s.dev with regs := e.regs, ports := e.ports, out := e.out, free := e.free }) ∧
      ((s.dev.fget F.LNK_STATUS_SPARE_RX a ≠ 0xF ∨ x.halfRx = true) → Does (.spareSub p lane) s fun e => startsTraining s.dev e p.val)) ∧
    (∀ who, s.dev.mayWrite who (0x7000010 + a) = true →
      ((k = 2 ∨ k = 3 ∨ k = 4) → Does (.quarantine who p) s fun e => e.link p.val = 4 ∧ e.partner p.val = 5 ∧
        (e.port p.val).quarLocal = true ∧ e.fget F.LNK_EVENT_QUARANTINED a = 1 ∧ memSame s.dev e) ∧
      (k ≠ 2 → k ≠ 3 → k ≠ 4 → Does (.quarantine who p) s fun e => e.fget F.LNK_CTRL_QUARANTINE a = 0 ∧
        e.fget F.LNK_CTRL_RELEASE a = 0 ∧ e = { s.dev with regs := e.regs }) ∧
      (k = 4 → Does (.release who p) s fun e => e.link p.val = 2 ∧ (e.port p.val).step = 3 ∧ (e.port p.val).quarLocal = false ∧
        e.fget F.LNK_STATUS_QUAR_REMOTE a = 0 ∧ memSame s.dev e) ∧
      (k ≠ 4 → Does (.release who p) s fun e => e.fget F.LNK_CTRL_RELEASE a = 0 ∧ regsBut [F.LNK_CTRL_RELEASE.key a] s.dev e ∧
        e = { s.dev with regs := e.regs }) ∧
      (Does (.readmit who p) s fun e => startsTraining s.dev e p.val ∧ e.fget F.LNK_EVENT_RETRAIN a = 1)) ∧
    (∀ who, s.dev.mayWrite who (0x7000010 + a) = false →
      exec (.quarantine who p) s = .next s ∧ exec (.release who p) s = .next s ∧ exec (.readmit who p) s = .next s) ∧
    (x.replay = [] → exec (.replayTimeout p) s = .next s) ∧
    (∀ f l, x.replay = f :: l → (k = 3 ∨ k = 4) → (∀ t ∈ x.replay, t.sent < 7) → s.dev.flag F.LNK_STATUS_SEALED a = false →
      s.dev.half (portHalf p.val) ≠ 6 →
      (s.dev.inGuard = false → Does (.replayTimeout p) s fun e =>
        e.port p.val = { x with replay := x.replay.map fun t => { t with sent := t.sent + 1 }, replayAt := none } ∧
        e.fget F.LNK_EVENT_REPLAY a = 1 ∧ (∃ o, e.out = s.dev.out ++ o ∧ o.length = x.replay.length) ∧
        e = { s.dev with regs := e.regs, ports := e.ports, out := e.out }) ∧
      (s.dev.inGuard = true → f.sched = true → Does (.replayTimeout p) s fun e =>
        e.port p.val = { x with replay := x.replay.map fun t => { t with sent := t.sent + 1 }, replayAt := some f.seq } ∧
        e.out = s.dev.out ∧ e = { s.dev with regs := e.regs, ports := e.ports })) ∧
    (s.dev.flag F.LNK_STATUS_SEALED a = true →
      (x.txInBatch ≠ 0 → Does (.sealBatchClose p) s fun e => e.port p.val = { x with txBatch := x.txBatch + 1, txInBatch := 0 } ∧
        (∃ o, e.out = s.dev.out ++ [o]) ∧ e = { s.dev with ports := e.ports, out := e.out, free := e.free }) ∧
      (x.txInBatch = 0 → exec (.sealBatchClose p) s = .next s) ∧
      (Does (.keySwitch p) s fun e => (e.port p.val).keyEpoch = (x.keyEpoch + 1) % 256 ∧ (e.port p.val).txBatch = 0 ∧
        (e.port p.val).rxBatch = 0 ∧ e = { s.dev with ports := e.ports, out := e.out, free := e.free })) ∧
    (s.dev.flag F.LNK_STATUS_SEALED a = false → exec (.sealBatchClose p) s = .next s ∧ exec (.keySwitch p) s = .next s)

/-- R350, R351 and R353 with Tables 14-2 and 14-3. -/
def Obligations.RemoteOperationsAreCheckedServedAndAnswered : Prop :=
  ∀ (s : State) (p : PortId) (out : Nat) (r : RxXfer) (x : Xfer) (a : Nat), s.dev.live = true → a = x.addr.toNat →
    (∀ es e, ∀ z ∈ ([(.remoteLoad p out es, 1), (.remoteStore p out, 2), (.remoteCopy p out es, 3), (.remoteAdd p out e, 4),
        (.remoteMax p out e, 5), (.remoteSwap p out e, 6), (.remoteCas p out e, 7)] : List (Instr × Nat)),
      (s.dev.arrived p.val z.2 = none → exec z.1 s = .next s) ∧
      (∀ st, s.dev.arrived p.val z.2 = some (r, x) → (s.dev.targetCheck p.val x out).1 = some st →
        Does z.1 s fun e => responds s.dev e p.val r x st 0 0 [] ∧ turnedAway s.dev e)) ∧
    ((s.dev.targetCheck p.val x out).1 = none →
      (s.dev.arrived p.val 1 = some (r, x) → Does (.remoteLoad p out []) s fun e =>
        responds s.dev e p.val r x stOk 0 0
          (if x.len = 8 then [(.ofNat 512 (if s.dev.isPoison a then 0 else leNat (memBytes s.dev.mem a 8)), s.dev.isPoison a)]
           else (List.range (x.len.toNat / 64)).map fun k => rowAt s.dev (a + 64 * k)) ∧
        memSame s.dev e ∧ served a x.len.toNat s.dev e) ∧
      (s.dev.arrived p.val 2 = some (r, x) → Does (.remoteStore p out) s fun e =>
        (∀ v : Row × Bool, x.len = 8 → x.rows.head? = some v →
          (v.2 = false → leNat (memBytes e.mem a 8) = v.1.toNat % 2 ^ 64) ∧ e.isPoison a = v.2) ∧
        (∀ k v, x.len ≠ 8 → k < x.len.toNat / 64 → x.rows[k]? = some v → rowStored e (a + 64 * k) v) ∧
        memBut a (a + x.len.toNat) s.dev e ∧ responds s.dev e p.val r x stOk 0 0 [] ∧ served a x.len.toNat s.dev e) ∧
      (s.dev.arrived p.val 3 = some (r, x) → Does (.remoteCopy p out []) s fun e =>
        (xferPull x = true → memSame s.dev e ∧
          responds s.dev e p.val r x stOk 0 0 ((List.range (64 * x.len.toNat)).map fun k => rowAt s.dev (a + 64 * k))) ∧
        (xferPull x = false → responds s.dev e p.val r x stOk 0 0 [] ∧ memBut a (a + 4096 * x.len.toNat) s.dev e ∧
          ∀ k v, k < 64 * x.len.toNat → x.rows[k]? = some v → rowStored e (a + 64 * k) v) ∧
        served a (4096 * x.len.toNat) s.dev e) ∧
      (∀ w, w = leNat (memBytes s.dev.mem a 8) →
        ∀ z ∈ ([(.remoteAdd p out .none, 4, min (w + x.operand.toNat) (2 ^ 64 - 1), if 2 ^ 64 ≤ w + x.operand.toNat then 1 else 0),
          (.remoteMax p out .none, 5, max w x.operand.toNat, 0), (.remoteSwap p out .none, 6, x.operand.toNat, 0),
          (.remoteCas p out .none, 7, if w = x.compare.toNat then x.operand.toNat else w, 0)] : List (Instr × Nat × Nat × Nat)),
        s.dev.arrived p.val z.2.1 = some (r, x) →
        (s.dev.isPoison a = false → Does z.1 s fun e =>
          leNat (memBytes e.mem a 8) = z.2.2.1 ∧ e.isPoison a = false ∧ memBut a (a + 8) s.dev e ∧
          responds s.dev e p.val r x stOk z.2.2.2 w [] ∧ served a 8 s.dev e) ∧
        (s.dev.isPoison a = true → Does z.1 s fun e =>
          memSame s.dev e ∧ responds s.dev e p.val r x stPoison 0 0 [] ∧ served a 8 s.dev e)))

/-- R374, R375, R379 and R380 at the holder. -/
def Obligations.EscrowTransfersAndParityReachTheHolder : Prop :=
  ∀ (s : State) (p : PortId) (out : Nat) (r : RxXfer) (x : Xfer) (off n : Nat), s.dev.live = true → off = x.addr.toNat →
    n = 4096 * x.len.toNat →
    (∀ es, s.dev.arrived p.val 3 true = none →
      exec (.escrowTransfer p out es) s = .next s ∧ exec (.parityDelta p out) s = .next s) ∧
    (s.dev.arrived p.val 3 true = some (r, x) → bit x.operand.toNat 63 = false →
      exec (.parityDelta p out) s = .next s ∧
      ((bit x.operand.toNat 61 = true ∨ bit x.operand.toNat 60 = true) →
        (s.dev.originCheck p.val x (portHalf p.val)).1 = none → x.tenant.toNat = s.dev.tagOf (portHalf p.val) →
        ∀ is, is = ((survItems (s.dev.imageBytes (portHalf p.val)) 2).filter fun i => hiTensor i != 0xFFFF && hiOwner i == x.origin.toNat) →
        (bit x.operand.toNat 61 = false → ∀ es, Does (.escrowTransfer p out es) s fun e =>
          (∀ i ∈ is, e.slotState i true = 0) ∧ e.srv = { s.dev.srv with parPend := [], stripes := [] } ∧
          e = { s.dev with regs := e.regs, mem := e.mem, ports := e.ports, srv := e.srv }) ∧
        (∀ i, bit x.operand.toNat 61 = true → is = [i] → s.dev.srv.parPend = [] → ∀ es, Does (.escrowTransfer p out es) s fun e =>
          (s.dev.slotState i true = 2 → e.curSlot i = !s.dev.curSlot i) ∧
          (s.dev.slotState i true ≠ 2 → e.srv = s.dev.srv) ∧
          e = { s.dev with regs := e.regs, mem := e.mem, poison := e.poison, ports := e.ports, srv := { s.dev.srv with cur := e.srv.cur } })) ∧
      (bit x.operand.toNat 61 = false → bit x.operand.toNat 60 = false →
      (∀ es, s.dev.escrowItem p.val x = none → Does (.escrowTransfer p out es) s fun e =>
        responds s.dev e p.val r x stTenantMismatch 0 0 [] ∧ turnedAway s.dev e) ∧
      (∀ i a, s.dev.escrowItem p.val x = some i → a = s.dev.slotAddr i (!xferPull x) → a % 64 = 0 →
        (∀ es st, (s.dev.formCheck p.val x (s.dev.addrHalf a) out).1 = some st → Does (.escrowTransfer p out es) s fun e =>
          responds s.dev e p.val r x st 0 0 [] ∧ turnedAway s.dev e) ∧
        ((s.dev.formCheck p.val x (s.dev.addrHalf a) out).1 = none →
          (∀ es, off % 4096 ≠ 0 → Does (.escrowTransfer p out es) s fun e =>
            responds s.dev e p.val r x stAlign 0 0 [] ∧ turnedAway s.dev e) ∧
          (off % 4096 = 0 → off + n ≤ hiHeader i + 4096 → x.tenant.toNat = s.dev.tagOf (portHalf p.val) →
            (xferPull x = true → Does (.escrowTransfer p out []) s fun e => memSame s.dev e ∧ served (a + off) n s.dev e ∧
              responds s.dev e p.val r x stOk 0 0 ((List.range (64 * x.len.toNat)).map fun k => rowAt s.dev (a + off + 64 * k))) ∧
            (∀ es, xferPull x = false → Does (.escrowTransfer p out es) s fun e => served (a + off) n s.dev e ∧
              (∀ k v, k < 64 * x.len.toNat → x.rows[k]? = some v → rowStored e (a + off + 64 * k) v) ∧
              (off ≤ 4096 * hiIngots i → 4096 * hiIngots i < off + n → off + n ≤ hiHeader i → e.slotGood i true = false →
                e.slotState i true = 3 ∧ responds s.dev e p.val r x stDigestMismatch 0 0 []) ∧
              (¬(off ≤ 4096 * hiIngots i ∧ 4096 * hiIngots i < off + n ∧ off + n ≤ hiHeader i) ∨ e.slotGood i true = true →
                memBut (a + off) (a + off + n) s.dev e ∧ responds s.dev e p.val r x stOk 0 0 []))))))) ∧
    (∀ sh j k pend v, s.dev.arrived p.val 3 true = some (r, x) → bit x.operand.toNat 63 = true →
      survHdr (s.dev.imageBytes (portHalf p.val)) = some sh → j = x.operand.toNat % 2 ^ 32 → k = j / 8 → x.rows.length = 64 →
      v = (x.rows.flatMap fun q => rowBytes q.1) → pend = s.dev.parAddr sh k true →
      (∀ es, exec (.escrowTransfer p out es) s = .next s) ∧
      (∀ st, (s.dev.formCheck p.val x (portHalf p.val) out).1 = some st → Does (.parityDelta p out) s fun e =>
        responds s.dev e p.val r x st 0 0 [] ∧ turnedAway s.dev e) ∧
      ((s.dev.formCheck p.val x (portHalf p.val) out).1 = none → k < shGroups sh → j % 8 = rankOf s.dev.me →
        s.dev.inSheaf x.origin.toNat = true → rankOf x.origin.toNat ≠ rankOf s.dev.me → x.tenant.toNat = s.dev.tagOf (portHalf p.val) →
        Does (.parityDelta p out) s fun e =>
          responds s.dev e p.val r x stOk 0 0 [] ∧ memBut pend (pend + 4096) s.dev e ∧
          e = { s.dev with regs := e.regs, mem := e.mem, poison := e.poison, ports := e.ports, fab := { s.dev.fab with detours := e.fab.detours }, srv := e.srv, out := e.out, free := e.free } ∧
          (bit x.operand.toNat 62 = false →
            e.ingot pend = xorBytes (s.dev.ingot (if s.dev.srv.parPend.contains k then pend else s.dev.parAddr sh k false)) v ∧
            e.srv = { s.dev.srv with parPend := if s.dev.srv.parPend.contains k then s.dev.srv.parPend else s.dev.srv.parPend ++ [k] }) ∧
          (bit x.operand.toNat 62 = true → ∀ got more, got = (fmGet s.dev.srv.stripes k).getD [] →
            more = (if got.contains (rankOf x.origin.toNat) then got else got ++ [rankOf x.origin.toNat]) →
            e.ingot pend = (if got.contains (rankOf x.origin.toNat) then s.dev.ingot pend
              else if got = [] then v else xorBytes (s.dev.ingot pend) v) ∧
            (more.length < 7 → e.srv = { s.dev.srv with stripes := fmSet s.dev.srv.stripes k more }) ∧
            (7 ≤ more.length → fmGet e.srv.stripes k = none ∧ e.parAddr sh k false = pend ∧
              e.srv.parPend = s.dev.srv.parPend.erase k))))

/-- R357 to R361 with R275's replay count, R297 and R299. -/
def Obligations.StreamTransfersAndCollectiveChunks : Prop :=
  ∀ (s : State) (p : PortId), s.dev.live = true →
    (∀ (slot : BitVec 2),
      (s.dev.fget F.TAL_PHASE_CYCLE ≠ slot.toNat * (s.dev.cyclesPerTick / 4) → exec (.scheduledSlot p slot) s = .next s) ∧
      (s.dev.attemptTick (portHalf p.val) = none → exec (.scheduledSlot p slot) s = .next s) ∧
      ∀ a items, s.dev.attemptTick (portHalf p.val) = some a → items = s.dev.schedItems (portHalf p.val) →
        s.dev.fget F.TAL_PHASE_CYCLE = slot.toNat * (s.dev.cyclesPerTick / 4) →
        ((∀ i ∈ items, slotItemNow p.val slot.toNat a i = false) → exec (.scheduledSlot p slot) s = .next s) ∧
        ∀ si it k key x,
          items.zipIdx.filter (fun i => slotItemNow p.val slot.toNat a i.1) = [si] →
          items.find? (fun i => isStreamItem 0 i && siSched i && siXfer i == leAt si.1 4 2 && leAt i 7 1 == p.val) = some it →
          k = slotIndex items.zipIdx si a → key = siKey it → x = s.dev.sendS key →
          (∀ t, t ∈ x.ready → t.idx = k → t.mark = none → (∀ u ∈ x.ready, u.idx = k → u.mark = none → u = t) → x.mayStart it k = true →
            (s.dev.schedEn = true → s.dev.flag F.LNK_STATUS_SCHED_OK (portAdd p.val) = true →
              (∀ f ∈ (s.dev.port p.val).wait, f.sched = false) → Does (.scheduledSlot p slot) s fun e =>
              e.sendS key = { x with ready := x.ready.filter (· != t), sent := x.sent ++ [t] } ∧
              framesOn e p.val none = framesOn s.dev p.val none ++
                (framesOf true 0 0 slot.toNat (siXfer it) (t.rows.length + 1) t.rows).map frameBody ∧
              (∀ c, framesOn e p.val (some c) = framesOn s.dev p.val (some c)) ∧
              (e.port p.val).schedSlots = (s.dev.port p.val).schedSlots ++ [slot.toNat] ∧
              (∀ q, q ≠ p.val → e.port q = s.dev.port q) ∧ regsBut sendKeys s.dev e ∧
              e = { s.dev with regs := e.regs, ports := e.ports, fab := { s.dev.fab with sends := e.fab.sends }, out := e.out, free := e.free }) ∧
            ((s.dev.schedEn = false ∨ s.dev.flag F.LNK_STATUS_SCHED_OK (portAdd p.val) = false) → x.ready = [t] →
              (s.dev.route (siPeer it) none).port.isSome = true → siPeer it < 65536 → Does (.scheduledSlot p slot) s fun e =>
              e.sendS key = { x with ready := [], sent := x.sent ++ [t], missed := x.missed.filter (· != k) } ∧
              sendsXfer s.dev e (s.dev.route (siPeer it) none).port
                { Xfer.blank with flags := 2, tenant := .ofNat 16 (s.dev.tagOf (portHalf p.val)), origin := .ofNat 16 s.dev.me, target := .ofNat 16 (siPeer it), index := .ofNat 32 k, rows := t.rows }
                (siXfer it) 0 ∧ memSame s.dev e)) ∧
          ((∀ u ∈ x.ready, u.idx = k → u.mark ≠ none) →
            (k < x.next → exec (.scheduledSlot p slot) s = .next s) ∧
            (x.next ≤ k → Does (.scheduledSlot p slot) s fun e => e.sendS key = { x with missed := x.missed ++ [k] } ∧
              (∀ z, z ≠ key → e.sendS z = s.dev.sendS z) ∧ e = { s.dev with fab := { s.dev.fab with sends := e.fab.sends } }))) ∧
    (∀ (peer xfer : BitVec 16) k x key, key = peer.toNat * 65536 + xfer.toNat → x = s.dev.sendS key →
      ((k ≠ x.released ∨ ∀ t ∈ x.sent, t.idx ≠ k) → exec (.streamRelease peer xfer k) s = .next s) ∧
      (k = x.released → (∃ t ∈ x.sent, t.idx = k) → x.ready = [] → Does (.streamRelease peer xfer k) s fun e =>
        e.sendS key = { x with released := k + 1, sent := x.sent.filter (·.idx != k) } ∧
        (∀ z, z ≠ key → e.sendS z = s.dev.sendS z) ∧ e = { s.dev with fab := { s.dev.fab with sends := e.fab.sends } })) ∧
    (∀ k pid es, s.dev.streamIn p.val k = none →
      exec (.streamTransfer p k pid es) s = .next s ∧ exec (.collectiveChunk p k pid es) s = .next s) ∧
    (∀ k pid r x sx, s.dev.streamIn p.val k = some (r, x, sx) → (r.sched = true ∨ (s.dev.originCheck p.val x (portHalf p.val)).1 = none) →
      (∀ es, s.dev.recvItem p.val sx.peer sx.xfer = none → exec (.collectiveChunk p k pid es) s = .next s ∧
        Does (.streamTransfer p k pid es) s fun e => e.fget F.FAB_EVENT_STREAM_UNKNOWN = 1 ∧ turnedAway s.dev e ∧
          (r.sched = false → responds s.dev e p.val r x stBadFormat 0 0 [])) ∧
      (∀ i, s.dev.recvItem p.val sx.peer sx.xfer = some i →
        (∀ es, leAt i 11 1 = 0 → exec (.collectiveChunk p k pid es) s = .next s) ∧
        (∀ es, leAt i 11 1 ≠ 0 → exec (.streamTransfer p k pid es) s = .next s) ∧
        (∀ es c, (c, leAt i 11 1 != 0) ∈ ([(.streamTransfer p k pid es, false), (.collectiveChunk p k pid es, true)] : List (Instr × Bool)) →
          (s.dev.half (portHalf p.val) ≠ 4 → s.dev.half (portHalf p.val) ≠ 5 → Does c s fun e => turnedAway s.dev e ∧
            e.fab.recvs = s.dev.fab.recvs ∧ (r.sched = false → responds s.dev e p.val r x stBusy 0 0 [])) ∧
          ((s.dev.half (portHalf p.val) = 4 ∨ s.dev.half (portHalf p.val) = 5) →
            (s.dev.staleReplay i pid = true ∨ s.dev.deliveredAlready i sx pid = true) → Does c s fun e =>
            (e.port p.val).rx = (s.dev.port p.val).rx.erase r ∧ e = { s.dev with ports := e.ports }) ∧
          ((s.dev.half (portHalf p.val) = 4 ∨ s.dev.half (portHalf p.val) = 5) → es = [] → siRing i sx.idx % 64 = 0 →
            s.dev.staleReplay i pid = false → s.dev.deliveredAlready i sx pid = false →
            ∀ y b bad tok, y = (s.dev.newReplay i sx.idx pid).recvS (siKey i) → y.held = [] →
              b = (if sx.mark.isSome then y.bufs else fmMod y.bufs pid.index (pid.step, pid.replays, 0) fun n => (n.1, n.2.1, n.2.2 + 1)) →
              (sx.mark.isSome = true → bad = false) → (sx.mark = none → bad = sx.rows.any (·.2)) →
              tok = s.dev.queue (siTile i) (siSlotQ i) → Does c s fun e =>
              (e.port p.val).rx = (s.dev.port p.val).rx.erase r ∧
              (y.next ≠ sx.idx →
                (∃ z, e.recvS (siKey i) = { y with held := [(sx.idx, sx.mark, bad)], bufs := b, sums := z }) ∧ e.queues = s.dev.queues) ∧
              (y.next = sx.idx →
                (∃ z, e.recvS (siKey i) =
                  { y with
                    next := if sx.mark.isSome then y.next else y.next + 1
                    queued := y.queued ++ [sx.mark.isSome], bufs := b, sums := z }) ∧
                (tok.tokens.length < tok.depth → tok.seq < 4096 → ∃ v, (e.queue (siTile i) (siSlotQ i)).tokens =
                    tok.tokens ++ [⟨.ofNat 3 (if sx.mark.isSome then kMark else if bad then kPoison else kData), tok.epoch, .ofNat 12 tok.seq, v⟩] ∧
                  (∀ m, sx.mark = some m → v = .ofNat 512 m))) ∧
              (sx.mark.isSome = true → memSame s.dev e ∧ e.fab.reduced = s.dev.fab.reduced) ∧
              (sx.mark = none → leAt i 11 1 = 0 →
                (∀ j v, sx.rows[j]? = some v → rowStored e (siRing i sx.idx + 64 * j) v) ∧
                memBut (siRing i sx.idx) (siRing i sx.idx + 64 * sx.rows.length) s.dev e ∧ e.fab.reduced = s.dev.fab.reduced) ∧
              (sx.mark = none → leAt i 11 1 ≠ 0 → ∀ far own sum, far = elemsOf (siFp32 i) sx.rows →
                own = elemsOf (siFp32 i) ((List.range sx.rows.length).map fun j => rowAt s.dev (siRing i sx.idx + 64 * j)) →
                sum = addElems far own →
                memSame s.dev e ∧
                (leAt i 11 1 = 1 → e.fab.reduced = s.dev.fab.reduced ∧
                  (y.next ≠ sx.idx → fmGet (e.recvS (siKey i)).sums sx.idx = some sum) ∧
                  ∀ nx, y.next = sx.idx →
                    (s.dev.schedItems (tileHalf (siTile i))).find? (fun z => isStreamItem 0 z && siXfer z == leAt i 24 2) = some nx →
                    (e.sendS (siKey nx)).next = (s.dev.sendS (siKey nx)).next + 1 ∧
                    ⟨(s.dev.sendS (siKey nx)).next, none, rowsOf (siFp32 nx) (sum.length + 1) sum, s.dev.outputPass (tileHalf (siTile i))⟩ ∈
                      (e.sendS (siKey nx)).ready ++ (e.sendS (siKey nx)).sent) ∧
                (∀ key, leAt i 11 1 ≠ 1 → s.dev.inSheaf (siPeer i) = false →
                  key = 2 * s.dev.updKey (portHalf p.val) (leAt i 13 1) + (if p.val % 2 = 1 then 0 else 1) →
                  fmGet e.fab.reduced key = some (fmSet ((fmGet s.dev.fab.reduced key).getD []) sx.idx sum) ∧
                  (∀ z, z ≠ key → fmGet e.fab.reduced z = fmGet s.dev.fab.reduced z) ∧
                  e.isNf (portHalf p.val) (leAt i 13 1) = (s.dev.isNf (portHalf p.val) (leAt i 13 1) || sum.any sumBad)) ∧
                (∀ key got, leAt i 11 1 ≠ 1 → s.dev.inSheaf (siPeer i) = true →
                  key = s.dev.updKey (portHalf p.val) (leAt i 13 1) * 2 ^ 32 + sx.idx →
                  got = fmSet ((fmGet s.dev.fab.parts key).getD []) (rankOf (siPeer i)) far →
                  (∃ q ∈ s.dev.sheafRanks (portHalf p.val) (leAt i 13 1), fmGet got q = none) →
                  fmGet e.fab.parts key = some got ∧ e.fab.reduced = s.dev.fab.reduced))))))

/-- Table 14-4, R363, R364. -/
def Obligations.AnswersTimeoutsResendsAndVoteWaves : Prop :=
  ∀ (s : State), s.dev.live = true →
    (∀ (p : PortId), (s.dev.arrived p.val 8).or (s.dev.arrived p.val 8 true) = none → exec (.remoteResponse p) s = .next s) ∧
    (∀ (p : PortId) r x tag, (s.dev.arrived p.val 8).or (s.dev.arrived p.val 8 true) = some (r, x) → tag = x.index.toNat → 0x8000 ≤ r.xfer →
      (fmGet s.dev.fab.reqs tag = none → Does (.remoteResponse p) s fun e => e.fget F.FAB_EVENT_LATE_RESPONSE = 1 ∧
        (e.port p.val).rx = (s.dev.port p.val).rx.erase r ∧ regsBut (evKeys E.FAB_LATE_RESPONSE) s.dev e ∧
        e = { s.dev with regs := e.regs, ports := e.ports }) ∧
      (∀ q, fmGet s.dev.fab.reqs tag = some q → isStream q.use = false →
        (x.status.toNat = stOk → Does (.remoteResponse p) s fun e =>
          (e.port p.val).rx = (s.dev.port p.val).rx.erase r ∧
          (∀ k, fmGet e.fab.reqs k = if k = tag then none else fmGet s.dev.fab.reqs k) ∧
          (∀ t sl, q.use = .unit t sl → memSame s.dev e ∧ (q.x.op = 1 → (e.slot t sl).walk =
            (s.dev.slot t sl).walk.map fun w => { w with ahead := fillAt q.x.addr.toNat (x.rows.headD (0, true)) w.ahead })) ∧
          (∀ h seq, q.use = .copy h seq →
            (∀ n, s.dev.entry h seq = some n → n.state < 3 → endedAs e h seq 3 stOk) ∧
            (xferPull q.x = false → memSame s.dev e) ∧
            (xferPull q.x = true → q.x.src.toNat % 64 = 0 →
              (∀ k v, k < 64 * q.x.len.toNat → x.rows[k]? = some v → rowStored e (q.x.src.toNat + 64 * k) v) ∧
              memBut q.x.src.toNat (q.x.src.toNat + 4096 * q.x.len.toNat) s.dev e))) ∧
        (x.status.toNat = stBusy → q.tries < s.dev.fget F.FAB_CTRL_RETRIES → Does (.remoteResponse p) s fun e =>
          (e.port p.val).rx = (s.dev.port p.val).rx.erase r ∧
          (∀ k, fmGet e.fab.reqs k = if k = tag then some { q with held := true, tries := q.tries + 1 } else fmGet s.dev.fab.reqs k) ∧
          e = { s.dev with ports := e.ports, fab := { s.dev.fab with reqs := e.fab.reqs } }) ∧
        (x.status.toNat ≠ stOk → (x.status.toNat = stBusy → s.dev.fget F.FAB_CTRL_RETRIES ≤ q.tries) →
          ((x.status.toNat = stPartnerAbsent ∨ x.status.toNat = stPartnerFault) → (s.dev.route q.x.target.toNat none).detour = false ∨ s.dev.fab.detours.contains q.x.target.toNat = true) →
          Does (.remoteResponse p) s fun e => (e.port p.val).rx = (s.dev.port p.val).rx.erase r ∧
            reqFailed s.dev e tag q x.status.toNat))) ∧
    (∀ (tag : BitVec 32), fmGet s.dev.fab.reqs tag.toNat = none →
      exec (.remoteTimeout tag) s = .next s ∧ exec (.retryResend tag) s = .next s) ∧
    (∀ (tag : BitVec 32) q, fmGet s.dev.fab.reqs tag.toNat = some q →
      ((s.dev.fget F.FAB_CTRL_RTIMEOUT = 0 ∨ isStream q.use = true) → exec (.remoteTimeout tag) s = .next s) ∧
      (s.dev.fget F.FAB_CTRL_RTIMEOUT ≠ 0 → isStream q.use = false → Does (.remoteTimeout tag) s fun e =>
        reqFailed s.dev e tag.toNat q stTimeout ∧ e.fget F.FAB_EVENT_REMOTE_TIMEOUT = 1) ∧
      (q.held = false → exec (.retryResend tag) s = .next s) ∧
      (q.held = true → (s.dev.route q.x.target.toNat none).port.isSome = true →
        (∀ key idx, q.use = .stream key idx → Does (.retryResend tag) s fun e =>
          (∀ k, fmGet e.fab.reqs k = if k = tag.toNat then none else fmGet s.dev.fab.reqs k) ∧ memSame s.dev e ∧
          sendsXfer s.dev e (s.dev.route q.x.target.toNat none).port q.x (key % 65536) (if bit q.x.flags.toNat 1 then 0 else 2)) ∧
        (isStream q.use = false → (s.dev.route q.x.target.toNat none).detour = false → Does (.retryResend tag) s fun e =>
          (∀ k, fmGet e.fab.reqs k = if k = tag.toNat then some { q with held := false } else fmGet s.dev.fab.reqs k) ∧ memSame s.dev e ∧
          sendsXfer s.dev e (s.dev.route q.x.target.toNat none).port q.x (0x8000 + tag.toNat % 0x8000) (useVc q.use)))) ∧
    (s.dev.lockState ≠ 3 → s.dev.lockState ≠ 4 → exec .voteWave s = .next s) ∧
    ((s.dev.lockState = 3 ∨ s.dev.lockState = 4) →
      (s.dev.isMaster = false → Does .voteWave s fun e =>
        e = { s.dev with fab := { s.dev.fab with
          votes := [], waves := s.dev.fab.waves ++ [⟨s.dev.now, s.dev.fab.votes.foldl mergeVote [], []⟩], lastWave := some s.dev.now } }) ∧
      (s.dev.isMaster = true → s.dev.fab.opens.length + s.dev.fab.votes.length ≤ 1024 → ∀ os, os = s.dev.fab.votes.foldl mergeVote s.dev.fab.opens →
        Does .voteWave s fun e =>
          e.fab = { s.dev.fab with votes := [], opens := os.filter (fun v => !decide (v.size ≤ v.count)), results := s.dev.fab.results ++ (os.filter fun v => decide (v.size ≤ v.count)).map fun v => { v with result := true, count := v.size, tick := .ofNat 24 s.dev.now } } ∧
          memSame s.dev e)) ∧
    ((∀ w ∈ s.dev.fab.waves, s.dev.waveDue w = false) → exec .voteWaveSend s = .next s) ∧
    (∀ w p, s.dev.fab.waves.find? s.dev.waveDue = some w → s.dev.votes = true → s.dev.isMaster = false →
      p = s.dev.fget F.TAL_STATUS_PARENT → p < 15 → s.dev.half (portHalf p) ≠ 6 → w.entries.length ≤ 64 →
      Does .voteWaveSend s fun e =>
        (e.port p).replay.map frameBody = (s.dev.port p).replay.map frameBody ++
          [{ TxFrame.blank 4 with xfer := w.tick % 65536, last := true, units := voteUnits 16 w.entries }] ∧
        (∀ q, q ≠ p → e.port q = s.dev.port q) ∧
        e = { s.dev with ports := e.ports, fab := { s.dev.fab with waves := s.dev.fab.waves.erase w }, out := e.out, free := e.free })

/-- R384 to R388 at the master, Table 15-3. -/
def Obligations.MasterRunsRecovery : Prop :=
  ∀ (s : State), s.dev.live = true →
    (∀ (p : PortId), ((s.dev.partner p.val = 0 ∨ (s.dev.partner p.val = 4 ∧ s.dev.fget F.LNK_PARTNER_STATE (portAdd p.val) = 7)) →
        ∀ id, s.dev.neighbour p.val = some (id, false) → Does (.lossDetect p) s fun e => e = { s.dev with out := s.dev.out ++
          [.fabric 4 [s.dev.tagOf (s.dev.split && portHalf p.val), if (survHdr (s.dev.imageBytes (s.dev.split && portHalf p.val))).any shRecover then 1 else 0, id]] }) ∧
      ((s.dev.partner p.val ≠ 0 ∧ (s.dev.partner p.val ≠ 4 ∨ s.dev.fget F.LNK_PARTNER_STATE (portAdd p.val) ≠ 7) ∨
        ∀ id, s.dev.neighbour p.val ≠ some (id, false)) → exec (.lossDetect p) s = .next s)) ∧
    (∀ tag lost rec, s.dev.isMaster = false → exec (.lossReport tag lost rec) s = .next s) ∧
    (∀ (tag : BitVec 16) (lost : Option (BitVec 16)), s.dev.isMaster = true →
      (s.dev.srv.recovery = none → exec (.lossReport tag lost false) s = .next s ∧
        Does (.lossReport tag lost true) s fun e =>
          e.srv = { s.dev.srv with recovery := some ⟨1, (lost.map (·.toNat)).toList, tag.toNat, 0⟩ } ∧
          e.fget F.DEV_SRV_STATUS_STEP = 1 ∧ e.fget F.DEV_SRV_STATUS_MASTER = 1 ∧
          e.fget F.DEV_SRV_STATUS_LOST = (lost.map (·.toNat)).getD 0 ∧
          e.out.getLast? = some (.fabric 9 ([1, tag.toNat, 0] ++ (lost.map (·.toNat)).toList)) ∧
          e = { s.dev with regs := e.regs, mg := e.mg, srv := e.srv, out := e.out }) ∧
      (∀ r rec, s.dev.srv.recovery = some r →
        ((lost = none ∨ r.tag ≠ tag.toNat ∨ ∃ l, lost = some l ∧ l.toNat ∈ r.lost) → exec (.lossReport tag lost rec) s = .next s) ∧
        (∀ l, lost = some l → r.tag = tag.toNat → l.toNat ∉ r.lost →
          ((∀ x ∈ r.lost, x % 8192 ≠ l.toNat % 8192) → Does (.lossReport tag lost rec) s fun e =>
            e = { s.dev with srv := { s.dev.srv with recovery := some { r with lost := r.lost ++ [l.toNat] } } }) ∧
          ((∃ x ∈ r.lost, x % 8192 = l.toNat % 8192) → Does (.lossReport tag lost rec) s fun e =>
            e.srv.recovery = none ∧ e.fget F.DEV_SRV_STATUS_STEP = 0 ∧ e.fget F.DEV_SRV_STATUS_MASTER = 0 ∧
            .fabric 10 [r.tag, stPartnerAbsent] ∈ e.out)))) ∧
    (s.dev.srv.recovery = none → (∀ st cur, exec (.recoveryStep st cur) s = .next s) ∧ exec .returnTimeout s = .next s) ∧
    (∀ r, s.dev.srv.recovery = some r →
      (∀ (st : BitVec 8) cur, st.toNat ≠ stOk → Does (.recoveryStep st cur) s fun e => e.srv.recovery = none ∧
        e.fget F.DEV_SRV_STATUS_STEP = 0 ∧ e.fget F.DEV_SRV_STATUS_MASTER = 0 ∧ .fabric 10 [r.tag, st.toNat] ∈ e.out) ∧
      (∀ (st : BitVec 8) cur n, st.toNat = stOk → (r.step = 2 → cur.head? = some n ∧ ∀ x ∈ cur, x = n) → (r.step ≠ 2 → n = r.resume) →
        (r.step < 9 → Does (.recoveryStep st cur) s fun e =>
          e.srv = { s.dev.srv with recovery := some { r with step := r.step + 1, resume := n } } ∧
          e.fget F.DEV_SRV_STATUS_STEP = r.step + 1 ∧ e.out.getLast? = some (.fabric 9 ([r.step + 1, r.tag, n] ++ r.lost)) ∧
          e = { s.dev with regs := e.regs, mg := e.mg, srv := e.srv, out := e.out }) ∧
        (r.step = 9 → Does (.recoveryStep st cur) s fun e => e.srv = { s.dev.srv with recovery := none } ∧
          e.fget F.DEV_SRV_STATUS_STEP = 0 ∧ e.fget F.DEV_SRV_STATUS_MASTER = 0 ∧
          e = { s.dev with regs := e.regs, mg := e.mg, srv := e.srv, out := e.out })) ∧
      (∀ (st : BitVec 8) cur, st.toNat = stOk → r.step = 2 → (∃ x ∈ cur, ∃ y ∈ cur, x ≠ y) → Does (.recoveryStep st cur) s fun e =>
        e.srv.recovery = none ∧ e.fget F.DEV_SRV_STATUS_STEP = 0 ∧ .fabric 10 [r.tag, stDigestMismatch] ∈ e.out) ∧
      (r.step ≠ 4 → exec .returnTimeout s = .next s) ∧
      (r.step = 4 → Does .returnTimeout s fun e => e.srv.recovery = none ∧ e.fget F.DEV_SRV_STATUS_STEP = 0 ∧
        e.fget F.DEV_SRV_STATUS_MASTER = 0 ∧ .fabric 10 [r.tag, stPartnerAbsent] ∈ e.out))

/-- Table 15-3's job devices, R383, R385 and R388. -/
def Obligations.JobDevicesCarryOutRecoverySteps : Prop :=
  ∀ (s : State) (h : HalfId) (seq : Word) (o : Order) (e0 : Entry) (a n : Nat), s.dev.live = true → startable s.dev h seq.toNat 0x20 e0 →
    a = s.dev.stepAdd h → n = e0.arg 24 1 → s.dev.half h ≠ 7 →
    (o.failed ≠ 0 → (s.dev.recovering h = false ∨ (s.dev.stepc h).hold = false) → Does (.recover h seq o) s fun e =>
      endedAs e h seq.toNat 3 stOk ∧ e = { s.dev with led0 := e.led0, led1 := e.led1, mg := e.mg, out := e.out }) ∧
    (o.failed ≠ 0 → s.dev.recovering h = true → (s.dev.stepc h).hold = true → Does (.recover h seq o) s fun e =>
      e.half h = 5 ∧ e.heldHalf h = true ∧ (e.stepc h).hold = false ∧ (e.stepc h).run = none ∧ e.fget F.DEV_SRV_STATUS_STEP = 0 ∧
      e.fget F.DEV_SRV_EVENT_RECOVERY_FAIL = 1 ∧ ((s.dev.stepc h).run = none → endedAs e h seq.toNat 3 stOk ∧ memSame s.dev e)) ∧
    (o.failed = 0 → (s.dev.stepc h).run = none →
      (n = 1 → 3 ≤ s.dev.half h → s.dev.half h ≤ 5 → Does (.recover h seq o) s fun e => e.half h = 5 ∧ e.heldHalf h = true ∧
        (e.stepc h).hold = true ∧ e.fget F.DEV_SRV_STATUS_STEP = 1 ∧ endedAs e h seq.toNat 3 stOk ∧
        ((s.dev.stepc h).hold = false → e.fget F.DEV_SRV_EVENT_RECOVERY_START = 1) ∧
        e.fget F.DEV_STEP_STATUS_SKIPS a = s.dev.fget F.DEV_STEP_STATUS_SKIPS a ∧ memSame s.dev e) ∧
      ((n = 4 ∨ n = 2 ∧ o.sealed = false ∧ o.owners = [] ∨ n = 5 ∧ o.image = none) → Does (.recover h seq o) s fun e =>
        e.half h = s.dev.half h ∧ (e.stepc h).hold = true ∧ e.fget F.DEV_SRV_STATUS_STEP = n ∧
        e.fget F.DEV_SRV_STATUS_LOST = (o.lost.head?.map (·.toNat)).getD 0 ∧ e.fget F.DEV_SRV_RESUME_STEP = o.resume % 2 ^ 64 ∧
        endedAs e h seq.toNat 3 stOk ∧
        e = { s.dev with regs := e.regs, led0 := e.led0, led1 := e.led1, mg := e.mg, step0 := e.step0, step1 := e.step1, out := e.out }) ∧
      (∀ x, n = 2 → o.sealed = true → o.owners = [] → (s.dev.led h).lastAttempt = some x → x.seq ≠ seq.toNat →
        s.dev.entry h x.seq = some x → x.state = 4 → x.status = stTimeout → bit x.flags 0 = true → bit x.flags 2 = false →
        Does (.recover h seq o) s fun e => endedAs e h x.seq 3 stOk ∧ e.fget F.DEV_SRV_EVENT_LATE_SEAL = 1 ∧
          e.fget F.DEV_STEP_NUM_N a = (s.dev.stepNum h + 1) % 2 ^ 64 ∧ endedAs e h seq.toNat 3 stOk) ∧
      (∀ b, n = 6 → s.dev.stepNum h ≤ o.resume → s.dev.stateOf h o = some b →
        (o.restores = [] → Does (.recover h seq o) s fun e => e.fget F.DEV_STEP_NUM_N a = leAt b 0 8 ∧
          (∀ k < 4, e.fget F.DEV_STEP_SEL_SEL (a + 8 * k) = leAt b (56 + 8 * k) 8) ∧ endedAs e h seq.toNat 3 stOk ∧ memSame s.dev e) ∧
        (∀ x i c, o.restores = [x] → tensorItem (s.dev.imageBytes h) x.tensor.toNat = some i → restoreSource x i = some c →
          Does (.recover h seq o) s fun e =>
            (∀ k < tiIngots i, e.ingot (e.tensorAt h i false + 4096 * k) = xorAll (c.data.map fun y => (y[k]?).getD [])) ∧
            memBut (e.tensorAt h i false) (e.tensorAt h i false + 4096 * tiIngots i) s.dev e ∧
            fmGet e.srv.digests x.tensor.toNat = some c.digests ∧ endedAs e h seq.toNat 3 stOk) ∧
        (∀ x, o.restores = [x] → (∀ i, tensorItem (s.dev.imageBytes h) x.tensor.toNat = some i → restoreSource x i = none) →
          Does (.recover h seq o) s fun e => endedAs e h seq.toNat 4 stPartnerAbsent ∧ e.half h = 5 ∧
            e.fget F.DEV_SRV_EVENT_RECOVERY_FAIL = 1 ∧ memSame s.dev e)) ∧
      (∀ x i gs, n = 7 → o.restores = [x] → tensorItem (s.dev.imageBytes h) x.tensor.toNat = some i →
        gs = ((List.range (tiIngots i)).map fun k => s.dev.ingot (s.dev.tensorAt h i false + 4096 * k)) →
        ((∃ c y, restoreSource x i = some c ∧ c.step = some y ∧ y ≠ o.resume) ∨ (∃ w, fmGet s.dev.srv.digests x.tensor.toNat = some w ∧ w ≠ [] ∧ gs.map crc64 ≠ w) →
          Does (.recover h seq o) s fun e => endedAs e h seq.toNat 4 stDigestMismatch ∧ e.half h = 5 ∧
            e.fget F.DEV_SRV_EVENT_DIGEST_FAIL = 1 ∧ e.fget F.DEV_SRV_EVENT_RECOVERY_FAIL = 1 ∧ memSame s.dev e) ∧
        ((∀ c y, restoreSource x i = some c → c.step = some y → y = o.resume) → (fmGet s.dev.srv.digests x.tensor.toNat).getD [] ∈ [[], gs.map crc64] →
          (tiReplicaValid i = true → ∀ y, x.replica = some y → y = tensorDigest gs) → Does (.recover h seq o) s fun e => endedAs e h seq.toNat 3 stOk ∧
            fmGet e.srv.digests x.tensor.toNat = none ∧ e.half h = s.dev.half h ∧ memSame s.dev e)) ∧
      (∀ k xs sh, n = 8 → o.lost = [] → o.owners = [] → o.parity = [(k, xs)] → survHdr (s.dev.imageBytes h) = some sh → xs ≠ [] →
        (∀ g ∈ xs, g.length = 4096) → Does (.recover h seq o) s fun e =>
          e.ingot (s.dev.parAddr sh k false) = xorAll xs ∧
          memBut (s.dev.parAddr sh k false) (s.dev.parAddr sh k false + 4096) s.dev e ∧ endedAs e h seq.toNat 3 stOk) ∧
      (∀ b, n = 9 → s.dev.stateOf h o = some b → Does (.recover h seq o) s fun e => e.half h = 3 ∧ e.heldHalf h = false ∧
        (e.stepc h).hold = false ∧ e.fget F.DEV_SRV_STATUS_STEP = 0 ∧ e.fget F.DEV_SRV_EVENT_RECOVERY_OK = 1 ∧
        (∀ k < 4, e.fget F.FED_CURSOR_CURSOR (8 * k) = leAt b (24 + 8 * k) 8) ∧ endedAs e h seq.toNat 3 stOk ∧ memSame s.dev e)) ∧
    (∀ (x : Restore) (i : List Byte), (∀ c, tiEscrow i = true → x.primary = some c → c.state = 2 → wholeData (tiIngots i) c.ingots = true →
        restoreSource x i = some ⟨[c.ingots], c.digests, some c.step⟩) ∧
      (tiEscrow i = false → x.units.length = 7 → (∀ u ∈ x.units, wholeData (tiIngots i) u = true) →
        restoreSource x i = some ⟨x.units, x.rebuilt, none⟩))

/-- R395 with R350 (COPY), R511 (PROFILE), R468 (SITE_RESET), R449 (QUOTE). -/
def Obligations.CopiesProfilesSitesAndQuotes : Prop :=
  ∀ (s : State) (h : HalfId) (seq : Word) (e0 : Entry), s.dev.live = true →
    (startable s.dev h seq.toNat 0x09 e0 → ∀ src dst n, src = e0.arg 24 8 → dst = e0.arg 32 8 → n = e0.arg 40 4 →
      (∀ es, n = 0 → Does (.copy h seq es) s fun e => endedAs e h seq.toNat 3 stOk ∧ ledgerOnly s.dev e) ∧
      (n ≠ 0 → s.dev.isLocal src = true → s.dev.isLocal dst = true → bits src 0 48 % 64 = 0 → bits dst 0 48 % 64 = 0 →
        Does (.copy h seq []) s fun e => endedAs e h seq.toNat 3 stOk ∧
          (∀ k < 64 * n, rowStored e (bits dst 0 48 + 64 * k) (rowAt s.dev (bits src 0 48 + 64 * k))) ∧
          memBut (bits dst 0 48) (bits dst 0 48 + 4096 * n) s.dev e ∧
          e = { s.dev with regs := e.regs, mem := e.mem, poison := e.poison, led0 := e.led0, led1 := e.led1, mg := e.mg, out := e.out }) ∧
      (∀ push far near y tag, n ≠ 0 → s.dev.isLocal src = push → s.dev.isLocal dst = (!push) → far = (if push then dst else src) →
        near = (if push then src else dst) → bits near 0 48 % 64 = 0 → tag = s.dev.fab.nextTag → tag < 2 ^ 32 →
        y = { Xfer.blank with op := 3, flags := if push then 0 else 4, tenant := .ofNat 16 e0.tenant, origin := .ofNat 16 s.dev.me, target := .ofNat 16 (bits far 48 16), index := .ofNat 32 tag, addr := .ofNat 48 (bits far 0 48), src := .ofNat 48 (bits near 0 48), len := .ofNat 32 n, rows := if push then (List.range (64 * n)).map fun k => rowAt s.dev (bits near 0 48 + 64 * k) else [] } →
        (s.dev.route (bits far 48 16) none).detour = false →
        ((s.dev.route (bits far 48 16) none).port.isSome = true → Does (.copy h seq []) s fun e => isStarted e h seq.toNat ∧
          (∀ k, fmGet e.fab.reqs k = if k = tag then some ⟨y, .copy h seq.toNat, 0, false⟩ else fmGet s.dev.fab.reqs k) ∧
          sendsXfer s.dev e (s.dev.route (bits far 48 16) none).port y (0x8000 + tag % 0x8000) 3 ∧ memSame s.dev e) ∧
        ((s.dev.route (bits far 48 16) none).port = none → Does (.copy h seq []) s fun e =>
          endedAs e h seq.toNat 4 (s.dev.route (bits far 48 16) none).status ∧ memSame s.dev e ∧
          (∀ k, fmGet e.fab.reqs k = if k = tag then none else fmGet s.dev.fab.reqs k)))) ∧
    (startable s.dev h seq.toNat 0x10 e0 → ∀ new, new = e0.arg 24 1 →
      (∀ ok, new = s.dev.pw.profile → Does (.profile h seq ok) s fun e => endedAs e h seq.toNat 3 stOk ∧ ledgerOnly s.dev e) ∧
      (∀ ok, new < s.dev.pw.profile → Does (.profile h seq ok) s fun e => isStarted e h seq.toNat ∧
        e = { s.dev with led0 := e.led0, led1 := e.led1, mg := e.mg, pw := { s.dev.pw with relock := some new } }) ∧
      (s.dev.pw.profile < new → (Does (.profile h seq []) s fun e => isStarted e h seq.toNat ∧
          e.out = s.dev.out ++ s.dev.coreRails.map (fun k => .pmbus k (setPoint new)) ∧
          e = { s.dev with led0 := e.led0, led1 := e.led1, mg := e.mg, pw := { s.dev.pw with relock := some new }, out := e.out }) ∧
        (∀ ks, s.dev.coreRails ≠ [] → Does (.profile h seq (false :: ks)) s fun e => endedAs e h seq.toNat 4 stTimeout ∧
          e.pw = s.dev.pw ∧ e.fget F.MBX_EVENT_PMBUS_ERR = 1 ∧ memSame s.dev e))) ∧
    (∀ ok, s.dev.pw.relock = none → exec (.pllRelocked ok) s = .next s) ∧
    (∀ new, s.dev.pw.relock = some new → Does (.pllRelocked []) s fun e =>
      e.pw = { s.dev.pw with relock := none, profile := new } ∧
      (∀ q n, h ∈ s.dev.ledgers → s.dev.entry h q = some n → n.opcode = 0x10 → n.state = 2 → endedAs e h q 3 stOk) ∧
      (new ≤ s.dev.pw.profile → ∀ k ∈ s.dev.coreRails, .pmbus k (setPoint new) ∈ e.out) ∧
      e.fget F.TAL_PHASE_CYCLE = s.dev.fget F.TAL_PHASE_CYCLE * e.cyclesPerTick / s.dev.cyclesPerTick ∧
      e = { s.dev with regs := e.regs, led0 := e.led0, led1 := e.led1, mg := e.mg, pw := e.pw, out := e.out }) ∧
    (startable s.dev h seq.toNat 0x15 e0 → s.dev.resetRuns h e0 = true → ∀ c, c = (if e0.arg 25 1 = 0 then .siteReset h seq else .siteTest h seq) →
      e0.arg 25 1 < 2 → Does c s fun e => endedAs e h seq.toNat 3 stOk ∧ ledgerOnly s.dev e) ∧
    (startable s.dev h seq.toNat 0x15 e0 → s.dev.resetRuns h e0 = false → ∀ site, site = e0.arg 24 1 →
      (e0.arg 25 1 = 0 → exec (.siteTest h seq) s = .next s ∧ Does (.siteReset h seq) s fun e => endedAs e h seq.toNat 3 stOk ∧
        (∀ k, fmGet e.insts k = (fmGet s.dev.insts k).map fun i => if k / 64 = site then { i with blocks := [], acc := [] } else i) ∧
        (∀ v ∈ allEvents, v.bit.off = F.FLD_EVENT_INT_SAT.off → e.fget v.bit (siteAdd site) = 0 ∧ e.fget v.cnt (siteAdd site) = 0) ∧
        e = { s.dev with regs := e.regs, insts := e.insts, led0 := e.led0, led1 := e.led1, mg := e.mg, out := e.out }) ∧
      (e0.arg 25 1 = 1 → exec (.siteReset h seq) s = .next s ∧ Does (.siteTest h seq) s fun e => isStarted e h seq.toNat ∧
        (∀ t ∈ siteTiles site, zeroed e (sliceBase t) (sliceBase t + 0x240000)) ∧
        (∀ a, (∀ t ∈ siteTiles site, a < sliceBase t ∨ sliceBase t + 0x240000 ≤ a) →
          memGet e.mem a = memGet s.dev.mem a ∧ e.isPoison a = s.dev.isPoison a))) ∧
    (∀ x (fails : Word), s.dev.entry h seq.toNat = some x → x.opcode = 0x15 → x.state = 2 → x.arg 25 1 = 1 →
      Does (.siteTestDone h seq fails) s fun e => endedAs e h seq.toNat 3 stOk ∧
        (∀ y, e.entry h seq.toNat = some y → y.result = fails.toNat) ∧ memSame s.dev e) ∧
    (startable s.dev h seq.toNat 0x17 e0 → Does (.quote h seq) s fun e => endedAs e h seq.toNat 3 stOk ∧
      (∃ bs, .quote (leBytes 32 (e0.arg 32 32)) bs ∈ e.out ∧ bs.length = 10) ∧
      memBut (e0.arg 24 8) (e0.arg 24 8 + 1024) s.dev e ∧
      e = { s.dev with regs := e.regs, mem := e.mem, poison := e.poison, led0 := e.led0, led1 := e.led1, mg := e.mg, out := e.out, free := e.free })

/-- R431, R441, R443–R445, R451, R464–R466. -/
def Obligations.LicencesTenancyWinnowsAndResets : Prop :=
  ∀ (s : State) (h : HalfId) (seq : Word) (e0 : Entry), s.dev.live = true →
    (startable s.dev h seq.toNat 0x16 e0 → ∀ len b sig, len = e0.arg 28 4 → b = s.dev.stageBytes len →
      (e0.arg 24 1 = 0 → exec (.provision h seq sig) s = .next s ∧
        (∀ st, s.dev.licenceCheck b len sig = some st → Does (.licenceInstall h seq sig) s fun e => endedAs e h seq.toNat 4 st ∧
          e.fget F.SEC_EVENT_LICENCE_REFUSED = 1 ∧ e.sec = s.dev.sec ∧ e.fget F.SEC_LIC_FEATURES = s.dev.fget F.SEC_LIC_FEATURES ∧ memSame s.dev e) ∧
        (∀ f, f = leAt b 5 1 → s.dev.licenceCheck b len sig = none → Does (.licenceInstall h seq sig) s fun e => endedAs e h seq.toNat 3 stOk ∧
          e.sec = { s.dev.sec with licences := s.dev.sec.licences ++ [⟨f, leAt b 6 1, leAt b 16 4, b⟩], licSeq := fmSet s.dev.sec.licSeq f (leAt b 16 4) } ∧
          e.fget F.SEC_LIC_COUNT = s.dev.sec.licences.length + 1 ∧ bit (e.fget F.SEC_LIC_FEATURES) f = decide (leAt b 6 1 = 0) ∧
          (∀ g, g ≠ f → g < 5 → bit (e.fget F.SEC_LIC_FEATURES) g = bit (s.dev.fget F.SEC_LIC_FEATURES) g) ∧
          e = { s.dev with regs := e.regs, sec := e.sec, led0 := e.led0, led1 := e.led1, mg := e.mg, out := e.out })) ∧
      (e0.arg 24 1 = 1 → exec (.licenceInstall h seq sig) s = .next s ∧
        (∀ st, s.dev.blobCheck b len sig = some st → Does (.provision h seq sig) s fun e => endedAs e h seq.toNat 4 st ∧
          e.fget F.SEC_EVENT_LICENCE_REFUSED = 1 ∧ e.sec = s.dev.sec ∧ e.fget F.SEC_STATUS_CLAIMED = s.dev.fget F.SEC_STATUS_CLAIMED ∧ memSame s.dev e) ∧
        (∀ m f, m = leAt b 208 2 → f = leAt b 210 2 → s.dev.blobCheck b len sig = none → Does (.provision h seq sig) s fun e =>
          endedAs e h seq.toNat 3 stOk ∧ e.fget F.SEC_STATUS_CLAIMED = 1 ∧ e.fget F.SEC_STATUS_PROF_UNLOCKED = 0 ∧
          e.fget F.SEC_STATUS_DEBUG_UNLOCKED = 0 ∧ e.sec.mgmtRoot = bytesAt b 256 m ∧ e.sec.fabricRoot = bytesAt b (256 + m) f ∧
          e.sec.debugKey = bytesAt b 24 97 ∧ e.sec.pwSalt = bytesAt b 128 32 ∧ e.sec.pwHash = bytesAt b 160 48 ∧ e.sec.gen = leAt b 16 8 ∧
          e.sec.revoked = ((List.range (leAt b 212 2)).map fun i => leAt b (256 + m + f + 8 * i) 8) ∧
          (∀ id x, fmGet e.mg.sessions id = some x → x.role ≠ .operator) ∧ memSame s.dev e))) ∧
    (startable s.dev h seq.toNat 0x11 e0 → ∀ sc tag, sc = scopeOf (e0.arg 25 1) → tag = e0.arg 26 2 →
      (e0.arg 24 1 = 0 → exec (.tenantRelease h seq) s = .next s ∧
        (s.dev.assignCheck sc tag = none → Does (.tenantAssign h seq) s fun e => (∀ k ∈ scopeHalves sc, e.scopeState k = 1 ∧ e.tagOf k = tag) ∧
          (∀ k, k ∉ scopeHalves sc → e.scopeState k = s.dev.scopeState k ∧ e.tagOf k = s.dev.tagOf k) ∧
          e.split = decide (sc ≠ .whole) ∧ (scopeHas sc false = true → e.sec.tenantRootW = s.dev.stageBytes (e0.arg 28 4)) ∧
          (scopeHas sc true = true → e.sec.tenantRootE = s.dev.stageBytes (e0.arg 28 4)) ∧ (h = false → endedAs e h seq.toNat 3 stOk) ∧ memSame s.dev e) ∧
        (∀ st, s.dev.assignCheck sc tag = some st → Does (.tenantAssign h seq) s fun e => endedAs e h seq.toNat 4 st ∧ ledgerOnly s.dev e)) ∧
      (e0.arg 24 1 = 1 → exec (.tenantAssign h seq) s = .next s ∧
        ((∀ k ∈ scopeHalves sc, s.dev.scopeState k = 1 ∧ s.dev.tagOf k = tag) → s.dev.split = decide (sc ≠ .whole) →
          Does (.tenantRelease h seq) s fun e => endedAs e h seq.toNat 3 stOk ∧ (∀ k ∈ scopeHalves sc, e.scopeState k = 2 ∧ e.tagOf k = 0) ∧
            (∀ id x, fmGet e.mg.sessions id = some x → x.role ≠ .tenant sc) ∧ e.split = s.dev.split ∧ memSame s.dev e) ∧
        (((∃ k ∈ scopeHalves sc, s.dev.scopeState k ≠ 1 ∨ s.dev.tagOf k ≠ tag) ∨ s.dev.split = decide (sc = .whole)) →
          Does (.tenantRelease h seq) s fun e => endedAs e h seq.toNat 4 stWrongState ∧ ledgerOnly s.dev e))) ∧
    (startable s.dev h seq.toNat 0x12 e0 → ∀ sc, sc = scopeOf (e0.arg 24 1) → Does (.winnow h seq) s fun e =>
      (∀ k ∈ scopeHalves sc, e.half k = 6 ∧ e.halfSub k = 1 ∧ zeroed e (sliceBase (if k then 256 else 0)) (sliceBase (if k then 512 else 256))) ∧
      (∀ k ∈ s.dev.controllers sc, (e.stepc k).run = none ∧ e.image k = none ∧ (e.staging k).a = [] ∧ (e.staging k).b = []) ∧ e.fget F.SEC_STATUS_WINNOW_ACTIVE = 1 ∧
      fmGet e.sec.winnows (scopeNum sc) = some (seq.toNat, s.dev.now) ∧ e.mg.trace = [] ∧
      (∀ id x, fmGet e.mg.sessions id = some x → x.role ≠ .tenant sc) ∧
      (∀ q n, s.dev.entry h q = some n → n.state = 1 → q ≠ seq.toNat → endedAs e h q 5 stWrongState)) ∧
    (∀ sc ok upto, fmGet s.dev.sec.winnows (scopeNum sc) = none → exec (.winnowEnd sc ok upto) s = .next s) ∧
    (∀ sc q start n upto z, fmGet s.dev.sec.winnows (scopeNum sc) = some (q, start) → z = (s.dev.split && sc == .east) →
      s.dev.entry z q = some n → n.state < 3 →
      (s.dev.degradedStack sc = false → Does (.winnowEnd sc true upto) s fun e =>
        zeroed e (scopeStack sc).1 (scopeStack sc).2 ∧ memBut (scopeStack sc).1 (scopeStack sc).2 s.dev e ∧
        (∀ k ∈ scopeHalves sc, (s.dev.half k ≠ 7 → e.half k = 2) ∧ (s.dev.scopeState k = 2 → e.scopeState k = 0 ∧ e.tagOf k = 0) ∧
          (s.dev.scopeState k ≠ 2 → e.scopeState k = s.dev.scopeState k)) ∧
        fmGet e.sec.winnows (scopeNum sc) = none ∧ (e.scopeState false = 0 → e.scopeState true = 0 → e.split = false) ∧
        (z = false → endedAs e z q 3 stOk)) ∧
      (∀ ok, (ok = false ∨ s.dev.degradedStack sc = true) → Does (.winnowEnd sc ok upto) s fun e =>
        zeroed e (scopeStack sc).1 (min upto (scopeStack sc).2) ∧ memBut (scopeStack sc).1 (scopeStack sc).2 s.dev e ∧
        (∀ k ∈ scopeHalves sc, (s.dev.half k ≠ 7 → e.half k = 2) ∧ e.scopeState k = 2 ∧ e.tagOf k = 0) ∧
        e.fget F.SEC_EVENT_WINNOW_FAIL = 1 ∧ fmGet e.sec.winnows (scopeNum sc) = none ∧ endedAs e z q 4 stAbandoned)) ∧
    (startable s.dev h seq.toNat 0x13 e0 → ∀ sc k0, sc = scopeOf (e0.arg 24 1) → k0 = scopeHalf sc →
      (s.dev.half k0 = 6 → s.dev.halfSub k0 = 0 → Does (.computeReset h seq) s fun e => endedAs e h seq.toNat 3 stOk ∧ ledgerOnly s.dev e) ∧
      ((s.dev.half k0 ≠ 6 ∨ s.dev.halfSub k0 ≠ 0) → Does (.computeReset h seq) s fun e =>
        (∀ k ∈ scopeHalves sc, (s.dev.half k ≠ 7 → e.half k = 6 ∧ e.halfSub k = 0) ∧
          zeroed e (sliceBase (if k then 256 else 0)) (sliceBase (if k then 512 else 256))) ∧
        (e.stepc k0).run = none ∧ (∀ k ∈ s.dev.controllers sc, e.image k = none) ∧ e.fget F.MBX_RESET_CAUSE_LEVEL = 5 ∧
        (s.dev.isFeedOf sc = true → e.feed.armed = none ∧ e.fget F.FED_FEED_STATUS_STATE = 0) ∧
        (∀ q n, s.dev.entry h q = some n → q ≠ seq.toNat → n.state = 2 → endedAs e h q 4 stAbandoned))) ∧
    (∀ sc k0, k0 = scopeHalf sc → (s.dev.half k0 = 6 → s.dev.halfSub k0 = 0 → s.dev.split = decide (sc ≠ .whole) →
        Does (.computeResetDone sc) s fun e => (∀ k ∈ scopeHalves sc, s.dev.half k ≠ 7 → e.half k = 2) ∧
          (e.led k0).head = (s.dev.led k0).head + 1 ∧ (∃ x ∈ (e.led k0).entries, x.seq = (s.dev.led k0).head + 1 ∧ x.opcode = 0xF3 ∧ x.source = 4 ∧
            x.state = 3 ∧ x.result = 5) ∧
          (∀ q n, s.dev.entry k0 q = some n → q ≠ (s.dev.led k0).head + 1 → n.opcode = 0x13 → n.state = 2 →
            fmGet (s.dev.led k0).ring ((s.dev.led k0).slot % 65536) = none → endedAs e k0 q 3 stOk) ∧ memSame s.dev e) ∧
      ((s.dev.half k0 ≠ 6 ∨ s.dev.halfSub k0 ≠ 0 ∨ s.dev.split = decide (sc = .whole)) → exec (.computeResetDone sc) s = .next s)) ∧
    (startable s.dev h seq.toNat 0x14 e0 → Does (.packageReset h seq) s fun e =>
      e.boot.step = 4 ∧ e.boot.cause = 3 ∧ e.fget F.MBX_RESET_CAUSE_LEVEL = 3 ∧ e.fget F.MBX_STATUS_RUNNING = 0 ∧ e.mg.sessions = [] ∧
      e.slots = [] ∧ e.queues = [] ∧ e.mem = Dev.reset.mem ∧ e.half false = Dev.reset.half false ∧ e.half true = Dev.reset.half true ∧
      e.fget F.SEC_STATUS_CLAIMED = s.dev.fget F.SEC_STATUS_CLAIMED ∧ e.sec.licences = s.dev.sec.licences ∧ e.boot.settings = s.dev.boot.settings ∧
      e.led0.ring = [] ∧ e.led1.ring = [] ∧ e.led0.head = s.dev.led0.head ∧ e.led1.head = s.dev.led1.head)

/-- R476 to R480. -/
def Obligations.UpdatesAreStagedDeliveredAndVerified : Prop :=
  ∀ (s : State), s.dev.live = true →
    (∀ (h : HalfId) (seq : Word) (e0 : Entry) k id busy up, startable s.dev h seq.toNat 0x18 e0 → k = e0.arg 24 1 → id = e0.arg 52 4 →
      busy = (s.dev.flag F.DEV_STATE_UPDATE_STAGED || s.dev.slotMark false == 2 || s.dev.slotMark true == 2) →
      (up = ∀ p < 15, bit (e0.arg 48 2) p = true ∨ (k = 2 ∧ p = e0.arg 25 1) → s.dev.linkUp p = true) →
      (∀ sig host st, busy = true → Does (.updateStage h seq sig host st) s fun e => endedAs e h seq.toNat 4 stWrongState ∧
        e.fget F.DEV_EVENT_UPDATE_FAIL = 1 ∧ e.fget F.DEV_UPDATE_LAST_STATUS = stWrongState ∧ e.boot = s.dev.boot ∧ memSame s.dev e) ∧
      (∀ sig host st, busy = false → k = 2 → e0.arg 25 1 < 15 → up → Does (.updateStage h seq sig host st) s fun e =>
        (∃ u, e.boot.update = some u ∧ u.id = id ∧ u.srcKind = 2 ∧ u.upPort = e0.arg 25 1 ∧ u.held = 0 ∧ u.staged = st ∧
          u.entryHalf = h ∧ u.entrySeq = seq.toNat) ∧ e.fget F.DEV_UPDATE_PHASE = 1 ∧ e.fget F.DEV_UPDATE_UPDATE_ID = id ∧
        (∀ u n, s.dev.boot.update = some u → s.dev.entry u.entryHalf u.entrySeq = some n → n.state < 3 →
          endedAs e u.entryHalf u.entrySeq 4 stUpdateIncomplete) ∧
        (s.dev.boot.update = none → isStarted e h seq.toNat) ∧ memSame s.dev e) ∧
      (∀ sig host st b, busy = false → k ≠ 2 → up → s.dev.boot.update = none → s.dev.stageSource e0 host = some b →
        (s.dev.headerCheck (b.take 512) sig = none → Does (.updateStage h seq sig host st) s fun e => e.otherSlot = b ∧ isStarted e h seq.toNat ∧
          e.fget F.DEV_UPDATE_PHASE = 2 ∧ e.fget F.DEV_UPDATE_UPDATE_ID = id ∧
          e.fget F.DEV_UPDATE_BLOCKS = (e0.arg 40 8 + 65535) / 65536 % 2048 ∧
          (∃ u, e.boot.update = some u ∧ u.id = id ∧ u.held = (e0.arg 40 8 + 65535) / 65536 ∧ u.staged = st) ∧ memSame s.dev e) ∧
        (∀ z, s.dev.headerCheck (b.take 512) sig = some z → Does (.updateStage h seq sig host st) s fun e =>
          endedAs e h seq.toNat 4 z ∧ e.boot.update = none ∧ e.fget F.DEV_UPDATE_PHASE = 6 ∧ e.fget F.DEV_UPDATE_LAST_STATUS = z ∧
          e.fget F.DEV_EVENT_UPDATE_FAIL = 1 ∧ e.otherSlot = s.dev.otherSlot ∧ memSame s.dev e)) ∧
      (∀ sig host st, busy = false → s.dev.boot.update = none → ¬up ∨ up ∧ k = 1 ∧ host = none ∨
          up ∧ k = 0 ∧ s.dev.anyPoison (e0.arg 32 8) (e0.arg 40 8) = true →
        Does (.updateStage h seq sig host st) s fun e =>
          (up ∧ k = 0 → endedAs e h seq.toNat 4 stPoison) ∧ (¬up ∨ k = 1 → endedAs e h seq.toNat 4 stPartnerAbsent) ∧ e.boot.update = none ∧
          e.fget F.DEV_UPDATE_PHASE = 6 ∧ e.otherSlot = s.dev.otherSlot ∧ memSame s.dev e)) ∧
    (s.dev.boot.update = none → ∀ p id k data crc sig nak st t n body ok, exec (.updateBlock p id k data crc sig) s = .next s ∧
      exec (.updateBlockAck p id k nak st) s = .next s ∧ exec (.updateBlockResend p k) s = .next s ∧
      exec (.updateVerify ok) s = .next s ∧ exec (.microcodeMessage t n body ok) s = .next s) ∧
    (∀ u, s.dev.boot.update = some u →
      (∀ (p : PortId) (id crc : BitVec 32) k data sig,
        (u.srcKind ≠ 2 ∨ u.id ≠ id.toNat ∨ u.upPort ≠ p.val → exec (.updateBlock p id k data crc sig) s = .next s) ∧
        (u.srcKind = 2 → u.id = id.toNat → u.upPort = p.val →
          ((crc32c data ≠ crc.toNat ∨ u.held < k) → Does (.updateBlock p id k data crc sig) s fun e =>
            e = { s.dev with out := s.dev.out ++ [.fabric 6 [p.val, 2, id.toNat, u.held, stOk]] }) ∧
          (crc32c data = crc.toNat → k < u.held → Does (.updateBlock p id k data crc sig) s fun e =>
            e = { s.dev with out := s.dev.out ++ [.fabric 6 [p.val, 1, id.toNat, k, stOk]] }) ∧
          (crc32c data = crc.toNat → k = u.held → (k = 0 → s.dev.headerCheck (data.take 512) sig = none) →
            Does (.updateBlock p id k data crc sig) s fun e =>
              e.otherSlot = (if k = 0 then [] else s.dev.otherSlot) ++ data ∧ .fabric 6 [p.val, 1, id.toNat, k, stOk] ∈ e.out ∧
              e.fget F.DEV_UPDATE_BLOCKS = (k + 1) % 2048 ∧ (∃ v, e.boot.update = some v ∧ v.held = k + 1 ∧ v.id = u.id) ∧
              (u.blocks ≤ k + 1 → e.fget F.DEV_UPDATE_PHASE = 2) ∧ e = { s.dev with regs := e.regs, boot := e.boot, out := e.out }) ∧
          (∀ st, crc32c data = crc.toNat → k = 0 → u.held = 0 → s.dev.headerCheck (data.take 512) sig = some st →
            Does (.updateBlock p id k data crc sig) s fun e => .fabric 6 [p.val, 2, id.toNat, 0, st] ∈ e.out ∧ stageFailed s.dev e u st))) ∧
      (∀ (p : PortId) (id : BitVec 32) k nak st,
        (u.id ≠ id.toNat ∨ fmGet u.down p.val = none → exec (.updateBlockAck p id k nak st) s = .next s) ∧
        (fmGet u.down p.val = none → exec (.updateBlockResend p k) s = .next s)) ∧
      (∀ (p : PortId) b k, fmGet u.down p.val = some b →
        (∀ (id : BitVec 32) (st : BitVec 8), u.id = id.toNat → st ≠ 0 → Does (.updateBlockAck p id k true st) s fun e =>
          e = { s.dev with boot := { s.dev.boot with update := some { u with down := fmSet u.down p.val { b with dead := true } } } }) ∧
        (∀ (id : BitVec 32) st, u.id = id.toNat → u.held ≤ b.next → Does (.updateBlockAck p id k false st) s fun e =>
          e = { s.dev with boot := { s.dev.boot with update := some { u with down := fmSet u.down p.val { b with acked := max b.acked (k + 1), sent := fmErase b.sent k } } } }) ∧
        (∀ c (id : BitVec 32), u.id = id.toNat → c ∈ ([.updateBlockResend p k, .updateBlockAck p id k true 0] : List Instr) →
          ((fmGet b.sent k = none ∨ b.dead = true) → exec c s = .next s) ∧
          (∀ n, fmGet b.sent k = some n → b.dead = false → n < 8 → Does c s fun e => e = { s.dev with
            boot := { s.dev.boot with update := some { u with down := fmSet u.down p.val { b with sent := fmSet b.sent k (n + 1) } } }, out := e.out } ∧
            ∃ l, e.out = s.dev.out ++ [.fabric 6 ([p.val, 0, u.id, k] ++ l)]) ∧
          (∀ n, fmGet b.sent k = some n → b.dead = false → 8 ≤ n → Does c s fun e => stageFailed s.dev e u stTimeout))) ∧
      (∀ ok good, good = (manifest s.dev.otherSlot).all (fun z =>
          sha384 (bytesAt s.dev.otherSlot (mfOff z) (mfLen z)) == bytesAt z 16 48) →
        (s.dev.fget F.DEV_UPDATE_PHASE ≠ 2 → exec (.updateVerify ok) s = .next s) ∧
        (s.dev.fget F.DEV_UPDATE_PHASE = 2 → (good && ok) = false → Does (.updateVerify ok) s fun e => stageFailed s.dev e u stDigestMismatch) ∧
        (s.dev.fget F.DEV_UPDATE_PHASE = 2 → (good && ok) = true → microMsgs s.dev.otherSlot ≠ 0 → Does (.updateVerify ok) s fun e =>
          e.fget F.DEV_UPDATE_PHASE = 3 ∧ regsBut [F.DEV_UPDATE_PHASE.key 0] s.dev e ∧
          e = { s.dev with regs := e.regs, boot := { s.dev.boot with update := some { u with banksLoaded := true } } }) ∧
        (s.dev.fget F.DEV_UPDATE_PHASE = 2 → (good && ok) = true → microMsgs s.dev.otherSlot = 0 → Does (.updateVerify ok) s fun e =>
          stageComplete s.dev e u)) ∧
      (∀ (t : TileId) n body ok m next total tries blk, m = (s.dev.tile t.toNat).micro → next = m.length →
        total = microMsgs s.dev.otherSlot → blk = next / 2048 → tries = (fmGet u.coreTries (2 * t.toNat + blk)).getD 0 + 1 →
        ((s.dev.fget F.DEV_UPDATE_PHASE ≠ 3 ∨ (∃ h, s.dev.half h = 4 ∨ s.dev.half h = 5) ∨ t.toNat ∈ u.coresDone) →
          exec (.microcodeMessage t n body ok) s = .next s) ∧
        (s.dev.fget F.DEV_UPDATE_PHASE = 3 → (∀ h, s.dev.half h ≠ 4 ∧ s.dev.half h ≠ 5) → t.toNat ∉ u.coresDone →
          (n = next → ((n + 1) % 2048 = 0 ∨ n + 1 = total → ok = true) → Does (.microcodeMessage t n body ok) s fun e =>
            (∀ k, fmGet (e.tile t.toNat).micro k = if k = n then some (body.take 32) else fmGet m k) ∧ memSame s.dev e ∧
            (n + 1 < total → e = { s.dev with tiles := e.tiles }) ∧
            (total ≤ n + 1 → u.coresDone.length ≠ 511 → e = { s.dev with tiles := e.tiles, boot := { s.dev.boot with update := some { u with coresDone := u.coresDone ++ [t.toNat] } } }) ∧
            (total ≤ n + 1 → u.coresDone.length = 511 → stageComplete s.dev e u)) ∧
          ((n ≠ next ∨ ((n + 1) % 2048 = 0 ∨ n + 1 = total) ∧ ok = false) → Does (.microcodeMessage t n body ok) s fun e =>
            (∀ k, fmGet (e.tile t.toNat).micro k = if 2048 * blk ≤ k ∧ k < 2048 * (blk + 1) then none else fmGet m k) ∧
            (tries < 3 → e = { s.dev with tiles := e.tiles, boot := { s.dev.boot with update := some { u with coreTries := fmSet u.coreTries (2 * t.toNat + blk) tries } } }) ∧
            (3 ≤ tries → stageFailed s.dev e u stUpdateIncomplete)))))

/-- R481 to R483. -/
def Obligations.ActivationIsAllOrNothing : Prop :=
  ∀ (s : State), s.dev.live = true →
    (∀ dev kind, (s.dev.boot.update = none ∨ ∃ u, s.dev.boot.update = some u ∧ dev ∉ u.staged) → exec (.updateReport dev kind) s = .next s) ∧
    ((s.dev.boot.update = none ∨ ∃ u, s.dev.boot.update = some u ∧ u.staged = []) → exec .updateReportTimeout s = .next s) ∧
    (∀ u, s.dev.boot.update = some u → ∀ orders, (orders = fun (a at_ : Nat) => u.staged.map fun z => Out.fabric 7 [z, a, u.id, at_]) →
      (∀ dev v, dev ∈ u.staged →
        (∀ kind, v = { u with reports := fmSet u.reports dev kind } →
          ((kind = 1 ∧ (s.dev.flag F.DEV_STATE_UPDATE_STAGED = false ∨ ∃ x ∈ u.staged, x ≠ dev ∧ fmGet u.reports x ≠ some 1) ∨ kind = 3 ∧ ∃ x ∈ u.staged, x ≠ dev ∧ fmGet u.reports x ≠ some 3) →
            Does (.updateReport dev kind) s fun e => e = { s.dev with boot := { s.dev.boot with update := some v } }) ∧
          (kind = 1 → s.dev.flag F.DEV_STATE_UPDATE_STAGED = true → (∀ x ∈ u.staged, x = dev ∨ fmGet u.reports x = some 1) →
            Does (.updateReport dev kind) s fun e => (∃ at_ l, s.dev.now + 64 ≤ at_ ∧ e.out = s.dev.out ++ l ++ orders 0 at_) ∧
              (∀ n, s.dev.entry u.entryHalf u.entrySeq = some n → n.state < 3 → endedAs e u.entryHalf u.entrySeq 3 stOk) ∧
              e = { s.dev with boot := { s.dev.boot with update := some v }, led0 := e.led0, led1 := e.led1, mg := e.mg, out := e.out, free := e.free }) ∧
          (kind = 3 → (∀ x ∈ u.staged, x = dev ∨ fmGet u.reports x = some 3) → Does (.updateReport dev kind) s fun e =>
            e = { s.dev with boot := { s.dev.boot with update := some v }, out := s.dev.out ++ orders 2 0 }) ∧
          (kind = 4 → Does (.updateReport dev kind) s fun e =>
            e = { s.dev with boot := { s.dev.boot with update := some v }, out := s.dev.out ++ orders 3 0 }) ∧
          (kind = 2 → Does (.updateReport dev kind) s fun e => (∃ l, e.out = s.dev.out ++ l ++ orders 1 0) ∧ e.boot.update = some v ∧
            (∀ n, s.dev.entry u.entryHalf u.entrySeq = some n → n.state < 3 → endedAs e u.entryHalf u.entrySeq 4 stUpdateIncomplete) ∧
            memSame s.dev e))) ∧
      (u.staged ≠ [] →
        (s.dev.fget F.DEV_UPDATE_PHASE = 5 → (∃ x ∈ u.staged, fmGet u.reports x ≠ some 3) → Does .updateReportTimeout s fun e =>
          e = { s.dev with out := s.dev.out ++ orders 3 0 }) ∧
        (s.dev.fget F.DEV_UPDATE_PHASE = 5 → (∀ x ∈ u.staged, fmGet u.reports x = some 3) → exec .updateReportTimeout s = .next s) ∧
        (s.dev.fget F.DEV_UPDATE_PHASE ≠ 5 → (∃ x ∈ u.staged, fmGet u.reports x = none) → Does .updateReportTimeout s fun e =>
          (∃ l, e.out = s.dev.out ++ l ++ orders 1 0) ∧
          ∀ n, s.dev.entry u.entryHalf u.entrySeq = some n → n.state < 3 → endedAs e u.entryHalf u.entrySeq 4 stUpdateIncomplete) ∧
        (s.dev.fget F.DEV_UPDATE_PHASE ≠ 5 → (∀ x ∈ u.staged, fmGet u.reports x ≠ none) → exec .updateReportTimeout s = .next s))) ∧
    (∀ (h : HalfId) (seq : Word) (e0 : Entry) other tb, startable s.dev h seq.toNat 0x19 e0 → other = (!s.dev.boot.runB) → tb = s.dev.trialSlot →
      (∀ c a, (c, a) ∈ ([(.updateCommit h seq, 0), (.updateAbort h seq, 1), (.updateConfirm h seq, 2), (.updateRevert h seq, 3)] : List (Instr × Nat)) →
        (e0.arg 24 1 ≠ a → exec c s = .next s) ∧
        (e0.arg 24 1 = a → (e0.arg 28 4 ≠ s.dev.fget F.DEV_UPDATE_UPDATE_ID ∨ a < 2 ∧ s.dev.flag F.DEV_STATE_UPDATE_STAGED = false ∨
            2 ≤ a ∧ s.dev.slotMark false ≠ 2 ∧ s.dev.slotMark true ≠ 2) →
          Does c s fun e => endedAs e h seq.toNat 4 stWrongState ∧ ledgerOnly s.dev e)) ∧
      (e0.arg 28 4 = s.dev.fget F.DEV_UPDATE_UPDATE_ID →
        (s.dev.flag F.DEV_STATE_UPDATE_STAGED = true →
          (e0.arg 24 1 = 0 → Does (.updateCommit h seq) s fun e => e.slotMark other = 2 ∧ e.slotMark (!other) = s.dev.slotMark (!other) ∧
            e.fget F.DEV_STATE_UPDATE_STAGED = 0 ∧ e.fget F.DEV_UPDATE_PHASE = 5 ∧ e.boot.step = 4 ∧ e.boot.cause = 3 ∧
            e.boot.slotA = s.dev.boot.slotA ∧ e.boot.slotB = s.dev.boot.slotB) ∧
          (e0.arg 24 1 = 1 → Does (.updateAbort h seq) s fun e => e.slotMark other = 0 ∧ e.fget F.DEV_STATE_UPDATE_STAGED = 0 ∧
            e.fget F.DEV_UPDATE_PHASE = 6 ∧ e.fget F.DEV_EVENT_UPDATE_FAIL = 1 ∧ e.boot.update = none ∧ endedAs e h seq.toNat 3 stOk ∧ memSame s.dev e)) ∧
        ((s.dev.slotMark false = 2 ∨ s.dev.slotMark true = 2) →
          (e0.arg 24 1 = 2 → Does (.updateConfirm h seq) s fun e => e.slotMark tb = 3 ∧ e.slotMark (!tb) = 4 ∧
            e.fget F.DEV_SLOTS_FLOOR = leAt (if tb then s.dev.boot.slotB else s.dev.boot.slotA) 0x10 4 ∧ e.fget F.DEV_STATE_TRIAL = 0 ∧
            e.fget F.DEV_UPDATE_PHASE = 0 ∧ e.boot.update = none ∧ endedAs e h seq.toNat 3 stOk ∧ memSame s.dev e) ∧
          (e0.arg 24 1 = 3 → Does (.updateRevert h seq) s fun e => e.slotMark tb = 5 ∧ e.fget F.DEV_UPDATE_PHASE = 6 ∧ e.boot.step = 4 ∧
            e.boot.cause = 3 ∧ e.boot.update = none)))) ∧
    (s.dev.flag F.DEV_STATE_TRIAL = true → s.dev.uhlea = true → Does .trialPoll s fun e =>
      e = { s.dev with out := s.dev.out ++ [.fabric 8 [s.dev.me, s.dev.fget F.DEV_UPDATE_UPDATE_ID]] }) ∧
    (s.dev.flag F.DEV_STATE_TRIAL = false → exec .trialPoll s = .next s)

/-- R417 to R422, R427, R432 and R449 (SPDM). -/
def Obligations.SessionsOpenCloseAndCarryMessages : Prop :=
  ∀ (s : State), s.dev.powered = true →
    (∀ addr role, (s.dev.uhlea = false ∨ s.dev.flag F.MBX_STATUS_PORT_UP = false ∨ addr ∈ s.dev.sec.addrRefused) →
      exec (.sessionOpen addr role) s = .next s) ∧
    (∀ addr role ts, s.dev.uhlea = true → s.dev.flag F.MBX_STATUS_PORT_UP = true → addr ∉ s.dev.sec.addrRefused →
      ts = (((fmGet s.dev.sec.addrFails addr).getD []).filter fun t => decide (s.dev.now < t + 58593750)) ++ [s.dev.now] →
      ((∀ w, role = some w → s.dev.grantsRole w = false) → Does (.sessionOpen addr role) s fun e =>
        e.fget F.SEC_EVENT_AUTH_FAIL = 1 ∧ e.fget F.MBX_EVENT_SESSION_FAIL = 1 ∧
        (ts.length < 8 → fmGet e.sec.addrFails addr = some ts ∧ e.sec.addrRefused = s.dev.sec.addrRefused) ∧
        (8 ≤ ts.length → addr ∈ e.sec.addrRefused ∧ fmGet e.sec.addrFails addr = none) ∧ memSame s.dev e) ∧
      (∀ w, role = some w → s.dev.grantsRole w = true →
        (s.dev.sessionsFull w = true → Does (.sessionOpen addr role) s fun e => e.out.getLast? = some (.mgmt 255 0x0B 1 0 [stNoResource, 0]) ∧
          e.fget F.MBX_EVENT_SESSION_FAIL = 1 ∧ e.sec = s.dev.sec ∧ memSame s.dev e) ∧
        (s.dev.sessionsFull w = false → (∃ k < 16, fmGet s.dev.mg.sessions k = none) → Does (.sessionOpen addr role) s fun e =>
          (∃ k < 16, fmGet s.dev.mg.sessions k = none ∧
            ∀ j, fmGet e.mg.sessions j = if j = k then some ⟨w, 1, 1, 0⟩ else fmGet s.dev.mg.sessions j) ∧
          e = { s.dev with mg := { s.dev.mg with sessions := e.mg.sessions } }))) ∧
    (∀ id, fmGet s.dev.mg.sessions id = none → exec (.sessionClose id) s = .next s ∧ exec (.telemetryReport id) s = .next s) ∧
    (∀ id x, fmGet s.dev.mg.sessions id = some x → Does (.sessionClose id) s fun e => fmGet e.mg.sessions id = none ∧
      (s.dev.sec.profBy = some id → e.fget F.SEC_STATUS_PROF_UNLOCKED = 0) ∧ (s.dev.sec.debugBy = some id → e.fget F.SEC_STATUS_DEBUG_UNLOCKED = 0) ∧
      (s.dev.sec.profBy ≠ some id → e.fget F.SEC_STATUS_PROF_UNLOCKED = s.dev.fget F.SEC_STATUS_PROF_UNLOCKED) ∧ memSame s.dev e) ∧
    (∀ addr, Does (.addressRefusalExpired addr) s fun e =>
      e = { s.dev with sec := { s.dev.sec with addrRefused := s.dev.sec.addrRefused.filter (· != addr) } }) ∧
    (∀ id (m : MsgHdr) as ps first n per code nonce,
      ∀ z ∈ ([(.regRead id m as, anyRole, decide (1 ≤ as.length ∧ as.length ≤ 64)), (.regWrite id m ps, anyRole, decide (1 ≤ ps.length ∧ ps.length ≤ 64)),
        (.ledgerRead id m first n, bothRoles, decide (n ≤ 256)), (.telemetry id m per, bothRoles, true), (.strongboxRead id m first n, operatorRole, decide (n ≤ 255)),
        (.traceRead id m first n, (fun w => operatorRole w && s.dev.profOpen), true), (.spdm id m code nonce, bothRoles, true)] : List (Instr × (Who → Bool) × Bool)),
      ((s.dev.uhlea = false ∨ fmGet s.dev.mg.sessions id = none) → exec z.1 s = .next s) ∧
      (∀ x, s.dev.uhlea = true → fmGet s.dev.mg.sessions id = some x →
        (m.good = false ∨ m.seq.toNat ≠ x.seqIn → Does z.1 s fun e =>
          fmGet e.mg.sessions id = none ∧ e.fget F.MBX_EVENT_SESSION_FAIL = 1 ∧ memSame s.dev e) ∧
        (∀ st, m.good = true → m.seq.toNat = x.seqIn →
          (65504 < m.len ∧ st = stLenRange ∨ m.len ≤ 65504 ∧ m.rsv = true ∧ st = stBadFormat ∨
            m.len ≤ 65504 ∧ m.rsv = false ∧ z.2.1 x.role = false ∧ st = stAuthFailed ∨
            m.len ≤ 65504 ∧ m.rsv = false ∧ z.2.1 x.role = true ∧ z.2.2 = false ∧ st = stCountRange) →
          Does z.1 s fun e => e.out.getLast? = some (.mgmt id 0x0B x.seqOut m.tag.toNat [st, m.seq.toNat]) ∧ e.fget F.MBX_EVENT_SESSION_FAIL = 1 ∧
            (∃ y, fmGet e.mg.sessions id = some y ∧ y.role = x.role ∧ y.seqIn = x.seqIn + 1) ∧ memSame s.dev e))) ∧
    (∀ id (m : MsgHdr) x d, fmGet s.dev.mg.sessions id = some x → s.dev.uhlea = true → m.good = true → m.seq.toNat = x.seqIn → m.len ≤ 65504 →
      m.rsv = false → d = { s.dev with mg := { s.dev.mg with sessions := fmSet s.dev.mg.sessions id { x with seqIn := x.seqIn + 1 } } } →
      (∀ as, anyRole x.role = true → 1 ≤ as.length → as.length ≤ 64 → Does (.regRead id m as) s fun e =>
        e.out = s.dev.out ++ [.mgmt id 0x02 x.seqOut m.tag.toNat (as.map fun a => match regOffset a with
          | some o => if o % 8 = 0 then d.readFor x.role o else 2 ^ 64 - 1
          | none => 0)] ∧
        ((∀ a ∈ as, ∀ o, regOffset a = some o → o % 8 = 0) → e = { s.dev with mg := e.mg, out := e.out }) ∧
        ((∃ a ∈ as, ∃ o, regOffset a = some o ∧ o % 8 ≠ 0) → regsBut [F.DEV_REG_ERR_COUNT.key 0] s.dev e) ∧ memSame s.dev e) ∧
      (∀ a v, anyRole x.role = true → Does (.regWrite id m [(a, v)]) s fun e => ∃ st, e.out.getLast? = some (.mgmt id 0x02 x.seqOut m.tag.toNat [st]) ∧
        (∀ o, regOffset a = some o → o % 8 ≠ 0 → st = stAlign ∧ regsBut [F.DEV_REG_ERR_COUNT.key 0] s.dev e) ∧
        (∀ o, regOffset a = some o → o % 8 = 0 → s.dev.mayWrite x.role o = false → st = stAuthFailed ∧ e.regs = s.dev.regs) ∧
        (∀ o, regOffset a = some o → o % 8 = 0 → s.dev.mayWrite x.role o = true → st = stOk ∧
          e.regs = (s.dev.plainWrite o v 0 (s.dev.bank x.role o)).regs) ∧
        (regOffset a = none → st = stOk ∧ e.regs = s.dev.regs)) ∧
      (∀ first n, bothRoles x.role = true → n ≤ 256 → Does (.ledgerRead id m first n) s fun e =>
        e.out = s.dev.out ++ [.mgmt id 0x02 x.seqOut m.tag.toNat (((List.range n).filterMap fun k => (s.dev.led (s.dev.readerHalf x.role)).snapshot (first + k)).map fun w =>
          leNat ((s.dev.led (s.dev.readerHalf x.role)).view (s.dev.readerTag x.role) w).bytes)] ∧ e = { s.dev with mg := e.mg, out := e.out }) ∧
      (∀ per, bothRoles x.role = true → Does (.telemetry id m per) s fun e =>
        fmGet e.mg.sessions id = some { x with seqIn := x.seqIn + 1, seqOut := x.seqOut + 1, period := max (if isTenant x.role then 100 else 1) per } ∧
        e.out = s.dev.out ++ [.mgmt id 0x02 x.seqOut m.tag.toNat [stOk]] ∧ e = { s.dev with mg := e.mg, out := e.out }) ∧
      (∀ first n, operatorRole x.role = true → n ≤ 255 → Does (.strongboxRead id m first n) s fun e =>
        e.out = s.dev.out ++ [.mgmt id 0x02 x.seqOut m.tag.toNat (((s.dev.sbRecords.filter fun r => first ≤ r.seq).take n).flatMap SbRec.vals)] ∧
        e = { s.dev with mg := e.mg, out := e.out }) ∧
      (∀ first n, operatorRole x.role = true → s.dev.profOpen = true → Does (.traceRead id m first n) s fun e =>
        e.out = s.dev.out ++ [.mgmt id 0x02 x.seqOut m.tag.toNat (((s.dev.mg.trace.drop first).take n).flatMap fun r => [r.kind, r.count, r.phase] ++ r.vals)] ∧
        e = { s.dev with mg := e.mg, out := e.out }) ∧
      (∀ code nonce, bothRoles x.role = true → Does (.spdm id m code nonce) s fun e =>
        (∃ b, e.out.getLast? = some (.mgmt id 0x08 x.seqOut m.tag.toNat b)) ∧ (code = 6 → ∃ bs, .quote nonce bs ∈ e.out) ∧
        e = { s.dev with mg := e.mg, out := e.out, free := e.free })) ∧
    (∀ id x, fmGet s.dev.mg.sessions id = some x →
      ((x.period = 0 ∨ s.dev.uhlea = false) → exec (.telemetryReport id) s = .next s) ∧
      (x.period ≠ 0 → s.dev.uhlea = true → Does (.telemetryReport id) s fun e =>
        e.out = s.dev.out ++ [.mgmt id 0x06 x.seqOut 0 ([s.dev.now] ++ telemetryOffs.map (s.dev.readFor x.role) ++ if isTenant x.role then [] else s.dev.mg.i3c.map (·.2))] ∧
        e = { s.dev with mg := e.mg, out := e.out }))

/-- R435, R437, R438; R447 and R448. The status of a request locked out is open. -/
def Obligations.UnlocksAndBoundBundles : Prop :=
  ∀ (s : State),
    (s.dev.powered = true →
      (∀ id lk sig, s.dev.operatorSession id = false → exec (.profReq id lk) s = .next s ∧ exec (.debugReq id lk sig) s = .next s ∧
        exec (.nonceReq id) s = .next s ∧ exec (.lock id) s = .next s) ∧
      (∀ id sig, s.dev.operatorSession id = true →
        ∀ pw fails tried, pw = ((List.range 8).flatMap fun k => leBytes 8 (s.dev.fget F.SEC_PW_PW (8 * k))) →
        fails = min (s.dev.fget F.SEC_UNLOCK_STATUS_FAILS + 1) 255 →
        tried = (fun (e : Dev) (st : Nat) => (∀ k < 8, e.fget F.SEC_PW_PW (8 * k) = 0) ∧ (∀ k < 12, e.fget F.SEC_SIG_SIG (8 * k) = 0) ∧
          e.fget F.SEC_UNLOCK_STATUS_LAST_STATUS = st ∧ memSame s.dev e ∧
          (st = stOk → e.fget F.SEC_UNLOCK_STATUS_FAILS = 0 ∧ e.sec.wait = 0 ∧ e.fget F.SEC_EVENT_UNLOCK = 1) ∧
          (st ≠ stOk → e.fget F.SEC_EVENT_UNLOCK_FAIL = 1) ∧
          (st ≠ stOk → s.dev.sec.wait = 0 → e.fget F.SEC_UNLOCK_STATUS_FAILS = fails ∧ e.sec.wait = lockout fails) ∧
          (st ≠ stOk → s.dev.sec.wait ≠ 0 → e.sec.wait = s.dev.sec.wait ∧
            e.fget F.SEC_UNLOCK_STATUS_FAILS = s.dev.fget F.SEC_UNLOCK_STATUS_FAILS)) →
        (∀ c ∈ ([.profReq id true, .debugReq id true sig] : List Instr), Does c s fun e => ∃ st, 1 ≤ st ∧ st ≤ 0x1A ∧ tried e st ∧
          e.fget F.SEC_STATUS_PROF_UNLOCKED = 0 ∧ e.fget F.SEC_STATUS_DEBUG_UNLOCKED = 0) ∧
        (s.dev.sec.wait ≠ 0 → (Does (.profReq id false) s fun e => tried e stBusy ∧
            e.fget F.SEC_STATUS_PROF_UNLOCKED = s.dev.fget F.SEC_STATUS_PROF_UNLOCKED) ∧
          Does (.debugReq id false sig) s fun e => tried e stBusy ∧ e.fget F.SEC_UNLOCK_STATUS_NONCE_VALID = 0 ∧
            e.fget F.SEC_STATUS_DEBUG_UNLOCKED = s.dev.fget F.SEC_STATUS_DEBUG_UNLOCKED) ∧
        (s.dev.sec.wait = 0 → pbkdf2 pw s.dev.sec.pwSalt = s.dev.sec.pwHash → Does (.profReq id false) s fun e => tried e stOk ∧
          e.fget F.SEC_STATUS_PROF_UNLOCKED = 1 ∧ e.sec.profBy = some id) ∧
        (s.dev.sec.wait = 0 → pbkdf2 pw s.dev.sec.pwSalt ≠ s.dev.sec.pwHash → Does (.profReq id false) s fun e => tried e stAuthFailed ∧
          e.fget F.SEC_STATUS_PROF_UNLOCKED = s.dev.fget F.SEC_STATUS_PROF_UNLOCKED) ∧
        (s.dev.sec.wait = 0 → (∃ h, s.dev.scopeState h ≠ 0) → Does (.debugReq id false sig) s fun e => tried e stWrongState ∧
          e.fget F.SEC_UNLOCK_STATUS_NONCE_VALID = 0 ∧ e.fget F.SEC_STATUS_DEBUG_UNLOCKED = s.dev.fget F.SEC_STATUS_DEBUG_UNLOCKED) ∧
        (s.dev.sec.wait = 0 → (∀ h, s.dev.scopeState h = 0) →
          (s.dev.flag F.SEC_UNLOCK_STATUS_NONCE_VALID = true → sig = true → Does (.debugReq id false sig) s fun e => tried e stOk ∧
            e.fget F.SEC_STATUS_DEBUG_UNLOCKED = 1 ∧ e.sec.debugBy = some id ∧ e.fget F.SEC_UNLOCK_STATUS_NONCE_VALID = 0) ∧
          ((s.dev.flag F.SEC_UNLOCK_STATUS_NONCE_VALID && sig) = false → Does (.debugReq id false sig) s fun e => tried e stAuthFailed ∧
            e.fget F.SEC_STATUS_DEBUG_UNLOCKED = s.dev.fget F.SEC_STATUS_DEBUG_UNLOCKED ∧ e.fget F.SEC_UNLOCK_STATUS_NONCE_VALID = 0)) ∧
        (Does (.nonceReq id) s fun e => e.fget F.SEC_UNLOCK_STATUS_NONCE_VALID = 1 ∧
          regsBut (F.SEC_UNLOCK_STATUS_NONCE_VALID.key 0 :: (List.range 4).map fun k => F.SEC_NONCE_NONCE.key (8 * k)) s.dev e ∧
          e = { s.dev with regs := e.regs, free := e.free }) ∧
        (Does (.lock id) s fun e => e.fget F.SEC_STATUS_PROF_UNLOCKED = 0 ∧ e.fget F.SEC_STATUS_DEBUG_UNLOCKED = 0 ∧ memSame s.dev e)) ∧
      (Does .nonceExpired s fun e => e.fget F.SEC_UNLOCK_STATUS_NONCE_VALID = 0 ∧
        regsBut [F.SEC_UNLOCK_STATUS_NONCE_VALID.key 0] s.dev e ∧ e = { s.dev with regs := e.regs }) ∧
      (Does .unlockWaitExpired s fun e => e = { s.dev with sec := { s.dev.sec with wait := 0 } })) ∧
    (s.dev.live = true → ∀ (ix : Fin 2) a, a = 0x20 * ix.val →
      (∀ who ok es cl, (s.dev.mayWrite who (0x9000310 + a) = false ∨ s.dev.flag F.SEC_BND_CTRL_GO a = true ∧ cl = false) →
        exec (.bundleGo ix who ok es cl) s = .next s) ∧
      (∀ who ok es, s.dev.mayWrite who (0x9000310 + a) = true → s.dev.flag F.SEC_BND_CTRL_GO a = true → Does (.bundleGo ix who ok es true) s fun e =>
        e = { s.dev with sec := { s.dev.sec with bundleAgain := fmSet s.dev.sec.bundleAgain ix.val (ok, es) } }) ∧
      (∀ j g plain, fmGet s.dev.sec.bundles ix.val = some j → fmGet s.dev.sec.bundleAgain ix.val = some g → ∀ e0 : Dev,
        e0 = ((((({ s.dev.store j.dst ((plain ++ List.replicate (j.len - plain.length) 0#8).take j.len) with sec := { s.dev.sec with bundles := fmErase s.dev.sec.bundles ix.val, bundleAgain := fmErase s.dev.sec.bundleAgain ix.val } }).fset
          F.SEC_BND_STATUS_INGOTS (min (j.len / 4096) (2 ^ 32 - 1)) a).fset F.SEC_BND_CTRL_GO 0 a).fset F.SEC_BND_STATUS_STATE 2 a).fset F.SEC_BND_STATUS_LAST_STATUS stOk a) →
        Does (.bundleDone ix true plain) s fun e => e = e0.bundleStart ix.val g.1 g.2) ∧
      (∀ tag plain, fmGet s.dev.sec.bundles ix.val = none → exec (.bundleDone ix tag plain) s = .next s) ∧
      (∀ who ok src dst hdr n len body st, s.dev.mayWrite who (0x9000310 + a) = true → s.dev.flag F.SEC_BND_CTRL_GO a = false →
        src = s.dev.fget F.SEC_BND_SRC_ADDR a → dst = s.dev.fget F.SEC_BND_DST_ADDR a → hdr = memBytes s.dev.mem src 256 →
        n = min 65536 (leAt hdr 8 4) → len = leAt hdr 16 8 → body = src + (256 + 64 * n + 4095) / 4096 * 4096 →
        ∀ entries placed ranged whole framed counted mine, entries = ((List.range n).map fun k => memBytes s.dev.mem (src + 256 + 64 * k) 64) →
        (placed ↔ src % 4096 = 0 ∧ dst % 4096 = 0) →
        (ranged ↔ s.dev.tenantRange (s.dev.engineScope ix.val) src (body - src + len) = true ∧ s.dev.tenantRange (s.dev.engineScope ix.val) dst len = true) →
        (whole ↔ ∀ k < 32 + 8 * n, s.dev.isPoison (src + 8 * k) = false) → (framed ↔ bundleFormat hdr entries = true) →
        (counted ↔ 1 ≤ leAt hdr 8 4 ∧ leAt hdr 8 4 ≤ 65536) → mine = (entries.find? fun z => leAt z 0 8 == s.dev.sec.serial) →
        ((¬placed ∧ st = stAlign ∨ placed ∧ ¬ranged ∧ st = stLenRange ∨ placed ∧ ranged ∧ ¬whole ∧ st = stPoison ∨
            placed ∧ ranged ∧ whole ∧ ¬framed ∧ st = stBadFormat ∨ placed ∧ ranged ∧ whole ∧ framed ∧ ¬counted ∧ st = stCountRange ∨
            placed ∧ ranged ∧ whole ∧ framed ∧ counted ∧ (mine = none ∨ ok = false) ∧ st = stAuthFailed) →
          Does (.bundleGo ix who ok [] false) s fun e => e.fget F.SEC_BND_STATUS_STATE a = 3 ∧ e.fget F.SEC_BND_STATUS_LAST_STATUS a = st ∧
            e.fget F.SEC_BND_CTRL_GO a = 0 ∧ e.fget F.SEC_EVENT_BUNDLE_FAIL = 1 ∧ fmGet e.sec.bundles ix.val = none ∧ memSame s.dev e) ∧
        (∀ z, placed → ranged → whole → framed → counted → mine = some z → ok = true → Does (.bundleGo ix who ok [] false) s fun e =>
          e.fget F.SEC_BND_CTRL_GO a = 1 ∧ e.fget F.SEC_BND_STATUS_STATE a = 1 ∧ e.fget F.SEC_BND_STATUS_INGOTS a = 0 ∧
          e.sec = { s.dev.sec with bundles := fmSet s.dev.sec.bundles ix.val ⟨body, dst, len, z⟩ } ∧ memSame s.dev e)) ∧
      (∀ j plain, fmGet s.dev.sec.bundles ix.val = some j → fmGet s.dev.sec.bundleAgain ix.val = none →
        (Does (.bundleDone ix true plain) s fun e => memBytes e.mem j.dst j.len = (plain ++ List.replicate (j.len - plain.length) 0#8).take j.len ∧
          memBut j.dst (j.dst + j.len) s.dev e ∧ e.fget F.SEC_BND_CTRL_GO a = 0 ∧ e.fget F.SEC_BND_STATUS_STATE a = 2 ∧
          e.fget F.SEC_BND_STATUS_LAST_STATUS a = stOk ∧ fmGet e.sec.bundles ix.val = none) ∧
        (Does (.bundleDone ix false plain) s fun e => memBytes e.mem j.dst j.len = List.replicate j.len 0#8 ∧
          memBut j.dst (j.dst + j.len) s.dev e ∧ e.fget F.SEC_BND_CTRL_GO a = 0 ∧ e.fget F.SEC_BND_STATUS_STATE a = 3 ∧
          e.fget F.SEC_BND_STATUS_LAST_STATUS a = stDigestMismatch ∧ e.fget F.SEC_EVENT_BUNDLE_FAIL = 1 ∧ fmGet e.sec.bundles ix.val = none)))

/-- R411 to R416, R425, R439, R521, R524. -/
def Obligations.SensorsBusesStrongboxAndLane : Prop :=
  ∀ (s : State), s.dev.powered = true →
    (∀ temps taps readouts, Does (.sensorSample temps taps readouts) s fun e =>
      (∀ k < 64, ∀ x, temps[k]? = some (some x) → e.fget F.MBX_SENSOR_TEMP (8 * k) = x % 65536 ∧ e.fget F.MBX_SENSOR_VALID (8 * k) = 1 ∧
        fmGet e.mg.sensorWait k = none ∧ (e.flag F.MBX_SENSOR_FAILED (8 * k) = true ↔ s16 x < -640 ∨ 2400 < s16 x)) ∧
      (∀ k < 64, temps[k]? = some none → e.fget F.MBX_SENSOR_TEMP (8 * k) = s.dev.fget F.MBX_SENSOR_TEMP (8 * k) ∧
        e.fget F.MBX_SENSOR_VALID (8 * k) = s.dev.fget F.MBX_SENSOR_VALID (8 * k) ∧
        fmGet e.mg.sensorWait k = some ((fmGet s.dev.mg.sensorWait k).getD 0 + 1) ∧
        (e.flag F.MBX_SENSOR_FAILED (8 * k) = true ↔
          s.dev.flag F.MBX_SENSOR_FAILED (8 * k) = true ∨ 16 ≤ (fmGet s.dev.mg.sensorWait k).getD 0 + 1)) ∧
      ((∃ k < 64, e.flag F.MBX_SENSOR_FAILED (8 * k) = true ∧ s.dev.flag F.MBX_SENSOR_FAILED (8 * k) = false) → e.fget F.MBX_EVENT_SENSOR_FAIL = 1) ∧
      (∀ k < 16, ∀ x, taps[k]? = some x → e.fget F.MBX_VTAP_MV (8 * k) = x % 65536 ∧ e.fget F.MBX_VTAP_VALID (8 * k) = 1) ∧
      (∀ k < 8, ∀ x, readouts[k]? = some x → e.fget F.STK_STATUS_TEMP (stackAdd k) = x % 256 ∧
        (s.dev.fget F.STK_STATUS_TEMP (stackAdd k) < 95 → 95 ≤ x % 256 → e.fget E.STK_TEMP_HIGH.bit (stackAdd k) = 1)) ∧
      ((∀ k < 64, e.sensorGood k = false) → e.fget F.MBX_TEMP_MAX = 0 ∧ e.fget F.MBX_TEMP_SENSOR = 0) ∧
      ((∃ k < 64, e.sensorGood k = true) → ∃ k < 64, e.fget F.MBX_TEMP_SENSOR = k ∧ e.sensorGood k = true ∧
        e.fget F.MBX_TEMP_MAX = e.fget F.MBX_SENSOR_TEMP (8 * k) % 65536 ∧ ∀ j < 64, e.sensorGood j = true → e.temp j ≤ e.temp k) ∧
      (∀ k < 32, fmGet e.mg.tripArm k = if e.sensorGood k = true ∧ 1840 ≤ e.temp k then
        some (e.fget F.MBX_SENSOR_TEMP (8 * k), (fmGet s.dev.mg.tripArm k).isSome) else none) ∧
      (∀ k < 8, fmGet e.mg.tripArm (64 + k) = if 105 ≤ e.fget F.STK_STATUS_TEMP (stackAdd k) then
        some (e.fget F.STK_STATUS_TEMP (stackAdd k), (fmGet s.dev.mg.tripArm (64 + k)).isSome) else none) ∧
      (∀ k, (k < 8 * 0xA000000 ∨ 8 * 0xB000000 ≤ k) → (∀ i < 8, k ∉ F.STK_STATUS_TEMP.key (stackAdd i) :: evKeys E.STK_TEMP_HIGH (stackAdd i)) →
        fmGet e.regs k = fmGet s.dev.regs k) ∧
      e = { s.dev with regs := e.regs, mg := { s.dev.mg with sensorWait := e.mg.sensorWait, tripArm := e.mg.tripArm, sbQueue := e.mg.sbQueue, sbDropped := e.mg.sbDropped, trace := e.mg.trace, sessions := e.mg.sessions }, out := e.out }) ∧
    (((∀ p ∈ s.dev.mg.tripArm, p.2.2 = false) ∨ s.dev.pw.tripped = true) → exec .thermalTrip s = .next s) ∧
    ((∃ p ∈ s.dev.mg.tripArm, p.2.2 = true) → s.dev.pw.tripped = false → Does .thermalTrip s fun e =>
      e.live = false ∧ e.tripLow = true ∧ e.mg.tripLatch = true ∧ e.pw = { s.dev.pw with tripped := true } ∧
      e = { s.dev with regs := e.regs, pw := e.pw, mg := e.mg, out := e.out }) ∧
    (∀ rs, Does (.pmbusPoll rs) s fun e =>
      (∀ k < 16, k < s.dev.mg.rails.length →
        (∀ v i x, rs[k]? = some (some (v, i, x)) → e.fget F.MBX_RAIL_VOUT (8 * k) = v % 65536 ∧ e.fget F.MBX_RAIL_IOUT (8 * k) = i % 65536 ∧
          e.fget F.MBX_RAIL_STATUS (8 * k) = x % 65536 ∧ e.fget F.MBX_RAIL_VALID (8 * k) = 1 ∧ fmGet e.mg.railPower k = some (v * i) ∧
          (x % 65536 ≠ s.dev.fget F.MBX_RAIL_STATUS (8 * k) → e.fget F.MBX_EVENT_REG_FAULT = 1)) ∧
        (rs[k]? = some none → e.fget F.MBX_RAIL_VALID (8 * k) = 0 ∧ fmGet e.mg.railPower k = fmGet s.dev.mg.railPower k ∧
          e.fget F.MBX_EVENT_PMBUS_ERR = 1)) ∧
      e.mg.powerLog = ((e.railSum 0, e.railSum 1, e.railSum 2) :: s.dev.mg.powerLog).take 20 ∧
      e.fget F.MBX_POWER_LAST = (e.railSum 0 + (e.railSum 1 + e.railSum 2)) / 10 % 2 ^ 32 ∧
      e.fget F.MBX_POWER_AVG = (e.mg.powerLog.foldl (fun n r => n + (r.1 + (r.2.1 + r.2.2))) 0) / (10 * e.mg.powerLog.length) % 2 ^ 32 ∧
      (∀ k, (k < 8 * 0xA000000 ∨ 8 * 0xB000000 ≤ k) → fmGet e.regs k = fmGet s.dev.regs k) ∧
      e = { s.dev with regs := e.regs, mg := { s.dev.mg with railPower := e.mg.railPower, powerLog := e.mg.powerLog, sbQueue := e.mg.sbQueue, sbDropped := e.mg.sbDropped, trace := e.mg.trace, sessions := e.mg.sessions }, out := e.out }) ∧
    (∀ vs, Does (.i3cPoll vs) s fun e =>
      (∀ k, fmGet e.mg.i3c k = if k < min 16 s.dev.mg.i3cTargets then
        (match vs[k]? with
          | some (some v) => some v
          | _ => fmGet s.dev.mg.i3c k) else fmGet s.dev.mg.i3c k) ∧
      ((∃ k < min 16 s.dev.mg.i3cTargets, vs[k]? = some none) → e.fget F.MBX_EVENT_I3C_ERR = 1) ∧
      regsBut (evKeys E.MBX_I3C_ERR) s.dev e ∧
      e = { s.dev with regs := e.regs, mg := { s.dev.mg with i3c := e.mg.i3c, trace := e.mg.trace, sessions := e.mg.sessions }, out := e.out }) ∧
    (∀ src, exec (.i3cIbi true src) s = .next s ∧ Does (.i3cIbi false src) s fun e =>
      e = { s.dev with mg := { s.dev.mg with ibiLog := s.dev.mg.ibiLog ++ [src.toNat] } }) ∧
    ((s.dev.uhlea = false ∨ s.dev.flag F.MBX_SB_STATUS_ERASING = true ∨ s.dev.mg.sbDropped = 0 ∧ s.dev.mg.sbQueue = []) →
      exec .strongboxWrite s = .next s) ∧
    (∀ r rs n, s.dev.uhlea = true → s.dev.flag F.MBX_SB_STATUS_ERASING = false →
      (s.dev.mg.sbDropped ≠ 0 ∧ r.type = 0xF0 ∧ r = s.dev.droppedRec ∧ rs = s.dev.mg.sbQueue ∨ s.dev.mg.sbDropped = 0 ∧ s.dev.mg.sbQueue = r :: rs) →
      n = (s.dev.mg.sbNext + 1) % 262144 → Does .strongboxWrite s fun e =>
        (∀ k, fmGet e.mg.sb k = if k = s.dev.mg.sbNext then some (.valid { r with seq := s.dev.fget F.MBX_SB_HEAD_SEQ + 1 }) else fmGet s.dev.mg.sb k) ∧
        e.mg.sbNext = n ∧ e.mg.sbQueue = rs ∧ e.mg.sbDropped = 0 ∧ e.fget F.MBX_SB_HEAD_SEQ = (s.dev.fget F.MBX_SB_HEAD_SEQ + 1) % 2 ^ 64 ∧
        e.fget F.MBX_SB_STATUS_ERASING = (if n % 256 = 0 then 1 else 0) ∧
        regsBut [F.MBX_SB_HEAD_SEQ.key 0, F.MBX_SB_STATUS_ERASING.key 0] s.dev e ∧
        e = { s.dev with regs := e.regs, mg := { s.dev.mg with sb := e.mg.sb, sbNext := e.mg.sbNext, sbQueue := e.mg.sbQueue, sbDropped := e.mg.sbDropped } }) ∧
    (s.dev.flag F.MBX_SB_STATUS_ERASING = false → exec .sectorEraseDone s = .next s) ∧
    (s.dev.flag F.MBX_SB_STATUS_ERASING = true → Does .sectorEraseDone s fun e =>
      (∀ k, fmGet e.mg.sb k = if k / 256 = s.dev.mg.sbNext / 256 then none else fmGet s.dev.mg.sb k) ∧
      e.fget F.MBX_SB_STATUS_ERASING = 0 ∧ regsBut [F.MBX_SB_STATUS_ERASING.key 0] s.dev e ∧
      e = { s.dev with regs := e.regs, mg := { s.dev.mg with sb := e.mg.sb } }) ∧
    (∀ fec, (s.dev.uhlea = false → exec (.mgmtLaneUp fec) s = .next s) ∧ (s.dev.uhlea = true → Does (.mgmtLaneUp fec) s fun e =>
      e.fget F.MBX_STATUS_PORT_UP = 1 ∧ e.fget F.MBX_PORT_LINK_UP = 1 ∧ e.fget F.MBX_PORT_FEC = (if fec then 1 else 0) ∧
      regsBut [F.MBX_STATUS_PORT_UP.key 0, F.MBX_PORT_LINK_UP.key 0, F.MBX_PORT_FEC.key 0] s.dev e ∧ e = { s.dev with regs := e.regs })) ∧
    (Does .mgmtLaneDown s fun e => e.fget F.MBX_STATUS_PORT_UP = 0 ∧ e.fget F.MBX_PORT_LINK_UP = 0 ∧
      regsBut [F.MBX_STATUS_PORT_UP.key 0, F.MBX_PORT_LINK_UP.key 0, F.MBX_PORT_FEC.key 0] s.dev e ∧ e = { s.dev with regs := e.regs }) ∧
    (∀ i, Does (.jtagInstruction i) s fun e =>
      (i = 0 ∨ 3 < i ∧ s.dev.flag F.SEC_STATUS_DEBUG_UNLOCKED = false → e = { s.dev with out := s.dev.out ++ [.jtag 0 0] }) ∧
      (1 ≤ i → (i ≤ 3 ∨ s.dev.flag F.SEC_STATUS_DEBUG_UNLOCKED = true) →
        (∃ v, e.out = s.dev.out ++ [.jtag i v]) ∧ e = { s.dev with out := e.out, free := e.free }))

/-- R404, R409, R428, R457, R458, R460, R463, R472, R473, R475, R481, R484, Tables 19-3 to 19-5. -/
def Obligations.ColdResetAndBringUp : Prop :=
  ∀ (s : State),
    (∀ v t, exec (.coldReset false false v t) s = .next s) ∧
    (∀ p r v t, (p = true ∨ r = true) → Does (.coldReset p r v t) s fun e =>
      e.powered = false ∧ e.statePins = 0 ∧ e.tripLow = false ∧ e.alertLow = false ∧ e.mem = [] ∧ e.poison = [] ∧
      e.pw.pwrGood = (s.dev.pw.pwrGood && !p) ∧ e.pw.resetN = (s.dev.pw.resetN && !r) ∧ e.pw.tripped = false ∧
      e.fget F.MBX_RESET_CAUSE_LEVEL = (if p then 1 else 2) ∧ e.fget F.MBX_RESET_CAUSE_TRIP = (if s.dev.mg.tripLatch && v then 1 else 0) ∧
      e.mg.tripLatch = (s.dev.mg.tripLatch && v) ∧ e.mg.sessions = [] ∧ e.mg.sbQueue = (if v then s.dev.mg.sbQueue else []) ∧
      (∀ k, fmGet e.mg.sb k = if k = s.dev.mg.sbNext ∧ t = true ∧ s.dev.mg.sbQueue ≠ [] then some .torn else fmGet s.dev.mg.sb k) ∧
      (v = true → e.led0.mirror = s.dev.led0.mirror ∧ e.led0.head = s.dev.led0.head ∧ e.led1.mirror = s.dev.led1.mirror ∧ e.led1.head = s.dev.led1.head) ∧
      (v = false → e.led0.mirror = [] ∧ e.led1.mirror = [] ∧ (∀ n, s.dev.boot.sbHead0 = some n → e.led0.head = n + 65536)) ∧
      (s.dev.sec.winnows = [] → (∀ f ∈ flashFields, e.fget f = s.dev.fget f) ∧
        ∀ k, k ∉ flashFields.map (·.key 0) → k ∉ [F.MBX_RESET_CAUSE_LEVEL.key 0, F.MBX_RESET_CAUSE_TRIP.key 0] → fmGet e.regs k = none) ∧
      (s.dev.sec.winnows ≠ [] → e.fget F.SEC_EVENT_WINNOW_FAIL = 1) ∧
      e.boot = { s.dev.boot with step := 4, cause := (if p then 1 else 2), kicked := false, update := if v then s.dev.boot.update else none } ∧
      e = { Dev.reset with regs := e.regs, pw := e.pw, led0 := e.led0, led1 := e.led1, mg := e.mg, sec := e.sec, boot := e.boot, srv := e.srv, out := s.dev.out, free := s.dev.free }) ∧
    (∀ a b m k r o, s.dev.powered = true → exec (.bringup a b m k r o) s = .next s) ∧
    (∀ a b m k r o, s.dev.powered = false → Does (.bringup a b m k r o) s fun e =>
      e.pw = { s.dev.pw with pwrGood := true, resetN := true } ∧ e.boot.step = 4 ∧ e.boot.pageBad = !o ∧
      e.fget F.DEV_STRAPS_FEED_ID = a % 16 ∧ e.fget F.DEV_STRAPS_SHEAF_RANK = b % 8 ∧ e.fget F.DEV_STRAPS_TALLY_MASTER = (if m then 1 else 0) ∧
      e.fget F.DEV_STRAPS_BOOT_SEL = k.val ∧ e.fget F.DEV_STRAPS_FEED_PORT_MODE = (if r then 1 else 0) ∧ e.fget F.FED_STATUS_MODE = (if r then 1 else 0) ∧
      (o = false → e.fget F.DEV_EVENT_REPAIR_BAD = 1) ∧
      (∀ j < 32, fmGet e.boot.shift j = match e.defectCols j with
        | [] => none
        | [x] => some x
        | _ => some ((fmGet s.dev.boot.fused j).getD 16)) ∧
      e.fget F.DEV_STATE_DEGRADED_W = (if (List.range 16).any fun j => decide (1 < (e.defectCols j).length) then 1 else 0) ∧
      e.fget F.DEV_STATE_DEGRADED_E = (if (List.range 16).any fun j => decide (1 < (e.defectCols (16 + j)).length) then 1 else 0) ∧
      memSame s.dev e ∧ e = { s.dev with regs := e.regs, pw := e.pw, boot := { s.dev.boot with step := 4, cause := e.boot.cause, pageBad := !o, shift := e.boot.shift } }) ∧
    (∀ ok ok2 kept format, s.dev.powered = true →
      ((s.dev.boot.step ≠ 4 ∨ s.dev.fget F.DEV_STRAPS_BOOT_SEL = 3) → exec (.uhleaStart ok ok2 kept format) s = .next s) ∧
      (s.dev.boot.step = 4 → s.dev.fget F.DEV_STRAPS_BOOT_SEL ≠ 3 → ∀ b c fails keep, b = s.dev.firstSlot → c = (if ok then b else !b) →
        fails = (!ok && decide (s.dev.fget F.DEV_STRAPS_BOOT_SEL = 0) && decide (s.dev.slotMark b = 2)) → keep = (kept && !s.dev.pw.stbyLost) →
        (ok = false → ok2 = false → fails = false → exec (.uhleaStart ok ok2 kept format) s = .next s) ∧
        (fails = true → Does (.uhleaStart ok ok2 kept format) s fun e => e.slotMark b = 5 ∧ e.fget F.DEV_UPDATE_PHASE = 6 ∧
          e.fget F.DEV_EVENT_UPDATE_FAIL = 1 ∧ .fabric 5 [4, s.dev.fget F.DEV_UPDATE_UPDATE_ID] ∈ e.out ∧
          (ok2 = false → e = { s.dev with regs := e.regs, out := e.out } ∧ e.uhlea = s.dev.uhlea)) ∧
        (ok = true ∨ ok2 = true → Does (.uhleaStart ok ok2 kept format) s fun e =>
          e.uhlea = true ∧ e.fget F.MBX_STATUS_SLOT = (if c then 1 else 0) ∧ e.fget F.MBX_STATUS_SRAM_KEPT = (if keep then 1 else 0) ∧
          e.fget F.MBX_STATUS_BOOT = min (s.dev.fget F.MBX_STATUS_BOOT + 1) (2 ^ 32 - 1) ∧ e.boot.step = 6 ∧ e.boot.runB = c ∧ e.boot.kicked = false ∧
          e.fget F.DEV_STATE_TRIAL = (if s.dev.slotMark c = 2 then 1 else 0) ∧ (∀ h, e.half h = if s.dev.half h = 7 then 7 else 1) ∧
          e.fget F.MBX_SB_HEAD_SEQ = ((s.dev.sbRecords.map (·.seq)).foldl max 0) % 2 ^ 64 ∧
          ((∃ x ∈ s.dev.mg.sb, x.2 = .torn) → e.fget F.MBX_EVENT_SB_TORN = 1) ∧
          (s.dev.mg.tripLatch = true → e.fget F.MBX_EVENT_THERM_TRIP = 1) ∧ e.mg.tripLatch = false ∧
          (keep = true → e.led0 = s.dev.led0 ∧ e.led1 = s.dev.led1 ∧ e.srv = s.dev.srv) ∧
          (keep = false → e.led0.mirror = [] ∧ e.led1.mirror = [] ∧ e.boot.update = none ∧ ∀ n, s.dev.boot.sbHead0 = some n → e.led0.head = n + 65536) ∧
          (s.dev.boot.settingsFormat < format → s.dev.slotMark c ≠ 2 → e.fget F.DEV_EVENT_SETTINGS_RESET = 1 ∧ e.boot.settings = [] ∧
            e.boot.settingsFabric = none ∧ ∀ h, e.scopeState h = if s.dev.scopeState h = 0 then 0 else 2) ∧
          (format ≤ s.dev.boot.settingsFormat ∨ s.dev.slotMark c = 2 → e.boot.settings = s.dev.boot.settings ∧
            (∀ i, s.dev.boot.settingsFabric = some i → e.fget F.DEV_FABRIC_ID = i % 65536 ∧ e.fget F.DEV_FABRIC_VALID = 1) ∧
            ∀ k v, (k, v) ∈ s.dev.boot.settings → isSetting (k / 64 * 8) = true → (∀ x ∈ s.dev.boot.settings, x.1 = k → x.2 = v) → fmGet e.regs k = some v) ∧
          e = { s.dev with regs := e.regs, pw := { s.dev.pw with stbyLost := false }, led0 := e.led0, led1 := e.led1, mg := e.mg, srv := e.srv, boot := e.boot, out := e.out }))) ∧
    (∀ (k : StackId) ok rep, s.dev.powered = true →
      (s.dev.atStep 6 = false ∨ s.dev.flag F.STK_STATUS_TRAINED (stackAdd k) = true ∨ s.dev.flag F.STK_STATUS_DEGRADED (stackAdd k) = true →
        exec (.stackTrainingDone k ok rep) s = .next s) ∧
      (s.dev.atStep 6 = true → s.dev.flag F.STK_STATUS_TRAINED (stackAdd k) = false → s.dev.flag F.STK_STATUS_DEGRADED (stackAdd k) = false →
        Does (.stackTrainingDone k ok rep) s fun e =>
          e.fget F.STK_STATUS_TRAINED (stackAdd k) = (if ok then 1 else 0) ∧ e.fget F.STK_STATUS_DEGRADED (stackAdd k) = (if ok then 0 else 1) ∧
          e.boot.step = (if (List.range 8).all fun j => e.flag F.STK_STATUS_TRAINED (stackAdd j) || e.flag F.STK_STATUS_DEGRADED (stackAdd j) then 7 else 6) ∧
          e.boot.rows.length = s.dev.boot.rows.length ∧
          (∀ (i : Nat) x, s.dev.boot.rows[i]? = some x → (x.stack ≠ k.val ∨ x.state ≠ 0 ∨ ok = false → e.boot.rows[i]? = some x) ∧
            (x.stack = k.val → x.state = 0 → ok = true → ∃ y, e.boot.rows[i]? = some { x with state := y } ∧ (y = 1 ∨ y = 2 ∧ false ∈ rep))) ∧
          regsBut [F.STK_STATUS_TRAINED.key (stackAdd k), F.STK_STATUS_DEGRADED.key (stackAdd k)] s.dev e ∧
          e = { s.dev with regs := e.regs, boot := { s.dev.boot with step := e.boot.step, rows := e.boot.rows } })) ∧
    (∀ ok, s.dev.powered = true →
      (s.dev.atStep 7 = false → exec (.bridgeTrainingDone ok) s = .next s) ∧
      (s.dev.atStep 7 = true → Does (.bridgeTrainingDone ok) s fun e =>
        e.boot = { s.dev.boot with step := 10 } ∧
        (s.dev.pw.fuseW = true → s.dev.pw.fuseE = false → e.half false = s.dev.half false ∧ (ok = true → e = { s.dev with boot := e.boot }) ∧
          (ok = false → e.half true = 7 ∧ (s.dev.half true ≠ 7 → e.halfSub true = 1 ∧ e.fget F.DEV_EVENT_ORPHAN = 1))) ∧
        (s.dev.pw.fuseW = false → e.half false = 7 ∧ e.halfSub false = 0 ∧ e.fget F.DEV_EVENT_DUAL_CLAIM = 1) ∧
        (s.dev.pw.fuseE = true → e.half true = 7 ∧ e.halfSub true = 0 ∧ e.fget F.DEV_EVENT_DUAL_CLAIM = 1) ∧
        e = { s.dev with regs := e.regs, boot := e.boot, mg := e.mg, out := e.out })) ∧
    (s.dev.powered = true → (s.dev.atStep 10 = false → exec .tallyWaitExpired s = .next s) ∧
      (s.dev.atStep 10 = true → Does .tallyWaitExpired s fun e => e = { s.dev with boot := { s.dev.boot with step := 11 } })) ∧
    (s.dev.powered = true → (s.dev.atStep 11 = false → (s.dev.atStep 10 = false ∨ s.dev.lockState ≠ 3) → exec .bringupComplete s = .next s) ∧
      ((s.dev.atStep 11 = true ∨ s.dev.atStep 10 = true ∧ s.dev.lockState = 3) → Does .bringupComplete s fun e =>
        e.boot.step = 0 ∧ (∀ h, e.half h = if s.dev.half h = 7 then 7 else 2) ∧
        (∀ h ∈ s.dev.ledgers, (e.led h).head = (s.dev.led h).head + 1 ∧
          (∃ w, fmGet (e.led h).mirror ((s.dev.led h).head + 1) = some w ∧ w.opcode = 0xF3 ∧ w.state = 3 ∧ w.result = s.dev.boot.cause) ∧
          (∀ q x, fmGet (s.dev.led h).mirror q = some x → q ≠ (s.dev.led h).head + 1 → (s.dev.led h).head + 1 < q + 1024 →
            fmGet (e.led h).mirror q = some (if 3 ≤ x.state then x else { x with state := 4, status := stAbandoned, flags := x.flags ||| 2, due := false })) ∧
          ((∃ p ∈ (s.dev.led h).mirror, p.2.state < 3) → e.fget F.CMD_EVENT_RESET_LOST = 1) ∧
          (s.dev.boot.cause < 3 → (if s.dev.split && h then e.boot.sbHead1 else e.boot.sbHead0) = some ((s.dev.led h).head + 1))) ∧
        (s.dev.flag F.DEV_STATE_TRIAL = true → .fabric 5 [3, s.dev.fget F.DEV_UPDATE_UPDATE_ID] ∈ e.out) ∧
        e = { s.dev with regs := e.regs, led0 := e.led0, led1 := e.led1, mg := e.mg, boot := e.boot, out := e.out }))

/-- R459, R467, R470 to R472, R481. -/
def Obligations.WatchdogChargeAndFabricId : Prop :=
  ∀ (s : State),
    (s.dev.powered = true →
      ((s.dev.uhlea = false ∨ s.dev.fget F.DEV_STRAPS_BOOT_SEL = 3) → exec .watchdog s = .next s) ∧
      (s.dev.uhlea = true → s.dev.fget F.DEV_STRAPS_BOOT_SEL ≠ 3 → Does .watchdog s fun e =>
        e.fget F.MBX_RESET_CAUSE_LEVEL = 4 ∧ e.fget F.DEV_EVENT_WDOG = 1 ∧ e.uhlea = false ∧ e.powered = true ∧ e.boot.step = 4 ∧ e.mem = [] ∧
        e.poison = [] ∧ e.led0.mirror = s.dev.led0.mirror ∧ e.led1.mirror = s.dev.led1.mirror ∧ e.mg.sb = s.dev.mg.sb ∧ e.mg.sbQueue = s.dev.mg.sbQueue ∧
        (∀ b fails, b = s.dev.boot.runB → fails = (decide (s.dev.slotMark b = 2) && !s.dev.boot.kicked && decide (s.dev.fget F.DEV_STRAPS_BOOT_SEL = 0)) →
          (fails = true → e.slotMark b = 5 ∧ e.fget F.DEV_UPDATE_PHASE = 6 ∧ .fabric 5 [4, s.dev.fget F.DEV_UPDATE_UPDATE_ID] ∈ e.out) ∧
          (fails = false → e.slotMark b = s.dev.slotMark b ∧ e.out = s.dev.out)) ∧
        e = { Dev.reset with regs := e.regs, pw := e.pw, led0 := e.led0, led1 := e.led1, mg := e.mg, sec := e.sec, boot := e.boot, srv := e.srv, out := e.out, free := s.dev.free }) ∧
      (∀ w, (s.dev.uhlea = false ∨ w ≠ .uhlea) → exec (.kick w) s = .next s) ∧
      (s.dev.uhlea = true → Does (.kick .uhlea) s fun e => e = { s.dev with boot := { s.dev.boot with kicked := true } })) ∧
    (s.dev.charged = false → exec .heartbeat s = .next s ∧ (∀ c, exec (.heartbeatRx c) s = .next s ∧ exec (.echoRx c) s = .next s) ∧
      exec .heartbeatMiss s = .next s ∧ exec .echoMiss s = .next s) ∧
    (s.dev.live = true → s.dev.charged = true →
      (Does .heartbeat s fun e => e.fget F.DEV_CHARGE_CLAIM_W = (if s.dev.pw.fuseW then 1 else 0) ∧ regsBut [F.DEV_CHARGE_CLAIM_W.key 0] s.dev e ∧
        e = { s.dev with regs := e.regs, pw := { s.dev.pw with echoDue := true }, out := s.dev.out ++ [.bridge false s.dev.pw.fuseW (s.dev.now % 65536) (s.dev.half false)] }) ∧
      (∀ c, Does (.heartbeatRx c) s fun e => e.fget F.DEV_CHARGE_MISS_E = 0 ∧ e.fget F.DEV_CHARGE_CLAIM_W = (if c then 1 else 0) ∧
        e.fget F.DEV_CHARGE_CLAIM_E = (if s.dev.pw.fuseE then 1 else 0) ∧
        e.out.getLast? = some (.bridge true s.dev.pw.fuseE (s.dev.now % 65536) (e.half true)) ∧
        ((c && s.dev.pw.fuseE) = true → ∀ h, e.half h = 7 ∧ e.halfSub h = 0 ∧
          (s.dev.half h ≠ 7 ∨ s.dev.halfSub h ≠ 0 → e.fget F.DEV_EVENT_DUAL_CLAIM = 1)) ∧
        ((c && s.dev.pw.fuseE) = false → e.mg = s.dev.mg ∧ e.out = s.dev.out ++ [.bridge true s.dev.pw.fuseE (s.dev.now % 65536) (s.dev.half true)] ∧
          regsBut [F.DEV_CHARGE_MISS_E.key 0, F.DEV_CHARGE_CLAIM_W.key 0, F.DEV_CHARGE_CLAIM_E.key 0] s.dev e) ∧
        e = { s.dev with regs := e.regs, pw := { s.dev.pw with hbSeen := true }, mg := e.mg, out := e.out }) ∧
      (∀ c, Does (.echoRx c) s fun e => e.fget F.DEV_CHARGE_MISS_W = 0 ∧ e.fget F.DEV_CHARGE_CLAIM_E = (if c then 1 else 0) ∧
        ((c && s.dev.pw.fuseW) = true → ∀ h, e.half h = 7 ∧ e.halfSub h = 0 ∧
          (s.dev.half h ≠ 7 ∨ s.dev.halfSub h ≠ 0 → e.fget F.DEV_EVENT_DUAL_CLAIM = 1)) ∧
        ((c && s.dev.pw.fuseW) = false → e.mg = s.dev.mg ∧ e.out = s.dev.out ∧ regsBut [F.DEV_CHARGE_MISS_W.key 0, F.DEV_CHARGE_CLAIM_E.key 0] s.dev e) ∧
        e = { s.dev with regs := e.regs, pw := { s.dev.pw with echoDue := false }, mg := e.mg, out := e.out }) ∧
      (s.dev.pw.hbSeen = true → exec .heartbeatMiss s = .next s) ∧ (s.dev.pw.echoDue = false → exec .echoMiss s = .next s) ∧
      (∀ x ∈ ([(.heartbeatMiss, F.DEV_CHARGE_MISS_E, !s.dev.pw.hbSeen, s.dev.pw), (.echoMiss, F.DEV_CHARGE_MISS_W, s.dev.pw.echoDue, { s.dev.pw with echoDue := false })]
          : List (Instr × Fld × Bool × PowerS)), x.2.2.1 = true → Does x.1 s fun e =>
        e.fget x.2.1 = min 16 (s.dev.fget x.2.1 + 1) ∧ e.fget F.DEV_EVENT_HB_MISS = 1 ∧ e.half false = s.dev.half false ∧
        (15 ≤ s.dev.fget x.2.1 → e.half true = 7 ∧ (s.dev.half true ≠ 7 → e.halfSub true = 1 ∧ e.fget F.DEV_EVENT_ORPHAN = 1)) ∧
        (s.dev.fget x.2.1 < 15 → e.mg = s.dev.mg ∧ e.out = s.dev.out ∧ regsBut (x.2.1.key 0 :: evKeys E.DEV_HB_MISS) s.dev e) ∧
        e = { s.dev with regs := e.regs, pw := x.2.2.2, mg := e.mg, out := e.out })) ∧
    (s.dev.live = true → ∀ w (v : BitVec 16) ok, ok = (s.dev.uhlea && s.dev.mayWrite w 0x18 && (s.dev.half false == 2) && (s.dev.half true == 2 || s.dev.half true == 7) &&
        (v.toNat / 2 ^ 13 == s.dev.fget F.DEV_STRAPS_SHEAF_RANK)) →
      (ok = false → exec (.fabricIdWrite w v) s = .next s) ∧
      (ok = true → Does (.fabricIdWrite w v) s fun e => e.fget F.DEV_FABRIC_ID = v.toNat ∧ e.fget F.DEV_FABRIC_VALID = 1 ∧
        e.fget F.TAL_STATUS_MASTER = (if v = 0 ∧ s.dev.flag F.DEV_STRAPS_TALLY_MASTER = true then 1 else 0) ∧
        e.boot = { s.dev.boot with settingsFabric := some v.toNat, settingsFormat := if s.dev.flag F.DEV_STATE_TRIAL then s.dev.boot.settingsFormat else s.dev.boot.uhleaFormat } ∧
        (e.isMaster = false → e.fget F.TAL_STATUS_DEPTH = (if s.dev.isMaster then 255 else s.dev.fget F.TAL_STATUS_DEPTH) ∧
          regsBut [F.DEV_FABRIC_ID.key 0, F.DEV_FABRIC_VALID.key 0, F.TAL_STATUS_MASTER.key 0, F.TAL_STATUS_DEPTH.key 0] s.dev e ∧
          e = { s.dev with regs := e.regs, boot := e.boot }) ∧
        (e.isMaster = true → e.fget F.TAL_STATUS_PARENT = 15 ∧ e.fget F.TAL_STATUS_DEPTH = 0 ∧
          e.lockState = (if s.dev.lockState = 3 then 3 else 0) ∧ (s.dev.lockState ≠ 2 → s.dev.lockState ≠ 4 →
            e = { s.dev with regs := e.regs, boot := e.boot, tally := e.tally }) ∧
          e = { s.dev with regs := e.regs, boot := e.boot, tally := { s.dev.tally with hold := e.tally.hold }, led0 := e.led0, led1 := e.led1, mg := e.mg, out := e.out })))

/-- R487, R490, R492, R493, R496. -/
def Obligations.FeedArmsCopiesAndServesTheHost : Prop :=
  ∀ (s : State), s.dev.live = true →
    (∀ w es heads, s.dev.mayWrite w 0x8000040 = false → exec (.arm w es heads) s = .next s) ∧
    (∀ w es (heads : List (Option (List Byte))) r b a sc hs, s.dev.mayWrite w 0x8000040 = true → a = s.dev.fget F.FED_FEED_DESC_ADDR → sc = s.dev.feedScope →
      r = s.dev.readWords (a / 8 * 8) 8 es → b = wordBytes r.1.1 → hs = heads.filterMap id →
      ∀ cs : List (Bool × Nat), cs = [
        (!(scopeHalves sc).all (fun h => s.dev.half h == 3 || s.dev.half h == 5) || leAt b 0 1 != (if s.dev.rootMode then 0 else 1), stWrongState),
        (a % 64 != 0 || fdDest b % 4096 != 0 || fdSlot b % 4096 != 0, stAlign),
        (r.1.2.1, stPoison),
        (heads.any (·.isNone), stPartnerAbsent),
        (leAt b 3 1 != 0 || leAt b 44 20 != 0 || (leAt b 0 1 == 1 && fdMask b != 0) || hs.any shardHeaderBad, stBadFormat),
        (decide (fdReaders b ≤ fdIndex b) || decide (65536 < fdReaders b) || fdMicro b != microBatches (s.dev.imageBytes s.dev.feedHalf) ||
          !(fdEntries b).all (fun k => k == 8 || ((s.dev.nsFor k).isSome && s.dev.nsBound k)) || hs.foldl (fun n x => n + leAt x 8 8) 0 == 0, stCountRange),
        (!s.dev.tenantRange sc a 64 || !s.dev.tenantRange sc (fdDest b) (fdMicro b * fdSlot b) ||
          decide (fdSlot b < 64 + fdCount b * (hs.map fun x => leAt x 5 1).foldl max 0), stLenRange)] →
      (∀ st, firstOf cs = some st → Does (.arm w es heads) s fun e =>
        e.fget F.FED_FEED_STATUS_STATE = 0 ∧ e.fget F.FED_FEED_STATUS_LAST_STATUS = st ∧ e.feed.armed = none ∧ e.feed.ingest = [] ∧
        (∀ k, e.fget F.FED_CURSOR_CURSOR (8 * k) = s.dev.fget F.FED_CURSOR_CURSOR (8 * k))) ∧
      (firstOf cs = none → Does (.arm w es heads) s fun e =>
        e.fget F.FED_FEED_STATUS_STATE = 1 ∧ e.fget F.FED_FEED_STATUS_LAST_STATUS = stOk ∧ (∃ j, e.feed.armed = some j ∧ j.desc = b ∧
          j.shards = ((fdEntries b).zip hs).map (fun p => (p.1, leAt p.2 8 8, leAt p.2 16 4, leAt p.2 20 4, leAt p.2 5 1)) ∧
          (s.dev.fget F.FED_CURSOR_CURSOR 16 % 2 ^ 32 = crc32c b → ∀ k, e.fget F.FED_CURSOR_CURSOR (8 * k) = s.dev.fget F.FED_CURSOR_CURSOR (8 * k)) ∧
          (s.dev.fget F.FED_CURSOR_CURSOR 16 % 2 ^ 32 ≠ crc32c b → e.fget F.FED_CURSOR_CURSOR = 0 ∧ e.fget F.FED_CURSOR_CURSOR 8 = 0 ∧
            e.fget F.FED_CURSOR_CURSOR 16 = (crc32c b + j.records % 2 ^ 32 * 2 ^ 32) % 2 ^ 64 ∧ e.fget F.FED_CURSOR_CURSOR 24 = 0)) ∧
        e.feed = { s.dev.feed with armed := e.feed.armed }) ∧
      Does (.arm w es heads) s fun e => (es = [] → memSame s.dev e) ∧
        e = { s.dev with regs := e.regs, mem := e.mem, poison := e.poison, feed := e.feed }) ∧
    (∀ w (v : Word), (s.dev.mayWrite w 0x8000060 = false ∨ bit v.toNat 0 = false) → ∀ cl, exec (.ckptGo w v cl) s = .next s) ∧
    (∀ w (v : Word) n k a lba u dir cs cl, s.dev.mayWrite w 0x8000060 = true → bit v.toNat 0 = true → n = bits v.toNat 8 32 → k = bits v.toNat 2 3 →
      dir = bit v.toNat 1 → a = s.dev.fget F.FED_CKPT_SRC_ADDR → lba = s.dev.fget F.FED_CKPT_LBA_LBA → u = 4096 / s.dev.lbaBytes k →
      cs = [(a % 4096 != 0, stAlign),
        (!s.dev.tenantRange s.dev.feedScope a (4096 * n) || (match s.dev.nsFor k with
          | some x => decide (x.blocks < lba + n * u)
          | none => false), stLenRange),
        ((s.dev.nsFor k).isNone || !s.dev.nsBound k, stAuthFailed)] →
      Does (.ckptGo w v cl) s fun e =>
        e.fget F.FED_CKPT_CTRL_DIR = bits v.toNat 1 1 ∧ e.fget F.FED_CKPT_CTRL_NS = k ∧ e.fget F.FED_CKPT_CTRL_INGOTS = n ∧
        (s.dev.feed.ckpt.isSome = true →
          e = { s.dev with regs := e.regs, feed := { s.dev.feed with ckptAgain := if cl then some v.toNat else s.dev.feed.ckptAgain } } ∧
          regsBut [F.FED_CKPT_CTRL_DIR.key 0, F.FED_CKPT_CTRL_NS.key 0, F.FED_CKPT_CTRL_INGOTS.key 0] s.dev e) ∧
        (s.dev.feed.ckpt = none → e.fget F.FED_CKPT_STATUS_DONE = 0 ∧
          (∀ st, firstOf cs = some st → e.fget F.FED_CKPT_STATUS_STATE = 3 ∧ e.fget F.FED_CKPT_STATUS_LAST_STATUS = st ∧ e.fget F.FED_CKPT_CTRL_GO = 0 ∧
            e.fget F.FED_EVENT_CKPT_FAIL = 1 ∧ e.feed.ckpt = none ∧ e.out = s.dev.out) ∧
          (firstOf cs = none → n = 0 → e.fget F.FED_CKPT_STATUS_STATE = 2 ∧ e.fget F.FED_CKPT_STATUS_LAST_STATUS = stOk ∧ e.fget F.FED_CKPT_CTRL_GO = 0 ∧
            e.fget F.FED_CKPT_DIGEST_DIGEST = tensorDigest [] % 2 ^ 64 ∧ e.feed.ckpt = none ∧ e.out = s.dev.out) ∧
          (firstOf cs = none → n ≠ 0 → e.fget F.FED_CKPT_STATUS_STATE = 1 ∧ e.fget F.FED_CKPT_CTRL_GO = 1 ∧ e.feed.ckpt = some (a, k, lba, n, dir) ∧
            e.out = s.dev.out ++ [.nvme k (if dir then 2 else 1) lba u] ∧
            fmGet e.feed.cmds s.dev.feed.nextCmd = some ⟨k, if dir then 2 else 1, lba, u, 1, 0, false⟩)) ∧
        e = { s.dev with regs := e.regs, feed := { s.dev.feed with ckpt := e.feed.ckpt, ckptAgain := e.feed.ckptAgain, cmds := e.feed.cmds, nextCmd := e.feed.nextCmd }, out := e.out }) ∧
    (∀ ok, (s.dev.feed.ckpt = none → exec (.ckptDone ok) s = .next s) ∧
      (∀ a k lba n dir, s.dev.feed.ckpt = some (a, k, lba, n, dir) →
        (s.dev.fget F.FED_CKPT_STATUS_DONE < n → exec (.ckptDone ok) s = .next s) ∧
        (∀ v, n ≤ s.dev.fget F.FED_CKPT_STATUS_DONE → s.dev.feed.ckptAgain = some v → Does (.ckptDone ok) s fun e =>
          e.feed.ckptAgain = none ∧ e.fget F.FED_CKPT_STATUS_DONE = 0 ∧ (s.dev.ckptCheck = none → bits v 8 32 ≠ 0 →
            e.fget F.FED_CKPT_STATUS_STATE = 1 ∧ e.fget F.FED_CKPT_CTRL_GO = 1 ∧ ∃ j, e.feed.ckpt = some j ∧ j.2.2.2 = (bits v 8 32, bit v 1))) ∧
        (n ≤ s.dev.fget F.FED_CKPT_STATUS_DONE → s.dev.feed.ckptAgain = none → Does (.ckptDone ok) s fun e =>
          e.fget F.FED_CKPT_CTRL_GO = 0 ∧ e.feed.ckpt = none ∧ e.out = s.dev.out ++ (if dir then [] else [.nvme k 0 0 0]) ∧
          (dir = true ∨ ok = true → e.fget F.FED_CKPT_STATUS_STATE = 2 ∧ e.fget F.FED_CKPT_STATUS_LAST_STATUS = stOk ∧
            e.fget F.FED_CKPT_DIGEST_DIGEST = tensorDigest ((List.range n).map fun i => s.dev.ingot (a + 4096 * i)) % 2 ^ 64) ∧
          (dir = false → ok = false → e.fget F.FED_CKPT_STATUS_STATE = 3 ∧ e.fget F.FED_CKPT_STATUS_LAST_STATUS = stPartnerAbsent ∧
            e.fget F.FED_EVENT_NVME_ERR = 1 ∧ e.fget F.FED_EVENT_CKPT_FAIL = 1) ∧
          e = { s.dev with regs := e.regs, feed := { s.dev.feed with ckpt := none, cmds := e.feed.cmds }, out := e.out }))) ∧
    (∀ wr (off : BitVec 36) n data ep es len a, len = (if wr then data.length else n) → a = s.dev.fget F.FED_BAR2_BASE / 4096 * 4096 + off.toNat →
      ((s.dev.rootMode = true ∨ s.dev.fget F.FED_STATUS_LINKS_UP = 0 ∨ 2 ^ s.dev.feed.bar2Log < off.toNat + len) →
        exec (.bar2Access wr off n data ep es) s = .next s) ∧
      (s.dev.rootMode = false → s.dev.fget F.FED_STATUS_LINKS_UP ≠ 0 → off.toNat + len ≤ 2 ^ s.dev.feed.bar2Log →
        ((s.dev.tenantRange s.dev.feedScope a len = false ∨ ∃ h ∈ scopeHalves s.dev.feedScope, s.dev.half h = 6) →
          Does (.bar2Access wr off n data ep es) s fun e => e.fget F.FED_EVENT_EP_ABORT = 1 ∧ regsBut (evKeys E.FED_EP_ABORT) s.dev e ∧
            e = { s.dev with regs := e.regs, out := s.dev.out ++ (if wr then [] else [.bar2 [] false true]) }) ∧
        (s.dev.tenantRange s.dev.feedScope a len = true → (∀ h ∈ scopeHalves s.dev.feedScope, s.dev.half h ≠ 6) →
          (wr = true → Does (.bar2Access wr off n data ep es) s fun e =>
            (ep = false → bytesStored s.dev e a data) ∧ (ep = true → ∀ i, a ≤ i → i < a + data.length → e.isPoison i = true) ∧
            memBut (a / 8 * 8) ((a + data.length + 7) / 8 * 8) s.dev e ∧
            e = { s.dev with regs := e.regs, mem := e.mem, poison := e.poison }) ∧
          (wr = false → Does (.bar2Access wr off n data ep es) s fun e =>
            (es = [] → memSame s.dev e ∧ e.out = s.dev.out ++ [.bar2 ((List.range n).map fun i => if s.dev.isPoison (a + i) then 0#8 else memGet s.dev.mem (a + i))
              ((List.range ((a + n + 7) / 8 - a / 8)).any fun i => s.dev.isPoison (8 * (a / 8 + i))) false]) ∧
            e = { s.dev with regs := e.regs, mem := e.mem, poison := e.poison, out := e.out })))) ∧
    (∀ (link : Fin 4) flit ns up, up = s.dev.fget F.FED_STATUS_LINKS_UP → Does (.feedLinkUp link flit ns) s fun e =>
      e.fget F.FED_STATUS_LINKS_UP = (up ||| 2 ^ link.val) % 16 ∧
      e.feed.noFlit = s.dev.feed.noFlit.filter (· != link.val) ++ (if flit then [] else [link.val]) ∧
      e.fget F.FED_STATUS_FLIT = (if e.feed.noFlit.isEmpty then 1 else 0) ∧
      e.feed.bar2Log = bar2Size (s.dev.fget F.FED_BAR2_LOG2SIZE) ∧
      (s.dev.rootMode = false → e.feed.ns = s.dev.feed.ns) ∧
      (s.dev.rootMode = true → (e.feed.ns = s.dev.feed.ns ++ (ns.filter fun x => x.1 < 4).map fun x => ⟨x.1, x.2.1, x.2.2.1, x.2.2.2⟩) ∧
        e.fget F.FED_STATUS_CTRLS = ((List.range 4).filter fun c => e.feed.ns.any (·.ctrl == c)).length ∧
        ((∃ x ∈ ns, 4 ≤ x.1) → e.fget F.FED_EVENT_NVME_ERR = 1)) ∧
      regsBut ([F.FED_STATUS_LINKS_UP.key 0, F.FED_STATUS_FLIT.key 0, F.FED_STATUS_CTRLS.key 0] ++ evKeys E.FED_NVME_ERR) s.dev e ∧
      e = { s.dev with regs := e.regs, feed := { s.dev.feed with ns := e.feed.ns, bar2Log := e.feed.bar2Log, noFlit := e.feed.noFlit } }) ∧
    (∀ (link : Fin 4) lost up, up = s.dev.fget F.FED_STATUS_LINKS_UP →
      (bit up link.val = false → exec (.feedLinkDown link lost) s = .next s) ∧
      (bit up link.val = true → Does (.feedLinkDown link lost) s fun e => e.fget F.FED_EVENT_LINK_DOWN = 1 ∧
        e.fget F.FED_STATUS_LINKS_UP = (up - 2 ^ link.val) % 16 ∧ e.feed.ns = s.dev.feed.ns.filter (fun x => !lost.contains x.ctrl) ∧
        e.feed.noFlit = s.dev.feed.noFlit.filter (· != link.val) ∧
        e.fget F.FED_STATUS_FLIT = (if e.feed.noFlit.isEmpty ∧ up ≠ 2 ^ link.val then 1 else 0) ∧
        e.fget F.FED_STATUS_CTRLS = ((List.range 4).filter fun c => e.feed.ns.any (·.ctrl == c)).length ∧
        regsBut ([F.FED_STATUS_LINKS_UP.key 0, F.FED_STATUS_FLIT.key 0, F.FED_STATUS_CTRLS.key 0] ++ evKeys E.FED_LINK_DOWN) s.dev e ∧
        e = { s.dev with regs := e.regs, feed := { s.dev.feed with ns := e.feed.ns, noFlit := e.feed.noFlit } }))

/-- R487, R492, R495, R496. -/
def Obligations.NvmeCompletionsDeliverOrFail : Prop :=
  ∀ (s : State), s.dev.live = true →
    (∀ id ok data bad es, fmGet s.dev.feed.cmds id = none → exec (.nvmeCompletion id ok data bad es) s = .next s ∧ exec (.nvmeTimeout id) s = .next s) ∧
    (∀ id c data bad es, fmGet s.dev.feed.cmds id = some c →
      ∀ z ∈ ([(.nvmeCompletion id false data bad es, stPartnerAbsent), (.nvmeTimeout id, stTimeout)] : List (Instr × Nat)),
        (c.retried = false → Does z.1 s fun e => e = { s.dev with feed := { s.dev.feed with cmds := fmSet s.dev.feed.cmds id { c with retried := true } }, out := s.dev.out ++ [.nvme c.entry c.op c.lba c.blocks] }) ∧
        (c.retried = true → Does z.1 s fun e => e.fget F.FED_EVENT_NVME_ERR = 1 ∧ fmGet e.feed.cmds id = none ∧ memSame s.dev e ∧
          (c.use = 0 → e.fget F.FED_FEED_STATUS_STATE = 1 ∧ e.fget F.FED_FEED_STATUS_LAST_STATUS = z.2 ∧ e.feed.ingest = [] ∧
            ∀ r x, (s.dev.stepc s.dev.feedHalf).run = some r → r.sa = some x →
              ∃ y, (e.stepc s.dev.feedHalf).run = some y ∧ y.fail = r.fail.or (some stAbandoned) ∧ y.stopped = true ∧ y.passes = []) ∧
          (c.use ≠ 0 → s.dev.feed.ckptAgain = none → e.fget F.FED_CKPT_STATUS_STATE = 3 ∧ e.fget F.FED_CKPT_STATUS_LAST_STATUS = z.2 ∧ e.fget F.FED_CKPT_CTRL_GO = 0 ∧
            e.fget F.FED_EVENT_CKPT_FAIL = 1 ∧ e.feed.ckpt = none) ∧
          (c.use = 0 ∨ s.dev.feed.ckptAgain = none → e = { s.dev with regs := e.regs, feed := { s.dev.feed with cmds := e.feed.cmds, ingest := e.feed.ingest, ckpt := e.feed.ckpt }, step0 := e.step0, step1 := e.step1, heldW := e.heldW, heldE := e.heldE }))) ∧
    (∀ id c data bad es, fmGet s.dev.feed.cmds id = some c → Does (.nvmeCompletion id true data bad es) s fun e =>
      (id ≠ s.dev.feed.nextCmd → fmGet e.feed.cmds id = none) ∧
      (c.use = 0 → s.dev.feed.armed = none → e = { s.dev with feed := { s.dev.feed with cmds := fmErase s.dev.feed.cmds id } }) ∧
      (∀ j, c.use = 0 → s.dev.feed.armed = some j →
        e.feed.ingest = s.dev.feed.ingest.filter (· != c.item) ∧
        (e.feed.ingest = [] → e.fget F.FED_FEED_STATUS_STATE = 1 ∧ e.fget F.FED_FEED_STATUS_LAST_STATUS = stOk) ∧
        (FeedJob.locate j.shards (s.dev.ingestRecord j c.item) = none → memSame s.dev e) ∧
        (∀ x i len wrong n tb a, FeedJob.locate j.shards (s.dev.ingestRecord j c.item) = some (x, i) → tb = x.2.2.2.2 → len = leAt data 0 4 →
          wrong = (decide (x.2.2.2.1 < len) || leAt data 4 4 != crc32c (bytesAt data 64 (len * tb))) →
          n = (if wrong then 0 else min (fdCount j.desc) (len - fdFirst j.desc)) → a = fdDest j.desc + c.item * fdSlot j.desc →
          64 + x.2.2.2.1 * tb ≤ data.length →
          (wrong = true → e.fget F.FED_EVENT_RECORD_BAD = 1) ∧
          (bad = [] → bytesStored s.dev e a (leBytes 4 n ++ leBytes 4 0 ++ bytesAt data 8 56 ++ bytesAt data (64 + fdFirst j.desc * tb) (n * tb) ++
            List.replicate (fdSlot j.desc - (64 + n * tb)) 0#8)) ∧
          memBut (a / 8 * 8) ((a + max (fdSlot j.desc) (64 + n * tb) + 7) / 8 * 8) s.dev e) ∧
        e = { s.dev with regs := e.regs, mem := e.mem, poison := e.poison, feed := { s.dev.feed with cmds := fmErase s.dev.feed.cmds id, ingest := e.feed.ingest } }) ∧
      (c.use ≠ 0 → s.dev.feed.ckpt = none → e = { s.dev with feed := { s.dev.feed with cmds := fmErase s.dev.feed.cmds id } }) ∧
      (∀ a k lba n dir u, c.use ≠ 0 → s.dev.feed.ckpt = some (a, k, lba, n, dir) → u = 4096 / s.dev.lbaBytes k →
        e.fget F.FED_CKPT_STATUS_DONE = min (s.dev.fget F.FED_CKPT_STATUS_DONE + 1) (2 ^ 32 - 1) ∧
        (dir = true → bad = [] → bytesStored s.dev e (a + 4096 * c.item) (data.take 4096)) ∧
        (dir = false → es = [] → memSame s.dev e) ∧
        (c.item + 1 < n → e.out.getLast? = some (.nvme k (if dir then 2 else 1) (lba + (c.item + 1) * u) u) ∧
          fmGet e.feed.cmds s.dev.feed.nextCmd = some ⟨k, if dir then 2 else 1, lba + (c.item + 1) * u, u, 1, c.item + 1, false⟩ ∧
          e.feed = { s.dev.feed with cmds := e.feed.cmds, nextCmd := s.dev.feed.nextCmd + 1 }) ∧
        (n ≤ c.item + 1 → e.feed = { s.dev.feed with cmds := fmErase s.dev.feed.cmds id }) ∧
        (dir = true ∨ es = [] → e.out = s.dev.out ++ (if c.item + 1 < n then [.nvme k (if dir then 2 else 1) (lba + (c.item + 1) * u) u] else []) ∧
          e = { s.dev with regs := e.regs, mem := e.mem, poison := e.poison, feed := e.feed, out := e.out })))
end

