-- ==== Sys2Proof/Laws/FMap.lean ====
section
/-! SUPPORT. The laws of sparse state: what a look-up gives after a set or a removal, and that the canonical form is kept. -/

namespace Sys2Proof.Machine

variable {α : Type}

@[simp] theorem fmGet_nil (k : Nat) : fmGet ([] : FMap α) k = none := rfl

theorem fmGet_fmSet (m : FMap α) (k j : Nat) (v : α) : fmGet (fmSet m k v) j = if k = j then some v else fmGet m j := by
  induction m with
  | nil => simp [fmSet, fmGet]
  | cons p m ih =>
    obtain ⟨a, b⟩ := p
    simp only [fmSet]
    split
    · simp [fmGet]
    · split
      · next h => subst h; simp only [fmGet]; split <;> simp_all
      · simp only [fmGet, ih]; split <;> simp_all

@[simp] theorem fmGet_fmSet_self (m : FMap α) (k : Nat) (v : α) : fmGet (fmSet m k v) k = some v := by simp [fmGet_fmSet]

theorem fmGet_fmErase (m : FMap α) (k j : Nat) : fmGet (fmErase m k) j = if k = j then none else fmGet m j := by
  induction m with
  | nil => simp [fmErase]
  | cons p m ih =>
    obtain ⟨a, b⟩ := p
    simp only [fmErase, List.filter_cons] at ih ⊢
    by_cases h : a = k
    · subst h; simp only [bne_self_eq_false, Bool.false_eq_true, if_false, ih, fmGet]; split <;> rfl
    · simp only [bne_iff_ne, ne_eq, h, not_false_eq_true, if_true, fmGet, ih]
      split
      · next e => subst e; simp [Ne.symm h]
      · rfl

@[simp] theorem fmGet_fmErase_self (m : FMap α) (k : Nat) : fmGet (fmErase m k) k = none := by simp [fmGet_fmErase]

theorem fmGet_fmEraseRange (m : FMap α) (lo hi j : Nat) :
    fmGet (fmEraseRange m lo hi) j = if lo ≤ j ∧ j < hi then none else fmGet m j := by
  induction m with
  | nil => simp [fmEraseRange]
  | cons p m ih =>
    obtain ⟨a, b⟩ := p
    simp only [fmEraseRange, List.filter_cons] at ih ⊢
    by_cases h : lo ≤ a ∧ a < hi
    · simp only [h, decide_true, Bool.and_self, Bool.not_true, Bool.false_eq_true, if_false, ih, fmGet]
      by_cases e : a = j
      · subst e; simp [h]
      · simp [e]
    · have : (!(decide (lo ≤ a) && decide (a < hi))) = true := by
        simp only [Bool.not_eq_true', Bool.and_eq_false_imp, decide_eq_true_eq, decide_eq_false_iff_not]; omega
      simp only [this, if_true, fmGet, ih]
      by_cases e : a = j
      · subst e; simp [h]
      · simp [e]

theorem fmGet_fmMap {m : FMap α} {f : Nat → α → α} (k : Nat) : fmGet (fmMap m f) k = (fmGet m k).map (f k) := by
  induction m with
  | nil => rfl
  | cons p m ih => simp only [fmMap, List.map_cons, fmGet] at ih ⊢; split <;> simp_all

/-! ## The canonical form -/

theorem fmSorted_of_lt {a b : Nat} {m : FMap α} (h : fmSorted (some b) m = true) (l : a ≤ b) : fmSorted (some a) m = true := by
  cases m with
  | nil => rfl
  | cons p m => simp only [fmSorted, Bool.and_eq_true, decide_eq_true_eq] at h ⊢; exact ⟨by omega, h.2⟩

theorem fmSorted_none {b : Option Nat} {m : FMap α} (h : fmSorted b m = true) : fmSorted none m = true := by
  cases m with
  | nil => rfl
  | cons p m => cases b <;> simp_all [fmSorted]

theorem fmSorted_fmSet (m : FMap α) (k : Nat) (v : α) (b : Option Nat) (h : fmSorted b m = true) (hb : ∀ c, b = some c → c < k) :
    fmSorted b (fmSet m k v) = true := by
  induction m generalizing b with
  | nil => cases b <;> simp_all [fmSet, fmSorted]
  | cons p m ih =>
    obtain ⟨a, w⟩ := p
    have tail : fmSorted (some a) m = true := by cases b <;> simp_all [fmSorted]
    simp only [fmSet]
    split
    · next l => cases b <;> simp_all [fmSorted]
    · split
      · next l e => subst e; cases b <;> simp_all [fmSorted]
      · next l e =>
        have := ih (some a) tail (by intro c hc; cases hc; omega)
        cases b <;> simp_all [fmSorted]

theorem fmSorted_filter (m : FMap α) (p : Nat × α → Bool) (b : Option Nat) (h : fmSorted b m = true) :
    fmSorted b (m.filter p) = true := by
  induction m generalizing b with
  | nil => simpa using h
  | cons q m ih =>
    obtain ⟨a, w⟩ := q
    have tail : fmSorted (some a) m = true := by cases b <;> simp_all [fmSorted]
    rw [List.filter_cons]
    split
    · have := ih (some a) tail
      cases b <;> simp_all [fmSorted]
    · cases b with
      | none => exact fmSorted_none (ih _ tail)
      | some c => exact ih _ (fmSorted_of_lt tail (by simp [fmSorted] at h; omega))

theorem fmWf_fmSet {m : FMap α} (k : Nat) (v : α) (h : fmWf m = true) : fmWf (fmSet m k v) = true :=
  fmSorted_fmSet m k v none h (by simp)
theorem fmWf_fmErase {m : FMap α} (k : Nat) (h : fmWf m = true) : fmWf (fmErase m k) = true := fmSorted_filter m _ none h
theorem fmWf_fmEraseRange {m : FMap α} (lo hi : Nat) (h : fmWf m = true) : fmWf (fmEraseRange m lo hi) = true :=
  fmSorted_filter m _ none h
theorem fmWf_filter {m : FMap α} (p : Nat × α → Bool) (h : fmWf m = true) : fmWf (m.filter p : FMap α) = true :=
  fmSorted_filter m _ none h
theorem fmWf_fmMod {m : FMap α} (k : Nat) (x : α) (f : α → α) (h : fmWf m = true) : fmWf (fmMod m k x f) = true :=
  fmWf_fmSet k _ h

theorem fmSorted_fmMap (m : FMap α) (f : Nat → α → α) (b : Option Nat) : fmSorted b (fmMap m f) = fmSorted b m := by
  induction m generalizing b with
  | nil => rfl
  | cons p m ih => obtain ⟨a, w⟩ := p; simp only [fmMap, List.map_cons] at ih ⊢; cases b <;> simp [fmSorted, ih]

theorem fmSet_mem {m : FMap α} {k : Nat} {v : α} {p : Nat × α} (h : p ∈ fmSet m k v) : p = (k, v) ∨ p ∈ m := by
  induction m with
  | nil => simp_all [fmSet]
  | cons q m ih =>
    simp only [fmSet] at h
    split at h
    · simp_all
    · split at h
      · next e => simp only [List.mem_cons] at h ⊢; rcases h with h | h <;> simp_all
      · simp only [List.mem_cons] at h ⊢; rcases h with h | h
        · simp_all
        · rcases ih h with h | h <;> simp_all

end Sys2Proof.Machine
end

