-- ==== Sys2Proof/Laws/State.lean ====
section
/-! SUPPORT. What each named update of the device leaves alone: one lemma per field per update; for an update of several parts
one lemma (its name ends in keep) that says which parts it can change, and the fold law they rest on. -/

namespace Sys2Proof.Machine

/-- A fold whose every step keeps `g` keeps `g`. -/
theorem foldl_keep {β γ : Type} (g : Dev → β) (f : Dev → γ → Dev) (h : ∀ d x, g (f d x) = g d) (l : List γ) (d : Dev) :
    g (l.foldl f d) = g d := by
  induction l generalizing d with
  | nil => rfl
  | cons x l ih => simp [ih, h]

/-! ## Registers, what leaves the device, free values -/

@[simp] theorem Dev.fset_mem (d : Dev) (f : Fld) (v a : Nat) : (d.fset f v a).mem = d.mem := rfl
@[simp] theorem Dev.fset_poison (d : Dev) (f : Fld) (v a : Nat) : (d.fset f v a).poison = d.poison := rfl
@[simp] theorem Dev.fset_pw (d : Dev) (f : Fld) (v a : Nat) : (d.fset f v a).pw = d.pw := rfl
@[simp] theorem Dev.fset_tally (d : Dev) (f : Fld) (v a : Nat) : (d.fset f v a).tally = d.tally := rfl
@[simp] theorem Dev.fset_led0 (d : Dev) (f : Fld) (v a : Nat) : (d.fset f v a).led0 = d.led0 := rfl
@[simp] theorem Dev.fset_led1 (d : Dev) (f : Fld) (v a : Nat) : (d.fset f v a).led1 = d.led1 := rfl
@[simp] theorem Dev.fset_mg (d : Dev) (f : Fld) (v a : Nat) : (d.fset f v a).mg = d.mg := rfl
@[simp] theorem Dev.fset_sec (d : Dev) (f : Fld) (v a : Nat) : (d.fset f v a).sec = d.sec := rfl
@[simp] theorem Dev.fset_boot (d : Dev) (f : Fld) (v a : Nat) : (d.fset f v a).boot = d.boot := rfl
@[simp] theorem Dev.fset_feed (d : Dev) (f : Fld) (v a : Nat) : (d.fset f v a).feed = d.feed := rfl
@[simp] theorem Dev.fset_queues (d : Dev) (f : Fld) (v a : Nat) : (d.fset f v a).queues = d.queues := rfl
@[simp] theorem Dev.fset_slots (d : Dev) (f : Fld) (v a : Nat) : (d.fset f v a).slots = d.slots := rfl
@[simp] theorem Dev.fset_tiles (d : Dev) (f : Fld) (v a : Nat) : (d.fset f v a).tiles = d.tiles := rfl
@[simp] theorem Dev.fset_insts (d : Dev) (f : Fld) (v a : Nat) : (d.fset f v a).insts = d.insts := rfl
@[simp] theorem Dev.fset_products (d : Dev) (f : Fld) (v a : Nat) : (d.fset f v a).products = d.products := rfl
@[simp] theorem Dev.fset_img0 (d : Dev) (f : Fld) (v a : Nat) : (d.fset f v a).img0 = d.img0 := rfl
@[simp] theorem Dev.fset_img1 (d : Dev) (f : Fld) (v a : Nat) : (d.fset f v a).img1 = d.img1 := rfl
@[simp] theorem Dev.fset_stage0 (d : Dev) (f : Fld) (v a : Nat) : (d.fset f v a).stage0 = d.stage0 := rfl
@[simp] theorem Dev.fset_stage1 (d : Dev) (f : Fld) (v a : Nat) : (d.fset f v a).stage1 = d.stage1 := rfl
@[simp] theorem Dev.fset_net (d : Dev) (f : Fld) (v a : Nat) : (d.fset f v a).net = d.net := rfl
@[simp] theorem Dev.fset_faults (d : Dev) (f : Fld) (v a : Nat) : (d.fset f v a).faults = d.faults := rfl
@[simp] theorem Dev.fset_heldW (d : Dev) (f : Fld) (v a : Nat) : (d.fset f v a).heldW = d.heldW := rfl
@[simp] theorem Dev.fset_heldE (d : Dev) (f : Fld) (v a : Nat) : (d.fset f v a).heldE = d.heldE := rfl
@[simp] theorem Dev.fset_refetch (d : Dev) (f : Fld) (v a : Nat) : (d.fset f v a).refetch = d.refetch := rfl
@[simp] theorem Dev.fset_refetched (d : Dev) (f : Fld) (v a : Nat) : (d.fset f v a).refetched = d.refetched := rfl
@[simp] theorem Dev.fset_ports (d : Dev) (f : Fld) (v a : Nat) : (d.fset f v a).ports = d.ports := rfl
@[simp] theorem Dev.fset_fab (d : Dev) (f : Fld) (v a : Nat) : (d.fset f v a).fab = d.fab := rfl
@[simp] theorem Dev.fset_step0 (d : Dev) (f : Fld) (v a : Nat) : (d.fset f v a).step0 = d.step0 := rfl
@[simp] theorem Dev.fset_step1 (d : Dev) (f : Fld) (v a : Nat) : (d.fset f v a).step1 = d.step1 := rfl
@[simp] theorem Dev.fset_upd (d : Dev) (f : Fld) (v a : Nat) : (d.fset f v a).upd = d.upd := rfl
@[simp] theorem Dev.fset_srv (d : Dev) (f : Fld) (v a : Nat) : (d.fset f v a).srv = d.srv := rfl
@[simp] theorem Dev.fset_out (d : Dev) (f : Fld) (v a : Nat) : (d.fset f v a).out = d.out := rfl
@[simp] theorem Dev.fset_free (d : Dev) (f : Fld) (v a : Nat) : (d.fset f v a).free = d.free := rfl
@[simp] theorem Dev.fsetB_mem (d : Dev) (f : Fld) (b : Bool) (a : Nat) : (d.fsetB f b a).mem = d.mem := rfl
@[simp] theorem Dev.fsetB_poison (d : Dev) (f : Fld) (b : Bool) (a : Nat) : (d.fsetB f b a).poison = d.poison := rfl
@[simp] theorem Dev.fsetB_pw (d : Dev) (f : Fld) (b : Bool) (a : Nat) : (d.fsetB f b a).pw = d.pw := rfl
@[simp] theorem Dev.fsetB_tally (d : Dev) (f : Fld) (b : Bool) (a : Nat) : (d.fsetB f b a).tally = d.tally := rfl
@[simp] theorem Dev.fsetB_led0 (d : Dev) (f : Fld) (b : Bool) (a : Nat) : (d.fsetB f b a).led0 = d.led0 := rfl
@[simp] theorem Dev.fsetB_led1 (d : Dev) (f : Fld) (b : Bool) (a : Nat) : (d.fsetB f b a).led1 = d.led1 := rfl
@[simp] theorem Dev.fsetB_mg (d : Dev) (f : Fld) (b : Bool) (a : Nat) : (d.fsetB f b a).mg = d.mg := rfl
@[simp] theorem Dev.fsetB_sec (d : Dev) (f : Fld) (b : Bool) (a : Nat) : (d.fsetB f b a).sec = d.sec := rfl
@[simp] theorem Dev.fsetB_boot (d : Dev) (f : Fld) (b : Bool) (a : Nat) : (d.fsetB f b a).boot = d.boot := rfl
@[simp] theorem Dev.fsetB_feed (d : Dev) (f : Fld) (b : Bool) (a : Nat) : (d.fsetB f b a).feed = d.feed := rfl
@[simp] theorem Dev.fsetB_queues (d : Dev) (f : Fld) (b : Bool) (a : Nat) : (d.fsetB f b a).queues = d.queues := rfl
@[simp] theorem Dev.fsetB_slots (d : Dev) (f : Fld) (b : Bool) (a : Nat) : (d.fsetB f b a).slots = d.slots := rfl
@[simp] theorem Dev.fsetB_tiles (d : Dev) (f : Fld) (b : Bool) (a : Nat) : (d.fsetB f b a).tiles = d.tiles := rfl
@[simp] theorem Dev.fsetB_insts (d : Dev) (f : Fld) (b : Bool) (a : Nat) : (d.fsetB f b a).insts = d.insts := rfl
@[simp] theorem Dev.fsetB_products (d : Dev) (f : Fld) (b : Bool) (a : Nat) : (d.fsetB f b a).products = d.products := rfl
@[simp] theorem Dev.fsetB_img0 (d : Dev) (f : Fld) (b : Bool) (a : Nat) : (d.fsetB f b a).img0 = d.img0 := rfl
@[simp] theorem Dev.fsetB_img1 (d : Dev) (f : Fld) (b : Bool) (a : Nat) : (d.fsetB f b a).img1 = d.img1 := rfl
@[simp] theorem Dev.fsetB_stage0 (d : Dev) (f : Fld) (b : Bool) (a : Nat) : (d.fsetB f b a).stage0 = d.stage0 := rfl
@[simp] theorem Dev.fsetB_stage1 (d : Dev) (f : Fld) (b : Bool) (a : Nat) : (d.fsetB f b a).stage1 = d.stage1 := rfl
@[simp] theorem Dev.fsetB_net (d : Dev) (f : Fld) (b : Bool) (a : Nat) : (d.fsetB f b a).net = d.net := rfl
@[simp] theorem Dev.fsetB_faults (d : Dev) (f : Fld) (b : Bool) (a : Nat) : (d.fsetB f b a).faults = d.faults := rfl
@[simp] theorem Dev.fsetB_heldW (d : Dev) (f : Fld) (b : Bool) (a : Nat) : (d.fsetB f b a).heldW = d.heldW := rfl
@[simp] theorem Dev.fsetB_heldE (d : Dev) (f : Fld) (b : Bool) (a : Nat) : (d.fsetB f b a).heldE = d.heldE := rfl
@[simp] theorem Dev.fsetB_refetch (d : Dev) (f : Fld) (b : Bool) (a : Nat) : (d.fsetB f b a).refetch = d.refetch := rfl
@[simp] theorem Dev.fsetB_refetched (d : Dev) (f : Fld) (b : Bool) (a : Nat) : (d.fsetB f b a).refetched = d.refetched := rfl
@[simp] theorem Dev.fsetB_ports (d : Dev) (f : Fld) (b : Bool) (a : Nat) : (d.fsetB f b a).ports = d.ports := rfl
@[simp] theorem Dev.fsetB_fab (d : Dev) (f : Fld) (b : Bool) (a : Nat) : (d.fsetB f b a).fab = d.fab := rfl
@[simp] theorem Dev.fsetB_step0 (d : Dev) (f : Fld) (b : Bool) (a : Nat) : (d.fsetB f b a).step0 = d.step0 := rfl
@[simp] theorem Dev.fsetB_step1 (d : Dev) (f : Fld) (b : Bool) (a : Nat) : (d.fsetB f b a).step1 = d.step1 := rfl
@[simp] theorem Dev.fsetB_upd (d : Dev) (f : Fld) (b : Bool) (a : Nat) : (d.fsetB f b a).upd = d.upd := rfl
@[simp] theorem Dev.fsetB_srv (d : Dev) (f : Fld) (b : Bool) (a : Nat) : (d.fsetB f b a).srv = d.srv := rfl
@[simp] theorem Dev.fsetB_out (d : Dev) (f : Fld) (b : Bool) (a : Nat) : (d.fsetB f b a).out = d.out := rfl
@[simp] theorem Dev.fsetB_free (d : Dev) (f : Fld) (b : Bool) (a : Nat) : (d.fsetB f b a).free = d.free := rfl
@[simp] theorem Dev.count_mem (d : Dev) (f : Fld) (n a : Nat) : (d.count f n a).mem = d.mem := rfl
@[simp] theorem Dev.count_poison (d : Dev) (f : Fld) (n a : Nat) : (d.count f n a).poison = d.poison := rfl
@[simp] theorem Dev.count_pw (d : Dev) (f : Fld) (n a : Nat) : (d.count f n a).pw = d.pw := rfl
@[simp] theorem Dev.count_tally (d : Dev) (f : Fld) (n a : Nat) : (d.count f n a).tally = d.tally := rfl
@[simp] theorem Dev.count_led0 (d : Dev) (f : Fld) (n a : Nat) : (d.count f n a).led0 = d.led0 := rfl
@[simp] theorem Dev.count_led1 (d : Dev) (f : Fld) (n a : Nat) : (d.count f n a).led1 = d.led1 := rfl
@[simp] theorem Dev.count_mg (d : Dev) (f : Fld) (n a : Nat) : (d.count f n a).mg = d.mg := rfl
@[simp] theorem Dev.count_sec (d : Dev) (f : Fld) (n a : Nat) : (d.count f n a).sec = d.sec := rfl
@[simp] theorem Dev.count_boot (d : Dev) (f : Fld) (n a : Nat) : (d.count f n a).boot = d.boot := rfl
@[simp] theorem Dev.count_feed (d : Dev) (f : Fld) (n a : Nat) : (d.count f n a).feed = d.feed := rfl
@[simp] theorem Dev.count_queues (d : Dev) (f : Fld) (n a : Nat) : (d.count f n a).queues = d.queues := rfl
@[simp] theorem Dev.count_slots (d : Dev) (f : Fld) (n a : Nat) : (d.count f n a).slots = d.slots := rfl
@[simp] theorem Dev.count_tiles (d : Dev) (f : Fld) (n a : Nat) : (d.count f n a).tiles = d.tiles := rfl
@[simp] theorem Dev.count_insts (d : Dev) (f : Fld) (n a : Nat) : (d.count f n a).insts = d.insts := rfl
@[simp] theorem Dev.count_products (d : Dev) (f : Fld) (n a : Nat) : (d.count f n a).products = d.products := rfl
@[simp] theorem Dev.count_img0 (d : Dev) (f : Fld) (n a : Nat) : (d.count f n a).img0 = d.img0 := rfl
@[simp] theorem Dev.count_img1 (d : Dev) (f : Fld) (n a : Nat) : (d.count f n a).img1 = d.img1 := rfl
@[simp] theorem Dev.count_stage0 (d : Dev) (f : Fld) (n a : Nat) : (d.count f n a).stage0 = d.stage0 := rfl
@[simp] theorem Dev.count_stage1 (d : Dev) (f : Fld) (n a : Nat) : (d.count f n a).stage1 = d.stage1 := rfl
@[simp] theorem Dev.count_net (d : Dev) (f : Fld) (n a : Nat) : (d.count f n a).net = d.net := rfl
@[simp] theorem Dev.count_faults (d : Dev) (f : Fld) (n a : Nat) : (d.count f n a).faults = d.faults := rfl
@[simp] theorem Dev.count_heldW (d : Dev) (f : Fld) (n a : Nat) : (d.count f n a).heldW = d.heldW := rfl
@[simp] theorem Dev.count_heldE (d : Dev) (f : Fld) (n a : Nat) : (d.count f n a).heldE = d.heldE := rfl
@[simp] theorem Dev.count_refetch (d : Dev) (f : Fld) (n a : Nat) : (d.count f n a).refetch = d.refetch := rfl
@[simp] theorem Dev.count_refetched (d : Dev) (f : Fld) (n a : Nat) : (d.count f n a).refetched = d.refetched := rfl
@[simp] theorem Dev.count_ports (d : Dev) (f : Fld) (n a : Nat) : (d.count f n a).ports = d.ports := rfl
@[simp] theorem Dev.count_fab (d : Dev) (f : Fld) (n a : Nat) : (d.count f n a).fab = d.fab := rfl
@[simp] theorem Dev.count_step0 (d : Dev) (f : Fld) (n a : Nat) : (d.count f n a).step0 = d.step0 := rfl
@[simp] theorem Dev.count_step1 (d : Dev) (f : Fld) (n a : Nat) : (d.count f n a).step1 = d.step1 := rfl
@[simp] theorem Dev.count_upd (d : Dev) (f : Fld) (n a : Nat) : (d.count f n a).upd = d.upd := rfl
@[simp] theorem Dev.count_srv (d : Dev) (f : Fld) (n a : Nat) : (d.count f n a).srv = d.srv := rfl
@[simp] theorem Dev.count_out (d : Dev) (f : Fld) (n a : Nat) : (d.count f n a).out = d.out := rfl
@[simp] theorem Dev.count_free (d : Dev) (f : Fld) (n a : Nat) : (d.count f n a).free = d.free := rfl
@[simp] theorem Dev.event_mem (d : Dev) (e : Ev) (a : Nat) : (d.event e a).mem = d.mem := rfl
@[simp] theorem Dev.event_poison (d : Dev) (e : Ev) (a : Nat) : (d.event e a).poison = d.poison := rfl
@[simp] theorem Dev.event_pw (d : Dev) (e : Ev) (a : Nat) : (d.event e a).pw = d.pw := rfl
@[simp] theorem Dev.event_tally (d : Dev) (e : Ev) (a : Nat) : (d.event e a).tally = d.tally := rfl
@[simp] theorem Dev.event_led0 (d : Dev) (e : Ev) (a : Nat) : (d.event e a).led0 = d.led0 := rfl
@[simp] theorem Dev.event_led1 (d : Dev) (e : Ev) (a : Nat) : (d.event e a).led1 = d.led1 := rfl
@[simp] theorem Dev.event_mg (d : Dev) (e : Ev) (a : Nat) : (d.event e a).mg = d.mg := rfl
@[simp] theorem Dev.event_sec (d : Dev) (e : Ev) (a : Nat) : (d.event e a).sec = d.sec := rfl
@[simp] theorem Dev.event_boot (d : Dev) (e : Ev) (a : Nat) : (d.event e a).boot = d.boot := rfl
@[simp] theorem Dev.event_feed (d : Dev) (e : Ev) (a : Nat) : (d.event e a).feed = d.feed := rfl
@[simp] theorem Dev.event_queues (d : Dev) (e : Ev) (a : Nat) : (d.event e a).queues = d.queues := rfl
@[simp] theorem Dev.event_slots (d : Dev) (e : Ev) (a : Nat) : (d.event e a).slots = d.slots := rfl
@[simp] theorem Dev.event_tiles (d : Dev) (e : Ev) (a : Nat) : (d.event e a).tiles = d.tiles := rfl
@[simp] theorem Dev.event_insts (d : Dev) (e : Ev) (a : Nat) : (d.event e a).insts = d.insts := rfl
@[simp] theorem Dev.event_products (d : Dev) (e : Ev) (a : Nat) : (d.event e a).products = d.products := rfl
@[simp] theorem Dev.event_img0 (d : Dev) (e : Ev) (a : Nat) : (d.event e a).img0 = d.img0 := rfl
@[simp] theorem Dev.event_img1 (d : Dev) (e : Ev) (a : Nat) : (d.event e a).img1 = d.img1 := rfl
@[simp] theorem Dev.event_stage0 (d : Dev) (e : Ev) (a : Nat) : (d.event e a).stage0 = d.stage0 := rfl
@[simp] theorem Dev.event_stage1 (d : Dev) (e : Ev) (a : Nat) : (d.event e a).stage1 = d.stage1 := rfl
@[simp] theorem Dev.event_net (d : Dev) (e : Ev) (a : Nat) : (d.event e a).net = d.net := rfl
@[simp] theorem Dev.event_faults (d : Dev) (e : Ev) (a : Nat) : (d.event e a).faults = d.faults := rfl
@[simp] theorem Dev.event_heldW (d : Dev) (e : Ev) (a : Nat) : (d.event e a).heldW = d.heldW := rfl
@[simp] theorem Dev.event_heldE (d : Dev) (e : Ev) (a : Nat) : (d.event e a).heldE = d.heldE := rfl
@[simp] theorem Dev.event_refetch (d : Dev) (e : Ev) (a : Nat) : (d.event e a).refetch = d.refetch := rfl
@[simp] theorem Dev.event_refetched (d : Dev) (e : Ev) (a : Nat) : (d.event e a).refetched = d.refetched := rfl
@[simp] theorem Dev.event_ports (d : Dev) (e : Ev) (a : Nat) : (d.event e a).ports = d.ports := rfl
@[simp] theorem Dev.event_fab (d : Dev) (e : Ev) (a : Nat) : (d.event e a).fab = d.fab := rfl
@[simp] theorem Dev.event_step0 (d : Dev) (e : Ev) (a : Nat) : (d.event e a).step0 = d.step0 := rfl
@[simp] theorem Dev.event_step1 (d : Dev) (e : Ev) (a : Nat) : (d.event e a).step1 = d.step1 := rfl
@[simp] theorem Dev.event_upd (d : Dev) (e : Ev) (a : Nat) : (d.event e a).upd = d.upd := rfl
@[simp] theorem Dev.event_srv (d : Dev) (e : Ev) (a : Nat) : (d.event e a).srv = d.srv := rfl
@[simp] theorem Dev.event_out (d : Dev) (e : Ev) (a : Nat) : (d.event e a).out = d.out := rfl
@[simp] theorem Dev.event_free (d : Dev) (e : Ev) (a : Nat) : (d.event e a).free = d.free := rfl
@[simp] theorem Dev.regReset_mem (d : Dev) (lo hi : Nat) : (d.regReset lo hi).mem = d.mem := rfl
@[simp] theorem Dev.regReset_poison (d : Dev) (lo hi : Nat) : (d.regReset lo hi).poison = d.poison := rfl
@[simp] theorem Dev.regReset_pw (d : Dev) (lo hi : Nat) : (d.regReset lo hi).pw = d.pw := rfl
@[simp] theorem Dev.regReset_tally (d : Dev) (lo hi : Nat) : (d.regReset lo hi).tally = d.tally := rfl
@[simp] theorem Dev.regReset_led0 (d : Dev) (lo hi : Nat) : (d.regReset lo hi).led0 = d.led0 := rfl
@[simp] theorem Dev.regReset_led1 (d : Dev) (lo hi : Nat) : (d.regReset lo hi).led1 = d.led1 := rfl
@[simp] theorem Dev.regReset_mg (d : Dev) (lo hi : Nat) : (d.regReset lo hi).mg = d.mg := rfl
@[simp] theorem Dev.regReset_sec (d : Dev) (lo hi : Nat) : (d.regReset lo hi).sec = d.sec := rfl
@[simp] theorem Dev.regReset_boot (d : Dev) (lo hi : Nat) : (d.regReset lo hi).boot = d.boot := rfl
@[simp] theorem Dev.regReset_feed (d : Dev) (lo hi : Nat) : (d.regReset lo hi).feed = d.feed := rfl
@[simp] theorem Dev.regReset_queues (d : Dev) (lo hi : Nat) : (d.regReset lo hi).queues = d.queues := rfl
@[simp] theorem Dev.regReset_slots (d : Dev) (lo hi : Nat) : (d.regReset lo hi).slots = d.slots := rfl
@[simp] theorem Dev.regReset_tiles (d : Dev) (lo hi : Nat) : (d.regReset lo hi).tiles = d.tiles := rfl
@[simp] theorem Dev.regReset_insts (d : Dev) (lo hi : Nat) : (d.regReset lo hi).insts = d.insts := rfl
@[simp] theorem Dev.regReset_products (d : Dev) (lo hi : Nat) : (d.regReset lo hi).products = d.products := rfl
@[simp] theorem Dev.regReset_img0 (d : Dev) (lo hi : Nat) : (d.regReset lo hi).img0 = d.img0 := rfl
@[simp] theorem Dev.regReset_img1 (d : Dev) (lo hi : Nat) : (d.regReset lo hi).img1 = d.img1 := rfl
@[simp] theorem Dev.regReset_stage0 (d : Dev) (lo hi : Nat) : (d.regReset lo hi).stage0 = d.stage0 := rfl
@[simp] theorem Dev.regReset_stage1 (d : Dev) (lo hi : Nat) : (d.regReset lo hi).stage1 = d.stage1 := rfl
@[simp] theorem Dev.regReset_net (d : Dev) (lo hi : Nat) : (d.regReset lo hi).net = d.net := rfl
@[simp] theorem Dev.regReset_faults (d : Dev) (lo hi : Nat) : (d.regReset lo hi).faults = d.faults := rfl
@[simp] theorem Dev.regReset_heldW (d : Dev) (lo hi : Nat) : (d.regReset lo hi).heldW = d.heldW := rfl
@[simp] theorem Dev.regReset_heldE (d : Dev) (lo hi : Nat) : (d.regReset lo hi).heldE = d.heldE := rfl
@[simp] theorem Dev.regReset_refetch (d : Dev) (lo hi : Nat) : (d.regReset lo hi).refetch = d.refetch := rfl
@[simp] theorem Dev.regReset_refetched (d : Dev) (lo hi : Nat) : (d.regReset lo hi).refetched = d.refetched := rfl
@[simp] theorem Dev.regReset_ports (d : Dev) (lo hi : Nat) : (d.regReset lo hi).ports = d.ports := rfl
@[simp] theorem Dev.regReset_fab (d : Dev) (lo hi : Nat) : (d.regReset lo hi).fab = d.fab := rfl
@[simp] theorem Dev.regReset_step0 (d : Dev) (lo hi : Nat) : (d.regReset lo hi).step0 = d.step0 := rfl
@[simp] theorem Dev.regReset_step1 (d : Dev) (lo hi : Nat) : (d.regReset lo hi).step1 = d.step1 := rfl
@[simp] theorem Dev.regReset_upd (d : Dev) (lo hi : Nat) : (d.regReset lo hi).upd = d.upd := rfl
@[simp] theorem Dev.regReset_srv (d : Dev) (lo hi : Nat) : (d.regReset lo hi).srv = d.srv := rfl
@[simp] theorem Dev.regReset_out (d : Dev) (lo hi : Nat) : (d.regReset lo hi).out = d.out := rfl
@[simp] theorem Dev.regReset_free (d : Dev) (lo hi : Nat) : (d.regReset lo hi).free = d.free := rfl
@[simp] theorem Dev.emit_regs (d : Dev) (o : Out) : (d.emit o).regs = d.regs := rfl
@[simp] theorem Dev.emit_mem (d : Dev) (o : Out) : (d.emit o).mem = d.mem := rfl
@[simp] theorem Dev.emit_poison (d : Dev) (o : Out) : (d.emit o).poison = d.poison := rfl
@[simp] theorem Dev.emit_pw (d : Dev) (o : Out) : (d.emit o).pw = d.pw := rfl
@[simp] theorem Dev.emit_tally (d : Dev) (o : Out) : (d.emit o).tally = d.tally := rfl
@[simp] theorem Dev.emit_led0 (d : Dev) (o : Out) : (d.emit o).led0 = d.led0 := rfl
@[simp] theorem Dev.emit_led1 (d : Dev) (o : Out) : (d.emit o).led1 = d.led1 := rfl
@[simp] theorem Dev.emit_mg (d : Dev) (o : Out) : (d.emit o).mg = d.mg := rfl
@[simp] theorem Dev.emit_sec (d : Dev) (o : Out) : (d.emit o).sec = d.sec := rfl
@[simp] theorem Dev.emit_boot (d : Dev) (o : Out) : (d.emit o).boot = d.boot := rfl
@[simp] theorem Dev.emit_feed (d : Dev) (o : Out) : (d.emit o).feed = d.feed := rfl
@[simp] theorem Dev.emit_queues (d : Dev) (o : Out) : (d.emit o).queues = d.queues := rfl
@[simp] theorem Dev.emit_slots (d : Dev) (o : Out) : (d.emit o).slots = d.slots := rfl
@[simp] theorem Dev.emit_tiles (d : Dev) (o : Out) : (d.emit o).tiles = d.tiles := rfl
@[simp] theorem Dev.emit_insts (d : Dev) (o : Out) : (d.emit o).insts = d.insts := rfl
@[simp] theorem Dev.emit_products (d : Dev) (o : Out) : (d.emit o).products = d.products := rfl
@[simp] theorem Dev.emit_img0 (d : Dev) (o : Out) : (d.emit o).img0 = d.img0 := rfl
@[simp] theorem Dev.emit_img1 (d : Dev) (o : Out) : (d.emit o).img1 = d.img1 := rfl
@[simp] theorem Dev.emit_stage0 (d : Dev) (o : Out) : (d.emit o).stage0 = d.stage0 := rfl
@[simp] theorem Dev.emit_stage1 (d : Dev) (o : Out) : (d.emit o).stage1 = d.stage1 := rfl
@[simp] theorem Dev.emit_net (d : Dev) (o : Out) : (d.emit o).net = d.net := rfl
@[simp] theorem Dev.emit_faults (d : Dev) (o : Out) : (d.emit o).faults = d.faults := rfl
@[simp] theorem Dev.emit_heldW (d : Dev) (o : Out) : (d.emit o).heldW = d.heldW := rfl
@[simp] theorem Dev.emit_heldE (d : Dev) (o : Out) : (d.emit o).heldE = d.heldE := rfl
@[simp] theorem Dev.emit_refetch (d : Dev) (o : Out) : (d.emit o).refetch = d.refetch := rfl
@[simp] theorem Dev.emit_refetched (d : Dev) (o : Out) : (d.emit o).refetched = d.refetched := rfl
@[simp] theorem Dev.emit_ports (d : Dev) (o : Out) : (d.emit o).ports = d.ports := rfl
@[simp] theorem Dev.emit_fab (d : Dev) (o : Out) : (d.emit o).fab = d.fab := rfl
@[simp] theorem Dev.emit_step0 (d : Dev) (o : Out) : (d.emit o).step0 = d.step0 := rfl
@[simp] theorem Dev.emit_step1 (d : Dev) (o : Out) : (d.emit o).step1 = d.step1 := rfl
@[simp] theorem Dev.emit_upd (d : Dev) (o : Out) : (d.emit o).upd = d.upd := rfl
@[simp] theorem Dev.emit_srv (d : Dev) (o : Out) : (d.emit o).srv = d.srv := rfl
@[simp] theorem Dev.emit_free (d : Dev) (o : Out) : (d.emit o).free = d.free := rfl
@[simp] theorem Dev.fresh_regs (d : Dev) (w : Nat) : ((d.fresh w).2).regs = d.regs := rfl
@[simp] theorem Dev.fresh_mem (d : Dev) (w : Nat) : ((d.fresh w).2).mem = d.mem := rfl
@[simp] theorem Dev.fresh_poison (d : Dev) (w : Nat) : ((d.fresh w).2).poison = d.poison := rfl
@[simp] theorem Dev.fresh_pw (d : Dev) (w : Nat) : ((d.fresh w).2).pw = d.pw := rfl
@[simp] theorem Dev.fresh_tally (d : Dev) (w : Nat) : ((d.fresh w).2).tally = d.tally := rfl
@[simp] theorem Dev.fresh_led0 (d : Dev) (w : Nat) : ((d.fresh w).2).led0 = d.led0 := rfl
@[simp] theorem Dev.fresh_led1 (d : Dev) (w : Nat) : ((d.fresh w).2).led1 = d.led1 := rfl
@[simp] theorem Dev.fresh_mg (d : Dev) (w : Nat) : ((d.fresh w).2).mg = d.mg := rfl
@[simp] theorem Dev.fresh_sec (d : Dev) (w : Nat) : ((d.fresh w).2).sec = d.sec := rfl
@[simp] theorem Dev.fresh_boot (d : Dev) (w : Nat) : ((d.fresh w).2).boot = d.boot := rfl
@[simp] theorem Dev.fresh_feed (d : Dev) (w : Nat) : ((d.fresh w).2).feed = d.feed := rfl
@[simp] theorem Dev.fresh_queues (d : Dev) (w : Nat) : ((d.fresh w).2).queues = d.queues := rfl
@[simp] theorem Dev.fresh_slots (d : Dev) (w : Nat) : ((d.fresh w).2).slots = d.slots := rfl
@[simp] theorem Dev.fresh_tiles (d : Dev) (w : Nat) : ((d.fresh w).2).tiles = d.tiles := rfl
@[simp] theorem Dev.fresh_insts (d : Dev) (w : Nat) : ((d.fresh w).2).insts = d.insts := rfl
@[simp] theorem Dev.fresh_products (d : Dev) (w : Nat) : ((d.fresh w).2).products = d.products := rfl
@[simp] theorem Dev.fresh_img0 (d : Dev) (w : Nat) : ((d.fresh w).2).img0 = d.img0 := rfl
@[simp] theorem Dev.fresh_img1 (d : Dev) (w : Nat) : ((d.fresh w).2).img1 = d.img1 := rfl
@[simp] theorem Dev.fresh_stage0 (d : Dev) (w : Nat) : ((d.fresh w).2).stage0 = d.stage0 := rfl
@[simp] theorem Dev.fresh_stage1 (d : Dev) (w : Nat) : ((d.fresh w).2).stage1 = d.stage1 := rfl
@[simp] theorem Dev.fresh_net (d : Dev) (w : Nat) : ((d.fresh w).2).net = d.net := rfl
@[simp] theorem Dev.fresh_faults (d : Dev) (w : Nat) : ((d.fresh w).2).faults = d.faults := rfl
@[simp] theorem Dev.fresh_heldW (d : Dev) (w : Nat) : ((d.fresh w).2).heldW = d.heldW := rfl
@[simp] theorem Dev.fresh_heldE (d : Dev) (w : Nat) : ((d.fresh w).2).heldE = d.heldE := rfl
@[simp] theorem Dev.fresh_refetch (d : Dev) (w : Nat) : ((d.fresh w).2).refetch = d.refetch := rfl
@[simp] theorem Dev.fresh_refetched (d : Dev) (w : Nat) : ((d.fresh w).2).refetched = d.refetched := rfl
@[simp] theorem Dev.fresh_ports (d : Dev) (w : Nat) : ((d.fresh w).2).ports = d.ports := rfl
@[simp] theorem Dev.fresh_fab (d : Dev) (w : Nat) : ((d.fresh w).2).fab = d.fab := rfl
@[simp] theorem Dev.fresh_step0 (d : Dev) (w : Nat) : ((d.fresh w).2).step0 = d.step0 := rfl
@[simp] theorem Dev.fresh_step1 (d : Dev) (w : Nat) : ((d.fresh w).2).step1 = d.step1 := rfl
@[simp] theorem Dev.fresh_upd (d : Dev) (w : Nat) : ((d.fresh w).2).upd = d.upd := rfl
@[simp] theorem Dev.fresh_srv (d : Dev) (w : Nat) : ((d.fresh w).2).srv = d.srv := rfl
@[simp] theorem Dev.fresh_out (d : Dev) (w : Nat) : ((d.fresh w).2).out = d.out := rfl

theorem Dev.fset_keep {β : Type} (g : Dev → β) (hregs : ∀ d x, g { d with regs := x } = g d) (d : Dev) (f : Fld) (v a : Nat) :
    g (d.fset f v a) = g d := hregs d _
theorem Dev.fsetB_keep {β : Type} (g : Dev → β) (hregs : ∀ d x, g { d with regs := x } = g d) (d : Dev) (f : Fld) (v : Bool) (a : Nat) :
    g (d.fsetB f v a) = g d := hregs d _
theorem Dev.count_keep {β : Type} (g : Dev → β) (hregs : ∀ d x, g { d with regs := x } = g d) (d : Dev) (f : Fld) (n a : Nat) :
    g (d.count f n a) = g d := hregs d _
theorem Dev.event_keep {β : Type} (g : Dev → β) (hregs : ∀ d x, g { d with regs := x } = g d) (d : Dev) (e : Ev) (a : Nat) :
    g (d.event e a) = g d := (hregs (d.fset e.bit 1 a) _).trans (hregs d _)
theorem Dev.emit_keep {β : Type} (g : Dev → β) (hout : ∀ d x, g { d with out := x } = g d) (d : Dev) (o : Out) :
    g (d.emit o) = g d := hout d _

/-- Every part of the device that does not see regs is kept. -/
theorem Dev.fclear_keep {β : Type} (g : Dev → β) (hregs : ∀ d x, g { d with regs := x } = g d) (d : Dev) (fs : List Fld) (a : Nat) :
    g (d.fclear fs a) = g d := by
  unfold Dev.fclear; exact foldl_keep g _ (fun d f => hregs d _) fs d
@[simp] theorem Dev.fclear_mem (d : Dev) (fs : List Fld) (a : Nat) : (d.fclear fs a).mem = d.mem := Dev.fclear_keep Dev.mem (fun _ _ => rfl) d fs a
@[simp] theorem Dev.fclear_poison (d : Dev) (fs : List Fld) (a : Nat) : (d.fclear fs a).poison = d.poison := Dev.fclear_keep Dev.poison (fun _ _ => rfl) d fs a
@[simp] theorem Dev.fclear_pw (d : Dev) (fs : List Fld) (a : Nat) : (d.fclear fs a).pw = d.pw := Dev.fclear_keep Dev.pw (fun _ _ => rfl) d fs a
@[simp] theorem Dev.fclear_tally (d : Dev) (fs : List Fld) (a : Nat) : (d.fclear fs a).tally = d.tally := Dev.fclear_keep Dev.tally (fun _ _ => rfl) d fs a
@[simp] theorem Dev.fclear_led0 (d : Dev) (fs : List Fld) (a : Nat) : (d.fclear fs a).led0 = d.led0 := Dev.fclear_keep Dev.led0 (fun _ _ => rfl) d fs a
@[simp] theorem Dev.fclear_led1 (d : Dev) (fs : List Fld) (a : Nat) : (d.fclear fs a).led1 = d.led1 := Dev.fclear_keep Dev.led1 (fun _ _ => rfl) d fs a
@[simp] theorem Dev.fclear_mg (d : Dev) (fs : List Fld) (a : Nat) : (d.fclear fs a).mg = d.mg := Dev.fclear_keep Dev.mg (fun _ _ => rfl) d fs a
@[simp] theorem Dev.fclear_sec (d : Dev) (fs : List Fld) (a : Nat) : (d.fclear fs a).sec = d.sec := Dev.fclear_keep Dev.sec (fun _ _ => rfl) d fs a
@[simp] theorem Dev.fclear_boot (d : Dev) (fs : List Fld) (a : Nat) : (d.fclear fs a).boot = d.boot := Dev.fclear_keep Dev.boot (fun _ _ => rfl) d fs a
@[simp] theorem Dev.fclear_feed (d : Dev) (fs : List Fld) (a : Nat) : (d.fclear fs a).feed = d.feed := Dev.fclear_keep Dev.feed (fun _ _ => rfl) d fs a
@[simp] theorem Dev.fclear_queues (d : Dev) (fs : List Fld) (a : Nat) : (d.fclear fs a).queues = d.queues := Dev.fclear_keep Dev.queues (fun _ _ => rfl) d fs a
@[simp] theorem Dev.fclear_slots (d : Dev) (fs : List Fld) (a : Nat) : (d.fclear fs a).slots = d.slots := Dev.fclear_keep Dev.slots (fun _ _ => rfl) d fs a
@[simp] theorem Dev.fclear_tiles (d : Dev) (fs : List Fld) (a : Nat) : (d.fclear fs a).tiles = d.tiles := Dev.fclear_keep Dev.tiles (fun _ _ => rfl) d fs a
@[simp] theorem Dev.fclear_insts (d : Dev) (fs : List Fld) (a : Nat) : (d.fclear fs a).insts = d.insts := Dev.fclear_keep Dev.insts (fun _ _ => rfl) d fs a
@[simp] theorem Dev.fclear_products (d : Dev) (fs : List Fld) (a : Nat) : (d.fclear fs a).products = d.products := Dev.fclear_keep Dev.products (fun _ _ => rfl) d fs a
@[simp] theorem Dev.fclear_img0 (d : Dev) (fs : List Fld) (a : Nat) : (d.fclear fs a).img0 = d.img0 := Dev.fclear_keep Dev.img0 (fun _ _ => rfl) d fs a
@[simp] theorem Dev.fclear_img1 (d : Dev) (fs : List Fld) (a : Nat) : (d.fclear fs a).img1 = d.img1 := Dev.fclear_keep Dev.img1 (fun _ _ => rfl) d fs a
@[simp] theorem Dev.fclear_stage0 (d : Dev) (fs : List Fld) (a : Nat) : (d.fclear fs a).stage0 = d.stage0 := Dev.fclear_keep Dev.stage0 (fun _ _ => rfl) d fs a
@[simp] theorem Dev.fclear_stage1 (d : Dev) (fs : List Fld) (a : Nat) : (d.fclear fs a).stage1 = d.stage1 := Dev.fclear_keep Dev.stage1 (fun _ _ => rfl) d fs a
@[simp] theorem Dev.fclear_net (d : Dev) (fs : List Fld) (a : Nat) : (d.fclear fs a).net = d.net := Dev.fclear_keep Dev.net (fun _ _ => rfl) d fs a
@[simp] theorem Dev.fclear_faults (d : Dev) (fs : List Fld) (a : Nat) : (d.fclear fs a).faults = d.faults := Dev.fclear_keep Dev.faults (fun _ _ => rfl) d fs a
@[simp] theorem Dev.fclear_heldW (d : Dev) (fs : List Fld) (a : Nat) : (d.fclear fs a).heldW = d.heldW := Dev.fclear_keep Dev.heldW (fun _ _ => rfl) d fs a
@[simp] theorem Dev.fclear_heldE (d : Dev) (fs : List Fld) (a : Nat) : (d.fclear fs a).heldE = d.heldE := Dev.fclear_keep Dev.heldE (fun _ _ => rfl) d fs a
@[simp] theorem Dev.fclear_refetch (d : Dev) (fs : List Fld) (a : Nat) : (d.fclear fs a).refetch = d.refetch := Dev.fclear_keep Dev.refetch (fun _ _ => rfl) d fs a
@[simp] theorem Dev.fclear_refetched (d : Dev) (fs : List Fld) (a : Nat) : (d.fclear fs a).refetched = d.refetched := Dev.fclear_keep Dev.refetched (fun _ _ => rfl) d fs a
@[simp] theorem Dev.fclear_ports (d : Dev) (fs : List Fld) (a : Nat) : (d.fclear fs a).ports = d.ports := Dev.fclear_keep Dev.ports (fun _ _ => rfl) d fs a
@[simp] theorem Dev.fclear_fab (d : Dev) (fs : List Fld) (a : Nat) : (d.fclear fs a).fab = d.fab := Dev.fclear_keep Dev.fab (fun _ _ => rfl) d fs a
@[simp] theorem Dev.fclear_step0 (d : Dev) (fs : List Fld) (a : Nat) : (d.fclear fs a).step0 = d.step0 := Dev.fclear_keep Dev.step0 (fun _ _ => rfl) d fs a
@[simp] theorem Dev.fclear_step1 (d : Dev) (fs : List Fld) (a : Nat) : (d.fclear fs a).step1 = d.step1 := Dev.fclear_keep Dev.step1 (fun _ _ => rfl) d fs a
@[simp] theorem Dev.fclear_upd (d : Dev) (fs : List Fld) (a : Nat) : (d.fclear fs a).upd = d.upd := Dev.fclear_keep Dev.upd (fun _ _ => rfl) d fs a
@[simp] theorem Dev.fclear_srv (d : Dev) (fs : List Fld) (a : Nat) : (d.fclear fs a).srv = d.srv := Dev.fclear_keep Dev.srv (fun _ _ => rfl) d fs a
@[simp] theorem Dev.fclear_out (d : Dev) (fs : List Fld) (a : Nat) : (d.fclear fs a).out = d.out := Dev.fclear_keep Dev.out (fun _ _ => rfl) d fs a
@[simp] theorem Dev.fclear_free (d : Dev) (fs : List Fld) (a : Nat) : (d.fclear fs a).free = d.free := Dev.fclear_keep Dev.free (fun _ _ => rfl) d fs a

/-! ## The trace, messages, the strongbox, the halves' states -/

/-- Every part of the device that does not see mg is kept. -/
theorem Dev.traceRec_keep {β : Type} (g : Dev → β) (hmg : ∀ d x, g { d with mg := x } = g d) (d : Dev) (k : Nat) (v : List Nat) :
    g (d.traceRec k v) = g d := by
  unfold Dev.traceRec; split <;> [rfl; (split <;> [exact hmg d _; (split <;> [exact hmg d _; rfl])])]
@[simp] theorem Dev.traceRec_regs (d : Dev) (k : Nat) (v : List Nat) : (d.traceRec k v).regs = d.regs := Dev.traceRec_keep Dev.regs (fun _ _ => rfl) d k v
@[simp] theorem Dev.traceRec_mem (d : Dev) (k : Nat) (v : List Nat) : (d.traceRec k v).mem = d.mem := Dev.traceRec_keep Dev.mem (fun _ _ => rfl) d k v
@[simp] theorem Dev.traceRec_poison (d : Dev) (k : Nat) (v : List Nat) : (d.traceRec k v).poison = d.poison := Dev.traceRec_keep Dev.poison (fun _ _ => rfl) d k v
@[simp] theorem Dev.traceRec_pw (d : Dev) (k : Nat) (v : List Nat) : (d.traceRec k v).pw = d.pw := Dev.traceRec_keep Dev.pw (fun _ _ => rfl) d k v
@[simp] theorem Dev.traceRec_tally (d : Dev) (k : Nat) (v : List Nat) : (d.traceRec k v).tally = d.tally := Dev.traceRec_keep Dev.tally (fun _ _ => rfl) d k v
@[simp] theorem Dev.traceRec_led0 (d : Dev) (k : Nat) (v : List Nat) : (d.traceRec k v).led0 = d.led0 := Dev.traceRec_keep Dev.led0 (fun _ _ => rfl) d k v
@[simp] theorem Dev.traceRec_led1 (d : Dev) (k : Nat) (v : List Nat) : (d.traceRec k v).led1 = d.led1 := Dev.traceRec_keep Dev.led1 (fun _ _ => rfl) d k v
@[simp] theorem Dev.traceRec_sec (d : Dev) (k : Nat) (v : List Nat) : (d.traceRec k v).sec = d.sec := Dev.traceRec_keep Dev.sec (fun _ _ => rfl) d k v
@[simp] theorem Dev.traceRec_boot (d : Dev) (k : Nat) (v : List Nat) : (d.traceRec k v).boot = d.boot := Dev.traceRec_keep Dev.boot (fun _ _ => rfl) d k v
@[simp] theorem Dev.traceRec_feed (d : Dev) (k : Nat) (v : List Nat) : (d.traceRec k v).feed = d.feed := Dev.traceRec_keep Dev.feed (fun _ _ => rfl) d k v
@[simp] theorem Dev.traceRec_queues (d : Dev) (k : Nat) (v : List Nat) : (d.traceRec k v).queues = d.queues := Dev.traceRec_keep Dev.queues (fun _ _ => rfl) d k v
@[simp] theorem Dev.traceRec_slots (d : Dev) (k : Nat) (v : List Nat) : (d.traceRec k v).slots = d.slots := Dev.traceRec_keep Dev.slots (fun _ _ => rfl) d k v
@[simp] theorem Dev.traceRec_tiles (d : Dev) (k : Nat) (v : List Nat) : (d.traceRec k v).tiles = d.tiles := Dev.traceRec_keep Dev.tiles (fun _ _ => rfl) d k v
@[simp] theorem Dev.traceRec_insts (d : Dev) (k : Nat) (v : List Nat) : (d.traceRec k v).insts = d.insts := Dev.traceRec_keep Dev.insts (fun _ _ => rfl) d k v
@[simp] theorem Dev.traceRec_products (d : Dev) (k : Nat) (v : List Nat) : (d.traceRec k v).products = d.products := Dev.traceRec_keep Dev.products (fun _ _ => rfl) d k v
@[simp] theorem Dev.traceRec_img0 (d : Dev) (k : Nat) (v : List Nat) : (d.traceRec k v).img0 = d.img0 := Dev.traceRec_keep Dev.img0 (fun _ _ => rfl) d k v
@[simp] theorem Dev.traceRec_img1 (d : Dev) (k : Nat) (v : List Nat) : (d.traceRec k v).img1 = d.img1 := Dev.traceRec_keep Dev.img1 (fun _ _ => rfl) d k v
@[simp] theorem Dev.traceRec_stage0 (d : Dev) (k : Nat) (v : List Nat) : (d.traceRec k v).stage0 = d.stage0 := Dev.traceRec_keep Dev.stage0 (fun _ _ => rfl) d k v
@[simp] theorem Dev.traceRec_stage1 (d : Dev) (k : Nat) (v : List Nat) : (d.traceRec k v).stage1 = d.stage1 := Dev.traceRec_keep Dev.stage1 (fun _ _ => rfl) d k v
@[simp] theorem Dev.traceRec_net (d : Dev) (k : Nat) (v : List Nat) : (d.traceRec k v).net = d.net := Dev.traceRec_keep Dev.net (fun _ _ => rfl) d k v
@[simp] theorem Dev.traceRec_faults (d : Dev) (k : Nat) (v : List Nat) : (d.traceRec k v).faults = d.faults := Dev.traceRec_keep Dev.faults (fun _ _ => rfl) d k v
@[simp] theorem Dev.traceRec_heldW (d : Dev) (k : Nat) (v : List Nat) : (d.traceRec k v).heldW = d.heldW := Dev.traceRec_keep Dev.heldW (fun _ _ => rfl) d k v
@[simp] theorem Dev.traceRec_heldE (d : Dev) (k : Nat) (v : List Nat) : (d.traceRec k v).heldE = d.heldE := Dev.traceRec_keep Dev.heldE (fun _ _ => rfl) d k v
@[simp] theorem Dev.traceRec_refetch (d : Dev) (k : Nat) (v : List Nat) : (d.traceRec k v).refetch = d.refetch := Dev.traceRec_keep Dev.refetch (fun _ _ => rfl) d k v
@[simp] theorem Dev.traceRec_refetched (d : Dev) (k : Nat) (v : List Nat) : (d.traceRec k v).refetched = d.refetched := Dev.traceRec_keep Dev.refetched (fun _ _ => rfl) d k v
@[simp] theorem Dev.traceRec_ports (d : Dev) (k : Nat) (v : List Nat) : (d.traceRec k v).ports = d.ports := Dev.traceRec_keep Dev.ports (fun _ _ => rfl) d k v
@[simp] theorem Dev.traceRec_fab (d : Dev) (k : Nat) (v : List Nat) : (d.traceRec k v).fab = d.fab := Dev.traceRec_keep Dev.fab (fun _ _ => rfl) d k v
@[simp] theorem Dev.traceRec_step0 (d : Dev) (k : Nat) (v : List Nat) : (d.traceRec k v).step0 = d.step0 := Dev.traceRec_keep Dev.step0 (fun _ _ => rfl) d k v
@[simp] theorem Dev.traceRec_step1 (d : Dev) (k : Nat) (v : List Nat) : (d.traceRec k v).step1 = d.step1 := Dev.traceRec_keep Dev.step1 (fun _ _ => rfl) d k v
@[simp] theorem Dev.traceRec_upd (d : Dev) (k : Nat) (v : List Nat) : (d.traceRec k v).upd = d.upd := Dev.traceRec_keep Dev.upd (fun _ _ => rfl) d k v
@[simp] theorem Dev.traceRec_srv (d : Dev) (k : Nat) (v : List Nat) : (d.traceRec k v).srv = d.srv := Dev.traceRec_keep Dev.srv (fun _ _ => rfl) d k v
@[simp] theorem Dev.traceRec_out (d : Dev) (k : Nat) (v : List Nat) : (d.traceRec k v).out = d.out := Dev.traceRec_keep Dev.out (fun _ _ => rfl) d k v
@[simp] theorem Dev.traceRec_free (d : Dev) (k : Nat) (v : List Nat) : (d.traceRec k v).free = d.free := Dev.traceRec_keep Dev.free (fun _ _ => rfl) d k v

/-- Every part of the device that does not see mg, out is kept. -/
theorem Dev.sendMsg_keep {β : Type} (g : Dev → β) (hmg : ∀ d x, g { d with mg := x } = g d) (hout : ∀ d x, g { d with out := x } = g d) (d : Dev) (i t r : Nat) (b : List Nat) :
    g (d.sendMsg i t r b) = g d := by
  unfold Dev.sendMsg; exact (hmg (d.emit _) _).trans (hout d _)
@[simp] theorem Dev.sendMsg_regs (d : Dev) (i t r : Nat) (b : List Nat) : (d.sendMsg i t r b).regs = d.regs := Dev.sendMsg_keep Dev.regs (fun _ _ => rfl) (fun _ _ => rfl) d i t r b
@[simp] theorem Dev.sendMsg_mem (d : Dev) (i t r : Nat) (b : List Nat) : (d.sendMsg i t r b).mem = d.mem := Dev.sendMsg_keep Dev.mem (fun _ _ => rfl) (fun _ _ => rfl) d i t r b
@[simp] theorem Dev.sendMsg_poison (d : Dev) (i t r : Nat) (b : List Nat) : (d.sendMsg i t r b).poison = d.poison := Dev.sendMsg_keep Dev.poison (fun _ _ => rfl) (fun _ _ => rfl) d i t r b
@[simp] theorem Dev.sendMsg_pw (d : Dev) (i t r : Nat) (b : List Nat) : (d.sendMsg i t r b).pw = d.pw := Dev.sendMsg_keep Dev.pw (fun _ _ => rfl) (fun _ _ => rfl) d i t r b
@[simp] theorem Dev.sendMsg_tally (d : Dev) (i t r : Nat) (b : List Nat) : (d.sendMsg i t r b).tally = d.tally := Dev.sendMsg_keep Dev.tally (fun _ _ => rfl) (fun _ _ => rfl) d i t r b
@[simp] theorem Dev.sendMsg_led0 (d : Dev) (i t r : Nat) (b : List Nat) : (d.sendMsg i t r b).led0 = d.led0 := Dev.sendMsg_keep Dev.led0 (fun _ _ => rfl) (fun _ _ => rfl) d i t r b
@[simp] theorem Dev.sendMsg_led1 (d : Dev) (i t r : Nat) (b : List Nat) : (d.sendMsg i t r b).led1 = d.led1 := Dev.sendMsg_keep Dev.led1 (fun _ _ => rfl) (fun _ _ => rfl) d i t r b
@[simp] theorem Dev.sendMsg_sec (d : Dev) (i t r : Nat) (b : List Nat) : (d.sendMsg i t r b).sec = d.sec := Dev.sendMsg_keep Dev.sec (fun _ _ => rfl) (fun _ _ => rfl) d i t r b
@[simp] theorem Dev.sendMsg_boot (d : Dev) (i t r : Nat) (b : List Nat) : (d.sendMsg i t r b).boot = d.boot := Dev.sendMsg_keep Dev.boot (fun _ _ => rfl) (fun _ _ => rfl) d i t r b
@[simp] theorem Dev.sendMsg_feed (d : Dev) (i t r : Nat) (b : List Nat) : (d.sendMsg i t r b).feed = d.feed := Dev.sendMsg_keep Dev.feed (fun _ _ => rfl) (fun _ _ => rfl) d i t r b
@[simp] theorem Dev.sendMsg_queues (d : Dev) (i t r : Nat) (b : List Nat) : (d.sendMsg i t r b).queues = d.queues := Dev.sendMsg_keep Dev.queues (fun _ _ => rfl) (fun _ _ => rfl) d i t r b
@[simp] theorem Dev.sendMsg_slots (d : Dev) (i t r : Nat) (b : List Nat) : (d.sendMsg i t r b).slots = d.slots := Dev.sendMsg_keep Dev.slots (fun _ _ => rfl) (fun _ _ => rfl) d i t r b
@[simp] theorem Dev.sendMsg_tiles (d : Dev) (i t r : Nat) (b : List Nat) : (d.sendMsg i t r b).tiles = d.tiles := Dev.sendMsg_keep Dev.tiles (fun _ _ => rfl) (fun _ _ => rfl) d i t r b
@[simp] theorem Dev.sendMsg_insts (d : Dev) (i t r : Nat) (b : List Nat) : (d.sendMsg i t r b).insts = d.insts := Dev.sendMsg_keep Dev.insts (fun _ _ => rfl) (fun _ _ => rfl) d i t r b
@[simp] theorem Dev.sendMsg_products (d : Dev) (i t r : Nat) (b : List Nat) : (d.sendMsg i t r b).products = d.products := Dev.sendMsg_keep Dev.products (fun _ _ => rfl) (fun _ _ => rfl) d i t r b
@[simp] theorem Dev.sendMsg_img0 (d : Dev) (i t r : Nat) (b : List Nat) : (d.sendMsg i t r b).img0 = d.img0 := Dev.sendMsg_keep Dev.img0 (fun _ _ => rfl) (fun _ _ => rfl) d i t r b
@[simp] theorem Dev.sendMsg_img1 (d : Dev) (i t r : Nat) (b : List Nat) : (d.sendMsg i t r b).img1 = d.img1 := Dev.sendMsg_keep Dev.img1 (fun _ _ => rfl) (fun _ _ => rfl) d i t r b
@[simp] theorem Dev.sendMsg_stage0 (d : Dev) (i t r : Nat) (b : List Nat) : (d.sendMsg i t r b).stage0 = d.stage0 := Dev.sendMsg_keep Dev.stage0 (fun _ _ => rfl) (fun _ _ => rfl) d i t r b
@[simp] theorem Dev.sendMsg_stage1 (d : Dev) (i t r : Nat) (b : List Nat) : (d.sendMsg i t r b).stage1 = d.stage1 := Dev.sendMsg_keep Dev.stage1 (fun _ _ => rfl) (fun _ _ => rfl) d i t r b
@[simp] theorem Dev.sendMsg_net (d : Dev) (i t r : Nat) (b : List Nat) : (d.sendMsg i t r b).net = d.net := Dev.sendMsg_keep Dev.net (fun _ _ => rfl) (fun _ _ => rfl) d i t r b
@[simp] theorem Dev.sendMsg_faults (d : Dev) (i t r : Nat) (b : List Nat) : (d.sendMsg i t r b).faults = d.faults := Dev.sendMsg_keep Dev.faults (fun _ _ => rfl) (fun _ _ => rfl) d i t r b
@[simp] theorem Dev.sendMsg_heldW (d : Dev) (i t r : Nat) (b : List Nat) : (d.sendMsg i t r b).heldW = d.heldW := Dev.sendMsg_keep Dev.heldW (fun _ _ => rfl) (fun _ _ => rfl) d i t r b
@[simp] theorem Dev.sendMsg_heldE (d : Dev) (i t r : Nat) (b : List Nat) : (d.sendMsg i t r b).heldE = d.heldE := Dev.sendMsg_keep Dev.heldE (fun _ _ => rfl) (fun _ _ => rfl) d i t r b
@[simp] theorem Dev.sendMsg_refetch (d : Dev) (i t r : Nat) (b : List Nat) : (d.sendMsg i t r b).refetch = d.refetch := Dev.sendMsg_keep Dev.refetch (fun _ _ => rfl) (fun _ _ => rfl) d i t r b
@[simp] theorem Dev.sendMsg_refetched (d : Dev) (i t r : Nat) (b : List Nat) : (d.sendMsg i t r b).refetched = d.refetched := Dev.sendMsg_keep Dev.refetched (fun _ _ => rfl) (fun _ _ => rfl) d i t r b
@[simp] theorem Dev.sendMsg_ports (d : Dev) (i t r : Nat) (b : List Nat) : (d.sendMsg i t r b).ports = d.ports := Dev.sendMsg_keep Dev.ports (fun _ _ => rfl) (fun _ _ => rfl) d i t r b
@[simp] theorem Dev.sendMsg_fab (d : Dev) (i t r : Nat) (b : List Nat) : (d.sendMsg i t r b).fab = d.fab := Dev.sendMsg_keep Dev.fab (fun _ _ => rfl) (fun _ _ => rfl) d i t r b
@[simp] theorem Dev.sendMsg_step0 (d : Dev) (i t r : Nat) (b : List Nat) : (d.sendMsg i t r b).step0 = d.step0 := Dev.sendMsg_keep Dev.step0 (fun _ _ => rfl) (fun _ _ => rfl) d i t r b
@[simp] theorem Dev.sendMsg_step1 (d : Dev) (i t r : Nat) (b : List Nat) : (d.sendMsg i t r b).step1 = d.step1 := Dev.sendMsg_keep Dev.step1 (fun _ _ => rfl) (fun _ _ => rfl) d i t r b
@[simp] theorem Dev.sendMsg_upd (d : Dev) (i t r : Nat) (b : List Nat) : (d.sendMsg i t r b).upd = d.upd := Dev.sendMsg_keep Dev.upd (fun _ _ => rfl) (fun _ _ => rfl) d i t r b
@[simp] theorem Dev.sendMsg_srv (d : Dev) (i t r : Nat) (b : List Nat) : (d.sendMsg i t r b).srv = d.srv := Dev.sendMsg_keep Dev.srv (fun _ _ => rfl) (fun _ _ => rfl) d i t r b
@[simp] theorem Dev.sendMsg_free (d : Dev) (i t r : Nat) (b : List Nat) : (d.sendMsg i t r b).free = d.free := Dev.sendMsg_keep Dev.free (fun _ _ => rfl) (fun _ _ => rfl) d i t r b

/-- Every part of the device that does not see regs, mg, out is kept. -/
theorem Dev.mbxEvent_keep {β : Type} (g : Dev → β) (hregs : ∀ d x, g { d with regs := x } = g d) (hmg : ∀ d x, g { d with mg := x } = g d) (hout : ∀ d x, g { d with out := x } = g d) (d : Dev) (e : Ev) :
    g (d.mbxEvent e) = g d := by
  have h : ∀ l : FMap Session, ∀ d : Dev, g (l.foldl (fun d p => d.sendMsg p.1 0x09 0 [e.bit.lo, d.now]) d) = g d :=
    fun l d => foldl_keep g _ (fun d p => Dev.sendMsg_keep g hmg hout d _ _ _ _) l d
  unfold Dev.mbxEvent; simp only []
  split <;> simp only [Dev.emit_keep g hout, h, Dev.traceRec_keep g hmg, Dev.event_keep g hregs]
@[simp] theorem Dev.mbxEvent_mem (d : Dev) (e : Ev) : (d.mbxEvent e).mem = d.mem := Dev.mbxEvent_keep Dev.mem (fun _ _ => rfl) (fun _ _ => rfl) (fun _ _ => rfl) d e
@[simp] theorem Dev.mbxEvent_poison (d : Dev) (e : Ev) : (d.mbxEvent e).poison = d.poison := Dev.mbxEvent_keep Dev.poison (fun _ _ => rfl) (fun _ _ => rfl) (fun _ _ => rfl) d e
@[simp] theorem Dev.mbxEvent_pw (d : Dev) (e : Ev) : (d.mbxEvent e).pw = d.pw := Dev.mbxEvent_keep Dev.pw (fun _ _ => rfl) (fun _ _ => rfl) (fun _ _ => rfl) d e
@[simp] theorem Dev.mbxEvent_tally (d : Dev) (e : Ev) : (d.mbxEvent e).tally = d.tally := Dev.mbxEvent_keep Dev.tally (fun _ _ => rfl) (fun _ _ => rfl) (fun _ _ => rfl) d e
@[simp] theorem Dev.mbxEvent_led0 (d : Dev) (e : Ev) : (d.mbxEvent e).led0 = d.led0 := Dev.mbxEvent_keep Dev.led0 (fun _ _ => rfl) (fun _ _ => rfl) (fun _ _ => rfl) d e
@[simp] theorem Dev.mbxEvent_led1 (d : Dev) (e : Ev) : (d.mbxEvent e).led1 = d.led1 := Dev.mbxEvent_keep Dev.led1 (fun _ _ => rfl) (fun _ _ => rfl) (fun _ _ => rfl) d e
@[simp] theorem Dev.mbxEvent_sec (d : Dev) (e : Ev) : (d.mbxEvent e).sec = d.sec := Dev.mbxEvent_keep Dev.sec (fun _ _ => rfl) (fun _ _ => rfl) (fun _ _ => rfl) d e
@[simp] theorem Dev.mbxEvent_boot (d : Dev) (e : Ev) : (d.mbxEvent e).boot = d.boot := Dev.mbxEvent_keep Dev.boot (fun _ _ => rfl) (fun _ _ => rfl) (fun _ _ => rfl) d e
@[simp] theorem Dev.mbxEvent_feed (d : Dev) (e : Ev) : (d.mbxEvent e).feed = d.feed := Dev.mbxEvent_keep Dev.feed (fun _ _ => rfl) (fun _ _ => rfl) (fun _ _ => rfl) d e
@[simp] theorem Dev.mbxEvent_queues (d : Dev) (e : Ev) : (d.mbxEvent e).queues = d.queues := Dev.mbxEvent_keep Dev.queues (fun _ _ => rfl) (fun _ _ => rfl) (fun _ _ => rfl) d e
@[simp] theorem Dev.mbxEvent_slots (d : Dev) (e : Ev) : (d.mbxEvent e).slots = d.slots := Dev.mbxEvent_keep Dev.slots (fun _ _ => rfl) (fun _ _ => rfl) (fun _ _ => rfl) d e
@[simp] theorem Dev.mbxEvent_tiles (d : Dev) (e : Ev) : (d.mbxEvent e).tiles = d.tiles := Dev.mbxEvent_keep Dev.tiles (fun _ _ => rfl) (fun _ _ => rfl) (fun _ _ => rfl) d e
@[simp] theorem Dev.mbxEvent_insts (d : Dev) (e : Ev) : (d.mbxEvent e).insts = d.insts := Dev.mbxEvent_keep Dev.insts (fun _ _ => rfl) (fun _ _ => rfl) (fun _ _ => rfl) d e
@[simp] theorem Dev.mbxEvent_products (d : Dev) (e : Ev) : (d.mbxEvent e).products = d.products := Dev.mbxEvent_keep Dev.products (fun _ _ => rfl) (fun _ _ => rfl) (fun _ _ => rfl) d e
@[simp] theorem Dev.mbxEvent_img0 (d : Dev) (e : Ev) : (d.mbxEvent e).img0 = d.img0 := Dev.mbxEvent_keep Dev.img0 (fun _ _ => rfl) (fun _ _ => rfl) (fun _ _ => rfl) d e
@[simp] theorem Dev.mbxEvent_img1 (d : Dev) (e : Ev) : (d.mbxEvent e).img1 = d.img1 := Dev.mbxEvent_keep Dev.img1 (fun _ _ => rfl) (fun _ _ => rfl) (fun _ _ => rfl) d e
@[simp] theorem Dev.mbxEvent_stage0 (d : Dev) (e : Ev) : (d.mbxEvent e).stage0 = d.stage0 := Dev.mbxEvent_keep Dev.stage0 (fun _ _ => rfl) (fun _ _ => rfl) (fun _ _ => rfl) d e
@[simp] theorem Dev.mbxEvent_stage1 (d : Dev) (e : Ev) : (d.mbxEvent e).stage1 = d.stage1 := Dev.mbxEvent_keep Dev.stage1 (fun _ _ => rfl) (fun _ _ => rfl) (fun _ _ => rfl) d e
@[simp] theorem Dev.mbxEvent_net (d : Dev) (e : Ev) : (d.mbxEvent e).net = d.net := Dev.mbxEvent_keep Dev.net (fun _ _ => rfl) (fun _ _ => rfl) (fun _ _ => rfl) d e
@[simp] theorem Dev.mbxEvent_faults (d : Dev) (e : Ev) : (d.mbxEvent e).faults = d.faults := Dev.mbxEvent_keep Dev.faults (fun _ _ => rfl) (fun _ _ => rfl) (fun _ _ => rfl) d e
@[simp] theorem Dev.mbxEvent_heldW (d : Dev) (e : Ev) : (d.mbxEvent e).heldW = d.heldW := Dev.mbxEvent_keep Dev.heldW (fun _ _ => rfl) (fun _ _ => rfl) (fun _ _ => rfl) d e
@[simp] theorem Dev.mbxEvent_heldE (d : Dev) (e : Ev) : (d.mbxEvent e).heldE = d.heldE := Dev.mbxEvent_keep Dev.heldE (fun _ _ => rfl) (fun _ _ => rfl) (fun _ _ => rfl) d e
@[simp] theorem Dev.mbxEvent_refetch (d : Dev) (e : Ev) : (d.mbxEvent e).refetch = d.refetch := Dev.mbxEvent_keep Dev.refetch (fun _ _ => rfl) (fun _ _ => rfl) (fun _ _ => rfl) d e
@[simp] theorem Dev.mbxEvent_refetched (d : Dev) (e : Ev) : (d.mbxEvent e).refetched = d.refetched := Dev.mbxEvent_keep Dev.refetched (fun _ _ => rfl) (fun _ _ => rfl) (fun _ _ => rfl) d e
@[simp] theorem Dev.mbxEvent_ports (d : Dev) (e : Ev) : (d.mbxEvent e).ports = d.ports := Dev.mbxEvent_keep Dev.ports (fun _ _ => rfl) (fun _ _ => rfl) (fun _ _ => rfl) d e
@[simp] theorem Dev.mbxEvent_fab (d : Dev) (e : Ev) : (d.mbxEvent e).fab = d.fab := Dev.mbxEvent_keep Dev.fab (fun _ _ => rfl) (fun _ _ => rfl) (fun _ _ => rfl) d e
@[simp] theorem Dev.mbxEvent_step0 (d : Dev) (e : Ev) : (d.mbxEvent e).step0 = d.step0 := Dev.mbxEvent_keep Dev.step0 (fun _ _ => rfl) (fun _ _ => rfl) (fun _ _ => rfl) d e
@[simp] theorem Dev.mbxEvent_step1 (d : Dev) (e : Ev) : (d.mbxEvent e).step1 = d.step1 := Dev.mbxEvent_keep Dev.step1 (fun _ _ => rfl) (fun _ _ => rfl) (fun _ _ => rfl) d e
@[simp] theorem Dev.mbxEvent_upd (d : Dev) (e : Ev) : (d.mbxEvent e).upd = d.upd := Dev.mbxEvent_keep Dev.upd (fun _ _ => rfl) (fun _ _ => rfl) (fun _ _ => rfl) d e
@[simp] theorem Dev.mbxEvent_srv (d : Dev) (e : Ev) : (d.mbxEvent e).srv = d.srv := Dev.mbxEvent_keep Dev.srv (fun _ _ => rfl) (fun _ _ => rfl) (fun _ _ => rfl) d e
@[simp] theorem Dev.mbxEvent_free (d : Dev) (e : Ev) : (d.mbxEvent e).free = d.free := Dev.mbxEvent_keep Dev.free (fun _ _ => rfl) (fun _ _ => rfl) (fun _ _ => rfl) d e

/-- Every part of the device that does not see regs, mg, out is kept. -/
theorem Dev.sbLog_keep {β : Type} (g : Dev → β) (hregs : ∀ d x, g { d with regs := x } = g d) (hmg : ∀ d x, g { d with mg := x } = g d) (hout : ∀ d x, g { d with out := x } = g d) (d : Dev) (t s : Nat) (b : List Nat) :
    g (d.sbLog t s b) = g d := by
  unfold Dev.sbLog; split
  · exact (Dev.mbxEvent_keep g hregs hmg hout _ _).trans (hmg d _)
  · exact hmg d _
@[simp] theorem Dev.sbLog_mem (d : Dev) (t s : Nat) (b : List Nat) : (d.sbLog t s b).mem = d.mem := Dev.sbLog_keep Dev.mem (fun _ _ => rfl) (fun _ _ => rfl) (fun _ _ => rfl) d t s b
@[simp] theorem Dev.sbLog_poison (d : Dev) (t s : Nat) (b : List Nat) : (d.sbLog t s b).poison = d.poison := Dev.sbLog_keep Dev.poison (fun _ _ => rfl) (fun _ _ => rfl) (fun _ _ => rfl) d t s b
@[simp] theorem Dev.sbLog_pw (d : Dev) (t s : Nat) (b : List Nat) : (d.sbLog t s b).pw = d.pw := Dev.sbLog_keep Dev.pw (fun _ _ => rfl) (fun _ _ => rfl) (fun _ _ => rfl) d t s b
@[simp] theorem Dev.sbLog_tally (d : Dev) (t s : Nat) (b : List Nat) : (d.sbLog t s b).tally = d.tally := Dev.sbLog_keep Dev.tally (fun _ _ => rfl) (fun _ _ => rfl) (fun _ _ => rfl) d t s b
@[simp] theorem Dev.sbLog_led0 (d : Dev) (t s : Nat) (b : List Nat) : (d.sbLog t s b).led0 = d.led0 := Dev.sbLog_keep Dev.led0 (fun _ _ => rfl) (fun _ _ => rfl) (fun _ _ => rfl) d t s b
@[simp] theorem Dev.sbLog_led1 (d : Dev) (t s : Nat) (b : List Nat) : (d.sbLog t s b).led1 = d.led1 := Dev.sbLog_keep Dev.led1 (fun _ _ => rfl) (fun _ _ => rfl) (fun _ _ => rfl) d t s b
@[simp] theorem Dev.sbLog_sec (d : Dev) (t s : Nat) (b : List Nat) : (d.sbLog t s b).sec = d.sec := Dev.sbLog_keep Dev.sec (fun _ _ => rfl) (fun _ _ => rfl) (fun _ _ => rfl) d t s b
@[simp] theorem Dev.sbLog_boot (d : Dev) (t s : Nat) (b : List Nat) : (d.sbLog t s b).boot = d.boot := Dev.sbLog_keep Dev.boot (fun _ _ => rfl) (fun _ _ => rfl) (fun _ _ => rfl) d t s b
@[simp] theorem Dev.sbLog_feed (d : Dev) (t s : Nat) (b : List Nat) : (d.sbLog t s b).feed = d.feed := Dev.sbLog_keep Dev.feed (fun _ _ => rfl) (fun _ _ => rfl) (fun _ _ => rfl) d t s b
@[simp] theorem Dev.sbLog_queues (d : Dev) (t s : Nat) (b : List Nat) : (d.sbLog t s b).queues = d.queues := Dev.sbLog_keep Dev.queues (fun _ _ => rfl) (fun _ _ => rfl) (fun _ _ => rfl) d t s b
@[simp] theorem Dev.sbLog_slots (d : Dev) (t s : Nat) (b : List Nat) : (d.sbLog t s b).slots = d.slots := Dev.sbLog_keep Dev.slots (fun _ _ => rfl) (fun _ _ => rfl) (fun _ _ => rfl) d t s b
@[simp] theorem Dev.sbLog_tiles (d : Dev) (t s : Nat) (b : List Nat) : (d.sbLog t s b).tiles = d.tiles := Dev.sbLog_keep Dev.tiles (fun _ _ => rfl) (fun _ _ => rfl) (fun _ _ => rfl) d t s b
@[simp] theorem Dev.sbLog_insts (d : Dev) (t s : Nat) (b : List Nat) : (d.sbLog t s b).insts = d.insts := Dev.sbLog_keep Dev.insts (fun _ _ => rfl) (fun _ _ => rfl) (fun _ _ => rfl) d t s b
@[simp] theorem Dev.sbLog_products (d : Dev) (t s : Nat) (b : List Nat) : (d.sbLog t s b).products = d.products := Dev.sbLog_keep Dev.products (fun _ _ => rfl) (fun _ _ => rfl) (fun _ _ => rfl) d t s b
@[simp] theorem Dev.sbLog_img0 (d : Dev) (t s : Nat) (b : List Nat) : (d.sbLog t s b).img0 = d.img0 := Dev.sbLog_keep Dev.img0 (fun _ _ => rfl) (fun _ _ => rfl) (fun _ _ => rfl) d t s b
@[simp] theorem Dev.sbLog_img1 (d : Dev) (t s : Nat) (b : List Nat) : (d.sbLog t s b).img1 = d.img1 := Dev.sbLog_keep Dev.img1 (fun _ _ => rfl) (fun _ _ => rfl) (fun _ _ => rfl) d t s b
@[simp] theorem Dev.sbLog_stage0 (d : Dev) (t s : Nat) (b : List Nat) : (d.sbLog t s b).stage0 = d.stage0 := Dev.sbLog_keep Dev.stage0 (fun _ _ => rfl) (fun _ _ => rfl) (fun _ _ => rfl) d t s b
@[simp] theorem Dev.sbLog_stage1 (d : Dev) (t s : Nat) (b : List Nat) : (d.sbLog t s b).stage1 = d.stage1 := Dev.sbLog_keep Dev.stage1 (fun _ _ => rfl) (fun _ _ => rfl) (fun _ _ => rfl) d t s b
@[simp] theorem Dev.sbLog_net (d : Dev) (t s : Nat) (b : List Nat) : (d.sbLog t s b).net = d.net := Dev.sbLog_keep Dev.net (fun _ _ => rfl) (fun _ _ => rfl) (fun _ _ => rfl) d t s b
@[simp] theorem Dev.sbLog_faults (d : Dev) (t s : Nat) (b : List Nat) : (d.sbLog t s b).faults = d.faults := Dev.sbLog_keep Dev.faults (fun _ _ => rfl) (fun _ _ => rfl) (fun _ _ => rfl) d t s b
@[simp] theorem Dev.sbLog_heldW (d : Dev) (t s : Nat) (b : List Nat) : (d.sbLog t s b).heldW = d.heldW := Dev.sbLog_keep Dev.heldW (fun _ _ => rfl) (fun _ _ => rfl) (fun _ _ => rfl) d t s b
@[simp] theorem Dev.sbLog_heldE (d : Dev) (t s : Nat) (b : List Nat) : (d.sbLog t s b).heldE = d.heldE := Dev.sbLog_keep Dev.heldE (fun _ _ => rfl) (fun _ _ => rfl) (fun _ _ => rfl) d t s b
@[simp] theorem Dev.sbLog_refetch (d : Dev) (t s : Nat) (b : List Nat) : (d.sbLog t s b).refetch = d.refetch := Dev.sbLog_keep Dev.refetch (fun _ _ => rfl) (fun _ _ => rfl) (fun _ _ => rfl) d t s b
@[simp] theorem Dev.sbLog_refetched (d : Dev) (t s : Nat) (b : List Nat) : (d.sbLog t s b).refetched = d.refetched := Dev.sbLog_keep Dev.refetched (fun _ _ => rfl) (fun _ _ => rfl) (fun _ _ => rfl) d t s b
@[simp] theorem Dev.sbLog_ports (d : Dev) (t s : Nat) (b : List Nat) : (d.sbLog t s b).ports = d.ports := Dev.sbLog_keep Dev.ports (fun _ _ => rfl) (fun _ _ => rfl) (fun _ _ => rfl) d t s b
@[simp] theorem Dev.sbLog_fab (d : Dev) (t s : Nat) (b : List Nat) : (d.sbLog t s b).fab = d.fab := Dev.sbLog_keep Dev.fab (fun _ _ => rfl) (fun _ _ => rfl) (fun _ _ => rfl) d t s b
@[simp] theorem Dev.sbLog_step0 (d : Dev) (t s : Nat) (b : List Nat) : (d.sbLog t s b).step0 = d.step0 := Dev.sbLog_keep Dev.step0 (fun _ _ => rfl) (fun _ _ => rfl) (fun _ _ => rfl) d t s b
@[simp] theorem Dev.sbLog_step1 (d : Dev) (t s : Nat) (b : List Nat) : (d.sbLog t s b).step1 = d.step1 := Dev.sbLog_keep Dev.step1 (fun _ _ => rfl) (fun _ _ => rfl) (fun _ _ => rfl) d t s b
@[simp] theorem Dev.sbLog_upd (d : Dev) (t s : Nat) (b : List Nat) : (d.sbLog t s b).upd = d.upd := Dev.sbLog_keep Dev.upd (fun _ _ => rfl) (fun _ _ => rfl) (fun _ _ => rfl) d t s b
@[simp] theorem Dev.sbLog_srv (d : Dev) (t s : Nat) (b : List Nat) : (d.sbLog t s b).srv = d.srv := Dev.sbLog_keep Dev.srv (fun _ _ => rfl) (fun _ _ => rfl) (fun _ _ => rfl) d t s b
@[simp] theorem Dev.sbLog_free (d : Dev) (t s : Nat) (b : List Nat) : (d.sbLog t s b).free = d.free := Dev.sbLog_keep Dev.free (fun _ _ => rfl) (fun _ _ => rfl) (fun _ _ => rfl) d t s b

/-- Every part of the device that does not see regs, mg, out is kept. -/
theorem Dev.setHalf_keep {β : Type} (g : Dev → β) (hregs : ∀ d x, g { d with regs := x } = g d) (hmg : ∀ d x, g { d with mg := x } = g d) (hout : ∀ d x, g { d with out := x } = g d) (d : Dev) (h : HalfId) (s b : Nat) :
    g (d.setHalf h s b) = g d := by
  unfold Dev.setHalf; simp only []
  split <;> simp only [Dev.sbLog_keep g hregs hmg hout, Dev.fset_keep g hregs]
@[simp] theorem Dev.setHalf_mem (d : Dev) (h : HalfId) (s b : Nat) : (d.setHalf h s b).mem = d.mem := Dev.setHalf_keep Dev.mem (fun _ _ => rfl) (fun _ _ => rfl) (fun _ _ => rfl) d h s b
@[simp] theorem Dev.setHalf_poison (d : Dev) (h : HalfId) (s b : Nat) : (d.setHalf h s b).poison = d.poison := Dev.setHalf_keep Dev.poison (fun _ _ => rfl) (fun _ _ => rfl) (fun _ _ => rfl) d h s b
@[simp] theorem Dev.setHalf_pw (d : Dev) (h : HalfId) (s b : Nat) : (d.setHalf h s b).pw = d.pw := Dev.setHalf_keep Dev.pw (fun _ _ => rfl) (fun _ _ => rfl) (fun _ _ => rfl) d h s b
@[simp] theorem Dev.setHalf_tally (d : Dev) (h : HalfId) (s b : Nat) : (d.setHalf h s b).tally = d.tally := Dev.setHalf_keep Dev.tally (fun _ _ => rfl) (fun _ _ => rfl) (fun _ _ => rfl) d h s b
@[simp] theorem Dev.setHalf_led0 (d : Dev) (h : HalfId) (s b : Nat) : (d.setHalf h s b).led0 = d.led0 := Dev.setHalf_keep Dev.led0 (fun _ _ => rfl) (fun _ _ => rfl) (fun _ _ => rfl) d h s b
@[simp] theorem Dev.setHalf_led1 (d : Dev) (h : HalfId) (s b : Nat) : (d.setHalf h s b).led1 = d.led1 := Dev.setHalf_keep Dev.led1 (fun _ _ => rfl) (fun _ _ => rfl) (fun _ _ => rfl) d h s b
@[simp] theorem Dev.setHalf_sec (d : Dev) (h : HalfId) (s b : Nat) : (d.setHalf h s b).sec = d.sec := Dev.setHalf_keep Dev.sec (fun _ _ => rfl) (fun _ _ => rfl) (fun _ _ => rfl) d h s b
@[simp] theorem Dev.setHalf_boot (d : Dev) (h : HalfId) (s b : Nat) : (d.setHalf h s b).boot = d.boot := Dev.setHalf_keep Dev.boot (fun _ _ => rfl) (fun _ _ => rfl) (fun _ _ => rfl) d h s b
@[simp] theorem Dev.setHalf_feed (d : Dev) (h : HalfId) (s b : Nat) : (d.setHalf h s b).feed = d.feed := Dev.setHalf_keep Dev.feed (fun _ _ => rfl) (fun _ _ => rfl) (fun _ _ => rfl) d h s b
@[simp] theorem Dev.setHalf_queues (d : Dev) (h : HalfId) (s b : Nat) : (d.setHalf h s b).queues = d.queues := Dev.setHalf_keep Dev.queues (fun _ _ => rfl) (fun _ _ => rfl) (fun _ _ => rfl) d h s b
@[simp] theorem Dev.setHalf_slots (d : Dev) (h : HalfId) (s b : Nat) : (d.setHalf h s b).slots = d.slots := Dev.setHalf_keep Dev.slots (fun _ _ => rfl) (fun _ _ => rfl) (fun _ _ => rfl) d h s b
@[simp] theorem Dev.setHalf_tiles (d : Dev) (h : HalfId) (s b : Nat) : (d.setHalf h s b).tiles = d.tiles := Dev.setHalf_keep Dev.tiles (fun _ _ => rfl) (fun _ _ => rfl) (fun _ _ => rfl) d h s b
@[simp] theorem Dev.setHalf_insts (d : Dev) (h : HalfId) (s b : Nat) : (d.setHalf h s b).insts = d.insts := Dev.setHalf_keep Dev.insts (fun _ _ => rfl) (fun _ _ => rfl) (fun _ _ => rfl) d h s b
@[simp] theorem Dev.setHalf_products (d : Dev) (h : HalfId) (s b : Nat) : (d.setHalf h s b).products = d.products := Dev.setHalf_keep Dev.products (fun _ _ => rfl) (fun _ _ => rfl) (fun _ _ => rfl) d h s b
@[simp] theorem Dev.setHalf_img0 (d : Dev) (h : HalfId) (s b : Nat) : (d.setHalf h s b).img0 = d.img0 := Dev.setHalf_keep Dev.img0 (fun _ _ => rfl) (fun _ _ => rfl) (fun _ _ => rfl) d h s b
@[simp] theorem Dev.setHalf_img1 (d : Dev) (h : HalfId) (s b : Nat) : (d.setHalf h s b).img1 = d.img1 := Dev.setHalf_keep Dev.img1 (fun _ _ => rfl) (fun _ _ => rfl) (fun _ _ => rfl) d h s b
@[simp] theorem Dev.setHalf_stage0 (d : Dev) (h : HalfId) (s b : Nat) : (d.setHalf h s b).stage0 = d.stage0 := Dev.setHalf_keep Dev.stage0 (fun _ _ => rfl) (fun _ _ => rfl) (fun _ _ => rfl) d h s b
@[simp] theorem Dev.setHalf_stage1 (d : Dev) (h : HalfId) (s b : Nat) : (d.setHalf h s b).stage1 = d.stage1 := Dev.setHalf_keep Dev.stage1 (fun _ _ => rfl) (fun _ _ => rfl) (fun _ _ => rfl) d h s b
@[simp] theorem Dev.setHalf_net (d : Dev) (h : HalfId) (s b : Nat) : (d.setHalf h s b).net = d.net := Dev.setHalf_keep Dev.net (fun _ _ => rfl) (fun _ _ => rfl) (fun _ _ => rfl) d h s b
@[simp] theorem Dev.setHalf_faults (d : Dev) (h : HalfId) (s b : Nat) : (d.setHalf h s b).faults = d.faults := Dev.setHalf_keep Dev.faults (fun _ _ => rfl) (fun _ _ => rfl) (fun _ _ => rfl) d h s b
@[simp] theorem Dev.setHalf_heldW (d : Dev) (h : HalfId) (s b : Nat) : (d.setHalf h s b).heldW = d.heldW := Dev.setHalf_keep Dev.heldW (fun _ _ => rfl) (fun _ _ => rfl) (fun _ _ => rfl) d h s b
@[simp] theorem Dev.setHalf_heldE (d : Dev) (h : HalfId) (s b : Nat) : (d.setHalf h s b).heldE = d.heldE := Dev.setHalf_keep Dev.heldE (fun _ _ => rfl) (fun _ _ => rfl) (fun _ _ => rfl) d h s b
@[simp] theorem Dev.setHalf_refetch (d : Dev) (h : HalfId) (s b : Nat) : (d.setHalf h s b).refetch = d.refetch := Dev.setHalf_keep Dev.refetch (fun _ _ => rfl) (fun _ _ => rfl) (fun _ _ => rfl) d h s b
@[simp] theorem Dev.setHalf_refetched (d : Dev) (h : HalfId) (s b : Nat) : (d.setHalf h s b).refetched = d.refetched := Dev.setHalf_keep Dev.refetched (fun _ _ => rfl) (fun _ _ => rfl) (fun _ _ => rfl) d h s b
@[simp] theorem Dev.setHalf_ports (d : Dev) (h : HalfId) (s b : Nat) : (d.setHalf h s b).ports = d.ports := Dev.setHalf_keep Dev.ports (fun _ _ => rfl) (fun _ _ => rfl) (fun _ _ => rfl) d h s b
@[simp] theorem Dev.setHalf_fab (d : Dev) (h : HalfId) (s b : Nat) : (d.setHalf h s b).fab = d.fab := Dev.setHalf_keep Dev.fab (fun _ _ => rfl) (fun _ _ => rfl) (fun _ _ => rfl) d h s b
@[simp] theorem Dev.setHalf_step0 (d : Dev) (h : HalfId) (s b : Nat) : (d.setHalf h s b).step0 = d.step0 := Dev.setHalf_keep Dev.step0 (fun _ _ => rfl) (fun _ _ => rfl) (fun _ _ => rfl) d h s b
@[simp] theorem Dev.setHalf_step1 (d : Dev) (h : HalfId) (s b : Nat) : (d.setHalf h s b).step1 = d.step1 := Dev.setHalf_keep Dev.step1 (fun _ _ => rfl) (fun _ _ => rfl) (fun _ _ => rfl) d h s b
@[simp] theorem Dev.setHalf_upd (d : Dev) (h : HalfId) (s b : Nat) : (d.setHalf h s b).upd = d.upd := Dev.setHalf_keep Dev.upd (fun _ _ => rfl) (fun _ _ => rfl) (fun _ _ => rfl) d h s b
@[simp] theorem Dev.setHalf_srv (d : Dev) (h : HalfId) (s b : Nat) : (d.setHalf h s b).srv = d.srv := Dev.setHalf_keep Dev.srv (fun _ _ => rfl) (fun _ _ => rfl) (fun _ _ => rfl) d h s b
@[simp] theorem Dev.setHalf_free (d : Dev) (h : HalfId) (s b : Nat) : (d.setHalf h s b).free = d.free := Dev.setHalf_keep Dev.free (fun _ _ => rfl) (fun _ _ => rfl) (fun _ _ => rfl) d h s b

/-- Every part of the device that does not see regs, mg, out is kept. -/
theorem Dev.setScope_keep {β : Type} (g : Dev → β) (hregs : ∀ d x, g { d with regs := x } = g d) (hmg : ∀ d x, g { d with mg := x } = g d) (hout : ∀ d x, g { d with out := x } = g d) (d : Dev) (c : Scope) (s b : Nat) :
    g (d.setScope c s b) = g d := by
  unfold Dev.setScope; refine foldl_keep g _ (fun d h => ?_) _ d
  split <;> [rfl; exact Dev.setHalf_keep g hregs hmg hout d h s b]
@[simp] theorem Dev.setScope_mem (d : Dev) (c : Scope) (s b : Nat) : (d.setScope c s b).mem = d.mem := Dev.setScope_keep Dev.mem (fun _ _ => rfl) (fun _ _ => rfl) (fun _ _ => rfl) d c s b
@[simp] theorem Dev.setScope_poison (d : Dev) (c : Scope) (s b : Nat) : (d.setScope c s b).poison = d.poison := Dev.setScope_keep Dev.poison (fun _ _ => rfl) (fun _ _ => rfl) (fun _ _ => rfl) d c s b
@[simp] theorem Dev.setScope_pw (d : Dev) (c : Scope) (s b : Nat) : (d.setScope c s b).pw = d.pw := Dev.setScope_keep Dev.pw (fun _ _ => rfl) (fun _ _ => rfl) (fun _ _ => rfl) d c s b
@[simp] theorem Dev.setScope_tally (d : Dev) (c : Scope) (s b : Nat) : (d.setScope c s b).tally = d.tally := Dev.setScope_keep Dev.tally (fun _ _ => rfl) (fun _ _ => rfl) (fun _ _ => rfl) d c s b
@[simp] theorem Dev.setScope_led0 (d : Dev) (c : Scope) (s b : Nat) : (d.setScope c s b).led0 = d.led0 := Dev.setScope_keep Dev.led0 (fun _ _ => rfl) (fun _ _ => rfl) (fun _ _ => rfl) d c s b
@[simp] theorem Dev.setScope_led1 (d : Dev) (c : Scope) (s b : Nat) : (d.setScope c s b).led1 = d.led1 := Dev.setScope_keep Dev.led1 (fun _ _ => rfl) (fun _ _ => rfl) (fun _ _ => rfl) d c s b
@[simp] theorem Dev.setScope_sec (d : Dev) (c : Scope) (s b : Nat) : (d.setScope c s b).sec = d.sec := Dev.setScope_keep Dev.sec (fun _ _ => rfl) (fun _ _ => rfl) (fun _ _ => rfl) d c s b
@[simp] theorem Dev.setScope_boot (d : Dev) (c : Scope) (s b : Nat) : (d.setScope c s b).boot = d.boot := Dev.setScope_keep Dev.boot (fun _ _ => rfl) (fun _ _ => rfl) (fun _ _ => rfl) d c s b
@[simp] theorem Dev.setScope_feed (d : Dev) (c : Scope) (s b : Nat) : (d.setScope c s b).feed = d.feed := Dev.setScope_keep Dev.feed (fun _ _ => rfl) (fun _ _ => rfl) (fun _ _ => rfl) d c s b
@[simp] theorem Dev.setScope_queues (d : Dev) (c : Scope) (s b : Nat) : (d.setScope c s b).queues = d.queues := Dev.setScope_keep Dev.queues (fun _ _ => rfl) (fun _ _ => rfl) (fun _ _ => rfl) d c s b
@[simp] theorem Dev.setScope_slots (d : Dev) (c : Scope) (s b : Nat) : (d.setScope c s b).slots = d.slots := Dev.setScope_keep Dev.slots (fun _ _ => rfl) (fun _ _ => rfl) (fun _ _ => rfl) d c s b
@[simp] theorem Dev.setScope_tiles (d : Dev) (c : Scope) (s b : Nat) : (d.setScope c s b).tiles = d.tiles := Dev.setScope_keep Dev.tiles (fun _ _ => rfl) (fun _ _ => rfl) (fun _ _ => rfl) d c s b
@[simp] theorem Dev.setScope_insts (d : Dev) (c : Scope) (s b : Nat) : (d.setScope c s b).insts = d.insts := Dev.setScope_keep Dev.insts (fun _ _ => rfl) (fun _ _ => rfl) (fun _ _ => rfl) d c s b
@[simp] theorem Dev.setScope_products (d : Dev) (c : Scope) (s b : Nat) : (d.setScope c s b).products = d.products := Dev.setScope_keep Dev.products (fun _ _ => rfl) (fun _ _ => rfl) (fun _ _ => rfl) d c s b
@[simp] theorem Dev.setScope_img0 (d : Dev) (c : Scope) (s b : Nat) : (d.setScope c s b).img0 = d.img0 := Dev.setScope_keep Dev.img0 (fun _ _ => rfl) (fun _ _ => rfl) (fun _ _ => rfl) d c s b
@[simp] theorem Dev.setScope_img1 (d : Dev) (c : Scope) (s b : Nat) : (d.setScope c s b).img1 = d.img1 := Dev.setScope_keep Dev.img1 (fun _ _ => rfl) (fun _ _ => rfl) (fun _ _ => rfl) d c s b
@[simp] theorem Dev.setScope_stage0 (d : Dev) (c : Scope) (s b : Nat) : (d.setScope c s b).stage0 = d.stage0 := Dev.setScope_keep Dev.stage0 (fun _ _ => rfl) (fun _ _ => rfl) (fun _ _ => rfl) d c s b
@[simp] theorem Dev.setScope_stage1 (d : Dev) (c : Scope) (s b : Nat) : (d.setScope c s b).stage1 = d.stage1 := Dev.setScope_keep Dev.stage1 (fun _ _ => rfl) (fun _ _ => rfl) (fun _ _ => rfl) d c s b
@[simp] theorem Dev.setScope_net (d : Dev) (c : Scope) (s b : Nat) : (d.setScope c s b).net = d.net := Dev.setScope_keep Dev.net (fun _ _ => rfl) (fun _ _ => rfl) (fun _ _ => rfl) d c s b
@[simp] theorem Dev.setScope_faults (d : Dev) (c : Scope) (s b : Nat) : (d.setScope c s b).faults = d.faults := Dev.setScope_keep Dev.faults (fun _ _ => rfl) (fun _ _ => rfl) (fun _ _ => rfl) d c s b
@[simp] theorem Dev.setScope_heldW (d : Dev) (c : Scope) (s b : Nat) : (d.setScope c s b).heldW = d.heldW := Dev.setScope_keep Dev.heldW (fun _ _ => rfl) (fun _ _ => rfl) (fun _ _ => rfl) d c s b
@[simp] theorem Dev.setScope_heldE (d : Dev) (c : Scope) (s b : Nat) : (d.setScope c s b).heldE = d.heldE := Dev.setScope_keep Dev.heldE (fun _ _ => rfl) (fun _ _ => rfl) (fun _ _ => rfl) d c s b
@[simp] theorem Dev.setScope_refetch (d : Dev) (c : Scope) (s b : Nat) : (d.setScope c s b).refetch = d.refetch := Dev.setScope_keep Dev.refetch (fun _ _ => rfl) (fun _ _ => rfl) (fun _ _ => rfl) d c s b
@[simp] theorem Dev.setScope_refetched (d : Dev) (c : Scope) (s b : Nat) : (d.setScope c s b).refetched = d.refetched := Dev.setScope_keep Dev.refetched (fun _ _ => rfl) (fun _ _ => rfl) (fun _ _ => rfl) d c s b
@[simp] theorem Dev.setScope_ports (d : Dev) (c : Scope) (s b : Nat) : (d.setScope c s b).ports = d.ports := Dev.setScope_keep Dev.ports (fun _ _ => rfl) (fun _ _ => rfl) (fun _ _ => rfl) d c s b
@[simp] theorem Dev.setScope_fab (d : Dev) (c : Scope) (s b : Nat) : (d.setScope c s b).fab = d.fab := Dev.setScope_keep Dev.fab (fun _ _ => rfl) (fun _ _ => rfl) (fun _ _ => rfl) d c s b
@[simp] theorem Dev.setScope_step0 (d : Dev) (c : Scope) (s b : Nat) : (d.setScope c s b).step0 = d.step0 := Dev.setScope_keep Dev.step0 (fun _ _ => rfl) (fun _ _ => rfl) (fun _ _ => rfl) d c s b
@[simp] theorem Dev.setScope_step1 (d : Dev) (c : Scope) (s b : Nat) : (d.setScope c s b).step1 = d.step1 := Dev.setScope_keep Dev.step1 (fun _ _ => rfl) (fun _ _ => rfl) (fun _ _ => rfl) d c s b
@[simp] theorem Dev.setScope_upd (d : Dev) (c : Scope) (s b : Nat) : (d.setScope c s b).upd = d.upd := Dev.setScope_keep Dev.upd (fun _ _ => rfl) (fun _ _ => rfl) (fun _ _ => rfl) d c s b
@[simp] theorem Dev.setScope_srv (d : Dev) (c : Scope) (s b : Nat) : (d.setScope c s b).srv = d.srv := Dev.setScope_keep Dev.srv (fun _ _ => rfl) (fun _ _ => rfl) (fun _ _ => rfl) d c s b
@[simp] theorem Dev.setScope_free (d : Dev) (c : Scope) (s b : Nat) : (d.setScope c s b).free = d.free := Dev.setScope_keep Dev.free (fun _ _ => rfl) (fun _ _ => rfl) (fun _ _ => rfl) d c s b

/-! ## Memory -/

@[simp] theorem Dev.poke_regs (d : Dev) (a : Nat) (bs : List Byte) : (d.poke a bs).regs = d.regs := rfl
@[simp] theorem Dev.poke_pw (d : Dev) (a : Nat) (bs : List Byte) : (d.poke a bs).pw = d.pw := rfl
@[simp] theorem Dev.poke_tally (d : Dev) (a : Nat) (bs : List Byte) : (d.poke a bs).tally = d.tally := rfl
@[simp] theorem Dev.poke_led0 (d : Dev) (a : Nat) (bs : List Byte) : (d.poke a bs).led0 = d.led0 := rfl
@[simp] theorem Dev.poke_led1 (d : Dev) (a : Nat) (bs : List Byte) : (d.poke a bs).led1 = d.led1 := rfl
@[simp] theorem Dev.poke_mg (d : Dev) (a : Nat) (bs : List Byte) : (d.poke a bs).mg = d.mg := rfl
@[simp] theorem Dev.poke_sec (d : Dev) (a : Nat) (bs : List Byte) : (d.poke a bs).sec = d.sec := rfl
@[simp] theorem Dev.poke_boot (d : Dev) (a : Nat) (bs : List Byte) : (d.poke a bs).boot = d.boot := rfl
@[simp] theorem Dev.poke_feed (d : Dev) (a : Nat) (bs : List Byte) : (d.poke a bs).feed = d.feed := rfl
@[simp] theorem Dev.poke_queues (d : Dev) (a : Nat) (bs : List Byte) : (d.poke a bs).queues = d.queues := rfl
@[simp] theorem Dev.poke_slots (d : Dev) (a : Nat) (bs : List Byte) : (d.poke a bs).slots = d.slots := rfl
@[simp] theorem Dev.poke_tiles (d : Dev) (a : Nat) (bs : List Byte) : (d.poke a bs).tiles = d.tiles := rfl
@[simp] theorem Dev.poke_insts (d : Dev) (a : Nat) (bs : List Byte) : (d.poke a bs).insts = d.insts := rfl
@[simp] theorem Dev.poke_products (d : Dev) (a : Nat) (bs : List Byte) : (d.poke a bs).products = d.products := rfl
@[simp] theorem Dev.poke_img0 (d : Dev) (a : Nat) (bs : List Byte) : (d.poke a bs).img0 = d.img0 := rfl
@[simp] theorem Dev.poke_img1 (d : Dev) (a : Nat) (bs : List Byte) : (d.poke a bs).img1 = d.img1 := rfl
@[simp] theorem Dev.poke_stage0 (d : Dev) (a : Nat) (bs : List Byte) : (d.poke a bs).stage0 = d.stage0 := rfl
@[simp] theorem Dev.poke_stage1 (d : Dev) (a : Nat) (bs : List Byte) : (d.poke a bs).stage1 = d.stage1 := rfl
@[simp] theorem Dev.poke_net (d : Dev) (a : Nat) (bs : List Byte) : (d.poke a bs).net = d.net := rfl
@[simp] theorem Dev.poke_faults (d : Dev) (a : Nat) (bs : List Byte) : (d.poke a bs).faults = d.faults := rfl
@[simp] theorem Dev.poke_heldW (d : Dev) (a : Nat) (bs : List Byte) : (d.poke a bs).heldW = d.heldW := rfl
@[simp] theorem Dev.poke_heldE (d : Dev) (a : Nat) (bs : List Byte) : (d.poke a bs).heldE = d.heldE := rfl
@[simp] theorem Dev.poke_refetch (d : Dev) (a : Nat) (bs : List Byte) : (d.poke a bs).refetch = d.refetch := rfl
@[simp] theorem Dev.poke_refetched (d : Dev) (a : Nat) (bs : List Byte) : (d.poke a bs).refetched = d.refetched := rfl
@[simp] theorem Dev.poke_ports (d : Dev) (a : Nat) (bs : List Byte) : (d.poke a bs).ports = d.ports := rfl
@[simp] theorem Dev.poke_fab (d : Dev) (a : Nat) (bs : List Byte) : (d.poke a bs).fab = d.fab := rfl
@[simp] theorem Dev.poke_step0 (d : Dev) (a : Nat) (bs : List Byte) : (d.poke a bs).step0 = d.step0 := rfl
@[simp] theorem Dev.poke_step1 (d : Dev) (a : Nat) (bs : List Byte) : (d.poke a bs).step1 = d.step1 := rfl
@[simp] theorem Dev.poke_upd (d : Dev) (a : Nat) (bs : List Byte) : (d.poke a bs).upd = d.upd := rfl
@[simp] theorem Dev.poke_srv (d : Dev) (a : Nat) (bs : List Byte) : (d.poke a bs).srv = d.srv := rfl
@[simp] theorem Dev.poke_out (d : Dev) (a : Nat) (bs : List Byte) : (d.poke a bs).out = d.out := rfl
@[simp] theorem Dev.poke_free (d : Dev) (a : Nat) (bs : List Byte) : (d.poke a bs).free = d.free := rfl
@[simp] theorem Dev.pokePoison_regs (d : Dev) (a : Nat) : (d.pokePoison a).regs = d.regs := rfl
@[simp] theorem Dev.pokePoison_pw (d : Dev) (a : Nat) : (d.pokePoison a).pw = d.pw := rfl
@[simp] theorem Dev.pokePoison_tally (d : Dev) (a : Nat) : (d.pokePoison a).tally = d.tally := rfl
@[simp] theorem Dev.pokePoison_led0 (d : Dev) (a : Nat) : (d.pokePoison a).led0 = d.led0 := rfl
@[simp] theorem Dev.pokePoison_led1 (d : Dev) (a : Nat) : (d.pokePoison a).led1 = d.led1 := rfl
@[simp] theorem Dev.pokePoison_mg (d : Dev) (a : Nat) : (d.pokePoison a).mg = d.mg := rfl
@[simp] theorem Dev.pokePoison_sec (d : Dev) (a : Nat) : (d.pokePoison a).sec = d.sec := rfl
@[simp] theorem Dev.pokePoison_boot (d : Dev) (a : Nat) : (d.pokePoison a).boot = d.boot := rfl
@[simp] theorem Dev.pokePoison_feed (d : Dev) (a : Nat) : (d.pokePoison a).feed = d.feed := rfl
@[simp] theorem Dev.pokePoison_queues (d : Dev) (a : Nat) : (d.pokePoison a).queues = d.queues := rfl
@[simp] theorem Dev.pokePoison_slots (d : Dev) (a : Nat) : (d.pokePoison a).slots = d.slots := rfl
@[simp] theorem Dev.pokePoison_tiles (d : Dev) (a : Nat) : (d.pokePoison a).tiles = d.tiles := rfl
@[simp] theorem Dev.pokePoison_insts (d : Dev) (a : Nat) : (d.pokePoison a).insts = d.insts := rfl
@[simp] theorem Dev.pokePoison_products (d : Dev) (a : Nat) : (d.pokePoison a).products = d.products := rfl
@[simp] theorem Dev.pokePoison_img0 (d : Dev) (a : Nat) : (d.pokePoison a).img0 = d.img0 := rfl
@[simp] theorem Dev.pokePoison_img1 (d : Dev) (a : Nat) : (d.pokePoison a).img1 = d.img1 := rfl
@[simp] theorem Dev.pokePoison_stage0 (d : Dev) (a : Nat) : (d.pokePoison a).stage0 = d.stage0 := rfl
@[simp] theorem Dev.pokePoison_stage1 (d : Dev) (a : Nat) : (d.pokePoison a).stage1 = d.stage1 := rfl
@[simp] theorem Dev.pokePoison_net (d : Dev) (a : Nat) : (d.pokePoison a).net = d.net := rfl
@[simp] theorem Dev.pokePoison_faults (d : Dev) (a : Nat) : (d.pokePoison a).faults = d.faults := rfl
@[simp] theorem Dev.pokePoison_heldW (d : Dev) (a : Nat) : (d.pokePoison a).heldW = d.heldW := rfl
@[simp] theorem Dev.pokePoison_heldE (d : Dev) (a : Nat) : (d.pokePoison a).heldE = d.heldE := rfl
@[simp] theorem Dev.pokePoison_refetch (d : Dev) (a : Nat) : (d.pokePoison a).refetch = d.refetch := rfl
@[simp] theorem Dev.pokePoison_refetched (d : Dev) (a : Nat) : (d.pokePoison a).refetched = d.refetched := rfl
@[simp] theorem Dev.pokePoison_ports (d : Dev) (a : Nat) : (d.pokePoison a).ports = d.ports := rfl
@[simp] theorem Dev.pokePoison_fab (d : Dev) (a : Nat) : (d.pokePoison a).fab = d.fab := rfl
@[simp] theorem Dev.pokePoison_step0 (d : Dev) (a : Nat) : (d.pokePoison a).step0 = d.step0 := rfl
@[simp] theorem Dev.pokePoison_step1 (d : Dev) (a : Nat) : (d.pokePoison a).step1 = d.step1 := rfl
@[simp] theorem Dev.pokePoison_upd (d : Dev) (a : Nat) : (d.pokePoison a).upd = d.upd := rfl
@[simp] theorem Dev.pokePoison_srv (d : Dev) (a : Nat) : (d.pokePoison a).srv = d.srv := rfl
@[simp] theorem Dev.pokePoison_out (d : Dev) (a : Nat) : (d.pokePoison a).out = d.out := rfl
@[simp] theorem Dev.pokePoison_free (d : Dev) (a : Nat) : (d.pokePoison a).free = d.free := rfl
@[simp] theorem Dev.zeroRange_regs (d : Dev) (lo hi : Nat) : (d.zeroRange lo hi).regs = d.regs := rfl
@[simp] theorem Dev.zeroRange_pw (d : Dev) (lo hi : Nat) : (d.zeroRange lo hi).pw = d.pw := rfl
@[simp] theorem Dev.zeroRange_tally (d : Dev) (lo hi : Nat) : (d.zeroRange lo hi).tally = d.tally := rfl
@[simp] theorem Dev.zeroRange_led0 (d : Dev) (lo hi : Nat) : (d.zeroRange lo hi).led0 = d.led0 := rfl
@[simp] theorem Dev.zeroRange_led1 (d : Dev) (lo hi : Nat) : (d.zeroRange lo hi).led1 = d.led1 := rfl
@[simp] theorem Dev.zeroRange_mg (d : Dev) (lo hi : Nat) : (d.zeroRange lo hi).mg = d.mg := rfl
@[simp] theorem Dev.zeroRange_sec (d : Dev) (lo hi : Nat) : (d.zeroRange lo hi).sec = d.sec := rfl
@[simp] theorem Dev.zeroRange_boot (d : Dev) (lo hi : Nat) : (d.zeroRange lo hi).boot = d.boot := rfl
@[simp] theorem Dev.zeroRange_feed (d : Dev) (lo hi : Nat) : (d.zeroRange lo hi).feed = d.feed := rfl
@[simp] theorem Dev.zeroRange_queues (d : Dev) (lo hi : Nat) : (d.zeroRange lo hi).queues = d.queues := rfl
@[simp] theorem Dev.zeroRange_slots (d : Dev) (lo hi : Nat) : (d.zeroRange lo hi).slots = d.slots := rfl
@[simp] theorem Dev.zeroRange_tiles (d : Dev) (lo hi : Nat) : (d.zeroRange lo hi).tiles = d.tiles := rfl
@[simp] theorem Dev.zeroRange_insts (d : Dev) (lo hi : Nat) : (d.zeroRange lo hi).insts = d.insts := rfl
@[simp] theorem Dev.zeroRange_products (d : Dev) (lo hi : Nat) : (d.zeroRange lo hi).products = d.products := rfl
@[simp] theorem Dev.zeroRange_img0 (d : Dev) (lo hi : Nat) : (d.zeroRange lo hi).img0 = d.img0 := rfl
@[simp] theorem Dev.zeroRange_img1 (d : Dev) (lo hi : Nat) : (d.zeroRange lo hi).img1 = d.img1 := rfl
@[simp] theorem Dev.zeroRange_stage0 (d : Dev) (lo hi : Nat) : (d.zeroRange lo hi).stage0 = d.stage0 := rfl
@[simp] theorem Dev.zeroRange_stage1 (d : Dev) (lo hi : Nat) : (d.zeroRange lo hi).stage1 = d.stage1 := rfl
@[simp] theorem Dev.zeroRange_net (d : Dev) (lo hi : Nat) : (d.zeroRange lo hi).net = d.net := rfl
@[simp] theorem Dev.zeroRange_faults (d : Dev) (lo hi : Nat) : (d.zeroRange lo hi).faults = d.faults := rfl
@[simp] theorem Dev.zeroRange_heldW (d : Dev) (lo hi : Nat) : (d.zeroRange lo hi).heldW = d.heldW := rfl
@[simp] theorem Dev.zeroRange_heldE (d : Dev) (lo hi : Nat) : (d.zeroRange lo hi).heldE = d.heldE := rfl
@[simp] theorem Dev.zeroRange_refetch (d : Dev) (lo hi : Nat) : (d.zeroRange lo hi).refetch = d.refetch := rfl
@[simp] theorem Dev.zeroRange_refetched (d : Dev) (lo hi : Nat) : (d.zeroRange lo hi).refetched = d.refetched := rfl
@[simp] theorem Dev.zeroRange_ports (d : Dev) (lo hi : Nat) : (d.zeroRange lo hi).ports = d.ports := rfl
@[simp] theorem Dev.zeroRange_fab (d : Dev) (lo hi : Nat) : (d.zeroRange lo hi).fab = d.fab := rfl
@[simp] theorem Dev.zeroRange_step0 (d : Dev) (lo hi : Nat) : (d.zeroRange lo hi).step0 = d.step0 := rfl
@[simp] theorem Dev.zeroRange_step1 (d : Dev) (lo hi : Nat) : (d.zeroRange lo hi).step1 = d.step1 := rfl
@[simp] theorem Dev.zeroRange_upd (d : Dev) (lo hi : Nat) : (d.zeroRange lo hi).upd = d.upd := rfl
@[simp] theorem Dev.zeroRange_srv (d : Dev) (lo hi : Nat) : (d.zeroRange lo hi).srv = d.srv := rfl
@[simp] theorem Dev.zeroRange_out (d : Dev) (lo hi : Nat) : (d.zeroRange lo hi).out = d.out := rfl
@[simp] theorem Dev.zeroRange_free (d : Dev) (lo hi : Nat) : (d.zeroRange lo hi).free = d.free := rfl

theorem Dev.poke_keep {β : Type} (g : Dev → β) (hmem : ∀ d x, g { d with mem := x } = g d)
    (hpoison : ∀ d x, g { d with poison := x } = g d) (d : Dev) (a : Nat) (bs : List Byte) : g (d.poke a bs) = g d :=
  (hpoison { d with mem := memPutBytes d.mem a bs } _).trans (hmem d _)
theorem Dev.pokePoison_keep {β : Type} (g : Dev → β) (hmem : ∀ d x, g { d with mem := x } = g d)
    (hpoison : ∀ d x, g { d with poison := x } = g d) (d : Dev) (a : Nat) : g (d.pokePoison a) = g d :=
  (hpoison { d with mem := memClear d.mem (a / 8 * 8) (a / 8 * 8 + 8) } _).trans (hmem d _)

/-- Every part of the device that does not see mem, poison is kept. -/
theorem Dev.pokePoisons_keep {β : Type} (g : Dev → β) (hmem : ∀ d x, g { d with mem := x } = g d) (hpoison : ∀ d x, g { d with poison := x } = g d) (d : Dev) (a n : Nat) :
    g (d.pokePoisons a n) = g d := by
  induction n generalizing d a with
  | zero => rfl
  | succ n ih => exact (ih _ _).trans (Dev.pokePoison_keep g hmem hpoison d a)
@[simp] theorem Dev.pokePoisons_regs (d : Dev) (a n : Nat) : (d.pokePoisons a n).regs = d.regs := Dev.pokePoisons_keep Dev.regs (fun _ _ => rfl) (fun _ _ => rfl) d a n
@[simp] theorem Dev.pokePoisons_pw (d : Dev) (a n : Nat) : (d.pokePoisons a n).pw = d.pw := Dev.pokePoisons_keep Dev.pw (fun _ _ => rfl) (fun _ _ => rfl) d a n
@[simp] theorem Dev.pokePoisons_tally (d : Dev) (a n : Nat) : (d.pokePoisons a n).tally = d.tally := Dev.pokePoisons_keep Dev.tally (fun _ _ => rfl) (fun _ _ => rfl) d a n
@[simp] theorem Dev.pokePoisons_led0 (d : Dev) (a n : Nat) : (d.pokePoisons a n).led0 = d.led0 := Dev.pokePoisons_keep Dev.led0 (fun _ _ => rfl) (fun _ _ => rfl) d a n
@[simp] theorem Dev.pokePoisons_led1 (d : Dev) (a n : Nat) : (d.pokePoisons a n).led1 = d.led1 := Dev.pokePoisons_keep Dev.led1 (fun _ _ => rfl) (fun _ _ => rfl) d a n
@[simp] theorem Dev.pokePoisons_mg (d : Dev) (a n : Nat) : (d.pokePoisons a n).mg = d.mg := Dev.pokePoisons_keep Dev.mg (fun _ _ => rfl) (fun _ _ => rfl) d a n
@[simp] theorem Dev.pokePoisons_sec (d : Dev) (a n : Nat) : (d.pokePoisons a n).sec = d.sec := Dev.pokePoisons_keep Dev.sec (fun _ _ => rfl) (fun _ _ => rfl) d a n
@[simp] theorem Dev.pokePoisons_boot (d : Dev) (a n : Nat) : (d.pokePoisons a n).boot = d.boot := Dev.pokePoisons_keep Dev.boot (fun _ _ => rfl) (fun _ _ => rfl) d a n
@[simp] theorem Dev.pokePoisons_feed (d : Dev) (a n : Nat) : (d.pokePoisons a n).feed = d.feed := Dev.pokePoisons_keep Dev.feed (fun _ _ => rfl) (fun _ _ => rfl) d a n
@[simp] theorem Dev.pokePoisons_queues (d : Dev) (a n : Nat) : (d.pokePoisons a n).queues = d.queues := Dev.pokePoisons_keep Dev.queues (fun _ _ => rfl) (fun _ _ => rfl) d a n
@[simp] theorem Dev.pokePoisons_slots (d : Dev) (a n : Nat) : (d.pokePoisons a n).slots = d.slots := Dev.pokePoisons_keep Dev.slots (fun _ _ => rfl) (fun _ _ => rfl) d a n
@[simp] theorem Dev.pokePoisons_tiles (d : Dev) (a n : Nat) : (d.pokePoisons a n).tiles = d.tiles := Dev.pokePoisons_keep Dev.tiles (fun _ _ => rfl) (fun _ _ => rfl) d a n
@[simp] theorem Dev.pokePoisons_insts (d : Dev) (a n : Nat) : (d.pokePoisons a n).insts = d.insts := Dev.pokePoisons_keep Dev.insts (fun _ _ => rfl) (fun _ _ => rfl) d a n
@[simp] theorem Dev.pokePoisons_products (d : Dev) (a n : Nat) : (d.pokePoisons a n).products = d.products := Dev.pokePoisons_keep Dev.products (fun _ _ => rfl) (fun _ _ => rfl) d a n
@[simp] theorem Dev.pokePoisons_img0 (d : Dev) (a n : Nat) : (d.pokePoisons a n).img0 = d.img0 := Dev.pokePoisons_keep Dev.img0 (fun _ _ => rfl) (fun _ _ => rfl) d a n
@[simp] theorem Dev.pokePoisons_img1 (d : Dev) (a n : Nat) : (d.pokePoisons a n).img1 = d.img1 := Dev.pokePoisons_keep Dev.img1 (fun _ _ => rfl) (fun _ _ => rfl) d a n
@[simp] theorem Dev.pokePoisons_stage0 (d : Dev) (a n : Nat) : (d.pokePoisons a n).stage0 = d.stage0 := Dev.pokePoisons_keep Dev.stage0 (fun _ _ => rfl) (fun _ _ => rfl) d a n
@[simp] theorem Dev.pokePoisons_stage1 (d : Dev) (a n : Nat) : (d.pokePoisons a n).stage1 = d.stage1 := Dev.pokePoisons_keep Dev.stage1 (fun _ _ => rfl) (fun _ _ => rfl) d a n
@[simp] theorem Dev.pokePoisons_net (d : Dev) (a n : Nat) : (d.pokePoisons a n).net = d.net := Dev.pokePoisons_keep Dev.net (fun _ _ => rfl) (fun _ _ => rfl) d a n
@[simp] theorem Dev.pokePoisons_faults (d : Dev) (a n : Nat) : (d.pokePoisons a n).faults = d.faults := Dev.pokePoisons_keep Dev.faults (fun _ _ => rfl) (fun _ _ => rfl) d a n
@[simp] theorem Dev.pokePoisons_heldW (d : Dev) (a n : Nat) : (d.pokePoisons a n).heldW = d.heldW := Dev.pokePoisons_keep Dev.heldW (fun _ _ => rfl) (fun _ _ => rfl) d a n
@[simp] theorem Dev.pokePoisons_heldE (d : Dev) (a n : Nat) : (d.pokePoisons a n).heldE = d.heldE := Dev.pokePoisons_keep Dev.heldE (fun _ _ => rfl) (fun _ _ => rfl) d a n
@[simp] theorem Dev.pokePoisons_refetch (d : Dev) (a n : Nat) : (d.pokePoisons a n).refetch = d.refetch := Dev.pokePoisons_keep Dev.refetch (fun _ _ => rfl) (fun _ _ => rfl) d a n
@[simp] theorem Dev.pokePoisons_refetched (d : Dev) (a n : Nat) : (d.pokePoisons a n).refetched = d.refetched := Dev.pokePoisons_keep Dev.refetched (fun _ _ => rfl) (fun _ _ => rfl) d a n
@[simp] theorem Dev.pokePoisons_ports (d : Dev) (a n : Nat) : (d.pokePoisons a n).ports = d.ports := Dev.pokePoisons_keep Dev.ports (fun _ _ => rfl) (fun _ _ => rfl) d a n
@[simp] theorem Dev.pokePoisons_fab (d : Dev) (a n : Nat) : (d.pokePoisons a n).fab = d.fab := Dev.pokePoisons_keep Dev.fab (fun _ _ => rfl) (fun _ _ => rfl) d a n
@[simp] theorem Dev.pokePoisons_step0 (d : Dev) (a n : Nat) : (d.pokePoisons a n).step0 = d.step0 := Dev.pokePoisons_keep Dev.step0 (fun _ _ => rfl) (fun _ _ => rfl) d a n
@[simp] theorem Dev.pokePoisons_step1 (d : Dev) (a n : Nat) : (d.pokePoisons a n).step1 = d.step1 := Dev.pokePoisons_keep Dev.step1 (fun _ _ => rfl) (fun _ _ => rfl) d a n
@[simp] theorem Dev.pokePoisons_upd (d : Dev) (a n : Nat) : (d.pokePoisons a n).upd = d.upd := Dev.pokePoisons_keep Dev.upd (fun _ _ => rfl) (fun _ _ => rfl) d a n
@[simp] theorem Dev.pokePoisons_srv (d : Dev) (a n : Nat) : (d.pokePoisons a n).srv = d.srv := Dev.pokePoisons_keep Dev.srv (fun _ _ => rfl) (fun _ _ => rfl) d a n
@[simp] theorem Dev.pokePoisons_out (d : Dev) (a n : Nat) : (d.pokePoisons a n).out = d.out := Dev.pokePoisons_keep Dev.out (fun _ _ => rfl) (fun _ _ => rfl) d a n
@[simp] theorem Dev.pokePoisons_free (d : Dev) (a n : Nat) : (d.pokePoisons a n).free = d.free := Dev.pokePoisons_keep Dev.free (fun _ _ => rfl) (fun _ _ => rfl) d a n

/-- Every part of the device that does not see regs is kept. -/
theorem Dev.countStk_keep {β : Type} (g : Dev → β) (hregs : ∀ d x, g { d with regs := x } = g d) (d : Dev) (a n : Nat) (w : Bool) :
    g (d.countStk a n w) = g d := by
  unfold Dev.countStk; split <;> [exact hregs d _; rfl]
@[simp] theorem Dev.countStk_mem (d : Dev) (a n : Nat) (w : Bool) : (d.countStk a n w).mem = d.mem := Dev.countStk_keep Dev.mem (fun _ _ => rfl) d a n w
@[simp] theorem Dev.countStk_poison (d : Dev) (a n : Nat) (w : Bool) : (d.countStk a n w).poison = d.poison := Dev.countStk_keep Dev.poison (fun _ _ => rfl) d a n w
@[simp] theorem Dev.countStk_pw (d : Dev) (a n : Nat) (w : Bool) : (d.countStk a n w).pw = d.pw := Dev.countStk_keep Dev.pw (fun _ _ => rfl) d a n w
@[simp] theorem Dev.countStk_tally (d : Dev) (a n : Nat) (w : Bool) : (d.countStk a n w).tally = d.tally := Dev.countStk_keep Dev.tally (fun _ _ => rfl) d a n w
@[simp] theorem Dev.countStk_led0 (d : Dev) (a n : Nat) (w : Bool) : (d.countStk a n w).led0 = d.led0 := Dev.countStk_keep Dev.led0 (fun _ _ => rfl) d a n w
@[simp] theorem Dev.countStk_led1 (d : Dev) (a n : Nat) (w : Bool) : (d.countStk a n w).led1 = d.led1 := Dev.countStk_keep Dev.led1 (fun _ _ => rfl) d a n w
@[simp] theorem Dev.countStk_mg (d : Dev) (a n : Nat) (w : Bool) : (d.countStk a n w).mg = d.mg := Dev.countStk_keep Dev.mg (fun _ _ => rfl) d a n w
@[simp] theorem Dev.countStk_sec (d : Dev) (a n : Nat) (w : Bool) : (d.countStk a n w).sec = d.sec := Dev.countStk_keep Dev.sec (fun _ _ => rfl) d a n w
@[simp] theorem Dev.countStk_boot (d : Dev) (a n : Nat) (w : Bool) : (d.countStk a n w).boot = d.boot := Dev.countStk_keep Dev.boot (fun _ _ => rfl) d a n w
@[simp] theorem Dev.countStk_feed (d : Dev) (a n : Nat) (w : Bool) : (d.countStk a n w).feed = d.feed := Dev.countStk_keep Dev.feed (fun _ _ => rfl) d a n w
@[simp] theorem Dev.countStk_queues (d : Dev) (a n : Nat) (w : Bool) : (d.countStk a n w).queues = d.queues := Dev.countStk_keep Dev.queues (fun _ _ => rfl) d a n w
@[simp] theorem Dev.countStk_slots (d : Dev) (a n : Nat) (w : Bool) : (d.countStk a n w).slots = d.slots := Dev.countStk_keep Dev.slots (fun _ _ => rfl) d a n w
@[simp] theorem Dev.countStk_tiles (d : Dev) (a n : Nat) (w : Bool) : (d.countStk a n w).tiles = d.tiles := Dev.countStk_keep Dev.tiles (fun _ _ => rfl) d a n w
@[simp] theorem Dev.countStk_insts (d : Dev) (a n : Nat) (w : Bool) : (d.countStk a n w).insts = d.insts := Dev.countStk_keep Dev.insts (fun _ _ => rfl) d a n w
@[simp] theorem Dev.countStk_products (d : Dev) (a n : Nat) (w : Bool) : (d.countStk a n w).products = d.products := Dev.countStk_keep Dev.products (fun _ _ => rfl) d a n w
@[simp] theorem Dev.countStk_img0 (d : Dev) (a n : Nat) (w : Bool) : (d.countStk a n w).img0 = d.img0 := Dev.countStk_keep Dev.img0 (fun _ _ => rfl) d a n w
@[simp] theorem Dev.countStk_img1 (d : Dev) (a n : Nat) (w : Bool) : (d.countStk a n w).img1 = d.img1 := Dev.countStk_keep Dev.img1 (fun _ _ => rfl) d a n w
@[simp] theorem Dev.countStk_stage0 (d : Dev) (a n : Nat) (w : Bool) : (d.countStk a n w).stage0 = d.stage0 := Dev.countStk_keep Dev.stage0 (fun _ _ => rfl) d a n w
@[simp] theorem Dev.countStk_stage1 (d : Dev) (a n : Nat) (w : Bool) : (d.countStk a n w).stage1 = d.stage1 := Dev.countStk_keep Dev.stage1 (fun _ _ => rfl) d a n w
@[simp] theorem Dev.countStk_net (d : Dev) (a n : Nat) (w : Bool) : (d.countStk a n w).net = d.net := Dev.countStk_keep Dev.net (fun _ _ => rfl) d a n w
@[simp] theorem Dev.countStk_faults (d : Dev) (a n : Nat) (w : Bool) : (d.countStk a n w).faults = d.faults := Dev.countStk_keep Dev.faults (fun _ _ => rfl) d a n w
@[simp] theorem Dev.countStk_heldW (d : Dev) (a n : Nat) (w : Bool) : (d.countStk a n w).heldW = d.heldW := Dev.countStk_keep Dev.heldW (fun _ _ => rfl) d a n w
@[simp] theorem Dev.countStk_heldE (d : Dev) (a n : Nat) (w : Bool) : (d.countStk a n w).heldE = d.heldE := Dev.countStk_keep Dev.heldE (fun _ _ => rfl) d a n w
@[simp] theorem Dev.countStk_refetch (d : Dev) (a n : Nat) (w : Bool) : (d.countStk a n w).refetch = d.refetch := Dev.countStk_keep Dev.refetch (fun _ _ => rfl) d a n w
@[simp] theorem Dev.countStk_refetched (d : Dev) (a n : Nat) (w : Bool) : (d.countStk a n w).refetched = d.refetched := Dev.countStk_keep Dev.refetched (fun _ _ => rfl) d a n w
@[simp] theorem Dev.countStk_ports (d : Dev) (a n : Nat) (w : Bool) : (d.countStk a n w).ports = d.ports := Dev.countStk_keep Dev.ports (fun _ _ => rfl) d a n w
@[simp] theorem Dev.countStk_fab (d : Dev) (a n : Nat) (w : Bool) : (d.countStk a n w).fab = d.fab := Dev.countStk_keep Dev.fab (fun _ _ => rfl) d a n w
@[simp] theorem Dev.countStk_step0 (d : Dev) (a n : Nat) (w : Bool) : (d.countStk a n w).step0 = d.step0 := Dev.countStk_keep Dev.step0 (fun _ _ => rfl) d a n w
@[simp] theorem Dev.countStk_step1 (d : Dev) (a n : Nat) (w : Bool) : (d.countStk a n w).step1 = d.step1 := Dev.countStk_keep Dev.step1 (fun _ _ => rfl) d a n w
@[simp] theorem Dev.countStk_upd (d : Dev) (a n : Nat) (w : Bool) : (d.countStk a n w).upd = d.upd := Dev.countStk_keep Dev.upd (fun _ _ => rfl) d a n w
@[simp] theorem Dev.countStk_srv (d : Dev) (a n : Nat) (w : Bool) : (d.countStk a n w).srv = d.srv := Dev.countStk_keep Dev.srv (fun _ _ => rfl) d a n w
@[simp] theorem Dev.countStk_out (d : Dev) (a n : Nat) (w : Bool) : (d.countStk a n w).out = d.out := Dev.countStk_keep Dev.out (fun _ _ => rfl) d a n w
@[simp] theorem Dev.countStk_free (d : Dev) (a n : Nat) (w : Bool) : (d.countStk a n w).free = d.free := Dev.countStk_keep Dev.free (fun _ _ => rfl) d a n w

/-- Every part of the device that does not see regs, mem, poison is kept. -/
theorem Dev.store_keep {β : Type} (g : Dev → β) (hregs : ∀ d x, g { d with regs := x } = g d) (hmem : ∀ d x, g { d with mem := x } = g d) (hpoison : ∀ d x, g { d with poison := x } = g d) (d : Dev) (a : Nat) (bs : List Byte) :
    g (d.store a bs) = g d := by
  unfold Dev.store; split
  · rfl
  · exact (Dev.countStk_keep g hregs _ _ _ _).trans (Dev.poke_keep g hmem hpoison d a bs)
@[simp] theorem Dev.store_pw (d : Dev) (a : Nat) (bs : List Byte) : (d.store a bs).pw = d.pw := Dev.store_keep Dev.pw (fun _ _ => rfl) (fun _ _ => rfl) (fun _ _ => rfl) d a bs
@[simp] theorem Dev.store_tally (d : Dev) (a : Nat) (bs : List Byte) : (d.store a bs).tally = d.tally := Dev.store_keep Dev.tally (fun _ _ => rfl) (fun _ _ => rfl) (fun _ _ => rfl) d a bs
@[simp] theorem Dev.store_led0 (d : Dev) (a : Nat) (bs : List Byte) : (d.store a bs).led0 = d.led0 := Dev.store_keep Dev.led0 (fun _ _ => rfl) (fun _ _ => rfl) (fun _ _ => rfl) d a bs
@[simp] theorem Dev.store_led1 (d : Dev) (a : Nat) (bs : List Byte) : (d.store a bs).led1 = d.led1 := Dev.store_keep Dev.led1 (fun _ _ => rfl) (fun _ _ => rfl) (fun _ _ => rfl) d a bs
@[simp] theorem Dev.store_mg (d : Dev) (a : Nat) (bs : List Byte) : (d.store a bs).mg = d.mg := Dev.store_keep Dev.mg (fun _ _ => rfl) (fun _ _ => rfl) (fun _ _ => rfl) d a bs
@[simp] theorem Dev.store_sec (d : Dev) (a : Nat) (bs : List Byte) : (d.store a bs).sec = d.sec := Dev.store_keep Dev.sec (fun _ _ => rfl) (fun _ _ => rfl) (fun _ _ => rfl) d a bs
@[simp] theorem Dev.store_boot (d : Dev) (a : Nat) (bs : List Byte) : (d.store a bs).boot = d.boot := Dev.store_keep Dev.boot (fun _ _ => rfl) (fun _ _ => rfl) (fun _ _ => rfl) d a bs
@[simp] theorem Dev.store_feed (d : Dev) (a : Nat) (bs : List Byte) : (d.store a bs).feed = d.feed := Dev.store_keep Dev.feed (fun _ _ => rfl) (fun _ _ => rfl) (fun _ _ => rfl) d a bs
@[simp] theorem Dev.store_queues (d : Dev) (a : Nat) (bs : List Byte) : (d.store a bs).queues = d.queues := Dev.store_keep Dev.queues (fun _ _ => rfl) (fun _ _ => rfl) (fun _ _ => rfl) d a bs
@[simp] theorem Dev.store_slots (d : Dev) (a : Nat) (bs : List Byte) : (d.store a bs).slots = d.slots := Dev.store_keep Dev.slots (fun _ _ => rfl) (fun _ _ => rfl) (fun _ _ => rfl) d a bs
@[simp] theorem Dev.store_tiles (d : Dev) (a : Nat) (bs : List Byte) : (d.store a bs).tiles = d.tiles := Dev.store_keep Dev.tiles (fun _ _ => rfl) (fun _ _ => rfl) (fun _ _ => rfl) d a bs
@[simp] theorem Dev.store_insts (d : Dev) (a : Nat) (bs : List Byte) : (d.store a bs).insts = d.insts := Dev.store_keep Dev.insts (fun _ _ => rfl) (fun _ _ => rfl) (fun _ _ => rfl) d a bs
@[simp] theorem Dev.store_products (d : Dev) (a : Nat) (bs : List Byte) : (d.store a bs).products = d.products := Dev.store_keep Dev.products (fun _ _ => rfl) (fun _ _ => rfl) (fun _ _ => rfl) d a bs
@[simp] theorem Dev.store_img0 (d : Dev) (a : Nat) (bs : List Byte) : (d.store a bs).img0 = d.img0 := Dev.store_keep Dev.img0 (fun _ _ => rfl) (fun _ _ => rfl) (fun _ _ => rfl) d a bs
@[simp] theorem Dev.store_img1 (d : Dev) (a : Nat) (bs : List Byte) : (d.store a bs).img1 = d.img1 := Dev.store_keep Dev.img1 (fun _ _ => rfl) (fun _ _ => rfl) (fun _ _ => rfl) d a bs
@[simp] theorem Dev.store_stage0 (d : Dev) (a : Nat) (bs : List Byte) : (d.store a bs).stage0 = d.stage0 := Dev.store_keep Dev.stage0 (fun _ _ => rfl) (fun _ _ => rfl) (fun _ _ => rfl) d a bs
@[simp] theorem Dev.store_stage1 (d : Dev) (a : Nat) (bs : List Byte) : (d.store a bs).stage1 = d.stage1 := Dev.store_keep Dev.stage1 (fun _ _ => rfl) (fun _ _ => rfl) (fun _ _ => rfl) d a bs
@[simp] theorem Dev.store_net (d : Dev) (a : Nat) (bs : List Byte) : (d.store a bs).net = d.net := Dev.store_keep Dev.net (fun _ _ => rfl) (fun _ _ => rfl) (fun _ _ => rfl) d a bs
@[simp] theorem Dev.store_faults (d : Dev) (a : Nat) (bs : List Byte) : (d.store a bs).faults = d.faults := Dev.store_keep Dev.faults (fun _ _ => rfl) (fun _ _ => rfl) (fun _ _ => rfl) d a bs
@[simp] theorem Dev.store_heldW (d : Dev) (a : Nat) (bs : List Byte) : (d.store a bs).heldW = d.heldW := Dev.store_keep Dev.heldW (fun _ _ => rfl) (fun _ _ => rfl) (fun _ _ => rfl) d a bs
@[simp] theorem Dev.store_heldE (d : Dev) (a : Nat) (bs : List Byte) : (d.store a bs).heldE = d.heldE := Dev.store_keep Dev.heldE (fun _ _ => rfl) (fun _ _ => rfl) (fun _ _ => rfl) d a bs
@[simp] theorem Dev.store_refetch (d : Dev) (a : Nat) (bs : List Byte) : (d.store a bs).refetch = d.refetch := Dev.store_keep Dev.refetch (fun _ _ => rfl) (fun _ _ => rfl) (fun _ _ => rfl) d a bs
@[simp] theorem Dev.store_refetched (d : Dev) (a : Nat) (bs : List Byte) : (d.store a bs).refetched = d.refetched := Dev.store_keep Dev.refetched (fun _ _ => rfl) (fun _ _ => rfl) (fun _ _ => rfl) d a bs
@[simp] theorem Dev.store_ports (d : Dev) (a : Nat) (bs : List Byte) : (d.store a bs).ports = d.ports := Dev.store_keep Dev.ports (fun _ _ => rfl) (fun _ _ => rfl) (fun _ _ => rfl) d a bs
@[simp] theorem Dev.store_fab (d : Dev) (a : Nat) (bs : List Byte) : (d.store a bs).fab = d.fab := Dev.store_keep Dev.fab (fun _ _ => rfl) (fun _ _ => rfl) (fun _ _ => rfl) d a bs
@[simp] theorem Dev.store_step0 (d : Dev) (a : Nat) (bs : List Byte) : (d.store a bs).step0 = d.step0 := Dev.store_keep Dev.step0 (fun _ _ => rfl) (fun _ _ => rfl) (fun _ _ => rfl) d a bs
@[simp] theorem Dev.store_step1 (d : Dev) (a : Nat) (bs : List Byte) : (d.store a bs).step1 = d.step1 := Dev.store_keep Dev.step1 (fun _ _ => rfl) (fun _ _ => rfl) (fun _ _ => rfl) d a bs
@[simp] theorem Dev.store_upd (d : Dev) (a : Nat) (bs : List Byte) : (d.store a bs).upd = d.upd := Dev.store_keep Dev.upd (fun _ _ => rfl) (fun _ _ => rfl) (fun _ _ => rfl) d a bs
@[simp] theorem Dev.store_srv (d : Dev) (a : Nat) (bs : List Byte) : (d.store a bs).srv = d.srv := Dev.store_keep Dev.srv (fun _ _ => rfl) (fun _ _ => rfl) (fun _ _ => rfl) d a bs
@[simp] theorem Dev.store_out (d : Dev) (a : Nat) (bs : List Byte) : (d.store a bs).out = d.out := Dev.store_keep Dev.out (fun _ _ => rfl) (fun _ _ => rfl) (fun _ _ => rfl) d a bs
@[simp] theorem Dev.store_free (d : Dev) (a : Nat) (bs : List Byte) : (d.store a bs).free = d.free := Dev.store_keep Dev.free (fun _ _ => rfl) (fun _ _ => rfl) (fun _ _ => rfl) d a bs

/-- Every part of the device that does not see regs, mem, poison is kept. -/
theorem Dev.storePoison_keep {β : Type} (g : Dev → β) (hregs : ∀ d x, g { d with regs := x } = g d) (hmem : ∀ d x, g { d with mem := x } = g d) (hpoison : ∀ d x, g { d with poison := x } = g d) (d : Dev) (a n : Nat) :
    g (d.storePoison a n) = g d := by
  unfold Dev.storePoison; split
  · rfl
  · exact (Dev.countStk_keep g hregs _ _ _ _).trans (Dev.pokePoisons_keep g hmem hpoison d a n)

/-- Every part of the device that does not see regs, mem, poison is kept. -/
theorem Dev.writeRow_keep {β : Type} (g : Dev → β) (hregs : ∀ d x, g { d with regs := x } = g d) (hmem : ∀ d x, g { d with mem := x } = g d) (hpoison : ∀ d x, g { d with poison := x } = g d) (d : Dev) (a : Nat) (v : Row) (p : Bool) :
    g (d.writeRow a v p) = g d := by
  unfold Dev.writeRow; split
  · exact Dev.storePoison_keep g hregs hmem hpoison d a 8
  · exact Dev.store_keep g hregs hmem hpoison d a _
@[simp] theorem Dev.writeRow_pw (d : Dev) (a : Nat) (v : Row) (p : Bool) : (d.writeRow a v p).pw = d.pw := Dev.writeRow_keep Dev.pw (fun _ _ => rfl) (fun _ _ => rfl) (fun _ _ => rfl) d a v p
@[simp] theorem Dev.writeRow_tally (d : Dev) (a : Nat) (v : Row) (p : Bool) : (d.writeRow a v p).tally = d.tally := Dev.writeRow_keep Dev.tally (fun _ _ => rfl) (fun _ _ => rfl) (fun _ _ => rfl) d a v p
@[simp] theorem Dev.writeRow_led0 (d : Dev) (a : Nat) (v : Row) (p : Bool) : (d.writeRow a v p).led0 = d.led0 := Dev.writeRow_keep Dev.led0 (fun _ _ => rfl) (fun _ _ => rfl) (fun _ _ => rfl) d a v p
@[simp] theorem Dev.writeRow_led1 (d : Dev) (a : Nat) (v : Row) (p : Bool) : (d.writeRow a v p).led1 = d.led1 := Dev.writeRow_keep Dev.led1 (fun _ _ => rfl) (fun _ _ => rfl) (fun _ _ => rfl) d a v p
@[simp] theorem Dev.writeRow_mg (d : Dev) (a : Nat) (v : Row) (p : Bool) : (d.writeRow a v p).mg = d.mg := Dev.writeRow_keep Dev.mg (fun _ _ => rfl) (fun _ _ => rfl) (fun _ _ => rfl) d a v p
@[simp] theorem Dev.writeRow_sec (d : Dev) (a : Nat) (v : Row) (p : Bool) : (d.writeRow a v p).sec = d.sec := Dev.writeRow_keep Dev.sec (fun _ _ => rfl) (fun _ _ => rfl) (fun _ _ => rfl) d a v p
@[simp] theorem Dev.writeRow_boot (d : Dev) (a : Nat) (v : Row) (p : Bool) : (d.writeRow a v p).boot = d.boot := Dev.writeRow_keep Dev.boot (fun _ _ => rfl) (fun _ _ => rfl) (fun _ _ => rfl) d a v p
@[simp] theorem Dev.writeRow_feed (d : Dev) (a : Nat) (v : Row) (p : Bool) : (d.writeRow a v p).feed = d.feed := Dev.writeRow_keep Dev.feed (fun _ _ => rfl) (fun _ _ => rfl) (fun _ _ => rfl) d a v p
@[simp] theorem Dev.writeRow_queues (d : Dev) (a : Nat) (v : Row) (p : Bool) : (d.writeRow a v p).queues = d.queues := Dev.writeRow_keep Dev.queues (fun _ _ => rfl) (fun _ _ => rfl) (fun _ _ => rfl) d a v p
@[simp] theorem Dev.writeRow_slots (d : Dev) (a : Nat) (v : Row) (p : Bool) : (d.writeRow a v p).slots = d.slots := Dev.writeRow_keep Dev.slots (fun _ _ => rfl) (fun _ _ => rfl) (fun _ _ => rfl) d a v p
@[simp] theorem Dev.writeRow_tiles (d : Dev) (a : Nat) (v : Row) (p : Bool) : (d.writeRow a v p).tiles = d.tiles := Dev.writeRow_keep Dev.tiles (fun _ _ => rfl) (fun _ _ => rfl) (fun _ _ => rfl) d a v p
@[simp] theorem Dev.writeRow_insts (d : Dev) (a : Nat) (v : Row) (p : Bool) : (d.writeRow a v p).insts = d.insts := Dev.writeRow_keep Dev.insts (fun _ _ => rfl) (fun _ _ => rfl) (fun _ _ => rfl) d a v p
@[simp] theorem Dev.writeRow_products (d : Dev) (a : Nat) (v : Row) (p : Bool) : (d.writeRow a v p).products = d.products := Dev.writeRow_keep Dev.products (fun _ _ => rfl) (fun _ _ => rfl) (fun _ _ => rfl) d a v p
@[simp] theorem Dev.writeRow_img0 (d : Dev) (a : Nat) (v : Row) (p : Bool) : (d.writeRow a v p).img0 = d.img0 := Dev.writeRow_keep Dev.img0 (fun _ _ => rfl) (fun _ _ => rfl) (fun _ _ => rfl) d a v p
@[simp] theorem Dev.writeRow_img1 (d : Dev) (a : Nat) (v : Row) (p : Bool) : (d.writeRow a v p).img1 = d.img1 := Dev.writeRow_keep Dev.img1 (fun _ _ => rfl) (fun _ _ => rfl) (fun _ _ => rfl) d a v p
@[simp] theorem Dev.writeRow_stage0 (d : Dev) (a : Nat) (v : Row) (p : Bool) : (d.writeRow a v p).stage0 = d.stage0 := Dev.writeRow_keep Dev.stage0 (fun _ _ => rfl) (fun _ _ => rfl) (fun _ _ => rfl) d a v p
@[simp] theorem Dev.writeRow_stage1 (d : Dev) (a : Nat) (v : Row) (p : Bool) : (d.writeRow a v p).stage1 = d.stage1 := Dev.writeRow_keep Dev.stage1 (fun _ _ => rfl) (fun _ _ => rfl) (fun _ _ => rfl) d a v p
@[simp] theorem Dev.writeRow_net (d : Dev) (a : Nat) (v : Row) (p : Bool) : (d.writeRow a v p).net = d.net := Dev.writeRow_keep Dev.net (fun _ _ => rfl) (fun _ _ => rfl) (fun _ _ => rfl) d a v p
@[simp] theorem Dev.writeRow_faults (d : Dev) (a : Nat) (v : Row) (p : Bool) : (d.writeRow a v p).faults = d.faults := Dev.writeRow_keep Dev.faults (fun _ _ => rfl) (fun _ _ => rfl) (fun _ _ => rfl) d a v p
@[simp] theorem Dev.writeRow_heldW (d : Dev) (a : Nat) (v : Row) (p : Bool) : (d.writeRow a v p).heldW = d.heldW := Dev.writeRow_keep Dev.heldW (fun _ _ => rfl) (fun _ _ => rfl) (fun _ _ => rfl) d a v p
@[simp] theorem Dev.writeRow_heldE (d : Dev) (a : Nat) (v : Row) (p : Bool) : (d.writeRow a v p).heldE = d.heldE := Dev.writeRow_keep Dev.heldE (fun _ _ => rfl) (fun _ _ => rfl) (fun _ _ => rfl) d a v p
@[simp] theorem Dev.writeRow_refetch (d : Dev) (a : Nat) (v : Row) (p : Bool) : (d.writeRow a v p).refetch = d.refetch := Dev.writeRow_keep Dev.refetch (fun _ _ => rfl) (fun _ _ => rfl) (fun _ _ => rfl) d a v p
@[simp] theorem Dev.writeRow_refetched (d : Dev) (a : Nat) (v : Row) (p : Bool) : (d.writeRow a v p).refetched = d.refetched := Dev.writeRow_keep Dev.refetched (fun _ _ => rfl) (fun _ _ => rfl) (fun _ _ => rfl) d a v p
@[simp] theorem Dev.writeRow_ports (d : Dev) (a : Nat) (v : Row) (p : Bool) : (d.writeRow a v p).ports = d.ports := Dev.writeRow_keep Dev.ports (fun _ _ => rfl) (fun _ _ => rfl) (fun _ _ => rfl) d a v p
@[simp] theorem Dev.writeRow_fab (d : Dev) (a : Nat) (v : Row) (p : Bool) : (d.writeRow a v p).fab = d.fab := Dev.writeRow_keep Dev.fab (fun _ _ => rfl) (fun _ _ => rfl) (fun _ _ => rfl) d a v p
@[simp] theorem Dev.writeRow_step0 (d : Dev) (a : Nat) (v : Row) (p : Bool) : (d.writeRow a v p).step0 = d.step0 := Dev.writeRow_keep Dev.step0 (fun _ _ => rfl) (fun _ _ => rfl) (fun _ _ => rfl) d a v p
@[simp] theorem Dev.writeRow_step1 (d : Dev) (a : Nat) (v : Row) (p : Bool) : (d.writeRow a v p).step1 = d.step1 := Dev.writeRow_keep Dev.step1 (fun _ _ => rfl) (fun _ _ => rfl) (fun _ _ => rfl) d a v p
@[simp] theorem Dev.writeRow_upd (d : Dev) (a : Nat) (v : Row) (p : Bool) : (d.writeRow a v p).upd = d.upd := Dev.writeRow_keep Dev.upd (fun _ _ => rfl) (fun _ _ => rfl) (fun _ _ => rfl) d a v p
@[simp] theorem Dev.writeRow_srv (d : Dev) (a : Nat) (v : Row) (p : Bool) : (d.writeRow a v p).srv = d.srv := Dev.writeRow_keep Dev.srv (fun _ _ => rfl) (fun _ _ => rfl) (fun _ _ => rfl) d a v p
@[simp] theorem Dev.writeRow_out (d : Dev) (a : Nat) (v : Row) (p : Bool) : (d.writeRow a v p).out = d.out := Dev.writeRow_keep Dev.out (fun _ _ => rfl) (fun _ _ => rfl) (fun _ _ => rfl) d a v p
@[simp] theorem Dev.writeRow_free (d : Dev) (a : Nat) (v : Row) (p : Bool) : (d.writeRow a v p).free = d.free := Dev.writeRow_keep Dev.free (fun _ _ => rfl) (fun _ _ => rfl) (fun _ _ => rfl) d a v p

/-- Every part of the device that does not see regs, mem, poison is kept. -/
theorem Dev.readWord_keep {β : Type} (g : Dev → β) (hregs : ∀ d x, g { d with regs := x } = g d) (hmem : ∀ d x, g { d with mem := x } = g d) (hpoison : ∀ d x, g { d with poison := x } = g d) (d : Dev) (a : Nat) (e : RdErr) :
    g ((d.readWord a e).2) = g d := by
  unfold Dev.readWord; simp only []
  repeat' split
  all_goals simp only [Dev.event_keep g hregs, Dev.countStk_keep g hregs, Dev.fset_keep g hregs, Dev.pokePoison_keep g hmem hpoison]
@[simp] theorem Dev.readWord_pw (d : Dev) (a : Nat) (e : RdErr) : ((d.readWord a e).2).pw = d.pw := Dev.readWord_keep Dev.pw (fun _ _ => rfl) (fun _ _ => rfl) (fun _ _ => rfl) d a e
@[simp] theorem Dev.readWord_tally (d : Dev) (a : Nat) (e : RdErr) : ((d.readWord a e).2).tally = d.tally := Dev.readWord_keep Dev.tally (fun _ _ => rfl) (fun _ _ => rfl) (fun _ _ => rfl) d a e
@[simp] theorem Dev.readWord_led0 (d : Dev) (a : Nat) (e : RdErr) : ((d.readWord a e).2).led0 = d.led0 := Dev.readWord_keep Dev.led0 (fun _ _ => rfl) (fun _ _ => rfl) (fun _ _ => rfl) d a e
@[simp] theorem Dev.readWord_led1 (d : Dev) (a : Nat) (e : RdErr) : ((d.readWord a e).2).led1 = d.led1 := Dev.readWord_keep Dev.led1 (fun _ _ => rfl) (fun _ _ => rfl) (fun _ _ => rfl) d a e
@[simp] theorem Dev.readWord_mg (d : Dev) (a : Nat) (e : RdErr) : ((d.readWord a e).2).mg = d.mg := Dev.readWord_keep Dev.mg (fun _ _ => rfl) (fun _ _ => rfl) (fun _ _ => rfl) d a e
@[simp] theorem Dev.readWord_sec (d : Dev) (a : Nat) (e : RdErr) : ((d.readWord a e).2).sec = d.sec := Dev.readWord_keep Dev.sec (fun _ _ => rfl) (fun _ _ => rfl) (fun _ _ => rfl) d a e
@[simp] theorem Dev.readWord_boot (d : Dev) (a : Nat) (e : RdErr) : ((d.readWord a e).2).boot = d.boot := Dev.readWord_keep Dev.boot (fun _ _ => rfl) (fun _ _ => rfl) (fun _ _ => rfl) d a e
@[simp] theorem Dev.readWord_feed (d : Dev) (a : Nat) (e : RdErr) : ((d.readWord a e).2).feed = d.feed := Dev.readWord_keep Dev.feed (fun _ _ => rfl) (fun _ _ => rfl) (fun _ _ => rfl) d a e
@[simp] theorem Dev.readWord_queues (d : Dev) (a : Nat) (e : RdErr) : ((d.readWord a e).2).queues = d.queues := Dev.readWord_keep Dev.queues (fun _ _ => rfl) (fun _ _ => rfl) (fun _ _ => rfl) d a e
@[simp] theorem Dev.readWord_slots (d : Dev) (a : Nat) (e : RdErr) : ((d.readWord a e).2).slots = d.slots := Dev.readWord_keep Dev.slots (fun _ _ => rfl) (fun _ _ => rfl) (fun _ _ => rfl) d a e
@[simp] theorem Dev.readWord_tiles (d : Dev) (a : Nat) (e : RdErr) : ((d.readWord a e).2).tiles = d.tiles := Dev.readWord_keep Dev.tiles (fun _ _ => rfl) (fun _ _ => rfl) (fun _ _ => rfl) d a e
@[simp] theorem Dev.readWord_insts (d : Dev) (a : Nat) (e : RdErr) : ((d.readWord a e).2).insts = d.insts := Dev.readWord_keep Dev.insts (fun _ _ => rfl) (fun _ _ => rfl) (fun _ _ => rfl) d a e
@[simp] theorem Dev.readWord_products (d : Dev) (a : Nat) (e : RdErr) : ((d.readWord a e).2).products = d.products := Dev.readWord_keep Dev.products (fun _ _ => rfl) (fun _ _ => rfl) (fun _ _ => rfl) d a e
@[simp] theorem Dev.readWord_img0 (d : Dev) (a : Nat) (e : RdErr) : ((d.readWord a e).2).img0 = d.img0 := Dev.readWord_keep Dev.img0 (fun _ _ => rfl) (fun _ _ => rfl) (fun _ _ => rfl) d a e
@[simp] theorem Dev.readWord_img1 (d : Dev) (a : Nat) (e : RdErr) : ((d.readWord a e).2).img1 = d.img1 := Dev.readWord_keep Dev.img1 (fun _ _ => rfl) (fun _ _ => rfl) (fun _ _ => rfl) d a e
@[simp] theorem Dev.readWord_stage0 (d : Dev) (a : Nat) (e : RdErr) : ((d.readWord a e).2).stage0 = d.stage0 := Dev.readWord_keep Dev.stage0 (fun _ _ => rfl) (fun _ _ => rfl) (fun _ _ => rfl) d a e
@[simp] theorem Dev.readWord_stage1 (d : Dev) (a : Nat) (e : RdErr) : ((d.readWord a e).2).stage1 = d.stage1 := Dev.readWord_keep Dev.stage1 (fun _ _ => rfl) (fun _ _ => rfl) (fun _ _ => rfl) d a e
@[simp] theorem Dev.readWord_net (d : Dev) (a : Nat) (e : RdErr) : ((d.readWord a e).2).net = d.net := Dev.readWord_keep Dev.net (fun _ _ => rfl) (fun _ _ => rfl) (fun _ _ => rfl) d a e
@[simp] theorem Dev.readWord_faults (d : Dev) (a : Nat) (e : RdErr) : ((d.readWord a e).2).faults = d.faults := Dev.readWord_keep Dev.faults (fun _ _ => rfl) (fun _ _ => rfl) (fun _ _ => rfl) d a e
@[simp] theorem Dev.readWord_heldW (d : Dev) (a : Nat) (e : RdErr) : ((d.readWord a e).2).heldW = d.heldW := Dev.readWord_keep Dev.heldW (fun _ _ => rfl) (fun _ _ => rfl) (fun _ _ => rfl) d a e
@[simp] theorem Dev.readWord_heldE (d : Dev) (a : Nat) (e : RdErr) : ((d.readWord a e).2).heldE = d.heldE := Dev.readWord_keep Dev.heldE (fun _ _ => rfl) (fun _ _ => rfl) (fun _ _ => rfl) d a e
@[simp] theorem Dev.readWord_refetch (d : Dev) (a : Nat) (e : RdErr) : ((d.readWord a e).2).refetch = d.refetch := Dev.readWord_keep Dev.refetch (fun _ _ => rfl) (fun _ _ => rfl) (fun _ _ => rfl) d a e
@[simp] theorem Dev.readWord_refetched (d : Dev) (a : Nat) (e : RdErr) : ((d.readWord a e).2).refetched = d.refetched := Dev.readWord_keep Dev.refetched (fun _ _ => rfl) (fun _ _ => rfl) (fun _ _ => rfl) d a e
@[simp] theorem Dev.readWord_ports (d : Dev) (a : Nat) (e : RdErr) : ((d.readWord a e).2).ports = d.ports := Dev.readWord_keep Dev.ports (fun _ _ => rfl) (fun _ _ => rfl) (fun _ _ => rfl) d a e
@[simp] theorem Dev.readWord_fab (d : Dev) (a : Nat) (e : RdErr) : ((d.readWord a e).2).fab = d.fab := Dev.readWord_keep Dev.fab (fun _ _ => rfl) (fun _ _ => rfl) (fun _ _ => rfl) d a e
@[simp] theorem Dev.readWord_step0 (d : Dev) (a : Nat) (e : RdErr) : ((d.readWord a e).2).step0 = d.step0 := Dev.readWord_keep Dev.step0 (fun _ _ => rfl) (fun _ _ => rfl) (fun _ _ => rfl) d a e
@[simp] theorem Dev.readWord_step1 (d : Dev) (a : Nat) (e : RdErr) : ((d.readWord a e).2).step1 = d.step1 := Dev.readWord_keep Dev.step1 (fun _ _ => rfl) (fun _ _ => rfl) (fun _ _ => rfl) d a e
@[simp] theorem Dev.readWord_upd (d : Dev) (a : Nat) (e : RdErr) : ((d.readWord a e).2).upd = d.upd := Dev.readWord_keep Dev.upd (fun _ _ => rfl) (fun _ _ => rfl) (fun _ _ => rfl) d a e
@[simp] theorem Dev.readWord_srv (d : Dev) (a : Nat) (e : RdErr) : ((d.readWord a e).2).srv = d.srv := Dev.readWord_keep Dev.srv (fun _ _ => rfl) (fun _ _ => rfl) (fun _ _ => rfl) d a e
@[simp] theorem Dev.readWord_out (d : Dev) (a : Nat) (e : RdErr) : ((d.readWord a e).2).out = d.out := Dev.readWord_keep Dev.out (fun _ _ => rfl) (fun _ _ => rfl) (fun _ _ => rfl) d a e
@[simp] theorem Dev.readWord_free (d : Dev) (a : Nat) (e : RdErr) : ((d.readWord a e).2).free = d.free := Dev.readWord_keep Dev.free (fun _ _ => rfl) (fun _ _ => rfl) (fun _ _ => rfl) d a e

/-- Every part of the device that does not see regs, mem, poison is kept. -/
theorem Dev.readWords_keep {β : Type} (g : Dev → β) (hregs : ∀ d x, g { d with regs := x } = g d) (hmem : ∀ d x, g { d with mem := x } = g d) (hpoison : ∀ d x, g { d with poison := x } = g d) (d : Dev) (a n : Nat) (es : List RdErr) :
    g ((d.readWords a n es).2) = g d := by
  induction n generalizing d a es with
  | zero => rfl
  | succ n ih => exact (ih _ _ _).trans (Dev.readWord_keep g hregs hmem hpoison d a _)
@[simp] theorem Dev.readWords_pw (d : Dev) (a n : Nat) (es : List RdErr) : ((d.readWords a n es).2).pw = d.pw := Dev.readWords_keep Dev.pw (fun _ _ => rfl) (fun _ _ => rfl) (fun _ _ => rfl) d a n es
@[simp] theorem Dev.readWords_tally (d : Dev) (a n : Nat) (es : List RdErr) : ((d.readWords a n es).2).tally = d.tally := Dev.readWords_keep Dev.tally (fun _ _ => rfl) (fun _ _ => rfl) (fun _ _ => rfl) d a n es
@[simp] theorem Dev.readWords_led0 (d : Dev) (a n : Nat) (es : List RdErr) : ((d.readWords a n es).2).led0 = d.led0 := Dev.readWords_keep Dev.led0 (fun _ _ => rfl) (fun _ _ => rfl) (fun _ _ => rfl) d a n es
@[simp] theorem Dev.readWords_led1 (d : Dev) (a n : Nat) (es : List RdErr) : ((d.readWords a n es).2).led1 = d.led1 := Dev.readWords_keep Dev.led1 (fun _ _ => rfl) (fun _ _ => rfl) (fun _ _ => rfl) d a n es
@[simp] theorem Dev.readWords_mg (d : Dev) (a n : Nat) (es : List RdErr) : ((d.readWords a n es).2).mg = d.mg := Dev.readWords_keep Dev.mg (fun _ _ => rfl) (fun _ _ => rfl) (fun _ _ => rfl) d a n es
@[simp] theorem Dev.readWords_sec (d : Dev) (a n : Nat) (es : List RdErr) : ((d.readWords a n es).2).sec = d.sec := Dev.readWords_keep Dev.sec (fun _ _ => rfl) (fun _ _ => rfl) (fun _ _ => rfl) d a n es
@[simp] theorem Dev.readWords_boot (d : Dev) (a n : Nat) (es : List RdErr) : ((d.readWords a n es).2).boot = d.boot := Dev.readWords_keep Dev.boot (fun _ _ => rfl) (fun _ _ => rfl) (fun _ _ => rfl) d a n es
@[simp] theorem Dev.readWords_feed (d : Dev) (a n : Nat) (es : List RdErr) : ((d.readWords a n es).2).feed = d.feed := Dev.readWords_keep Dev.feed (fun _ _ => rfl) (fun _ _ => rfl) (fun _ _ => rfl) d a n es
@[simp] theorem Dev.readWords_queues (d : Dev) (a n : Nat) (es : List RdErr) : ((d.readWords a n es).2).queues = d.queues := Dev.readWords_keep Dev.queues (fun _ _ => rfl) (fun _ _ => rfl) (fun _ _ => rfl) d a n es
@[simp] theorem Dev.readWords_slots (d : Dev) (a n : Nat) (es : List RdErr) : ((d.readWords a n es).2).slots = d.slots := Dev.readWords_keep Dev.slots (fun _ _ => rfl) (fun _ _ => rfl) (fun _ _ => rfl) d a n es
@[simp] theorem Dev.readWords_tiles (d : Dev) (a n : Nat) (es : List RdErr) : ((d.readWords a n es).2).tiles = d.tiles := Dev.readWords_keep Dev.tiles (fun _ _ => rfl) (fun _ _ => rfl) (fun _ _ => rfl) d a n es
@[simp] theorem Dev.readWords_insts (d : Dev) (a n : Nat) (es : List RdErr) : ((d.readWords a n es).2).insts = d.insts := Dev.readWords_keep Dev.insts (fun _ _ => rfl) (fun _ _ => rfl) (fun _ _ => rfl) d a n es
@[simp] theorem Dev.readWords_products (d : Dev) (a n : Nat) (es : List RdErr) : ((d.readWords a n es).2).products = d.products := Dev.readWords_keep Dev.products (fun _ _ => rfl) (fun _ _ => rfl) (fun _ _ => rfl) d a n es
@[simp] theorem Dev.readWords_img0 (d : Dev) (a n : Nat) (es : List RdErr) : ((d.readWords a n es).2).img0 = d.img0 := Dev.readWords_keep Dev.img0 (fun _ _ => rfl) (fun _ _ => rfl) (fun _ _ => rfl) d a n es
@[simp] theorem Dev.readWords_img1 (d : Dev) (a n : Nat) (es : List RdErr) : ((d.readWords a n es).2).img1 = d.img1 := Dev.readWords_keep Dev.img1 (fun _ _ => rfl) (fun _ _ => rfl) (fun _ _ => rfl) d a n es
@[simp] theorem Dev.readWords_stage0 (d : Dev) (a n : Nat) (es : List RdErr) : ((d.readWords a n es).2).stage0 = d.stage0 := Dev.readWords_keep Dev.stage0 (fun _ _ => rfl) (fun _ _ => rfl) (fun _ _ => rfl) d a n es
@[simp] theorem Dev.readWords_stage1 (d : Dev) (a n : Nat) (es : List RdErr) : ((d.readWords a n es).2).stage1 = d.stage1 := Dev.readWords_keep Dev.stage1 (fun _ _ => rfl) (fun _ _ => rfl) (fun _ _ => rfl) d a n es
@[simp] theorem Dev.readWords_net (d : Dev) (a n : Nat) (es : List RdErr) : ((d.readWords a n es).2).net = d.net := Dev.readWords_keep Dev.net (fun _ _ => rfl) (fun _ _ => rfl) (fun _ _ => rfl) d a n es
@[simp] theorem Dev.readWords_faults (d : Dev) (a n : Nat) (es : List RdErr) : ((d.readWords a n es).2).faults = d.faults := Dev.readWords_keep Dev.faults (fun _ _ => rfl) (fun _ _ => rfl) (fun _ _ => rfl) d a n es
@[simp] theorem Dev.readWords_heldW (d : Dev) (a n : Nat) (es : List RdErr) : ((d.readWords a n es).2).heldW = d.heldW := Dev.readWords_keep Dev.heldW (fun _ _ => rfl) (fun _ _ => rfl) (fun _ _ => rfl) d a n es
@[simp] theorem Dev.readWords_heldE (d : Dev) (a n : Nat) (es : List RdErr) : ((d.readWords a n es).2).heldE = d.heldE := Dev.readWords_keep Dev.heldE (fun _ _ => rfl) (fun _ _ => rfl) (fun _ _ => rfl) d a n es
@[simp] theorem Dev.readWords_refetch (d : Dev) (a n : Nat) (es : List RdErr) : ((d.readWords a n es).2).refetch = d.refetch := Dev.readWords_keep Dev.refetch (fun _ _ => rfl) (fun _ _ => rfl) (fun _ _ => rfl) d a n es
@[simp] theorem Dev.readWords_refetched (d : Dev) (a n : Nat) (es : List RdErr) : ((d.readWords a n es).2).refetched = d.refetched := Dev.readWords_keep Dev.refetched (fun _ _ => rfl) (fun _ _ => rfl) (fun _ _ => rfl) d a n es
@[simp] theorem Dev.readWords_ports (d : Dev) (a n : Nat) (es : List RdErr) : ((d.readWords a n es).2).ports = d.ports := Dev.readWords_keep Dev.ports (fun _ _ => rfl) (fun _ _ => rfl) (fun _ _ => rfl) d a n es
@[simp] theorem Dev.readWords_fab (d : Dev) (a n : Nat) (es : List RdErr) : ((d.readWords a n es).2).fab = d.fab := Dev.readWords_keep Dev.fab (fun _ _ => rfl) (fun _ _ => rfl) (fun _ _ => rfl) d a n es
@[simp] theorem Dev.readWords_step0 (d : Dev) (a n : Nat) (es : List RdErr) : ((d.readWords a n es).2).step0 = d.step0 := Dev.readWords_keep Dev.step0 (fun _ _ => rfl) (fun _ _ => rfl) (fun _ _ => rfl) d a n es
@[simp] theorem Dev.readWords_step1 (d : Dev) (a n : Nat) (es : List RdErr) : ((d.readWords a n es).2).step1 = d.step1 := Dev.readWords_keep Dev.step1 (fun _ _ => rfl) (fun _ _ => rfl) (fun _ _ => rfl) d a n es
@[simp] theorem Dev.readWords_upd (d : Dev) (a n : Nat) (es : List RdErr) : ((d.readWords a n es).2).upd = d.upd := Dev.readWords_keep Dev.upd (fun _ _ => rfl) (fun _ _ => rfl) (fun _ _ => rfl) d a n es
@[simp] theorem Dev.readWords_srv (d : Dev) (a n : Nat) (es : List RdErr) : ((d.readWords a n es).2).srv = d.srv := Dev.readWords_keep Dev.srv (fun _ _ => rfl) (fun _ _ => rfl) (fun _ _ => rfl) d a n es
@[simp] theorem Dev.readWords_out (d : Dev) (a n : Nat) (es : List RdErr) : ((d.readWords a n es).2).out = d.out := Dev.readWords_keep Dev.out (fun _ _ => rfl) (fun _ _ => rfl) (fun _ _ => rfl) d a n es
@[simp] theorem Dev.readWords_free (d : Dev) (a n : Nat) (es : List RdErr) : ((d.readWords a n es).2).free = d.free := Dev.readWords_keep Dev.free (fun _ _ => rfl) (fun _ _ => rfl) (fun _ _ => rfl) d a n es

/-- Every part of the device that does not see regs, mem, poison is kept. -/
theorem Dev.readRow_keep {β : Type} (g : Dev → β) (hregs : ∀ d x, g { d with regs := x } = g d) (hmem : ∀ d x, g { d with mem := x } = g d) (hpoison : ∀ d x, g { d with poison := x } = g d) (d : Dev) (a : Nat) (es : List RdErr) :
    g ((d.readRow a es).2) = g d := by
  unfold Dev.readRow; dsimp only
  exact Dev.readWords_keep g hregs hmem hpoison d a 8 es
@[simp] theorem Dev.readRow_pw (d : Dev) (a : Nat) (es : List RdErr) : ((d.readRow a es).2).pw = d.pw := Dev.readRow_keep Dev.pw (fun _ _ => rfl) (fun _ _ => rfl) (fun _ _ => rfl) d a es
@[simp] theorem Dev.readRow_tally (d : Dev) (a : Nat) (es : List RdErr) : ((d.readRow a es).2).tally = d.tally := Dev.readRow_keep Dev.tally (fun _ _ => rfl) (fun _ _ => rfl) (fun _ _ => rfl) d a es
@[simp] theorem Dev.readRow_led0 (d : Dev) (a : Nat) (es : List RdErr) : ((d.readRow a es).2).led0 = d.led0 := Dev.readRow_keep Dev.led0 (fun _ _ => rfl) (fun _ _ => rfl) (fun _ _ => rfl) d a es
@[simp] theorem Dev.readRow_led1 (d : Dev) (a : Nat) (es : List RdErr) : ((d.readRow a es).2).led1 = d.led1 := Dev.readRow_keep Dev.led1 (fun _ _ => rfl) (fun _ _ => rfl) (fun _ _ => rfl) d a es
@[simp] theorem Dev.readRow_mg (d : Dev) (a : Nat) (es : List RdErr) : ((d.readRow a es).2).mg = d.mg := Dev.readRow_keep Dev.mg (fun _ _ => rfl) (fun _ _ => rfl) (fun _ _ => rfl) d a es
@[simp] theorem Dev.readRow_sec (d : Dev) (a : Nat) (es : List RdErr) : ((d.readRow a es).2).sec = d.sec := Dev.readRow_keep Dev.sec (fun _ _ => rfl) (fun _ _ => rfl) (fun _ _ => rfl) d a es
@[simp] theorem Dev.readRow_boot (d : Dev) (a : Nat) (es : List RdErr) : ((d.readRow a es).2).boot = d.boot := Dev.readRow_keep Dev.boot (fun _ _ => rfl) (fun _ _ => rfl) (fun _ _ => rfl) d a es
@[simp] theorem Dev.readRow_feed (d : Dev) (a : Nat) (es : List RdErr) : ((d.readRow a es).2).feed = d.feed := Dev.readRow_keep Dev.feed (fun _ _ => rfl) (fun _ _ => rfl) (fun _ _ => rfl) d a es
@[simp] theorem Dev.readRow_queues (d : Dev) (a : Nat) (es : List RdErr) : ((d.readRow a es).2).queues = d.queues := Dev.readRow_keep Dev.queues (fun _ _ => rfl) (fun _ _ => rfl) (fun _ _ => rfl) d a es
@[simp] theorem Dev.readRow_slots (d : Dev) (a : Nat) (es : List RdErr) : ((d.readRow a es).2).slots = d.slots := Dev.readRow_keep Dev.slots (fun _ _ => rfl) (fun _ _ => rfl) (fun _ _ => rfl) d a es
@[simp] theorem Dev.readRow_tiles (d : Dev) (a : Nat) (es : List RdErr) : ((d.readRow a es).2).tiles = d.tiles := Dev.readRow_keep Dev.tiles (fun _ _ => rfl) (fun _ _ => rfl) (fun _ _ => rfl) d a es
@[simp] theorem Dev.readRow_insts (d : Dev) (a : Nat) (es : List RdErr) : ((d.readRow a es).2).insts = d.insts := Dev.readRow_keep Dev.insts (fun _ _ => rfl) (fun _ _ => rfl) (fun _ _ => rfl) d a es
@[simp] theorem Dev.readRow_products (d : Dev) (a : Nat) (es : List RdErr) : ((d.readRow a es).2).products = d.products := Dev.readRow_keep Dev.products (fun _ _ => rfl) (fun _ _ => rfl) (fun _ _ => rfl) d a es
@[simp] theorem Dev.readRow_img0 (d : Dev) (a : Nat) (es : List RdErr) : ((d.readRow a es).2).img0 = d.img0 := Dev.readRow_keep Dev.img0 (fun _ _ => rfl) (fun _ _ => rfl) (fun _ _ => rfl) d a es
@[simp] theorem Dev.readRow_img1 (d : Dev) (a : Nat) (es : List RdErr) : ((d.readRow a es).2).img1 = d.img1 := Dev.readRow_keep Dev.img1 (fun _ _ => rfl) (fun _ _ => rfl) (fun _ _ => rfl) d a es
@[simp] theorem Dev.readRow_stage0 (d : Dev) (a : Nat) (es : List RdErr) : ((d.readRow a es).2).stage0 = d.stage0 := Dev.readRow_keep Dev.stage0 (fun _ _ => rfl) (fun _ _ => rfl) (fun _ _ => rfl) d a es
@[simp] theorem Dev.readRow_stage1 (d : Dev) (a : Nat) (es : List RdErr) : ((d.readRow a es).2).stage1 = d.stage1 := Dev.readRow_keep Dev.stage1 (fun _ _ => rfl) (fun _ _ => rfl) (fun _ _ => rfl) d a es
@[simp] theorem Dev.readRow_net (d : Dev) (a : Nat) (es : List RdErr) : ((d.readRow a es).2).net = d.net := Dev.readRow_keep Dev.net (fun _ _ => rfl) (fun _ _ => rfl) (fun _ _ => rfl) d a es
@[simp] theorem Dev.readRow_faults (d : Dev) (a : Nat) (es : List RdErr) : ((d.readRow a es).2).faults = d.faults := Dev.readRow_keep Dev.faults (fun _ _ => rfl) (fun _ _ => rfl) (fun _ _ => rfl) d a es
@[simp] theorem Dev.readRow_heldW (d : Dev) (a : Nat) (es : List RdErr) : ((d.readRow a es).2).heldW = d.heldW := Dev.readRow_keep Dev.heldW (fun _ _ => rfl) (fun _ _ => rfl) (fun _ _ => rfl) d a es
@[simp] theorem Dev.readRow_heldE (d : Dev) (a : Nat) (es : List RdErr) : ((d.readRow a es).2).heldE = d.heldE := Dev.readRow_keep Dev.heldE (fun _ _ => rfl) (fun _ _ => rfl) (fun _ _ => rfl) d a es
@[simp] theorem Dev.readRow_refetch (d : Dev) (a : Nat) (es : List RdErr) : ((d.readRow a es).2).refetch = d.refetch := Dev.readRow_keep Dev.refetch (fun _ _ => rfl) (fun _ _ => rfl) (fun _ _ => rfl) d a es
@[simp] theorem Dev.readRow_refetched (d : Dev) (a : Nat) (es : List RdErr) : ((d.readRow a es).2).refetched = d.refetched := Dev.readRow_keep Dev.refetched (fun _ _ => rfl) (fun _ _ => rfl) (fun _ _ => rfl) d a es
@[simp] theorem Dev.readRow_ports (d : Dev) (a : Nat) (es : List RdErr) : ((d.readRow a es).2).ports = d.ports := Dev.readRow_keep Dev.ports (fun _ _ => rfl) (fun _ _ => rfl) (fun _ _ => rfl) d a es
@[simp] theorem Dev.readRow_fab (d : Dev) (a : Nat) (es : List RdErr) : ((d.readRow a es).2).fab = d.fab := Dev.readRow_keep Dev.fab (fun _ _ => rfl) (fun _ _ => rfl) (fun _ _ => rfl) d a es
@[simp] theorem Dev.readRow_step0 (d : Dev) (a : Nat) (es : List RdErr) : ((d.readRow a es).2).step0 = d.step0 := Dev.readRow_keep Dev.step0 (fun _ _ => rfl) (fun _ _ => rfl) (fun _ _ => rfl) d a es
@[simp] theorem Dev.readRow_step1 (d : Dev) (a : Nat) (es : List RdErr) : ((d.readRow a es).2).step1 = d.step1 := Dev.readRow_keep Dev.step1 (fun _ _ => rfl) (fun _ _ => rfl) (fun _ _ => rfl) d a es
@[simp] theorem Dev.readRow_upd (d : Dev) (a : Nat) (es : List RdErr) : ((d.readRow a es).2).upd = d.upd := Dev.readRow_keep Dev.upd (fun _ _ => rfl) (fun _ _ => rfl) (fun _ _ => rfl) d a es
@[simp] theorem Dev.readRow_srv (d : Dev) (a : Nat) (es : List RdErr) : ((d.readRow a es).2).srv = d.srv := Dev.readRow_keep Dev.srv (fun _ _ => rfl) (fun _ _ => rfl) (fun _ _ => rfl) d a es
@[simp] theorem Dev.readRow_out (d : Dev) (a : Nat) (es : List RdErr) : ((d.readRow a es).2).out = d.out := Dev.readRow_keep Dev.out (fun _ _ => rfl) (fun _ _ => rfl) (fun _ _ => rfl) d a es
@[simp] theorem Dev.readRow_free (d : Dev) (a : Nat) (es : List RdErr) : ((d.readRow a es).2).free = d.free := Dev.readRow_keep Dev.free (fun _ _ => rfl) (fun _ _ => rfl) (fun _ _ => rfl) d a es

/-! ## Units, queues, tiles, instances, the parts of other blocks -/

@[simp] theorem Dev.setSlot_regs (d : Dev) (t s : Nat) (x : Slot) : (d.setSlot t s x).regs = d.regs := rfl
@[simp] theorem Dev.setSlot_mem (d : Dev) (t s : Nat) (x : Slot) : (d.setSlot t s x).mem = d.mem := rfl
@[simp] theorem Dev.setSlot_poison (d : Dev) (t s : Nat) (x : Slot) : (d.setSlot t s x).poison = d.poison := rfl
@[simp] theorem Dev.setSlot_pw (d : Dev) (t s : Nat) (x : Slot) : (d.setSlot t s x).pw = d.pw := rfl
@[simp] theorem Dev.setSlot_tally (d : Dev) (t s : Nat) (x : Slot) : (d.setSlot t s x).tally = d.tally := rfl
@[simp] theorem Dev.setSlot_led0 (d : Dev) (t s : Nat) (x : Slot) : (d.setSlot t s x).led0 = d.led0 := rfl
@[simp] theorem Dev.setSlot_led1 (d : Dev) (t s : Nat) (x : Slot) : (d.setSlot t s x).led1 = d.led1 := rfl
@[simp] theorem Dev.setSlot_mg (d : Dev) (t s : Nat) (x : Slot) : (d.setSlot t s x).mg = d.mg := rfl
@[simp] theorem Dev.setSlot_sec (d : Dev) (t s : Nat) (x : Slot) : (d.setSlot t s x).sec = d.sec := rfl
@[simp] theorem Dev.setSlot_boot (d : Dev) (t s : Nat) (x : Slot) : (d.setSlot t s x).boot = d.boot := rfl
@[simp] theorem Dev.setSlot_feed (d : Dev) (t s : Nat) (x : Slot) : (d.setSlot t s x).feed = d.feed := rfl
@[simp] theorem Dev.setSlot_queues (d : Dev) (t s : Nat) (x : Slot) : (d.setSlot t s x).queues = d.queues := rfl
@[simp] theorem Dev.setSlot_tiles (d : Dev) (t s : Nat) (x : Slot) : (d.setSlot t s x).tiles = d.tiles := rfl
@[simp] theorem Dev.setSlot_insts (d : Dev) (t s : Nat) (x : Slot) : (d.setSlot t s x).insts = d.insts := rfl
@[simp] theorem Dev.setSlot_products (d : Dev) (t s : Nat) (x : Slot) : (d.setSlot t s x).products = d.products := rfl
@[simp] theorem Dev.setSlot_img0 (d : Dev) (t s : Nat) (x : Slot) : (d.setSlot t s x).img0 = d.img0 := rfl
@[simp] theorem Dev.setSlot_img1 (d : Dev) (t s : Nat) (x : Slot) : (d.setSlot t s x).img1 = d.img1 := rfl
@[simp] theorem Dev.setSlot_stage0 (d : Dev) (t s : Nat) (x : Slot) : (d.setSlot t s x).stage0 = d.stage0 := rfl
@[simp] theorem Dev.setSlot_stage1 (d : Dev) (t s : Nat) (x : Slot) : (d.setSlot t s x).stage1 = d.stage1 := rfl
@[simp] theorem Dev.setSlot_net (d : Dev) (t s : Nat) (x : Slot) : (d.setSlot t s x).net = d.net := rfl
@[simp] theorem Dev.setSlot_faults (d : Dev) (t s : Nat) (x : Slot) : (d.setSlot t s x).faults = d.faults := rfl
@[simp] theorem Dev.setSlot_heldW (d : Dev) (t s : Nat) (x : Slot) : (d.setSlot t s x).heldW = d.heldW := rfl
@[simp] theorem Dev.setSlot_heldE (d : Dev) (t s : Nat) (x : Slot) : (d.setSlot t s x).heldE = d.heldE := rfl
@[simp] theorem Dev.setSlot_refetch (d : Dev) (t s : Nat) (x : Slot) : (d.setSlot t s x).refetch = d.refetch := rfl
@[simp] theorem Dev.setSlot_refetched (d : Dev) (t s : Nat) (x : Slot) : (d.setSlot t s x).refetched = d.refetched := rfl
@[simp] theorem Dev.setSlot_ports (d : Dev) (t s : Nat) (x : Slot) : (d.setSlot t s x).ports = d.ports := rfl
@[simp] theorem Dev.setSlot_fab (d : Dev) (t s : Nat) (x : Slot) : (d.setSlot t s x).fab = d.fab := rfl
@[simp] theorem Dev.setSlot_step0 (d : Dev) (t s : Nat) (x : Slot) : (d.setSlot t s x).step0 = d.step0 := rfl
@[simp] theorem Dev.setSlot_step1 (d : Dev) (t s : Nat) (x : Slot) : (d.setSlot t s x).step1 = d.step1 := rfl
@[simp] theorem Dev.setSlot_upd (d : Dev) (t s : Nat) (x : Slot) : (d.setSlot t s x).upd = d.upd := rfl
@[simp] theorem Dev.setSlot_srv (d : Dev) (t s : Nat) (x : Slot) : (d.setSlot t s x).srv = d.srv := rfl
@[simp] theorem Dev.setSlot_out (d : Dev) (t s : Nat) (x : Slot) : (d.setSlot t s x).out = d.out := rfl
@[simp] theorem Dev.setSlot_free (d : Dev) (t s : Nat) (x : Slot) : (d.setSlot t s x).free = d.free := rfl
@[simp] theorem Dev.modSlot_regs (d : Dev) (t s : Nat) (f : Slot → Slot) : (d.modSlot t s f).regs = d.regs := rfl
@[simp] theorem Dev.modSlot_mem (d : Dev) (t s : Nat) (f : Slot → Slot) : (d.modSlot t s f).mem = d.mem := rfl
@[simp] theorem Dev.modSlot_poison (d : Dev) (t s : Nat) (f : Slot → Slot) : (d.modSlot t s f).poison = d.poison := rfl
@[simp] theorem Dev.modSlot_pw (d : Dev) (t s : Nat) (f : Slot → Slot) : (d.modSlot t s f).pw = d.pw := rfl
@[simp] theorem Dev.modSlot_tally (d : Dev) (t s : Nat) (f : Slot → Slot) : (d.modSlot t s f).tally = d.tally := rfl
@[simp] theorem Dev.modSlot_led0 (d : Dev) (t s : Nat) (f : Slot → Slot) : (d.modSlot t s f).led0 = d.led0 := rfl
@[simp] theorem Dev.modSlot_led1 (d : Dev) (t s : Nat) (f : Slot → Slot) : (d.modSlot t s f).led1 = d.led1 := rfl
@[simp] theorem Dev.modSlot_mg (d : Dev) (t s : Nat) (f : Slot → Slot) : (d.modSlot t s f).mg = d.mg := rfl
@[simp] theorem Dev.modSlot_sec (d : Dev) (t s : Nat) (f : Slot → Slot) : (d.modSlot t s f).sec = d.sec := rfl
@[simp] theorem Dev.modSlot_boot (d : Dev) (t s : Nat) (f : Slot → Slot) : (d.modSlot t s f).boot = d.boot := rfl
@[simp] theorem Dev.modSlot_feed (d : Dev) (t s : Nat) (f : Slot → Slot) : (d.modSlot t s f).feed = d.feed := rfl
@[simp] theorem Dev.modSlot_queues (d : Dev) (t s : Nat) (f : Slot → Slot) : (d.modSlot t s f).queues = d.queues := rfl
@[simp] theorem Dev.modSlot_tiles (d : Dev) (t s : Nat) (f : Slot → Slot) : (d.modSlot t s f).tiles = d.tiles := rfl
@[simp] theorem Dev.modSlot_insts (d : Dev) (t s : Nat) (f : Slot → Slot) : (d.modSlot t s f).insts = d.insts := rfl
@[simp] theorem Dev.modSlot_products (d : Dev) (t s : Nat) (f : Slot → Slot) : (d.modSlot t s f).products = d.products := rfl
@[simp] theorem Dev.modSlot_img0 (d : Dev) (t s : Nat) (f : Slot → Slot) : (d.modSlot t s f).img0 = d.img0 := rfl
@[simp] theorem Dev.modSlot_img1 (d : Dev) (t s : Nat) (f : Slot → Slot) : (d.modSlot t s f).img1 = d.img1 := rfl
@[simp] theorem Dev.modSlot_stage0 (d : Dev) (t s : Nat) (f : Slot → Slot) : (d.modSlot t s f).stage0 = d.stage0 := rfl
@[simp] theorem Dev.modSlot_stage1 (d : Dev) (t s : Nat) (f : Slot → Slot) : (d.modSlot t s f).stage1 = d.stage1 := rfl
@[simp] theorem Dev.modSlot_net (d : Dev) (t s : Nat) (f : Slot → Slot) : (d.modSlot t s f).net = d.net := rfl
@[simp] theorem Dev.modSlot_faults (d : Dev) (t s : Nat) (f : Slot → Slot) : (d.modSlot t s f).faults = d.faults := rfl
@[simp] theorem Dev.modSlot_heldW (d : Dev) (t s : Nat) (f : Slot → Slot) : (d.modSlot t s f).heldW = d.heldW := rfl
@[simp] theorem Dev.modSlot_heldE (d : Dev) (t s : Nat) (f : Slot → Slot) : (d.modSlot t s f).heldE = d.heldE := rfl
@[simp] theorem Dev.modSlot_refetch (d : Dev) (t s : Nat) (f : Slot → Slot) : (d.modSlot t s f).refetch = d.refetch := rfl
@[simp] theorem Dev.modSlot_refetched (d : Dev) (t s : Nat) (f : Slot → Slot) : (d.modSlot t s f).refetched = d.refetched := rfl
@[simp] theorem Dev.modSlot_ports (d : Dev) (t s : Nat) (f : Slot → Slot) : (d.modSlot t s f).ports = d.ports := rfl
@[simp] theorem Dev.modSlot_fab (d : Dev) (t s : Nat) (f : Slot → Slot) : (d.modSlot t s f).fab = d.fab := rfl
@[simp] theorem Dev.modSlot_step0 (d : Dev) (t s : Nat) (f : Slot → Slot) : (d.modSlot t s f).step0 = d.step0 := rfl
@[simp] theorem Dev.modSlot_step1 (d : Dev) (t s : Nat) (f : Slot → Slot) : (d.modSlot t s f).step1 = d.step1 := rfl
@[simp] theorem Dev.modSlot_upd (d : Dev) (t s : Nat) (f : Slot → Slot) : (d.modSlot t s f).upd = d.upd := rfl
@[simp] theorem Dev.modSlot_srv (d : Dev) (t s : Nat) (f : Slot → Slot) : (d.modSlot t s f).srv = d.srv := rfl
@[simp] theorem Dev.modSlot_out (d : Dev) (t s : Nat) (f : Slot → Slot) : (d.modSlot t s f).out = d.out := rfl
@[simp] theorem Dev.modSlot_free (d : Dev) (t s : Nat) (f : Slot → Slot) : (d.modSlot t s f).free = d.free := rfl
@[simp] theorem Dev.modCc_regs (d : Dev) (t s : Nat) (f : CcCtx → CcCtx) : (d.modCc t s f).regs = d.regs := rfl
@[simp] theorem Dev.modCc_mem (d : Dev) (t s : Nat) (f : CcCtx → CcCtx) : (d.modCc t s f).mem = d.mem := rfl
@[simp] theorem Dev.modCc_poison (d : Dev) (t s : Nat) (f : CcCtx → CcCtx) : (d.modCc t s f).poison = d.poison := rfl
@[simp] theorem Dev.modCc_pw (d : Dev) (t s : Nat) (f : CcCtx → CcCtx) : (d.modCc t s f).pw = d.pw := rfl
@[simp] theorem Dev.modCc_tally (d : Dev) (t s : Nat) (f : CcCtx → CcCtx) : (d.modCc t s f).tally = d.tally := rfl
@[simp] theorem Dev.modCc_led0 (d : Dev) (t s : Nat) (f : CcCtx → CcCtx) : (d.modCc t s f).led0 = d.led0 := rfl
@[simp] theorem Dev.modCc_led1 (d : Dev) (t s : Nat) (f : CcCtx → CcCtx) : (d.modCc t s f).led1 = d.led1 := rfl
@[simp] theorem Dev.modCc_mg (d : Dev) (t s : Nat) (f : CcCtx → CcCtx) : (d.modCc t s f).mg = d.mg := rfl
@[simp] theorem Dev.modCc_sec (d : Dev) (t s : Nat) (f : CcCtx → CcCtx) : (d.modCc t s f).sec = d.sec := rfl
@[simp] theorem Dev.modCc_boot (d : Dev) (t s : Nat) (f : CcCtx → CcCtx) : (d.modCc t s f).boot = d.boot := rfl
@[simp] theorem Dev.modCc_feed (d : Dev) (t s : Nat) (f : CcCtx → CcCtx) : (d.modCc t s f).feed = d.feed := rfl
@[simp] theorem Dev.modCc_queues (d : Dev) (t s : Nat) (f : CcCtx → CcCtx) : (d.modCc t s f).queues = d.queues := rfl
@[simp] theorem Dev.modCc_tiles (d : Dev) (t s : Nat) (f : CcCtx → CcCtx) : (d.modCc t s f).tiles = d.tiles := rfl
@[simp] theorem Dev.modCc_insts (d : Dev) (t s : Nat) (f : CcCtx → CcCtx) : (d.modCc t s f).insts = d.insts := rfl
@[simp] theorem Dev.modCc_products (d : Dev) (t s : Nat) (f : CcCtx → CcCtx) : (d.modCc t s f).products = d.products := rfl
@[simp] theorem Dev.modCc_img0 (d : Dev) (t s : Nat) (f : CcCtx → CcCtx) : (d.modCc t s f).img0 = d.img0 := rfl
@[simp] theorem Dev.modCc_img1 (d : Dev) (t s : Nat) (f : CcCtx → CcCtx) : (d.modCc t s f).img1 = d.img1 := rfl
@[simp] theorem Dev.modCc_stage0 (d : Dev) (t s : Nat) (f : CcCtx → CcCtx) : (d.modCc t s f).stage0 = d.stage0 := rfl
@[simp] theorem Dev.modCc_stage1 (d : Dev) (t s : Nat) (f : CcCtx → CcCtx) : (d.modCc t s f).stage1 = d.stage1 := rfl
@[simp] theorem Dev.modCc_net (d : Dev) (t s : Nat) (f : CcCtx → CcCtx) : (d.modCc t s f).net = d.net := rfl
@[simp] theorem Dev.modCc_faults (d : Dev) (t s : Nat) (f : CcCtx → CcCtx) : (d.modCc t s f).faults = d.faults := rfl
@[simp] theorem Dev.modCc_heldW (d : Dev) (t s : Nat) (f : CcCtx → CcCtx) : (d.modCc t s f).heldW = d.heldW := rfl
@[simp] theorem Dev.modCc_heldE (d : Dev) (t s : Nat) (f : CcCtx → CcCtx) : (d.modCc t s f).heldE = d.heldE := rfl
@[simp] theorem Dev.modCc_refetch (d : Dev) (t s : Nat) (f : CcCtx → CcCtx) : (d.modCc t s f).refetch = d.refetch := rfl
@[simp] theorem Dev.modCc_refetched (d : Dev) (t s : Nat) (f : CcCtx → CcCtx) : (d.modCc t s f).refetched = d.refetched := rfl
@[simp] theorem Dev.modCc_ports (d : Dev) (t s : Nat) (f : CcCtx → CcCtx) : (d.modCc t s f).ports = d.ports := rfl
@[simp] theorem Dev.modCc_fab (d : Dev) (t s : Nat) (f : CcCtx → CcCtx) : (d.modCc t s f).fab = d.fab := rfl
@[simp] theorem Dev.modCc_step0 (d : Dev) (t s : Nat) (f : CcCtx → CcCtx) : (d.modCc t s f).step0 = d.step0 := rfl
@[simp] theorem Dev.modCc_step1 (d : Dev) (t s : Nat) (f : CcCtx → CcCtx) : (d.modCc t s f).step1 = d.step1 := rfl
@[simp] theorem Dev.modCc_upd (d : Dev) (t s : Nat) (f : CcCtx → CcCtx) : (d.modCc t s f).upd = d.upd := rfl
@[simp] theorem Dev.modCc_srv (d : Dev) (t s : Nat) (f : CcCtx → CcCtx) : (d.modCc t s f).srv = d.srv := rfl
@[simp] theorem Dev.modCc_out (d : Dev) (t s : Nat) (f : CcCtx → CcCtx) : (d.modCc t s f).out = d.out := rfl
@[simp] theorem Dev.modCc_free (d : Dev) (t s : Nat) (f : CcCtx → CcCtx) : (d.modCc t s f).free = d.free := rfl
@[simp] theorem Dev.modVx_regs (d : Dev) (t s : Nat) (f : VxCtx → VxCtx) : (d.modVx t s f).regs = d.regs := rfl
@[simp] theorem Dev.modVx_mem (d : Dev) (t s : Nat) (f : VxCtx → VxCtx) : (d.modVx t s f).mem = d.mem := rfl
@[simp] theorem Dev.modVx_poison (d : Dev) (t s : Nat) (f : VxCtx → VxCtx) : (d.modVx t s f).poison = d.poison := rfl
@[simp] theorem Dev.modVx_pw (d : Dev) (t s : Nat) (f : VxCtx → VxCtx) : (d.modVx t s f).pw = d.pw := rfl
@[simp] theorem Dev.modVx_tally (d : Dev) (t s : Nat) (f : VxCtx → VxCtx) : (d.modVx t s f).tally = d.tally := rfl
@[simp] theorem Dev.modVx_led0 (d : Dev) (t s : Nat) (f : VxCtx → VxCtx) : (d.modVx t s f).led0 = d.led0 := rfl
@[simp] theorem Dev.modVx_led1 (d : Dev) (t s : Nat) (f : VxCtx → VxCtx) : (d.modVx t s f).led1 = d.led1 := rfl
@[simp] theorem Dev.modVx_mg (d : Dev) (t s : Nat) (f : VxCtx → VxCtx) : (d.modVx t s f).mg = d.mg := rfl
@[simp] theorem Dev.modVx_sec (d : Dev) (t s : Nat) (f : VxCtx → VxCtx) : (d.modVx t s f).sec = d.sec := rfl
@[simp] theorem Dev.modVx_boot (d : Dev) (t s : Nat) (f : VxCtx → VxCtx) : (d.modVx t s f).boot = d.boot := rfl
@[simp] theorem Dev.modVx_feed (d : Dev) (t s : Nat) (f : VxCtx → VxCtx) : (d.modVx t s f).feed = d.feed := rfl
@[simp] theorem Dev.modVx_queues (d : Dev) (t s : Nat) (f : VxCtx → VxCtx) : (d.modVx t s f).queues = d.queues := rfl
@[simp] theorem Dev.modVx_tiles (d : Dev) (t s : Nat) (f : VxCtx → VxCtx) : (d.modVx t s f).tiles = d.tiles := rfl
@[simp] theorem Dev.modVx_insts (d : Dev) (t s : Nat) (f : VxCtx → VxCtx) : (d.modVx t s f).insts = d.insts := rfl
@[simp] theorem Dev.modVx_products (d : Dev) (t s : Nat) (f : VxCtx → VxCtx) : (d.modVx t s f).products = d.products := rfl
@[simp] theorem Dev.modVx_img0 (d : Dev) (t s : Nat) (f : VxCtx → VxCtx) : (d.modVx t s f).img0 = d.img0 := rfl
@[simp] theorem Dev.modVx_img1 (d : Dev) (t s : Nat) (f : VxCtx → VxCtx) : (d.modVx t s f).img1 = d.img1 := rfl
@[simp] theorem Dev.modVx_stage0 (d : Dev) (t s : Nat) (f : VxCtx → VxCtx) : (d.modVx t s f).stage0 = d.stage0 := rfl
@[simp] theorem Dev.modVx_stage1 (d : Dev) (t s : Nat) (f : VxCtx → VxCtx) : (d.modVx t s f).stage1 = d.stage1 := rfl
@[simp] theorem Dev.modVx_net (d : Dev) (t s : Nat) (f : VxCtx → VxCtx) : (d.modVx t s f).net = d.net := rfl
@[simp] theorem Dev.modVx_faults (d : Dev) (t s : Nat) (f : VxCtx → VxCtx) : (d.modVx t s f).faults = d.faults := rfl
@[simp] theorem Dev.modVx_heldW (d : Dev) (t s : Nat) (f : VxCtx → VxCtx) : (d.modVx t s f).heldW = d.heldW := rfl
@[simp] theorem Dev.modVx_heldE (d : Dev) (t s : Nat) (f : VxCtx → VxCtx) : (d.modVx t s f).heldE = d.heldE := rfl
@[simp] theorem Dev.modVx_refetch (d : Dev) (t s : Nat) (f : VxCtx → VxCtx) : (d.modVx t s f).refetch = d.refetch := rfl
@[simp] theorem Dev.modVx_refetched (d : Dev) (t s : Nat) (f : VxCtx → VxCtx) : (d.modVx t s f).refetched = d.refetched := rfl
@[simp] theorem Dev.modVx_ports (d : Dev) (t s : Nat) (f : VxCtx → VxCtx) : (d.modVx t s f).ports = d.ports := rfl
@[simp] theorem Dev.modVx_fab (d : Dev) (t s : Nat) (f : VxCtx → VxCtx) : (d.modVx t s f).fab = d.fab := rfl
@[simp] theorem Dev.modVx_step0 (d : Dev) (t s : Nat) (f : VxCtx → VxCtx) : (d.modVx t s f).step0 = d.step0 := rfl
@[simp] theorem Dev.modVx_step1 (d : Dev) (t s : Nat) (f : VxCtx → VxCtx) : (d.modVx t s f).step1 = d.step1 := rfl
@[simp] theorem Dev.modVx_upd (d : Dev) (t s : Nat) (f : VxCtx → VxCtx) : (d.modVx t s f).upd = d.upd := rfl
@[simp] theorem Dev.modVx_srv (d : Dev) (t s : Nat) (f : VxCtx → VxCtx) : (d.modVx t s f).srv = d.srv := rfl
@[simp] theorem Dev.modVx_out (d : Dev) (t s : Nat) (f : VxCtx → VxCtx) : (d.modVx t s f).out = d.out := rfl
@[simp] theorem Dev.modVx_free (d : Dev) (t s : Nat) (f : VxCtx → VxCtx) : (d.modVx t s f).free = d.free := rfl
@[simp] theorem Dev.setQueue_regs (d : Dev) (t q : Nat) (x : Queue) : (d.setQueue t q x).regs = d.regs := rfl
@[simp] theorem Dev.setQueue_mem (d : Dev) (t q : Nat) (x : Queue) : (d.setQueue t q x).mem = d.mem := rfl
@[simp] theorem Dev.setQueue_poison (d : Dev) (t q : Nat) (x : Queue) : (d.setQueue t q x).poison = d.poison := rfl
@[simp] theorem Dev.setQueue_pw (d : Dev) (t q : Nat) (x : Queue) : (d.setQueue t q x).pw = d.pw := rfl
@[simp] theorem Dev.setQueue_tally (d : Dev) (t q : Nat) (x : Queue) : (d.setQueue t q x).tally = d.tally := rfl
@[simp] theorem Dev.setQueue_led0 (d : Dev) (t q : Nat) (x : Queue) : (d.setQueue t q x).led0 = d.led0 := rfl
@[simp] theorem Dev.setQueue_led1 (d : Dev) (t q : Nat) (x : Queue) : (d.setQueue t q x).led1 = d.led1 := rfl
@[simp] theorem Dev.setQueue_mg (d : Dev) (t q : Nat) (x : Queue) : (d.setQueue t q x).mg = d.mg := rfl
@[simp] theorem Dev.setQueue_sec (d : Dev) (t q : Nat) (x : Queue) : (d.setQueue t q x).sec = d.sec := rfl
@[simp] theorem Dev.setQueue_boot (d : Dev) (t q : Nat) (x : Queue) : (d.setQueue t q x).boot = d.boot := rfl
@[simp] theorem Dev.setQueue_feed (d : Dev) (t q : Nat) (x : Queue) : (d.setQueue t q x).feed = d.feed := rfl
@[simp] theorem Dev.setQueue_slots (d : Dev) (t q : Nat) (x : Queue) : (d.setQueue t q x).slots = d.slots := rfl
@[simp] theorem Dev.setQueue_tiles (d : Dev) (t q : Nat) (x : Queue) : (d.setQueue t q x).tiles = d.tiles := rfl
@[simp] theorem Dev.setQueue_insts (d : Dev) (t q : Nat) (x : Queue) : (d.setQueue t q x).insts = d.insts := rfl
@[simp] theorem Dev.setQueue_products (d : Dev) (t q : Nat) (x : Queue) : (d.setQueue t q x).products = d.products := rfl
@[simp] theorem Dev.setQueue_img0 (d : Dev) (t q : Nat) (x : Queue) : (d.setQueue t q x).img0 = d.img0 := rfl
@[simp] theorem Dev.setQueue_img1 (d : Dev) (t q : Nat) (x : Queue) : (d.setQueue t q x).img1 = d.img1 := rfl
@[simp] theorem Dev.setQueue_stage0 (d : Dev) (t q : Nat) (x : Queue) : (d.setQueue t q x).stage0 = d.stage0 := rfl
@[simp] theorem Dev.setQueue_stage1 (d : Dev) (t q : Nat) (x : Queue) : (d.setQueue t q x).stage1 = d.stage1 := rfl
@[simp] theorem Dev.setQueue_net (d : Dev) (t q : Nat) (x : Queue) : (d.setQueue t q x).net = d.net := rfl
@[simp] theorem Dev.setQueue_faults (d : Dev) (t q : Nat) (x : Queue) : (d.setQueue t q x).faults = d.faults := rfl
@[simp] theorem Dev.setQueue_heldW (d : Dev) (t q : Nat) (x : Queue) : (d.setQueue t q x).heldW = d.heldW := rfl
@[simp] theorem Dev.setQueue_heldE (d : Dev) (t q : Nat) (x : Queue) : (d.setQueue t q x).heldE = d.heldE := rfl
@[simp] theorem Dev.setQueue_refetch (d : Dev) (t q : Nat) (x : Queue) : (d.setQueue t q x).refetch = d.refetch := rfl
@[simp] theorem Dev.setQueue_refetched (d : Dev) (t q : Nat) (x : Queue) : (d.setQueue t q x).refetched = d.refetched := rfl
@[simp] theorem Dev.setQueue_ports (d : Dev) (t q : Nat) (x : Queue) : (d.setQueue t q x).ports = d.ports := rfl
@[simp] theorem Dev.setQueue_fab (d : Dev) (t q : Nat) (x : Queue) : (d.setQueue t q x).fab = d.fab := rfl
@[simp] theorem Dev.setQueue_step0 (d : Dev) (t q : Nat) (x : Queue) : (d.setQueue t q x).step0 = d.step0 := rfl
@[simp] theorem Dev.setQueue_step1 (d : Dev) (t q : Nat) (x : Queue) : (d.setQueue t q x).step1 = d.step1 := rfl
@[simp] theorem Dev.setQueue_upd (d : Dev) (t q : Nat) (x : Queue) : (d.setQueue t q x).upd = d.upd := rfl
@[simp] theorem Dev.setQueue_srv (d : Dev) (t q : Nat) (x : Queue) : (d.setQueue t q x).srv = d.srv := rfl
@[simp] theorem Dev.setQueue_out (d : Dev) (t q : Nat) (x : Queue) : (d.setQueue t q x).out = d.out := rfl
@[simp] theorem Dev.setQueue_free (d : Dev) (t q : Nat) (x : Queue) : (d.setQueue t q x).free = d.free := rfl
@[simp] theorem Dev.modTile_regs (d : Dev) (t : Nat) (f : Tile → Tile) : (d.modTile t f).regs = d.regs := rfl
@[simp] theorem Dev.modTile_mem (d : Dev) (t : Nat) (f : Tile → Tile) : (d.modTile t f).mem = d.mem := rfl
@[simp] theorem Dev.modTile_poison (d : Dev) (t : Nat) (f : Tile → Tile) : (d.modTile t f).poison = d.poison := rfl
@[simp] theorem Dev.modTile_pw (d : Dev) (t : Nat) (f : Tile → Tile) : (d.modTile t f).pw = d.pw := rfl
@[simp] theorem Dev.modTile_tally (d : Dev) (t : Nat) (f : Tile → Tile) : (d.modTile t f).tally = d.tally := rfl
@[simp] theorem Dev.modTile_led0 (d : Dev) (t : Nat) (f : Tile → Tile) : (d.modTile t f).led0 = d.led0 := rfl
@[simp] theorem Dev.modTile_led1 (d : Dev) (t : Nat) (f : Tile → Tile) : (d.modTile t f).led1 = d.led1 := rfl
@[simp] theorem Dev.modTile_mg (d : Dev) (t : Nat) (f : Tile → Tile) : (d.modTile t f).mg = d.mg := rfl
@[simp] theorem Dev.modTile_sec (d : Dev) (t : Nat) (f : Tile → Tile) : (d.modTile t f).sec = d.sec := rfl
@[simp] theorem Dev.modTile_boot (d : Dev) (t : Nat) (f : Tile → Tile) : (d.modTile t f).boot = d.boot := rfl
@[simp] theorem Dev.modTile_feed (d : Dev) (t : Nat) (f : Tile → Tile) : (d.modTile t f).feed = d.feed := rfl
@[simp] theorem Dev.modTile_queues (d : Dev) (t : Nat) (f : Tile → Tile) : (d.modTile t f).queues = d.queues := rfl
@[simp] theorem Dev.modTile_slots (d : Dev) (t : Nat) (f : Tile → Tile) : (d.modTile t f).slots = d.slots := rfl
@[simp] theorem Dev.modTile_insts (d : Dev) (t : Nat) (f : Tile → Tile) : (d.modTile t f).insts = d.insts := rfl
@[simp] theorem Dev.modTile_products (d : Dev) (t : Nat) (f : Tile → Tile) : (d.modTile t f).products = d.products := rfl
@[simp] theorem Dev.modTile_img0 (d : Dev) (t : Nat) (f : Tile → Tile) : (d.modTile t f).img0 = d.img0 := rfl
@[simp] theorem Dev.modTile_img1 (d : Dev) (t : Nat) (f : Tile → Tile) : (d.modTile t f).img1 = d.img1 := rfl
@[simp] theorem Dev.modTile_stage0 (d : Dev) (t : Nat) (f : Tile → Tile) : (d.modTile t f).stage0 = d.stage0 := rfl
@[simp] theorem Dev.modTile_stage1 (d : Dev) (t : Nat) (f : Tile → Tile) : (d.modTile t f).stage1 = d.stage1 := rfl
@[simp] theorem Dev.modTile_net (d : Dev) (t : Nat) (f : Tile → Tile) : (d.modTile t f).net = d.net := rfl
@[simp] theorem Dev.modTile_faults (d : Dev) (t : Nat) (f : Tile → Tile) : (d.modTile t f).faults = d.faults := rfl
@[simp] theorem Dev.modTile_heldW (d : Dev) (t : Nat) (f : Tile → Tile) : (d.modTile t f).heldW = d.heldW := rfl
@[simp] theorem Dev.modTile_heldE (d : Dev) (t : Nat) (f : Tile → Tile) : (d.modTile t f).heldE = d.heldE := rfl
@[simp] theorem Dev.modTile_refetch (d : Dev) (t : Nat) (f : Tile → Tile) : (d.modTile t f).refetch = d.refetch := rfl
@[simp] theorem Dev.modTile_refetched (d : Dev) (t : Nat) (f : Tile → Tile) : (d.modTile t f).refetched = d.refetched := rfl
@[simp] theorem Dev.modTile_ports (d : Dev) (t : Nat) (f : Tile → Tile) : (d.modTile t f).ports = d.ports := rfl
@[simp] theorem Dev.modTile_fab (d : Dev) (t : Nat) (f : Tile → Tile) : (d.modTile t f).fab = d.fab := rfl
@[simp] theorem Dev.modTile_step0 (d : Dev) (t : Nat) (f : Tile → Tile) : (d.modTile t f).step0 = d.step0 := rfl
@[simp] theorem Dev.modTile_step1 (d : Dev) (t : Nat) (f : Tile → Tile) : (d.modTile t f).step1 = d.step1 := rfl
@[simp] theorem Dev.modTile_upd (d : Dev) (t : Nat) (f : Tile → Tile) : (d.modTile t f).upd = d.upd := rfl
@[simp] theorem Dev.modTile_srv (d : Dev) (t : Nat) (f : Tile → Tile) : (d.modTile t f).srv = d.srv := rfl
@[simp] theorem Dev.modTile_out (d : Dev) (t : Nat) (f : Tile → Tile) : (d.modTile t f).out = d.out := rfl
@[simp] theorem Dev.modTile_free (d : Dev) (t : Nat) (f : Tile → Tile) : (d.modTile t f).free = d.free := rfl
@[simp] theorem Dev.setInst_regs (d : Dev) (t s : Nat) (x : Inst) : (d.setInst t s x).regs = d.regs := rfl
@[simp] theorem Dev.setInst_mem (d : Dev) (t s : Nat) (x : Inst) : (d.setInst t s x).mem = d.mem := rfl
@[simp] theorem Dev.setInst_poison (d : Dev) (t s : Nat) (x : Inst) : (d.setInst t s x).poison = d.poison := rfl
@[simp] theorem Dev.setInst_pw (d : Dev) (t s : Nat) (x : Inst) : (d.setInst t s x).pw = d.pw := rfl
@[simp] theorem Dev.setInst_tally (d : Dev) (t s : Nat) (x : Inst) : (d.setInst t s x).tally = d.tally := rfl
@[simp] theorem Dev.setInst_led0 (d : Dev) (t s : Nat) (x : Inst) : (d.setInst t s x).led0 = d.led0 := rfl
@[simp] theorem Dev.setInst_led1 (d : Dev) (t s : Nat) (x : Inst) : (d.setInst t s x).led1 = d.led1 := rfl
@[simp] theorem Dev.setInst_mg (d : Dev) (t s : Nat) (x : Inst) : (d.setInst t s x).mg = d.mg := rfl
@[simp] theorem Dev.setInst_sec (d : Dev) (t s : Nat) (x : Inst) : (d.setInst t s x).sec = d.sec := rfl
@[simp] theorem Dev.setInst_boot (d : Dev) (t s : Nat) (x : Inst) : (d.setInst t s x).boot = d.boot := rfl
@[simp] theorem Dev.setInst_feed (d : Dev) (t s : Nat) (x : Inst) : (d.setInst t s x).feed = d.feed := rfl
@[simp] theorem Dev.setInst_queues (d : Dev) (t s : Nat) (x : Inst) : (d.setInst t s x).queues = d.queues := rfl
@[simp] theorem Dev.setInst_slots (d : Dev) (t s : Nat) (x : Inst) : (d.setInst t s x).slots = d.slots := rfl
@[simp] theorem Dev.setInst_tiles (d : Dev) (t s : Nat) (x : Inst) : (d.setInst t s x).tiles = d.tiles := rfl
@[simp] theorem Dev.setInst_products (d : Dev) (t s : Nat) (x : Inst) : (d.setInst t s x).products = d.products := rfl
@[simp] theorem Dev.setInst_img0 (d : Dev) (t s : Nat) (x : Inst) : (d.setInst t s x).img0 = d.img0 := rfl
@[simp] theorem Dev.setInst_img1 (d : Dev) (t s : Nat) (x : Inst) : (d.setInst t s x).img1 = d.img1 := rfl
@[simp] theorem Dev.setInst_stage0 (d : Dev) (t s : Nat) (x : Inst) : (d.setInst t s x).stage0 = d.stage0 := rfl
@[simp] theorem Dev.setInst_stage1 (d : Dev) (t s : Nat) (x : Inst) : (d.setInst t s x).stage1 = d.stage1 := rfl
@[simp] theorem Dev.setInst_net (d : Dev) (t s : Nat) (x : Inst) : (d.setInst t s x).net = d.net := rfl
@[simp] theorem Dev.setInst_faults (d : Dev) (t s : Nat) (x : Inst) : (d.setInst t s x).faults = d.faults := rfl
@[simp] theorem Dev.setInst_heldW (d : Dev) (t s : Nat) (x : Inst) : (d.setInst t s x).heldW = d.heldW := rfl
@[simp] theorem Dev.setInst_heldE (d : Dev) (t s : Nat) (x : Inst) : (d.setInst t s x).heldE = d.heldE := rfl
@[simp] theorem Dev.setInst_refetch (d : Dev) (t s : Nat) (x : Inst) : (d.setInst t s x).refetch = d.refetch := rfl
@[simp] theorem Dev.setInst_refetched (d : Dev) (t s : Nat) (x : Inst) : (d.setInst t s x).refetched = d.refetched := rfl
@[simp] theorem Dev.setInst_ports (d : Dev) (t s : Nat) (x : Inst) : (d.setInst t s x).ports = d.ports := rfl
@[simp] theorem Dev.setInst_fab (d : Dev) (t s : Nat) (x : Inst) : (d.setInst t s x).fab = d.fab := rfl
@[simp] theorem Dev.setInst_step0 (d : Dev) (t s : Nat) (x : Inst) : (d.setInst t s x).step0 = d.step0 := rfl
@[simp] theorem Dev.setInst_step1 (d : Dev) (t s : Nat) (x : Inst) : (d.setInst t s x).step1 = d.step1 := rfl
@[simp] theorem Dev.setInst_upd (d : Dev) (t s : Nat) (x : Inst) : (d.setInst t s x).upd = d.upd := rfl
@[simp] theorem Dev.setInst_srv (d : Dev) (t s : Nat) (x : Inst) : (d.setInst t s x).srv = d.srv := rfl
@[simp] theorem Dev.setInst_out (d : Dev) (t s : Nat) (x : Inst) : (d.setInst t s x).out = d.out := rfl
@[simp] theorem Dev.setInst_free (d : Dev) (t s : Nat) (x : Inst) : (d.setInst t s x).free = d.free := rfl
@[simp] theorem Dev.modPort_regs (d : Dev) (p : Nat) (f : Port → Port) : (d.modPort p f).regs = d.regs := rfl
@[simp] theorem Dev.modPort_mem (d : Dev) (p : Nat) (f : Port → Port) : (d.modPort p f).mem = d.mem := rfl
@[simp] theorem Dev.modPort_poison (d : Dev) (p : Nat) (f : Port → Port) : (d.modPort p f).poison = d.poison := rfl
@[simp] theorem Dev.modPort_pw (d : Dev) (p : Nat) (f : Port → Port) : (d.modPort p f).pw = d.pw := rfl
@[simp] theorem Dev.modPort_tally (d : Dev) (p : Nat) (f : Port → Port) : (d.modPort p f).tally = d.tally := rfl
@[simp] theorem Dev.modPort_led0 (d : Dev) (p : Nat) (f : Port → Port) : (d.modPort p f).led0 = d.led0 := rfl
@[simp] theorem Dev.modPort_led1 (d : Dev) (p : Nat) (f : Port → Port) : (d.modPort p f).led1 = d.led1 := rfl
@[simp] theorem Dev.modPort_mg (d : Dev) (p : Nat) (f : Port → Port) : (d.modPort p f).mg = d.mg := rfl
@[simp] theorem Dev.modPort_sec (d : Dev) (p : Nat) (f : Port → Port) : (d.modPort p f).sec = d.sec := rfl
@[simp] theorem Dev.modPort_boot (d : Dev) (p : Nat) (f : Port → Port) : (d.modPort p f).boot = d.boot := rfl
@[simp] theorem Dev.modPort_feed (d : Dev) (p : Nat) (f : Port → Port) : (d.modPort p f).feed = d.feed := rfl
@[simp] theorem Dev.modPort_queues (d : Dev) (p : Nat) (f : Port → Port) : (d.modPort p f).queues = d.queues := rfl
@[simp] theorem Dev.modPort_slots (d : Dev) (p : Nat) (f : Port → Port) : (d.modPort p f).slots = d.slots := rfl
@[simp] theorem Dev.modPort_tiles (d : Dev) (p : Nat) (f : Port → Port) : (d.modPort p f).tiles = d.tiles := rfl
@[simp] theorem Dev.modPort_insts (d : Dev) (p : Nat) (f : Port → Port) : (d.modPort p f).insts = d.insts := rfl
@[simp] theorem Dev.modPort_products (d : Dev) (p : Nat) (f : Port → Port) : (d.modPort p f).products = d.products := rfl
@[simp] theorem Dev.modPort_img0 (d : Dev) (p : Nat) (f : Port → Port) : (d.modPort p f).img0 = d.img0 := rfl
@[simp] theorem Dev.modPort_img1 (d : Dev) (p : Nat) (f : Port → Port) : (d.modPort p f).img1 = d.img1 := rfl
@[simp] theorem Dev.modPort_stage0 (d : Dev) (p : Nat) (f : Port → Port) : (d.modPort p f).stage0 = d.stage0 := rfl
@[simp] theorem Dev.modPort_stage1 (d : Dev) (p : Nat) (f : Port → Port) : (d.modPort p f).stage1 = d.stage1 := rfl
@[simp] theorem Dev.modPort_net (d : Dev) (p : Nat) (f : Port → Port) : (d.modPort p f).net = d.net := rfl
@[simp] theorem Dev.modPort_faults (d : Dev) (p : Nat) (f : Port → Port) : (d.modPort p f).faults = d.faults := rfl
@[simp] theorem Dev.modPort_heldW (d : Dev) (p : Nat) (f : Port → Port) : (d.modPort p f).heldW = d.heldW := rfl
@[simp] theorem Dev.modPort_heldE (d : Dev) (p : Nat) (f : Port → Port) : (d.modPort p f).heldE = d.heldE := rfl
@[simp] theorem Dev.modPort_refetch (d : Dev) (p : Nat) (f : Port → Port) : (d.modPort p f).refetch = d.refetch := rfl
@[simp] theorem Dev.modPort_refetched (d : Dev) (p : Nat) (f : Port → Port) : (d.modPort p f).refetched = d.refetched := rfl
@[simp] theorem Dev.modPort_fab (d : Dev) (p : Nat) (f : Port → Port) : (d.modPort p f).fab = d.fab := rfl
@[simp] theorem Dev.modPort_step0 (d : Dev) (p : Nat) (f : Port → Port) : (d.modPort p f).step0 = d.step0 := rfl
@[simp] theorem Dev.modPort_step1 (d : Dev) (p : Nat) (f : Port → Port) : (d.modPort p f).step1 = d.step1 := rfl
@[simp] theorem Dev.modPort_upd (d : Dev) (p : Nat) (f : Port → Port) : (d.modPort p f).upd = d.upd := rfl
@[simp] theorem Dev.modPort_srv (d : Dev) (p : Nat) (f : Port → Port) : (d.modPort p f).srv = d.srv := rfl
@[simp] theorem Dev.modPort_out (d : Dev) (p : Nat) (f : Port → Port) : (d.modPort p f).out = d.out := rfl
@[simp] theorem Dev.modPort_free (d : Dev) (p : Nat) (f : Port → Port) : (d.modPort p f).free = d.free := rfl
@[simp] theorem Dev.modUpdate_regs (d : Dev) (f : UpdateS → UpdateS) : (d.modUpdate f).regs = d.regs := rfl
@[simp] theorem Dev.modUpdate_mem (d : Dev) (f : UpdateS → UpdateS) : (d.modUpdate f).mem = d.mem := rfl
@[simp] theorem Dev.modUpdate_poison (d : Dev) (f : UpdateS → UpdateS) : (d.modUpdate f).poison = d.poison := rfl
@[simp] theorem Dev.modUpdate_pw (d : Dev) (f : UpdateS → UpdateS) : (d.modUpdate f).pw = d.pw := rfl
@[simp] theorem Dev.modUpdate_tally (d : Dev) (f : UpdateS → UpdateS) : (d.modUpdate f).tally = d.tally := rfl
@[simp] theorem Dev.modUpdate_led0 (d : Dev) (f : UpdateS → UpdateS) : (d.modUpdate f).led0 = d.led0 := rfl
@[simp] theorem Dev.modUpdate_led1 (d : Dev) (f : UpdateS → UpdateS) : (d.modUpdate f).led1 = d.led1 := rfl
@[simp] theorem Dev.modUpdate_mg (d : Dev) (f : UpdateS → UpdateS) : (d.modUpdate f).mg = d.mg := rfl
@[simp] theorem Dev.modUpdate_sec (d : Dev) (f : UpdateS → UpdateS) : (d.modUpdate f).sec = d.sec := rfl
@[simp] theorem Dev.modUpdate_feed (d : Dev) (f : UpdateS → UpdateS) : (d.modUpdate f).feed = d.feed := rfl
@[simp] theorem Dev.modUpdate_queues (d : Dev) (f : UpdateS → UpdateS) : (d.modUpdate f).queues = d.queues := rfl
@[simp] theorem Dev.modUpdate_slots (d : Dev) (f : UpdateS → UpdateS) : (d.modUpdate f).slots = d.slots := rfl
@[simp] theorem Dev.modUpdate_tiles (d : Dev) (f : UpdateS → UpdateS) : (d.modUpdate f).tiles = d.tiles := rfl
@[simp] theorem Dev.modUpdate_insts (d : Dev) (f : UpdateS → UpdateS) : (d.modUpdate f).insts = d.insts := rfl
@[simp] theorem Dev.modUpdate_products (d : Dev) (f : UpdateS → UpdateS) : (d.modUpdate f).products = d.products := rfl
@[simp] theorem Dev.modUpdate_img0 (d : Dev) (f : UpdateS → UpdateS) : (d.modUpdate f).img0 = d.img0 := rfl
@[simp] theorem Dev.modUpdate_img1 (d : Dev) (f : UpdateS → UpdateS) : (d.modUpdate f).img1 = d.img1 := rfl
@[simp] theorem Dev.modUpdate_stage0 (d : Dev) (f : UpdateS → UpdateS) : (d.modUpdate f).stage0 = d.stage0 := rfl
@[simp] theorem Dev.modUpdate_stage1 (d : Dev) (f : UpdateS → UpdateS) : (d.modUpdate f).stage1 = d.stage1 := rfl
@[simp] theorem Dev.modUpdate_net (d : Dev) (f : UpdateS → UpdateS) : (d.modUpdate f).net = d.net := rfl
@[simp] theorem Dev.modUpdate_faults (d : Dev) (f : UpdateS → UpdateS) : (d.modUpdate f).faults = d.faults := rfl
@[simp] theorem Dev.modUpdate_heldW (d : Dev) (f : UpdateS → UpdateS) : (d.modUpdate f).heldW = d.heldW := rfl
@[simp] theorem Dev.modUpdate_heldE (d : Dev) (f : UpdateS → UpdateS) : (d.modUpdate f).heldE = d.heldE := rfl
@[simp] theorem Dev.modUpdate_refetch (d : Dev) (f : UpdateS → UpdateS) : (d.modUpdate f).refetch = d.refetch := rfl
@[simp] theorem Dev.modUpdate_refetched (d : Dev) (f : UpdateS → UpdateS) : (d.modUpdate f).refetched = d.refetched := rfl
@[simp] theorem Dev.modUpdate_ports (d : Dev) (f : UpdateS → UpdateS) : (d.modUpdate f).ports = d.ports := rfl
@[simp] theorem Dev.modUpdate_fab (d : Dev) (f : UpdateS → UpdateS) : (d.modUpdate f).fab = d.fab := rfl
@[simp] theorem Dev.modUpdate_step0 (d : Dev) (f : UpdateS → UpdateS) : (d.modUpdate f).step0 = d.step0 := rfl
@[simp] theorem Dev.modUpdate_step1 (d : Dev) (f : UpdateS → UpdateS) : (d.modUpdate f).step1 = d.step1 := rfl
@[simp] theorem Dev.modUpdate_upd (d : Dev) (f : UpdateS → UpdateS) : (d.modUpdate f).upd = d.upd := rfl
@[simp] theorem Dev.modUpdate_srv (d : Dev) (f : UpdateS → UpdateS) : (d.modUpdate f).srv = d.srv := rfl
@[simp] theorem Dev.modUpdate_out (d : Dev) (f : UpdateS → UpdateS) : (d.modUpdate f).out = d.out := rfl
@[simp] theorem Dev.modUpdate_free (d : Dev) (f : UpdateS → UpdateS) : (d.modUpdate f).free = d.free := rfl
@[simp] theorem Dev.setReqs_regs (d : Dev) (r : FMap Req) : (d.setReqs r).regs = d.regs := rfl
@[simp] theorem Dev.setReqs_mem (d : Dev) (r : FMap Req) : (d.setReqs r).mem = d.mem := rfl
@[simp] theorem Dev.setReqs_poison (d : Dev) (r : FMap Req) : (d.setReqs r).poison = d.poison := rfl
@[simp] theorem Dev.setReqs_pw (d : Dev) (r : FMap Req) : (d.setReqs r).pw = d.pw := rfl
@[simp] theorem Dev.setReqs_tally (d : Dev) (r : FMap Req) : (d.setReqs r).tally = d.tally := rfl
@[simp] theorem Dev.setReqs_led0 (d : Dev) (r : FMap Req) : (d.setReqs r).led0 = d.led0 := rfl
@[simp] theorem Dev.setReqs_led1 (d : Dev) (r : FMap Req) : (d.setReqs r).led1 = d.led1 := rfl
@[simp] theorem Dev.setReqs_mg (d : Dev) (r : FMap Req) : (d.setReqs r).mg = d.mg := rfl
@[simp] theorem Dev.setReqs_sec (d : Dev) (r : FMap Req) : (d.setReqs r).sec = d.sec := rfl
@[simp] theorem Dev.setReqs_boot (d : Dev) (r : FMap Req) : (d.setReqs r).boot = d.boot := rfl
@[simp] theorem Dev.setReqs_feed (d : Dev) (r : FMap Req) : (d.setReqs r).feed = d.feed := rfl
@[simp] theorem Dev.setReqs_queues (d : Dev) (r : FMap Req) : (d.setReqs r).queues = d.queues := rfl
@[simp] theorem Dev.setReqs_slots (d : Dev) (r : FMap Req) : (d.setReqs r).slots = d.slots := rfl
@[simp] theorem Dev.setReqs_tiles (d : Dev) (r : FMap Req) : (d.setReqs r).tiles = d.tiles := rfl
@[simp] theorem Dev.setReqs_insts (d : Dev) (r : FMap Req) : (d.setReqs r).insts = d.insts := rfl
@[simp] theorem Dev.setReqs_products (d : Dev) (r : FMap Req) : (d.setReqs r).products = d.products := rfl
@[simp] theorem Dev.setReqs_img0 (d : Dev) (r : FMap Req) : (d.setReqs r).img0 = d.img0 := rfl
@[simp] theorem Dev.setReqs_img1 (d : Dev) (r : FMap Req) : (d.setReqs r).img1 = d.img1 := rfl
@[simp] theorem Dev.setReqs_stage0 (d : Dev) (r : FMap Req) : (d.setReqs r).stage0 = d.stage0 := rfl
@[simp] theorem Dev.setReqs_stage1 (d : Dev) (r : FMap Req) : (d.setReqs r).stage1 = d.stage1 := rfl
@[simp] theorem Dev.setReqs_net (d : Dev) (r : FMap Req) : (d.setReqs r).net = d.net := rfl
@[simp] theorem Dev.setReqs_faults (d : Dev) (r : FMap Req) : (d.setReqs r).faults = d.faults := rfl
@[simp] theorem Dev.setReqs_heldW (d : Dev) (r : FMap Req) : (d.setReqs r).heldW = d.heldW := rfl
@[simp] theorem Dev.setReqs_heldE (d : Dev) (r : FMap Req) : (d.setReqs r).heldE = d.heldE := rfl
@[simp] theorem Dev.setReqs_refetch (d : Dev) (r : FMap Req) : (d.setReqs r).refetch = d.refetch := rfl
@[simp] theorem Dev.setReqs_refetched (d : Dev) (r : FMap Req) : (d.setReqs r).refetched = d.refetched := rfl
@[simp] theorem Dev.setReqs_ports (d : Dev) (r : FMap Req) : (d.setReqs r).ports = d.ports := rfl
@[simp] theorem Dev.setReqs_step0 (d : Dev) (r : FMap Req) : (d.setReqs r).step0 = d.step0 := rfl
@[simp] theorem Dev.setReqs_step1 (d : Dev) (r : FMap Req) : (d.setReqs r).step1 = d.step1 := rfl
@[simp] theorem Dev.setReqs_upd (d : Dev) (r : FMap Req) : (d.setReqs r).upd = d.upd := rfl
@[simp] theorem Dev.setReqs_srv (d : Dev) (r : FMap Req) : (d.setReqs r).srv = d.srv := rfl
@[simp] theorem Dev.setReqs_out (d : Dev) (r : FMap Req) : (d.setReqs r).out = d.out := rfl
@[simp] theorem Dev.setReqs_free (d : Dev) (r : FMap Req) : (d.setReqs r).free = d.free := rfl
@[simp] theorem Dev.modSend_regs (d : Dev) (k : Nat) (f : SendS → SendS) : (d.modSend k f).regs = d.regs := rfl
@[simp] theorem Dev.modSend_mem (d : Dev) (k : Nat) (f : SendS → SendS) : (d.modSend k f).mem = d.mem := rfl
@[simp] theorem Dev.modSend_poison (d : Dev) (k : Nat) (f : SendS → SendS) : (d.modSend k f).poison = d.poison := rfl
@[simp] theorem Dev.modSend_pw (d : Dev) (k : Nat) (f : SendS → SendS) : (d.modSend k f).pw = d.pw := rfl
@[simp] theorem Dev.modSend_tally (d : Dev) (k : Nat) (f : SendS → SendS) : (d.modSend k f).tally = d.tally := rfl
@[simp] theorem Dev.modSend_led0 (d : Dev) (k : Nat) (f : SendS → SendS) : (d.modSend k f).led0 = d.led0 := rfl
@[simp] theorem Dev.modSend_led1 (d : Dev) (k : Nat) (f : SendS → SendS) : (d.modSend k f).led1 = d.led1 := rfl
@[simp] theorem Dev.modSend_mg (d : Dev) (k : Nat) (f : SendS → SendS) : (d.modSend k f).mg = d.mg := rfl
@[simp] theorem Dev.modSend_sec (d : Dev) (k : Nat) (f : SendS → SendS) : (d.modSend k f).sec = d.sec := rfl
@[simp] theorem Dev.modSend_boot (d : Dev) (k : Nat) (f : SendS → SendS) : (d.modSend k f).boot = d.boot := rfl
@[simp] theorem Dev.modSend_feed (d : Dev) (k : Nat) (f : SendS → SendS) : (d.modSend k f).feed = d.feed := rfl
@[simp] theorem Dev.modSend_queues (d : Dev) (k : Nat) (f : SendS → SendS) : (d.modSend k f).queues = d.queues := rfl
@[simp] theorem Dev.modSend_slots (d : Dev) (k : Nat) (f : SendS → SendS) : (d.modSend k f).slots = d.slots := rfl
@[simp] theorem Dev.modSend_tiles (d : Dev) (k : Nat) (f : SendS → SendS) : (d.modSend k f).tiles = d.tiles := rfl
@[simp] theorem Dev.modSend_insts (d : Dev) (k : Nat) (f : SendS → SendS) : (d.modSend k f).insts = d.insts := rfl
@[simp] theorem Dev.modSend_products (d : Dev) (k : Nat) (f : SendS → SendS) : (d.modSend k f).products = d.products := rfl
@[simp] theorem Dev.modSend_img0 (d : Dev) (k : Nat) (f : SendS → SendS) : (d.modSend k f).img0 = d.img0 := rfl
@[simp] theorem Dev.modSend_img1 (d : Dev) (k : Nat) (f : SendS → SendS) : (d.modSend k f).img1 = d.img1 := rfl
@[simp] theorem Dev.modSend_stage0 (d : Dev) (k : Nat) (f : SendS → SendS) : (d.modSend k f).stage0 = d.stage0 := rfl
@[simp] theorem Dev.modSend_stage1 (d : Dev) (k : Nat) (f : SendS → SendS) : (d.modSend k f).stage1 = d.stage1 := rfl
@[simp] theorem Dev.modSend_net (d : Dev) (k : Nat) (f : SendS → SendS) : (d.modSend k f).net = d.net := rfl
@[simp] theorem Dev.modSend_faults (d : Dev) (k : Nat) (f : SendS → SendS) : (d.modSend k f).faults = d.faults := rfl
@[simp] theorem Dev.modSend_heldW (d : Dev) (k : Nat) (f : SendS → SendS) : (d.modSend k f).heldW = d.heldW := rfl
@[simp] theorem Dev.modSend_heldE (d : Dev) (k : Nat) (f : SendS → SendS) : (d.modSend k f).heldE = d.heldE := rfl
@[simp] theorem Dev.modSend_refetch (d : Dev) (k : Nat) (f : SendS → SendS) : (d.modSend k f).refetch = d.refetch := rfl
@[simp] theorem Dev.modSend_refetched (d : Dev) (k : Nat) (f : SendS → SendS) : (d.modSend k f).refetched = d.refetched := rfl
@[simp] theorem Dev.modSend_ports (d : Dev) (k : Nat) (f : SendS → SendS) : (d.modSend k f).ports = d.ports := rfl
@[simp] theorem Dev.modSend_step0 (d : Dev) (k : Nat) (f : SendS → SendS) : (d.modSend k f).step0 = d.step0 := rfl
@[simp] theorem Dev.modSend_step1 (d : Dev) (k : Nat) (f : SendS → SendS) : (d.modSend k f).step1 = d.step1 := rfl
@[simp] theorem Dev.modSend_upd (d : Dev) (k : Nat) (f : SendS → SendS) : (d.modSend k f).upd = d.upd := rfl
@[simp] theorem Dev.modSend_srv (d : Dev) (k : Nat) (f : SendS → SendS) : (d.modSend k f).srv = d.srv := rfl
@[simp] theorem Dev.modSend_out (d : Dev) (k : Nat) (f : SendS → SendS) : (d.modSend k f).out = d.out := rfl
@[simp] theorem Dev.modSend_free (d : Dev) (k : Nat) (f : SendS → SendS) : (d.modSend k f).free = d.free := rfl
@[simp] theorem Dev.modRecv_regs (d : Dev) (k : Nat) (f : RecvS → RecvS) : (d.modRecv k f).regs = d.regs := rfl
@[simp] theorem Dev.modRecv_mem (d : Dev) (k : Nat) (f : RecvS → RecvS) : (d.modRecv k f).mem = d.mem := rfl
@[simp] theorem Dev.modRecv_poison (d : Dev) (k : Nat) (f : RecvS → RecvS) : (d.modRecv k f).poison = d.poison := rfl
@[simp] theorem Dev.modRecv_pw (d : Dev) (k : Nat) (f : RecvS → RecvS) : (d.modRecv k f).pw = d.pw := rfl
@[simp] theorem Dev.modRecv_tally (d : Dev) (k : Nat) (f : RecvS → RecvS) : (d.modRecv k f).tally = d.tally := rfl
@[simp] theorem Dev.modRecv_led0 (d : Dev) (k : Nat) (f : RecvS → RecvS) : (d.modRecv k f).led0 = d.led0 := rfl
@[simp] theorem Dev.modRecv_led1 (d : Dev) (k : Nat) (f : RecvS → RecvS) : (d.modRecv k f).led1 = d.led1 := rfl
@[simp] theorem Dev.modRecv_mg (d : Dev) (k : Nat) (f : RecvS → RecvS) : (d.modRecv k f).mg = d.mg := rfl
@[simp] theorem Dev.modRecv_sec (d : Dev) (k : Nat) (f : RecvS → RecvS) : (d.modRecv k f).sec = d.sec := rfl
@[simp] theorem Dev.modRecv_boot (d : Dev) (k : Nat) (f : RecvS → RecvS) : (d.modRecv k f).boot = d.boot := rfl
@[simp] theorem Dev.modRecv_feed (d : Dev) (k : Nat) (f : RecvS → RecvS) : (d.modRecv k f).feed = d.feed := rfl
@[simp] theorem Dev.modRecv_queues (d : Dev) (k : Nat) (f : RecvS → RecvS) : (d.modRecv k f).queues = d.queues := rfl
@[simp] theorem Dev.modRecv_slots (d : Dev) (k : Nat) (f : RecvS → RecvS) : (d.modRecv k f).slots = d.slots := rfl
@[simp] theorem Dev.modRecv_tiles (d : Dev) (k : Nat) (f : RecvS → RecvS) : (d.modRecv k f).tiles = d.tiles := rfl
@[simp] theorem Dev.modRecv_insts (d : Dev) (k : Nat) (f : RecvS → RecvS) : (d.modRecv k f).insts = d.insts := rfl
@[simp] theorem Dev.modRecv_products (d : Dev) (k : Nat) (f : RecvS → RecvS) : (d.modRecv k f).products = d.products := rfl
@[simp] theorem Dev.modRecv_img0 (d : Dev) (k : Nat) (f : RecvS → RecvS) : (d.modRecv k f).img0 = d.img0 := rfl
@[simp] theorem Dev.modRecv_img1 (d : Dev) (k : Nat) (f : RecvS → RecvS) : (d.modRecv k f).img1 = d.img1 := rfl
@[simp] theorem Dev.modRecv_stage0 (d : Dev) (k : Nat) (f : RecvS → RecvS) : (d.modRecv k f).stage0 = d.stage0 := rfl
@[simp] theorem Dev.modRecv_stage1 (d : Dev) (k : Nat) (f : RecvS → RecvS) : (d.modRecv k f).stage1 = d.stage1 := rfl
@[simp] theorem Dev.modRecv_net (d : Dev) (k : Nat) (f : RecvS → RecvS) : (d.modRecv k f).net = d.net := rfl
@[simp] theorem Dev.modRecv_faults (d : Dev) (k : Nat) (f : RecvS → RecvS) : (d.modRecv k f).faults = d.faults := rfl
@[simp] theorem Dev.modRecv_heldW (d : Dev) (k : Nat) (f : RecvS → RecvS) : (d.modRecv k f).heldW = d.heldW := rfl
@[simp] theorem Dev.modRecv_heldE (d : Dev) (k : Nat) (f : RecvS → RecvS) : (d.modRecv k f).heldE = d.heldE := rfl
@[simp] theorem Dev.modRecv_refetch (d : Dev) (k : Nat) (f : RecvS → RecvS) : (d.modRecv k f).refetch = d.refetch := rfl
@[simp] theorem Dev.modRecv_refetched (d : Dev) (k : Nat) (f : RecvS → RecvS) : (d.modRecv k f).refetched = d.refetched := rfl
@[simp] theorem Dev.modRecv_ports (d : Dev) (k : Nat) (f : RecvS → RecvS) : (d.modRecv k f).ports = d.ports := rfl
@[simp] theorem Dev.modRecv_step0 (d : Dev) (k : Nat) (f : RecvS → RecvS) : (d.modRecv k f).step0 = d.step0 := rfl
@[simp] theorem Dev.modRecv_step1 (d : Dev) (k : Nat) (f : RecvS → RecvS) : (d.modRecv k f).step1 = d.step1 := rfl
@[simp] theorem Dev.modRecv_upd (d : Dev) (k : Nat) (f : RecvS → RecvS) : (d.modRecv k f).upd = d.upd := rfl
@[simp] theorem Dev.modRecv_srv (d : Dev) (k : Nat) (f : RecvS → RecvS) : (d.modRecv k f).srv = d.srv := rfl
@[simp] theorem Dev.modRecv_out (d : Dev) (k : Nat) (f : RecvS → RecvS) : (d.modRecv k f).out = d.out := rfl
@[simp] theorem Dev.modRecv_free (d : Dev) (k : Nat) (f : RecvS → RecvS) : (d.modRecv k f).free = d.free := rfl

/-- Every part of the device that does not see heldW, heldE is kept. -/
theorem Dev.setHeld_keep {β : Type} (g : Dev → β) (hheldW : ∀ d x, g { d with heldW := x } = g d) (hheldE : ∀ d x, g { d with heldE := x } = g d) (d : Dev) (h : HalfId) (v : Bool) :
    g (d.setHeld h v) = g d := by
  unfold Dev.setHeld; split <;> [exact hheldE d _; exact hheldW d _]
@[simp] theorem Dev.setHeld_regs (d : Dev) (h : HalfId) (v : Bool) : (d.setHeld h v).regs = d.regs := Dev.setHeld_keep Dev.regs (fun _ _ => rfl) (fun _ _ => rfl) d h v
@[simp] theorem Dev.setHeld_mem (d : Dev) (h : HalfId) (v : Bool) : (d.setHeld h v).mem = d.mem := Dev.setHeld_keep Dev.mem (fun _ _ => rfl) (fun _ _ => rfl) d h v
@[simp] theorem Dev.setHeld_poison (d : Dev) (h : HalfId) (v : Bool) : (d.setHeld h v).poison = d.poison := Dev.setHeld_keep Dev.poison (fun _ _ => rfl) (fun _ _ => rfl) d h v
@[simp] theorem Dev.setHeld_pw (d : Dev) (h : HalfId) (v : Bool) : (d.setHeld h v).pw = d.pw := Dev.setHeld_keep Dev.pw (fun _ _ => rfl) (fun _ _ => rfl) d h v
@[simp] theorem Dev.setHeld_tally (d : Dev) (h : HalfId) (v : Bool) : (d.setHeld h v).tally = d.tally := Dev.setHeld_keep Dev.tally (fun _ _ => rfl) (fun _ _ => rfl) d h v
@[simp] theorem Dev.setHeld_led0 (d : Dev) (h : HalfId) (v : Bool) : (d.setHeld h v).led0 = d.led0 := Dev.setHeld_keep Dev.led0 (fun _ _ => rfl) (fun _ _ => rfl) d h v
@[simp] theorem Dev.setHeld_led1 (d : Dev) (h : HalfId) (v : Bool) : (d.setHeld h v).led1 = d.led1 := Dev.setHeld_keep Dev.led1 (fun _ _ => rfl) (fun _ _ => rfl) d h v
@[simp] theorem Dev.setHeld_mg (d : Dev) (h : HalfId) (v : Bool) : (d.setHeld h v).mg = d.mg := Dev.setHeld_keep Dev.mg (fun _ _ => rfl) (fun _ _ => rfl) d h v
@[simp] theorem Dev.setHeld_sec (d : Dev) (h : HalfId) (v : Bool) : (d.setHeld h v).sec = d.sec := Dev.setHeld_keep Dev.sec (fun _ _ => rfl) (fun _ _ => rfl) d h v
@[simp] theorem Dev.setHeld_boot (d : Dev) (h : HalfId) (v : Bool) : (d.setHeld h v).boot = d.boot := Dev.setHeld_keep Dev.boot (fun _ _ => rfl) (fun _ _ => rfl) d h v
@[simp] theorem Dev.setHeld_feed (d : Dev) (h : HalfId) (v : Bool) : (d.setHeld h v).feed = d.feed := Dev.setHeld_keep Dev.feed (fun _ _ => rfl) (fun _ _ => rfl) d h v
@[simp] theorem Dev.setHeld_queues (d : Dev) (h : HalfId) (v : Bool) : (d.setHeld h v).queues = d.queues := Dev.setHeld_keep Dev.queues (fun _ _ => rfl) (fun _ _ => rfl) d h v
@[simp] theorem Dev.setHeld_slots (d : Dev) (h : HalfId) (v : Bool) : (d.setHeld h v).slots = d.slots := Dev.setHeld_keep Dev.slots (fun _ _ => rfl) (fun _ _ => rfl) d h v
@[simp] theorem Dev.setHeld_tiles (d : Dev) (h : HalfId) (v : Bool) : (d.setHeld h v).tiles = d.tiles := Dev.setHeld_keep Dev.tiles (fun _ _ => rfl) (fun _ _ => rfl) d h v
@[simp] theorem Dev.setHeld_insts (d : Dev) (h : HalfId) (v : Bool) : (d.setHeld h v).insts = d.insts := Dev.setHeld_keep Dev.insts (fun _ _ => rfl) (fun _ _ => rfl) d h v
@[simp] theorem Dev.setHeld_products (d : Dev) (h : HalfId) (v : Bool) : (d.setHeld h v).products = d.products := Dev.setHeld_keep Dev.products (fun _ _ => rfl) (fun _ _ => rfl) d h v
@[simp] theorem Dev.setHeld_img0 (d : Dev) (h : HalfId) (v : Bool) : (d.setHeld h v).img0 = d.img0 := Dev.setHeld_keep Dev.img0 (fun _ _ => rfl) (fun _ _ => rfl) d h v
@[simp] theorem Dev.setHeld_img1 (d : Dev) (h : HalfId) (v : Bool) : (d.setHeld h v).img1 = d.img1 := Dev.setHeld_keep Dev.img1 (fun _ _ => rfl) (fun _ _ => rfl) d h v
@[simp] theorem Dev.setHeld_stage0 (d : Dev) (h : HalfId) (v : Bool) : (d.setHeld h v).stage0 = d.stage0 := Dev.setHeld_keep Dev.stage0 (fun _ _ => rfl) (fun _ _ => rfl) d h v
@[simp] theorem Dev.setHeld_stage1 (d : Dev) (h : HalfId) (v : Bool) : (d.setHeld h v).stage1 = d.stage1 := Dev.setHeld_keep Dev.stage1 (fun _ _ => rfl) (fun _ _ => rfl) d h v
@[simp] theorem Dev.setHeld_net (d : Dev) (h : HalfId) (v : Bool) : (d.setHeld h v).net = d.net := Dev.setHeld_keep Dev.net (fun _ _ => rfl) (fun _ _ => rfl) d h v
@[simp] theorem Dev.setHeld_faults (d : Dev) (h : HalfId) (v : Bool) : (d.setHeld h v).faults = d.faults := Dev.setHeld_keep Dev.faults (fun _ _ => rfl) (fun _ _ => rfl) d h v
@[simp] theorem Dev.setHeld_refetch (d : Dev) (h : HalfId) (v : Bool) : (d.setHeld h v).refetch = d.refetch := Dev.setHeld_keep Dev.refetch (fun _ _ => rfl) (fun _ _ => rfl) d h v
@[simp] theorem Dev.setHeld_refetched (d : Dev) (h : HalfId) (v : Bool) : (d.setHeld h v).refetched = d.refetched := Dev.setHeld_keep Dev.refetched (fun _ _ => rfl) (fun _ _ => rfl) d h v
@[simp] theorem Dev.setHeld_ports (d : Dev) (h : HalfId) (v : Bool) : (d.setHeld h v).ports = d.ports := Dev.setHeld_keep Dev.ports (fun _ _ => rfl) (fun _ _ => rfl) d h v
@[simp] theorem Dev.setHeld_fab (d : Dev) (h : HalfId) (v : Bool) : (d.setHeld h v).fab = d.fab := Dev.setHeld_keep Dev.fab (fun _ _ => rfl) (fun _ _ => rfl) d h v
@[simp] theorem Dev.setHeld_step0 (d : Dev) (h : HalfId) (v : Bool) : (d.setHeld h v).step0 = d.step0 := Dev.setHeld_keep Dev.step0 (fun _ _ => rfl) (fun _ _ => rfl) d h v
@[simp] theorem Dev.setHeld_step1 (d : Dev) (h : HalfId) (v : Bool) : (d.setHeld h v).step1 = d.step1 := Dev.setHeld_keep Dev.step1 (fun _ _ => rfl) (fun _ _ => rfl) d h v
@[simp] theorem Dev.setHeld_upd (d : Dev) (h : HalfId) (v : Bool) : (d.setHeld h v).upd = d.upd := Dev.setHeld_keep Dev.upd (fun _ _ => rfl) (fun _ _ => rfl) d h v
@[simp] theorem Dev.setHeld_srv (d : Dev) (h : HalfId) (v : Bool) : (d.setHeld h v).srv = d.srv := Dev.setHeld_keep Dev.srv (fun _ _ => rfl) (fun _ _ => rfl) d h v
@[simp] theorem Dev.setHeld_out (d : Dev) (h : HalfId) (v : Bool) : (d.setHeld h v).out = d.out := Dev.setHeld_keep Dev.out (fun _ _ => rfl) (fun _ _ => rfl) d h v
@[simp] theorem Dev.setHeld_free (d : Dev) (h : HalfId) (v : Bool) : (d.setHeld h v).free = d.free := Dev.setHeld_keep Dev.free (fun _ _ => rfl) (fun _ _ => rfl) d h v

/-- Every part of the device that does not see img0, img1 is kept. -/
theorem Dev.setImage_keep {β : Type} (g : Dev → β) (himg0 : ∀ d x, g { d with img0 := x } = g d) (himg1 : ∀ d x, g { d with img1 := x } = g d) (d : Dev) (h : HalfId) (i : Option Image) :
    g (d.setImage h i) = g d := by
  unfold Dev.setImage; split <;> [exact himg1 d _; exact himg0 d _]
@[simp] theorem Dev.setImage_regs (d : Dev) (h : HalfId) (i : Option Image) : (d.setImage h i).regs = d.regs := Dev.setImage_keep Dev.regs (fun _ _ => rfl) (fun _ _ => rfl) d h i
@[simp] theorem Dev.setImage_mem (d : Dev) (h : HalfId) (i : Option Image) : (d.setImage h i).mem = d.mem := Dev.setImage_keep Dev.mem (fun _ _ => rfl) (fun _ _ => rfl) d h i
@[simp] theorem Dev.setImage_poison (d : Dev) (h : HalfId) (i : Option Image) : (d.setImage h i).poison = d.poison := Dev.setImage_keep Dev.poison (fun _ _ => rfl) (fun _ _ => rfl) d h i
@[simp] theorem Dev.setImage_pw (d : Dev) (h : HalfId) (i : Option Image) : (d.setImage h i).pw = d.pw := Dev.setImage_keep Dev.pw (fun _ _ => rfl) (fun _ _ => rfl) d h i
@[simp] theorem Dev.setImage_tally (d : Dev) (h : HalfId) (i : Option Image) : (d.setImage h i).tally = d.tally := Dev.setImage_keep Dev.tally (fun _ _ => rfl) (fun _ _ => rfl) d h i
@[simp] theorem Dev.setImage_led0 (d : Dev) (h : HalfId) (i : Option Image) : (d.setImage h i).led0 = d.led0 := Dev.setImage_keep Dev.led0 (fun _ _ => rfl) (fun _ _ => rfl) d h i
@[simp] theorem Dev.setImage_led1 (d : Dev) (h : HalfId) (i : Option Image) : (d.setImage h i).led1 = d.led1 := Dev.setImage_keep Dev.led1 (fun _ _ => rfl) (fun _ _ => rfl) d h i
@[simp] theorem Dev.setImage_mg (d : Dev) (h : HalfId) (i : Option Image) : (d.setImage h i).mg = d.mg := Dev.setImage_keep Dev.mg (fun _ _ => rfl) (fun _ _ => rfl) d h i
@[simp] theorem Dev.setImage_sec (d : Dev) (h : HalfId) (i : Option Image) : (d.setImage h i).sec = d.sec := Dev.setImage_keep Dev.sec (fun _ _ => rfl) (fun _ _ => rfl) d h i
@[simp] theorem Dev.setImage_boot (d : Dev) (h : HalfId) (i : Option Image) : (d.setImage h i).boot = d.boot := Dev.setImage_keep Dev.boot (fun _ _ => rfl) (fun _ _ => rfl) d h i
@[simp] theorem Dev.setImage_feed (d : Dev) (h : HalfId) (i : Option Image) : (d.setImage h i).feed = d.feed := Dev.setImage_keep Dev.feed (fun _ _ => rfl) (fun _ _ => rfl) d h i
@[simp] theorem Dev.setImage_queues (d : Dev) (h : HalfId) (i : Option Image) : (d.setImage h i).queues = d.queues := Dev.setImage_keep Dev.queues (fun _ _ => rfl) (fun _ _ => rfl) d h i
@[simp] theorem Dev.setImage_slots (d : Dev) (h : HalfId) (i : Option Image) : (d.setImage h i).slots = d.slots := Dev.setImage_keep Dev.slots (fun _ _ => rfl) (fun _ _ => rfl) d h i
@[simp] theorem Dev.setImage_tiles (d : Dev) (h : HalfId) (i : Option Image) : (d.setImage h i).tiles = d.tiles := Dev.setImage_keep Dev.tiles (fun _ _ => rfl) (fun _ _ => rfl) d h i
@[simp] theorem Dev.setImage_insts (d : Dev) (h : HalfId) (i : Option Image) : (d.setImage h i).insts = d.insts := Dev.setImage_keep Dev.insts (fun _ _ => rfl) (fun _ _ => rfl) d h i
@[simp] theorem Dev.setImage_products (d : Dev) (h : HalfId) (i : Option Image) : (d.setImage h i).products = d.products := Dev.setImage_keep Dev.products (fun _ _ => rfl) (fun _ _ => rfl) d h i
@[simp] theorem Dev.setImage_stage0 (d : Dev) (h : HalfId) (i : Option Image) : (d.setImage h i).stage0 = d.stage0 := Dev.setImage_keep Dev.stage0 (fun _ _ => rfl) (fun _ _ => rfl) d h i
@[simp] theorem Dev.setImage_stage1 (d : Dev) (h : HalfId) (i : Option Image) : (d.setImage h i).stage1 = d.stage1 := Dev.setImage_keep Dev.stage1 (fun _ _ => rfl) (fun _ _ => rfl) d h i
@[simp] theorem Dev.setImage_net (d : Dev) (h : HalfId) (i : Option Image) : (d.setImage h i).net = d.net := Dev.setImage_keep Dev.net (fun _ _ => rfl) (fun _ _ => rfl) d h i
@[simp] theorem Dev.setImage_faults (d : Dev) (h : HalfId) (i : Option Image) : (d.setImage h i).faults = d.faults := Dev.setImage_keep Dev.faults (fun _ _ => rfl) (fun _ _ => rfl) d h i
@[simp] theorem Dev.setImage_heldW (d : Dev) (h : HalfId) (i : Option Image) : (d.setImage h i).heldW = d.heldW := Dev.setImage_keep Dev.heldW (fun _ _ => rfl) (fun _ _ => rfl) d h i
@[simp] theorem Dev.setImage_heldE (d : Dev) (h : HalfId) (i : Option Image) : (d.setImage h i).heldE = d.heldE := Dev.setImage_keep Dev.heldE (fun _ _ => rfl) (fun _ _ => rfl) d h i
@[simp] theorem Dev.setImage_refetch (d : Dev) (h : HalfId) (i : Option Image) : (d.setImage h i).refetch = d.refetch := Dev.setImage_keep Dev.refetch (fun _ _ => rfl) (fun _ _ => rfl) d h i
@[simp] theorem Dev.setImage_refetched (d : Dev) (h : HalfId) (i : Option Image) : (d.setImage h i).refetched = d.refetched := Dev.setImage_keep Dev.refetched (fun _ _ => rfl) (fun _ _ => rfl) d h i
@[simp] theorem Dev.setImage_ports (d : Dev) (h : HalfId) (i : Option Image) : (d.setImage h i).ports = d.ports := Dev.setImage_keep Dev.ports (fun _ _ => rfl) (fun _ _ => rfl) d h i
@[simp] theorem Dev.setImage_fab (d : Dev) (h : HalfId) (i : Option Image) : (d.setImage h i).fab = d.fab := Dev.setImage_keep Dev.fab (fun _ _ => rfl) (fun _ _ => rfl) d h i
@[simp] theorem Dev.setImage_step0 (d : Dev) (h : HalfId) (i : Option Image) : (d.setImage h i).step0 = d.step0 := Dev.setImage_keep Dev.step0 (fun _ _ => rfl) (fun _ _ => rfl) d h i
@[simp] theorem Dev.setImage_step1 (d : Dev) (h : HalfId) (i : Option Image) : (d.setImage h i).step1 = d.step1 := Dev.setImage_keep Dev.step1 (fun _ _ => rfl) (fun _ _ => rfl) d h i
@[simp] theorem Dev.setImage_upd (d : Dev) (h : HalfId) (i : Option Image) : (d.setImage h i).upd = d.upd := Dev.setImage_keep Dev.upd (fun _ _ => rfl) (fun _ _ => rfl) d h i
@[simp] theorem Dev.setImage_srv (d : Dev) (h : HalfId) (i : Option Image) : (d.setImage h i).srv = d.srv := Dev.setImage_keep Dev.srv (fun _ _ => rfl) (fun _ _ => rfl) d h i
@[simp] theorem Dev.setImage_out (d : Dev) (h : HalfId) (i : Option Image) : (d.setImage h i).out = d.out := Dev.setImage_keep Dev.out (fun _ _ => rfl) (fun _ _ => rfl) d h i
@[simp] theorem Dev.setImage_free (d : Dev) (h : HalfId) (i : Option Image) : (d.setImage h i).free = d.free := Dev.setImage_keep Dev.free (fun _ _ => rfl) (fun _ _ => rfl) d h i

/-- Every part of the device that does not see stage0, stage1 is kept. -/
theorem Dev.setStaging_keep {β : Type} (g : Dev → β) (hstage0 : ∀ d x, g { d with stage0 := x } = g d) (hstage1 : ∀ d x, g { d with stage1 := x } = g d) (d : Dev) (h : HalfId) (x : Staging) :
    g (d.setStaging h x) = g d := by
  unfold Dev.setStaging; split <;> [exact hstage1 d _; exact hstage0 d _]
@[simp] theorem Dev.setStaging_regs (d : Dev) (h : HalfId) (x : Staging) : (d.setStaging h x).regs = d.regs := Dev.setStaging_keep Dev.regs (fun _ _ => rfl) (fun _ _ => rfl) d h x
@[simp] theorem Dev.setStaging_mem (d : Dev) (h : HalfId) (x : Staging) : (d.setStaging h x).mem = d.mem := Dev.setStaging_keep Dev.mem (fun _ _ => rfl) (fun _ _ => rfl) d h x
@[simp] theorem Dev.setStaging_poison (d : Dev) (h : HalfId) (x : Staging) : (d.setStaging h x).poison = d.poison := Dev.setStaging_keep Dev.poison (fun _ _ => rfl) (fun _ _ => rfl) d h x
@[simp] theorem Dev.setStaging_pw (d : Dev) (h : HalfId) (x : Staging) : (d.setStaging h x).pw = d.pw := Dev.setStaging_keep Dev.pw (fun _ _ => rfl) (fun _ _ => rfl) d h x
@[simp] theorem Dev.setStaging_tally (d : Dev) (h : HalfId) (x : Staging) : (d.setStaging h x).tally = d.tally := Dev.setStaging_keep Dev.tally (fun _ _ => rfl) (fun _ _ => rfl) d h x
@[simp] theorem Dev.setStaging_led0 (d : Dev) (h : HalfId) (x : Staging) : (d.setStaging h x).led0 = d.led0 := Dev.setStaging_keep Dev.led0 (fun _ _ => rfl) (fun _ _ => rfl) d h x
@[simp] theorem Dev.setStaging_led1 (d : Dev) (h : HalfId) (x : Staging) : (d.setStaging h x).led1 = d.led1 := Dev.setStaging_keep Dev.led1 (fun _ _ => rfl) (fun _ _ => rfl) d h x
@[simp] theorem Dev.setStaging_mg (d : Dev) (h : HalfId) (x : Staging) : (d.setStaging h x).mg = d.mg := Dev.setStaging_keep Dev.mg (fun _ _ => rfl) (fun _ _ => rfl) d h x
@[simp] theorem Dev.setStaging_sec (d : Dev) (h : HalfId) (x : Staging) : (d.setStaging h x).sec = d.sec := Dev.setStaging_keep Dev.sec (fun _ _ => rfl) (fun _ _ => rfl) d h x
@[simp] theorem Dev.setStaging_boot (d : Dev) (h : HalfId) (x : Staging) : (d.setStaging h x).boot = d.boot := Dev.setStaging_keep Dev.boot (fun _ _ => rfl) (fun _ _ => rfl) d h x
@[simp] theorem Dev.setStaging_feed (d : Dev) (h : HalfId) (x : Staging) : (d.setStaging h x).feed = d.feed := Dev.setStaging_keep Dev.feed (fun _ _ => rfl) (fun _ _ => rfl) d h x
@[simp] theorem Dev.setStaging_queues (d : Dev) (h : HalfId) (x : Staging) : (d.setStaging h x).queues = d.queues := Dev.setStaging_keep Dev.queues (fun _ _ => rfl) (fun _ _ => rfl) d h x
@[simp] theorem Dev.setStaging_slots (d : Dev) (h : HalfId) (x : Staging) : (d.setStaging h x).slots = d.slots := Dev.setStaging_keep Dev.slots (fun _ _ => rfl) (fun _ _ => rfl) d h x
@[simp] theorem Dev.setStaging_tiles (d : Dev) (h : HalfId) (x : Staging) : (d.setStaging h x).tiles = d.tiles := Dev.setStaging_keep Dev.tiles (fun _ _ => rfl) (fun _ _ => rfl) d h x
@[simp] theorem Dev.setStaging_insts (d : Dev) (h : HalfId) (x : Staging) : (d.setStaging h x).insts = d.insts := Dev.setStaging_keep Dev.insts (fun _ _ => rfl) (fun _ _ => rfl) d h x
@[simp] theorem Dev.setStaging_products (d : Dev) (h : HalfId) (x : Staging) : (d.setStaging h x).products = d.products := Dev.setStaging_keep Dev.products (fun _ _ => rfl) (fun _ _ => rfl) d h x
@[simp] theorem Dev.setStaging_img0 (d : Dev) (h : HalfId) (x : Staging) : (d.setStaging h x).img0 = d.img0 := Dev.setStaging_keep Dev.img0 (fun _ _ => rfl) (fun _ _ => rfl) d h x
@[simp] theorem Dev.setStaging_img1 (d : Dev) (h : HalfId) (x : Staging) : (d.setStaging h x).img1 = d.img1 := Dev.setStaging_keep Dev.img1 (fun _ _ => rfl) (fun _ _ => rfl) d h x
@[simp] theorem Dev.setStaging_net (d : Dev) (h : HalfId) (x : Staging) : (d.setStaging h x).net = d.net := Dev.setStaging_keep Dev.net (fun _ _ => rfl) (fun _ _ => rfl) d h x
@[simp] theorem Dev.setStaging_faults (d : Dev) (h : HalfId) (x : Staging) : (d.setStaging h x).faults = d.faults := Dev.setStaging_keep Dev.faults (fun _ _ => rfl) (fun _ _ => rfl) d h x
@[simp] theorem Dev.setStaging_heldW (d : Dev) (h : HalfId) (x : Staging) : (d.setStaging h x).heldW = d.heldW := Dev.setStaging_keep Dev.heldW (fun _ _ => rfl) (fun _ _ => rfl) d h x
@[simp] theorem Dev.setStaging_heldE (d : Dev) (h : HalfId) (x : Staging) : (d.setStaging h x).heldE = d.heldE := Dev.setStaging_keep Dev.heldE (fun _ _ => rfl) (fun _ _ => rfl) d h x
@[simp] theorem Dev.setStaging_refetch (d : Dev) (h : HalfId) (x : Staging) : (d.setStaging h x).refetch = d.refetch := Dev.setStaging_keep Dev.refetch (fun _ _ => rfl) (fun _ _ => rfl) d h x
@[simp] theorem Dev.setStaging_refetched (d : Dev) (h : HalfId) (x : Staging) : (d.setStaging h x).refetched = d.refetched := Dev.setStaging_keep Dev.refetched (fun _ _ => rfl) (fun _ _ => rfl) d h x
@[simp] theorem Dev.setStaging_ports (d : Dev) (h : HalfId) (x : Staging) : (d.setStaging h x).ports = d.ports := Dev.setStaging_keep Dev.ports (fun _ _ => rfl) (fun _ _ => rfl) d h x
@[simp] theorem Dev.setStaging_fab (d : Dev) (h : HalfId) (x : Staging) : (d.setStaging h x).fab = d.fab := Dev.setStaging_keep Dev.fab (fun _ _ => rfl) (fun _ _ => rfl) d h x
@[simp] theorem Dev.setStaging_step0 (d : Dev) (h : HalfId) (x : Staging) : (d.setStaging h x).step0 = d.step0 := Dev.setStaging_keep Dev.step0 (fun _ _ => rfl) (fun _ _ => rfl) d h x
@[simp] theorem Dev.setStaging_step1 (d : Dev) (h : HalfId) (x : Staging) : (d.setStaging h x).step1 = d.step1 := Dev.setStaging_keep Dev.step1 (fun _ _ => rfl) (fun _ _ => rfl) d h x
@[simp] theorem Dev.setStaging_upd (d : Dev) (h : HalfId) (x : Staging) : (d.setStaging h x).upd = d.upd := Dev.setStaging_keep Dev.upd (fun _ _ => rfl) (fun _ _ => rfl) d h x
@[simp] theorem Dev.setStaging_srv (d : Dev) (h : HalfId) (x : Staging) : (d.setStaging h x).srv = d.srv := Dev.setStaging_keep Dev.srv (fun _ _ => rfl) (fun _ _ => rfl) d h x
@[simp] theorem Dev.setStaging_out (d : Dev) (h : HalfId) (x : Staging) : (d.setStaging h x).out = d.out := Dev.setStaging_keep Dev.out (fun _ _ => rfl) (fun _ _ => rfl) d h x
@[simp] theorem Dev.setStaging_free (d : Dev) (h : HalfId) (x : Staging) : (d.setStaging h x).free = d.free := Dev.setStaging_keep Dev.free (fun _ _ => rfl) (fun _ _ => rfl) d h x

/-- Every part of the device that does not see step0, step1 is kept. -/
theorem Dev.modStep_keep {β : Type} (g : Dev → β) (hstep0 : ∀ d x, g { d with step0 := x } = g d) (hstep1 : ∀ d x, g { d with step1 := x } = g d) (d : Dev) (h : HalfId) (f : StepS → StepS) :
    g (d.modStep h f) = g d := by
  unfold Dev.modStep; split <;> [exact hstep1 d _; exact hstep0 d _]
@[simp] theorem Dev.modStep_regs (d : Dev) (h : HalfId) (f : StepS → StepS) : (d.modStep h f).regs = d.regs := Dev.modStep_keep Dev.regs (fun _ _ => rfl) (fun _ _ => rfl) d h f
@[simp] theorem Dev.modStep_mem (d : Dev) (h : HalfId) (f : StepS → StepS) : (d.modStep h f).mem = d.mem := Dev.modStep_keep Dev.mem (fun _ _ => rfl) (fun _ _ => rfl) d h f
@[simp] theorem Dev.modStep_poison (d : Dev) (h : HalfId) (f : StepS → StepS) : (d.modStep h f).poison = d.poison := Dev.modStep_keep Dev.poison (fun _ _ => rfl) (fun _ _ => rfl) d h f
@[simp] theorem Dev.modStep_pw (d : Dev) (h : HalfId) (f : StepS → StepS) : (d.modStep h f).pw = d.pw := Dev.modStep_keep Dev.pw (fun _ _ => rfl) (fun _ _ => rfl) d h f
@[simp] theorem Dev.modStep_tally (d : Dev) (h : HalfId) (f : StepS → StepS) : (d.modStep h f).tally = d.tally := Dev.modStep_keep Dev.tally (fun _ _ => rfl) (fun _ _ => rfl) d h f
@[simp] theorem Dev.modStep_led0 (d : Dev) (h : HalfId) (f : StepS → StepS) : (d.modStep h f).led0 = d.led0 := Dev.modStep_keep Dev.led0 (fun _ _ => rfl) (fun _ _ => rfl) d h f
@[simp] theorem Dev.modStep_led1 (d : Dev) (h : HalfId) (f : StepS → StepS) : (d.modStep h f).led1 = d.led1 := Dev.modStep_keep Dev.led1 (fun _ _ => rfl) (fun _ _ => rfl) d h f
@[simp] theorem Dev.modStep_mg (d : Dev) (h : HalfId) (f : StepS → StepS) : (d.modStep h f).mg = d.mg := Dev.modStep_keep Dev.mg (fun _ _ => rfl) (fun _ _ => rfl) d h f
@[simp] theorem Dev.modStep_sec (d : Dev) (h : HalfId) (f : StepS → StepS) : (d.modStep h f).sec = d.sec := Dev.modStep_keep Dev.sec (fun _ _ => rfl) (fun _ _ => rfl) d h f
@[simp] theorem Dev.modStep_boot (d : Dev) (h : HalfId) (f : StepS → StepS) : (d.modStep h f).boot = d.boot := Dev.modStep_keep Dev.boot (fun _ _ => rfl) (fun _ _ => rfl) d h f
@[simp] theorem Dev.modStep_feed (d : Dev) (h : HalfId) (f : StepS → StepS) : (d.modStep h f).feed = d.feed := Dev.modStep_keep Dev.feed (fun _ _ => rfl) (fun _ _ => rfl) d h f
@[simp] theorem Dev.modStep_queues (d : Dev) (h : HalfId) (f : StepS → StepS) : (d.modStep h f).queues = d.queues := Dev.modStep_keep Dev.queues (fun _ _ => rfl) (fun _ _ => rfl) d h f
@[simp] theorem Dev.modStep_slots (d : Dev) (h : HalfId) (f : StepS → StepS) : (d.modStep h f).slots = d.slots := Dev.modStep_keep Dev.slots (fun _ _ => rfl) (fun _ _ => rfl) d h f
@[simp] theorem Dev.modStep_tiles (d : Dev) (h : HalfId) (f : StepS → StepS) : (d.modStep h f).tiles = d.tiles := Dev.modStep_keep Dev.tiles (fun _ _ => rfl) (fun _ _ => rfl) d h f
@[simp] theorem Dev.modStep_insts (d : Dev) (h : HalfId) (f : StepS → StepS) : (d.modStep h f).insts = d.insts := Dev.modStep_keep Dev.insts (fun _ _ => rfl) (fun _ _ => rfl) d h f
@[simp] theorem Dev.modStep_products (d : Dev) (h : HalfId) (f : StepS → StepS) : (d.modStep h f).products = d.products := Dev.modStep_keep Dev.products (fun _ _ => rfl) (fun _ _ => rfl) d h f
@[simp] theorem Dev.modStep_img0 (d : Dev) (h : HalfId) (f : StepS → StepS) : (d.modStep h f).img0 = d.img0 := Dev.modStep_keep Dev.img0 (fun _ _ => rfl) (fun _ _ => rfl) d h f
@[simp] theorem Dev.modStep_img1 (d : Dev) (h : HalfId) (f : StepS → StepS) : (d.modStep h f).img1 = d.img1 := Dev.modStep_keep Dev.img1 (fun _ _ => rfl) (fun _ _ => rfl) d h f
@[simp] theorem Dev.modStep_stage0 (d : Dev) (h : HalfId) (f : StepS → StepS) : (d.modStep h f).stage0 = d.stage0 := Dev.modStep_keep Dev.stage0 (fun _ _ => rfl) (fun _ _ => rfl) d h f
@[simp] theorem Dev.modStep_stage1 (d : Dev) (h : HalfId) (f : StepS → StepS) : (d.modStep h f).stage1 = d.stage1 := Dev.modStep_keep Dev.stage1 (fun _ _ => rfl) (fun _ _ => rfl) d h f
@[simp] theorem Dev.modStep_net (d : Dev) (h : HalfId) (f : StepS → StepS) : (d.modStep h f).net = d.net := Dev.modStep_keep Dev.net (fun _ _ => rfl) (fun _ _ => rfl) d h f
@[simp] theorem Dev.modStep_faults (d : Dev) (h : HalfId) (f : StepS → StepS) : (d.modStep h f).faults = d.faults := Dev.modStep_keep Dev.faults (fun _ _ => rfl) (fun _ _ => rfl) d h f
@[simp] theorem Dev.modStep_heldW (d : Dev) (h : HalfId) (f : StepS → StepS) : (d.modStep h f).heldW = d.heldW := Dev.modStep_keep Dev.heldW (fun _ _ => rfl) (fun _ _ => rfl) d h f
@[simp] theorem Dev.modStep_heldE (d : Dev) (h : HalfId) (f : StepS → StepS) : (d.modStep h f).heldE = d.heldE := Dev.modStep_keep Dev.heldE (fun _ _ => rfl) (fun _ _ => rfl) d h f
@[simp] theorem Dev.modStep_refetch (d : Dev) (h : HalfId) (f : StepS → StepS) : (d.modStep h f).refetch = d.refetch := Dev.modStep_keep Dev.refetch (fun _ _ => rfl) (fun _ _ => rfl) d h f
@[simp] theorem Dev.modStep_refetched (d : Dev) (h : HalfId) (f : StepS → StepS) : (d.modStep h f).refetched = d.refetched := Dev.modStep_keep Dev.refetched (fun _ _ => rfl) (fun _ _ => rfl) d h f
@[simp] theorem Dev.modStep_ports (d : Dev) (h : HalfId) (f : StepS → StepS) : (d.modStep h f).ports = d.ports := Dev.modStep_keep Dev.ports (fun _ _ => rfl) (fun _ _ => rfl) d h f
@[simp] theorem Dev.modStep_fab (d : Dev) (h : HalfId) (f : StepS → StepS) : (d.modStep h f).fab = d.fab := Dev.modStep_keep Dev.fab (fun _ _ => rfl) (fun _ _ => rfl) d h f
@[simp] theorem Dev.modStep_upd (d : Dev) (h : HalfId) (f : StepS → StepS) : (d.modStep h f).upd = d.upd := Dev.modStep_keep Dev.upd (fun _ _ => rfl) (fun _ _ => rfl) d h f
@[simp] theorem Dev.modStep_srv (d : Dev) (h : HalfId) (f : StepS → StepS) : (d.modStep h f).srv = d.srv := Dev.modStep_keep Dev.srv (fun _ _ => rfl) (fun _ _ => rfl) d h f
@[simp] theorem Dev.modStep_out (d : Dev) (h : HalfId) (f : StepS → StepS) : (d.modStep h f).out = d.out := Dev.modStep_keep Dev.out (fun _ _ => rfl) (fun _ _ => rfl) d h f
@[simp] theorem Dev.modStep_free (d : Dev) (h : HalfId) (f : StepS → StepS) : (d.modStep h f).free = d.free := Dev.modStep_keep Dev.free (fun _ _ => rfl) (fun _ _ => rfl) d h f

/-- Every part of the device that does not see step0, step1 is kept. -/
theorem Dev.modRun_keep {β : Type} (g : Dev → β) (hstep0 : ∀ d x, g { d with step0 := x } = g d) (hstep1 : ∀ d x, g { d with step1 := x } = g d) (d : Dev) (h : HalfId) (f : RunS → RunS) :
    g (d.modRun h f) = g d := by
  exact Dev.modStep_keep g hstep0 hstep1 d h _
@[simp] theorem Dev.modRun_regs (d : Dev) (h : HalfId) (f : RunS → RunS) : (d.modRun h f).regs = d.regs := Dev.modRun_keep Dev.regs (fun _ _ => rfl) (fun _ _ => rfl) d h f
@[simp] theorem Dev.modRun_mem (d : Dev) (h : HalfId) (f : RunS → RunS) : (d.modRun h f).mem = d.mem := Dev.modRun_keep Dev.mem (fun _ _ => rfl) (fun _ _ => rfl) d h f
@[simp] theorem Dev.modRun_poison (d : Dev) (h : HalfId) (f : RunS → RunS) : (d.modRun h f).poison = d.poison := Dev.modRun_keep Dev.poison (fun _ _ => rfl) (fun _ _ => rfl) d h f
@[simp] theorem Dev.modRun_pw (d : Dev) (h : HalfId) (f : RunS → RunS) : (d.modRun h f).pw = d.pw := Dev.modRun_keep Dev.pw (fun _ _ => rfl) (fun _ _ => rfl) d h f
@[simp] theorem Dev.modRun_tally (d : Dev) (h : HalfId) (f : RunS → RunS) : (d.modRun h f).tally = d.tally := Dev.modRun_keep Dev.tally (fun _ _ => rfl) (fun _ _ => rfl) d h f
@[simp] theorem Dev.modRun_led0 (d : Dev) (h : HalfId) (f : RunS → RunS) : (d.modRun h f).led0 = d.led0 := Dev.modRun_keep Dev.led0 (fun _ _ => rfl) (fun _ _ => rfl) d h f
@[simp] theorem Dev.modRun_led1 (d : Dev) (h : HalfId) (f : RunS → RunS) : (d.modRun h f).led1 = d.led1 := Dev.modRun_keep Dev.led1 (fun _ _ => rfl) (fun _ _ => rfl) d h f
@[simp] theorem Dev.modRun_mg (d : Dev) (h : HalfId) (f : RunS → RunS) : (d.modRun h f).mg = d.mg := Dev.modRun_keep Dev.mg (fun _ _ => rfl) (fun _ _ => rfl) d h f
@[simp] theorem Dev.modRun_sec (d : Dev) (h : HalfId) (f : RunS → RunS) : (d.modRun h f).sec = d.sec := Dev.modRun_keep Dev.sec (fun _ _ => rfl) (fun _ _ => rfl) d h f
@[simp] theorem Dev.modRun_boot (d : Dev) (h : HalfId) (f : RunS → RunS) : (d.modRun h f).boot = d.boot := Dev.modRun_keep Dev.boot (fun _ _ => rfl) (fun _ _ => rfl) d h f
@[simp] theorem Dev.modRun_feed (d : Dev) (h : HalfId) (f : RunS → RunS) : (d.modRun h f).feed = d.feed := Dev.modRun_keep Dev.feed (fun _ _ => rfl) (fun _ _ => rfl) d h f
@[simp] theorem Dev.modRun_queues (d : Dev) (h : HalfId) (f : RunS → RunS) : (d.modRun h f).queues = d.queues := Dev.modRun_keep Dev.queues (fun _ _ => rfl) (fun _ _ => rfl) d h f
@[simp] theorem Dev.modRun_slots (d : Dev) (h : HalfId) (f : RunS → RunS) : (d.modRun h f).slots = d.slots := Dev.modRun_keep Dev.slots (fun _ _ => rfl) (fun _ _ => rfl) d h f
@[simp] theorem Dev.modRun_tiles (d : Dev) (h : HalfId) (f : RunS → RunS) : (d.modRun h f).tiles = d.tiles := Dev.modRun_keep Dev.tiles (fun _ _ => rfl) (fun _ _ => rfl) d h f
@[simp] theorem Dev.modRun_insts (d : Dev) (h : HalfId) (f : RunS → RunS) : (d.modRun h f).insts = d.insts := Dev.modRun_keep Dev.insts (fun _ _ => rfl) (fun _ _ => rfl) d h f
@[simp] theorem Dev.modRun_products (d : Dev) (h : HalfId) (f : RunS → RunS) : (d.modRun h f).products = d.products := Dev.modRun_keep Dev.products (fun _ _ => rfl) (fun _ _ => rfl) d h f
@[simp] theorem Dev.modRun_img0 (d : Dev) (h : HalfId) (f : RunS → RunS) : (d.modRun h f).img0 = d.img0 := Dev.modRun_keep Dev.img0 (fun _ _ => rfl) (fun _ _ => rfl) d h f
@[simp] theorem Dev.modRun_img1 (d : Dev) (h : HalfId) (f : RunS → RunS) : (d.modRun h f).img1 = d.img1 := Dev.modRun_keep Dev.img1 (fun _ _ => rfl) (fun _ _ => rfl) d h f
@[simp] theorem Dev.modRun_stage0 (d : Dev) (h : HalfId) (f : RunS → RunS) : (d.modRun h f).stage0 = d.stage0 := Dev.modRun_keep Dev.stage0 (fun _ _ => rfl) (fun _ _ => rfl) d h f
@[simp] theorem Dev.modRun_stage1 (d : Dev) (h : HalfId) (f : RunS → RunS) : (d.modRun h f).stage1 = d.stage1 := Dev.modRun_keep Dev.stage1 (fun _ _ => rfl) (fun _ _ => rfl) d h f
@[simp] theorem Dev.modRun_net (d : Dev) (h : HalfId) (f : RunS → RunS) : (d.modRun h f).net = d.net := Dev.modRun_keep Dev.net (fun _ _ => rfl) (fun _ _ => rfl) d h f
@[simp] theorem Dev.modRun_faults (d : Dev) (h : HalfId) (f : RunS → RunS) : (d.modRun h f).faults = d.faults := Dev.modRun_keep Dev.faults (fun _ _ => rfl) (fun _ _ => rfl) d h f
@[simp] theorem Dev.modRun_heldW (d : Dev) (h : HalfId) (f : RunS → RunS) : (d.modRun h f).heldW = d.heldW := Dev.modRun_keep Dev.heldW (fun _ _ => rfl) (fun _ _ => rfl) d h f
@[simp] theorem Dev.modRun_heldE (d : Dev) (h : HalfId) (f : RunS → RunS) : (d.modRun h f).heldE = d.heldE := Dev.modRun_keep Dev.heldE (fun _ _ => rfl) (fun _ _ => rfl) d h f
@[simp] theorem Dev.modRun_refetch (d : Dev) (h : HalfId) (f : RunS → RunS) : (d.modRun h f).refetch = d.refetch := Dev.modRun_keep Dev.refetch (fun _ _ => rfl) (fun _ _ => rfl) d h f
@[simp] theorem Dev.modRun_refetched (d : Dev) (h : HalfId) (f : RunS → RunS) : (d.modRun h f).refetched = d.refetched := Dev.modRun_keep Dev.refetched (fun _ _ => rfl) (fun _ _ => rfl) d h f
@[simp] theorem Dev.modRun_ports (d : Dev) (h : HalfId) (f : RunS → RunS) : (d.modRun h f).ports = d.ports := Dev.modRun_keep Dev.ports (fun _ _ => rfl) (fun _ _ => rfl) d h f
@[simp] theorem Dev.modRun_fab (d : Dev) (h : HalfId) (f : RunS → RunS) : (d.modRun h f).fab = d.fab := Dev.modRun_keep Dev.fab (fun _ _ => rfl) (fun _ _ => rfl) d h f
@[simp] theorem Dev.modRun_upd (d : Dev) (h : HalfId) (f : RunS → RunS) : (d.modRun h f).upd = d.upd := Dev.modRun_keep Dev.upd (fun _ _ => rfl) (fun _ _ => rfl) d h f
@[simp] theorem Dev.modRun_srv (d : Dev) (h : HalfId) (f : RunS → RunS) : (d.modRun h f).srv = d.srv := Dev.modRun_keep Dev.srv (fun _ _ => rfl) (fun _ _ => rfl) d h f
@[simp] theorem Dev.modRun_out (d : Dev) (h : HalfId) (f : RunS → RunS) : (d.modRun h f).out = d.out := Dev.modRun_keep Dev.out (fun _ _ => rfl) (fun _ _ => rfl) d h f
@[simp] theorem Dev.modRun_free (d : Dev) (h : HalfId) (f : RunS → RunS) : (d.modRun h f).free = d.free := Dev.modRun_keep Dev.free (fun _ _ => rfl) (fun _ _ => rfl) d h f

/-! ## The ledger -/

/-- Every part of the device that does not see led0, led1 is kept. -/
theorem Dev.setLed_keep {β : Type} (g : Dev → β) (hled0 : ∀ d x, g { d with led0 := x } = g d) (hled1 : ∀ d x, g { d with led1 := x } = g d) (d : Dev) (h : HalfId) (l : Ledger) :
    g (d.setLed h l) = g d := by
  unfold Dev.setLed; split <;> [exact hled1 d _; exact hled0 d _]
@[simp] theorem Dev.setLed_regs (d : Dev) (h : HalfId) (l : Ledger) : (d.setLed h l).regs = d.regs := Dev.setLed_keep Dev.regs (fun _ _ => rfl) (fun _ _ => rfl) d h l
@[simp] theorem Dev.setLed_mem (d : Dev) (h : HalfId) (l : Ledger) : (d.setLed h l).mem = d.mem := Dev.setLed_keep Dev.mem (fun _ _ => rfl) (fun _ _ => rfl) d h l
@[simp] theorem Dev.setLed_poison (d : Dev) (h : HalfId) (l : Ledger) : (d.setLed h l).poison = d.poison := Dev.setLed_keep Dev.poison (fun _ _ => rfl) (fun _ _ => rfl) d h l
@[simp] theorem Dev.setLed_pw (d : Dev) (h : HalfId) (l : Ledger) : (d.setLed h l).pw = d.pw := Dev.setLed_keep Dev.pw (fun _ _ => rfl) (fun _ _ => rfl) d h l
@[simp] theorem Dev.setLed_tally (d : Dev) (h : HalfId) (l : Ledger) : (d.setLed h l).tally = d.tally := Dev.setLed_keep Dev.tally (fun _ _ => rfl) (fun _ _ => rfl) d h l
@[simp] theorem Dev.setLed_mg (d : Dev) (h : HalfId) (l : Ledger) : (d.setLed h l).mg = d.mg := Dev.setLed_keep Dev.mg (fun _ _ => rfl) (fun _ _ => rfl) d h l
@[simp] theorem Dev.setLed_sec (d : Dev) (h : HalfId) (l : Ledger) : (d.setLed h l).sec = d.sec := Dev.setLed_keep Dev.sec (fun _ _ => rfl) (fun _ _ => rfl) d h l
@[simp] theorem Dev.setLed_boot (d : Dev) (h : HalfId) (l : Ledger) : (d.setLed h l).boot = d.boot := Dev.setLed_keep Dev.boot (fun _ _ => rfl) (fun _ _ => rfl) d h l
@[simp] theorem Dev.setLed_feed (d : Dev) (h : HalfId) (l : Ledger) : (d.setLed h l).feed = d.feed := Dev.setLed_keep Dev.feed (fun _ _ => rfl) (fun _ _ => rfl) d h l
@[simp] theorem Dev.setLed_queues (d : Dev) (h : HalfId) (l : Ledger) : (d.setLed h l).queues = d.queues := Dev.setLed_keep Dev.queues (fun _ _ => rfl) (fun _ _ => rfl) d h l
@[simp] theorem Dev.setLed_slots (d : Dev) (h : HalfId) (l : Ledger) : (d.setLed h l).slots = d.slots := Dev.setLed_keep Dev.slots (fun _ _ => rfl) (fun _ _ => rfl) d h l
@[simp] theorem Dev.setLed_tiles (d : Dev) (h : HalfId) (l : Ledger) : (d.setLed h l).tiles = d.tiles := Dev.setLed_keep Dev.tiles (fun _ _ => rfl) (fun _ _ => rfl) d h l
@[simp] theorem Dev.setLed_insts (d : Dev) (h : HalfId) (l : Ledger) : (d.setLed h l).insts = d.insts := Dev.setLed_keep Dev.insts (fun _ _ => rfl) (fun _ _ => rfl) d h l
@[simp] theorem Dev.setLed_products (d : Dev) (h : HalfId) (l : Ledger) : (d.setLed h l).products = d.products := Dev.setLed_keep Dev.products (fun _ _ => rfl) (fun _ _ => rfl) d h l
@[simp] theorem Dev.setLed_img0 (d : Dev) (h : HalfId) (l : Ledger) : (d.setLed h l).img0 = d.img0 := Dev.setLed_keep Dev.img0 (fun _ _ => rfl) (fun _ _ => rfl) d h l
@[simp] theorem Dev.setLed_img1 (d : Dev) (h : HalfId) (l : Ledger) : (d.setLed h l).img1 = d.img1 := Dev.setLed_keep Dev.img1 (fun _ _ => rfl) (fun _ _ => rfl) d h l
@[simp] theorem Dev.setLed_stage0 (d : Dev) (h : HalfId) (l : Ledger) : (d.setLed h l).stage0 = d.stage0 := Dev.setLed_keep Dev.stage0 (fun _ _ => rfl) (fun _ _ => rfl) d h l
@[simp] theorem Dev.setLed_stage1 (d : Dev) (h : HalfId) (l : Ledger) : (d.setLed h l).stage1 = d.stage1 := Dev.setLed_keep Dev.stage1 (fun _ _ => rfl) (fun _ _ => rfl) d h l
@[simp] theorem Dev.setLed_net (d : Dev) (h : HalfId) (l : Ledger) : (d.setLed h l).net = d.net := Dev.setLed_keep Dev.net (fun _ _ => rfl) (fun _ _ => rfl) d h l
@[simp] theorem Dev.setLed_faults (d : Dev) (h : HalfId) (l : Ledger) : (d.setLed h l).faults = d.faults := Dev.setLed_keep Dev.faults (fun _ _ => rfl) (fun _ _ => rfl) d h l
@[simp] theorem Dev.setLed_heldW (d : Dev) (h : HalfId) (l : Ledger) : (d.setLed h l).heldW = d.heldW := Dev.setLed_keep Dev.heldW (fun _ _ => rfl) (fun _ _ => rfl) d h l
@[simp] theorem Dev.setLed_heldE (d : Dev) (h : HalfId) (l : Ledger) : (d.setLed h l).heldE = d.heldE := Dev.setLed_keep Dev.heldE (fun _ _ => rfl) (fun _ _ => rfl) d h l
@[simp] theorem Dev.setLed_refetch (d : Dev) (h : HalfId) (l : Ledger) : (d.setLed h l).refetch = d.refetch := Dev.setLed_keep Dev.refetch (fun _ _ => rfl) (fun _ _ => rfl) d h l
@[simp] theorem Dev.setLed_refetched (d : Dev) (h : HalfId) (l : Ledger) : (d.setLed h l).refetched = d.refetched := Dev.setLed_keep Dev.refetched (fun _ _ => rfl) (fun _ _ => rfl) d h l
@[simp] theorem Dev.setLed_ports (d : Dev) (h : HalfId) (l : Ledger) : (d.setLed h l).ports = d.ports := Dev.setLed_keep Dev.ports (fun _ _ => rfl) (fun _ _ => rfl) d h l
@[simp] theorem Dev.setLed_fab (d : Dev) (h : HalfId) (l : Ledger) : (d.setLed h l).fab = d.fab := Dev.setLed_keep Dev.fab (fun _ _ => rfl) (fun _ _ => rfl) d h l
@[simp] theorem Dev.setLed_step0 (d : Dev) (h : HalfId) (l : Ledger) : (d.setLed h l).step0 = d.step0 := Dev.setLed_keep Dev.step0 (fun _ _ => rfl) (fun _ _ => rfl) d h l
@[simp] theorem Dev.setLed_step1 (d : Dev) (h : HalfId) (l : Ledger) : (d.setLed h l).step1 = d.step1 := Dev.setLed_keep Dev.step1 (fun _ _ => rfl) (fun _ _ => rfl) d h l
@[simp] theorem Dev.setLed_upd (d : Dev) (h : HalfId) (l : Ledger) : (d.setLed h l).upd = d.upd := Dev.setLed_keep Dev.upd (fun _ _ => rfl) (fun _ _ => rfl) d h l
@[simp] theorem Dev.setLed_srv (d : Dev) (h : HalfId) (l : Ledger) : (d.setLed h l).srv = d.srv := Dev.setLed_keep Dev.srv (fun _ _ => rfl) (fun _ _ => rfl) d h l
@[simp] theorem Dev.setLed_out (d : Dev) (h : HalfId) (l : Ledger) : (d.setLed h l).out = d.out := Dev.setLed_keep Dev.out (fun _ _ => rfl) (fun _ _ => rfl) d h l
@[simp] theorem Dev.setLed_free (d : Dev) (h : HalfId) (l : Ledger) : (d.setLed h l).free = d.free := Dev.setLed_keep Dev.free (fun _ _ => rfl) (fun _ _ => rfl) d h l

/-- Every part of the device that does not see led0, led1 is kept. -/
theorem Dev.modEntry_keep {β : Type} (g : Dev → β) (hled0 : ∀ d x, g { d with led0 := x } = g d) (hled1 : ∀ d x, g { d with led1 := x } = g d) (d : Dev) (h : HalfId) (q : Nat) (f : Entry → Entry) :
    g (d.modEntry h q f) = g d := by
  exact Dev.setLed_keep g hled0 hled1 d h _
@[simp] theorem Dev.modEntry_regs (d : Dev) (h : HalfId) (q : Nat) (f : Entry → Entry) : (d.modEntry h q f).regs = d.regs := Dev.modEntry_keep Dev.regs (fun _ _ => rfl) (fun _ _ => rfl) d h q f
@[simp] theorem Dev.modEntry_mem (d : Dev) (h : HalfId) (q : Nat) (f : Entry → Entry) : (d.modEntry h q f).mem = d.mem := Dev.modEntry_keep Dev.mem (fun _ _ => rfl) (fun _ _ => rfl) d h q f
@[simp] theorem Dev.modEntry_poison (d : Dev) (h : HalfId) (q : Nat) (f : Entry → Entry) : (d.modEntry h q f).poison = d.poison := Dev.modEntry_keep Dev.poison (fun _ _ => rfl) (fun _ _ => rfl) d h q f
@[simp] theorem Dev.modEntry_pw (d : Dev) (h : HalfId) (q : Nat) (f : Entry → Entry) : (d.modEntry h q f).pw = d.pw := Dev.modEntry_keep Dev.pw (fun _ _ => rfl) (fun _ _ => rfl) d h q f
@[simp] theorem Dev.modEntry_tally (d : Dev) (h : HalfId) (q : Nat) (f : Entry → Entry) : (d.modEntry h q f).tally = d.tally := Dev.modEntry_keep Dev.tally (fun _ _ => rfl) (fun _ _ => rfl) d h q f
@[simp] theorem Dev.modEntry_mg (d : Dev) (h : HalfId) (q : Nat) (f : Entry → Entry) : (d.modEntry h q f).mg = d.mg := Dev.modEntry_keep Dev.mg (fun _ _ => rfl) (fun _ _ => rfl) d h q f
@[simp] theorem Dev.modEntry_sec (d : Dev) (h : HalfId) (q : Nat) (f : Entry → Entry) : (d.modEntry h q f).sec = d.sec := Dev.modEntry_keep Dev.sec (fun _ _ => rfl) (fun _ _ => rfl) d h q f
@[simp] theorem Dev.modEntry_boot (d : Dev) (h : HalfId) (q : Nat) (f : Entry → Entry) : (d.modEntry h q f).boot = d.boot := Dev.modEntry_keep Dev.boot (fun _ _ => rfl) (fun _ _ => rfl) d h q f
@[simp] theorem Dev.modEntry_feed (d : Dev) (h : HalfId) (q : Nat) (f : Entry → Entry) : (d.modEntry h q f).feed = d.feed := Dev.modEntry_keep Dev.feed (fun _ _ => rfl) (fun _ _ => rfl) d h q f
@[simp] theorem Dev.modEntry_queues (d : Dev) (h : HalfId) (q : Nat) (f : Entry → Entry) : (d.modEntry h q f).queues = d.queues := Dev.modEntry_keep Dev.queues (fun _ _ => rfl) (fun _ _ => rfl) d h q f
@[simp] theorem Dev.modEntry_slots (d : Dev) (h : HalfId) (q : Nat) (f : Entry → Entry) : (d.modEntry h q f).slots = d.slots := Dev.modEntry_keep Dev.slots (fun _ _ => rfl) (fun _ _ => rfl) d h q f
@[simp] theorem Dev.modEntry_tiles (d : Dev) (h : HalfId) (q : Nat) (f : Entry → Entry) : (d.modEntry h q f).tiles = d.tiles := Dev.modEntry_keep Dev.tiles (fun _ _ => rfl) (fun _ _ => rfl) d h q f
@[simp] theorem Dev.modEntry_insts (d : Dev) (h : HalfId) (q : Nat) (f : Entry → Entry) : (d.modEntry h q f).insts = d.insts := Dev.modEntry_keep Dev.insts (fun _ _ => rfl) (fun _ _ => rfl) d h q f
@[simp] theorem Dev.modEntry_products (d : Dev) (h : HalfId) (q : Nat) (f : Entry → Entry) : (d.modEntry h q f).products = d.products := Dev.modEntry_keep Dev.products (fun _ _ => rfl) (fun _ _ => rfl) d h q f
@[simp] theorem Dev.modEntry_img0 (d : Dev) (h : HalfId) (q : Nat) (f : Entry → Entry) : (d.modEntry h q f).img0 = d.img0 := Dev.modEntry_keep Dev.img0 (fun _ _ => rfl) (fun _ _ => rfl) d h q f
@[simp] theorem Dev.modEntry_img1 (d : Dev) (h : HalfId) (q : Nat) (f : Entry → Entry) : (d.modEntry h q f).img1 = d.img1 := Dev.modEntry_keep Dev.img1 (fun _ _ => rfl) (fun _ _ => rfl) d h q f
@[simp] theorem Dev.modEntry_stage0 (d : Dev) (h : HalfId) (q : Nat) (f : Entry → Entry) : (d.modEntry h q f).stage0 = d.stage0 := Dev.modEntry_keep Dev.stage0 (fun _ _ => rfl) (fun _ _ => rfl) d h q f
@[simp] theorem Dev.modEntry_stage1 (d : Dev) (h : HalfId) (q : Nat) (f : Entry → Entry) : (d.modEntry h q f).stage1 = d.stage1 := Dev.modEntry_keep Dev.stage1 (fun _ _ => rfl) (fun _ _ => rfl) d h q f
@[simp] theorem Dev.modEntry_net (d : Dev) (h : HalfId) (q : Nat) (f : Entry → Entry) : (d.modEntry h q f).net = d.net := Dev.modEntry_keep Dev.net (fun _ _ => rfl) (fun _ _ => rfl) d h q f
@[simp] theorem Dev.modEntry_faults (d : Dev) (h : HalfId) (q : Nat) (f : Entry → Entry) : (d.modEntry h q f).faults = d.faults := Dev.modEntry_keep Dev.faults (fun _ _ => rfl) (fun _ _ => rfl) d h q f
@[simp] theorem Dev.modEntry_heldW (d : Dev) (h : HalfId) (q : Nat) (f : Entry → Entry) : (d.modEntry h q f).heldW = d.heldW := Dev.modEntry_keep Dev.heldW (fun _ _ => rfl) (fun _ _ => rfl) d h q f
@[simp] theorem Dev.modEntry_heldE (d : Dev) (h : HalfId) (q : Nat) (f : Entry → Entry) : (d.modEntry h q f).heldE = d.heldE := Dev.modEntry_keep Dev.heldE (fun _ _ => rfl) (fun _ _ => rfl) d h q f
@[simp] theorem Dev.modEntry_refetch (d : Dev) (h : HalfId) (q : Nat) (f : Entry → Entry) : (d.modEntry h q f).refetch = d.refetch := Dev.modEntry_keep Dev.refetch (fun _ _ => rfl) (fun _ _ => rfl) d h q f
@[simp] theorem Dev.modEntry_refetched (d : Dev) (h : HalfId) (q : Nat) (f : Entry → Entry) : (d.modEntry h q f).refetched = d.refetched := Dev.modEntry_keep Dev.refetched (fun _ _ => rfl) (fun _ _ => rfl) d h q f
@[simp] theorem Dev.modEntry_ports (d : Dev) (h : HalfId) (q : Nat) (f : Entry → Entry) : (d.modEntry h q f).ports = d.ports := Dev.modEntry_keep Dev.ports (fun _ _ => rfl) (fun _ _ => rfl) d h q f
@[simp] theorem Dev.modEntry_fab (d : Dev) (h : HalfId) (q : Nat) (f : Entry → Entry) : (d.modEntry h q f).fab = d.fab := Dev.modEntry_keep Dev.fab (fun _ _ => rfl) (fun _ _ => rfl) d h q f
@[simp] theorem Dev.modEntry_step0 (d : Dev) (h : HalfId) (q : Nat) (f : Entry → Entry) : (d.modEntry h q f).step0 = d.step0 := Dev.modEntry_keep Dev.step0 (fun _ _ => rfl) (fun _ _ => rfl) d h q f
@[simp] theorem Dev.modEntry_step1 (d : Dev) (h : HalfId) (q : Nat) (f : Entry → Entry) : (d.modEntry h q f).step1 = d.step1 := Dev.modEntry_keep Dev.step1 (fun _ _ => rfl) (fun _ _ => rfl) d h q f
@[simp] theorem Dev.modEntry_upd (d : Dev) (h : HalfId) (q : Nat) (f : Entry → Entry) : (d.modEntry h q f).upd = d.upd := Dev.modEntry_keep Dev.upd (fun _ _ => rfl) (fun _ _ => rfl) d h q f
@[simp] theorem Dev.modEntry_srv (d : Dev) (h : HalfId) (q : Nat) (f : Entry → Entry) : (d.modEntry h q f).srv = d.srv := Dev.modEntry_keep Dev.srv (fun _ _ => rfl) (fun _ _ => rfl) d h q f
@[simp] theorem Dev.modEntry_out (d : Dev) (h : HalfId) (q : Nat) (f : Entry → Entry) : (d.modEntry h q f).out = d.out := Dev.modEntry_keep Dev.out (fun _ _ => rfl) (fun _ _ => rfl) d h q f
@[simp] theorem Dev.modEntry_free (d : Dev) (h : HalfId) (q : Nat) (f : Entry → Entry) : (d.modEntry h q f).free = d.free := Dev.modEntry_keep Dev.free (fun _ _ => rfl) (fun _ _ => rfl) d h q f

/-- Every part of the device that does not see led0, led1 is kept. -/
theorem Dev.setResult_keep {β : Type} (g : Dev → β) (hled0 : ∀ d x, g { d with led0 := x } = g d) (hled1 : ∀ d x, g { d with led1 := x } = g d) (d : Dev) (h : HalfId) (q r : Nat) :
    g (d.setResult h q r) = g d := by
  exact Dev.modEntry_keep g hled0 hled1 d h q _
@[simp] theorem Dev.setResult_regs (d : Dev) (h : HalfId) (q r : Nat) : (d.setResult h q r).regs = d.regs := Dev.setResult_keep Dev.regs (fun _ _ => rfl) (fun _ _ => rfl) d h q r
@[simp] theorem Dev.setResult_mem (d : Dev) (h : HalfId) (q r : Nat) : (d.setResult h q r).mem = d.mem := Dev.setResult_keep Dev.mem (fun _ _ => rfl) (fun _ _ => rfl) d h q r
@[simp] theorem Dev.setResult_poison (d : Dev) (h : HalfId) (q r : Nat) : (d.setResult h q r).poison = d.poison := Dev.setResult_keep Dev.poison (fun _ _ => rfl) (fun _ _ => rfl) d h q r
@[simp] theorem Dev.setResult_pw (d : Dev) (h : HalfId) (q r : Nat) : (d.setResult h q r).pw = d.pw := Dev.setResult_keep Dev.pw (fun _ _ => rfl) (fun _ _ => rfl) d h q r
@[simp] theorem Dev.setResult_tally (d : Dev) (h : HalfId) (q r : Nat) : (d.setResult h q r).tally = d.tally := Dev.setResult_keep Dev.tally (fun _ _ => rfl) (fun _ _ => rfl) d h q r
@[simp] theorem Dev.setResult_mg (d : Dev) (h : HalfId) (q r : Nat) : (d.setResult h q r).mg = d.mg := Dev.setResult_keep Dev.mg (fun _ _ => rfl) (fun _ _ => rfl) d h q r
@[simp] theorem Dev.setResult_sec (d : Dev) (h : HalfId) (q r : Nat) : (d.setResult h q r).sec = d.sec := Dev.setResult_keep Dev.sec (fun _ _ => rfl) (fun _ _ => rfl) d h q r
@[simp] theorem Dev.setResult_boot (d : Dev) (h : HalfId) (q r : Nat) : (d.setResult h q r).boot = d.boot := Dev.setResult_keep Dev.boot (fun _ _ => rfl) (fun _ _ => rfl) d h q r
@[simp] theorem Dev.setResult_feed (d : Dev) (h : HalfId) (q r : Nat) : (d.setResult h q r).feed = d.feed := Dev.setResult_keep Dev.feed (fun _ _ => rfl) (fun _ _ => rfl) d h q r
@[simp] theorem Dev.setResult_queues (d : Dev) (h : HalfId) (q r : Nat) : (d.setResult h q r).queues = d.queues := Dev.setResult_keep Dev.queues (fun _ _ => rfl) (fun _ _ => rfl) d h q r
@[simp] theorem Dev.setResult_slots (d : Dev) (h : HalfId) (q r : Nat) : (d.setResult h q r).slots = d.slots := Dev.setResult_keep Dev.slots (fun _ _ => rfl) (fun _ _ => rfl) d h q r
@[simp] theorem Dev.setResult_tiles (d : Dev) (h : HalfId) (q r : Nat) : (d.setResult h q r).tiles = d.tiles := Dev.setResult_keep Dev.tiles (fun _ _ => rfl) (fun _ _ => rfl) d h q r
@[simp] theorem Dev.setResult_insts (d : Dev) (h : HalfId) (q r : Nat) : (d.setResult h q r).insts = d.insts := Dev.setResult_keep Dev.insts (fun _ _ => rfl) (fun _ _ => rfl) d h q r
@[simp] theorem Dev.setResult_products (d : Dev) (h : HalfId) (q r : Nat) : (d.setResult h q r).products = d.products := Dev.setResult_keep Dev.products (fun _ _ => rfl) (fun _ _ => rfl) d h q r
@[simp] theorem Dev.setResult_img0 (d : Dev) (h : HalfId) (q r : Nat) : (d.setResult h q r).img0 = d.img0 := Dev.setResult_keep Dev.img0 (fun _ _ => rfl) (fun _ _ => rfl) d h q r
@[simp] theorem Dev.setResult_img1 (d : Dev) (h : HalfId) (q r : Nat) : (d.setResult h q r).img1 = d.img1 := Dev.setResult_keep Dev.img1 (fun _ _ => rfl) (fun _ _ => rfl) d h q r
@[simp] theorem Dev.setResult_stage0 (d : Dev) (h : HalfId) (q r : Nat) : (d.setResult h q r).stage0 = d.stage0 := Dev.setResult_keep Dev.stage0 (fun _ _ => rfl) (fun _ _ => rfl) d h q r
@[simp] theorem Dev.setResult_stage1 (d : Dev) (h : HalfId) (q r : Nat) : (d.setResult h q r).stage1 = d.stage1 := Dev.setResult_keep Dev.stage1 (fun _ _ => rfl) (fun _ _ => rfl) d h q r
@[simp] theorem Dev.setResult_net (d : Dev) (h : HalfId) (q r : Nat) : (d.setResult h q r).net = d.net := Dev.setResult_keep Dev.net (fun _ _ => rfl) (fun _ _ => rfl) d h q r
@[simp] theorem Dev.setResult_faults (d : Dev) (h : HalfId) (q r : Nat) : (d.setResult h q r).faults = d.faults := Dev.setResult_keep Dev.faults (fun _ _ => rfl) (fun _ _ => rfl) d h q r
@[simp] theorem Dev.setResult_heldW (d : Dev) (h : HalfId) (q r : Nat) : (d.setResult h q r).heldW = d.heldW := Dev.setResult_keep Dev.heldW (fun _ _ => rfl) (fun _ _ => rfl) d h q r
@[simp] theorem Dev.setResult_heldE (d : Dev) (h : HalfId) (q r : Nat) : (d.setResult h q r).heldE = d.heldE := Dev.setResult_keep Dev.heldE (fun _ _ => rfl) (fun _ _ => rfl) d h q r
@[simp] theorem Dev.setResult_refetch (d : Dev) (h : HalfId) (q r : Nat) : (d.setResult h q r).refetch = d.refetch := Dev.setResult_keep Dev.refetch (fun _ _ => rfl) (fun _ _ => rfl) d h q r
@[simp] theorem Dev.setResult_refetched (d : Dev) (h : HalfId) (q r : Nat) : (d.setResult h q r).refetched = d.refetched := Dev.setResult_keep Dev.refetched (fun _ _ => rfl) (fun _ _ => rfl) d h q r
@[simp] theorem Dev.setResult_ports (d : Dev) (h : HalfId) (q r : Nat) : (d.setResult h q r).ports = d.ports := Dev.setResult_keep Dev.ports (fun _ _ => rfl) (fun _ _ => rfl) d h q r
@[simp] theorem Dev.setResult_fab (d : Dev) (h : HalfId) (q r : Nat) : (d.setResult h q r).fab = d.fab := Dev.setResult_keep Dev.fab (fun _ _ => rfl) (fun _ _ => rfl) d h q r
@[simp] theorem Dev.setResult_step0 (d : Dev) (h : HalfId) (q r : Nat) : (d.setResult h q r).step0 = d.step0 := Dev.setResult_keep Dev.step0 (fun _ _ => rfl) (fun _ _ => rfl) d h q r
@[simp] theorem Dev.setResult_step1 (d : Dev) (h : HalfId) (q r : Nat) : (d.setResult h q r).step1 = d.step1 := Dev.setResult_keep Dev.step1 (fun _ _ => rfl) (fun _ _ => rfl) d h q r
@[simp] theorem Dev.setResult_upd (d : Dev) (h : HalfId) (q r : Nat) : (d.setResult h q r).upd = d.upd := Dev.setResult_keep Dev.upd (fun _ _ => rfl) (fun _ _ => rfl) d h q r
@[simp] theorem Dev.setResult_srv (d : Dev) (h : HalfId) (q r : Nat) : (d.setResult h q r).srv = d.srv := Dev.setResult_keep Dev.srv (fun _ _ => rfl) (fun _ _ => rfl) d h q r
@[simp] theorem Dev.setResult_out (d : Dev) (h : HalfId) (q r : Nat) : (d.setResult h q r).out = d.out := Dev.setResult_keep Dev.out (fun _ _ => rfl) (fun _ _ => rfl) d h q r
@[simp] theorem Dev.setResult_free (d : Dev) (h : HalfId) (q r : Nat) : (d.setResult h q r).free = d.free := Dev.setResult_keep Dev.free (fun _ _ => rfl) (fun _ _ => rfl) d h q r

/-- Every part of the device that does not see regs, led0, led1, mg, boot, out is kept. -/
theorem Dev.appendEntry_keep {β : Type} (g : Dev → β) (hregs : ∀ d x, g { d with regs := x } = g d) (hled0 : ∀ d x, g { d with led0 := x } = g d) (hled1 : ∀ d x, g { d with led1 := x } = g d) (hmg : ∀ d x, g { d with mg := x } = g d) (hboot : ∀ d x, g { d with boot := x } = g d) (hout : ∀ d x, g { d with out := x } = g d) (d : Dev) (h : HalfId) (e : Entry) :
    g (d.appendEntry h e) = g d := by
  unfold Dev.appendEntry; simp only []
  split <;> simp only [hboot, Dev.sbLog_keep g hregs hmg hout, Dev.traceRec_keep g hmg, Dev.setLed_keep g hled0 hled1]
@[simp] theorem Dev.appendEntry_mem (d : Dev) (h : HalfId) (e : Entry) : (d.appendEntry h e).mem = d.mem := Dev.appendEntry_keep Dev.mem (fun _ _ => rfl) (fun _ _ => rfl) (fun _ _ => rfl) (fun _ _ => rfl) (fun _ _ => rfl) (fun _ _ => rfl) d h e
@[simp] theorem Dev.appendEntry_poison (d : Dev) (h : HalfId) (e : Entry) : (d.appendEntry h e).poison = d.poison := Dev.appendEntry_keep Dev.poison (fun _ _ => rfl) (fun _ _ => rfl) (fun _ _ => rfl) (fun _ _ => rfl) (fun _ _ => rfl) (fun _ _ => rfl) d h e
@[simp] theorem Dev.appendEntry_pw (d : Dev) (h : HalfId) (e : Entry) : (d.appendEntry h e).pw = d.pw := Dev.appendEntry_keep Dev.pw (fun _ _ => rfl) (fun _ _ => rfl) (fun _ _ => rfl) (fun _ _ => rfl) (fun _ _ => rfl) (fun _ _ => rfl) d h e
@[simp] theorem Dev.appendEntry_tally (d : Dev) (h : HalfId) (e : Entry) : (d.appendEntry h e).tally = d.tally := Dev.appendEntry_keep Dev.tally (fun _ _ => rfl) (fun _ _ => rfl) (fun _ _ => rfl) (fun _ _ => rfl) (fun _ _ => rfl) (fun _ _ => rfl) d h e
@[simp] theorem Dev.appendEntry_sec (d : Dev) (h : HalfId) (e : Entry) : (d.appendEntry h e).sec = d.sec := Dev.appendEntry_keep Dev.sec (fun _ _ => rfl) (fun _ _ => rfl) (fun _ _ => rfl) (fun _ _ => rfl) (fun _ _ => rfl) (fun _ _ => rfl) d h e
@[simp] theorem Dev.appendEntry_feed (d : Dev) (h : HalfId) (e : Entry) : (d.appendEntry h e).feed = d.feed := Dev.appendEntry_keep Dev.feed (fun _ _ => rfl) (fun _ _ => rfl) (fun _ _ => rfl) (fun _ _ => rfl) (fun _ _ => rfl) (fun _ _ => rfl) d h e
@[simp] theorem Dev.appendEntry_queues (d : Dev) (h : HalfId) (e : Entry) : (d.appendEntry h e).queues = d.queues := Dev.appendEntry_keep Dev.queues (fun _ _ => rfl) (fun _ _ => rfl) (fun _ _ => rfl) (fun _ _ => rfl) (fun _ _ => rfl) (fun _ _ => rfl) d h e
@[simp] theorem Dev.appendEntry_slots (d : Dev) (h : HalfId) (e : Entry) : (d.appendEntry h e).slots = d.slots := Dev.appendEntry_keep Dev.slots (fun _ _ => rfl) (fun _ _ => rfl) (fun _ _ => rfl) (fun _ _ => rfl) (fun _ _ => rfl) (fun _ _ => rfl) d h e
@[simp] theorem Dev.appendEntry_tiles (d : Dev) (h : HalfId) (e : Entry) : (d.appendEntry h e).tiles = d.tiles := Dev.appendEntry_keep Dev.tiles (fun _ _ => rfl) (fun _ _ => rfl) (fun _ _ => rfl) (fun _ _ => rfl) (fun _ _ => rfl) (fun _ _ => rfl) d h e
@[simp] theorem Dev.appendEntry_insts (d : Dev) (h : HalfId) (e : Entry) : (d.appendEntry h e).insts = d.insts := Dev.appendEntry_keep Dev.insts (fun _ _ => rfl) (fun _ _ => rfl) (fun _ _ => rfl) (fun _ _ => rfl) (fun _ _ => rfl) (fun _ _ => rfl) d h e
@[simp] theorem Dev.appendEntry_products (d : Dev) (h : HalfId) (e : Entry) : (d.appendEntry h e).products = d.products := Dev.appendEntry_keep Dev.products (fun _ _ => rfl) (fun _ _ => rfl) (fun _ _ => rfl) (fun _ _ => rfl) (fun _ _ => rfl) (fun _ _ => rfl) d h e
@[simp] theorem Dev.appendEntry_img0 (d : Dev) (h : HalfId) (e : Entry) : (d.appendEntry h e).img0 = d.img0 := Dev.appendEntry_keep Dev.img0 (fun _ _ => rfl) (fun _ _ => rfl) (fun _ _ => rfl) (fun _ _ => rfl) (fun _ _ => rfl) (fun _ _ => rfl) d h e
@[simp] theorem Dev.appendEntry_img1 (d : Dev) (h : HalfId) (e : Entry) : (d.appendEntry h e).img1 = d.img1 := Dev.appendEntry_keep Dev.img1 (fun _ _ => rfl) (fun _ _ => rfl) (fun _ _ => rfl) (fun _ _ => rfl) (fun _ _ => rfl) (fun _ _ => rfl) d h e
@[simp] theorem Dev.appendEntry_stage0 (d : Dev) (h : HalfId) (e : Entry) : (d.appendEntry h e).stage0 = d.stage0 := Dev.appendEntry_keep Dev.stage0 (fun _ _ => rfl) (fun _ _ => rfl) (fun _ _ => rfl) (fun _ _ => rfl) (fun _ _ => rfl) (fun _ _ => rfl) d h e
@[simp] theorem Dev.appendEntry_stage1 (d : Dev) (h : HalfId) (e : Entry) : (d.appendEntry h e).stage1 = d.stage1 := Dev.appendEntry_keep Dev.stage1 (fun _ _ => rfl) (fun _ _ => rfl) (fun _ _ => rfl) (fun _ _ => rfl) (fun _ _ => rfl) (fun _ _ => rfl) d h e
@[simp] theorem Dev.appendEntry_net (d : Dev) (h : HalfId) (e : Entry) : (d.appendEntry h e).net = d.net := Dev.appendEntry_keep Dev.net (fun _ _ => rfl) (fun _ _ => rfl) (fun _ _ => rfl) (fun _ _ => rfl) (fun _ _ => rfl) (fun _ _ => rfl) d h e
@[simp] theorem Dev.appendEntry_faults (d : Dev) (h : HalfId) (e : Entry) : (d.appendEntry h e).faults = d.faults := Dev.appendEntry_keep Dev.faults (fun _ _ => rfl) (fun _ _ => rfl) (fun _ _ => rfl) (fun _ _ => rfl) (fun _ _ => rfl) (fun _ _ => rfl) d h e
@[simp] theorem Dev.appendEntry_heldW (d : Dev) (h : HalfId) (e : Entry) : (d.appendEntry h e).heldW = d.heldW := Dev.appendEntry_keep Dev.heldW (fun _ _ => rfl) (fun _ _ => rfl) (fun _ _ => rfl) (fun _ _ => rfl) (fun _ _ => rfl) (fun _ _ => rfl) d h e
@[simp] theorem Dev.appendEntry_heldE (d : Dev) (h : HalfId) (e : Entry) : (d.appendEntry h e).heldE = d.heldE := Dev.appendEntry_keep Dev.heldE (fun _ _ => rfl) (fun _ _ => rfl) (fun _ _ => rfl) (fun _ _ => rfl) (fun _ _ => rfl) (fun _ _ => rfl) d h e
@[simp] theorem Dev.appendEntry_refetch (d : Dev) (h : HalfId) (e : Entry) : (d.appendEntry h e).refetch = d.refetch := Dev.appendEntry_keep Dev.refetch (fun _ _ => rfl) (fun _ _ => rfl) (fun _ _ => rfl) (fun _ _ => rfl) (fun _ _ => rfl) (fun _ _ => rfl) d h e
@[simp] theorem Dev.appendEntry_refetched (d : Dev) (h : HalfId) (e : Entry) : (d.appendEntry h e).refetched = d.refetched := Dev.appendEntry_keep Dev.refetched (fun _ _ => rfl) (fun _ _ => rfl) (fun _ _ => rfl) (fun _ _ => rfl) (fun _ _ => rfl) (fun _ _ => rfl) d h e
@[simp] theorem Dev.appendEntry_ports (d : Dev) (h : HalfId) (e : Entry) : (d.appendEntry h e).ports = d.ports := Dev.appendEntry_keep Dev.ports (fun _ _ => rfl) (fun _ _ => rfl) (fun _ _ => rfl) (fun _ _ => rfl) (fun _ _ => rfl) (fun _ _ => rfl) d h e
@[simp] theorem Dev.appendEntry_fab (d : Dev) (h : HalfId) (e : Entry) : (d.appendEntry h e).fab = d.fab := Dev.appendEntry_keep Dev.fab (fun _ _ => rfl) (fun _ _ => rfl) (fun _ _ => rfl) (fun _ _ => rfl) (fun _ _ => rfl) (fun _ _ => rfl) d h e
@[simp] theorem Dev.appendEntry_step0 (d : Dev) (h : HalfId) (e : Entry) : (d.appendEntry h e).step0 = d.step0 := Dev.appendEntry_keep Dev.step0 (fun _ _ => rfl) (fun _ _ => rfl) (fun _ _ => rfl) (fun _ _ => rfl) (fun _ _ => rfl) (fun _ _ => rfl) d h e
@[simp] theorem Dev.appendEntry_step1 (d : Dev) (h : HalfId) (e : Entry) : (d.appendEntry h e).step1 = d.step1 := Dev.appendEntry_keep Dev.step1 (fun _ _ => rfl) (fun _ _ => rfl) (fun _ _ => rfl) (fun _ _ => rfl) (fun _ _ => rfl) (fun _ _ => rfl) d h e
@[simp] theorem Dev.appendEntry_upd (d : Dev) (h : HalfId) (e : Entry) : (d.appendEntry h e).upd = d.upd := Dev.appendEntry_keep Dev.upd (fun _ _ => rfl) (fun _ _ => rfl) (fun _ _ => rfl) (fun _ _ => rfl) (fun _ _ => rfl) (fun _ _ => rfl) d h e
@[simp] theorem Dev.appendEntry_srv (d : Dev) (h : HalfId) (e : Entry) : (d.appendEntry h e).srv = d.srv := Dev.appendEntry_keep Dev.srv (fun _ _ => rfl) (fun _ _ => rfl) (fun _ _ => rfl) (fun _ _ => rfl) (fun _ _ => rfl) (fun _ _ => rfl) d h e
@[simp] theorem Dev.appendEntry_free (d : Dev) (h : HalfId) (e : Entry) : (d.appendEntry h e).free = d.free := Dev.appendEntry_keep Dev.free (fun _ _ => rfl) (fun _ _ => rfl) (fun _ _ => rfl) (fun _ _ => rfl) (fun _ _ => rfl) (fun _ _ => rfl) d h e

/-- Every part of the device that does not see led0, led1, mg is kept. -/
theorem Dev.startEntry_keep {β : Type} (g : Dev → β) (hled0 : ∀ d x, g { d with led0 := x } = g d) (hled1 : ∀ d x, g { d with led1 := x } = g d) (hmg : ∀ d x, g { d with mg := x } = g d) (d : Dev) (h : HalfId) (q : Nat) :
    g (d.startEntry h q) = g d := by
  exact (Dev.traceRec_keep g hmg _ _ _).trans ((Dev.modEntry_keep g hled0 hled1 _ h q _).trans (hmg d _))
@[simp] theorem Dev.startEntry_regs (d : Dev) (h : HalfId) (q : Nat) : (d.startEntry h q).regs = d.regs := Dev.startEntry_keep Dev.regs (fun _ _ => rfl) (fun _ _ => rfl) (fun _ _ => rfl) d h q
@[simp] theorem Dev.startEntry_mem (d : Dev) (h : HalfId) (q : Nat) : (d.startEntry h q).mem = d.mem := Dev.startEntry_keep Dev.mem (fun _ _ => rfl) (fun _ _ => rfl) (fun _ _ => rfl) d h q
@[simp] theorem Dev.startEntry_poison (d : Dev) (h : HalfId) (q : Nat) : (d.startEntry h q).poison = d.poison := Dev.startEntry_keep Dev.poison (fun _ _ => rfl) (fun _ _ => rfl) (fun _ _ => rfl) d h q
@[simp] theorem Dev.startEntry_pw (d : Dev) (h : HalfId) (q : Nat) : (d.startEntry h q).pw = d.pw := Dev.startEntry_keep Dev.pw (fun _ _ => rfl) (fun _ _ => rfl) (fun _ _ => rfl) d h q
@[simp] theorem Dev.startEntry_tally (d : Dev) (h : HalfId) (q : Nat) : (d.startEntry h q).tally = d.tally := Dev.startEntry_keep Dev.tally (fun _ _ => rfl) (fun _ _ => rfl) (fun _ _ => rfl) d h q
@[simp] theorem Dev.startEntry_sec (d : Dev) (h : HalfId) (q : Nat) : (d.startEntry h q).sec = d.sec := Dev.startEntry_keep Dev.sec (fun _ _ => rfl) (fun _ _ => rfl) (fun _ _ => rfl) d h q
@[simp] theorem Dev.startEntry_boot (d : Dev) (h : HalfId) (q : Nat) : (d.startEntry h q).boot = d.boot := Dev.startEntry_keep Dev.boot (fun _ _ => rfl) (fun _ _ => rfl) (fun _ _ => rfl) d h q
@[simp] theorem Dev.startEntry_feed (d : Dev) (h : HalfId) (q : Nat) : (d.startEntry h q).feed = d.feed := Dev.startEntry_keep Dev.feed (fun _ _ => rfl) (fun _ _ => rfl) (fun _ _ => rfl) d h q
@[simp] theorem Dev.startEntry_queues (d : Dev) (h : HalfId) (q : Nat) : (d.startEntry h q).queues = d.queues := Dev.startEntry_keep Dev.queues (fun _ _ => rfl) (fun _ _ => rfl) (fun _ _ => rfl) d h q
@[simp] theorem Dev.startEntry_slots (d : Dev) (h : HalfId) (q : Nat) : (d.startEntry h q).slots = d.slots := Dev.startEntry_keep Dev.slots (fun _ _ => rfl) (fun _ _ => rfl) (fun _ _ => rfl) d h q
@[simp] theorem Dev.startEntry_tiles (d : Dev) (h : HalfId) (q : Nat) : (d.startEntry h q).tiles = d.tiles := Dev.startEntry_keep Dev.tiles (fun _ _ => rfl) (fun _ _ => rfl) (fun _ _ => rfl) d h q
@[simp] theorem Dev.startEntry_insts (d : Dev) (h : HalfId) (q : Nat) : (d.startEntry h q).insts = d.insts := Dev.startEntry_keep Dev.insts (fun _ _ => rfl) (fun _ _ => rfl) (fun _ _ => rfl) d h q
@[simp] theorem Dev.startEntry_products (d : Dev) (h : HalfId) (q : Nat) : (d.startEntry h q).products = d.products := Dev.startEntry_keep Dev.products (fun _ _ => rfl) (fun _ _ => rfl) (fun _ _ => rfl) d h q
@[simp] theorem Dev.startEntry_img0 (d : Dev) (h : HalfId) (q : Nat) : (d.startEntry h q).img0 = d.img0 := Dev.startEntry_keep Dev.img0 (fun _ _ => rfl) (fun _ _ => rfl) (fun _ _ => rfl) d h q
@[simp] theorem Dev.startEntry_img1 (d : Dev) (h : HalfId) (q : Nat) : (d.startEntry h q).img1 = d.img1 := Dev.startEntry_keep Dev.img1 (fun _ _ => rfl) (fun _ _ => rfl) (fun _ _ => rfl) d h q
@[simp] theorem Dev.startEntry_stage0 (d : Dev) (h : HalfId) (q : Nat) : (d.startEntry h q).stage0 = d.stage0 := Dev.startEntry_keep Dev.stage0 (fun _ _ => rfl) (fun _ _ => rfl) (fun _ _ => rfl) d h q
@[simp] theorem Dev.startEntry_stage1 (d : Dev) (h : HalfId) (q : Nat) : (d.startEntry h q).stage1 = d.stage1 := Dev.startEntry_keep Dev.stage1 (fun _ _ => rfl) (fun _ _ => rfl) (fun _ _ => rfl) d h q
@[simp] theorem Dev.startEntry_net (d : Dev) (h : HalfId) (q : Nat) : (d.startEntry h q).net = d.net := Dev.startEntry_keep Dev.net (fun _ _ => rfl) (fun _ _ => rfl) (fun _ _ => rfl) d h q
@[simp] theorem Dev.startEntry_faults (d : Dev) (h : HalfId) (q : Nat) : (d.startEntry h q).faults = d.faults := Dev.startEntry_keep Dev.faults (fun _ _ => rfl) (fun _ _ => rfl) (fun _ _ => rfl) d h q
@[simp] theorem Dev.startEntry_heldW (d : Dev) (h : HalfId) (q : Nat) : (d.startEntry h q).heldW = d.heldW := Dev.startEntry_keep Dev.heldW (fun _ _ => rfl) (fun _ _ => rfl) (fun _ _ => rfl) d h q
@[simp] theorem Dev.startEntry_heldE (d : Dev) (h : HalfId) (q : Nat) : (d.startEntry h q).heldE = d.heldE := Dev.startEntry_keep Dev.heldE (fun _ _ => rfl) (fun _ _ => rfl) (fun _ _ => rfl) d h q
@[simp] theorem Dev.startEntry_refetch (d : Dev) (h : HalfId) (q : Nat) : (d.startEntry h q).refetch = d.refetch := Dev.startEntry_keep Dev.refetch (fun _ _ => rfl) (fun _ _ => rfl) (fun _ _ => rfl) d h q
@[simp] theorem Dev.startEntry_refetched (d : Dev) (h : HalfId) (q : Nat) : (d.startEntry h q).refetched = d.refetched := Dev.startEntry_keep Dev.refetched (fun _ _ => rfl) (fun _ _ => rfl) (fun _ _ => rfl) d h q
@[simp] theorem Dev.startEntry_ports (d : Dev) (h : HalfId) (q : Nat) : (d.startEntry h q).ports = d.ports := Dev.startEntry_keep Dev.ports (fun _ _ => rfl) (fun _ _ => rfl) (fun _ _ => rfl) d h q
@[simp] theorem Dev.startEntry_fab (d : Dev) (h : HalfId) (q : Nat) : (d.startEntry h q).fab = d.fab := Dev.startEntry_keep Dev.fab (fun _ _ => rfl) (fun _ _ => rfl) (fun _ _ => rfl) d h q
@[simp] theorem Dev.startEntry_step0 (d : Dev) (h : HalfId) (q : Nat) : (d.startEntry h q).step0 = d.step0 := Dev.startEntry_keep Dev.step0 (fun _ _ => rfl) (fun _ _ => rfl) (fun _ _ => rfl) d h q
@[simp] theorem Dev.startEntry_step1 (d : Dev) (h : HalfId) (q : Nat) : (d.startEntry h q).step1 = d.step1 := Dev.startEntry_keep Dev.step1 (fun _ _ => rfl) (fun _ _ => rfl) (fun _ _ => rfl) d h q
@[simp] theorem Dev.startEntry_upd (d : Dev) (h : HalfId) (q : Nat) : (d.startEntry h q).upd = d.upd := Dev.startEntry_keep Dev.upd (fun _ _ => rfl) (fun _ _ => rfl) (fun _ _ => rfl) d h q
@[simp] theorem Dev.startEntry_srv (d : Dev) (h : HalfId) (q : Nat) : (d.startEntry h q).srv = d.srv := Dev.startEntry_keep Dev.srv (fun _ _ => rfl) (fun _ _ => rfl) (fun _ _ => rfl) d h q
@[simp] theorem Dev.startEntry_out (d : Dev) (h : HalfId) (q : Nat) : (d.startEntry h q).out = d.out := Dev.startEntry_keep Dev.out (fun _ _ => rfl) (fun _ _ => rfl) (fun _ _ => rfl) d h q
@[simp] theorem Dev.startEntry_free (d : Dev) (h : HalfId) (q : Nat) : (d.startEntry h q).free = d.free := Dev.startEntry_keep Dev.free (fun _ _ => rfl) (fun _ _ => rfl) (fun _ _ => rfl) d h q

/-- Every part of the device that does not see led0, led1, mg, out is kept. -/
theorem Dev.endEntry_keep {β : Type} (g : Dev → β) (hled0 : ∀ d x, g { d with led0 := x } = g d) (hled1 : ∀ d x, g { d with led1 := x } = g d) (hmg : ∀ d x, g { d with mg := x } = g d) (hout : ∀ d x, g { d with out := x } = g d) (d : Dev) (h : HalfId) (q s r : Nat) :
    g (d.endEntry h q s r) = g d := by
  unfold Dev.endEntry; split <;> [rfl; (split <;> [rfl; (simp only []; split)])]
  · exact (hout _ _).trans ((Dev.traceRec_keep g hmg _ _ _).trans (Dev.modEntry_keep g hled0 hled1 d h q _))
  · exact (Dev.traceRec_keep g hmg _ _ _).trans (Dev.modEntry_keep g hled0 hled1 d h q _)
@[simp] theorem Dev.endEntry_regs (d : Dev) (h : HalfId) (q s r : Nat) : (d.endEntry h q s r).regs = d.regs := Dev.endEntry_keep Dev.regs (fun _ _ => rfl) (fun _ _ => rfl) (fun _ _ => rfl) (fun _ _ => rfl) d h q s r
@[simp] theorem Dev.endEntry_mem (d : Dev) (h : HalfId) (q s r : Nat) : (d.endEntry h q s r).mem = d.mem := Dev.endEntry_keep Dev.mem (fun _ _ => rfl) (fun _ _ => rfl) (fun _ _ => rfl) (fun _ _ => rfl) d h q s r
@[simp] theorem Dev.endEntry_poison (d : Dev) (h : HalfId) (q s r : Nat) : (d.endEntry h q s r).poison = d.poison := Dev.endEntry_keep Dev.poison (fun _ _ => rfl) (fun _ _ => rfl) (fun _ _ => rfl) (fun _ _ => rfl) d h q s r
@[simp] theorem Dev.endEntry_pw (d : Dev) (h : HalfId) (q s r : Nat) : (d.endEntry h q s r).pw = d.pw := Dev.endEntry_keep Dev.pw (fun _ _ => rfl) (fun _ _ => rfl) (fun _ _ => rfl) (fun _ _ => rfl) d h q s r
@[simp] theorem Dev.endEntry_tally (d : Dev) (h : HalfId) (q s r : Nat) : (d.endEntry h q s r).tally = d.tally := Dev.endEntry_keep Dev.tally (fun _ _ => rfl) (fun _ _ => rfl) (fun _ _ => rfl) (fun _ _ => rfl) d h q s r
@[simp] theorem Dev.endEntry_sec (d : Dev) (h : HalfId) (q s r : Nat) : (d.endEntry h q s r).sec = d.sec := Dev.endEntry_keep Dev.sec (fun _ _ => rfl) (fun _ _ => rfl) (fun _ _ => rfl) (fun _ _ => rfl) d h q s r
@[simp] theorem Dev.endEntry_boot (d : Dev) (h : HalfId) (q s r : Nat) : (d.endEntry h q s r).boot = d.boot := Dev.endEntry_keep Dev.boot (fun _ _ => rfl) (fun _ _ => rfl) (fun _ _ => rfl) (fun _ _ => rfl) d h q s r
@[simp] theorem Dev.endEntry_feed (d : Dev) (h : HalfId) (q s r : Nat) : (d.endEntry h q s r).feed = d.feed := Dev.endEntry_keep Dev.feed (fun _ _ => rfl) (fun _ _ => rfl) (fun _ _ => rfl) (fun _ _ => rfl) d h q s r
@[simp] theorem Dev.endEntry_queues (d : Dev) (h : HalfId) (q s r : Nat) : (d.endEntry h q s r).queues = d.queues := Dev.endEntry_keep Dev.queues (fun _ _ => rfl) (fun _ _ => rfl) (fun _ _ => rfl) (fun _ _ => rfl) d h q s r
@[simp] theorem Dev.endEntry_slots (d : Dev) (h : HalfId) (q s r : Nat) : (d.endEntry h q s r).slots = d.slots := Dev.endEntry_keep Dev.slots (fun _ _ => rfl) (fun _ _ => rfl) (fun _ _ => rfl) (fun _ _ => rfl) d h q s r
@[simp] theorem Dev.endEntry_tiles (d : Dev) (h : HalfId) (q s r : Nat) : (d.endEntry h q s r).tiles = d.tiles := Dev.endEntry_keep Dev.tiles (fun _ _ => rfl) (fun _ _ => rfl) (fun _ _ => rfl) (fun _ _ => rfl) d h q s r
@[simp] theorem Dev.endEntry_insts (d : Dev) (h : HalfId) (q s r : Nat) : (d.endEntry h q s r).insts = d.insts := Dev.endEntry_keep Dev.insts (fun _ _ => rfl) (fun _ _ => rfl) (fun _ _ => rfl) (fun _ _ => rfl) d h q s r
@[simp] theorem Dev.endEntry_products (d : Dev) (h : HalfId) (q s r : Nat) : (d.endEntry h q s r).products = d.products := Dev.endEntry_keep Dev.products (fun _ _ => rfl) (fun _ _ => rfl) (fun _ _ => rfl) (fun _ _ => rfl) d h q s r
@[simp] theorem Dev.endEntry_img0 (d : Dev) (h : HalfId) (q s r : Nat) : (d.endEntry h q s r).img0 = d.img0 := Dev.endEntry_keep Dev.img0 (fun _ _ => rfl) (fun _ _ => rfl) (fun _ _ => rfl) (fun _ _ => rfl) d h q s r
@[simp] theorem Dev.endEntry_img1 (d : Dev) (h : HalfId) (q s r : Nat) : (d.endEntry h q s r).img1 = d.img1 := Dev.endEntry_keep Dev.img1 (fun _ _ => rfl) (fun _ _ => rfl) (fun _ _ => rfl) (fun _ _ => rfl) d h q s r
@[simp] theorem Dev.endEntry_stage0 (d : Dev) (h : HalfId) (q s r : Nat) : (d.endEntry h q s r).stage0 = d.stage0 := Dev.endEntry_keep Dev.stage0 (fun _ _ => rfl) (fun _ _ => rfl) (fun _ _ => rfl) (fun _ _ => rfl) d h q s r
@[simp] theorem Dev.endEntry_stage1 (d : Dev) (h : HalfId) (q s r : Nat) : (d.endEntry h q s r).stage1 = d.stage1 := Dev.endEntry_keep Dev.stage1 (fun _ _ => rfl) (fun _ _ => rfl) (fun _ _ => rfl) (fun _ _ => rfl) d h q s r
@[simp] theorem Dev.endEntry_net (d : Dev) (h : HalfId) (q s r : Nat) : (d.endEntry h q s r).net = d.net := Dev.endEntry_keep Dev.net (fun _ _ => rfl) (fun _ _ => rfl) (fun _ _ => rfl) (fun _ _ => rfl) d h q s r
@[simp] theorem Dev.endEntry_faults (d : Dev) (h : HalfId) (q s r : Nat) : (d.endEntry h q s r).faults = d.faults := Dev.endEntry_keep Dev.faults (fun _ _ => rfl) (fun _ _ => rfl) (fun _ _ => rfl) (fun _ _ => rfl) d h q s r
@[simp] theorem Dev.endEntry_heldW (d : Dev) (h : HalfId) (q s r : Nat) : (d.endEntry h q s r).heldW = d.heldW := Dev.endEntry_keep Dev.heldW (fun _ _ => rfl) (fun _ _ => rfl) (fun _ _ => rfl) (fun _ _ => rfl) d h q s r
@[simp] theorem Dev.endEntry_heldE (d : Dev) (h : HalfId) (q s r : Nat) : (d.endEntry h q s r).heldE = d.heldE := Dev.endEntry_keep Dev.heldE (fun _ _ => rfl) (fun _ _ => rfl) (fun _ _ => rfl) (fun _ _ => rfl) d h q s r
@[simp] theorem Dev.endEntry_refetch (d : Dev) (h : HalfId) (q s r : Nat) : (d.endEntry h q s r).refetch = d.refetch := Dev.endEntry_keep Dev.refetch (fun _ _ => rfl) (fun _ _ => rfl) (fun _ _ => rfl) (fun _ _ => rfl) d h q s r
@[simp] theorem Dev.endEntry_refetched (d : Dev) (h : HalfId) (q s r : Nat) : (d.endEntry h q s r).refetched = d.refetched := Dev.endEntry_keep Dev.refetched (fun _ _ => rfl) (fun _ _ => rfl) (fun _ _ => rfl) (fun _ _ => rfl) d h q s r
@[simp] theorem Dev.endEntry_ports (d : Dev) (h : HalfId) (q s r : Nat) : (d.endEntry h q s r).ports = d.ports := Dev.endEntry_keep Dev.ports (fun _ _ => rfl) (fun _ _ => rfl) (fun _ _ => rfl) (fun _ _ => rfl) d h q s r
@[simp] theorem Dev.endEntry_fab (d : Dev) (h : HalfId) (q s r : Nat) : (d.endEntry h q s r).fab = d.fab := Dev.endEntry_keep Dev.fab (fun _ _ => rfl) (fun _ _ => rfl) (fun _ _ => rfl) (fun _ _ => rfl) d h q s r
@[simp] theorem Dev.endEntry_step0 (d : Dev) (h : HalfId) (q s r : Nat) : (d.endEntry h q s r).step0 = d.step0 := Dev.endEntry_keep Dev.step0 (fun _ _ => rfl) (fun _ _ => rfl) (fun _ _ => rfl) (fun _ _ => rfl) d h q s r
@[simp] theorem Dev.endEntry_step1 (d : Dev) (h : HalfId) (q s r : Nat) : (d.endEntry h q s r).step1 = d.step1 := Dev.endEntry_keep Dev.step1 (fun _ _ => rfl) (fun _ _ => rfl) (fun _ _ => rfl) (fun _ _ => rfl) d h q s r
@[simp] theorem Dev.endEntry_upd (d : Dev) (h : HalfId) (q s r : Nat) : (d.endEntry h q s r).upd = d.upd := Dev.endEntry_keep Dev.upd (fun _ _ => rfl) (fun _ _ => rfl) (fun _ _ => rfl) (fun _ _ => rfl) d h q s r
@[simp] theorem Dev.endEntry_srv (d : Dev) (h : HalfId) (q s r : Nat) : (d.endEntry h q s r).srv = d.srv := Dev.endEntry_keep Dev.srv (fun _ _ => rfl) (fun _ _ => rfl) (fun _ _ => rfl) (fun _ _ => rfl) d h q s r
@[simp] theorem Dev.endEntry_free (d : Dev) (h : HalfId) (q s r : Nat) : (d.endEntry h q s r).free = d.free := Dev.endEntry_keep Dev.free (fun _ _ => rfl) (fun _ _ => rfl) (fun _ _ => rfl) (fun _ _ => rfl) d h q s r

/-- Every part of the device that does not see led0, led1, mg, out is kept. -/
theorem Dev.finish_keep {β : Type} (g : Dev → β) (hled0 : ∀ d x, g { d with led0 := x } = g d) (hled1 : ∀ d x, g { d with led1 := x } = g d) (hmg : ∀ d x, g { d with mg := x } = g d) (hout : ∀ d x, g { d with out := x } = g d) (d : Dev) (h : HalfId) (q s : Nat) :
    g (d.finish h q s) = g d := by
  exact Dev.endEntry_keep g hled0 hled1 hmg hout d h q _ s
@[simp] theorem Dev.finish_regs (d : Dev) (h : HalfId) (q s : Nat) : (d.finish h q s).regs = d.regs := Dev.finish_keep Dev.regs (fun _ _ => rfl) (fun _ _ => rfl) (fun _ _ => rfl) (fun _ _ => rfl) d h q s
@[simp] theorem Dev.finish_mem (d : Dev) (h : HalfId) (q s : Nat) : (d.finish h q s).mem = d.mem := Dev.finish_keep Dev.mem (fun _ _ => rfl) (fun _ _ => rfl) (fun _ _ => rfl) (fun _ _ => rfl) d h q s
@[simp] theorem Dev.finish_poison (d : Dev) (h : HalfId) (q s : Nat) : (d.finish h q s).poison = d.poison := Dev.finish_keep Dev.poison (fun _ _ => rfl) (fun _ _ => rfl) (fun _ _ => rfl) (fun _ _ => rfl) d h q s
@[simp] theorem Dev.finish_pw (d : Dev) (h : HalfId) (q s : Nat) : (d.finish h q s).pw = d.pw := Dev.finish_keep Dev.pw (fun _ _ => rfl) (fun _ _ => rfl) (fun _ _ => rfl) (fun _ _ => rfl) d h q s
@[simp] theorem Dev.finish_tally (d : Dev) (h : HalfId) (q s : Nat) : (d.finish h q s).tally = d.tally := Dev.finish_keep Dev.tally (fun _ _ => rfl) (fun _ _ => rfl) (fun _ _ => rfl) (fun _ _ => rfl) d h q s
@[simp] theorem Dev.finish_sec (d : Dev) (h : HalfId) (q s : Nat) : (d.finish h q s).sec = d.sec := Dev.finish_keep Dev.sec (fun _ _ => rfl) (fun _ _ => rfl) (fun _ _ => rfl) (fun _ _ => rfl) d h q s
@[simp] theorem Dev.finish_boot (d : Dev) (h : HalfId) (q s : Nat) : (d.finish h q s).boot = d.boot := Dev.finish_keep Dev.boot (fun _ _ => rfl) (fun _ _ => rfl) (fun _ _ => rfl) (fun _ _ => rfl) d h q s
@[simp] theorem Dev.finish_feed (d : Dev) (h : HalfId) (q s : Nat) : (d.finish h q s).feed = d.feed := Dev.finish_keep Dev.feed (fun _ _ => rfl) (fun _ _ => rfl) (fun _ _ => rfl) (fun _ _ => rfl) d h q s
@[simp] theorem Dev.finish_queues (d : Dev) (h : HalfId) (q s : Nat) : (d.finish h q s).queues = d.queues := Dev.finish_keep Dev.queues (fun _ _ => rfl) (fun _ _ => rfl) (fun _ _ => rfl) (fun _ _ => rfl) d h q s
@[simp] theorem Dev.finish_slots (d : Dev) (h : HalfId) (q s : Nat) : (d.finish h q s).slots = d.slots := Dev.finish_keep Dev.slots (fun _ _ => rfl) (fun _ _ => rfl) (fun _ _ => rfl) (fun _ _ => rfl) d h q s
@[simp] theorem Dev.finish_tiles (d : Dev) (h : HalfId) (q s : Nat) : (d.finish h q s).tiles = d.tiles := Dev.finish_keep Dev.tiles (fun _ _ => rfl) (fun _ _ => rfl) (fun _ _ => rfl) (fun _ _ => rfl) d h q s
@[simp] theorem Dev.finish_insts (d : Dev) (h : HalfId) (q s : Nat) : (d.finish h q s).insts = d.insts := Dev.finish_keep Dev.insts (fun _ _ => rfl) (fun _ _ => rfl) (fun _ _ => rfl) (fun _ _ => rfl) d h q s
@[simp] theorem Dev.finish_products (d : Dev) (h : HalfId) (q s : Nat) : (d.finish h q s).products = d.products := Dev.finish_keep Dev.products (fun _ _ => rfl) (fun _ _ => rfl) (fun _ _ => rfl) (fun _ _ => rfl) d h q s
@[simp] theorem Dev.finish_img0 (d : Dev) (h : HalfId) (q s : Nat) : (d.finish h q s).img0 = d.img0 := Dev.finish_keep Dev.img0 (fun _ _ => rfl) (fun _ _ => rfl) (fun _ _ => rfl) (fun _ _ => rfl) d h q s
@[simp] theorem Dev.finish_img1 (d : Dev) (h : HalfId) (q s : Nat) : (d.finish h q s).img1 = d.img1 := Dev.finish_keep Dev.img1 (fun _ _ => rfl) (fun _ _ => rfl) (fun _ _ => rfl) (fun _ _ => rfl) d h q s
@[simp] theorem Dev.finish_stage0 (d : Dev) (h : HalfId) (q s : Nat) : (d.finish h q s).stage0 = d.stage0 := Dev.finish_keep Dev.stage0 (fun _ _ => rfl) (fun _ _ => rfl) (fun _ _ => rfl) (fun _ _ => rfl) d h q s
@[simp] theorem Dev.finish_stage1 (d : Dev) (h : HalfId) (q s : Nat) : (d.finish h q s).stage1 = d.stage1 := Dev.finish_keep Dev.stage1 (fun _ _ => rfl) (fun _ _ => rfl) (fun _ _ => rfl) (fun _ _ => rfl) d h q s
@[simp] theorem Dev.finish_net (d : Dev) (h : HalfId) (q s : Nat) : (d.finish h q s).net = d.net := Dev.finish_keep Dev.net (fun _ _ => rfl) (fun _ _ => rfl) (fun _ _ => rfl) (fun _ _ => rfl) d h q s
@[simp] theorem Dev.finish_faults (d : Dev) (h : HalfId) (q s : Nat) : (d.finish h q s).faults = d.faults := Dev.finish_keep Dev.faults (fun _ _ => rfl) (fun _ _ => rfl) (fun _ _ => rfl) (fun _ _ => rfl) d h q s
@[simp] theorem Dev.finish_heldW (d : Dev) (h : HalfId) (q s : Nat) : (d.finish h q s).heldW = d.heldW := Dev.finish_keep Dev.heldW (fun _ _ => rfl) (fun _ _ => rfl) (fun _ _ => rfl) (fun _ _ => rfl) d h q s
@[simp] theorem Dev.finish_heldE (d : Dev) (h : HalfId) (q s : Nat) : (d.finish h q s).heldE = d.heldE := Dev.finish_keep Dev.heldE (fun _ _ => rfl) (fun _ _ => rfl) (fun _ _ => rfl) (fun _ _ => rfl) d h q s
@[simp] theorem Dev.finish_refetch (d : Dev) (h : HalfId) (q s : Nat) : (d.finish h q s).refetch = d.refetch := Dev.finish_keep Dev.refetch (fun _ _ => rfl) (fun _ _ => rfl) (fun _ _ => rfl) (fun _ _ => rfl) d h q s
@[simp] theorem Dev.finish_refetched (d : Dev) (h : HalfId) (q s : Nat) : (d.finish h q s).refetched = d.refetched := Dev.finish_keep Dev.refetched (fun _ _ => rfl) (fun _ _ => rfl) (fun _ _ => rfl) (fun _ _ => rfl) d h q s
@[simp] theorem Dev.finish_ports (d : Dev) (h : HalfId) (q s : Nat) : (d.finish h q s).ports = d.ports := Dev.finish_keep Dev.ports (fun _ _ => rfl) (fun _ _ => rfl) (fun _ _ => rfl) (fun _ _ => rfl) d h q s
@[simp] theorem Dev.finish_fab (d : Dev) (h : HalfId) (q s : Nat) : (d.finish h q s).fab = d.fab := Dev.finish_keep Dev.fab (fun _ _ => rfl) (fun _ _ => rfl) (fun _ _ => rfl) (fun _ _ => rfl) d h q s
@[simp] theorem Dev.finish_step0 (d : Dev) (h : HalfId) (q s : Nat) : (d.finish h q s).step0 = d.step0 := Dev.finish_keep Dev.step0 (fun _ _ => rfl) (fun _ _ => rfl) (fun _ _ => rfl) (fun _ _ => rfl) d h q s
@[simp] theorem Dev.finish_step1 (d : Dev) (h : HalfId) (q s : Nat) : (d.finish h q s).step1 = d.step1 := Dev.finish_keep Dev.step1 (fun _ _ => rfl) (fun _ _ => rfl) (fun _ _ => rfl) (fun _ _ => rfl) d h q s
@[simp] theorem Dev.finish_upd (d : Dev) (h : HalfId) (q s : Nat) : (d.finish h q s).upd = d.upd := Dev.finish_keep Dev.upd (fun _ _ => rfl) (fun _ _ => rfl) (fun _ _ => rfl) (fun _ _ => rfl) d h q s
@[simp] theorem Dev.finish_srv (d : Dev) (h : HalfId) (q s : Nat) : (d.finish h q s).srv = d.srv := Dev.finish_keep Dev.srv (fun _ _ => rfl) (fun _ _ => rfl) (fun _ _ => rfl) (fun _ _ => rfl) d h q s
@[simp] theorem Dev.finish_free (d : Dev) (h : HalfId) (q s : Nat) : (d.finish h q s).free = d.free := Dev.finish_keep Dev.free (fun _ _ => rfl) (fun _ _ => rfl) (fun _ _ => rfl) (fun _ _ => rfl) d h q s

/-- Every part of the device that does not see led0, led1, mg, out is kept. -/
theorem Dev.endWhere_keep {β : Type} (g : Dev → β) (hled0 : ∀ d x, g { d with led0 := x } = g d) (hled1 : ∀ d x, g { d with led1 := x } = g d) (hmg : ∀ d x, g { d with mg := x } = g d) (hout : ∀ d x, g { d with out := x } = g d) (d : Dev) (h : HalfId) (p : Entry → Bool) (s r : Nat) :
    g (d.endWhere h p s r) = g d := by
  unfold Dev.endWhere; exact foldl_keep g _ (fun d e => Dev.endEntry_keep g hled0 hled1 hmg hout d h _ s r) _ d
@[simp] theorem Dev.endWhere_regs (d : Dev) (h : HalfId) (p : Entry → Bool) (s r : Nat) : (d.endWhere h p s r).regs = d.regs := Dev.endWhere_keep Dev.regs (fun _ _ => rfl) (fun _ _ => rfl) (fun _ _ => rfl) (fun _ _ => rfl) d h p s r
@[simp] theorem Dev.endWhere_mem (d : Dev) (h : HalfId) (p : Entry → Bool) (s r : Nat) : (d.endWhere h p s r).mem = d.mem := Dev.endWhere_keep Dev.mem (fun _ _ => rfl) (fun _ _ => rfl) (fun _ _ => rfl) (fun _ _ => rfl) d h p s r
@[simp] theorem Dev.endWhere_poison (d : Dev) (h : HalfId) (p : Entry → Bool) (s r : Nat) : (d.endWhere h p s r).poison = d.poison := Dev.endWhere_keep Dev.poison (fun _ _ => rfl) (fun _ _ => rfl) (fun _ _ => rfl) (fun _ _ => rfl) d h p s r
@[simp] theorem Dev.endWhere_pw (d : Dev) (h : HalfId) (p : Entry → Bool) (s r : Nat) : (d.endWhere h p s r).pw = d.pw := Dev.endWhere_keep Dev.pw (fun _ _ => rfl) (fun _ _ => rfl) (fun _ _ => rfl) (fun _ _ => rfl) d h p s r
@[simp] theorem Dev.endWhere_tally (d : Dev) (h : HalfId) (p : Entry → Bool) (s r : Nat) : (d.endWhere h p s r).tally = d.tally := Dev.endWhere_keep Dev.tally (fun _ _ => rfl) (fun _ _ => rfl) (fun _ _ => rfl) (fun _ _ => rfl) d h p s r
@[simp] theorem Dev.endWhere_sec (d : Dev) (h : HalfId) (p : Entry → Bool) (s r : Nat) : (d.endWhere h p s r).sec = d.sec := Dev.endWhere_keep Dev.sec (fun _ _ => rfl) (fun _ _ => rfl) (fun _ _ => rfl) (fun _ _ => rfl) d h p s r
@[simp] theorem Dev.endWhere_boot (d : Dev) (h : HalfId) (p : Entry → Bool) (s r : Nat) : (d.endWhere h p s r).boot = d.boot := Dev.endWhere_keep Dev.boot (fun _ _ => rfl) (fun _ _ => rfl) (fun _ _ => rfl) (fun _ _ => rfl) d h p s r
@[simp] theorem Dev.endWhere_feed (d : Dev) (h : HalfId) (p : Entry → Bool) (s r : Nat) : (d.endWhere h p s r).feed = d.feed := Dev.endWhere_keep Dev.feed (fun _ _ => rfl) (fun _ _ => rfl) (fun _ _ => rfl) (fun _ _ => rfl) d h p s r
@[simp] theorem Dev.endWhere_queues (d : Dev) (h : HalfId) (p : Entry → Bool) (s r : Nat) : (d.endWhere h p s r).queues = d.queues := Dev.endWhere_keep Dev.queues (fun _ _ => rfl) (fun _ _ => rfl) (fun _ _ => rfl) (fun _ _ => rfl) d h p s r
@[simp] theorem Dev.endWhere_slots (d : Dev) (h : HalfId) (p : Entry → Bool) (s r : Nat) : (d.endWhere h p s r).slots = d.slots := Dev.endWhere_keep Dev.slots (fun _ _ => rfl) (fun _ _ => rfl) (fun _ _ => rfl) (fun _ _ => rfl) d h p s r
@[simp] theorem Dev.endWhere_tiles (d : Dev) (h : HalfId) (p : Entry → Bool) (s r : Nat) : (d.endWhere h p s r).tiles = d.tiles := Dev.endWhere_keep Dev.tiles (fun _ _ => rfl) (fun _ _ => rfl) (fun _ _ => rfl) (fun _ _ => rfl) d h p s r
@[simp] theorem Dev.endWhere_insts (d : Dev) (h : HalfId) (p : Entry → Bool) (s r : Nat) : (d.endWhere h p s r).insts = d.insts := Dev.endWhere_keep Dev.insts (fun _ _ => rfl) (fun _ _ => rfl) (fun _ _ => rfl) (fun _ _ => rfl) d h p s r
@[simp] theorem Dev.endWhere_products (d : Dev) (h : HalfId) (p : Entry → Bool) (s r : Nat) : (d.endWhere h p s r).products = d.products := Dev.endWhere_keep Dev.products (fun _ _ => rfl) (fun _ _ => rfl) (fun _ _ => rfl) (fun _ _ => rfl) d h p s r
@[simp] theorem Dev.endWhere_img0 (d : Dev) (h : HalfId) (p : Entry → Bool) (s r : Nat) : (d.endWhere h p s r).img0 = d.img0 := Dev.endWhere_keep Dev.img0 (fun _ _ => rfl) (fun _ _ => rfl) (fun _ _ => rfl) (fun _ _ => rfl) d h p s r
@[simp] theorem Dev.endWhere_img1 (d : Dev) (h : HalfId) (p : Entry → Bool) (s r : Nat) : (d.endWhere h p s r).img1 = d.img1 := Dev.endWhere_keep Dev.img1 (fun _ _ => rfl) (fun _ _ => rfl) (fun _ _ => rfl) (fun _ _ => rfl) d h p s r
@[simp] theorem Dev.endWhere_stage0 (d : Dev) (h : HalfId) (p : Entry → Bool) (s r : Nat) : (d.endWhere h p s r).stage0 = d.stage0 := Dev.endWhere_keep Dev.stage0 (fun _ _ => rfl) (fun _ _ => rfl) (fun _ _ => rfl) (fun _ _ => rfl) d h p s r
@[simp] theorem Dev.endWhere_stage1 (d : Dev) (h : HalfId) (p : Entry → Bool) (s r : Nat) : (d.endWhere h p s r).stage1 = d.stage1 := Dev.endWhere_keep Dev.stage1 (fun _ _ => rfl) (fun _ _ => rfl) (fun _ _ => rfl) (fun _ _ => rfl) d h p s r
@[simp] theorem Dev.endWhere_net (d : Dev) (h : HalfId) (p : Entry → Bool) (s r : Nat) : (d.endWhere h p s r).net = d.net := Dev.endWhere_keep Dev.net (fun _ _ => rfl) (fun _ _ => rfl) (fun _ _ => rfl) (fun _ _ => rfl) d h p s r
@[simp] theorem Dev.endWhere_faults (d : Dev) (h : HalfId) (p : Entry → Bool) (s r : Nat) : (d.endWhere h p s r).faults = d.faults := Dev.endWhere_keep Dev.faults (fun _ _ => rfl) (fun _ _ => rfl) (fun _ _ => rfl) (fun _ _ => rfl) d h p s r
@[simp] theorem Dev.endWhere_heldW (d : Dev) (h : HalfId) (p : Entry → Bool) (s r : Nat) : (d.endWhere h p s r).heldW = d.heldW := Dev.endWhere_keep Dev.heldW (fun _ _ => rfl) (fun _ _ => rfl) (fun _ _ => rfl) (fun _ _ => rfl) d h p s r
@[simp] theorem Dev.endWhere_heldE (d : Dev) (h : HalfId) (p : Entry → Bool) (s r : Nat) : (d.endWhere h p s r).heldE = d.heldE := Dev.endWhere_keep Dev.heldE (fun _ _ => rfl) (fun _ _ => rfl) (fun _ _ => rfl) (fun _ _ => rfl) d h p s r
@[simp] theorem Dev.endWhere_refetch (d : Dev) (h : HalfId) (p : Entry → Bool) (s r : Nat) : (d.endWhere h p s r).refetch = d.refetch := Dev.endWhere_keep Dev.refetch (fun _ _ => rfl) (fun _ _ => rfl) (fun _ _ => rfl) (fun _ _ => rfl) d h p s r
@[simp] theorem Dev.endWhere_refetched (d : Dev) (h : HalfId) (p : Entry → Bool) (s r : Nat) : (d.endWhere h p s r).refetched = d.refetched := Dev.endWhere_keep Dev.refetched (fun _ _ => rfl) (fun _ _ => rfl) (fun _ _ => rfl) (fun _ _ => rfl) d h p s r
@[simp] theorem Dev.endWhere_ports (d : Dev) (h : HalfId) (p : Entry → Bool) (s r : Nat) : (d.endWhere h p s r).ports = d.ports := Dev.endWhere_keep Dev.ports (fun _ _ => rfl) (fun _ _ => rfl) (fun _ _ => rfl) (fun _ _ => rfl) d h p s r
@[simp] theorem Dev.endWhere_fab (d : Dev) (h : HalfId) (p : Entry → Bool) (s r : Nat) : (d.endWhere h p s r).fab = d.fab := Dev.endWhere_keep Dev.fab (fun _ _ => rfl) (fun _ _ => rfl) (fun _ _ => rfl) (fun _ _ => rfl) d h p s r
@[simp] theorem Dev.endWhere_step0 (d : Dev) (h : HalfId) (p : Entry → Bool) (s r : Nat) : (d.endWhere h p s r).step0 = d.step0 := Dev.endWhere_keep Dev.step0 (fun _ _ => rfl) (fun _ _ => rfl) (fun _ _ => rfl) (fun _ _ => rfl) d h p s r
@[simp] theorem Dev.endWhere_step1 (d : Dev) (h : HalfId) (p : Entry → Bool) (s r : Nat) : (d.endWhere h p s r).step1 = d.step1 := Dev.endWhere_keep Dev.step1 (fun _ _ => rfl) (fun _ _ => rfl) (fun _ _ => rfl) (fun _ _ => rfl) d h p s r
@[simp] theorem Dev.endWhere_upd (d : Dev) (h : HalfId) (p : Entry → Bool) (s r : Nat) : (d.endWhere h p s r).upd = d.upd := Dev.endWhere_keep Dev.upd (fun _ _ => rfl) (fun _ _ => rfl) (fun _ _ => rfl) (fun _ _ => rfl) d h p s r
@[simp] theorem Dev.endWhere_srv (d : Dev) (h : HalfId) (p : Entry → Bool) (s r : Nat) : (d.endWhere h p s r).srv = d.srv := Dev.endWhere_keep Dev.srv (fun _ _ => rfl) (fun _ _ => rfl) (fun _ _ => rfl) (fun _ _ => rfl) d h p s r
@[simp] theorem Dev.endWhere_free (d : Dev) (h : HalfId) (p : Entry → Bool) (s r : Nat) : (d.endWhere h p s r).free = d.free := Dev.endWhere_keep Dev.free (fun _ _ => rfl) (fun _ _ => rfl) (fun _ _ => rfl) (fun _ _ => rfl) d h p s r

/-- Every part of the device that does not see led0, led1, mg, out is kept. -/
theorem Dev.failPending_keep {β : Type} (g : Dev → β) (hled0 : ∀ d x, g { d with led0 := x } = g d) (hled1 : ∀ d x, g { d with led1 := x } = g d) (hmg : ∀ d x, g { d with mg := x } = g d) (hout : ∀ d x, g { d with out := x } = g d) (d : Dev) (p : Entry → Bool) :
    g (d.failPending p) = g d := by
  unfold Dev.failPending; exact foldl_keep g _ (fun d h => Dev.endWhere_keep g hled0 hled1 hmg hout d h _ 4 stTimeout) _ d
@[simp] theorem Dev.failPending_regs (d : Dev) (p : Entry → Bool) : (d.failPending p).regs = d.regs := Dev.failPending_keep Dev.regs (fun _ _ => rfl) (fun _ _ => rfl) (fun _ _ => rfl) (fun _ _ => rfl) d p
@[simp] theorem Dev.failPending_mem (d : Dev) (p : Entry → Bool) : (d.failPending p).mem = d.mem := Dev.failPending_keep Dev.mem (fun _ _ => rfl) (fun _ _ => rfl) (fun _ _ => rfl) (fun _ _ => rfl) d p
@[simp] theorem Dev.failPending_poison (d : Dev) (p : Entry → Bool) : (d.failPending p).poison = d.poison := Dev.failPending_keep Dev.poison (fun _ _ => rfl) (fun _ _ => rfl) (fun _ _ => rfl) (fun _ _ => rfl) d p
@[simp] theorem Dev.failPending_pw (d : Dev) (p : Entry → Bool) : (d.failPending p).pw = d.pw := Dev.failPending_keep Dev.pw (fun _ _ => rfl) (fun _ _ => rfl) (fun _ _ => rfl) (fun _ _ => rfl) d p
@[simp] theorem Dev.failPending_tally (d : Dev) (p : Entry → Bool) : (d.failPending p).tally = d.tally := Dev.failPending_keep Dev.tally (fun _ _ => rfl) (fun _ _ => rfl) (fun _ _ => rfl) (fun _ _ => rfl) d p
@[simp] theorem Dev.failPending_sec (d : Dev) (p : Entry → Bool) : (d.failPending p).sec = d.sec := Dev.failPending_keep Dev.sec (fun _ _ => rfl) (fun _ _ => rfl) (fun _ _ => rfl) (fun _ _ => rfl) d p
@[simp] theorem Dev.failPending_boot (d : Dev) (p : Entry → Bool) : (d.failPending p).boot = d.boot := Dev.failPending_keep Dev.boot (fun _ _ => rfl) (fun _ _ => rfl) (fun _ _ => rfl) (fun _ _ => rfl) d p
@[simp] theorem Dev.failPending_feed (d : Dev) (p : Entry → Bool) : (d.failPending p).feed = d.feed := Dev.failPending_keep Dev.feed (fun _ _ => rfl) (fun _ _ => rfl) (fun _ _ => rfl) (fun _ _ => rfl) d p
@[simp] theorem Dev.failPending_queues (d : Dev) (p : Entry → Bool) : (d.failPending p).queues = d.queues := Dev.failPending_keep Dev.queues (fun _ _ => rfl) (fun _ _ => rfl) (fun _ _ => rfl) (fun _ _ => rfl) d p
@[simp] theorem Dev.failPending_slots (d : Dev) (p : Entry → Bool) : (d.failPending p).slots = d.slots := Dev.failPending_keep Dev.slots (fun _ _ => rfl) (fun _ _ => rfl) (fun _ _ => rfl) (fun _ _ => rfl) d p
@[simp] theorem Dev.failPending_tiles (d : Dev) (p : Entry → Bool) : (d.failPending p).tiles = d.tiles := Dev.failPending_keep Dev.tiles (fun _ _ => rfl) (fun _ _ => rfl) (fun _ _ => rfl) (fun _ _ => rfl) d p
@[simp] theorem Dev.failPending_insts (d : Dev) (p : Entry → Bool) : (d.failPending p).insts = d.insts := Dev.failPending_keep Dev.insts (fun _ _ => rfl) (fun _ _ => rfl) (fun _ _ => rfl) (fun _ _ => rfl) d p
@[simp] theorem Dev.failPending_products (d : Dev) (p : Entry → Bool) : (d.failPending p).products = d.products := Dev.failPending_keep Dev.products (fun _ _ => rfl) (fun _ _ => rfl) (fun _ _ => rfl) (fun _ _ => rfl) d p
@[simp] theorem Dev.failPending_img0 (d : Dev) (p : Entry → Bool) : (d.failPending p).img0 = d.img0 := Dev.failPending_keep Dev.img0 (fun _ _ => rfl) (fun _ _ => rfl) (fun _ _ => rfl) (fun _ _ => rfl) d p
@[simp] theorem Dev.failPending_img1 (d : Dev) (p : Entry → Bool) : (d.failPending p).img1 = d.img1 := Dev.failPending_keep Dev.img1 (fun _ _ => rfl) (fun _ _ => rfl) (fun _ _ => rfl) (fun _ _ => rfl) d p
@[simp] theorem Dev.failPending_stage0 (d : Dev) (p : Entry → Bool) : (d.failPending p).stage0 = d.stage0 := Dev.failPending_keep Dev.stage0 (fun _ _ => rfl) (fun _ _ => rfl) (fun _ _ => rfl) (fun _ _ => rfl) d p
@[simp] theorem Dev.failPending_stage1 (d : Dev) (p : Entry → Bool) : (d.failPending p).stage1 = d.stage1 := Dev.failPending_keep Dev.stage1 (fun _ _ => rfl) (fun _ _ => rfl) (fun _ _ => rfl) (fun _ _ => rfl) d p
@[simp] theorem Dev.failPending_net (d : Dev) (p : Entry → Bool) : (d.failPending p).net = d.net := Dev.failPending_keep Dev.net (fun _ _ => rfl) (fun _ _ => rfl) (fun _ _ => rfl) (fun _ _ => rfl) d p
@[simp] theorem Dev.failPending_faults (d : Dev) (p : Entry → Bool) : (d.failPending p).faults = d.faults := Dev.failPending_keep Dev.faults (fun _ _ => rfl) (fun _ _ => rfl) (fun _ _ => rfl) (fun _ _ => rfl) d p
@[simp] theorem Dev.failPending_heldW (d : Dev) (p : Entry → Bool) : (d.failPending p).heldW = d.heldW := Dev.failPending_keep Dev.heldW (fun _ _ => rfl) (fun _ _ => rfl) (fun _ _ => rfl) (fun _ _ => rfl) d p
@[simp] theorem Dev.failPending_heldE (d : Dev) (p : Entry → Bool) : (d.failPending p).heldE = d.heldE := Dev.failPending_keep Dev.heldE (fun _ _ => rfl) (fun _ _ => rfl) (fun _ _ => rfl) (fun _ _ => rfl) d p
@[simp] theorem Dev.failPending_refetch (d : Dev) (p : Entry → Bool) : (d.failPending p).refetch = d.refetch := Dev.failPending_keep Dev.refetch (fun _ _ => rfl) (fun _ _ => rfl) (fun _ _ => rfl) (fun _ _ => rfl) d p
@[simp] theorem Dev.failPending_refetched (d : Dev) (p : Entry → Bool) : (d.failPending p).refetched = d.refetched := Dev.failPending_keep Dev.refetched (fun _ _ => rfl) (fun _ _ => rfl) (fun _ _ => rfl) (fun _ _ => rfl) d p
@[simp] theorem Dev.failPending_ports (d : Dev) (p : Entry → Bool) : (d.failPending p).ports = d.ports := Dev.failPending_keep Dev.ports (fun _ _ => rfl) (fun _ _ => rfl) (fun _ _ => rfl) (fun _ _ => rfl) d p
@[simp] theorem Dev.failPending_fab (d : Dev) (p : Entry → Bool) : (d.failPending p).fab = d.fab := Dev.failPending_keep Dev.fab (fun _ _ => rfl) (fun _ _ => rfl) (fun _ _ => rfl) (fun _ _ => rfl) d p
@[simp] theorem Dev.failPending_step0 (d : Dev) (p : Entry → Bool) : (d.failPending p).step0 = d.step0 := Dev.failPending_keep Dev.step0 (fun _ _ => rfl) (fun _ _ => rfl) (fun _ _ => rfl) (fun _ _ => rfl) d p
@[simp] theorem Dev.failPending_step1 (d : Dev) (p : Entry → Bool) : (d.failPending p).step1 = d.step1 := Dev.failPending_keep Dev.step1 (fun _ _ => rfl) (fun _ _ => rfl) (fun _ _ => rfl) (fun _ _ => rfl) d p
@[simp] theorem Dev.failPending_upd (d : Dev) (p : Entry → Bool) : (d.failPending p).upd = d.upd := Dev.failPending_keep Dev.upd (fun _ _ => rfl) (fun _ _ => rfl) (fun _ _ => rfl) (fun _ _ => rfl) d p
@[simp] theorem Dev.failPending_srv (d : Dev) (p : Entry → Bool) : (d.failPending p).srv = d.srv := Dev.failPending_keep Dev.srv (fun _ _ => rfl) (fun _ _ => rfl) (fun _ _ => rfl) (fun _ _ => rfl) d p
@[simp] theorem Dev.failPending_free (d : Dev) (p : Entry → Bool) : (d.failPending p).free = d.free := Dev.failPending_keep Dev.free (fun _ _ => rfl) (fun _ _ => rfl) (fun _ _ => rfl) (fun _ _ => rfl) d p

/-- Every part of the device that does not see led0, led1, mg, out is kept. -/
theorem Dev.supersede_keep {β : Type} (g : Dev → β) (hled0 : ∀ d x, g { d with led0 := x } = g d) (hled1 : ∀ d x, g { d with led1 := x } = g d) (hmg : ∀ d x, g { d with mg := x } = g d) (hout : ∀ d x, g { d with out := x } = g d) (d : Dev) (h : HalfId) :
    g (d.supersede h) = g d := by
  exact Dev.endWhere_keep g hled0 hled1 hmg hout d h _ 5 stWrongState
@[simp] theorem Dev.supersede_regs (d : Dev) (h : HalfId) : (d.supersede h).regs = d.regs := Dev.supersede_keep Dev.regs (fun _ _ => rfl) (fun _ _ => rfl) (fun _ _ => rfl) (fun _ _ => rfl) d h
@[simp] theorem Dev.supersede_mem (d : Dev) (h : HalfId) : (d.supersede h).mem = d.mem := Dev.supersede_keep Dev.mem (fun _ _ => rfl) (fun _ _ => rfl) (fun _ _ => rfl) (fun _ _ => rfl) d h
@[simp] theorem Dev.supersede_poison (d : Dev) (h : HalfId) : (d.supersede h).poison = d.poison := Dev.supersede_keep Dev.poison (fun _ _ => rfl) (fun _ _ => rfl) (fun _ _ => rfl) (fun _ _ => rfl) d h
@[simp] theorem Dev.supersede_pw (d : Dev) (h : HalfId) : (d.supersede h).pw = d.pw := Dev.supersede_keep Dev.pw (fun _ _ => rfl) (fun _ _ => rfl) (fun _ _ => rfl) (fun _ _ => rfl) d h
@[simp] theorem Dev.supersede_tally (d : Dev) (h : HalfId) : (d.supersede h).tally = d.tally := Dev.supersede_keep Dev.tally (fun _ _ => rfl) (fun _ _ => rfl) (fun _ _ => rfl) (fun _ _ => rfl) d h
@[simp] theorem Dev.supersede_sec (d : Dev) (h : HalfId) : (d.supersede h).sec = d.sec := Dev.supersede_keep Dev.sec (fun _ _ => rfl) (fun _ _ => rfl) (fun _ _ => rfl) (fun _ _ => rfl) d h
@[simp] theorem Dev.supersede_boot (d : Dev) (h : HalfId) : (d.supersede h).boot = d.boot := Dev.supersede_keep Dev.boot (fun _ _ => rfl) (fun _ _ => rfl) (fun _ _ => rfl) (fun _ _ => rfl) d h
@[simp] theorem Dev.supersede_feed (d : Dev) (h : HalfId) : (d.supersede h).feed = d.feed := Dev.supersede_keep Dev.feed (fun _ _ => rfl) (fun _ _ => rfl) (fun _ _ => rfl) (fun _ _ => rfl) d h
@[simp] theorem Dev.supersede_queues (d : Dev) (h : HalfId) : (d.supersede h).queues = d.queues := Dev.supersede_keep Dev.queues (fun _ _ => rfl) (fun _ _ => rfl) (fun _ _ => rfl) (fun _ _ => rfl) d h
@[simp] theorem Dev.supersede_slots (d : Dev) (h : HalfId) : (d.supersede h).slots = d.slots := Dev.supersede_keep Dev.slots (fun _ _ => rfl) (fun _ _ => rfl) (fun _ _ => rfl) (fun _ _ => rfl) d h
@[simp] theorem Dev.supersede_tiles (d : Dev) (h : HalfId) : (d.supersede h).tiles = d.tiles := Dev.supersede_keep Dev.tiles (fun _ _ => rfl) (fun _ _ => rfl) (fun _ _ => rfl) (fun _ _ => rfl) d h
@[simp] theorem Dev.supersede_insts (d : Dev) (h : HalfId) : (d.supersede h).insts = d.insts := Dev.supersede_keep Dev.insts (fun _ _ => rfl) (fun _ _ => rfl) (fun _ _ => rfl) (fun _ _ => rfl) d h
@[simp] theorem Dev.supersede_products (d : Dev) (h : HalfId) : (d.supersede h).products = d.products := Dev.supersede_keep Dev.products (fun _ _ => rfl) (fun _ _ => rfl) (fun _ _ => rfl) (fun _ _ => rfl) d h
@[simp] theorem Dev.supersede_img0 (d : Dev) (h : HalfId) : (d.supersede h).img0 = d.img0 := Dev.supersede_keep Dev.img0 (fun _ _ => rfl) (fun _ _ => rfl) (fun _ _ => rfl) (fun _ _ => rfl) d h
@[simp] theorem Dev.supersede_img1 (d : Dev) (h : HalfId) : (d.supersede h).img1 = d.img1 := Dev.supersede_keep Dev.img1 (fun _ _ => rfl) (fun _ _ => rfl) (fun _ _ => rfl) (fun _ _ => rfl) d h
@[simp] theorem Dev.supersede_stage0 (d : Dev) (h : HalfId) : (d.supersede h).stage0 = d.stage0 := Dev.supersede_keep Dev.stage0 (fun _ _ => rfl) (fun _ _ => rfl) (fun _ _ => rfl) (fun _ _ => rfl) d h
@[simp] theorem Dev.supersede_stage1 (d : Dev) (h : HalfId) : (d.supersede h).stage1 = d.stage1 := Dev.supersede_keep Dev.stage1 (fun _ _ => rfl) (fun _ _ => rfl) (fun _ _ => rfl) (fun _ _ => rfl) d h
@[simp] theorem Dev.supersede_net (d : Dev) (h : HalfId) : (d.supersede h).net = d.net := Dev.supersede_keep Dev.net (fun _ _ => rfl) (fun _ _ => rfl) (fun _ _ => rfl) (fun _ _ => rfl) d h
@[simp] theorem Dev.supersede_faults (d : Dev) (h : HalfId) : (d.supersede h).faults = d.faults := Dev.supersede_keep Dev.faults (fun _ _ => rfl) (fun _ _ => rfl) (fun _ _ => rfl) (fun _ _ => rfl) d h
@[simp] theorem Dev.supersede_heldW (d : Dev) (h : HalfId) : (d.supersede h).heldW = d.heldW := Dev.supersede_keep Dev.heldW (fun _ _ => rfl) (fun _ _ => rfl) (fun _ _ => rfl) (fun _ _ => rfl) d h
@[simp] theorem Dev.supersede_heldE (d : Dev) (h : HalfId) : (d.supersede h).heldE = d.heldE := Dev.supersede_keep Dev.heldE (fun _ _ => rfl) (fun _ _ => rfl) (fun _ _ => rfl) (fun _ _ => rfl) d h
@[simp] theorem Dev.supersede_refetch (d : Dev) (h : HalfId) : (d.supersede h).refetch = d.refetch := Dev.supersede_keep Dev.refetch (fun _ _ => rfl) (fun _ _ => rfl) (fun _ _ => rfl) (fun _ _ => rfl) d h
@[simp] theorem Dev.supersede_refetched (d : Dev) (h : HalfId) : (d.supersede h).refetched = d.refetched := Dev.supersede_keep Dev.refetched (fun _ _ => rfl) (fun _ _ => rfl) (fun _ _ => rfl) (fun _ _ => rfl) d h
@[simp] theorem Dev.supersede_ports (d : Dev) (h : HalfId) : (d.supersede h).ports = d.ports := Dev.supersede_keep Dev.ports (fun _ _ => rfl) (fun _ _ => rfl) (fun _ _ => rfl) (fun _ _ => rfl) d h
@[simp] theorem Dev.supersede_fab (d : Dev) (h : HalfId) : (d.supersede h).fab = d.fab := Dev.supersede_keep Dev.fab (fun _ _ => rfl) (fun _ _ => rfl) (fun _ _ => rfl) (fun _ _ => rfl) d h
@[simp] theorem Dev.supersede_step0 (d : Dev) (h : HalfId) : (d.supersede h).step0 = d.step0 := Dev.supersede_keep Dev.step0 (fun _ _ => rfl) (fun _ _ => rfl) (fun _ _ => rfl) (fun _ _ => rfl) d h
@[simp] theorem Dev.supersede_step1 (d : Dev) (h : HalfId) : (d.supersede h).step1 = d.step1 := Dev.supersede_keep Dev.step1 (fun _ _ => rfl) (fun _ _ => rfl) (fun _ _ => rfl) (fun _ _ => rfl) d h
@[simp] theorem Dev.supersede_upd (d : Dev) (h : HalfId) : (d.supersede h).upd = d.upd := Dev.supersede_keep Dev.upd (fun _ _ => rfl) (fun _ _ => rfl) (fun _ _ => rfl) (fun _ _ => rfl) d h
@[simp] theorem Dev.supersede_srv (d : Dev) (h : HalfId) : (d.supersede h).srv = d.srv := Dev.supersede_keep Dev.srv (fun _ _ => rfl) (fun _ _ => rfl) (fun _ _ => rfl) (fun _ _ => rfl) d h
@[simp] theorem Dev.supersede_free (d : Dev) (h : HalfId) : (d.supersede h).free = d.free := Dev.supersede_keep Dev.free (fun _ _ => rfl) (fun _ _ => rfl) (fun _ _ => rfl) (fun _ _ => rfl) d h

end Sys2Proof.Machine
end

