-- ==== Sys2Proof/Laws/Memory.lean ====
section
/-! SUPPORT. The laws of memory: a read after a write, and that every memory operation keeps the canonical form. -/

namespace Sys2Proof.Machine

/-- A byte read after a byte is written: that byte at its address, every other address as before. -/
theorem memGet_memPut (m : List Host.Cell) (a x : Nat) (b : Byte) : memGet (memPut m a b) x = if a = x then b else memGet m x := by
  unfold memGet memPut
  split
  · next h => rw [fmGet_fmErase]; split <;> simp [h]
  · rw [fmGet_fmSet]; split <;> rfl

/-- A byte read after a byte string is written. -/
theorem memGet_memPutBytes (m : List Host.Cell) (a x : Nat) (bs : List Byte) :
    memGet (memPutBytes m a bs) x = if a ≤ x ∧ x < a + bs.length then bs.getD (x - a) 0#8 else memGet m x := by
  induction bs generalizing m a with
  | nil => simp [memPutBytes]
  | cons b bs ih =>
    simp only [memPutBytes, ih, memGet_memPut, List.length_cons]
    by_cases h : a = x
    · subst h; simp
    · by_cases g : a + 1 ≤ x ∧ x < a + 1 + bs.length
      · have e : x - a = (x - (a + 1)) + 1 := by omega
        rw [if_pos g, if_pos (by omega), e, List.getD_cons_succ]
      · rw [if_neg g, if_neg h, if_neg (by omega)]

theorem memGet_memClear (m : List Host.Cell) (lo hi x : Nat) :
    memGet (memClear m lo hi) x = if lo ≤ x ∧ x < hi then 0#8 else memGet m x := by
  unfold memGet memClear
  rw [fmGet_fmEraseRange]; split <;> rfl

theorem memWf_memPut {m : List Host.Cell} (a : Nat) (b : Byte) (h : Memory.wf m = true) : Memory.wf (memPut m a b) = true := by
  simp only [Memory.wf, Bool.and_eq_true, List.all_eq_true] at h ⊢
  unfold memPut
  split
  · exact ⟨fmWf_fmErase a h.1, fun c hc => h.2 c (List.mem_of_mem_filter hc)⟩
  · next hb =>
    refine ⟨fmWf_fmSet a b h.1, fun c hc => ?_⟩
    rcases fmSet_mem hc with rfl | hc
    · simpa using hb
    · exact h.2 c hc

theorem memWf_memPutBytes {m : List Host.Cell} (a : Nat) (bs : List Byte) (h : Memory.wf m = true) :
    Memory.wf (memPutBytes m a bs) = true := by
  induction bs generalizing m a with
  | nil => exact h
  | cons b bs ih => exact ih _ (memWf_memPut a b h)

theorem memWf_filter {m : List Host.Cell} (p : Nat × Byte → Bool) (h : Memory.wf m = true) : Memory.wf (m.filter p) = true := by
  simp only [Memory.wf, Bool.and_eq_true, List.all_eq_true] at h ⊢
  exact ⟨fmWf_filter p h.1, fun c hc => h.2 c (List.mem_of_mem_filter hc)⟩

theorem memWf_memClear {m : List Host.Cell} (lo hi : Nat) (h : Memory.wf m = true) : Memory.wf (memClear m lo hi) = true :=
  memWf_filter _ h

end Sys2Proof.Machine
end

