-- ==== Sys2Proof/Laws/Regs.lean ====
section
/-! SUPPORT. The laws of register fields: what reading a field gives after a set, a count or an event, and that the register file
keeps its canonical form. -/

namespace Sys2Proof.Machine

theorem fmGet_regPut (m : FMap Nat) (f : Fld) (a v k : Nat) :
    (fmGet (regPut m f a v) k).getD f.rst = if f.key a = k then v % 2 ^ f.w else (fmGet m k).getD f.rst := by
  unfold regPut
  simp only []
  split
  · next h => rw [fmGet_fmErase]; split <;> simp [h]
  · rw [fmGet_fmSet]; split <;> rfl

theorem fmGet_regPut_ne (m : FMap Nat) (f : Fld) (a v k : Nat) (h : f.key a ≠ k) : fmGet (regPut m f a v) k = fmGet m k := by
  unfold regPut
  simp only []
  split
  · rw [fmGet_fmErase, if_neg h]
  · rw [fmGet_fmSet, if_neg h]

/-- A field holds what it was last set to, without the bits beyond its width. -/
@[simp] theorem Dev.fget_fset_self (d : Dev) (f : Fld) (v a : Nat) : (d.fset f v a).fget f a = v % 2 ^ f.w := by
  show (fmGet (regPut d.regs f a v) (f.key a)).getD f.rst = _
  simp [fmGet_regPut]

/-- A set of one field leaves every other field. -/
theorem Dev.fget_fset_ne (d : Dev) (f g : Fld) (v a b : Nat) (h : f.key a ≠ g.key b) : (d.fset f v a).fget g b = d.fget g b := by
  show (fmGet (regPut d.regs f a v) (g.key b)).getD g.rst = _
  rw [fmGet_regPut_ne _ _ _ _ _ h]; rfl

/-- The same, as a look-up by bit address. -/
theorem Dev.regs_fset_ne (d : Dev) (f : Fld) (v a k : Nat) (h : f.key a ≠ k) : fmGet (d.fset f v a).regs k = fmGet d.regs k :=
  fmGet_regPut_ne _ _ _ _ _ h

/-- A field of the same instance or another, after a set. -/
theorem Dev.fget_fset (d : Dev) (f : Fld) (v a b : Nat) : (d.fset f v a).fget f b = if f.key a = f.key b then v % 2 ^ f.w else d.fget f b :=
  fmGet_regPut _ _ _ _ _

theorem Dev.fget_count_ne (d : Dev) (f g : Fld) (n a b : Nat) (h : f.key a ≠ g.key b) : (d.count f n a).fget g b = d.fget g b :=
  d.fget_fset_ne f g _ a b h

/-- A counter saturates at all ones (R9). -/
@[simp] theorem Dev.fget_count_self (d : Dev) (f : Fld) (n a : Nat) :
    (d.count f n a).fget f a = min (d.fget f a + n) (2 ^ f.w - 1) := by
  unfold Dev.count
  rw [Dev.fget_fset_self, Nat.mod_eq_of_lt]
  have := Nat.two_pow_pos f.w
  omega

theorem Dev.fget_event_ne (d : Dev) (e : Ev) (g : Fld) (a b : Nat) (h : e.bit.key a ≠ g.key b) (k : e.cnt.key a ≠ g.key b) :
    (d.event e a).fget g b = d.fget g b := by
  unfold Dev.event; rw [Dev.fget_count_ne _ _ _ _ _ _ k, Dev.fget_fset_ne _ _ _ _ _ _ h]

/-- An event bit is set, and the counter beside it counts (R9). -/
theorem Dev.fget_event_bit (d : Dev) (e : Ev) (a : Nat) (w : e.bit.w = 1) (h : e.cnt.key a ≠ e.bit.key a) :
    (d.event e a).fget e.bit a = 1 := by
  unfold Dev.event; rw [Dev.fget_count_ne _ _ _ _ _ _ h]; simp [w]

theorem Dev.fget_event_cnt (d : Dev) (e : Ev) (a : Nat) (h : e.bit.key a ≠ e.cnt.key a) :
    (d.event e a).fget e.cnt a = min (d.fget e.cnt a + 1) (2 ^ e.cnt.w - 1) := by
  unfold Dev.event; rw [Dev.fget_count_self, Dev.fget_fset_ne _ _ _ _ _ _ h]

/-- Reading depends on the register file alone. -/
theorem Dev.fget_congr {d e : Dev} (h : d.regs = e.regs) (f : Fld) (a : Nat) : d.fget f a = e.fget f a := by unfold Dev.fget; rw [h]

theorem fmWf_regPut {m : FMap Nat} (f : Fld) (a v : Nat) (h : fmWf m = true) : fmWf (regPut m f a v) = true := by
  unfold regPut
  simp only []
  split
  · exact fmWf_fmErase _ h
  · exact fmWf_fmSet _ _ h

end Sys2Proof.Machine
end

