-- ==== Sys2Proof/Laws/Step.lean ====
section
/-! SUPPORT. The laws of the lifts: a command whose meaning is a function of the device completes, and its next state is that function's. -/

namespace Sys2Proof.Machine

theorem Dev.live_cond {d : Dev} (h : d.live = true) : (d.pw.pwrGood && d.pw.resetN && !d.pw.tripped) = true := h

theorem Dev.powered_cond {d : Dev} (h : d.powered = true) : (d.pw.pwrGood && d.pw.resetN) = true := h

/-- A command of the live device completes (R457, R524). -/
theorem does_live {c : Instr} {s : State} {P : Dev → Prop} (f : Dev → Dev) (hc : exec c s = onLive f s) (h : s.dev.live = true)
    (p : P (f s.dev)) : Does c s P := by
  refine ⟨{ s with dev := f s.dev }, ?_, rfl, p⟩
  rw [hc]; simp only [onLive, onDev, Dev.live_cond h, if_true]

/-- A command of the powered device completes (R457). -/
theorem does_powered {c : Instr} {s : State} {P : Dev → Prop} (f : Dev → Dev) (hc : exec c s = onPowered f s) (h : s.dev.powered = true)
    (p : P (f s.dev)) : Does c s P := by
  refine ⟨{ s with dev := f s.dev }, ?_, rfl, p⟩
  rw [hc]; simp only [onPowered, onDev, Dev.powered_cond h, if_true]

/-- A command that needs no power to the logic completes. -/
theorem does_dev {c : Instr} {s : State} {P : Dev → Prop} (f : Dev → Dev) (hc : exec c s = onDev f s) (p : P (f s.dev)) : Does c s P :=
  ⟨{ s with dev := f s.dev }, hc, rfl, p⟩

end Sys2Proof.Machine
end

