-- ==== Sys2Proof/Laws/Canonical.lean ====
section
/-! SUPPORT. The canonical form of a device: it depends on the registers, memory and poison alone, and every shared operation that touches
them keeps it. -/

namespace Sys2Proof.Machine

/-- The canonical form is a matter of the registers, memory and poison alone. -/
theorem canonical_congr {d e : Dev} (c : canonical d) (hr : e.regs = d.regs) (hm : e.mem = d.mem) (hp : e.poison = d.poison) : canonical e := by
  unfold canonical at *; rw [hr, hm, hp]; exact c

/-- Registers may be replaced by any in canonical form. -/
theorem canonical_regs {d : Dev} {r : FMap Nat} (c : canonical d) (h : fmWf r = true) : canonical { d with regs := r } := ⟨h, c.2.1, c.2.2⟩

/-- Memory and poison may be replaced by any in canonical form. -/
theorem canonical_mem {d : Dev} {m : List Host.Cell} {p : FMap Unit} (c : canonical d) (h : Memory.wf m = true) (k : fmWf p = true) :
    canonical { d with mem := m, poison := p } := ⟨c.1, h, k⟩

/-- A fold keeps the canonical form if each of its steps does. -/
theorem canonical_foldl {γ : Type} (f : Dev → γ → Dev) (h : ∀ d x, canonical d → canonical (f d x)) (l : List γ) (d : Dev) (c : canonical d) :
    canonical (l.foldl f d) := by
  induction l generalizing d with
  | nil => exact c
  | cons x l ih => exact ih _ (h d x c)

/-! ## Registers and events -/

theorem canonical_fset {d : Dev} (f : Fld) (v a : Nat) (c : canonical d) : canonical (d.fset f v a) := canonical_regs c (fmWf_regPut f a v c.1)
theorem canonical_fsetB {d : Dev} (f : Fld) (v : Bool) (a : Nat) (c : canonical d) : canonical (d.fsetB f v a) := canonical_fset _ _ _ c
theorem canonical_count {d : Dev} (f : Fld) (n a : Nat) (c : canonical d) : canonical (d.count f n a) := canonical_fset _ _ _ c
theorem canonical_event {d : Dev} (e : Ev) (a : Nat) (c : canonical d) : canonical (d.event e a) := canonical_count _ _ _ (canonical_fset _ _ _ c)
theorem canonical_regReset {d : Dev} (lo hi : Nat) (c : canonical d) : canonical (d.regReset lo hi) := canonical_regs c (fmWf_fmEraseRange _ _ c.1)
theorem canonical_fclear {d : Dev} (fs : List Fld) (a : Nat) (c : canonical d) : canonical (d.fclear fs a) :=
  canonical_foldl _ (fun _ _ h => canonical_fset _ _ _ h) _ _ c
theorem canonical_fresh {d : Dev} (w : Nat) (c : canonical d) : canonical (d.fresh w).2 := canonical_congr c rfl rfl rfl
theorem canonical_emit {d : Dev} (o : Out) (c : canonical d) : canonical (d.emit o) := canonical_congr c rfl rfl rfl

/-! ## The trace, the strongbox, messages, states -/

theorem canonical_traceRec {d : Dev} (k : Nat) (vs : List Nat) (c : canonical d) : canonical (d.traceRec k vs) :=
  canonical_congr c (by simp) (by simp) (by simp)
theorem canonical_sendMsg {d : Dev} (i t r : Nat) (b : List Nat) (c : canonical d) : canonical (d.sendMsg i t r b) := canonical_congr c rfl rfl rfl
theorem canonical_mbxEvent {d : Dev} (e : Ev) (c : canonical d) : canonical (d.mbxEvent e) := by
  have h : canonical (((d.event e).traceRec 5 [e.bit.lo]).mg.sessions.foldl (fun d p => d.sendMsg p.1 0x09 0 [e.bit.lo, d.now])
      ((d.event e).traceRec 5 [e.bit.lo])) :=
    canonical_foldl _ (fun _ _ h => canonical_sendMsg _ _ _ _ h) _ _ (canonical_traceRec _ _ (canonical_event _ _ c))
  unfold Dev.mbxEvent
  simp only []
  split
  · exact canonical_emit _ h
  · exact h
theorem canonical_sbLog {d : Dev} (t s : Nat) (b : List Nat) (c : canonical d) : canonical (d.sbLog t s b) := by
  unfold Dev.sbLog
  split
  · exact canonical_mbxEvent _ (canonical_congr c rfl rfl rfl)
  · exact canonical_congr c rfl rfl rfl
theorem canonical_setHalf {d : Dev} (h : HalfId) (st sub : Nat) (c : canonical d) : canonical (d.setHalf h st sub) := by
  unfold Dev.setHalf
  simp only []
  split
  · exact canonical_fset _ _ _ (canonical_fset _ _ _ c)
  · exact canonical_sbLog _ _ _ (canonical_fset _ _ _ (canonical_fset _ _ _ c))
theorem canonical_setScope {d : Dev} (s : Scope) (st sub : Nat) (c : canonical d) : canonical (d.setScope s st sub) :=
  canonical_foldl _ (fun e h k => by
    show canonical (if e.half h = 7 then e else e.setHalf h st sub)
    split
    · exact k
    · exact canonical_setHalf _ _ _ k) _ _ c

/-! ## Memory -/

theorem canonical_poke {d : Dev} (a : Nat) (bs : List Byte) (c : canonical d) : canonical (d.poke a bs) :=
  canonical_mem c (memWf_memPutBytes _ _ c.2.1) (fmWf_fmEraseRange _ _ c.2.2)
theorem canonical_pokePoison {d : Dev} (a : Nat) (c : canonical d) : canonical (d.pokePoison a) :=
  canonical_mem c (memWf_memClear _ _ c.2.1) (fmWf_fmSet _ _ c.2.2)
theorem canonical_pokePoisons {d : Dev} (n a : Nat) (c : canonical d) : canonical (d.pokePoisons a n) := by
  induction n generalizing d a with
  | zero => exact c
  | succ n ih => exact ih _ (canonical_pokePoison _ c)
theorem canonical_zeroRange {d : Dev} (lo hi : Nat) (c : canonical d) : canonical (d.zeroRange lo hi) :=
  canonical_mem c (memWf_memClear _ _ c.2.1) (fmWf_fmEraseRange _ _ c.2.2)
theorem canonical_countStk {d : Dev} (a n : Nat) (w : Bool) (c : canonical d) : canonical (d.countStk a n w) := by
  unfold Dev.countStk
  split
  · exact canonical_count _ _ _ c
  · exact c
theorem canonical_store {d : Dev} (a : Nat) (bs : List Byte) (c : canonical d) : canonical (d.store a bs) := by
  unfold Dev.store; split
  · exact c
  · exact canonical_countStk _ _ _ (canonical_poke _ _ c)
theorem canonical_storePoison {d : Dev} (a n : Nat) (c : canonical d) : canonical (d.storePoison a n) := by
  unfold Dev.storePoison; split
  · exact c
  · exact canonical_countStk _ _ _ (canonical_pokePoisons _ _ c)
theorem canonical_readWord {d : Dev} (a : Nat) (e : RdErr) (c : canonical d) : canonical (d.readWord a e).2 := by
  have k := canonical_countStk (a / 8 * 8) 8 false c
  unfold Dev.readWord
  dsimp only
  split
  · exact c
  generalize d.countStk (a / 8 * 8) 8 false = d at k ⊢
  (repeat' split) <;>
    repeat with_reducible first
      | exact k
      | apply canonical_countStk
      | apply canonical_event
      | apply canonical_fset
      | apply canonical_pokePoison
theorem canonical_readWords {d : Dev} (n a : Nat) (es : List RdErr) (c : canonical d) : canonical (d.readWords a n es).2 := by
  induction n generalizing d a es with
  | zero => exact c
  | succ n ih => exact ih _ _ (canonical_readWord _ _ c)
theorem canonical_readRow {d : Dev} (a : Nat) (es : List RdErr) (c : canonical d) : canonical (d.readRow a es).2 := by
  unfold Dev.readRow; dsimp only; exact canonical_readWords _ _ _ c
theorem canonical_writeRow {d : Dev} (a : Nat) (v : Row) (p : Bool) (c : canonical d) : canonical (d.writeRow a v p) := by
  unfold Dev.writeRow
  split
  · exact canonical_storePoison _ _ c
  · exact canonical_store _ _ c

/-! ## The lifts -/

/-- A command whose meaning is a function of the device keeps the canonical form if the function does. -/
theorem canonical_onDev {f : Dev → Dev} {s t : State} (hf : canonical s.dev → canonical (f s.dev)) (h : onDev f s = .next t) (c : canonical s.dev) :
    canonical t.dev := by
  cases h; exact hf c
theorem canonical_onPowered {f : Dev → Dev} {s t : State} (hf : canonical s.dev → canonical (f s.dev)) (h : onPowered f s = .next t)
    (c : canonical s.dev) : canonical t.dev := by
  refine canonical_onDev (fun c => ?_) h c
  show canonical (if _ then f s.dev else s.dev)
  split
  · exact hf c
  · exact c
theorem canonical_onLive {f : Dev → Dev} {s t : State} (hf : canonical s.dev → canonical (f s.dev)) (h : onLive f s = .next t)
    (c : canonical s.dev) : canonical t.dev := by
  refine canonical_onDev (fun c => ?_) h c
  show canonical (if _ then f s.dev else s.dev)
  split
  · exact hf c
  · exact c

end Sys2Proof.Machine
end

