-- ==== Sys2Proof/Laws/Control.lean ====
section
/-! SUPPORT. The laws of the control core: what issuing an instruction and faulting change, and the events and records of the management
subsystem that a fault brings with it. -/

namespace Sys2Proof.Machine

/-! ## Registers that an MBX event and a strongbox record change -/

theorem Dev.regs_foldl_sendMsg (l : FMap Session) (e : Ev) (d : Dev) :
    (l.foldl (fun d p => d.sendMsg p.1 0x09 0 [e.bit.lo, d.now]) d).regs = d.regs := by
  exact foldl_keep Dev.regs _ (fun d p => Dev.sendMsg_keep Dev.regs (fun _ _ => rfl) (fun _ _ => rfl) d _ _ _ _) l d

/-- An MBX event changes the registers as the event does. -/
theorem Dev.regs_mbxEvent (d : Dev) (e : Ev) : (d.mbxEvent e).regs = (d.event e).regs := by
  unfold Dev.mbxEvent; simp only []
  split <;> simp only [Dev.emit_regs, Dev.regs_foldl_sendMsg] <;>
    exact Dev.traceRec_keep Dev.regs (fun _ _ => rfl) _ _ _

/-- A strongbox record changes no register but the drop event. -/
theorem Dev.regs_sbLog (d : Dev) (t s : Nat) (b : List Nat) (k : Nat) (h : k ∉ evKeys E.MBX_SB_DROPPED) :
    fmGet (d.sbLog t s b).regs k = fmGet d.regs k := by
  simp only [evKeys, List.mem_cons, List.not_mem_nil, or_false, not_or] at h
  unfold Dev.sbLog; split
  · rw [Dev.regs_mbxEvent]; unfold Dev.event Dev.count
    rw [Dev.regs_fset_ne _ _ _ _ _ (Ne.symm h.2), Dev.regs_fset_ne _ _ _ _ _ (Ne.symm h.1)]
  · rfl

/-! ## Issuing -/

@[simp] theorem Dev.slot_modCc (d : Dev) (t s : Nat) (f : CcCtx → CcCtx) :
    (d.modCc t s f).slot t s = { d.slot t s with cc := f (d.slot t s).cc } := by
  simp [Dev.modCc, Dev.modSlot, Dev.setSlot, Dev.slot]

theorem Dev.slot_congr {d e : Dev} (h : d.slots = e.slots) (t s : Nat) : d.slot t s = e.slot t s := by unfold Dev.slot; rw [h]

/-- The issue of the cycle is taken, whatever else changes beside the tiles. -/
theorem Dev.ccTook_turn {d x e : Dev} {t s : Nat} (h : x.tiles = d.tiles) (k : e.tiles = (x.ccTook t s).tiles := by rfl) :
    ccTurnUsed d e t s := by
  have k' : e.tiles = fmMod d.tiles t Tile.init fun y => { y with ccLast := s, ccBusy := true } := by
    rw [k]; unfold Dev.ccTook Dev.modTile; rw [h]
  constructor
  · unfold Dev.tile; rw [k']; simp [fmMod]
  · intro j hj; rw [k']; simp [fmMod, fmGet_fmSet, Ne.symm hj]

/-- What issuing an instruction changes. -/
theorem Dev.ccIssued_issues (d : Dev) (t s : Nat) (f : CcCtx → CcCtx) (x : CcCtx) (hx : (d.slot t s).cc = x) :
    ccIssues d (d.ccIssued t s f) t s (f { x with pc := x.pc + 4 }) ∧ ccQuiet d (d.ccIssued t s f) t := by
  refine ⟨⟨?_, ?_, ?_, ?_⟩, ?_, ?_⟩
  · unfold Dev.ccIssued
    rw [Dev.slot_modCc, Dev.slot_congr (show ((d.count F.TIL_CC_INSTR_COUNT 1 (tileAdd t)).ccTook t s).slots = d.slots from
      Dev.count_slots d F.TIL_CC_INSTR_COUNT 1 (tileAdd t)), hx]
  · intro k hk; unfold Dev.ccIssued Dev.ccTook Dev.modTile Dev.modCc Dev.modSlot Dev.setSlot; simp [fmGet_fmSet, Ne.symm hk]
  · show Dev.fget (d.count _ _ _) _ _ = _
    rw [Dev.fget_count_self]
  · exact Dev.ccTook_turn (Dev.count_tiles d F.TIL_CC_INSTR_COUNT 1 (tileAdd t))
  · intro k hk; show fmGet (d.count _ _ _).regs _ = _
    unfold Dev.count; rw [Dev.regs_fset_ne]; intro h; exact hk (by simp [h])
  · unfold Dev.ccIssued Dev.ccTook Dev.modTile Dev.modCc Dev.modSlot Dev.setSlot; simp

/-- A register write of the control core (R206, R212). -/
theorem CcCtx.set_wrote (x : CcCtx) (rd v pc : Nat) (p : Bool) (hv : v < 2 ^ 64) :
    ccWrote x (CcCtx.set { x with pc := pc } rd v p) rd v p pc := by
  unfold ccWrote CcCtx.set CcCtx.get
  by_cases h : rd = 0
  · simp [h]
  · refine ⟨?_, ?_, ?_⟩
    · have e : v % 18446744073709551616 = v := Nat.mod_eq_of_lt hv
      cases p <;> simp [h, e]
    · intro r hr; cases p <;> simp [h, fmGet_fmSet, fmGet_fmErase, Ne.symm hr]
    · simp [h]

theorem Dev.slot_of_ccNext {d : Dev} {t s op : Nat} {x : Slot} {c : Cfg} {w : Nat} (h : d.ccNext t s op = some (x, c, w)) :
    d.slot t s = x := by
  have r : ∀ {y : Slot × Cfg × Nat}, d.ccReady t s = some y → d.slot t s = y.1 := fun {y} k => by
    unfold Dev.ccReady at k; dsimp only at k; repeat' split at k
    all_goals first | cases k; done | (cases k; rfl)
  unfold Dev.ccNext at h; split at h
  · rename_i e; split at h
    · cases h; exact r e
    · cases h
  · cases h

/-- An instruction of the integer group with a stated result. -/
theorem Dev.ccInt_result {d : Dev} {t s op v : Nat} {x : Slot} {c : Cfg} {w : Nat} (h : d.ccNext t s op = some (x, c, w))
    (hv : ccAlu op (x.cc.get (ccRs1 w)).1 (x.cc.get (ccRs2 w)).1 = some v) : ∃ y, ccIssues d (d.ccInt t s op) t s y ∧
    ccWrote x.cc y (ccRd w) (v % 2 ^ 64) ((x.cc.get (ccRs1 w)).2 || (x.cc.get (ccRs2 w)).2) (x.cc.pc + 4)
      (if op = 0x0A then .cycles 2 else .none) ∧
    ccQuiet d (d.ccInt t s op) t := by
  unfold Dev.ccInt; simp only [h, hv, Dev.ccResult]
  have := d.ccIssued_issues t s (fun c => { c.set (ccRd w) (v % 2 ^ 64) ((x.cc.get (ccRs1 w)).2 || (x.cc.get (ccRs2 w)).2) with
    wait := if op = 0x0A then .cycles 2 else .none }) x.cc (by rw [Dev.slot_of_ccNext h])
  have k := CcCtx.set_wrote x.cc (ccRd w) (v % 2 ^ 64) (x.cc.pc + 4) ((x.cc.get (ccRs1 w)).2 || (x.cc.get (ccRs2 w)).2)
    (Nat.mod_lt _ (by decide))
  refine ⟨_, this.1, ⟨k.1, k.2.1, ?_⟩, this.2⟩
  exact congrArg (fun z : CcCtx => { z with wait := if op = 0x0A then .cycles 2 else .none }) k.2.2

/-- An instruction of the immediate group with a stated result. -/
theorem Dev.ccImmOp_result {d : Dev} {t s op alu v : Nat} {x : Slot} {c : Cfg} {w : Nat} (h : d.ccNext t s op = some (x, c, w))
    (hv : ccAlu alu (x.cc.get (ccRs1 w)).1 (ccImm w % 2 ^ 64).toNat = some v) : ∃ y, ccIssues d (d.ccImmOp t s op alu) t s y ∧
    ccWrote x.cc y (ccRd w) (v % 2 ^ 64) (x.cc.get (ccRs1 w)).2 (x.cc.pc + 4) ∧ ccQuiet d (d.ccImmOp t s op alu) t := by
  unfold Dev.ccImmOp; simp only [h, hv, Dev.ccResult]
  have := d.ccIssued_issues t s (fun c => c.set (ccRd w) (v % 2 ^ 64) (x.cc.get (ccRs1 w)).2) x.cc (by rw [Dev.slot_of_ccNext h])
  exact ⟨_, this.1, CcCtx.set_wrote _ _ _ _ _ (Nat.mod_lt _ (by decide)), this.2⟩

/-- What a fault of the control core changes, for an event outside MBX_EVENT whose bit is one bit beside its counter (R213). -/
theorem Dev.ccFault_stops (d : Dev) (t s : Nat) (v : Ev) (w : v.bit.w = 1) (h : v.cnt.key (tileAdd t) ≠ v.bit.key (tileAdd t))
    (n : v.bit.key (tileAdd t) ∉ evKeys E.MBX_SB_DROPPED) : ccStops d (d.ccFault t s v) t s v := by
  refine ⟨?_, ?_, ?_, ?_, ?_⟩
  · unfold Dev.ccFault
    rw [show ∀ x h r, (Dev.passFault x h r).slot t s = x.slot t s from fun _ _ _ => rfl, Dev.slot_congr (Dev.sbLog_slots _ _ _ _),
      Dev.slot_modCc, Dev.slot_congr (Dev.event_slots ((d.count F.TIL_CC_INSTR_COUNT 1 (tileAdd t)).ccTook t s) v (tileAdd t)), Dev.slot_congr (show
        ((d.count F.TIL_CC_INSTR_COUNT 1 (tileAdd t)).ccTook t s).slots = d.slots from Dev.count_slots d F.TIL_CC_INSTR_COUNT 1 (tileAdd t))]
  · unfold Dev.ccFault Dev.fget
    rw [show ∀ x h r, (Dev.passFault x h r).regs = x.regs from fun _ _ _ => rfl, Dev.regs_sbLog _ _ _ _ _ n]
    exact Dev.fget_event_bit _ v _ w h
  · refine Dev.ccTook_turn (Dev.count_tiles d F.TIL_CC_INSTR_COUNT 1 (tileAdd t)) ?_
    unfold Dev.ccFault
    exact (Dev.sbLog_tiles _ _ _ _).trans (Dev.event_tiles ((d.count F.TIL_CC_INSTR_COUNT 1 (tileAdd t)).ccTook t s) v (tileAdd t))
  · unfold Dev.ccFault Dev.passFault; simp [Dev.ccTook, Dev.modTile, Dev.modCc, Dev.modSlot, Dev.setSlot]
  · let g : Dev → Dev := fun d => { d with regs := [], slots := [], tiles := [], faults := [], mg := MgmtS.init, out := [] }
    have k : g (d.ccFault t s v) = g d := by
      show g ((Dev.sbLog _ _ _ _).passFault _ _) = _
      rw [show ∀ x h r, g (Dev.passFault x h r) = g x from fun _ _ _ => rfl,
        Dev.sbLog_keep g (fun _ _ => rfl) (fun _ _ => rfl) (fun _ _ => rfl),
        show ∀ x f, g (Dev.modCc x t s f) = g x from fun _ _ => rfl, Dev.event_keep g (fun _ _ => rfl),
        show ∀ x, g (Dev.ccTook x t s) = g x from fun _ => rfl, Dev.count_keep g (fun _ _ => rfl)]
    exact congrArg (fun z : Dev => { z with
      regs := (d.ccFault t s v).regs, slots := (d.ccFault t s v).slots, tiles := (d.ccFault t s v).tiles, faults := (d.ccFault t s v).faults,
      mg := (d.ccFault t s v).mg, out := (d.ccFault t s v).out }) k

end Sys2Proof.Machine
end

