-- ==== Sys2Proof/Laws/Ledger.lean ====
section
/-! SUPPORT. The laws of the ledger: what an entry reads after it is changed, started, ended; what a command that comes to its start
does. -/

namespace Sys2Proof.Machine

theorem Dev.split_congr {d e : Dev} (h : d.regs = e.regs) : d.split = e.split := by unfold Dev.split Dev.flag Dev.fget; rw [h]

@[simp] theorem Dev.led_setLed (d : Dev) (h : HalfId) (l : Ledger) : (d.setLed h l).led h = l := by
  have s : (d.setLed h l).split = d.split := Dev.split_congr (by simp)
  unfold Dev.led; rw [s]; unfold Dev.setLed
  split <;> rfl

@[simp] theorem Ledger.find_pruneMirror (l : Ledger) (q : Nat) : l.pruneMirror.find q = l.find q := rfl

/-- The entry of a sequence number after a change that keeps the number. -/
theorem Ledger.find_modify (l : Ledger) (q : Nat) (f : Entry → Entry) (hf : ∀ e, (f e).seq = e.seq) :
    (l.modify q f).find q = (l.find q).map f := by
  unfold Ledger.modify Ledger.find Ledger.entries
  simp only [Ledger.pruneMirror, fmMap]
  induction l.ring with
  | nil => rfl
  | cons p m ih =>
    simp only [List.map_cons, List.find?_cons]
    by_cases e : p.2.seq = q
    · simp [e, hf]
    · have n : (p.2.seq == q) = false := by simpa using e
      simp only [e, if_false, n]; exact ih

theorem Dev.led_congr {d e : Dev} (h : HalfId) (r : d.regs = e.regs) (a : d.led0 = e.led0) (b : d.led1 = e.led1) : d.led h = e.led h := by
  unfold Dev.led; rw [Dev.split_congr r, a, b]

theorem Dev.entry_congr {d e : Dev} (h : HalfId) (q : Nat) (r : d.regs = e.regs) (a : d.led0 = e.led0) (b : d.led1 = e.led1) :
    d.entry h q = e.entry h q := by
  unfold Dev.entry; rw [Dev.led_congr h r a b]

theorem Dev.entry_modEntry (d : Dev) (h : HalfId) (q : Nat) (f : Entry → Entry) (hf : ∀ e, (f e).seq = e.seq) :
    (d.modEntry h q f).entry h q = (d.entry h q).map f := by
  unfold Dev.entry Dev.modEntry; rw [Dev.led_setLed, Ledger.find_modify _ _ _ hf]

@[simp] theorem Dev.led_traceRec (d : Dev) (k : Nat) (v : List Nat) (h : HalfId) : (d.traceRec k v).led h = d.led h :=
  Dev.led_congr h (by simp) (by simp) (by simp)
@[simp] theorem Dev.led_emit (d : Dev) (o : Out) (h : HalfId) : (d.emit o).led h = d.led h := Dev.led_congr h rfl rfl rfl
@[simp] theorem Dev.entry_traceRec (d : Dev) (k : Nat) (v : List Nat) (h : HalfId) (q : Nat) :
    (d.traceRec k v).entry h q = d.entry h q := by unfold Dev.entry; simp
@[simp] theorem Dev.entry_emit (d : Dev) (o : Out) (h : HalfId) (q : Nat) : (d.emit o).entry h q = d.entry h q := by
  unfold Dev.entry; simp

@[simp] theorem Dev.entry_startTaken (d : Dev) (h : HalfId) (q : Nat) : d.startTaken.entry h q = d.entry h q :=
  Dev.entry_congr h q rfl rfl rfl

/-- An entry that starts is STARTED (R401). -/
theorem Dev.entry_startEntry (d : Dev) (h : HalfId) (q : Nat) :
    (d.startEntry h q).entry h q = (d.entry h q).map fun e => { e with state := 2, startDelta := d.delta e, due := false } := by
  unfold Dev.startEntry
  rw [Dev.entry_traceRec, Dev.entry_modEntry, Dev.entry_startTaken]
  simp

/-- An entry that has not ended takes the state and status it ends with (R401). -/
theorem Dev.entry_endEntry (d : Dev) (h : HalfId) (q st r : Nat) (e : Entry) (he : d.entry h q = some e) (hs : e.state < 3) :
    (d.endEntry h q st r).entry h q = some { e with state := st, status := r, endDelta := d.delta e, due := false } := by
  have n : e.ended = false := by simp [Entry.ended]; omega
  unfold Dev.endEntry
  simp only [he, n, Bool.false_eq_true, if_false]
  split <;> simp only [Dev.entry_emit, Dev.entry_traceRec] <;> rw [Dev.entry_modEntry _ _ _ _ (by simp), he] <;> rfl

/-- A command that comes to its start is STARTED and carried out. -/
theorem Dev.begin_eq {d : Dev} {h : HalfId} {q op : Nat} {e : Entry} (k : Dev → Entry → Dev) (s : startable d h q op e) :
    d.begin h q op k = k (d.startEntry h q) e := by
  obtain ⟨a, b, c, f⟩ := s
  unfold Dev.begin
  simp [a, b, c, f]

theorem startable.started {d : Dev} {h : HalfId} {q op : Nat} {e : Entry} (s : startable d h q op e) :
    (d.startEntry h q).entry h q = some { e with state := 2, startDelta := d.delta e, due := false } := by
  rw [Dev.entry_startEntry, s.1]; rfl

theorem Dev.finish_endedAs {d : Dev} {h : HalfId} {q : Nat} {e : Entry} (st : Nat) (he : d.entry h q = some e) (hs : e.state < 3) :
    endedAs (d.finish h q st) h q (if st = stOk then 3 else 4) st := by
  refine ⟨_, Dev.entry_endEntry d h q _ st e he hs, rfl, rfl⟩

end Sys2Proof.Machine
end

