-- ==== Sys2Proof/Laws/Tally.lean ====
section
/-! SUPPORT. The laws of the tally's shared operations: what each can change, and what the lock state and the count read after it. -/

namespace Sys2Proof.Machine

section keep
variable {β : Type} (g : Dev → β) (hregs : ∀ d x, g { d with regs := x } = g d)
include hregs

theorem Dev.setCycle_keep (d : Dev) (c : Nat) : g (d.setCycle c) = g d := (hregs (d.fset F.TAL_PHASE_CYCLE c) _).trans (hregs d _)
theorem Dev.refreshSched_keep (d : Dev) : g d.refreshSched = g d := hregs d _
theorem Dev.refreshMaster_keep (d : Dev) : g d.refreshMaster = g d := by
  unfold Dev.refreshMaster; simp only []; split
  · exact (hregs _ _).trans ((hregs _ _).trans (hregs d _))
  · split
    · exact (hregs _ _).trans (hregs d _)
    · exact hregs d _
theorem Dev.noParent_keep (d : Dev) : g d.noParent = g d := (hregs (d.fset F.TAL_STATUS_PARENT 0xF) _).trans (hregs d _)
theorem Dev.chooseParent_keep (d : Dev) : g d.chooseParent = g d := by
  unfold Dev.chooseParent; split
  · exact Dev.noParent_keep g hregs d
  · exact (hregs (d.fset F.TAL_STATUS_PARENT _) _).trans (hregs d _)

variable (hled0 : ∀ d x, g { d with led0 := x } = g d) (hled1 : ∀ d x, g { d with led1 := x } = g d)
  (hmg : ∀ d x, g { d with mg := x } = g d) (hout : ∀ d x, g { d with out := x } = g d)
include hled0 hled1 hmg hout

variable (htally : ∀ d x, g { d with tally := x } = g d)
include htally

theorem Dev.setLock_keep (d : Dev) (st : Nat) : g (d.setLock st) = g d := by
  have k : ∀ b : Bool, g (if b then (d.fset F.TAL_STATUS_STATE st).refreshSched
      else { (d.fset F.TAL_STATUS_STATE st).refreshSched with
        tally := { (d.fset F.TAL_STATUS_STATE st).refreshSched.tally with hold := 0 } }) = g d := fun b => by
    cases b
    · exact (htally _ _).trans ((Dev.refreshSched_keep g hregs _).trans (hregs d _))
    · exact (Dev.refreshSched_keep g hregs _).trans (hregs d _)
  unfold Dev.setLock; dsimp only; split
  · exact (Dev.failPending_keep g hled0 hled1 hmg hout _ _).trans (k _)
  · exact k _

omit hled0 hled1 hmg hout in
theorem Dev.parentFound_keep (d : Dev) : g d.parentFound = g d := by
  unfold Dev.parentFound; dsimp only; split
  · exact (htally _ _).trans (Dev.event_keep g hregs _ _ _)
  · rfl

theorem Dev.acquireEntry_keep (d : Dev) : g d.acquireEntry = g d := by
  unfold Dev.acquireEntry; split
  · exact (Dev.setLock_keep g hregs hled0 hled1 hmg hout htally _ 2).trans
      ((Dev.parentFound_keep g hregs htally _).trans (Dev.chooseParent_keep g hregs d))
  · rfl

theorem Dev.stepCount_keep (d : Dev) (c : Nat) : g (d.stepCount c) = g d := by
  unfold Dev.stepCount; dsimp only; split
  · exact (Dev.failPending_keep g hled0 hled1 hmg hout _ _).trans ((hregs _ _).trans (htally d _))
  · exact htally d _

theorem Dev.lockOn_keep (d : Dev) (c : Nat) (off : Int) : g (d.lockOn c off) = g d := by
  have h : g (((d.stepCount c).stepPhase off).setLock 3) = g d :=
    (Dev.setLock_keep g hregs hled0 hled1 hmg hout htally _ 3).trans
      ((Dev.setCycle_keep g hregs _ _).trans (Dev.stepCount_keep g hregs hled0 hled1 hmg hout htally d c))
  unfold Dev.lockOn; simp only []; split
  · exact (Dev.event_keep g hregs _ _ _).trans h
  · exact h

omit hled0 hled1 hmg hout in
theorem Dev.trackStamp_keep (d : Dev) (c : Nat) (off : Int) : g (d.trackStamp c off) = g d := by
  unfold Dev.trackStamp; dsimp only; split
  · exact (Dev.refreshSched_keep g hregs _).trans ((htally _ _).trans ((Dev.event_keep g hregs _ _ _).trans (htally d _)))
  · exact htally d _

end keep

section frames
variable {β : Type} (g : Dev → β) (hregs : ∀ d x, g { d with regs := x } = g d) (hports : ∀ d x, g { d with ports := x } = g d)
  (hout : ∀ d x, g { d with out := x } = g d) (hfree : ∀ d x, g { d with free := x } = g d)
include hports hout hfree

/-- Closing a batch changes ports, outputs and the free counter alone. -/
theorem Dev.closeBatch_keep (d : Dev) (p : Nat) : g (d.closeBatch p) = g d :=
  (hports _ _).trans ((hout _ _).trans (hfree d _))

theorem Dev.joinBatch_keep (d : Dev) (p kind : Nat) : g (d.joinBatch p kind) = g d := by
  unfold Dev.joinBatch; dsimp only; split
  · exact (Dev.closeBatch_keep g hports hout hfree _ _).trans (hports d _)
  · exact hports d _

include hregs

/-- A frame that goes out changes registers, ports, outputs and the free counter alone. -/
theorem Dev.emitFrame_keep (d : Dev) (p : Nat) (f : TxFrame) : g (d.emitFrame p f) = g d := by
  have j : ∀ e : Dev, g e = g d → ∀ b : Bool, g (if b then (e.putFrame p f).joinBatch p f.kind else e.putFrame p f) = g d := fun e h b => by
    cases b
    · exact (hout _ _).trans h
    · exact (Dev.joinBatch_keep g hports hout hfree _ _ _).trans ((hout _ _).trans h)
  unfold Dev.emitFrame; dsimp only; split
  · rfl
  · split
    · exact j _ (Dev.count_keep g hregs _ _ _ _) _
    · exact j _ rfl _

theorem Dev.sendFrame_keep (d : Dev) (p : Nat) (f : TxFrame) : g (d.sendFrame p f) = g d := by
  unfold Dev.sendFrame; dsimp only; split
  · exact hports d _
  · exact (Dev.emitFrame_keep g hregs hports hout hfree _ _ _).trans (hports d _)

theorem Dev.sendStamps_keep (d : Dev) : g d.sendStamps = g d := by
  unfold Dev.sendStamps; simp only []; split
  · exact foldl_keep g _ (fun d p => by split <;> [exact Dev.sendFrame_keep g hregs hports hout hfree _ _ _; rfl]) _ d
  · rfl

end frames

/-- Ending entries reads no register differently. -/
@[simp] theorem Dev.fget_failPending (d : Dev) (p : Entry → Bool) (f : Fld) (a : Nat) : (d.failPending p).fget f a = d.fget f a :=
  Dev.fget_congr (by simp) f a

/-- The lock state is what it was set to. -/
theorem Dev.lockState_setLock (d : Dev) (st : Nat) (h : st < 8) : (d.setLock st).lockState = st := by
  have k : ((d.fset F.TAL_STATUS_STATE st).refreshSched).lockState = st := by
    unfold Dev.refreshSched Dev.fsetB Dev.lockState
    rw [Dev.fget_fset_ne _ _ _ _ _ _ (by decide), Dev.fget_fset_self]
    exact Nat.mod_eq_of_lt h
  have k' : ∀ b : Bool, (if b then (d.fset F.TAL_STATUS_STATE st).refreshSched
      else { (d.fset F.TAL_STATUS_STATE st).refreshSched with
        tally := { (d.fset F.TAL_STATUS_STATE st).refreshSched.tally with hold := 0 } }).lockState = st := fun b => by
    cases b <;> exact k
  unfold Dev.setLock; dsimp only; split
  · show (Dev.failPending _ _).fget _ = _
    rw [Dev.fget_failPending]; exact k' _
  · exact k' _

/-- A lock state leaves every register but TAL_STATUS.STATE and SCHED_EN. -/
theorem Dev.regs_setLock_ne (d : Dev) (st k : Nat) (h : F.TAL_STATUS_STATE.key 0 ≠ k) (i : F.TAL_STATUS_SCHED_EN.key 0 ≠ k) :
    fmGet (d.setLock st).regs k = fmGet d.regs k := by
  have e : fmGet ((d.fset F.TAL_STATUS_STATE st).refreshSched).regs k = fmGet d.regs k := by
    unfold Dev.refreshSched Dev.fsetB; rw [Dev.regs_fset_ne _ _ _ _ _ i, Dev.regs_fset_ne _ _ _ _ _ h]
  have e' : ∀ b : Bool, fmGet (if b then (d.fset F.TAL_STATUS_STATE st).refreshSched
      else { (d.fset F.TAL_STATUS_STATE st).refreshSched with
        tally := { (d.fset F.TAL_STATUS_STATE st).refreshSched.tally with hold := 0 } }).regs k = fmGet d.regs k := fun b => by
    cases b <;> exact e
  unfold Dev.setLock; dsimp only; split
  · rw [Dev.failPending_regs]; exact e' _
  · exact e' _

/-- A register field away from TAL_STATUS.STATE and SCHED_EN reads as before a change of the lock state. -/
theorem Dev.fget_setLock_ne (d : Dev) (st : Nat) (f : Fld) (a : Nat) (h : F.TAL_STATUS_STATE.key 0 ≠ f.key a)
    (i : F.TAL_STATUS_SCHED_EN.key 0 ≠ f.key a) : (d.setLock st).fget f a = d.fget f a := by
  unfold Dev.fget; rw [Dev.regs_setLock_ne d st _ h i]

theorem Dev.fget_refreshSched_ne (d : Dev) (f : Fld) (a : Nat) (h : F.TAL_STATUS_SCHED_EN.key 0 ≠ f.key a) :
    d.refreshSched.fget f a = d.fget f a := Dev.fget_fset_ne _ _ _ _ _ _ h

theorem Dev.fget_noParent_ne (d : Dev) (f : Fld) (a : Nat) (h : F.TAL_STATUS_PARENT.key 0 ≠ f.key a)
    (i : F.TAL_STATUS_DEPTH.key 0 ≠ f.key a) : d.noParent.fget f a = d.fget f a := by
  unfold Dev.noParent; rw [Dev.fget_fset_ne _ _ _ _ _ _ i, Dev.fget_fset_ne _ _ _ _ _ _ h]

theorem Dev.fget_chooseParent_ne (d : Dev) (f : Fld) (a : Nat) (h : F.TAL_STATUS_PARENT.key 0 ≠ f.key a)
    (i : F.TAL_STATUS_DEPTH.key 0 ≠ f.key a) : d.chooseParent.fget f a = d.fget f a := by
  unfold Dev.chooseParent; split
  · exact Dev.fget_noParent_ne d f a h i
  · rw [Dev.fget_fset_ne _ _ _ _ _ _ i, Dev.fget_fset_ne _ _ _ _ _ _ h]

/-- The parent a device would choose depends on the stamps and the ports' states alone. -/
theorem Dev.bestParent_congr {d e : Dev} (t : e.tally.stamps = d.tally.stamps)
    (r : ∀ p, e.fget F.LNK_STATUS_LINK (portAdd p) = d.fget F.LNK_STATUS_LINK (portAdd p)) : e.bestParent = d.bestParent := by
  have l : ∀ p, e.linkUp p = d.linkUp p := fun p => by unfold Dev.linkUp; rw [r p]
  unfold Dev.bestParent; simp only [t, l]

end Sys2Proof.Machine
end

