-- ==== Sys2Proof/Tests/Slice0.lean ====
section
/-! SUPPORT. Tests: ill-formed commands, worked values of the spec, and states that meet the hypotheses of the statements. -/

namespace Sys2Proof.Tests

set_option Elab.async false

open Sys2Proof Sys2Proof.Machine

/-- A powered device with some register fields set (field, instance, value). -/
def dev (rs : List (Fld × Nat × Nat)) : Dev :=
  rs.foldl (fun d p => d.fset p.1 p.2.2 p.2.1) { Dev.reset with pw := { PowerS.init with pwrGood := true, resetN := true } }

/-- A powered state. -/
def up (rs : List (Fld × Nat × Nat)) : State := ⟨[], dev rs⟩

/-- The device after a command. -/
def after (c : Instr) (s : State) : Dev :=
  match exec c s with
  | .next t => t.dev
  | _ => s.dev

/-- A row whose bytes from `o` on are `bs`. -/
def rowAtByte (o : Nat) (bs : List Nat) : Row := rowOf ((List.replicate o 0#8) ++ bs.map (BitVec.ofNat 8))

/-- An entry with a state, an opcode and a descriptor. -/
def entryOf (seq st op : Nat) (r : Row) : Entry := { Entry.blank with seq := seq, state := st, opcode := op, desc := r }

/-- A device whose first ledger holds an entry. -/
def withEntry (d : Dev) (e : Entry) : Dev := { d with led0 := { d.led0 with ring := [(0, e)], head := e.seq, mirror := [(e.seq, e)] } }

theorem witness_front : ({ State.reset with pending := [.tick] } : State).pending = .tick :: [] := rfl
theorem witness_idle : (up []).pending = [] ∧ (up []).dev.live = true ∧ State.reset.dev.live = false := by decide +kernel
theorem witness_canonical : canonical State.reset.dev ∧ ∃ t, step State.reset = .next t := ⟨by unfold canonical; decide, _, rfl⟩
theorem witness_reset_trip : State.reset.dev.powered = false ∧ (∀ p r v t, (Instr.tick) ≠ .coldReset p r v t) ∧
    (∀ a b m k r o, (Instr.tick) ≠ .bringup a b m k r o) ∧
    ({ (up []).dev with pw := { (up []).dev.pw with tripped := true } } : Dev).pw.tripped = true :=
  ⟨by decide, by intros; simp, by intros; simp, rfl⟩

theorem witness_reference : (up [(F.TAL_STATUS_REF_PRESENT, 0, 1)]).dev.live = true ∧
    (up [(F.TAL_STATUS_REF_PRESENT, 0, 1)]).dev.flag F.TAL_STATUS_REF_PRESENT = true ∧ (up []).dev.flag F.TAL_STATUS_REF_PRESENT = false ∧
    (up [(F.TAL_STATUS_REF_PRESENT, 0, 1)]).dev.lockState = 0 ∧ (up [(F.TAL_STATUS_STATE, 0, 4)]).dev.lockState ≠ 0 ∧
    (up [(F.TAL_STATUS_MASTER, 0, 1)]).dev.isMaster = true ∧ (up []).dev.isMaster = false := by decide +kernel

theorem test_ref_lost : (after .refLost (up [(F.TAL_STATUS_REF_PRESENT, 0, 1), (F.TAL_STATUS_STATE, 0, 3)])).lockState = 0 := by decide +kernel

theorem witness_tick_stamp : (up []).dev.tally.hold = 0 ∧ ({ dev [] with tally := { TallyS.init with hold := 1 } } : Dev).tally.hold ≠ 0 ∧
    (up []).dev.linkUp 14 = false ∧ (up [(F.LNK_STATUS_LINK, portAdd 14, 4)]).dev.linkUp 14 = true ∧
    (dev [(F.TAL_STATUS_PARENT, 0, 14), (F.TAL_STATUS_STATE, 0, 2)]).isMaster = false ∧
    (dev [(F.TAL_STATUS_PARENT, 0, 14), (F.TAL_STATUS_STATE, 0, 2)]).fget F.TAL_STATUS_PARENT = 14 ∧
    (dev [(F.TAL_STATUS_PARENT, 0, 14), (F.TAL_STATUS_STATE, 0, 2)]).lockState = 2 ∧
    (up [(F.TAL_STATUS_STATE, 0, 3)]).dev.lockState = 3 ∧ 128 < (129#32).toInt ∧ (4294967167#32).toInt < -128 := by decide +kernel

theorem test_tick_count : (after .tick (up [(F.TAL_COUNT_COUNT, 0, 2 ^ 64 - 1)])).now = 2 ^ 64 - 1 ∧ (after .tick (up [])).now = 1 := by decide +kernel

theorem witness_parent_loss : (∀ k ∈ [2, 3, 4], (up [(F.TAL_STATUS_STATE, 0, k)]).dev.lockState = k ∧ (up [(F.TAL_STATUS_STATE, 0, k)]).dev.isMaster = false) ∧
    (up []).dev.lockState = 0 ∧ (up [(F.TAL_STATUS_MASTER, 0, 1)]).dev.isMaster = true := by decide +kernel

theorem witness_discarded : (up []).dev.regClocked 0 = true ∧ (32 : Nat) ≠ 64 ∧ (4#32).toNat % 8 ≠ 0 ∧ (0x1F8#32).toNat % 8 = 0 ∧
    regAt (0x1F8#32).toNat = none ∧ (up []).dev.mayWrite (.tenant .whole) (0x18#32).toNat = false ∧ (0x18#32).toNat % 8 = 0 := by decide +kernel


theorem witness_access : (up []).dev.regClocked 0x8000028 = true ∧ (up []).dev.mayWrite .operator (0x8000028#32).toNat = true ∧
    (regAt (0x8000028#32).toNat).isSome = true ∧ rowFields.contains F.FED_BAR2_BASE = false ∧ F.FED_BAR2_BASE ≠ F.MBX_TRACE_CTRL_ENABLE ∧
    F.FED_BAR2_BASE.acc = .rw ∧ F.FED_EVENT_LINK_DOWN.acc = .w1c ∧ F.FED_EVENT_LINK_DOWN.w = 1 ∧ E.FED_LINK_DOWN ∈ allEvents ∧
    F.DEV_STATE_STATE_W.acc = .ro := by decide +kernel

theorem test_write_w1c : (after (.registerWrite .operator 0x8000010 64 1 0) (up [(F.FED_EVENT_LINK_DOWN, 0, 1)])).fget F.FED_EVENT_LINK_DOWN = 0 ∧
    (after (.registerWrite .operator 0x8000010 64 1 1) (up [(F.FED_EVENT_LINK_DOWN, 0, 1)])).fget F.FED_EVENT_LINK_DOWN = 1 := by decide +kernel
/-- A device whose management processor runs, with an operator's session. -/
def opDev (rs : List (Fld × Nat × Nat)) : Dev :=
  { dev ((F.MBX_STATUS_RUNNING, 0, 1) :: rs) with mg := { MgmtS.init with sessions := [(0, ⟨.operator, 1, 1, 0⟩)] } }

/-- The header of a session's next message. -/
def hdr : MsgHdr := ⟨true, 1, 7, 100, false⟩

theorem witness_submission : (opDev []).submitter 0 0 = some ⟨0, .whole, 0, false⟩ ∧
    (opDev []).acceptCheck ⟨0, .whole, 0, false⟩ (rowAtByte 0 [1, 0, 1]) = none ∧
    ((opDev []).led false).dup (descArg (rowAtByte 0 [1, 0, 1]) 8 8) 0 0 = none ∧
    (opDev []).acceptCheck2 ⟨0, .whole, 0, false⟩ false (rowAtByte 0 [1, 0, 1]) = none ∧
    (opDev []).acceptCheck ⟨0, .whole, 0, false⟩ (rowAtByte 0 [0, 0, 1]) = some stBadOpcode ∧ (opDev []).mg.subs = [] ∧
    (opDev []).mg.subWait = 0 ∧ (opDev []).uhlea = true ∧ fmGet (opDev []).mg.sessions 0 = some ⟨.operator, 1, 1, 0⟩ ∧ hdr.seq.toNat = 1 ∧
    (∃ u, (opDev []).submitter 3 0 = some u) := by
  refine ⟨?_, ?_, ?_, ?_, ?_, ?_, ?_, ?_, ?_, ?_, _, rfl⟩ <;> decide +kernel

theorem witness_submission_full : 64 ≤ (((List.replicate 64 ⟨⟨3, .whole, 0, false⟩, 0, 0, 0⟩ : List Submission)).filter fun q => q.who.src == 3).length := by
  decide +kernel

theorem test_submit_wrong_version : (after (.commandSubmit 0 0 hdr (rowAtByte 0 [1, 0, 2])) ⟨[], opDev []⟩).out = [.mgmt 0 2 1 7 [stBadFormat, 0, 0, 0]] := by
  decide +kernel

/-- A device whose ledger holds entry 5, ACCEPTED. -/
def acc (op : Nat) (args : List Nat) (rs : List (Fld × Nat × Nat)) : Dev := withEntry (dev rs) (entryOf 5 1 op (rowAtByte 24 args))

theorem witness_wrong_state : (acc 0x03 [] []).entry false 5 = some (entryOf 5 1 0x03 (rowAtByte 24 [])) ∧
    ((acc 0x03 [] []).led false).mayStart (entryOf 5 1 0x03 (rowAtByte 24 [])) = true ∧
    (acc 0x03 [] []).stateCheck false (entryOf 5 1 0x03 (rowAtByte 24 [])) = some stWrongState := by decide +kernel

theorem test_wrong_state_stage : ((after (.stage false 5) ⟨[], acc 0x03 [] []⟩).entry false 5).map (·.status) = some stWrongState := by decide +kernel

/-- Entry 5 is a CANCEL of entry 4. -/
def cancels (st : Nat) : Dev :=
  { dev [] with led0 := { Ledger.init with ring := [(0, entryOf 4 st 0x01 0), (1, entryOf 5 1 0x0A (rowAtByte 24 [4]))], head := 5, mirror := [] } }

theorem witness_nop_cancel : startable (acc 0x01 [] []) false 5 0x01 (entryOf 5 1 0x01 (rowAtByte 24 [])) ∧
    (∀ st ∈ [1, 3], (cancels st).entry false 5 = some (entryOf 5 1 0x0A (rowAtByte 24 [4])) ∧
      (entryOf 5 1 0x0A (rowAtByte 24 [4])).arg 24 8 = 4 ∧ (cancels st).entry false 4 = some (entryOf 4 st 0x01 0)) := by
  unfold startable; decide +kernel

/-- Entry 5 waits for tick 7, which has come. -/
def atSeven (st : Nat) : Dev :=
  withEntry (dev [(F.TAL_COUNT_COUNT, 0, 7), (F.TAL_STATUS_STATE, 0, st)]) { entryOf 5 1 0x01 0 with execAt := 7 }

theorem witness_exec_at : (∀ st ∈ [2, 3, 4], (atSeven st).entry false 5 = some { entryOf 5 1 0x01 0 with execAt := 7 } ∧
    (atSeven st).now = 7 ∧ (atSeven st).lockState = st) := by decide +kernel

theorem test_exec_at_acquire : ((after (.execAtStart false 5) ⟨[], atSeven 2⟩).entry false 5).map (·.status) = some stTimeout := by decide +kernel

theorem witness_snapshot : (∃ x, ((acc 0x01 [] []).led false).snapshot 5 = some x) ∧ ((acc 0x01 [] []).led false).snapshot 6 = none :=
  ⟨⟨_, rfl⟩, by decide +kernel⟩

/-- A token with a kind, a sequence number and a payload. -/
def tok (kind seq : Nat) (v : Row := 0) : Token := ⟨.ofNat 3 kind, false, .ofNat 12 seq, v⟩

/-- A device whose queue 0 of tile 0 has room for `n` tokens and holds some. -/
def queued (n : Nat) (ks : List Token) : Dev := { dev [] with queues := [(qKey 0 0, { Queue.init with depth := n, tokens := ks, freed := 1 })] }

theorem witness_arrival : ((queued 1 []).queue 0 0).tokens.length < ((queued 1 []).queue 0 0).depth ∧ (tok 4 0).kind.toNat < 5 ∧
    (tok 4 0).seq.toNat = ((queued 1 []).queue 0 0).seq ∧ (tok 4 0).epoch = ((queued 1 []).queue 0 0).epoch ∧ 5 ≤ (tok 5 0).kind.toNat ∧
    (tok 0 1).seq.toNat ≠ ((queued 1 []).queue 0 0).seq ∧
    ((queued 1 [tok 0 0]).queue 0 0).depth ≤ ((queued 1 [tok 0 0]).queue 0 0).tokens.length ∧ 0 < ((queued 1 []).queue 0 0).freed ∧
    ((queued 1 []).queue 0 1).freed = 0 ∧
    (({ queued 1 [] with queues := [(qKey 0 0, { Queue.init with flight := [tok 0 0] })] } : Dev).queue 0 0).moving = tok 0 0 :: [] := by decide +kernel

theorem test_gap_is_poison : ((after (.tokenArrival 0 0 (some (tok 0 7))) ⟨[], queued 2 []⟩).queue 0 0).tokens = [tok 4 7] := by decide +kernel
theorem test_overflow : (after (.tokenArrival 0 0 (some (tok 0 0))) ⟨[], queued 1 [tok 0 0]⟩).fget F.TIL_DF_EVENT_Q_OVERFLOW = 1 := by decide +kernel

/-- A configuration of a class with inputs on queues 0, 1, … and outputs on queues 8, 9, … of tile 0. -/
def cfg (cls param nin nout : Nat) (extra : List Byte := []) (body : List Byte := []) : Cfg :=
  ⟨0, cls, 1, param, (List.range nin).map some, (List.range nout).map fun o => some (0, 8 + o), body, extra⟩

/-- A running device whose tile 0 has a unit in slot 0, head tokens at its inputs and four credits at each output. -/
def unitDev (c : Cfg) (ks : List Token) (x : Slot → Slot := id) : Dev :=
  { dev [(F.DEV_STATE_STATE_W, 0, 4)] with
    slots := [(slotKey 0 0, x { Slot.init with active := some c })]
    queues := (ks.zipIdx.map fun p => (qKey 0 p.2, { Queue.init with depth := 4, tokens := [p.1] })) ++
      (List.range 4).map fun o => (qKey 0 (8 + o), { Queue.init with depth := 4, credits := 4 }) }

/-- A control word that selects `k`, with KEEP. -/
def ctl (k keep : Nat) : Token := tok 1 0 (.ofNat 512 (k + 4 * keep))

theorem witness_steering :
    ((unitDev (cfg 5 0 2 4) [tok 0 0, ctl 3 0]).canFire 0 0 [5] = some ((unitDev (cfg 5 0 2 4) [tok 0 0, ctl 3 0]).slot 0 0, cfg 5 0 2 4) ∧
      (unitDev (cfg 5 0 2 4) [tok 0 0, ctl 3 0]).ready 0 ((unitDev (cfg 5 0 2 4) [tok 0 0, ctl 3 0]).slot 0 0) (cfg 5 0 2 4) 1 = some (ctl 3 0) ∧
      (unitDev (cfg 5 0 2 4) [tok 0 0, ctl 3 0]).ready 0 ((unitDev (cfg 5 0 2 4) [tok 0 0, ctl 3 0]).slot 0 0) (cfg 5 0 2 4) 0 = some (tok 0 0) ∧
      (steer 5 4 (ctl 3 0) 0).n ≠ 0 ∧ (steer 5 4 (ctl 3 0) 0).sel = 3 ∧ (unitDev (cfg 5 0 2 4) []).credit (cfg 5 0 2 4) 3 = true) ∧
    ((unitDev (cfg 6 0 3 1) [tok 0 0, tok 0 0, ctl 1 0]).canFire 0 0 [6] =
        some ((unitDev (cfg 6 0 3 1) [tok 0 0, tok 0 0, ctl 1 0]).slot 0 0, cfg 6 0 3 1) ∧ (steer 6 2 (ctl 1 0) 0).sel = 1 ∧
      (cfg 6 0 3 1).inq 1 ≠ (cfg 6 0 3 1).inq 2) ∧
    ((unitDev (cfg 10 0 2 1) [tok 0 0, ctl 0 1]).canFire 0 0 [10] = some ((unitDev (cfg 10 0 2 1) [tok 0 0, ctl 0 1]).slot 0 0, cfg 10 0 2 1) ∧
      (steer 10 1 (ctl 0 1) 0).keep = true ∧ (steer 10 1 (ctl 0 0) 0).keep = false ∧ (steer 10 1 (ctl 0 0) 0).n ≠ 0) := by decide +kernel

theorem test_switch_pairs_output : ((after (.switchFire 0 0) ⟨[], unitDev (cfg 5 0 2 4) [tok 0 0 9, ctl 3 0]⟩).queue 0 11).flight = [tok 0 0 9] ∧
    ((after (.switchFire 0 0) ⟨[], unitDev (cfg 5 0 2 4) [tok 0 0 9, ctl 3 0]⟩).queue 0 10).flight = [] := by decide +kernel

theorem witness_repeat_rotate :
    ((unitDev (cfg 7 0 2 1) [tok 0 0, tok 0 0]).canFire 0 0 [7] = some ((unitDev (cfg 7 0 2 1) [tok 0 0, tok 0 0]).slot 0 0, cfg 7 0 2 1) ∧
      ((unitDev (cfg 7 0 2 1) [tok 0 0, tok 0 0] fun x => { x with turn := 1 }).slot 0 0).turnIn 2 2 = some 1) ∧
    ((unitDev (cfg 8 0 2 1) [tok 0 0, tok 1 0 (.ofNat 512 (128 + 2 ^ 33))]).canFire 0 0 [8] =
        some ((unitDev (cfg 8 0 2 1) [tok 0 0, tok 1 0 (.ofNat 512 (128 + 2 ^ 33))]).slot 0 0, cfg 8 0 2 1) ∧
      (steer 8 1 (tok 1 0 (.ofNat 512 (128 + 2 ^ 33))) 0).n = 2) ∧
    (∀ p ∈ [0, 3], (unitDev (cfg 9 p 1 1) [tok 0 0]).canFire 0 0 [9] = some ((unitDev (cfg 9 p 1 1) [tok 0 0]).slot 0 0, cfg 9 p 1 1)) ∧
    ((unitDev (cfg 11 1 1 1) [tok 0 0]).canFire 0 0 [11] = some ((unitDev (cfg 11 1 1 1) [tok 0 0]).slot 0 0, cfg 11 1 1 1) ∧
      bit (cfg 11 1 1 1).param 0 = true ∧ bit (cfg 11 1 1 1).param 4 = false) ∧
    ((unitDev (cfg 12 0 1 4) [tok 0 0]).canFire 0 0 [12] = some ((unitDev (cfg 12 0 1 4) [tok 0 0]).slot 0 0, cfg 12 0 1 4) ∧
      (∀ o < 4, (unitDev (cfg 12 0 1 4) [tok 0 0]).credit (cfg 12 0 1 4) o = true) ∧ (cfg 12 0 1 4).outs.Nodup) := by decide +kernel

theorem witness_stall : (dev [(F.TIL_DF_CTRL_STALL_LIMIT, 0, 1)]).fget F.TIL_DF_CTRL_STALL_LIMIT ≠ 0 ∧
    ((unitDev (cfg 12 0 1 4) [] fun x => { x with idle := 1920 }).slot 0 0).active.isSome = true ∧
    ((unitDev (cfg 12 0 1 4) [] fun x => { x with idle := 1920 }).slot 0 0).stalled = false ∧
    1 * (dev []).cyclesPerTick ≤ ((unitDev (cfg 12 0 1 4) [] fun x => { x with idle := 1920 }).slot 0 0).idle ∧
    ((unitDev (cfg 12 0 1 4) [] fun x => { x with stalled := true }).slot 0 0).stalled = true ∧ (dev []).mayWrite .operator 0x1004018 = true := by
  decide +kernel

/-! ## The loader, reconfiguration, streams, tills -/

/-- The bytes of a number. -/
def le (v n : Nat) : List Byte := (List.range n).map fun k => BitVec.ofNat 8 (v / 256 ^ k)

/-- A directory entry (Table 6-2): type, configuration, items, offset, bytes. -/
def dirEntry (ty cfg n off len : Nat) : List Byte := le ty 2 ++ le cfg 1 ++ le 0 1 ++ le n 4 ++ le off 8 ++ le len 8 ++ le 0 8

/-- A STEP item: its first bytes, the rest zero. -/
def stepItem (bs : List Nat) : List Byte := bs.map (BitVec.ofNat 8) ++ List.replicate (64 - bs.length) 0#8

/-- The sections of the smallest image: no unit, one axis of one package, one layer of no bytes (Tables 6-2, 6-10, 11-7, 11-8). -/
def smallBody (layers : Nat := 1) : List Byte :=
  dirEntry 1 0 0 448 0 ++ dirEntry 2 0 0 448 0 ++ dirEntry 3 255 0 448 0 ++ dirEntry 9 255 0 448 0 ++ dirEntry 10 255 1 448 128 ++
    dirEntry 13 255 8 576 512 ++
    le 1 2 ++ le 1 2 ++ le 1 2 ++ le 1 2 ++ le 0x04040404 4 ++ List.replicate 116 0#8 ++
    stepItem [0, 1, 1, 0, layers, 0, 0, 0, 2, 0, 0, 0, 1, 0, 0, 0, 1, 1] ++ stepItem [1, 0] ++
    (List.range 6).flatMap fun k => stepItem [4, k, 0]

/-- The header of Table 6-1 over a body. -/
def imageOf (body : List Byte) (version : Nat := 9) : List Byte :=
  le 0x4C4E4B53 4 ++ le 256 2 ++ le 1 1 ++ le 0 1 ++ le version 2 ++ le 0 1 ++ le 1 1 ++ le 6 2 ++ le 1 1 ++ le 0 1 ++ le (256 + body.length) 8 ++
    le 8 4 ++ le 0 2 ++ le 0 1 ++ le 0 1 ++ le 0 4 ++ le 0 12 ++ sha384 body ++ le 0 160 ++ body

/-- An IDLE device with a fabric ID, whose ledger holds a command at its start. -/
def idleDev (op : Nat) (r : Row) : Dev :=
  withEntry (dev [(F.DEV_STATE_STATE_W, 0, 2), (F.DEV_STATE_STATE_E, 0, 2), (F.DEV_FABRIC_VALID, 0, 1)]) (entryOf 0 1 op r)

/-- A LOAD descriptor: SRC_KIND 2, MAX_LEN. -/
def loadRow : Row := rowAtByte 24 [2] ||| rowAtByte 40 [0, 16]

def loadTest (img : List Byte) : Dev := after (.load false 0 img 0 []) ⟨[], idleDev 2 loadRow⟩


/-- The small image passes every check from the entry's start (R145, R146). -/
theorem witness_load : (idleDev 2 loadRow).entry false 0 = some (entryOf 0 1 2 loadRow) ∧
    ((idleDev 2 loadRow).led false).mayStart (entryOf 0 1 2 loadRow) = true ∧ (idleDev 2 loadRow).stateCheck false (entryOf 0 1 2 loadRow) = none ∧
    (idleDev 2 loadRow).step0.run = none ∧ (idleDev 2 loadRow).step1.run = none ∧ (idleDev 2 loadRow).live = true ∧
    ((idleDev 2 loadRow).startEntry false 0).loadStateFirst false (entryOf 0 1 2 loadRow) = none ∧
    (((idleDev 2 loadRow).startEntry false 0).loadFrom false .whole ⟨2, 0, imageOf smallBody, 0⟩ 4096 none []).2 = none := by
  decide +kernel

/-- Two layers declared and one recorded: COUNT_RANGE in phase 3 on the STEP section as a whole (R146, R295). -/
theorem test_load_report : ((loadTest (imageOf (smallBody 2))).entry false 0).map (fun e => (e.state, e.status, e.result)) =
    some (4, stCountRange, stCountRange + 3 * 2 ^ 8 + 5 * 2 ^ 16 + 0xFFFFFFFF * 2 ^ 32 + 576 * 2 ^ 64) := by decide +kernel

/-- Another format version: 0x42 or 0x43 in phase 0 at byte 8 (Table 6-11). -/
theorem test_load_version : ((loadTest (imageOf smallBody 8)).entry false 0).map (fun e => (e.status, e.result)) =
    some (0x43, 0x43 + 0xFFFF * 2 ^ 16 + 0xFFFFFFFF * 2 ^ 32 + 8 * 2 ^ 64) := by decide +kernel

/-- `n` bytes that hold byte strings at offsets, zero elsewhere. -/
def blob (n : Nat) (ps : List (Nat × List Byte)) : List Byte :=
  (List.range n).map fun i => ((ps.findSome? fun p => if p.1 ≤ i then p.2[i - p.1]? else none)).getD 0#8

/-- A device in a state, its image two configurations with the first current. -/
def staged (arg : Nat) : Dev :=
  withEntry { dev [(F.DEV_STATE_STATE_W, 0, 3), (F.DEV_STATE_STATE_E, 0, 3)] with
    img0 := some { bytes := blob 256 [(0x0E, [2])], bufB := false, cur := 0, epoch := false, prev := 0, tag := 0 } }
    (entryOf 0 1 3 (rowAtByte 24 [arg]))

theorem witness_stage : ∀ p ∈ [(0, false, true), (1, false, false), (2, true, false)],
    (staged p.1).entry false 0 = some (entryOf 0 1 3 (rowAtByte 24 [p.1])) ∧
    ((staged p.1).led false).mayStart (entryOf 0 1 3 (rowAtByte 24 [p.1])) = true ∧
    (staged p.1).stateCheck false (entryOf 0 1 3 (rowAtByte 24 [p.1])) = none ∧ (staged p.1).live = true ∧
    ((staged p.1).image false).map (fun i => (decide (configCount i.bytes ≤ (entryOf 0 1 3 (rowAtByte 24 [p.1])).arg 24 1),
      (entryOf 0 1 3 (rowAtByte 24 [p.1])).arg 24 1 == i.cur)) = some (p.2.1, p.2.2) := by decide +kernel

/-- A configuration message for slot 0 of tile 0 (Table 10-4): configuration 1, an epoch, part 0 of `n`. -/
def cfgMsg (epoch : Bool) (n : Nat) : CfgMsg := ⟨[0, 0, 0, 0, if epoch then 17 else 1, 0, .ofNat 8 n, 0], List.replicate 32 0⟩

/-- A device with a configuration message for slot 0 of tile 0, whose slot holds a fork. -/
def awaiting (epoch : Bool) (count : Nat) (x : Slot → Slot) : Dev :=
  { unitDev (cfg 12 0 1 4) [] x with net := { NetS.init with cfg := [cfgMsg epoch count] } }

theorem witness_config_message : (∀ n ∈ [1, 2], ((awaiting true n id).net.cfg.find? fun m => m.tile == (0#9).toNat) =
      some (cfgMsg true n) ∧ (cfgMsg true n).slot = 0 ∧ (cfgMsg true n).index = 0 ∧ (cfgMsg true n).count = n ∧ ((awaiting true n id).slot 0 0).active = some (cfg 12 0 1 4) ∧ (cfg 12 0 1 4).live ≠ [] ∧
      ((awaiting true n id).slot 0 0).shadow = none ∧ (cfgMsg true n).epoch ≠ ((awaiting true n id).slot 0 0).epoch) ∧
    ((awaiting true 1 fun x => { x with shadow := some (cfg 12 0 1 4) }).slot 0 0).shadow.isSome = true := by decide +kernel

theorem witness_mark : (tok 2 0).kind.toNat = kMark ∧ (tok 2 0).seq.toNat = ((queued 1 []).queue 0 0).seq ∧
    (tok 2 0).epoch = ((queued 1 []).queue 0 0).epoch ∧ ((queued 1 []).queue 0 0).tokens.length < ((queued 1 []).queue 0 0).depth ∧
    (unitDev (cfg 12 0 1 4) [tok 2 0 1]).head 0 (cfg 12 0 1 4) 0 = some (tok 2 0 1) ∧
    ((unitDev (cfg 12 0 1 4) [tok 2 0 1]).slot 0 0).closed.contains 0 = false := by decide +kernel

/-- A fork whose input is closed by a MARK that names configuration `m`, with configuration 1 in its shadow. -/
def closing (m : Nat) : Dev :=
  unitDev (cfg 12 0 1 4) [] fun x => { x with shadow := some { cfg 12 0 1 4 with num := 1 }, closed := [0], marks := [m] }

theorem witness_unit_swap : (∀ m ∈ [0, 1], ((closing m).slot 0 0).active = some (cfg 12 0 1 4) ∧ (∀ i ∈ (cfg 12 0 1 4).live, ((closing m).slot 0 0).closed.contains i = true) ∧
      ((closing m).slot 0 0).fired = false ∧ (closing m).drained 0 0 ((closing m).slot 0 0) (cfg 12 0 1 4) = true ∧ ∀ o < 4, (closing m).credit (cfg 12 0 1 4) o = true) ∧
    ((closing 1).slot 0 0).marks.all (· == 1) = true ∧ ((closing 0).slot 0 0).marks.any (· != 1) = true ∧
    (cfg 12 0 1 4).outs.Nodup := by decide +kernel

theorem test_swap_sends_mark : ((after (.unitSwap 0 0) ⟨[], closing 1⟩).queue 0 8).flight = [tok 2 0 1] ∧
    ((after (.unitSwap 0 0) ⟨[], closing 1⟩).slot 0 0).epoch = true := by decide +kernel

/-- A stream of one level of two rows from stack address 4,096: a reader (engine 0) or a writer (engine 4). -/
def stream (cls nin : Nat) : Cfg :=
  cfg cls 0 nin 1 (blob 128 [(3, [if cls = 2 then 0 else 4]), (4, [1]), (5, [1]), (8, le 4096 8), (16, le 2 4), (20, le 64 4),
    (64, [0, 255, 255, 255, 255, 255, 255, 255, 255])])

def walk0 (ahead : List WalkTok) (i : Option (List Nat)) : Walk :=
  { adj := 0, fault := false, void := false, idx := i, ext := (0xFFFFFFFF, 0xFFFFFFFF), ahead := ahead, rows := 0 }

/-- A device whose tile 0 runs a stream in slot 0, with a walk or without one. -/
def walking (c : Cfg) (ks : List Token) (w : Option Walk) : Dev := unitDev c ks fun x => { x with walk := w }

theorem witness_walk_start : (∀ k ∈ [0, 4], (walking (stream 2 1) [tok k 0] none).canFire 0 0 [2, 3] =
      some ((walking (stream 2 1) [tok k 0] none).slot 0 0, stream 2 1) ∧
      ((walking (stream 2 1) [tok k 0] none).slot 0 0).walk = none ∧ (stream 2 1).hasStart = true ∧ (stream 2 1).hasGate = false ∧
      (walking (stream 2 1) [tok k 0] none).ready 0 ((walking (stream 2 1) [tok k 0] none).slot 0 0) (stream 2 1) 0 = some (tok k 0)) ∧
    (stream 2 0).hasStart = false ∧ ((walking (stream 2 0) [] none).slot 0 0).walked = false ∧ (tok 4 0).kind.toNat = kPoison := by decide +kernel

theorem witness_rows : (walking (stream 2 0) [] (some (walk0 [] (some [1])))).isFar (stream 2 0) = false ∧
    (walking (stream 2 0) [] (some (walk0 [] (some [1])))).rowCredit (stream 2 0) (walk0 [] (some [1])) = true ∧
    (walk0 [] (some [1])).rowsAhead < (stream 2 0).sd 5 1 * 64 ∧
    (walkStep (dev []) 0 (stream 2 0) ((stream 2 0).iters + 1) (walk0 [] (some [1]))).1.1 = some (4160, false) ∧
    flightAddr 0 [.row 4160 false none] = some 4160 ∧ (dev []).anyPoison 4160 64 = false ∧
    ({ dev [] with poison := [(527, ())] } : Dev).isPoison (4160 + 8 * 7) = true := by decide +kernel

theorem witness_reader_writer :
    ((walking (stream 2 0) [] (some (walk0 [.row 4096 false (some (7, false))] none))).canFire 0 0 [2] =
      some ((walking (stream 2 0) [] (some (walk0 [.row 4096 false (some (7, false))] none))).slot 0 0, stream 2 0) ∧
      (stream 2 0).fieldFeed = false ∧ (stream 2 0).portOf 0 = some 0 ∧
      (walking (stream 2 0) [] (some (walk0 [] none))).credit (stream 2 0) 0 = true) ∧
    (∀ k ∈ [0, 4], (walking (stream 3 1) [tok k 0] (some (walk0 [] (some [1])))).canFire 0 0 [3] =
        some ((walking (stream 3 1) [tok k 0] (some (walk0 [] (some [1])))).slot 0 0, stream 3 1) ∧
      (walking (stream 3 1) [tok k 0] (some (walk0 [] (some [1])))).ready 0
        ((walking (stream 3 1) [tok k 0] (some (walk0 [] (some [1])))).slot 0 0) (stream 3 1) 0 = some (tok k 0)) ∧
    (walkStep (dev []) 0 (stream 3 1) ((stream 3 1).iters + 1) (walk0 [] (some [1]))).1.1 = some (4160, false) ∧
    (walking (stream 3 1) [] none).sendItem 0 0 = none ∧ (walking (stream 3 1) [] none).isFar (stream 3 1) = false := by decide +kernel

theorem witness_walk_end : ∀ c ∈ [stream 2 0, stream 3 1], ((walking c [] (some (walk0 [] none))).slot 0 0).active = some c ∧
    ((walking c [] (some (walk0 [] none))).slot 0 0).shadow = none ∧
    (walkStep (walking c [] (some (walk0 [] none))) 0 c (c.iters + 1) (walk0 [] none)).1.1 = none ∧
    (walkStep (walking c [] (some (walk0 [] none))) 0 c (c.iters + 1) (walk0 [] none)).2.ahead = [] ∧
    (walking c [] (some (walk0 [] none))).credit c 0 = true ∧ ((walking c [] (some (walk0 [] none))).canFire 0 0 [c.cls]).isSome = true ∧ (walking c [] (some (walk0 [] none))).unanswered 0 0 = false ∧
    (walking c [] (some (walk0 [] none))).sendItem 0 0 = none ∧ (walking c [] (some (walk0 [] none))).fab.failed.contains (slotKey 0 0) = false := by
  decide +kernel

/-- A writer stores its token's bytes at its row (R3, R159). -/
theorem test_writer_stores : memBytes (after (.streamWriterFire 0 0) ⟨[], walking (stream 3 1) [tok 0 0 0x0201] (some (walk0 [] (some [1])))⟩).mem 4159 4 =
    [0, 1, 2, 0] := by decide +kernel

/-- A till request of tile 0 on word 0 of its own slice. -/
def tillReq (addend limit : Nat) : TillReq := ⟨0, 0, sliceBase 0, addend, limit, none, 0⟩

/-- A device whose tile 0 serves that request, the word holding some bytes. -/
def tillDev (q : TillReq) (bs : List Byte) : Dev :=
  { dev [] with mem := memPutBytes [] (sliceBase 0) bs, net := { NetS.init with till := [q] } }

theorem witness_till : tillPick ((tillDev (tillReq 1 8) []).tile 0).arb ((tillDev (tillReq 1 8) []).tillQueue 0) = some (tillReq 1 8) ∧
    ((tillDev (tillReq 1 8) []).tile 0).tillBusy = false ∧
    (tillReq 1 8).addr % 8 = 0 ∧ (tillDev (tillReq 1 8) []).isPoison (sliceBase 0) = false ∧
    ({ tillDev (tillReq 1 8) [] with poison := [(sliceBase 0 / 8, ())] } : Dev).isPoison (sliceBase 0) = true ∧
    leNat (memBytes (tillDev (tillReq 1 8) [7]).mem (sliceBase 0) 8) < 8 ∧ 8 ≤ leNat (memBytes (tillDev (tillReq 1 8) [8]).mem (sliceBase 0) 8) ∧
    2 ^ 64 ≤ leNat (memBytes (tillDev (tillReq 1 8) (List.replicate 7 255#8 ++ [127])).mem (sliceBase 0) 8) + 2 ^ 63 + 1 := by decide +kernel

/-- R175: one below the limit adds, the limit exhausts, a sum of 2^64 saturates. -/
theorem test_till : tillOp 7 1 8 = (7, false, false, 8) ∧ tillOp 8 1 8 = (8, true, false, 8) ∧
    tillOp (2 ^ 63) (2 ^ 63) (2 ^ 64 - 1) = (2 ^ 63, false, true, 2 ^ 64 - 1) := by decide +kernel

/-! ## Vector engine and control core -/

/-- The configuration of a vector operator with one instruction word. -/
def vcfg (w span : Nat) : Cfg := cfg 1 0 1 1 [] (blob 72 [(0, [1]), (1, [BitVec.ofNat 8 span]), (8, le w 4)])

/-- An instruction word of Table 8-2: opcode, type, A, B, C, PART. -/
def vword (op ty a b c part : Nat) : Nat := op + ty * 64 + a * 512 + b * 16384 + c * 524288 + part * 16777216

/-- A firing of slot 0's operator at its first instruction. -/
def fire0 (ins : List Row) : VFire :=
  { slot := 0, num := 0, pc := 0, ins := ins, bslots := [], bpoison := 0, trans := [], outs := [0], poison := false, void := false, elem := 0, span := 0 }

/-- A device whose lane group 0 of tile 0 has that firing. -/
def vxDev (w span : Nat) (ins : List Row) : Dev :=
  { unitDev (vcfg w span) [] with tiles := [(0, { Tile.init with groups := [(0, fire0 ins)] })] }

theorem witness_vector_fire :
    (unitDev (vcfg (vword 1 0 0 0 0 0) 0) [tok 0 0]).canFire 0 0 [1] =
      some ((unitDev (vcfg (vword 1 0 0 0 0 0) 0) [tok 0 0]).slot 0 0, vcfg (vword 1 0 0 0 0 0) 0) ∧
    ((unitDev (vcfg (vword 1 0 0 0 0 0) 0) [tok 0 0]).tile 0).freeGroup = some 0 ∧
    (unitDev (vcfg (vword 1 0 0 0 0 0) 0) [tok 0 0]).vxTurn 0 0 = true ∧ 0 < (vcfg (vword 1 0 0 0 0 0) 0).vlen ∧
    (∀ i ∈ (vcfg (vword 1 0 0 0 0 0) 0).live, ((unitDev (vcfg (vword 1 0 0 0 0 0) 0) [tok 0 0]).ready 0
      ((unitDev (vcfg (vword 1 0 0 0 0 0) 0) [tok 0 0]).slot 0 0) (vcfg (vword 1 0 0 0 0 0) 0) i).isSome = true) ∧
    (unitDev (vcfg (vword 1 0 0 0 0 0) 0) [tok 0 0]).credit (vcfg (vword 1 0 0 0 0 0) 0) 0 = true ∧
    (∀ i ∈ (vcfg (vword 1 0 0 0 0 0) 0).live, ∀ j ∈ (vcfg (vword 1 0 0 0 0 0) 0).live, i ≠ j →
      (vcfg (vword 1 0 0 0 0 0) 0).inq i ≠ (vcfg (vword 1 0 0 0 0 0) 0).inq j) := by decide +kernel

theorem witness_vector_output :
    fmGet ((unitDev (vcfg 1 0) [] fun x => { x with vx := { x.vx with done := [(0, (kData, [7]))] } }).slot 0 0).vx.done 0 = some (kData, [7]) ∧
    ([7] : List Row).length = (vcfg 1 0).outs.length ∧ (vcfg 1 0).outs.Nodup := by decide +kernel

theorem witness_vector_operations : (∀ op ∈ List.range 0x1C, op = 0 ∨ ((vxDev (vword op 3 0 0 0 0) 0 [0]).vnext 0 0 op).isSome = true) ∧
    (∀ op ∈ [0x1C, 0x1D, 0x1E, 0x1F, 0x24, 0x25, 0x26, 0x27], ((vxDev (vword op 0 0 0 0 0) 0 [0]).vnext 0 0 op).isSome = true) ∧
    (cfmt 0).mx = false ∧ (vins (vword 0x1E 0 0 0 0 0)).part = 0 ∧ (vins (vword 0x1E 0 0 0 0 0)).b < (fire0 [0]).outs.length ∧
    ((vxDev (vword 0x20 0 0 0 0 0) 2 [0]).vnext 0 0 0x20).isSome = true ∧ (fire0 []).span + 1 ≠ (vcfg (vword 0x20 0 0 0 0 0) 2).vspan ∧
    ((vxDev (vword 0x20 0 0 0 0 0) 1 [0]).vnext 0 0 0x20).isSome = true ∧ (fire0 []).span + 1 = (vcfg (vword 0x20 0 0 0 0 0) 1).vspan ∧
    (fire0 []).void = false := by decide +kernel

/-- Table 8-4 on FP32: 1.5 + 2.25 = 3.75, 1.5 × −2 = −3, 3 × 2 + 1 = 7; the type INT32 wraps; NEG of the least INT32 is itself. -/
theorem test_lanes : velem 0 1 0x3FC00000 0x40100000 0 = 0x40700000 ∧ velem 0 3 0x3FC00000 0xC0000000 0 = 0xC0400000 ∧
    velem 0 4 0x40400000 0x40000000 0x3F800000 = 0x40E00000 ∧ velem 3 0x17 0xFFFFFFFF 2 0 = 1 ∧ velem 3 0x08 0x80000000 0 0 = 0x80000000 := by
  decide +kernel

/-- The configuration of a control-core operator, one input and one output. -/
def ccCfg : Cfg := cfg 4 0 1 1

/-- An instruction word: opcode, RD, RS1, RS2, RS3 or the 14-bit immediate. -/
def ccWord (op rd rs1 rs2 rs3 : Nat) : Nat := op + rd * 256 + rs1 * 8192 + rs2 * 262144 + rs3 * 8388608
def ccWordI (op rd rs1 imm : Nat) : Nat := op + rd * 256 + rs1 * 8192 + imm * 262144

/-- A device whose tile 0 runs a control-core program of two words in slot 0, with registers and poison bits set. -/
def ccDev (w : Nat) (rs : List (Nat × Nat)) (ps : List Nat) (ks : List Token := []) (f : Slot → Slot := id) : Dev :=
  { unitDev ccCfg ks (fun x => f { x with cc := { CcCtx.init with regs := rs, poison := ps.map fun p => (p, ()) } }) with
    tiles := [(0, { Tile.init with code := le w 4 ++ le 0x54 4 })] }

theorem witness_control_core_groups : (∀ op ∈ List.range 14 ++ [0x20, 0x21, 0x22, 0x23, 0x24, 0x25, 0x28, 0x29, 0x26, 0x61, 0x62],
      (ccDev (ccWord op 0 1 2 0) [(1, 5)] []).ccNext 0 0 op =
        some ((ccDev (ccWord op 0 1 2 0) [(1, 5)] []).slot 0 0, ccCfg, ccWord op 0 1 2 0)) ∧
    (∀ op ∈ List.range 8, (ccDev (ccWordI (0x10 + op) 3 0 0) [] []).ccNext 0 0 (0x10 + op) =
        some ((ccDev (ccWordI (0x10 + op) 3 0 0) [] []).slot 0 0, ccCfg, ccWordI (0x10 + op) 3 0 0)) ∧
    (∀ i ∈ [0, 4, 5], (ccDev (ccWordI 0x55 1 0 i) [] []).ccNext 0 0 0x55 = some ((ccDev (ccWordI 0x55 1 0 i) [] []).slot 0 0, ccCfg, ccWordI 0x55 1 0 i)) ∧
    (ccDev (ccWordI 0x27 1 1 0) [(1, 4)] []).ccNext 0 0 0x27 = some ((ccDev (ccWordI 0x27 1 1 0) [(1, 4)] []).slot 0 0, ccCfg, ccWordI 0x27 1 1 0) ∧
    ((ccDev 0 [] []).tile 0).isInstr 4 = true ∧ ((ccDev 0 [] []).tile 0).isInstr 8 = false ∧
    (ccDev (ccWordI 0x63 0 1 0) [(1, 4)] []).ccNext 0 0 0x63 = some ((ccDev (ccWordI 0x63 0 1 0) [(1, 4)] []).slot 0 0, ccCfg, ccWordI 0x63 0 1 0) ∧
    ((ccDev 0 [] [] [] fun x => { x with cc := { x.cc with wait := .tally 7 } }).slot 0 0).cc.wait = .tally 7 := by decide +kernel

theorem witness_control_core_faults : (∀ op ∈ [0x20, 0x21, 0x22, 0x23, 0x24, 0x25],
      (ccDev (ccWordI op 1 0 1) [] [1]).ccNext 0 0 op = some ((ccDev (ccWordI op 1 0 1) [] [1]).slot 0 0, ccCfg, ccWordI op 1 0 1) ∧
      (((ccDev (ccWordI op 1 0 1) [] [1]).slot 0 0).cc.get 1).2 = true) ∧
    (∀ op ∈ [0x27, 0x30, 0x31, 0x32, 0x51, 0x52, 0x53, 0x63], (ccDev (ccWordI op 0 1 0) [] [1]).ccNext 0 0 op =
      some ((ccDev (ccWordI op 0 1 0) [] [1]).slot 0 0, ccCfg, ccWordI op 0 1 0)) ∧
    (∀ r ∈ [1, 2], ∀ op ∈ [0x32, 0x51], (ccDev (ccWord op 0 0 1 2) [] [r]).ccNext 0 0 op =
      some ((ccDev (ccWord op 0 0 1 2) [] [r]).slot 0 0, ccCfg, ccWord op 0 0 1 2)) ∧
    (∀ v ∈ [1, 0xA000000000], (ccDev (ccWordI 0x30 0 1 0) [(1, v)] []).ccNext 0 0 0x30 =
      some ((ccDev (ccWordI 0x30 0 1 0) [(1, v)] []).slot 0 0, ccCfg, ccWordI 0x30 0 1 0)) ∧ place 0xA000000000 = .hole ∧
    (∀ k ∈ [2, 5], (ccDev (ccWordI 0x41 0 1 0) [(1, k)] []).ccNext 0 0 0x41 =
      some ((ccDev (ccWordI 0x41 0 1 0) [(1, k)] []).slot 0 0, ccCfg, ccWordI 0x41 0 1 0)) ∧
    (ccDev (ccWordI 0x53 0 1 0) [(1, 1)] []).mayStage false 1 = false := by decide +kernel

/-- R209: ADDI of −1 to 0 is all ones; s0 discards; MULHU is the high half. -/
theorem test_control_core : ((after (.ccAddi 0 0) ⟨[], ccDev (ccWordI 0x10 3 0 0x3FFF) [] []⟩).slot 0 0).cc.get 3 = (2 ^ 64 - 1, false) ∧
    ((after (.ccAddi 0 0) ⟨[], ccDev (ccWordI 0x10 0 0 5) [] []⟩).slot 0 0).cc.get 0 = (0, false) ∧
    ((after (.ccMulhu 0 0) ⟨[], ccDev (ccWord 0x0B 3 1 1 0) [(1, 2 ^ 63)] []⟩).slot 0 0).cc.get 3 = (2 ^ 62, false) := by decide +kernel

/-- R209: a branch of one instruction word; R213: a poisoned source stops it. -/
theorem test_branch : ((after (.ccBeq 0 0) ⟨[], ccDev (ccWordI 0x20 0 0 1) [] []⟩).slot 0 0).cc.pc = 4 ∧
    ((after (.ccBeq 0 0) ⟨[], ccDev (ccWordI 0x20 1 0 1) [] [1]⟩).slot 0 0).cc.faulted = true := by decide +kernel

theorem witness_tokens_and_tile : (∀ op ∈ [0x40, 0x41, 0x42, 0x43, 0x50, 0x51, 0x52, 0x53, 0x54],
      (ccDev (ccWordI op 0 0 0) [] [] [tok 0 0]).ccNext 0 0 op = some ((ccDev (ccWordI op 0 0 0) [] [] [tok 0 0]).slot 0 0, ccCfg, ccWordI op 0 0 0)) ∧
    (ccDev (ccWordI 0x42 0 0 7) [] []).ccNext 0 0 0x42 = some ((ccDev (ccWordI 0x42 0 0 7) [] []).slot 0 0, ccCfg, ccWordI 0x42 0 0 7) ∧
    (ccDev (ccWordI 0x40 0 0 0) [] [] [tok 0 0]).ready 0 ((ccDev (ccWordI 0x40 0 0 0) [] [] [tok 0 0]).slot 0 0) ccCfg 0 = some (tok 0 0) ∧
    (ccDev 0x41 [] []).credit ccCfg 0 = true ∧ ((ccDev 0x51 [] []).tile 0).extReg.contains 1 = false ∧ (vcfg 1 0).cls = 1 ∧ ((ccDev 0x54 [] []).slot 0 0).shadow = none ∧
    ({ ccDev (ccWordI 0x53 0 1 0) [(1, 1)] [] with img0 := (staged 1).img0 } : Dev).mayStage false 1 = true := by decide +kernel

theorem witness_vsete : ({ ccDev (ccWordI 0x52 0 1 31) [(1, 9)] [] with
      slots := fmSet (ccDev (ccWordI 0x52 0 1 31) [(1, 9)] []).slots 31 { Slot.init with active := some (vcfg 1 0) } } : Dev).slot 0 31 =
    { Slot.init with active := some (vcfg 1 0) } := by decide +kernel

/-! ## Control-core requests, synchronisation, the window pool, fields -/

/-- An operator of tile 0 in slot 0 that waits. -/
def waiting (w : CcWait) (n : NetS) : Dev := { ccDev 0 [] [] [] (fun x => { x with cc := { x.cc with wait := w } }) with net := n }

/-- A tile whose own slice has 4,096 bytes assigned. -/
def ownSlice (d : Dev) : Dev := { d with tiles := fmMod d.tiles 0 Tile.init fun x => { x with work := 4096 } }

theorem witness_loads_and_stores :
    (∀ op ∈ [0x30, 0x31], ∀ v ∈ [sliceBase 0 + 4088, 0, 0x00002001001000], (ccDev (ccWordI op 2 1 0) [(1, v)] []).ccNext 0 0 op =
        some ((ccDev (ccWordI op 2 1 0) [(1, v)] []).slot 0 0, ccCfg, ccWordI op 2 1 0) ∧
      ((ccDev (ccWordI op 2 1 0) [(1, v)] []).slot 0 0).cc.get 1 = (v, false) ∧ v % 8 = 0) ∧
    (ownSlice (ccDev 0x30 [] [])).ccPlace 0 (sliceBase 0 + 4088) = some .own ∧ (ownSlice (ccDev 0x30 [] [])).ccPlace 0 0 = some .far ∧
    (ccDev 0 [] []).isPoison (sliceBase 0 + 4088) = false ∧
    ({ ccDev 0 [] [] with poison := [((sliceBase 0 + 4088) / 8, ())] } : Dev).isPoison (sliceBase 0 + 4088) = true := by decide +kernel

theorem witness_replies : (∀ b ∈ [false, true],
      ((waiting .store { NetS.init with mem := [⟨0, 0, b, 8, 0, false, 0⟩] }).net.mem.find? fun r => r.tile == (0#9).toNat && r.op == (0#5).toNat) =
        some ⟨0, 0, b, 8, 0, false, 0⟩) ∧
    ((waiting (.load 3) { NetS.init with memBack := [⟨0, 0, false, 8, 5, false, 0⟩] }).net.memBack.find? fun r =>
      r.tile == (0#9).toNat && r.op == (0#5).toNat) = some ⟨0, 0, false, 8, 5, false, 0⟩ ∧ (8 % 8 = 0) ∧
    (waiting .store { NetS.init with mem := [⟨0, 0, true, 8, 0, false, 0⟩] }).requestAhead 0 8 0 = false ∧
    (waiting (.load 3) { NetS.init with memBack := [⟨0, 0, false, 8, 5, false, 0⟩] }).replyAhead 0 8 0 = false ∧
    ((waiting (.load 3) NetS.init).slot 0 0).cc.wait = .load 3 ∧ ((waiting .store NetS.init).slot 0 0).cc.wait = .store ∧
    (ccDev (ccWord 0x32 1 2 3 4) [(2, sliceBase 0)] []).ccNext 0 0 0x32 =
      some ((ccDev (ccWord 0x32 1 2 3 4) [(2, sliceBase 0)] []).slot 0 0, ccCfg, ccWord 0x32 1 2 3 4) ∧
    (sliceBase 0 % 8 = 0 ∧ place (sliceBase 0) = .scratch 0 0) ∧ place 0 = .stack ∧
    ((waiting (.till 3) { NetS.init with till := [⟨0, 0, sliceBase 0, 1, 8, some (0, false, false, false), 0⟩] }).net.till.find? fun r =>
      r.tile == (0#9).toNat && r.op == (0#5).toNat && r.reply.isSome) = some ⟨0, 0, sliceBase 0, 1, 8, some (0, false, false, false), 0⟩ ∧
    (waiting (.till 3) { NetS.init with till := [⟨0, 0, sliceBase 0, 1, 8, some (0, false, false, false), 0⟩] }).replyAhead 0 (sliceBase 0) 0 = false ∧
    ((waiting (.till 3) NetS.init).slot 0 0).cc.wait = .till 3 := by decide +kernel

theorem witness_barrier : (ccDev (ccWordI 0x60 0 0 63) [] []).ccNext 0 0 0x60 =
      some ((ccDev (ccWordI 0x60 0 0 63) [] []).slot 0 0, ccCfg, ccWordI 0x60 0 0 63) ∧
    fmGet (waiting (.barrier 63) { NetS.init with bars := [(63, [0])] }).net.bars
      ((waiting (.barrier 63) { NetS.init with bars := [(63, [0])] }).syncKey false (63#6).toNat) = some [0] ∧
    ((waiting (.barrier 63) { NetS.init with bars := [(63, [0])] }).scopeTiles false).all (fun t =>
      !bit ((waiting (.barrier 63) { NetS.init with bars := [(63, [0])] }).fget F.TIL_SYNC_BMASK_MASK (tileAdd t)) 63 || t == 0) = true := by
  decide +kernel

theorem witness_vote : fmGet (waiting (.vote 7 3 true false) { NetS.init with votes := [(7, [(0, true, true)])] }).net.votes
      ((waiting (.vote 7 3 true false) { NetS.init with votes := [(7, [(0, true, true)])] }).syncKey false (7#3).toNat) = some [(0, true, true)] ∧
    ((waiting (.vote 7 3 true false) NetS.init).scopeTiles false).all (fun t => !((waiting (.vote 7 3 true false) NetS.init).tile t).votes || t == 0) =
      true := by decide +kernel

/-- R259: the only participant has arrived, and the waiting operator is released. -/
theorem test_barrier_releases :
    ((after (.barrierComplete false 63) ⟨[], waiting (.barrier 63) { NetS.init with bars := [(63, [0])] }⟩).slot 0 0).cc.wait = .none := by
  decide +kernel

/-- A tile 0 with a window region of two frames and entries; a window command: source ingot, handle, ingots, uses (Table 9-5). -/
def winDev (es : List (Nat × WinEnt)) (head : Nat) : Dev :=
  { dev [] with tiles := [(0, { Tile.init with window := 8192, win := es, winOrder := es.map (·.1), winHead := head })] }
def winWord (src h n uses : Nat) : Word := .ofNat 64 (src + h * 2 ^ 28 + n * 2 ^ 36 + uses * 2 ^ 46)
def went (st frame n remain : Nat) : WinEnt := ⟨st, frame, n, remain, 0, 4096⟩

theorem witness_window : (dev []).mayWrite .operator 0x1006018 = true ∧ (dev []).mayWrite (.core 1) 0x1006018 = false ∧
    (∀ p ∈ [(winWord 1 0 2 1, 0, 2), (winWord 1 1 3 1, 1, 3), (winWord 0x4E80000 0 1 1, 0, 1), (winWord 1 0 0 0, 0, 0), (winWord 1 0 0 1, 0, 0)],
      bits p.1.toNat 28 8 = p.2.1 ∧ bits p.1.toNat 36 10 = p.2.2) ∧
    (winDev [] 0).tenantRange .whole 4096 8192 = true ∧ (winDev [] 0).tenantRange .whole (0x4E80000 * 4096) 4096 = false ∧
    (((winDev [(0, went 1 0 1 1), (1, went 1 0 1 1), (2, went 1 0 1 1), (3, went 1 0 1 1)] 0).tile 0).win.filter fun p => p.2.state == 1).length = 4 ∧
    (((winDev [(0, went 1 0 2 1)] 1).tile 0).winOrder.find? fun h =>
      ((fmGet ((winDev [(0, went 1 0 2 1)] 1).tile 0).win h).map (·.state == 1)).getD false) = some 0 ∧
    ((winDev [(0, went 1 0 2 1)] 1).tile 0).framesFree 0 2 = true ∧
    (∀ z ∈ [went 3 0 2 0, went 3 0 2 1], ((winDev [(1, z), (2, went 1 0 2 1)] 2).tile 0).framesFree 0 2 = false ∧
      ((winDev [(1, z), (2, went 1 0 2 1)] 2).tile 0).placed = [1]) := by decide +kernel

theorem witness_window_done : fmGet ((winDev [(255, went 2 1 1 1)] 0).tile 0).win (255#8).toNat = some (went 2 1 1 1) ∧
    (winDev [(255, went 2 1 1 1)] 0).windowBase 0 % 8 = 0 ∧
    (went 2 1 1 1).src + 4096 * (went 2 1 1 1).ingots ≤ (winDev [(255, went 2 1 1 1)] 0).windowBase 0 + 4096 * (went 2 1 1 1).frame ∧
    (winDev [(255, went 2 1 1 1)] 0).anyPoison 4096 4096 = false ∧ (dev []).mayWrite .operator 0x1006020 = true ∧
    (dev [(F.STK_SCRUB_PERIOD, 0, 1)]).fget F.STK_SCRUB_PERIOD (stackAdd 0) ≠ 0 ∧ (dev [(F.STK_SCRUB_PERIOD, 0, 0)]).fget F.STK_SCRUB_PERIOD (stackAdd 0) = 0 ∧
    (∀ v ∈ [0, 1], (dev [(F.STK_STATUS_SCRUB_ACTIVE, 0, v), (F.STK_STATUS_TRAINED, 0, 1)]).fget F.STK_STATUS_SCRUB_ACTIVE (stackAdd 0) = v) ∧
    (dev [(F.STK_STATUS_SCRUB_ACTIVE, 0, 0), (F.STK_STATUS_TRAINED, 0, 1)]).fget F.STK_STATUS_TRAINED (stackAdd 0) = 1 ∧ (dev []).eastLost = false ∧
    (dev []).stackOf 0 = 0 ∧ (dev []).isPoison 0 = false := by decide +kernel

/-- R233: an entry of two frames that would pass the end is placed at frame 0; R232: more frames than the region, COUNT_RANGE. -/
theorem test_window : ((fmGet ((after (.windowPlace 0) ⟨[], winDev [(0, went 1 0 2 1)] 1⟩).tile 0).win 0).map fun e => (e.state, e.frame)) = some (2, 0) ∧
    (after (.winCmd .operator 0 (winWord 1 1 3 1)) ⟨[], winDev [] 0⟩).fget F.TIL_WIN_STATUS_LAST_STATUS = stCountRange := by decide +kernel

/-- Two tokens on their way from the fork of slot 0 of tile 0 to queue 8 of the tile; a load to the tile's slice and a till request. -/
def damaged : Dev :=
  { unitDev (cfg 12 0 1 4) [] with
    queues := [(qKey 0 8, { Queue.init with flight := [tok 0 0, tok 0 1] })]
    net := { NetS.init with mem := [⟨0, 0, false, sliceBase 0, 0, false, 0⟩], till := [⟨0, 0, sliceBase 0, 1, 8, none, 0⟩] } }

theorem witness_network : damaged.live = true ∧ (damaged.queue 0 8).moving = [tok 0 0, tok 0 1] ∧ damaged.sourceOf 0 8 = some 0 ∧
    damaged.passes 0 (damaged.router 0) (damaged.router 0) = true ∧ place (sliceBase 0) ≠ .stack ∧
    (damaged.net.mem.find? fun m => m.tile == 0 && m.op == 0 && damaged.passes 0 (damaged.router 0) (damaged.targetRouter m.addr)) =
      some ⟨0, 0, false, sliceBase 0, 0, false, 0⟩ ∧
    (damaged.net.till.find? fun m => m.tile == 0 && m.op == 0 && m.reply.isNone && damaged.passes 0 (damaged.router 0) (damaged.targetRouter m.addr)) =
      some ⟨0, 0, sliceBase 0, 1, 8, none, 0⟩ ∧
    ((awaiting true 1 id).net.cfg.filter fun m => m.tile == (0#9).toNat)[0]?.isSome = true ∧
    flightAddr 0 (walk0 [.row (sliceBase 0) false none] none).ahead = some (sliceBase 0) ∧
    (dev []).passes 0 ((dev []).targetRouter (sliceBase 0)) ((dev []).router 0) = true ∧
    (∀ n ∈ [19, 20], ({ dev [] with net := { NetS.init with levels := [(false, 3, n)] } } : Dev).levelDue false = some (false, 3, n)) ∧
    (dev []).fget F.TAL_PHASE_CYCLE % 16 = 0 ∧ (dev [(F.TAL_PHASE_CYCLE, 0, 17)]).fget F.TAL_PHASE_CYCLE % 16 ≠ 0 ∧
    (List.replicate 32 (0#8)).length = 32 := by decide +kernel

/-- R265: an uncorrectable payload makes the token POISON. -/
theorem test_flit_poison : ((after (.flitError 0 1 0 8 1) ⟨[], damaged⟩).queue 0 8).flight = [tok 0 0, tok 4 1] := by decide +kernel

/-- A field instance of one block at site 0 in tile 0, INT8 by INT8, with 64 rows and 64 columns; its block and run; run tokens at its input. -/
def fieldDev (b : Block) (r : Option Run) (feed : List FeedRow) (ks : List Token) : Dev :=
  { unitDev (cfg 0 0 1 1 (blob 24 [(2, [6]), (3, [1]), (4, le 0x88 8), (12, le (64 + 64 * 65536) 8), (21, [255])])) ks with
    insts := [(0, { Inst.init 0 0 with held := true, run := r, blocks := [(0, b)], feed := [(0, feed)] })]
    tiles := [(0, { Tile.init with work := 4096 })] }

/-- Registers that hold the INT8 element 1 in every cell. -/
def ones : Cells := cellsOf 8 (List.replicate 512 0x0101010101010101) []

/-- A block whose shadow is loaded. -/
def loaded : Block := { Block.init with shadow := ones, full := true }

theorem witness_stationary : (∀ b ∈ [Block.init, loaded], ((fieldDev b none [] []).instAt 0 0).map (fun p => (p.2.depth * p.2.groups, loadBytes p.2.sfmt)) =
      some (1, 4096) ∧ ((fieldDev b none [] []).instAt 0 0).map (fun p => p.1.block 0) = some b) ∧ (fieldDev Block.init none [] []).runs false = true ∧
    (Block.init.full = false ∧ Block.init.loading = none) ∧ loaded.full = true ∧
    sliceBase 0 % 64 = 0 ∧ place (sliceBase 0) = .scratch 0 0 ∧ 0 + loadBytes 8 ≤ (fieldDev Block.init none [] []).region 0 ∧
    (fieldDev Block.init none [] []).split = false ∧ (fieldDev Block.init none [] []).anyPoison (sliceBase 0) 4096 = false ∧
    (∀ n ∈ [0, 63], ((fieldDev { Block.init with loading := some ⟨sliceBase 0, n⟩ } none [] []).instAt 0 0).map (fun p => (p.1.block 0).loading) =
      some (some ⟨sliceBase 0, n⟩)) := by
  decide +kernel

theorem witness_run_start : ∀ k ∈ [tok 1 0 (.ofNat 512 (256 + 2 ^ 32)), tok 1 0 0, tok 3 0, tok 4 0, tok 0 0],
    ((fieldDev loaded none [] [k]).instAt 0 0).map (fun p => ((fieldDev loaded none [] [k]).fieldHead p.1.tile ((fieldDev loaded none [] [k]).slot p.1.tile p.1.slot) p.2 p.2.runQ,
      p.1.run, (p.1.block 0).ready, decide (beats p.2.mfmt ≤ ((fieldDev loaded none [] [k]).slot p.1.tile p.1.slot).since))) =
      some (some k, none, true, true) ∧ ((fieldDev loaded none [] [k]).canFire 0 0 [0]).isSome = true := by decide +kernel

/-- An instance at slot 0 of a run of one, with one moving row delivered. -/
def slotDev : Dev := fieldDev { Block.init with active := ones } (some ⟨1, 0, 0, false, false⟩) [⟨some 1, false, []⟩] []

theorem witness_field_slot :
    (slotDev.instAt 0 0).map (fun p => (p.1.run, p.2.paired, p.2.slide, p.2.rowScale)) = some (some ⟨1, 0, 0, false, false⟩, false, false, false) ∧
    (slotDev.instAt 0 0).map (fun p => (segRows p.2.mfmt, p.2.depth, slotDev.credits p.2 0 4)) = some (1, 1, true) ∧
    (slotDev.instAt 0 0).map (fun p => (((fmGet p.1.feed 0).getD []).drop ((fmGet p.1.skip 0).getD 0)).length) = some 1 ∧
    (slotDev.instAt 0 0).map (fun p => decide (beats p.2.mfmt ≤ (slotDev.slot p.1.tile p.1.slot).since)) = some true ∧
    (slotDev.canFire 0 0 [0]).isSome = true := by decide +kernel

/-! ## The training step, the seal, the update engines -/

/-- An image of sections in one run (type, configuration, items, bytes), its counts in the header. -/
def pic (ss : List (Nat × Nat × Nat × List Byte)) (flags : Nat := 0) : List Byte :=
  let place := (ss.foldl (fun (x : List Byte × Nat) s => (x.1 ++ dirEntry s.1 s.2.1 s.2.2.1 x.2 s.2.2.2.length, x.2 + s.2.2.2.length))
    ([], 256 + 32 * ss.length)).1
  blob 256 [(0x0C, le ss.length 2), (0x0E, [1]), (0x0F, le flags 1), (0x18, le 8 4)] ++ place ++ ss.flatMap (·.2.2.2)

/-- STEP items: micro-batches 2, one replay, one layer, seal offset 20 and stride 10, two rounds, votes close 5 ticks before, a pass may take 100
ticks; the layer, with or without a trainable shard at 8,192 or 65,536. -/
def steps (upd : Bool) : Nat × Nat × Nat × List Byte :=
  (13, 255, 2, blob 64 [(1, [2, 1]), (4, le 1 2), (8, le 20 4), (12, le 10 4), (16, [2, 5]), (20, le 100 4)] ++
    blob 64 [(0, [1]), (3, [if upd then 1 else 0]), (8, le 8192 8), (16, le 65536 8), (24, le 4096 8)])

/-- SURVIVAL items: a header with cadence 1 and one tensor of one ingot at 4,096 under escrow. -/
def survive : Nat × Nat × Nat × List Byte :=
  (12, 255, 2, blob 64 [(2, le 9 2), (8, le 1 2), (10, [1]), (24, le 0x100000 8)] ++
    blob 64 [(0, [1, 0, 0, 0]), (6, le 7 2), (8, le 4096 8), (16, le 1 4), (22, le 9 2)])

/-- A device in state `st` with an image in force, a run, and a ledger that holds one command at its start. -/
def stepDev (st : Nat) (ss : List (Nat × Nat × Nat × List Byte)) (r : Option RunS) (op : Nat) (desc : Row := 0) (rs : List (Fld × Nat × Nat) := []) :
    Dev :=
  withEntry { dev ([(F.DEV_STATE_STATE_W, 0, st), (F.DEV_STATE_STATE_E, 0, st), (F.TAL_COUNT_COUNT, 0, 200)] ++ rs) with
    img0 := some { bytes := pic ss, bufB := false, cur := 0, epoch := false, prev := 0, tag := 0 }
    step0 := { StepS.init with run := r } } (entryOf 0 1 op desc)

/-- A command of that ledger comes to its start. -/
def starts (d : Dev) (op : Nat) (desc : Row := 0) : Bool :=
  d.entry false 0 == some (entryOf 0 1 op desc) && (d.led false).mayStart (entryOf 0 1 op desc) && (d.stateCheck false (entryOf 0 1 op desc)).isNone && d.live

/-- A run between attempts, and one whose attempt started at 150 with passes in flight. -/
def idle0 : RunS := { RunS.fresh 0 200 0 with base := 3 }
def att (ps : List Pass) : RunS := { idle0 with sa := some 150, start := 150, passes := ps }

/-- A vote's result. -/
def res (id : Nat) (vand or0 or1 : Bool) : VoteEntry := ⟨0, .ofNat 32 id, 8, 8, vand, or0, or1, true, 190⟩

theorem witness_run : starts (stepDev 3 [steps false] none 4) 4 = true ∧
    firstFail ((stepDev 3 [steps false] none 4).headersCheck false ::
      ((stepDev 3 [steps false] none 4).pairings false).map ((stepDev 3 [steps false] none 4).handshakeOne false [])) = none := by decide +kernel

/-- A device with results received. -/
def withRes (d : Dev) (v : VoteEntry) : Dev := { d with fab := { d.fab with results := [v] } }

theorem witness_baseline : (∀ b ∈ [0, 2, 3], ((stepDev 4 [steps false] (some { idle0 with base := b }) 4).stepc false).run.map (·.base) = some b) ∧
    (∀ v ∈ [res 3 true false false, res 3 false false false, res 3 true false true],
      (withRes (stepDev 4 [steps false] (some { idle0 with base := 2 }) 4) v).fabResult
        ((withRes (stepDev 4 [steps false] (some { idle0 with base := 2 }) 4) v).tagOf false)
        (voteId 3 0 0 ((withRes (stepDev 4 [steps false] (some { idle0 with base := 2 }) 4) v).stepNum false)) = some v) := by decide +kernel

theorem witness_attempt : ((stepDev 4 [steps false] (some idle0) 4).stepc false).run = some idle0 ∧ idle0.sa = none ∧ idle0.paused = none ∧
    idle0.preempt = none ∧ ((stepDev 4 [steps false] (some idle0) 4).stepc false).hold = false ∧
    idle0.start ≤ (stepDev 4 [steps false] (some idle0) 4).now ∧ idle0.dirty = false ∧ (stepDev 4 [steps false] (some idle0) 4).half false ≠ 7 ∧
    (stepDev 4 [steps false] (some idle0) 4).chooseRecords false = some [] ∧ (stepDev 4 [steps true] (some idle0) 4).chooseRecords false = none ∧
    (stepDev 4 [steps true] (some idle0) 4).half false ≠ 7 := by decide +kernel

theorem witness_passes : (att []).sa.isSome = true ∧ (att []).stopped = false ∧ (att []).fail = none ∧ (att []).replay = [] ∧ (att []).passes.length < 64 ∧
    (1#8).toNat < microBatches ((stepDev 4 [steps false, survive] (some (att [])) 4).imageBytes false) ∧ (3 : Fin 6) ≠ 0 ∧
    ({ att [] with gate := 2 } : RunS).gate = 2 ∧ (survHdr ((stepDev 4 [steps false, survive] (some (att [])) 4).imageBytes false)).isSome = true ∧
    (stepDev 4 [steps false] (some (att [])) 4).feed.armed = none ∧ (att [⟨1, 0, 0, 160, 0, 0⟩]).passes[(0#6).toNat]? = some ⟨1, 0, 0, 160, 0, 0⟩ ∧
    ((att [⟨1, 0, 0, 160, 0, 0⟩]).passes.filter fun p => p.kind != 0).length = 1 ∧ (stepDev 4 [steps false] (some (att [])) 4).unitsQuiet false = true ∧
    ({ stepDev 4 [steps false] (some (att [])) 4 with queues := [(0, { Queue.init with flight := [tok 0 0] })] } : Dev).unitsQuiet false = false ∧
    (stepDev 4 [steps false] (some (att [])) 4).feed.ingest = [] := by
  decide +kernel

/-- What has ended before a pass of each kind of micro-batch 0 may come (Table 11-2, R271). -/
theorem witness_pass_due : (∀ p ∈ ([(0, 0, []), (1, 0, [(0, 0, 0)]), (3, 2, [(1, 0, 0)]), (4, 0, [(1, 0, 0)]), (5, 2, [(3, 0, 0), (3, 1, 0)])] :
      List (Nat × Nat × List (Nat × Nat × Nat))),
      (stepDev 4 [steps false] (some { att [] with gate := p.2.1, ended := p.2.2 }) 4).passDue false { att [] with gate := p.2.1, ended := p.2.2 } p.1 0 0 = true) ∧
    (stepDev 4 [(13, 255, 3, (steps false).2.2.2 ++ blob 64 [(0, [2, 0, 1])])] (some { att [] with ended := [(1, 0, 0)] }) 4).passDue false
      { att [] with ended := [(1, 0, 0)] } 2 0 0 = true ∧
    (stepDev 4 [steps false] (some (att [])) 4).passDue false (att []) 3 0 0 = false ∧
    ({ stepDev 4 [steps false] (some (att [])) 4 with fab := { FabS.init with recvs := [(65536 + 5, { RecvS.init with bufs := [(2, (0, 0, 3))] })] } } : Dev).inputWhole
      false ⟨1, 5, 2, 3⟩ = true := by decide +kernel

theorem witness_abandon : (∀ p ∈ (att [⟨1, 0, 0, 99, 0, 0⟩]).passes, replayable p.kind = true ∧
      p.replays < replayLimit ((stepDev 4 [steps false] (some (att [⟨1, 0, 0, 99, 0, 0⟩])) 4).imageBytes false)) ∧
    (stepDev 4 [steps false] none 4).refetch.any ((stepDev 4 [steps false] none 4).lostAgain false) = false ∧
    [(false, 3)].filter ((stepDev 4 [steps false] none 4).faultHere false) ≠ [] ∧ ((false, 3) : Bool × Nat).2 ≠ 2 ∧ (att []).epoch = false ∧
    passTimeout ((stepDev 4 [steps false] none 4).imageBytes false) ≠ 0 ∧
    99 + passTimeout ((stepDev 4 [steps false] none 4).imageBytes false) < (stepDev 4 [steps false] none 4).now ∧ replayable 0 = false ∧
    ({ att [] with replay := [⟨1, 0, 0, 160, 0, 0⟩] } : RunS).replay = ⟨1, 0, 0, 160, 0, 0⟩ :: [] ∧ (stepDev 4 [steps false] none 4).refetch = [] ∧
    (stepDev 4 [steps false] none 4).netsQuiet false = true ∧
    ({ stepDev 4 [steps false] none 4 with queues := [(0, { Queue.init with flight := [tok 0 0] })] } : Dev).netsQuiet false = false := by decide +kernel

theorem witness_gates : (att []).gate = 0 ∧ ({ att [] with ended := [(1, 0, 0), (1, 1, 0), (4, 0, 0)] } : RunS).hasEnded 1 0 = true ∧
    ({ att [] with ended := [(1, 0, 0), (1, 1, 0), (4, 0, 0)] } : RunS).hasEnded 1 1 = true ∧
    microBatches ((stepDev 4 [steps false] none 4).imageBytes false) = 2 ∧ (∀ g ∈ [false, true], (withRes (stepDev 4 [steps true] (some { att [] with gate := 1 }) 4) (res 0 false g false)).fabResult
      ((stepDev 4 [steps true] none 4).tagOf false) (voteId 0 0 0 ((stepDev 4 [steps true] none 4).attemptNo false)) = some (res 0 false g false)) ∧
    ((layerRec ((stepDev 4 [steps true] (some (att [])) 4).imageBytes false) (0#8).toNat).map lrUpdate) = some true ∧
    (stepDev 4 [steps true] (some (att [])) 4).shardWhole false 0 ((stepDev 4 [steps true] (some (att [])) 4).shardAt 8192) = true ∧
    (∀ g ∈ [false, true], (withRes (stepDev 4 [steps true] (some { att [] with gradVoted := [0] }) 4) (res 1 false g false)).fabResult
      ((stepDev 4 [steps true] none 4).tagOf false) (voteId 1 0 ((stepDev 4 [steps true] none 4).pipeline false).1
        ((stepDev 4 [steps true] none 4).attemptNo false)) = some (res 1 false g false)) := by decide +kernel

/-- R272: a loss gate with a nonfinite contribution fails the attempt NONFINITE. -/
theorem test_loss_gate : (((after (.lossGate false) ⟨[], withRes (stepDev 4 [steps true] (some { att [] with gate := 1 }) 4) (res 0 false true false)⟩).stepc
    false).run.map fun r => (r.gate, r.fail)) = some (3, some stNonfinite) := by decide +kernel

theorem witness_preempt : starts (stepDev 4 [steps false] (some idle0) 5) 5 = true ∧ starts (stepDev 5 [steps false] (some { idle0 with paused := some 170 }) 6) 6 = true ∧
    idle0.preempt = none ∧ ({ idle0 with preempt := some (1, 170) } : RunS).preempt.isSome = true ∧ idle0.passes = [] ∧ idle0.replay = [] ∧
    (stepDev 4 [steps false] (some { idle0 with entry := 9, preempt := some (0, 170) }) 5).entry false 0 = some (entryOf 0 1 5 0) ∧
    (entryOf 0 1 5 0).state < 3 ∧ 0 ≠ ({ idle0 with entry := 9, preempt := some (0, 170) } : RunS).entry := by decide +kernel

theorem witness_stops : starts (stepDev 4 [steps false] (some idle0) 7) 7 = true ∧ (entryOf 0 1 7 0).arg 24 1 = 0 ∧
    starts (stepDev 4 [steps false] (some (att [])) 7 (rowAtByte 24 [1])) 7 (rowAtByte 24 [1]) = true ∧
    (entryOf 0 1 7 (rowAtByte 24 [1])).arg 24 1 = 1 ∧ starts (stepDev 4 [steps false] none 7 (rowAtByte 24 [1])) 7 (rowAtByte 24 [1]) = true ∧
    idle0.stop = none ∧ ({ idle0 with stop := some 3 } : RunS).stop.isSome = true := by decide +kernel

/-- A device whose seal tick is `t`, in round 0, the attempt under way. -/
def sealDev (t : Nat) (r : RunS) : Dev := stepDev 4 [steps false] (some r) 4 0 [(F.DEV_STEP_SEAL_TALLY, 0, t)]

theorem witness_seal : (att []).roundVoted ≠ some ((sealDev 205 (att [])).fget F.DEV_STEP_STATUS_ROUND ((sealDev 205 (att [])).stepAdd false)) ∧
    (sealDev 205 (att [])).now + voteTicks ((sealDev 205 (att [])).imageBytes false) ≤ 205 ∧
    204 < (sealDev 204 (att [])).now + voteTicks ((sealDev 204 (att [])).imageBytes false) ∧ 200 ≤ (sealDev 200 (att [])).now ∧
    (∀ b ∈ [false, true], (withRes (sealDev 200 (att [])) (res 2 b false false)).fabResult ((sealDev 200 (att [])).tagOf false)
      ((sealDev 200 (att [])).sealId false) = some (res 2 b false false)) ∧
    (sealDev 200 (att [])).fget F.DEV_STEP_STATUS_ROUND + 1 < sealRounds ((sealDev 200 (att [])).imageBytes false) ∧
    (sealDev 200 (att [])).fabResult ((sealDev 200 (att [])).tagOf false) ((sealDev 200 (att [])).sealId false) = none := by decide +kernel

/-- R287–R292: a round without agreement passes to the next one stride later; one in favour raises N. -/
theorem test_seal_round : (after (.sealRound false false) ⟨[], withRes (sealDev 200 (att [])) (res 2 false false false)⟩).fget F.DEV_STEP_SEAL_TALLY = 210 ∧
    (after (.sealRound false false) ⟨[], withRes (sealDev 200 (att [])) (res 2 true false false)⟩).fget F.DEV_STEP_NUM_N = 1 := by decide +kernel

/-- A SCHED_APPEND descriptor: ADDR 4,096, one record. -/
def apRow : Row := rowAtByte 24 [0, 16] ||| rowAtByte 32 [1]

theorem witness_append : starts (stepDev 3 [steps false] none 8 apRow) 8 apRow = true ∧ (entryOf 0 1 8 apRow).arg 24 8 = 4096 ∧
    (entryOf 0 1 8 apRow).arg 32 4 = 1 ∧ (stepDev 3 [steps false] none 8 apRow).anyPoison 4096 64 = false ∧
    schedCheck [] [blob 64 [(0, [3]), (8, le 5 8), (16, le 1 8)]] = none ∧ (schedCheck [] [blob 64 [(2, [1])]]).isSome = true := by decide +kernel

/-- The same device with a shard of one row of no columns at 8,192. -/
def updDev (busy : List (Nat × Nat × Nat)) : Dev :=
  { stepDev 4 [steps true] (some { att [] with grads := [0] }) 4 with mem := memPutBytes [] 8192 [1], upd := { UpdS.init with busy := busy } }

theorem witness_update : ((layerRec ((updDev []).imageBytes false) (0#8).toNat).map fun i => (lrUpdate i, (updDev []).readCopy false i 0, (updDev []).writeCopy false i 0)) =
      some (true, 8192, 65536) ∧
    (updDev []).shardWhole false 0 ((updDev []).shardAt 8192) = true ∧ (fmGet (updDev []).upd.next ((updDev []).updKey false 0)).getD 0 < ((updDev []).shardAt 8192).nb ∧
    (updDev []).freeGroup false ((updDev []).shardAt 8192).engines = some 0 ∧ isEager ((updDev []).imageBytes false) = false ∧
    (att []).updated.contains 0 = false ∧ (att []).fail = none ∧ (updDev []).writeCopy false ((layerRec ((updDev []).imageBytes false) 0).getD []) 0 % 8 = 0 ∧ fmGet (updDev [(15, (0, 0))]).upd.busy (15 : Fin 16).val = some (0, 0) := by decide +kernel

/-- A device of a mirroring step with its PREFETCH pass under way, and with a lost ingot of the tensor. -/
def mirDev : Dev :=
  { stepDev 4 [steps false, survive] (some (att [⟨5, 0, 0, 160, 0, 0⟩])) 4 with refetch := [(4096, none)] }

theorem witness_mirror : mirDev.mirroring false = true ∧ (att [⟨5, 0, 0, 160, 0, 0⟩]).mirrored.contains (7#13).toNat = false ∧
    (stepDev 4 [steps false] (some (att [])) 4).mirroring false = false ∧ (7#13).toNat ≠ 4096 ∧
    ((mirDev.dueTensors false).find? fun i => tiTensor i == (7#13).toNat).isSome = true ∧ mirDev.refetch = (4096, none) :: [] ∧
    (mirDev.split && stackHalf (mirDev.stackOf 4096)) = false ∧ (mirDev.escrowOf false 4096).isSome = true ∧
    (∃ p ∈ (att [⟨5, 0, 0, 160, 0, 0⟩]).passes, p.kind = 5) ∧ (((mirDev.dueTensors false).find? fun i => tiTensor i == (7#13).toNat).map tiRegion) = some 0 ∧
    isEager (mirDev.imageBytes false) = false ∧ (List.replicate 4096 (7#8)).length = 4096 := by decide +kernel

/-! ## Links and the fabric -/

/-- A frame with its CRC. -/
def withCrc (g : Frame) : Frame := { g with crc := .ofNat 32 (frameCrc g) }

/-- A frame of a kind with `n` units of payload, and a right CRC. -/
def fr0 (kind n : Nat) : Frame := ⟨.ofNat 4 kind, false, true, 0, .ofNat 5 n, 0, false, 0, 0, 0, 0, 0, 0, 0, [], List.replicate n 0⟩
def fr (kind n : Nat) (f : Frame → Frame := id) : Frame := withCrc (f (fr0 kind n))

/-- A powered device whose port 0 has a link state. -/
def linkDev (k : Nat) (f : Port → Port := id) (rs : List (Fld × Nat × Nat) := []) : Dev :=
  { dev ([(F.LNK_STATUS_LINK, 0, k)] ++ rs) with ports := [(0, f Port.init)] }

/-- The CRC does not cover itself, and it has 32 bits. -/
theorem frameCrc_crc (g : Frame) (c : BitVec 32) : frameCrc { g with crc := c } = frameCrc g := by
  have h : frameHeader { g with crc := c } = frameHeader g := rfl
  unfold frameCrc
  rw [h]

theorem frameCrc_lt (f : Frame) : frameCrc f < 2 ^ 32 := by unfold frameCrc crc32c; exact BitVec.isLt _

theorem withCrc_crc (g : Frame) (k : BitVec 4) (h : g.kind = k) : (withCrc g).crc.toNat = frameCrc { withCrc g with kind := k } := by
  have e : frameCrc { withCrc g with kind := k } = frameCrc g := by
    rw [← h]
    exact frameCrc_crc g _
  rw [e]
  unfold withCrc
  rw [BitVec.toNat_ofNat]
  exact Nat.mod_eq_of_lt (frameCrc_lt _)

/-- A frame whose CRC is one too high. -/
def badFr (k : Nat) : Frame := { fr0 k 1 with crc := .ofNat 32 (frameCrc (fr0 k 1) + 1) }

theorem badFr_crc (k : Nat) : (badFr k).crc.toNat ≠ frameCrc { badFr k with kind := .ofNat 4 k } := by
  have e : frameCrc { badFr k with kind := .ofNat 4 k } = frameCrc (fr0 k 1) := frameCrc_crc (fr0 k 1) _
  rw [e]
  unfold badFr
  rw [BitVec.toNat_ofNat]
  have := frameCrc_lt (fr0 k 1)
  generalize frameCrc (fr0 k 1) = c at *
  omega

theorem witness_bad_frame : (∀ k ∈ [2, 4], 2 ≤ (linkDev k).link 0 ∧ (linkDev k).link 0 ≤ 4) ∧
    ∀ j, (badFr j).lanes = [] ∧ (badFr j).fec = 0 ∧ (badFr j).crc.toNat ≠ frameCrc { badFr j with kind := .ofNat 4 j } :=
  ⟨by decide +kernel, fun j => ⟨rfl, rfl, badFr_crc j⟩⟩

theorem witness_good_frames : (∀ k ∈ [1, 0, 10, 2, 6, 7, 4, 9, 8], frameGood (linkDev 3) 0 (fr k (if k = 0 then 0 else 1)) k) ∧
    frameGood (linkDev 2 fun x => { x with step := 3 }) 0 (fr 5 1) 5 ∧ frameGood (linkDev 3) 0 (fr 1 16) 1 := by
  refine ⟨fun k hk => ?_, ?_, ?_⟩ <;> unfold frameGood
  · refine ⟨by decide +kernel, by decide +kernel, rfl, rfl, withCrc_crc _ _ rfl, rfl, ?_, fun _ => by revert k; decide +kernel, fun h => absurd h (by decide +kernel), by decide +kernel⟩
    revert k; decide +kernel
  all_goals exact ⟨by decide +kernel, by decide +kernel, rfl, rfl, withCrc_crc _ _ rfl, rfl, by decide +kernel, by decide +kernel, by decide +kernel,
    by decide +kernel⟩

theorem witness_data_frame : (linkDev 3).half (portHalf 0) < 6 ∧
    (linkDev 3 (fun x => { x with given := [16, 0, 0, 0, 0, 0, 0, 0] }) [(F.LNK_RATE_VC0, 0, 16)]).rate 0 0 ≠ 0 ∧
    (fr 1 16).units.toNat ≤ (linkDev 3 (fun x => { x with given := [16, 0, 0, 0, 0, 0, 0, 0] })).creditLeft 0 0 ∧ (fr 1 16).sched = false ∧ (fr 1 16 fun f => { f with sched := true }).sched = true ∧
    (((linkDev 3 id [(F.LNK_RATE_VC0, 0, 16)]).port 0).used[(fr 1 16).vc.toNat]?).getD 0 + (fr 1 16).units.toNat ≤
      (linkDev 3 id [(F.LNK_RATE_VC0, 0, 16)]).rate 0 (fr 1 16).vc.toNat ∧ (fr 1 16 fun f => { f with last := false }).last = false ∧
    bit ((linkDev 3 id [(F.TAL_SLOT_MASK_MASK, 0, 1)]).slotMask 0) 0 = true ∧ 16 ≤ (linkDev 3).slotUnits 0 ∧ ((linkDev 3).port 0).rx = [] := by
  decide +kernel

/-- A frame sent and not acknowledged. -/
def sentF (seq : Nat) : TxFrame := ⟨seq, 1, false, true, 0, 0, 0, 0, 0, 0, [0], 0⟩

theorem witness_other_frames : ((linkDev 3 fun x => { x with replay := [sentF 5] }).port 0).wait = [] ∧ (sentF 5).seq = (5#16).toNat ∧
    ((linkDev 3).port 0).quarLocal = false ∧ ((linkDev 3).port 0).halfRx = false ∧ ((linkDev 2 fun x => { x with step := 3 }).port 0).step = 3 ∧
    (linkDev 2).sec.revoked.contains 7 = false ∧ (linkDev 2).flag F.LNK_CTRL_SEAL_REQ = false ∧ (linkDev 2).neighbourOk 0 1 (facing 0) 7 = true ∧
    (linkDev 3).me = 0 ∧ 0x8000 ≤ (fr 8 1 fun f => { f with xfer := 0x8000 }).xfer.toNat ∧ fmGet (linkDev 3).fab.reqs 0 = none ∧
    ((linkDev 3 fun x => { x with child := true }).port 0).child = true ∧ (linkDev 3).isMaster = false ∧
    (linkDev 3 id [(F.TAL_STATUS_STATE, 0, 3)]).votes = true ∧ (linkDev 3).half (portHalf 0) ≠ 6 ∧
    (fr 4 1 fun f => { f with xfer := 9 }).xfer.toNat = (⟨65536 + 9, [], []⟩ : Wave).tick % 65536 ∧ (res 3 true false false).count ≠ 0 ∧
    ({ res 3 true false false with result := false } : VoteEntry).result = false := by decide +kernel

theorem witness_ports : (∀ k ∈ List.range 7, (linkDev k).link 0 = k) ∧ activeLanes 0 = 8 ∧
    2 * ((List.range 9).filter fun l => ((List.replicate 3 true)[l]?).getD false).length < 8 ∧
    8 ≤ 2 * ((List.range 9).filter fun l => ((List.replicate 4 true)[l]?).getD false).length ∧ (7#4).toNat < activeLanes 0 ∧
    (linkDev 3 id [(F.LNK_STATUS_SPARE_RX, 0, 15)]).fget F.LNK_STATUS_SPARE_RX = 15 ∧
    (linkDev 3).flag F.LNK_LANE_FAILED (8 * activeLanes 0) = false ∧ (linkDev 3 id [(F.LNK_STATUS_SPARE_RX, 0, 2)]).fget F.LNK_STATUS_SPARE_RX ≠ 15 ∧
    (linkDev 3).mayWrite .operator 0x7000010 = true ∧ (linkDev 3).mayWrite .claim 0x7000010 = false ∧ (sentF 5).sent < 7 ∧
    (linkDev 3 id [(F.LNK_STATUS_SEALED, 0, 1)]).flag F.LNK_STATUS_SEALED = true ∧ ((linkDev 3 fun x => { x with txInBatch := 1 }).port 0).txInBatch ≠ 0 ∧
    (linkDev 3).flag F.LNK_STATUS_SEALED = false ∧ (linkDev 3).inGuard = false ∧
    (linkDev 3 id [(F.TAL_PHASE_CYCLE, 0, (linkDev 3).cyclesPerTick / 4 - 32)]).inGuard = true ∧
    (linkDev 3 id [(F.TAL_PHASE_CYCLE, 0, (linkDev 3).cyclesPerTick / 4 - 33)]).inGuard = false ∧ ({ sentF 5 with sched := true } : TxFrame).sched = true := by decide +kernel

/-- R331: the wait doubles up to 64 s. -/
theorem test_backoff : ((after (.admissionTimeout 0) ⟨[], linkDev 1 fun x => { x with backoff := 32 }⟩).port 0).backoff = 64 ∧
    ((after (.admissionTimeout 0) ⟨[], linkDev 1 fun x => { x with backoff := 64 }⟩).port 0).backoff = 64 := by decide +kernel

/-- The check value of Table 15-2. -/
theorem test_crc64 : crc64 ([49, 50, 51, 52, 53, 54, 55, 56, 57] : List Byte) = 0x6C40DF5F0B497347 := by decide +kernel

/-- The port toward rank 1 of the own sheaf. -/
def sp : Nat := sheafPort 0 1

/-- A device of rank 0 whose port toward rank 1 is UP and has received a transfer on a virtual channel, with a window over the first MiB. -/
def targetDev (x : Xfer) (vc : Nat := 0) : Dev :=
  { dev [(F.LNK_STATUS_LINK, portAdd sp, 3), (F.LNK_STATUS_PARTNER, portAdd sp, 1), (F.FAB_CTRL_ORIGIN_LIMIT, 0, 4), (F.FAB_WIN_LEN_LEN, 0, 0x100000),
      (F.FAB_WIN_BASE_RD, 0, 1), (F.FAB_WIN_BASE_WR, 0, 1), (F.FAB_WIN_BASE_ATOM, 0, 1)] with
    ports := [(sp, { Port.init with
      rx := [⟨1, false, vc, 0, true, tok 0 0 (xferUnit x) :: x.rows.map fun r => tok (if r.2 then 4 else 0) 0 r.1⟩] })] }

/-- A request of rank 1. -/
def req (op : Nat) (len : Nat) (f : Xfer → Xfer := id) : Xfer := f { Xfer.blank with op := .ofNat 8 op, origin := 8192, addr := 4096, len := .ofNat 32 len }

theorem witness_remote : sp < 15 ∧ (∀ x ∈ [req 1 8, req 1 1024, req 2 8 fun x => { x with rows := [(7, false)] }, req 2 64 fun x => { x with rows := [(7, true)] },
      req 4 0, req 5 0, req 6 0, req 7 0], ((targetDev x).arrived sp x.op.toNat).map (·.2) = some x ∧ ((targetDev x).targetCheck sp x 3).1 = none) ∧
    ((targetDev (req 3 1 fun x => { x with flags := 4 })).targetCheck sp (req 3 1 fun x => { x with flags := 4 }) 0).1 = none ∧
    xferPull (req 3 1 fun x => { x with flags := 4 }) = true ∧ xferPull (req 3 1) = false ∧
    ((targetDev (req 3 1)).arrived sp 3).map (·.2) = some (req 3 1) ∧
    ((targetDev (req 1 8)).targetCheck sp (req 1 8) 4).1 = some stBusy ∧ (targetDev (req 1 8)).arrived sp 2 = none ∧
    ((targetDev (req 1 1088)).targetCheck sp (req 1 1088) 0).1 = some stBadFormat ∧ (targetDev (req 1 8)).isPoison 4096 = false := by decide +kernel

/-- R351: an ADD that would exceed 64 bits saturates; a CAS whose word differs writes it back. -/
theorem test_atomics : leNat (memBytes (after (.remoteAdd ⟨sp, by decide⟩ 0 .none) ⟨[], { targetDev (req 4 0 fun x => { x with operand := 2 }) with
      mem := memPutBytes [] 4096 (List.replicate 8 255) }⟩).mem 4096 8) = 2 ^ 64 - 1 ∧
    leNat (memBytes (after (.remoteCas ⟨sp, by decide⟩ 0 .none) ⟨[], { targetDev (req 7 0 fun x => { x with operand := 2, compare := 1 }) with
      mem := memPutBytes [] 4096 [5] }⟩).mem 4096 8) = 5 := by decide +kernel

/-- The image of a holder: a copy of one ingot of tensor 7 of device 8192, and the survival header with one parity group. -/
def holderPic : List Byte :=
  pic [(12, 255, 2, blob 64 [(8, le 1 2), (10, [1]), (16, le 0x40000 8)] ++
    blob 64 [(0, [2]), (2, le 8192 2), (4, le 7 2), (8, le 0x10000 8), (16, le 0x20000 8), (24, le 1 4)])]
def holderDev (x : Xfer) : Dev :=
  { targetDev x 1 with img0 := some { bytes := holderPic, bufB := false, cur := 0, epoch := false, prev := 0, tag := 0 } }

/-- An escrow transfer of tensor `t`, or parity traffic (bit 63; whole units: bit 62). -/
def esc (t addr : Nat) (f : Xfer → Xfer := id) : Xfer := req 3 1 fun x => f { x with operand := .ofNat 64 t, addr := .ofNat 48 addr }

theorem witness_escrow : (∀ x ∈ [esc 7 0, esc 7 4096, esc 7 0 fun x => { x with flags := 4 }, esc 9 0], ((holderDev x).arrived sp 3 true).map (·.2) = some x ∧
      bit x.operand.toNat 63 = false ∧ ((holderDev x).formCheck sp x false 0).1 = none ∧ ((holderDev x).formCheck sp x false 4).1 = some stBusy) ∧
    (holderDev (esc 9 0)).escrowItem sp (esc 9 0) = none ∧
    (((holderDev (esc 7 0)).escrowItem sp (esc 7 0)).map fun i => ((holderDev (esc 7 0)).slotAddr i true, hiHeader i, hiIngots i)) =
      some (0x20000, 8192, 1) ∧
    ((esc 7 0).tenant.toNat = (holderDev (esc 7 0)).tagOf (portHalf sp)) ∧ 4096 * 1 < 4096 + 4096 ∧ (holderDev (esc 7 0)).arrived sp 3 = none := by
  decide +kernel

/-- The owner's word to its holders: bit 61 tells to adopt, bit 60 to drop. -/
theorem witness_told : ∀ b ∈ [60, 61], ∀ x, x = esc (2 ^ b) 0 → ((holderDev x).arrived sp 3 true).map (·.2) = some x ∧ bit x.operand.toNat 63 = false ∧
    bit x.operand.toNat b = true ∧ ((holderDev x).originCheck sp x (portHalf sp)).1 = none ∧ x.tenant.toNat = (holderDev x).tagOf (portHalf sp) ∧
    (((survItems ((holderDev x).imageBytes (portHalf sp)) 2).filter fun i => hiTensor i != 0xFFFF && hiOwner i == x.origin.toNat).length = 1) := by
  intro b hb x hx
  subst hx
  revert b
  decide +kernel

/-- Parity traffic of 64 rows for stripe 0. -/
def par (whole : Bool) : Xfer := esc (2 ^ 63 + if whole then 2 ^ 62 else 0) 0 fun x => { x with rows := List.replicate 64 (1, false) }

theorem witness_parity : (∀ w ∈ [false, true], ((holderDev (par w)).arrived sp 3 true).map (·.2) = some (par w) ∧ bit (par w).operand.toNat 63 = true ∧
      bit (par w).operand.toNat 62 = w ∧ (par w).rows.length = 64 ∧ ((holderDev (par w)).formCheck sp (par w) (portHalf sp) 0).1 = none) ∧
    ((survHdr ((holderDev (par false)).imageBytes (portHalf sp))).map shGroups) = some 1 ∧ rankOf (par false).origin.toNat ≠ rankOf (holderDev (par false)).me := by
  decide +kernel

/-! ## Streams between devices, answers, vote waves, recovery -/

/-- SCHEDULE items: a scheduled send stream to rank 1 on its port, its slot at ticks 50, 60, …; a receive stream with an operation on arrival
(bounded: to a ring of one transfer at 4,096; 2: joined to layer 0's reduced shard), its completion queue 0 of tile 0. -/
def sched (opx : Nat) : Nat × Nat × Nat × List Byte :=
  (11, 255, 3, blob 32 [(2, le 1 2), (4, le 8192 2), (7, [BitVec.ofNat 8 sp]), (8, le 1 2), (10, [1])] ++
    blob 32 [(0, [1, 0]), (2, [BitVec.ofNat 8 sp]), (4, le 1 2), (8, le 50 4), (12, le 10 4), (16, le 5 4)] ++
    blob 32 [(1, [1]), (2, le 2 2), (4, le 8192 2), (8, le 1 2), (10, [1]), (11, [BitVec.ofNat 8 opx]), (12, [1]), (18, le 4096 6)])

/-- A running device with those streams, its attempt started 50 ticks ago; the send stream, transfers received on its port. -/
def streamDev (opx : Nat) (x : SendS) (rx : List RxXfer) (rs : List (Fld × Nat × Nat) := []) : Dev :=
  { stepDev 4 [sched opx] (some (att [])) 4 0
      ([(F.LNK_STATUS_LINK, portAdd sp, 3), (F.LNK_STATUS_PARTNER, portAdd sp, 1), (F.LNK_PARTNER_FABRIC_ID, portAdd sp, 8192)] ++ rs) with
    ports := [(sp, { Port.init with rx := rx })]
    queues := [(qKey 0 0, { Queue.init with depth := 2 })]
    fab := { FabS.init with sends := [(8192 * 65536 + 1, x)] } }

/-- Transfer 0 of the send stream. -/
def xf0 : StreamXf := ⟨0, none, [(7, false)], ⟨0, 0, 0⟩⟩

/-- The stream and the transfer index that slot 0 of that port finds. -/
def slotOf (d : Dev) : Option (Nat × Nat) :=
  (d.attemptTick false).bind fun a => ((d.schedItems false).zipIdx.find? fun i => slotItemNow sp 0 a i.1).bind
    fun si => ((d.schedItems false).find? fun i => isStreamItem 0 i && siSched i && siXfer i == leAt si.1 4 2 && leAt i 7 1 == sp).map fun it =>
      (siKey it, slotIndex (d.schedItems false).zipIdx si a)

/-- A pass of replay count `n`, and a receive stream that holds a buffer of replay count 1. -/
def pass0 (n : Nat) : PassId := ⟨0, 2, n⟩
def replayed (d : Dev) (next : Nat) : Dev :=
  { d with fab := { d.fab with recvs := [(8192 * 65536 + 2, { RecvS.init with next := next, bufs := [(2, (0, 1, next))] })] } }

theorem witness_scheduled_slot : (streamDev 0 SendS.init []).fget F.TAL_PHASE_CYCLE = 0 ∧ (dev [(F.TAL_PHASE_CYCLE, 0, 1)]).fget F.TAL_PHASE_CYCLE ≠ 0 ∧
    slotOf (streamDev 0 SendS.init []) = some (8192 * 65536 + 1, 0) ∧
    (streamDev 0 { SendS.init with ready := [xf0], next := 1 } []).sendS (8192 * 65536 + 1) = { SendS.init with ready := [xf0], next := 1 } ∧
    (({ SendS.init with ready := [xf0] } : SendS).mayStart ((streamDev 0 SendS.init []).schedItems false).head! 0) = true ∧
    (streamDev 0 SendS.init [] [(F.TAL_STATUS_SCHED_EN, 0, 1), (F.LNK_STATUS_SCHED_OK, portAdd sp, 1)]).schedEn = true ∧
    (streamDev 0 SendS.init [] [(F.LNK_STATUS_SCHED_OK, portAdd sp, 1)]).flag F.LNK_STATUS_SCHED_OK (portAdd sp) = true ∧
    (streamDev 0 SendS.init []).schedEn = false ∧ ((streamDev 0 SendS.init []).route 8192 none).port = some sp ∧ SendS.init.ready = [] ∧ SendS.init.next ≤ 0 ∧
    (dev []).attemptTick false = none := by decide +kernel

theorem witness_release : ({ SendS.init with sent := [xf0] } : SendS).released = 0 ∧ (xf0 ∈ ({ SendS.init with sent := [xf0] } : SendS).sent) ∧ xf0.idx = 0 ∧
    (1 ≠ SendS.init.released) := by decide +kernel

/-- A transfer of one row of the receive stream: by the scheduled plane, or bounded with its index and a MARK or none. -/
def schedIn (xfer : Nat) : RxXfer := ⟨xfer, true, 0, 0, true, [tok 0 0 1]⟩
def boundIn (xfer : Nat) (mark : Bool) : RxXfer :=
  ⟨xfer, false, 0, 0, true, tok 0 0 (xferUnit { Xfer.blank with origin := 8192, flags := if mark then 1 else 0 }) :: (if mark then [] else [tok 0 0 1])⟩

/-- The same schedule with a further stream, of rank 2 of the sheaf, joined to layer 0's shard. -/
theorem witness_sheaf : (stepDev 4 [(11, 255, 4, (sched 2).2.2.2 ++ blob 32 [(1, [1]), (2, le 3 2), (4, le 16384 2), (11, [2])])] none 4).sheafRanks false 0 = [1, 2] ∧
    (streamDev 2 SendS.init []).inSheaf 8192 = true ∧ (streamDev 2 SendS.init []).inSheaf 1 = false ∧
    fmGet (fmSet ([] : FMap (List (Option Nat))) 1 []) 2 = none := by decide +kernel

theorem witness_replays : (replayed (streamDev 0 SendS.init [schedIn 2]) 0).staleReplay (((streamDev 0 SendS.init [schedIn 2]).recvItem sp 8192 2).getD []) (pass0 0) = true ∧
    (replayed (streamDev 0 SendS.init [schedIn 2]) 0).staleReplay (((streamDev 0 SendS.init [schedIn 2]).recvItem sp 8192 2).getD []) (pass0 1) = false ∧
    (((replayed (streamDev 0 SendS.init [schedIn 2]) 1).streamIn sp 0).map fun y =>
      (replayed (streamDev 0 SendS.init [schedIn 2]) 1).deliveredAlready (((streamDev 0 SendS.init [schedIn 2]).recvItem sp 8192 2).getD []) y.2.2 (pass0 1)) = some true ∧
    (((streamDev 0 SendS.init [schedIn 2]).streamIn sp 0).map fun y =>
      (streamDev 0 SendS.init [schedIn 2]).deliveredAlready (((streamDev 0 SendS.init [schedIn 2]).recvItem sp 8192 2).getD []) y.2.2 (pass0 0)) = some false := by
  decide +kernel

theorem witness_stream_transfer : (∀ o ∈ [0, 1, 2], ((streamDev o SendS.init [schedIn 2]).streamIn sp 0).map (fun y => (y.1.sched, y.2.2.idx, y.2.2.mark)) =
      some (true, 0, none) ∧ ((streamDev o SendS.init [schedIn 2]).recvItem sp 8192 2).map (fun i => (leAt i 11 1, siRing i 0 % 64)) = some (o, 0)) ∧
    (∀ m ∈ [false, true], ((streamDev 0 SendS.init [boundIn 2 m]).streamIn sp 0).map (fun y => (y.1.sched, y.2.2.mark.isSome)) = some (false, m) ∧
      (((streamDev 0 SendS.init [boundIn 2 m]).streamIn sp 0).map fun y => ((streamDev 0 SendS.init [boundIn 2 m]).originCheck sp y.2.1 (portHalf sp)).1) =
        some none) ∧
    (streamDev 0 SendS.init [schedIn 9]).recvItem sp 8192 9 = none ∧ (streamDev 0 SendS.init []).half (portHalf sp) = 4 ∧
    (stepDev 3 [sched 0] none 4).half (portHalf sp) ≠ 4 ∧ ((streamDev 0 SendS.init []).recvS (8192 * 65536 + 2)).held = [] ∧
    ((streamDev 0 SendS.init []).queue 0 0).tokens.length < ((streamDev 0 SendS.init []).queue 0 0).depth ∧ (streamDev 0 SendS.init []).streamIn sp 0 = none := by
  decide +kernel

/-- R358: a bounded transfer's row is written to the ring and its completion token enters the queue. -/
theorem test_stream_row : memBytes (after (.streamTransfer ⟨sp, by decide⟩ 0 (pass0 0) []) ⟨[], streamDev 0 SendS.init [schedIn 2]⟩).mem 4096 2 = [1, 0] ∧
    (((after (.streamTransfer ⟨sp, by decide⟩ 0 (pass0 0) []) ⟨[], streamDev 0 SendS.init [schedIn 2]⟩).queue 0 0).tokens.map (·.kind)) = [0#3] := by decide +kernel

/-- A dynamic request held, and its RESPONSE with a status. -/
def held (u : ReqUse) (h : Bool) : Req := ⟨req 1 64 fun x => { x with target := 8192 }, u, 0, h⟩
def answered (st : Nat) (u : ReqUse) (reqs : Bool) : Dev :=
  { targetDev (req 8 0 fun x => { x with status := .ofNat 8 st, index := 5 }) with
    ports := [(sp, { Port.init with
      rx := [⟨0x8005, false, 0, 0, true, [tok 0 0 (xferUnit (req 8 0 fun x => { x with status := .ofNat 8 st, index := 5 }))]⟩] })]
    fab := { FabS.init with reqs := if reqs then [(5, held u false)] else [] } }

theorem witness_response : (∀ st ∈ [stOk, stBusy, stTimeout, stPartnerAbsent], ∀ u ∈ [ReqUse.unit 0 0, .copy false 0, .escrow 7],
      (((answered st u true).arrived sp 8).or ((answered st u true).arrived sp 8 true)).map (fun y => (y.1.xfer, y.2.index.toNat, y.2.status.toNat)) =
        some (0x8005, 5, st) ∧ fmGet (answered st u true).fab.reqs 5 = some (held u false) ∧ isStream u = false) ∧
    fmGet (answered stOk (.escrow 7) false).fab.reqs 5 = none ∧ ((answered stOk (.escrow 7) true).route 8192 none).detour = false ∧
    (dev [(F.FAB_CTRL_RETRIES, 0, 1)]).fget F.FAB_CTRL_RETRIES = 1 ∧ (dev [(F.FAB_CTRL_RETRIES, 0, 0)]).fget F.FAB_CTRL_RETRIES ≤ (held (.escrow 7) false).tries := by
  decide +kernel

theorem witness_timeouts : (dev [(F.FAB_CTRL_RTIMEOUT, 0, 1)]).fget F.FAB_CTRL_RTIMEOUT ≠ 0 ∧ (dev [(F.FAB_CTRL_RTIMEOUT, 0, 0)]).fget F.FAB_CTRL_RTIMEOUT = 0 ∧
    isStream (.stream (8192 * 65536 + 1) 0) = true ∧ (held (.stream (8192 * 65536 + 1) 0) true).held = true ∧
    ((targetDev (req 1 8)).route (held (.escrow 7) true).x.target.toNat none).port = some sp := by decide +kernel

/-- A device in a lock state with contributions waiting and a wave. -/
def waveDev (st : Nat) (m : Nat) (vs os : List VoteEntry) (ws : List Wave) : Dev :=
  { dev [(F.TAL_STATUS_STATE, 0, st), (F.TAL_STATUS_MASTER, 0, m), (F.TAL_STATUS_PARENT, 0, 14)] with fab := { FabS.init with votes := vs, opens := os, waves := ws } }
def vote1 (n size : Nat) : VoteEntry := ⟨0, 5, .ofNat 24 n, .ofNat 24 size, true, false, false, false, 0⟩

theorem witness_vote_wave : (∀ st ∈ [3, 4], (waveDev st 0 [vote1 1 2] [] []).lockState = st ∧ (waveDev st 0 [vote1 1 2] [] []).isMaster = false ∧
      (waveDev st 1 [vote1 1 2] [vote1 1 2] []).isMaster = true) ∧ (waveDev 2 0 [] [] []).lockState ≠ 3 ∧
    (waveDev 3 0 [] [] [⟨7, [vote1 1 2], []⟩]).fget F.TAL_STATUS_PARENT < 15 ∧
    ((waveDev 3 0 [] [] [⟨7, [vote1 1 2], []⟩]).fab.waves.find? (waveDev 3 0 [] [] [⟨7, [vote1 1 2], []⟩]).waveDue).isSome = true ∧ (waveDev 3 0 [] [] []).votes = true ∧
    (waveDev 3 0 [] [] []).isMaster = false ∧ (waveDev 3 0 [] [] []).children = [] ∧
    (waveDev 3 0 [] [] []).half (portHalf 14) ≠ 6 := by decide +kernel

/-- R363: at the master a vote completes when COUNT reaches SIZE. -/
theorem test_vote_completes : ((after .voteWave ⟨[], waveDev 3 1 [vote1 1 2] [vote1 1 2] []⟩).fab.results.map fun v => (v.result, v.count)) = [(true, 2#24)] ∧
    (after .voteWave ⟨[], waveDev 3 1 [vote1 1 3] [vote1 1 3] []⟩).fab.results = [] := by decide +kernel

/-- A master with a recovery under way at a step, one device lost. -/
def recDev (step : Nat) : Dev := { waveDev 3 1 [] [] [] with srv := { SrvS.init with recovery := some ⟨step, [5], 0, 9⟩ } }

/-- A FABRIC section whose neighbour on port 0 is a fabric ID, or expected absent. -/
def nbr (id absent : Nat) : Nat × Nat × Nat × List Byte := (10, 255, 1, blob 128 [(0, le 1 2 ++ le 1 2 ++ le 1 2 ++ le 1 2), (12, le id 2), (14, le absent 1)])

theorem witness_loss : (stepDev 4 [nbr 9 0] none 4).partner 0 = 0 ∧ (stepDev 4 [nbr 9 0] none 4).neighbour 0 = some (9, false) ∧
    (stepDev 4 [nbr 9 1] none 4).neighbour 0 = some (9, true) ∧ (stepDev 4 [nbr 9 0] none 4 0 [(F.LNK_STATUS_PARTNER, 0, 4), (F.LNK_PARTNER_STATE, 0, 7)]).partner 0 = 4 ∧
    (waveDev 3 1 [] [] []).isMaster = true ∧ (waveDev 3 1 [] [] []).srv.recovery = none ∧ (recDev 1).srv.recovery = some ⟨1, [5], 0, 9⟩ ∧
    6 % 8192 ≠ 5 % 8192 ∧ (5 + 8192) % 8192 = 5 % 8192 ∧ (5 + 8192) ∉ [5] := by decide +kernel

theorem witness_recovery_step : (∀ n ∈ [2, 4, 8, 9], ((recDev n).srv.recovery.map (·.step)) = some n) ∧ (0#8).toNat = stOk ∧ (1#8).toNat ≠ stOk ∧
    (([7, 7] : List Nat).head? = some 7 ∧ ∀ x ∈ [7, 7], x = 7) ∧ (∃ x ∈ [7, 8], ∃ y ∈ [7, 8], x ≠ y) := by decide +kernel

/-- Table 15-3: step 2 with headers that differ ends the recovery. -/
theorem test_recovery_ends : (after (.recoveryStep 0 [7, 8]) ⟨[], recDev 2⟩).srv.recovery = none ∧
    ((after (.recoveryStep 0 [7, 7]) ⟨[], recDev 2⟩).srv.recovery.map fun r => (r.step, r.resume)) = some (3, 7) := by decide +kernel

/-! ## Recovery on a job device, copies, profiles, sites, licences, tenancy, winnows -/

/-- An order that says nothing. -/
def order0 : Order := ⟨0, [], false, [], 0, none, [], [], []⟩

/-- A paused job device with a recovery under way or not, at RECOVER of step `n`. -/
def jobDev (n step : Nat) (hold : Bool) : Dev :=
  let d := stepDev 5 [steps false, survive] none 0x20 (rowAtByte 24 [n]) [(F.DEV_SRV_STATUS_STEP, 0, step)]
  { d with step0 := { d.step0 with hold := hold } }

/-- The state ingot of N = 3, and a tensor's only ingot. -/
def stIngot : List Byte := le 3 8 ++ List.replicate 4088 0
def whole1 (step : Nat) (w : List Nat) : Restore := ⟨7, some ⟨2, step, w, [List.replicate 4096 1#8]⟩, none, [], [], none, none⟩

/-- No holder of tensor 7 is left. -/
def none7 : Restore := ⟨7, none, none, [], [], none, none⟩

/-- The declaration of tensor 7 in a job device's image. -/
def item7 : List Byte := (tensorItem ((jobDev 6 1 true).imageBytes false) 7).getD []

theorem witness_recover_starts : (∀ n ∈ [1, 2, 4, 5, 6, 7, 8, 9], starts (jobDev n 1 true) 0x20 (rowAtByte 24 [n]) = true ∧
      (entryOf 0 1 0x20 (rowAtByte 24 [n])).arg 24 1 = n ∧ ((jobDev n 1 true).stepc false).run = none ∧ (jobDev n 1 true).half false = 5) ∧
    starts (jobDev 1 0 false) 0x20 (rowAtByte 24 [1]) = true ∧ ((jobDev 1 0 false).stepc false).hold = false := by decide +kernel

theorem witness_recover_failed : ({ order0 with failed := 1 } : Order).failed ≠ 0 ∧ order0.failed = 0 ∧ (jobDev 1 0 false).recovering false = false ∧
    (jobDev 1 3 true).recovering false = true ∧ ((jobDev 1 3 true).stepc false).hold = true := by decide +kernel

/-- The same device with an attempt that ended SEAL_UNKNOWN in its ledger. -/
def lateDev : Dev :=
  let d := jobDev 2 1 true
  let x : Entry := { entryOf 1 4 0xF0 0 with source := 4, status := stTimeout, flags := 1 }
  { d with led0 := { d.led0 with ring := [(0, entryOf 0 1 0x20 (rowAtByte 24 [2])), (1, x)], head := 1, mirror := [(0, entryOf 0 1 0x20 (rowAtByte 24 [2])), (1, x)] } }

theorem witness_late_seal : starts lateDev 0x20 (rowAtByte 24 [2]) = true ∧ ({ order0 with sealed := true } : Order).owners = [] ∧
    ((lateDev.led false).lastAttempt.map fun x => (x.seq, x.state, x.status)) = some (1, 4, stTimeout) ∧
    (lateDev.led false).lastAttempt = lateDev.entry false 1 ∧
    ((lateDev.led false).lastAttempt.map fun x => (bit x.flags 0, bit x.flags 2)) = some (true, false) := by decide +kernel

theorem witness_restore : (jobDev 6 1 true).stepNum false ≤ ({ order0 with state := [stIngot], resume := 3 } : Order).resume ∧
    ((jobDev 6 1 true).stateOf false { order0 with state := [stIngot] }).isSome = true ∧
    tensorItem ((jobDev 6 1 true).imageBytes false) (7#16).toNat = some item7 ∧ tiIngots item7 = 1 ∧ tiEscrow item7 = true ∧
    (restoreSource (whole1 0 []) item7).map (fun c => (c.digests, c.step)) = some ([], some 0) ∧ restoreSource none7 item7 = none ∧
    (whole1 0 []).replica = none ∧ (fmGet (jobDev 7 1 true).srv.digests (7#16).toNat).getD [] = [] ∧
    ((restoreSource (whole1 9 []) item7).bind (·.step)) = some 9 ∧ (9 : Nat) ≠ order0.resume ∧ 0 = order0.resume ∧
    tiEscrow (List.replicate 64 1#8) = false ∧ tiIngots (0#8 :: 1#8 :: List.replicate 62 0#8) = 0 ∧
    (List.replicate 7 ([] : List (List Byte))).all (wholeData 0) = true ∧
    (survHdr ((jobDev 8 1 true).imageBytes false)).isSome = true ∧ (List.replicate 4096 1#8).length = 4096 := by
  decide +kernel

/-- Digests of another number of ingots never agree. -/
theorem witness_digests (w : List Nat) (g : List Byte) (h : w = [1, 2]) : w ≠ [] ∧ [g].map crc64 ≠ w := by simp [h]

/-- Table 15-3 step 6: N is the state ingot's. -/
theorem test_restore_step : (after (.recover false 0 { order0 with state := [stIngot], resume := 3 }) ⟨[], jobDev 6 1 true⟩).fget F.DEV_STEP_NUM_N = 3 := by
  decide +kernel

/-- A descriptor whose bytes from 24 on are given, and a device in state `st` whose ledger holds that command. -/
def args (b : List Byte) : Row := rowOf (List.replicate 24 0#8 ++ b)
def cmdDev (st op : Nat) (b : List Byte) (rs : List (Fld × Nat × Nat) := []) : Dev := stepDev st [] none op (args b) rs

/-- COPY between global addresses. -/
def copyB (src dst n : Nat) : List Byte := le src 8 ++ le dst 8 ++ le n 4
def copyDev (src dst n : Nat) (partner : Nat) : Dev :=
  cmdDev 3 9 (copyB src dst n) [(F.DEV_FABRIC_VALID, 0, 1), (F.LNK_STATUS_LINK, portAdd sp, 3), (F.LNK_STATUS_PARTNER, portAdd sp, partner),
    (F.LNK_PARTNER_FABRIC_ID, portAdd sp, 8192)]

/-- The global address of byte `a` of fabric ID 8,192. -/
def far (a : Nat) : Nat := 8192 * 2 ^ 48 + a

theorem witness_copy : (∀ p ∈ [(0, 64, 0), (0, 4096, 1), (0, far 64, 1), (far 64, 0, 1)],
      starts (copyDev p.1 p.2.1 p.2.2 1) 9 (args (copyB p.1 p.2.1 p.2.2)) = true ∧ (entryOf 0 1 9 (args (copyB p.1 p.2.1 p.2.2))).arg 24 8 = p.1 ∧
      (entryOf 0 1 9 (args (copyB p.1 p.2.1 p.2.2))).arg 32 8 = p.2.1 ∧ (entryOf 0 1 9 (args (copyB p.1 p.2.1 p.2.2))).arg 40 4 = p.2.2) ∧
    (copyDev 0 4096 1 1).isLocal 0 = true ∧ (copyDev 0 4096 1 1).isLocal 4096 = true ∧ bits 4096 0 48 % 64 = 0 ∧
    (copyDev 0 (far 64) 1 1).isLocal (far 64) = false ∧ bits (far 64) 48 16 = 8192 ∧ bits (far 64) 0 48 = 64 ∧
    (copyDev 0 (far 64) 1 1).fab.nextTag < 2 ^ 32 ∧ ((copyDev 0 (far 64) 1 1).route 8192 none).port = some sp ∧
    ((copyDev 0 (far 64) 1 1).route 8192 none).detour = false ∧ ((copyDev 0 (far 64) 1 0).route 8192 none).port = none ∧
    ((copyDev 0 (far 64) 1 0).route 8192 none).detour = false := by decide +kernel

theorem witness_profile : (∀ k ∈ [0, 1, 2], starts (cmdDev 2 0x10 (le k 1)) 0x10 (args (le k 1)) = true ∧ (entryOf 0 1 0x10 (args (le k 1))).arg 24 1 = k) ∧
    (dev []).pw.profile = 1 ∧ (dev []).coreRails ≠ [] ∧ (dev []).pw.relock = none ∧ ({ (dev []).pw with relock := some 2 } : PowerS).relock = some 2 ∧
    false ∈ (cmdDev 2 0x10 [0]).ledgers ∧ (withEntry (dev []) (entryOf 0 2 0x10 (args [0]))).entry false 0 = some (entryOf 0 2 0x10 (args [0])) := by
  decide +kernel

theorem witness_site : (∀ t ∈ [0, 1], starts (cmdDev 2 0x15 ([0] ++ le t 1)) 0x15 (args ([0] ++ le t 1)) = true ∧
      (entryOf 0 1 0x15 (args ([0] ++ le t 1))).arg 25 1 = t ∧ (cmdDev 2 0x15 ([0] ++ le t 1)).resetRuns false (entryOf 0 1 0x15 (args ([0] ++ le t 1))) = false ∧
      (cmdDev 6 0x15 ([0] ++ le t 1)).resetRuns false (entryOf 0 1 0x15 (args ([0] ++ le t 1))) = true ∧
      starts (cmdDev 6 0x15 ([0] ++ le t 1)) 0x15 (args ([0] ++ le t 1)) = true) ∧
    (withEntry (dev []) (entryOf 0 2 0x15 (args [0, 1]))).entry false (0#64).toNat = some (entryOf 0 2 0x15 (args [0, 1])) := by decide +kernel

theorem witness_quote : starts (cmdDev 2 0x17 (le 64 8)) 0x17 (args (le 64 8)) = true := by decide +kernel

/-- A device in IDLE whose staging registers hold bytes, at LICENCE of `len` bytes. -/
def licDev (kind len : Nat) (b : List Byte) : Dev :=
  cmdDev 2 0x16 (le kind 1 ++ [0, 0, 0] ++ le len 4) ((List.range ((b.length + 7) / 8)).map fun k => (F.SEC_STAGE_DATA, 8 * k, leAt b (8 * k) 8))

/-- A licence of LIC_SEQ 1, and a claim blob with key roots of one byte. -/
def licB : List Byte := blob 160 [(0, le 0x43494C4B 4 ++ [1]), (16, le 1 4)]
def claimB : List Byte := blob 354 [(0, le 0x56504B5A 4 ++ [1]), (16, le 1 8), (208, le 1 2 ++ le 1 2)]

theorem witness_licence : starts (licDev 0 160 licB) 0x16 (args ([0, 0, 0, 0] ++ le 160 4)) = true ∧
    (entryOf 0 1 0x16 (args ([0, 0, 0, 0] ++ le 160 4))).arg 24 1 = 0 ∧ (entryOf 0 1 0x16 (args ([0, 0, 0, 0] ++ le 160 4))).arg 28 4 = 160 ∧
    (licDev 0 160 licB).licenceCheck ((licDev 0 160 licB).stageBytes 160) 160 true = none ∧
    (licDev 0 160 licB).licenceCheck ((licDev 0 160 licB).stageBytes 160) 160 false = some stAuthFailed ∧
    starts (licDev 1 354 claimB) 0x16 (args ([1, 0, 0, 0] ++ le 354 4)) = true ∧ (entryOf 0 1 0x16 (args ([1, 0, 0, 0] ++ le 354 4))).arg 24 1 = 1 ∧
    (licDev 1 354 claimB).blobCheck ((licDev 1 354 claimB).stageBytes 354) 354 true = none ∧
    (licDev 1 354 claimB).blobCheck ((licDev 1 354 claimB).stageBytes 354) 354 false = some stAuthFailed := by decide +kernel

/-- R441: the licence is counted and its feature shows. -/
theorem test_licence : (after (.licenceInstall false 0 true) ⟨[], licDev 0 160 licB⟩).fget F.SEC_LIC_COUNT = 1 ∧
    (after (.licenceInstall false 0 true) ⟨[], licDev 0 160 licB⟩).fget F.SEC_LIC_FEATURES = 1 := by decide +kernel

/-- TENANT's bytes: ACTION, SCOPE, TAG. -/
def tenB (a sc tag : Nat) : List Byte := le a 1 ++ le sc 1 ++ le tag 2

/-- A device at TENANT whose whole, or west half, is a tenant's with tag 7. -/
def ownDev (b : List Byte) (sc : Nat) : Dev :=
  cmdDev 2 0x11 b ([(F.SEC_STATUS_SCOPE_W, 0, 1), (F.SEC_STATUS_TAG_W, 0, 7)] ++ if sc = 0 then [(F.SEC_STATUS_SCOPE_E, 0, 1), (F.SEC_STATUS_TAG_E, 0, 7)] else [(F.SEC_STATUS_SPLIT, 0, 1)])

theorem witness_tenant : (∀ sc ∈ [0, 1, 2], starts (cmdDev 2 0x11 (tenB 0 sc 7)) 0x11 (args (tenB 0 sc 7)) = true ∧
      (cmdDev 2 0x11 (tenB 0 sc 7)).assignCheck (scopeOf sc) 7 = none ∧ (entryOf 0 1 0x11 (args (tenB 0 sc 7))).arg 26 2 = 7) ∧
    ((cmdDev 2 0x11 (tenB 0 0 7) [(F.SEC_STATUS_DEBUG_UNLOCKED, 0, 1)]).assignCheck .whole 7).isSome = true ∧
    (∀ sc ∈ [0, 1], starts (ownDev (tenB 1 sc 7) sc) 0x11 (args (tenB 1 sc 7)) = true) ∧ (entryOf 0 1 0x11 (args (tenB 1 0 7))).arg 24 1 = 1 ∧
    (∀ k ∈ scopeHalves .whole, (ownDev (tenB 1 0 7) 0).scopeState k = 1 ∧ (ownDev (tenB 1 0 7) 0).tagOf k = 7) ∧ (ownDev (tenB 1 0 7) 0).split = false ∧
    (ownDev (tenB 1 1 7) 1).split = true ∧ (∃ k ∈ scopeHalves .whole, (cmdDev 2 0x11 (tenB 1 0 7)).scopeState k ≠ 1) := by
  decide +kernel

/-- A device in WINNOW, or with a winnow running whose entry is STARTED. -/
def winDev2 (op : Nat) (b : List Byte) (deg : Nat) : Dev :=
  let d := { dev [(F.DEV_STATE_STATE_W, 0, 6), (F.DEV_STATE_STATE_E, 0, 6), (F.STK_STATUS_DEGRADED, stackAdd 0, deg), (F.SEC_STATUS_SCOPE_W, 0, 2)] with
    sec := { SecS.init with winnows := [(0, (0, 0))] } }
  withEntry d (entryOf 0 2 op (args b))

theorem witness_winnow : starts (cmdDev 3 0x12 [0]) 0x12 (args [0]) = true ∧ (∀ sc ∈ [Scope.whole, .west, .east], fmGet (dev []).sec.winnows (scopeNum sc) = none) ∧
    (∀ g ∈ [0, 1], fmGet (winDev2 0x12 [0] g).sec.winnows (scopeNum .whole) = some (0, 0) ∧ ((winDev2 0x12 [0] g).split && Scope.whole == .east) = false ∧
      (winDev2 0x12 [0] g).entry false 0 = some (entryOf 0 2 0x12 (args [0])) ∧ (winDev2 0x12 [0] g).degradedStack .whole = decide (g = 1)) ∧
    (entryOf 0 2 0x12 (args [0])).state < 3 := by decide +kernel

theorem witness_compute_reset : starts (cmdDev 3 0x13 [0]) 0x13 (args [0]) = true ∧ starts (cmdDev 6 0x13 [0]) 0x13 (args [0]) = true ∧
    scopeOf ((entryOf 0 1 0x13 (args [0])).arg 24 1) = .whole ∧ (cmdDev 6 0x13 [0]).half (scopeHalf .whole) = 6 ∧ (cmdDev 6 0x13 [0]).halfSub (scopeHalf .whole) = 0 ∧
    (cmdDev 3 0x13 [0]).half (scopeHalf .whole) ≠ 6 ∧ (cmdDev 6 0x13 [0]).split = false ∧ starts (cmdDev 3 0x14 []) 0x14 (args []) = true ∧
    (winDev2 0x13 [0] 0).entry false 0 = some (entryOf 0 2 0x13 (args [0])) ∧ fmGet ({ ((winDev2 0x13 [0] 0).led false) with slot := 1 } : Ledger).ring 1 = none := by decide +kernel

/-! ## Firmware updates -/

/-- A header whose five components lie at 64 KB, 128 KB, … with 28 bytes each (Tables 19-8, 19-9). -/
def hdr0 : List Byte :=
  blob 512 ([(0, le 0x50554B5A 4 ++ le 512 2 ++ le 9 2 ++ [0, 5]), (0x18, le (65536 * 5 + 28) 8)] ++
    (List.range 5).map fun i => (0x40 + 64 * i, le i 1 ++ [0, 0, 0, 0, 0, 0, 0] ++ le (65536 * (i + 1)) 4 ++ le 28 4))

/-- UPDATE_STAGE's bytes: SRC_KIND, PORT, source, length 512, forward mask, UPDATE_ID 5. -/
def stageB (k p : Nat) : List Byte := le k 1 ++ le p 1 ++ le 0 6 ++ le 0 8 ++ le 512 8 ++ le 0 4 ++ le 5 4
def stgDev (k : Nat) (rs : List (Fld × Nat × Nat) := []) : Dev := cmdDev 2 0x18 (stageB k sp) ([(F.LNK_STATUS_LINK, portAdd sp, 3)] ++ rs)

/-- Whether an update is staged, or a slot in TRIAL. -/
def busyUpd (d : Dev) : Bool := d.flag F.DEV_STATE_UPDATE_STAGED || d.slotMark false == 2 || d.slotMark true == 2

theorem witness_update_stage : (∀ k ∈ [0, 1, 2], starts (stgDev k) 0x18 (args (stageB k sp)) = true ∧ (entryOf 0 1 0x18 (args (stageB k sp))).arg 24 1 = k ∧
      (entryOf 0 1 0x18 (args (stageB k sp))).arg 25 1 < 15 ∧ (entryOf 0 1 0x18 (args (stageB k sp))).arg 52 4 = 5 ∧ busyUpd (stgDev k) = false) ∧
    (∀ p < 15, bit ((entryOf 0 1 0x18 (args (stageB 2 sp))).arg 48 2) p = true ∨ (2 = 2 ∧ p = (entryOf 0 1 0x18 (args (stageB 2 sp))).arg 25 1) → (stgDev 2).linkUp p = true) ∧
    busyUpd (stgDev 1 [(F.DEV_STATE_UPDATE_STAGED, 0, 1)]) = true ∧ (stgDev 1).boot.update = none ∧
    (stgDev 1).stageSource (entryOf 0 1 0x18 (args (stageB 1 sp))) (some hdr0) = some hdr0 ∧
    (stgDev 1).headerCheck (hdr0.take 512) true = none ∧ (stgDev 1).headerCheck (hdr0.take 512) false = some stAuthFailed ∧
    (stgDev 2 [(F.LNK_STATUS_LINK, portAdd sp, 0)]).linkUp sp = false ∧
    ({ stgDev 0 with poison := [(0, ())] } : Dev).anyPoison 0 512 = true := by decide +kernel

/-- R476: the image that passes its header's checks leads to the verify phase. -/
theorem test_stage : (after (.updateStage false 0 true (some hdr0) []) ⟨[], stgDev 1⟩).fget F.DEV_UPDATE_PHASE = 2 ∧
    (after (.updateStage false 0 false (some hdr0) []) ⟨[], stgDev 1⟩).fget F.DEV_UPDATE_LAST_STATUS = stAuthFailed := by decide +kernel

/-- An update in progress, its branch on port 0. -/
def upd1 (k held sent : Nat) (dead : Bool) (reps : FMap Nat := []) : UpdateS :=
  { id := 5, entryHalf := false, entrySeq := 9, srcKind := k, upPort := sp, down := [(0, ⟨0, held, [(0, sent)], dead⟩)], len := 65536 * 4, held, banksLoaded := false,
    coresDone := [], coreTries := [], reports := reps, staged := [1, 2] }
def updgDev (u : UpdateS) (slot : List Byte) (phase : Nat) (rs : List (Fld × Nat × Nat) := []) : Dev :=
  { dev ([(F.DEV_UPDATE_PHASE, 0, phase)] ++ rs) with boot := { BootS.init with update := some u, slotB := slot, runB := false } }

theorem witness_blocks : (updgDev (upd1 2 1 1 false) [] 1).boot.update = some (upd1 2 1 1 false) ∧ crc32c [1, 2] = (BitVec.ofNat 32 (crc32c [1, 2])).toNat ∧
    crc32c [1] ≠ (0#32).toNat ∧ 0 < (upd1 2 1 1 false).held ∧ (upd1 2 1 1 false).held = 1 ∧ ((updgDev (upd1 2 0 1 false) [] 1).headerCheck ([1, 2].take 512) true).isSome = true ∧
    fmGet (upd1 2 1 1 false).down (0 : PortId).val = some ⟨0, 1, [(0, 1)], false⟩ ∧ fmGet (upd1 2 1 1 false).down (1 : PortId).val = none ∧
    (upd1 2 1 1 false).held ≤ 1 ∧ fmGet ([(0, 8)] : FMap Nat) 0 = some 8 ∧ fmGet (upd1 2 1 1 true).down 0 = some ⟨0, 1, [(0, 1)], true⟩ ∧ (upd1 1 1 1 false).srcKind ≠ 2 := by
  decide +kernel

/-- A slot whose five payloads have right digests; the microcode is of `n` bytes. -/
def slot0 (n : Nat) : List Byte :=
  blob (512 + n) ((List.range 5).map fun i => (0x40 + 64 * i, le i 1 ++ le 0 7 ++ le 512 4 ++ le (if i = 2 then n else 0) 4 ++
    sha384 (if i = 2 then List.replicate n 0 else [])))

/-- Every digest of the manifest of a slot is right. -/
def allGood (b : List Byte) : Bool := (manifest b).all fun z => sha384 (bytesAt b (mfOff z) (mfLen z)) == bytesAt z 16 48

theorem witness_verify : allGood (slot0 92) = true ∧ allGood (slot0 0) = true ∧ allGood [] = false ∧ microMsgs (slot0 92) = 2 ∧ microMsgs (slot0 0) = 0 ∧
    (updgDev (upd1 1 4 1 false) (slot0 0) 2).otherSlot = slot0 0 ∧ (updgDev (upd1 1 4 1 false) (slot0 0) 2).fget F.DEV_UPDATE_PHASE = 2 := by decide +kernel

theorem witness_microcode : (updgDev (upd1 1 4 1 false) (slot0 92) 3).fget F.DEV_UPDATE_PHASE = 3 ∧
    (∀ h, (updgDev (upd1 1 4 1 false) (slot0 92) 3).half h ≠ 4 ∧ (updgDev (upd1 1 4 1 false) (slot0 92) 3).half h ≠ 5) ∧
    (7#9).toNat ∉ (upd1 1 4 1 false).coresDone ∧ ((updgDev (upd1 1 4 1 false) (slot0 92) 3).tile (7#9).toNat).micro.length = 0 ∧ 0 + 1 < microMsgs (slot0 92) ∧
    microMsgs (slot0 60) ≤ 0 + 1 ∧ (upd1 1 4 1 false).coresDone.length ≠ 511 ∧ (List.range 511).length = 511 ∧ (2047 + 1) % 2048 = 0 ∧
    (fmGet (upd1 1 4 1 false).coreTries 14).getD 0 + 1 < 3 ∧ 3 ≤ (fmGet ([(14, 2)] : FMap Nat) 14).getD 0 + 1 := by decide +kernel

/-- R480: the first message is stored, a gap has the block sent again. -/
theorem test_microcode : (fmGet ((after (.microcodeMessage 7 0 (List.replicate 32 9) true) ⟨[], updgDev (upd1 1 4 1 false) (slot0 92) 3⟩).tile 7).micro 0).isSome = true ∧
    ((after (.microcodeMessage 7 1 (List.replicate 32 9) true) ⟨[], updgDev (upd1 1 4 1 false) (slot0 92) 3⟩).boot.update.map (·.coreTries)) = some [(14, 1)] := by
  decide +kernel

theorem witness_reports : 1 ∈ (upd1 1 4 1 false).staged ∧ 3 ∉ (upd1 1 4 1 false).staged ∧ (∃ x ∈ (upd1 1 4 1 false).staged, x ≠ 1 ∧ fmGet (upd1 1 4 1 false).reports x ≠ some 1) ∧
    (∀ k ∈ [1, 3], ∀ x ∈ (upd1 1 4 1 false [(2, k)]).staged, x = 1 ∨ fmGet (upd1 1 4 1 false [(2, k)]).reports x = some k) ∧
    (∃ x ∈ (upd1 1 4 1 false).staged, fmGet (upd1 1 4 1 false).reports x = none) ∧
    (∀ x ∈ (upd1 1 4 1 false [(1, 3), (2, 3)]).staged, fmGet (upd1 1 4 1 false [(1, 3), (2, 3)]).reports x = some 3) ∧
    (updgDev (upd1 1 4 1 false) [] 5).fget F.DEV_UPDATE_PHASE = 5 ∧ (updgDev (upd1 1 4 1 false) [] 1).fget F.DEV_UPDATE_PHASE ≠ 5 ∧
    (∀ b ∈ [0, 1], (updgDev (upd1 1 4 1 false [(2, 1)]) [] 4 [(F.DEV_STATE_UPDATE_STAGED, 0, b)]).flag F.DEV_STATE_UPDATE_STAGED = (b == 1)) := by decide +kernel

/-- R482: the last COMPLETE has the commits sent; one before it does not. -/
theorem test_commit_orders : (after (.updateReport 1 1) ⟨[], updgDev (upd1 1 4 1 false [(2, 1)]) [] 4 [(F.DEV_STATE_UPDATE_STAGED, 0, 1)]⟩).out.length = 2 ∧
    (after (.updateReport 1 1) ⟨[], updgDev (upd1 1 4 1 false) [] 4⟩).out = [] := by decide +kernel

/-- A device at UPDATE_ACTIVATE of an action, UPDATE_ID 5. -/
def actDev (a id : Nat) (rs : List (Fld × Nat × Nat)) : Dev := cmdDev 2 0x19 (le a 1 ++ [0, 0, 0] ++ le id 4) ([(F.DEV_UPDATE_UPDATE_ID, 0, 5)] ++ rs)

theorem witness_activate : (∀ a ∈ [0, 1, 2, 3], ∀ id ∈ [5, 6], starts (actDev a id []) 0x19 (args (le a 1 ++ [0, 0, 0] ++ le id 4)) = true ∧
      (entryOf 0 1 0x19 (args (le a 1 ++ [0, 0, 0] ++ le id 4))).arg 24 1 = a ∧ (entryOf 0 1 0x19 (args (le a 1 ++ [0, 0, 0] ++ le id 4))).arg 28 4 = id) ∧
    (actDev 0 5 []).fget F.DEV_UPDATE_UPDATE_ID = 5 ∧ (actDev 0 5 [(F.DEV_STATE_UPDATE_STAGED, 0, 1)]).flag F.DEV_STATE_UPDATE_STAGED = true ∧
    (actDev 0 5 []).flag F.DEV_STATE_UPDATE_STAGED = false ∧ (∀ b, (actDev 2 5 []).slotMark b ≠ 2) ∧
    (actDev 2 5 [(F.DEV_SLOTS_SLOT_B, 0, 2)]).slotMark true = 2 ∧ (actDev 2 5 [(F.DEV_SLOTS_SLOT_A, 0, 2)]).slotMark false = 2 := by decide +kernel

/-- R483: a confirmed trial is ACTIVE and the slot before it OLD; a commit marks the staged slot TRIAL. -/
theorem test_confirm : (after (.updateConfirm false 0) ⟨[], actDev 2 5 [(F.DEV_SLOTS_SLOT_B, 0, 2), (F.DEV_SLOTS_SLOT_A, 0, 3)]⟩).slotMark true = 3 ∧
    (after (.updateConfirm false 0) ⟨[], actDev 2 5 [(F.DEV_SLOTS_SLOT_B, 0, 2), (F.DEV_SLOTS_SLOT_A, 0, 3)]⟩).slotMark false = 4 ∧
    (after (.updateCommit false 0) ⟨[], actDev 0 5 [(F.DEV_STATE_UPDATE_STAGED, 0, 1)]⟩).slotMark true = 2 := by decide +kernel

theorem witness_trial : (dev [(F.DEV_STATE_TRIAL, 0, 1)]).flag F.DEV_STATE_TRIAL = true ∧ (dev [(F.DEV_STATE_TRIAL, 0, 1), (F.MBX_STATUS_RUNNING, 0, 1)]).uhlea = true ∧
    (dev []).flag F.DEV_STATE_TRIAL = false := by decide +kernel

/-! ## Management sessions, unlocks, bound bundles -/

/-- A device on its management lane, with sessions. -/
def sesDev (ss : FMap Session) (rs : List (Fld × Nat × Nat) := []) : Dev :=
  { dev ([(F.MBX_STATUS_RUNNING, 0, 1), (F.MBX_STATUS_PORT_UP, 0, 1)] ++ rs) with mg := { MgmtS.init with sessions := ss } }

/-- Four operator sessions. -/
def four : FMap Session := (List.range 4).map fun k => (k, ⟨.operator, 1, 1, 0⟩)

theorem witness_session_open : (sesDev []).uhlea = true ∧ (sesDev []).flag F.MBX_STATUS_PORT_UP = true ∧ 7 ∉ (sesDev []).sec.addrRefused ∧ (sesDev []).powered = true ∧
    (sesDev [] [(F.MBX_STATUS_PORT_UP, 0, 0)]).flag F.MBX_STATUS_PORT_UP = false ∧ (dev []).uhlea = false ∧ (sesDev []).grantsRole .operator = false ∧
    (sesDev [] [(F.SEC_STATUS_CLAIMED, 0, 1)]).grantsRole .operator = true ∧ (sesDev four [(F.SEC_STATUS_CLAIMED, 0, 1)]).sessionsFull .operator = true ∧
    (sesDev [] [(F.SEC_STATUS_CLAIMED, 0, 1)]).sessionsFull .operator = false ∧ (∃ k < 16, fmGet (sesDev []).mg.sessions k = none) ∧
    ([] ++ [(sesDev []).now]).length < 8 ∧ 8 ≤ (List.replicate 7 (sesDev []).now ++ [(sesDev []).now]).length := by decide +kernel

/-- R432: the eighth failed handshake has the address refused; the seventh does not. -/
theorem test_refusal : (after (.sessionOpen 7 none) ⟨[], { sesDev [] with sec := { SecS.init with addrFails := [(7, List.replicate 7 0)] } }⟩).sec.addrRefused = [7] ∧
    (after (.sessionOpen 7 none) ⟨[], { sesDev [] with sec := { SecS.init with addrFails := [(7, List.replicate 6 0)] } }⟩).sec.addrRefused = [] := by decide +kernel

/-- A message header. -/
def hdrM (good : Bool) (seq len : Nat) (rsv : Bool) : MsgHdr := ⟨good, .ofNat 64 seq, 7, len, rsv⟩

theorem witness_messages : fmGet (sesDev four).mg.sessions 3 = some ⟨.operator, 1, 1, 0⟩ ∧ fmGet (sesDev four).mg.sessions 9 = none ∧
    (hdrM false 1 0 false).good = false ∧ (hdrM true 2 0 false).seq.toNat ≠ 1 ∧ (hdrM true 1 8 false).seq.toNat = 1 ∧ 65504 < (hdrM true 1 65505 false).len ∧
    (hdrM true 1 65504 true).len ≤ 65504 ∧ (hdrM true 1 8 true).rsv = true ∧ operatorRole (.tenant .whole) = false ∧ anyRole .operator = true ∧ bothRoles .operator = true ∧
    operatorRole .operator = true ∧ (sesDev [] [(F.SEC_STATUS_PROF_UNLOCKED, 0, 1)]).profOpen = true := by decide +kernel

theorem witness_reg_messages : regOffset (0x200000000000 + 8) = (regOffset 0x200000000000).map (· + 8) ∧ (sesDev four).mayWrite .operator 8 = true ∧
    (sesDev four).mayWrite (.tenant .whole) 0x9000018 = false ∧ regOffset 0 = none ∧ ({ (⟨.operator, 1, 1, 0⟩ : Session) with period := 100 } : Session).period ≠ 0 := by
  decide +kernel

theorem hash_shown (d : Dev) (x : List Byte) : x = ({ d.sec with pwHash := x } : SecS).pwHash := rfl
theorem hash_differs (d : Dev) (x : List Byte) : x ≠ ({ d.sec with pwHash := 0 :: x } : SecS).pwHash := fun h => by
  simpa using congrArg List.length h

theorem witness_unlock_password (d : Dev) (salt pw : List Byte) : pbkdf2 pw salt = ({ d.sec with pwHash := pbkdf2 pw salt } : SecS).pwHash ∧
    pbkdf2 pw salt ≠ ({ d.sec with pwHash := 0 :: pbkdf2 pw salt } : SecS).pwHash := ⟨hash_shown d _, hash_differs d _⟩

theorem witness_unlock : (sesDev four).operatorSession 3 = true ∧ (sesDev four).operatorSession 9 = false ∧ (sesDev four).sec.wait = 0 ∧
    ({ SecS.init with wait := 60 } : SecS).wait ≠ 0 ∧ (∀ h, (sesDev four).scopeState h = 0) ∧ (∃ h, (sesDev four [(F.SEC_STATUS_SCOPE_W, 0, 1)]).scopeState h ≠ 0) ∧
    (sesDev four [(F.SEC_UNLOCK_STATUS_NONCE_VALID, 0, 1)]).flag F.SEC_UNLOCK_STATUS_NONCE_VALID = true ∧
    ((sesDev four).flag F.SEC_UNLOCK_STATUS_NONCE_VALID && true) = false := by decide +kernel

/-- R437: from the fifth failure in a row a wait of 60 s, doubling to an hour. -/
theorem test_lockout : (List.range 14).map lockout = [0, 0, 0, 0, 0, 60, 120, 240, 480, 960, 1920, 3600, 3600, 3600] := by decide +kernel

/-- A bundle of one entry at 4,096 with a count and an entry serial, to be written at `dst`. -/
def bndDev (src dst n ser : Nat) (bad : Bool := false) (po : FMap Unit := []) (go : Nat := 0) : Dev :=
  { dev [(F.SEC_BND_SRC_ADDR, 0, src), (F.SEC_BND_DST_ADDR, 0, dst), (F.SEC_BND_CTRL_GO, 0, go)] with
    mem := memPutBytes (memPutBytes [] 4096 (le (if bad then 9 else 0x444E4257) 4 ++ [1, 0, 0, 0] ++ le n 4 ++ [0, 0, 0, 0] ++ le 4096 8)) 4352 (le ser 8)
    poison := po }

/-- What BUNDLE_GO checks, in order: placed, in range, no poison, format, count, an entry. -/
def bndChecks (d : Dev) : List Bool :=
  let src := d.fget F.SEC_BND_SRC_ADDR
  let dst := d.fget F.SEC_BND_DST_ADDR
  let hdr := memBytes d.mem src 256
  let n := min 65536 (leAt hdr 8 4)
  let body := src + (256 + 64 * n + 4095) / 4096 * 4096
  let es := (List.range n).map fun k => memBytes d.mem (src + 256 + 64 * k) 64
  [decide (src % 4096 = 0 ∧ dst % 4096 = 0),
    d.tenantRange (d.engineScope 0) src (body - src + leAt hdr 16 8) && d.tenantRange (d.engineScope 0) dst (leAt hdr 16 8),
    (List.range (32 + 8 * n)).all (fun k => !d.isPoison (src + 8 * k)), bundleFormat hdr es,
    decide (1 ≤ leAt hdr 8 4 ∧ leAt hdr 8 4 ≤ 65536), (es.find? fun z => leAt z 0 8 == d.sec.serial).isSome]

theorem witness_bundle : bndChecks (bndDev 4096 65536 1 0) = [true, true, true, true, true, true] ∧ bndChecks (bndDev 4096 65536 1 3) = [true, true, true, true, true, false] ∧
    (bndChecks (bndDev 4096 65536 0 0)).take 5 = [true, true, true, true, false] ∧ (bndChecks (bndDev 4096 65536 1 0 true)).take 4 = [true, true, true, false] ∧
    (bndChecks (bndDev 4096 65536 1 0 false [(512, ())])).take 3 = [true, true, false] ∧ (bndChecks (bndDev 4096 0x4E80000000 1 0)).take 2 = [true, false] ∧
    (bndChecks (bndDev 4097 65536 1 0)).head? = some false ∧ (bndDev 4096 65536 1 0).mayWrite .operator (0x9000310 + 0) = true ∧
    (bndDev 4096 65536 1 0).flag F.SEC_BND_CTRL_GO = false ∧ (bndDev 4096 65536 1 0 false [] 1).flag F.SEC_BND_CTRL_GO = true ∧
    fmGet ([(0, ⟨8192, 65536, 8, []⟩)] : FMap BundleJob) (0 : Fin 2).val = some ⟨8192, 65536, 8, []⟩ ∧
    fmGet ([(0, (true, []))] : FMap (Bool × List RdErr)) (0 : Fin 2).val = some (true, []) := by decide +kernel

/-- R447: an entry for another device is AUTH_FAILED; the bundle for this one starts. -/
theorem test_bundle : (after (.bundleGo 0 .operator true [] false) ⟨[], bndDev 4096 65536 1 3⟩).fget F.SEC_BND_STATUS_LAST_STATUS = stAuthFailed ∧
    (after (.bundleGo 0 .operator true [] false) ⟨[], bndDev 4096 65536 1 0⟩).fget F.SEC_BND_STATUS_STATE = 1 ∧
    fmGet (after (.bundleGo 0 .operator true [] true) ⟨[], bndDev 4096 65536 1 0 false [] 1⟩).sec.bundleAgain 0 = some (true, []) := by decide +kernel

/-! ## Sensors and buses, bring-up, charge, the feed -/

theorem witness_trip : (∀ p ∈ ([(3, (1840, false))] : FMap (Nat × Bool)), p.2.2 = false) ∧ (∃ p ∈ ([(3, (1840, true))] : FMap (Nat × Bool)), p.2.2 = true) ∧
    (dev []).pw.tripped = false ∧ ({ (dev []).pw with tripped := true } : PowerS).tripped = true ∧ (dev []).powered = true := by decide +kernel

/-- R411, R413: a first reading above 115 °C arms a sensor; the second lets the trip fire. -/
theorem test_trip : (after (.sensorSample [some 1841] [] []) (up [])).mg.tripArm = [(0, (1841, false))] ∧
    (after (.sensorSample [some 1850] [] []) ⟨[], after (.sensorSample [some 1841] [] []) (up [])⟩).mg.tripArm = [(0, (1850, true))] ∧
    (after (.sensorSample [some 1850] [] []) (up [])).fget F.MBX_TEMP_MAX = 1850 := by decide +kernel

theorem witness_buses : 0 < (dev []).mg.rails.length ∧ ([some (1, 2, 3)] : List (Option (Nat × Nat × Nat)))[0]? = some (some (1, 2, 3)) ∧
    0 < min 16 ({ MgmtS.init with i3cTargets := 3 } : MgmtS).i3cTargets := by decide +kernel

/-- A device with records queued, dropped, or a sector being erased. -/
def sbDev (q : List SbRec) (drop er : Nat) : Dev :=
  { dev [(F.MBX_STATUS_RUNNING, 0, 1), (F.MBX_SB_STATUS_ERASING, 0, er)] with mg := { MgmtS.init with sbQueue := q, sbDropped := drop } }
def rec1 : SbRec := ⟨0x70, 0, 0, 0, 0, 0, 0, []⟩

theorem witness_strongbox : (sbDev [rec1] 0 0).uhlea = true ∧ (sbDev [rec1] 0 0).flag F.MBX_SB_STATUS_ERASING = false ∧ (sbDev [rec1] 0 0).mg.sbDropped = 0 ∧
    (sbDev [rec1] 0 0).mg.sbQueue = rec1 :: [] ∧ (sbDev [rec1] 2 0).mg.sbDropped ≠ 0 ∧ (sbDev [] 2 0).droppedRec.type = 0xF0 ∧
    (sbDev [] 0 1).flag F.MBX_SB_STATUS_ERASING = true ∧ (sbDev [] 0 0).mg.sbQueue = [] ∧ (dev []).uhlea = false ∧
    (dev [(F.SEC_STATUS_DEBUG_UNLOCKED, 0, 1)]).flag F.SEC_STATUS_DEBUG_UNLOCKED = true ∧ (dev []).flag F.SEC_STATUS_DEBUG_UNLOCKED = false := by decide +kernel

/-- R425: the Dropped record goes first, and the record queue waits. -/
theorem test_strongbox : ((after .strongboxWrite ⟨[], sbDev [rec1] 2 0⟩).mg.sbQueue, (after .strongboxWrite ⟨[], sbDev [rec1] 2 0⟩).mg.sbDropped) = ([rec1], 0) ∧
    (after .strongboxWrite ⟨[], sbDev [rec1] 0 0⟩).mg.sbQueue = [] := by decide +kernel

/-- A device at a step of its bring-up, Uhlea running or not. -/
def bootDev (step run : Nat) (rs : List (Fld × Nat × Nat)) (f : BootS → BootS := id) : Dev :=
  { dev ([(F.MBX_STATUS_RUNNING, 0, run)] ++ rs) with boot := f { BootS.init with step := step } }

theorem witness_cold : ({ MgmtS.init with tripLatch := true, sbQueue := [rec1] } : MgmtS).sbQueue ≠ [] ∧ ({ SecS.init with winnows := [(0, (0, 0))] } : SecS).winnows ≠ [] ∧
    SecS.init.winnows = [] ∧ ({ BootS.init with sbHead0 := some 3 } : BootS).sbHead0 = some 3 ∧ Dev.reset.powered = false ∧ (dev []).powered = true := by decide +kernel

/-- R458, R428: the fall of PWR_GOOD leaves the block without power, with the trip's cause and the ledger mirror. -/
theorem test_cold : (after (.coldReset true false true false) ⟨[], { dev [] with mg := { MgmtS.init with tripLatch := true } }⟩).fget F.MBX_RESET_CAUSE_TRIP = 1 ∧
    (after (.coldReset true false true false) (up [])).powered = false := by decide +kernel

theorem witness_uhlea_start : (bootDev 4 0 []).boot.step = 4 ∧ (bootDev 4 0 []).fget F.DEV_STRAPS_BOOT_SEL = 0 ∧ (bootDev 4 0 [(F.DEV_STRAPS_BOOT_SEL, 0, 3)]).fget F.DEV_STRAPS_BOOT_SEL = 3 ∧
    (bootDev 4 0 [(F.DEV_SLOTS_SLOT_B, 0, 2)]).firstSlot = true ∧ (bootDev 4 0 [(F.DEV_SLOTS_SLOT_B, 0, 2)]).slotMark true = 2 ∧ (bootDev 4 0 []).slotMark (bootDev 4 0 []).firstSlot ≠ 2 ∧
    ({ (bootDev 4 0 []).pw with stbyLost := false } : PowerS).stbyLost = false ∧ BootS.init.settingsFormat < 2 ∧ ({ MgmtS.init with sb := [(0, .torn)] } : MgmtS).sb ≠ [] ∧
    ({ BootS.init with settings := [(64 * 0x5000028 / 8 * 8 / 8, 1)], settingsFabric := some 3 } : BootS).settingsFabric = some 3 := by decide +kernel

/-- R484: an OPERATOR register of the settings record. -/
theorem witness_settings : isSetting (F.STK_SCRUB_PERIOD.key (stackAdd 0) / 64 * 8) = true := by decide +kernel

theorem witness_training : (bootDev 6 1 []).atStep 6 = true ∧ (bootDev 7 1 []).atStep 6 = false ∧ (bootDev 6 1 []).flag F.STK_STATUS_TRAINED (stackAdd 0) = false ∧
    (bootDev 6 1 []).flag F.STK_STATUS_DEGRADED (stackAdd 0) = false ∧ (bootDev 6 1 [(F.STK_STATUS_TRAINED, stackAdd 0, 1)]).flag F.STK_STATUS_TRAINED (stackAdd 0) = true ∧
    ({ BootS.init with rows := [⟨0, 0, 0, 0, 0, 0⟩] } : BootS).rows[0]? = some ⟨0, 0, 0, 0, 0, 0⟩ ∧ (bootDev 7 1 []).atStep 7 = true ∧ (bootDev 7 1 []).pw.fuseW = true ∧
    (bootDev 7 1 []).pw.fuseE = false ∧ (bootDev 7 1 []).half true ≠ 7 ∧ (bootDev 10 1 []).atStep 10 = true ∧ (bootDev 11 1 []).atStep 11 = true ∧
    (bootDev 11 1 []).atStep 10 = false ∧ (bootDev 10 1 [(F.TAL_STATUS_STATE, 0, 3)]).lockState = 3 ∧ (bootDev 11 1 []).lockState ≠ 3 := by decide +kernel

/-- Table 19-3: without a bridge the east half is ORPHAN, and bring-up goes on at step 10. -/
theorem test_orphan : (after (.bridgeTrainingDone false) ⟨[], bootDev 7 1 []⟩).half true = 7 ∧ (after (.bridgeTrainingDone false) ⟨[], bootDev 7 1 []⟩).boot.step = 10 := by
  decide +kernel

theorem witness_bringup_complete : (∀ h ∈ (bootDev 11 1 []).ledgers, h = false) ∧
    (fmGet ((withEntry (bootDev 11 1 []) (entryOf 1 2 1 0)).led false).mirror 1).map (·.state) = some 2 ∧
    1 ≠ ((withEntry (bootDev 11 1 []) (entryOf 1 2 1 0)).led false).head + 1 ∧ (dev [(F.DEV_STATE_TRIAL, 0, 1)]).flag F.DEV_STATE_TRIAL = true ∧ BootS.init.cause < 3 := by
  decide +kernel

/-- R404: an entry that had started is ABANDONED; the RESET entry stands after it. -/
theorem test_bringup_ledger : (((after .bringupComplete ⟨[], withEntry (bootDev 11 1 []) (entryOf 1 2 1 0)⟩).led false).entries.map fun e => (e.seq, e.opcode, e.state)) =
    [(1, 1, 4), (2, 0xF3, 3)] := by decide +kernel

theorem witness_watchdog : (bootDev 0 1 [(F.DEV_SLOTS_SLOT_A, 0, 2)]).uhlea = true ∧ (bootDev 0 1 [(F.DEV_SLOTS_SLOT_A, 0, 2)]).slotMark (bootDev 0 1 []).boot.runB = 2 ∧
    (bootDev 0 1 []).boot.kicked = false ∧ (bootDev 0 1 []).slotMark (bootDev 0 1 []).boot.runB ≠ 2 := by decide +kernel

theorem witness_charge : (bootDev 0 1 []).charged = true ∧ (dev []).charged = false ∧ (bootDev 0 1 []).live = true ∧ (true && ({ (dev []).pw with fuseE := true } : PowerS).fuseE) = true ∧
    (true && (dev []).pw.fuseE) = false ∧ (true && (dev []).pw.fuseW) = true ∧ ({ (dev []).pw with hbSeen := true } : PowerS).hbSeen = true ∧ (dev []).pw.hbSeen = false ∧
    ({ (dev []).pw with echoDue := true } : PowerS).echoDue = true ∧ 15 ≤ (bootDev 0 1 [(F.DEV_CHARGE_MISS_E, 0, 15)]).fget F.DEV_CHARGE_MISS_E ∧
    (bootDev 0 1 []).fget F.DEV_CHARGE_MISS_E < 15 := by decide +kernel

/-- R471: the sixteenth miss makes the east half ORPHAN, the fifteenth does not. -/
theorem test_orphan_misses : (after .heartbeatMiss ⟨[], bootDev 0 1 [(F.DEV_CHARGE_MISS_E, 0, 15)]⟩).half true = 7 ∧
    (after .heartbeatMiss ⟨[], bootDev 0 1 [(F.DEV_CHARGE_MISS_E, 0, 14)]⟩).half true ≠ 7 := by decide +kernel

theorem witness_fabric_id : (∀ v ∈ [(0 : Nat), 8191], v / 2 ^ 13 = (bootDev 0 1 []).fget F.DEV_STRAPS_SHEAF_RANK) ∧
    (bootDev 0 1 [(F.DEV_STATE_STATE_W, 0, 2), (F.DEV_STATE_STATE_E, 0, 2)]).half true = 2 ∧ (bootDev 0 1 []).mayWrite .operator 0x18 = true ∧
    (bootDev 0 1 []).mayWrite (.tenant .whole) 0x18 = false := by decide +kernel

/-- A shard header of three records (Table 20-4) before its CRC, and with it. -/
def shardBase : List Byte := blob 4092 [(0, le 0x44485346 4 ++ [1, 2]), (8, le 3 8), (16, le 4096 4), (20, le 100 4)]
def shardHdr : List Byte := shardBase ++ leBytes 4 (crc32c shardBase)

theorem crc32c_lt (b : List Byte) : crc32c b < 2 ^ 32 := BitVec.isLt _

theorem leNat_le4 (c : Nat) (h : c < 2 ^ 32) : leNat (leBytes 4 c) = c := by
  simp only [leBytes, leNat, BitVec.toNat_ofNat]
  omega

theorem crc_at_end (b : List Byte) (h : b.length = 4092) : leAt (b ++ leBytes 4 (crc32c b)) 4092 4 = crc32c (bytesAt (b ++ leBytes 4 (crc32c b)) 0 4092) := by
  have e1 : (b ++ leBytes 4 (crc32c b)).drop 4092 = leBytes 4 (crc32c b) := by rw [← h]; exact List.drop_left ..
  have e2 : bytesAt (b ++ leBytes 4 (crc32c b)) 0 4092 = b := by
    unfold bytesAt
    rw [List.drop_zero, ← h]
    exact List.take_left ..
  unfold leAt
  rw [e1, e2, List.take_of_length_le (by simp [leBytes]), leNat_le4 _ (crc32c_lt _)]

/-- The checks of a shard header but its CRC. -/
def shardPlain (s : List Byte) : Bool :=
  leAt s 0 4 != 0x44485346 || leAt s 4 1 != 1 || !(leAt s 5 1 == 2 || leAt s 5 1 == 4) || leAt s 6 2 != 0 ||
    leAt s 16 4 % 4096 != 0 || decide (leAt s 16 4 < 64 + leAt s 20 4 * leAt s 5 1) || (bytesAt s 32 4060).any (· != 0#8)

theorem shardHdr_good : shardHeaderBad shardHdr = false := by
  have h1 : shardPlain shardHdr = false := by decide +kernel
  have h2 : (leAt shardHdr 4092 4 != crc32c (bytesAt shardHdr 0 4092)) = false := by
    rw [shardHdr, crc_at_end _ (by decide +kernel)]; simp
  unfold shardPlain at h1
  unfold shardHeaderBad
  rw [h1, h2]; rfl

/-- A loaded device whose feed descriptor (host memory, 2 micro-batches, reader 0 of 1, slots of 4,096 at 65,536, 8 entries) stands at 4,096. -/
def feedDev (st micro addr : Nat) (po : FMap Unit := []) : Dev :=
  { stepDev st [steps false] none 1 0 [(F.FED_FEED_DESC_ADDR, 0, addr)] with
    mem := memPutBytes [] 4096 (blob 64 [(0, [1]), (2, le micro 1), (4, le 1 4), (24, le 65536 8), (32, le 4096 4), (40, le 8 4)]), poison := po }

/-- The checks of R493 but the shard headers' format, each true where it fails. -/
def armFails (d : Dev) (heads : List (Option (List Byte))) : List Bool :=
  let a := d.fget F.FED_FEED_DESC_ADDR
  let r := d.readWords (a / 8 * 8) 8 []
  let b := wordBytes r.1.1
  let hs := heads.filterMap id
  let sc := d.feedScope
  [!(scopeHalves sc).all (fun h => d.half h == 3 || d.half h == 5) || leAt b 0 1 != (if d.rootMode then 0 else 1),
    a % 64 != 0 || fdDest b % 4096 != 0 || fdSlot b % 4096 != 0, r.1.2.1, heads.any (·.isNone),
    leAt b 3 1 != 0 || leAt b 44 20 != 0 || (leAt b 0 1 == 1 && fdMask b != 0),
    decide (fdReaders b ≤ fdIndex b) || decide (65536 < fdReaders b) || fdMicro b != microBatches (d.imageBytes d.feedHalf) ||
      !(fdEntries b).all (fun k => k == 8 || ((d.nsFor k).isSome && d.nsBound k)) || hs.foldl (fun n x => n + leAt x 8 8) 0 == 0,
    !d.tenantRange sc a 64 || !d.tenantRange sc (fdDest b) (fdMicro b * fdSlot b) ||
      decide (fdSlot b < 64 + fdCount b * (hs.map fun x => leAt x 5 1).foldl max 0)]

theorem witness_arm : armFails (feedDev 3 2 4096) [some shardHdr] = [false, false, false, false, false, false, false] ∧
    (armFails (feedDev 4 2 4096) [some shardHdr]).head? = some true ∧ (armFails (feedDev 3 2 4096 [(513, ())]) []).take 3 = [false, false, true] ∧
    (armFails (feedDev 3 2 4096) [none]).take 4 = [false, false, false, true] ∧ (armFails (feedDev 3 3 4096) [some shardHdr]).take 6 = [false, false, false, false, false, true] ∧
    (feedDev 3 2 4096).mayWrite .operator 0x8000040 = true ∧ (feedDev 3 2 4096).mayWrite (.core 0) 0x8000060 = false := by decide +kernel

theorem witness_arm_headers : ([some shardHdr].filterMap id).any shardHeaderBad = false ∧ ([some [0#8]].filterMap id).any shardHeaderBad = true := by
  constructor
  · show ([shardHdr].any shardHeaderBad) = false
    rw [List.any_cons, shardHdr_good]; rfl
  · decide +kernel

/-- R493: a micro-batch count that is not the image's leaves the feed unarmed. -/
theorem test_arm : (after (.arm .operator [] [none]) ⟨[], feedDev 3 2 4096⟩).fget F.FED_FEED_STATUS_LAST_STATUS = stPartnerAbsent ∧
    (after (.arm .operator [] [some []]) ⟨[], feedDev 4 2 4096⟩).fget F.FED_FEED_STATUS_LAST_STATUS = stWrongState := by decide +kernel

/-- A device with a namespace of 100 blocks bound to the whole device, a checkpoint source. -/
def ckDev (src : Nat) (ck : Option (Nat × Nat × Nat × Nat × Bool)) (done : Nat) (cmds : FMap NvmeCmd := []) : Dev :=
  { dev [(F.FED_CKPT_SRC_ADDR, 0, src), (F.FED_NS_BIND, 0, 3), (F.FED_NS_NSID, 0, 1), (F.FED_CKPT_STATUS_DONE, 0, done), (F.FED_STATUS_MODE, 0, 1)] with
    feed := { (Dev.reset).feed with ns := [⟨0, 1, 100, false⟩], ckpt := ck, cmds := cmds } }

/-- The checks of CKPT_GO with `n` ingots, entry 0. -/
def ckFails (d : Dev) (n : Nat) : List Bool :=
  let a := d.fget F.FED_CKPT_SRC_ADDR
  [a % 4096 != 0, !d.tenantRange d.feedScope a (4096 * n) || (match d.nsFor 0 with
      | some x => decide (x.blocks < d.fget F.FED_CKPT_LBA_LBA + n * (4096 / d.lbaBytes 0))
      | none => false), (d.nsFor 0).isNone || !d.nsBound 0]

/-- The command word: GO, namespace entry 0, `n` ingots. -/
def goWord (n : Nat) : Word := .ofNat 64 (1 + 256 * n)

theorem witness_ckpt : (∀ n ∈ [0, 2], bit (goWord n).toNat 0 = true ∧ bits (goWord n).toNat 8 32 = n ∧ bits (goWord n).toNat 2 3 = 0 ∧
      ckFails (ckDev 4096 none 0) n = [false, false, false]) ∧ bit (2#64).toNat 0 = false ∧ ckFails (ckDev 4096 none 0) 20 = [false, true, false] ∧
    (ckFails (ckDev 1 none 0) 2).head? = some true ∧ ckFails { ckDev 4096 none 0 with feed := (Dev.reset).feed } 2 = [false, false, true] ∧
    (ckDev 4096 (some (4096, 0, 0, 2, false)) 1).fget F.FED_CKPT_STATUS_DONE < 2 ∧ 2 ≤ (ckDev 4096 (some (4096, 0, 0, 2, false)) 2).fget F.FED_CKPT_STATUS_DONE ∧
    (ckDev 4096 none 0).feed.ckpt = none ∧ (ckDev 4096 none 0).feed.ckptAgain = none ∧
    ({ (ckDev 4096 none 0).feed with ckptAgain := some 513 } : FeedS).ckptAgain = some 513 ∧ bits 513 8 32 ≠ 0 ∧
    (ckDev 4096 (some (4096, 0, 0, 2, false)) 2).ckptCheck = none := by decide +kernel

/-- R496: the copy's first ingot goes out; beyond the namespace it is LEN_RANGE. -/
theorem test_ckpt : (after (.ckptGo .operator (goWord 2) false) ⟨[], ckDev 4096 none 0⟩).fget F.FED_CKPT_STATUS_STATE = 1 ∧
    (after (.ckptGo .operator (goWord 20) false) ⟨[], ckDev 4096 none 0⟩).fget F.FED_CKPT_STATUS_LAST_STATUS = stLenRange ∧
    (after (.ckptGo .operator (goWord 2) true) ⟨[], ckDev 4096 (some (4096, 0, 0, 2, false)) 2⟩).feed.ckptAgain = some 513 := by decide +kernel

/-- An endpoint feed with a link up, its BAR2 of 2 to the 20. -/
def barDev (st : Nat) : Dev :=
  { dev [(F.FED_STATUS_LINKS_UP, 0, 1), (F.DEV_STATE_STATE_W, 0, st), (F.DEV_STATE_STATE_E, 0, st)] with feed := { (Dev.reset).feed with bar2Log := 20 } }

theorem witness_bar2 : (barDev 3).rootMode = false ∧ (ckDev 0 none 0).rootMode = true ∧ (barDev 3).fget F.FED_STATUS_LINKS_UP ≠ 0 ∧ (64#36).toNat + 8 ≤ 2 ^ (barDev 3).feed.bar2Log ∧
    2 ^ (barDev 3).feed.bar2Log < (1048575#36).toNat + 8 ∧ (barDev 3).tenantRange (barDev 3).feedScope 64 8 = true ∧ (∀ h ∈ scopeHalves (barDev 3).feedScope, (barDev 3).half h ≠ 6) ∧
    (∃ h ∈ scopeHalves (barDev 6).feedScope, (barDev 6).half h = 6) ∧ bit ((barDev 3).fget F.FED_STATUS_LINKS_UP) (0 : Fin 4).val = true ∧
    bit ((barDev 3).fget F.FED_STATUS_LINKS_UP) (1 : Fin 4).val = false ∧ (∃ x ∈ [((4 : Nat), (0 : Nat), (0 : Nat), false)], 4 ≤ x.1) := by decide +kernel

/-- R490: a host's write lands in stack memory; one that names a device in reset aborts. -/
theorem test_bar2 : memBytes (after (.bar2Access true 64 0 [5, 6] false []) ⟨[], barDev 3⟩).mem 64 2 = [5, 6] ∧
    (after (.bar2Access true 64 0 [5, 6] false []) ⟨[], barDev 6⟩).fget F.FED_EVENT_EP_ABORT = 1 := by decide +kernel

/-- An armed feed of one shard of three records with an ingest command outstanding. -/
def recvDev (use : Nat) (retried : Bool) (armed : Bool) : Dev :=
  { stepDev 4 [steps false] (some (att [])) 1 with
    feed := { (Dev.reset).feed with
      armed := if armed then some ⟨blob 64 [(0, [1]), (2, [2]), (4, le 1 4), (24, le 65536 8), (32, le 128 4), (40, le 1 4)], [(8, 3, 4096, 4, 2)]⟩ else none
      ingest := [0], cmds := [(5, ⟨0, 2, 0, 8, use, 0, retried⟩)], nextCmd := 6, ckpt := some (4096, 0, 0, 2, false) } }

theorem witness_nvme : fmGet (recvDev 0 false true).feed.cmds 5 = some ⟨0, 2, 0, 8, 0, 0, false⟩ ∧ fmGet (recvDev 0 false true).feed.cmds 9 = none ∧ 5 ≠ (recvDev 0 false true).feed.nextCmd ∧
    fmGet (recvDev 1 true true).feed.cmds 5 = some ⟨0, 2, 0, 8, 1, 0, true⟩ ∧ (recvDev 0 false false).feed.armed = none ∧ ((recvDev 0 false true).stepc (recvDev 0 false true).feedHalf).run = some (att []) ∧
    ((recvDev 0 false true).feed.armed.bind fun j => FeedJob.locate j.shards ((recvDev 0 false true).ingestRecord j 0)).isSome = true ∧
    FeedJob.locate [] 0 = none ∧ 64 + 4 * 2 ≤ (List.replicate 4096 0#8).length ∧ 0 + 1 < 2 ∧ 1 ≤ 0 + 1 := by decide +kernel

/-- R487: a failed command is issued once more; the second failure ends the attempt. -/
theorem test_nvme_retry : ((fmGet (after (.nvmeTimeout 5) ⟨[], recvDev 0 false true⟩).feed.cmds 5).map (·.retried)) = some true ∧
    (after (.nvmeTimeout 5) ⟨[], recvDev 0 true true⟩).fget F.FED_EVENT_NVME_ERR = 1 ∧
    (((after (.nvmeTimeout 5) ⟨[], recvDev 0 true true⟩).stepc false).run.map (·.fail)) = some (some stAbandoned) := by decide +kernel

/-! ## Ill-formed commands, one for each check -/

/-- A frame with 32 payload units, one more than UNITS can say, and one with 31. -/
def longFr : Frame := { fr0 1 1 with payload := List.replicate 32 0 }
def fullFr : Frame := { fr0 1 1 with payload := List.replicate 31 0 }

theorem smoke_width : (Instr.registerWrite .operator 0 24 0 0).wellFormed = false ∧ (Instr.registerWrite .operator 0 32 0 0).wellFormed = true := by decide +kernel
theorem smoke_length : (Instr.commandSubmit 0 0 { hdr with len := 4294967296 } 0).wellFormed = false ∧ (Instr.commandSubmit 0 0 hdr 0).wellFormed = true := by decide +kernel
theorem smoke_image (b : List Byte) (h : 2147483648 < b.length) : (Instr.load false 0 b 0 []).wellFormed = false := by
  simpa [Instr.wellFormed] using h
theorem smoke_escrow : (Instr.escrowRefetch true 0 [0] 0 [] true).wellFormed = false := by decide +kernel
theorem smoke_bodies : (Instr.tileCommand 0 [0]).wellFormed = false ∧ (Instr.microcodeMessage 0 0 [0] true).wellFormed = false := by decide +kernel
theorem smoke_payload : (Instr.dataFrame 0 fullFr).wellFormed = true ∧ ((([.dataFrame 0 longFr, .idleFrame 0 longFr, .creditFrame 0 longFr 0 none [],
    .admitFrame 0 longFr none, .delayFrame 0 longFr false 0 0, .stateFrame 0 longFr 0 0 false 0 false, .voteFrame 0 longFr [],
    .sealFrame 0 longFr true 0 0 0] : List Instr).map Instr.wellFormed).any id) = false := by decide +kernel
theorem smoke_credits : (Instr.creditFrame 0 fullFr 0 none [0, 0, 0, 0, 0, 0, 0, 0, 0]).wellFormed = false ∧ (Instr.creditFrame 0 fullFr 0 none noCredits).wellFormed = true := by decide +kernel
theorem smoke_refuse (x : Xfer) (m : Relay) : (Instr.refuseFrame 0 longFr 0 x).wellFormed = false ∧ (Instr.mgmtFrame 0 longFr 0 m).wellFormed = false :=
  ⟨by rfl, by rfl⟩
theorem smoke_seal_fields : (Instr.sealFrame 0 fullFr true (2 ^ 64) 0 0).wellFormed = false ∧ (Instr.sealFrame 0 fullFr true 0 256 0).wellFormed = false ∧
    (Instr.sealFrame 0 fullFr true 0 0 256).wellFormed = false := by decide +kernel
theorem smoke_lanes : (Instr.laneTrainingDone 0 (List.replicate 10 true) []).wellFormed = false ∧
    (Instr.laneTrainingDone 0 [] (List.replicate 10 (0, 0))).wellFormed = false := by decide +kernel
theorem smoke_votes : (Instr.voteFrame 0 fullFr (List.replicate 65 (vote1 1 1))).wellFormed = false := by decide +kernel
theorem smoke_profile : (Instr.profile false 0 (List.replicate 65 true)).wellFormed = false := by decide +kernel
theorem smoke_report : (Instr.updateReport 0 0).wellFormed = false ∧ (Instr.updateReport 0 5).wellFormed = false := by decide +kernel
theorem smoke_role : (Instr.sessionOpen 0 (some .uhlea)).wellFormed = false ∧ (Instr.sessionOpen 0 (some (.core 0))).wellFormed = false := by decide +kernel
theorem smoke_sensors : (Instr.sensorSample (List.replicate 65 none) [] []).wellFormed = false ∧
    (Instr.sensorSample [] [] (List.replicate 9 0)).wellFormed = false := by decide +kernel
theorem smoke_straps : (Instr.bringup 16 0 false 0 false false).wellFormed = false ∧ (Instr.bringup 0 8 false 0 false false).wellFormed = false := by decide +kernel
theorem smoke_bar2 : (Instr.bar2Access false 0 4097 [] false []).wellFormed = false ∧ (Instr.bar2Access true 0 2 [0] false []).wellFormed = false := by decide +kernel

end Sys2Proof.Tests
end

namespace Sys2Proof.Machine

/-! ## The table of fields and events -/

/-- The fields of a register lie at its offset, within its 64 bits, each at a lowest bit of its own (R4). -/
theorem regDefs_fields : ∀ r ∈ regDefs, (∀ f ∈ r.fields, f.off = r.off ∧ f.lo < 64) ∧ (r.fields.map Fld.lo).Nodup := by
  decide +kernel

/-- An event is a W1C bit, and its counter lies in another register (R9). -/
theorem allEvents_bit_cnt : ∀ e ∈ allEvents, e.bit.w = 1 ∧ e.bit.acc = .w1c ∧ e.bit.off % 8 = 0 ∧ e.cnt.off % 8 = 0 ∧
    e.cnt.lo < 64 ∧ e.cnt.off ≠ e.bit.off := by
  decide +kernel

theorem allEvents_bit_nodup : (allEvents.map Ev.bit).Nodup := by decide

theorem evOf_bit {e : Ev} (he : e ∈ allEvents) : evOf e.bit = some e := by
  unfold evOf
  obtain ⟨x, hx⟩ := Option.isSome_iff_exists.mp (List.find?_isSome (p := fun x => x.bit == e.bit) |>.mpr ⟨e, he, by simp⟩)
  have hb : x.bit = e.bit := by simpa using List.find?_some hx
  rw [hx, List.inj_on_of_nodup_map allEvents_bit_nodup (List.mem_of_find?_eq_some hx) he hb]

theorem mem_regDefs_of_regAt {off add : Nat} {r : RegDef} (h : regAt off = some (r, add)) : r ∈ regDefs := by
  unfold regAt at h
  obtain ⟨x, hx, hr⟩ := Option.map_eq_some_iff.mp h
  cases hr
  exact List.mem_of_find?_eq_some hx

section register
variable {r : RegDef} (hr : r ∈ regDefs)
include hr

theorem lo_inj_of_mem {f g : Fld} (hf : f ∈ r.fields) (hg : g ∈ r.fields) (h : f.lo = g.lo) : f = g :=
  List.inj_on_of_nodup_map (regDefs_fields r hr).2 hf hg h

theorem key_inj_of_mem {f g : Fld} (hf : f ∈ r.fields) (hg : g ∈ r.fields) (a : Nat) (h : f.key a = g.key a) : f = g := by
  have hof := (regDefs_fields r hr).1 f hf
  have hog := (regDefs_fields r hr).1 g hg
  refine lo_inj_of_mem hr hf hg ?_
  unfold Fld.key at h
  omega

/-- The counter of an event is no field of the event's register. -/
theorem cnt_key_ne_of_mem {e : Ev} {g : Fld} (he : e ∈ allEvents) (hb : e.bit ∈ r.fields) (hg : g ∈ r.fields) (a : Nat) :
    g.key a ≠ e.cnt.key a := by
  have hob := (regDefs_fields r hr).1 _ hb
  have hog := (regDefs_fields r hr).1 g hg
  have hev := allEvents_bit_cnt e he
  unfold Fld.key
  omega

theorem fields_nodup : r.fields.Nodup := (regDefs_fields r hr).2.of_map

end register

theorem bit_eq_testBit (v i : Nat) : bit v i = v.testBit i := by
  rw [Nat.testBit_eq_decide_div_mod_eq]; rfl

theorem bits_one (v i : Nat) : bits v i 1 = (v.testBit i).toNat := by
  rw [Nat.toNat_testBit]; rfl

theorem bits_lt (v lo w : Nat) : bits v lo w < 2 ^ w := Nat.mod_lt _ (Nat.two_pow_pos w)

/-! ## A software write of one field (R7) -/

section writeField
variable (d : Dev) (f : Fld) (a x hw : Nat)

/-- A write sets the field or leaves the device. -/
theorem Dev.writeField_cases : d.writeField f a x hw = d ∨ ∃ y, d.writeField f a x hw = d.fset f y a := by
  unfold Dev.writeField
  cases f.acc
  case ro | rc => exact .inl rfl
  case rw | wo | w1c | w1s => exact .inr ⟨_, rfl⟩
  case rwl => dsimp only; split <;> [exact .inr ⟨_, rfl⟩; exact .inl rfl]

variable {f}

theorem Dev.fget_writeField_rw (h : f.acc = .rw) : (d.writeField f a x hw).fget f a = x % 2 ^ f.w := by
  simp [Dev.writeField, h]

theorem Dev.writeField_readOnly (h : f.acc = .ro ∨ f.acc = .rc) : d.writeField f a x hw = d := by
  rcases h with h | h <;> simp [Dev.writeField, h]

theorem Dev.fget_writeField_w1s (h : f.acc = .w1s) : (d.writeField f a x hw).fget f a = (d.fget f a ||| x) % 2 ^ f.w := by
  simp [Dev.writeField, h]

/-- A W1C bit is cleared by a 1, unless hardware sets it in the same cycle (R8). -/
theorem Dev.fget_writeField_w1c (h : f.acc = .w1c) (w : f.w = 1) (b s : Bool) :
    (d.writeField f a b.toNat s.toNat).fget f a = if b && !s then 0 else d.fget f a % 2 := by
  cases b <;> cases s <;> simp [Dev.writeField, h, w]

end writeField

/-! ## A software write of a register, field by field -/

section writeOne
variable (a v hw : Nat)

theorem Dev.writeOne_cases (d : Dev) (f : Fld) : d.writeOne a v hw f = d ∨ ∃ y, d.writeOne a v hw f = d.fset f y a := by
  unfold Dev.writeOne
  split
  · exact .inl rfl
  · split
    · exact .inl rfl
    · exact d.writeField_cases f a _ _

theorem Dev.writeOne_eq_writeField (d : Dev) {f : Fld} (hrow : rowFields.contains f = false) (ht : f ≠ F.MBX_TRACE_CTRL_ENABLE) :
    d.writeOne a v hw f = d.writeField f a (bits v f.lo f.w) (bits hw f.lo f.w) := by
  unfold Dev.writeOne
  rw [if_neg (by rw [hrow]; decide), if_neg (by simp [ht])]

theorem Dev.regs_writeOne_ne (d : Dev) {f : Fld} {k : Nat} (h : f.key a ≠ k) :
    fmGet (d.writeOne a v hw f).regs k = fmGet d.regs k := by
  obtain e | ⟨y, e⟩ := d.writeOne_cases a v hw f
  · rw [e]
  · rw [e, Dev.regs_fset_ne _ _ _ _ _ h]

theorem Dev.writeOne_keep {β : Type} (g : Dev → β) (hregs : ∀ d x, g { d with regs := x } = g d) (d : Dev) (f : Fld) :
    g (d.writeOne a v hw f) = g d := by
  obtain e | ⟨y, e⟩ := d.writeOne_cases a v hw f
  · rw [e]
  · rw [e]; exact hregs d _

/-- Writing fields leaves every bit address but theirs. -/
theorem Dev.regs_foldl_writeOne_ne (d : Dev) {fs : List Fld} {k : Nat} (h : ∀ f ∈ fs, f.key a ≠ k) :
    fmGet (fs.foldl (fun d f => d.writeOne a v hw f) d).regs k = fmGet d.regs k := by
  induction fs generalizing d with
  | nil => rfl
  | cons f fs ih =>
    obtain ⟨hf, hfs⟩ := List.forall_mem_cons.mp h
    rw [List.foldl_cons, ih _ hfs, d.regs_writeOne_ne a v hw hf]

/-- Of the fields written, each takes its own write alone: the others neither come in before it nor after. -/
theorem Dev.fget_foldl_writeOne (d : Dev) {fs : List Fld} {f : Fld} (hf : f ∈ fs) (hn : fs.Nodup)
    (hk : ∀ g ∈ fs, f.key a = g.key a → f = g) : ∃ d' : Dev, d'.fget f a = d.fget f a ∧
      (fs.foldl (fun d f => d.writeOne a v hw f) d).fget f a = (d'.writeOne a v hw f).fget f a := by
  obtain ⟨l, m, rfl⟩ := List.append_of_mem hf
  obtain ⟨-, hm, hl⟩ := List.nodup_append.mp hn
  have other : ∀ g ∈ l ++ f :: m, g ≠ f → g.key a ≠ f.key a := fun g hg hne he => hne (hk g hg he.symm).symm
  have before : ∀ g ∈ l, g.key a ≠ f.key a := fun g hg =>
    other g (List.mem_append_left _ hg) (hl g hg f List.mem_cons_self)
  have after : ∀ g ∈ m, g.key a ≠ f.key a := fun g hg =>
    other g (by simp [hg]) fun h => (List.nodup_cons.mp hm).1 (h ▸ hg)
  refine ⟨l.foldl (fun d f => d.writeOne a v hw f) d, ?_, ?_⟩
  · unfold Dev.fget; rw [d.regs_foldl_writeOne_ne a v hw before]
  · rw [List.foldl_append, List.foldl_cons]
    unfold Dev.fget; rw [Dev.regs_foldl_writeOne_ne a v hw _ after]

end writeOne

@[simp] theorem Dev.noteExt_regs (d : Dev) (off : Nat) : (d.noteExt off).regs = d.regs := by
  unfold Dev.noteExt; dsimp only; split <;> rfl

@[simp] theorem Dev.keepSettings_regs (d : Dev) (fs : List Fld) (a : Nat) : (d.keepSettings fs a).regs = d.regs := rfl

/-- A whole write changes registers, tiles (the extents a sample of the cycle takes) and the settings record alone. -/
theorem Dev.plainWrite_keep {β : Type} (g : Dev → β) (hregs : ∀ d x, g { d with regs := x } = g d)
    (htiles : ∀ d x, g { d with tiles := x } = g d) (hboot : ∀ d x, g { d with boot := x } = g d) (d : Dev) (off v hw k : Nat) :
    g (d.plainWrite off v hw k) = g d := by
  have note : g (d.noteExt off) = g d := by
    unfold Dev.noteExt; dsimp only; split <;> [exact htiles d _; rfl]
  have keep : ∀ (e : Dev) fs a, g (e.keepSettings fs a) = g e := fun e _ _ => (hboot _ _).trans (hboot e _)
  unfold Dev.plainWrite
  split
  · rfl
  · next r add _ =>
    have fold : g (r.fields.foldl (fun d f => d.writeOne (add + k) v hw f) (d.noteExt off)) = g d :=
      (foldl_keep g _ (fun d f => d.writeOne_keep (add + k) v hw g hregs f) _ _).trans note
    have base : ∀ e : Dev, g e = g d → g (if off = 0x8000020 then e.fset F.FED_WIN_BASE_BASE (v / 4096 * 4096) else e) = g d :=
      fun e he => by split <;> [exact (hregs e _).trans he; exact he]
    dsimp only
    split
    · exact (keep _ _ _).trans (base _ fold)
    · exact base _ fold

section plainWrite
variable (d : Dev) {off add : Nat} {r : RegDef} (hat : regAt off = some (r, add)) (hbase : off ≠ 0x8000020) (v hw k : Nat)
include hat hbase

theorem Dev.regs_plainWrite : (d.plainWrite off v hw k).regs =
    (r.fields.foldl (fun d f => d.writeOne (add + k) v hw f) (d.noteExt off)).regs := by
  unfold Dev.plainWrite
  rw [hat]; dsimp only
  rw [if_neg hbase]
  split <;> rfl

/-- No register field outside the register written changes. -/
theorem Dev.plainWrite_regsBut : regsBut (r.fields.map fun g => g.key (add + k)) d (d.plainWrite off v hw k) := by
  intro j hj
  rw [d.regs_plainWrite hat hbase, Dev.regs_foldl_writeOne_ne, Dev.noteExt_regs]
  exact fun f hf he => hj (List.mem_map.mpr ⟨f, hf, he⟩)

/-- A field without a command of its own takes its own write. -/
theorem Dev.fget_plainWrite {f : Fld} (hf : f ∈ r.fields) (hrow : rowFields.contains f = false) (ht : f ≠ F.MBX_TRACE_CTRL_ENABLE) :
    ∃ d' : Dev, d'.fget f (add + k) = d.fget f (add + k) ∧ (d.plainWrite off v hw k).fget f (add + k) =
      (d'.writeField f (add + k) (bits v f.lo f.w) (bits hw f.lo f.w)).fget f (add + k) := by
  have hr := mem_regDefs_of_regAt hat
  obtain ⟨d', before, after⟩ := (d.noteExt off).fget_foldl_writeOne (add + k) v hw hf (fields_nodup hr)
    fun g hg => key_inj_of_mem hr hf hg (add + k)
  refine ⟨d', before.trans (Dev.fget_congr (d.noteExt_regs off) f _), ?_⟩
  rw [Dev.fget_congr (d.regs_plainWrite hat hbase v hw k), after, Dev.writeOne_eq_writeField _ _ _ _ hrow ht]

end plainWrite

/-! ## The hardware sets of the cycle (R8, R9) -/

/-- Where hardware sets no bit, nothing is raised. -/
@[simp] theorem Dev.hwSets_zero (d : Dev) (off k : Nat) : d.hwSets off 0 k = d := by
  unfold Dev.hwSets
  split
  · rfl
  · refine foldl_keep id _ (fun d f => ?_) _ d
    split <;> simp [bit]

theorem Dev.hwSets_of_none (d : Dev) {off : Nat} (h : regAt off = none) (hw k : Nat) : d.hwSets off hw k = d := by
  simp [Dev.hwSets, h]

/-- A fold in which one element of the list alone acts. -/
theorem foldl_eq_of_only {β γ : Type} (F : β → γ → β) {l : List γ} {x : γ} (hx : x ∈ l) (hn : l.Nodup)
    (h : ∀ y ∈ l, y ≠ x → ∀ b, F b y = b) (b : β) : l.foldl F b = F b x := by
  have idle : ∀ m : List γ, (∀ y ∈ m, ∀ b, F b y = b) → ∀ b, m.foldl F b = b := fun m hm b => by
    rw [List.foldl_ext F (fun b _ => b) b fun b y hy => hm y hy b, List.foldl_fixed]
  obtain ⟨l, m, rfl⟩ := List.append_of_mem hx
  obtain ⟨-, hm, hl⟩ := List.nodup_append.mp hn
  rw [List.foldl_append, List.foldl_cons, idle l, idle m]
  · exact fun y hy => h y (by simp [hy]) fun e => (List.nodup_cons.mp hm).1 (e ▸ hy)
  · exact fun y hy => h y (List.mem_append_left _ hy) (hl y hy x List.mem_cons_self)

/-- Where hardware sets the bit of one event, that event is raised and no other. -/
theorem Dev.hwSets_eq_event (d : Dev) {off add : Nat} {r : RegDef} {e : Ev} (hat : regAt off = some (r, add)) (he : e ∈ allEvents)
    (hb : e.bit ∈ r.fields) (k : Nat) : d.hwSets off (2 ^ e.bit.lo) k = d.event e (add + k) := by
  have hr := mem_regDefs_of_regAt hat
  unfold Dev.hwSets
  rw [hat]; dsimp only
  rw [foldl_eq_of_only _ hb (fields_nodup hr)]
  · simp [evOf_bit he, bit_eq_testBit]
  · intro g hg hne b
    have lo : e.bit.lo ≠ g.lo := fun h => hne (lo_inj_of_mem hr hb hg h).symm
    split <;> simp [bit_eq_testBit, lo]

/-! ## REGISTER_WRITE -/

/-- A narrow or misaligned write is discarded and counted (R5). -/
theorem Dev.registerWrite_eq_accessError (d : Dev) (w : Who) {off width : Nat} (v hw : Nat) (h : width ≠ 64 ∨ off % 8 ≠ 0) :
    d.registerWrite w off width v hw = d.accessError := by
  unfold Dev.registerWrite
  rw [if_pos (by simpa using h)]

theorem Dev.registerWrite_aligned (d : Dev) (w : Who) {off : Nat} (v hw : Nat) (h : off % 8 = 0) :
    d.registerWrite w off 64 v hw = if (d.hwSets off hw (d.bank w off)).mayWrite w off
      then (d.hwSets off hw (d.bank w off)).plainWrite off v hw (d.bank w off) else d.hwSets off hw (d.bank w off) := by
  unfold Dev.registerWrite
  rw [if_neg (by simp [h])]

theorem Dev.registerWrite_unassigned (d : Dev) (w : Who) {off : Nat} (v hw : Nat) (h : off % 8 = 0) (hn : regAt off = none) :
    d.registerWrite w off 64 v hw = d := by
  rw [d.registerWrite_aligned w v hw h, d.hwSets_of_none hn]
  simp [Dev.plainWrite, hn]

theorem Dev.registerWrite_denied (d : Dev) (w : Who) {off : Nat} (v : Nat) (h : off % 8 = 0) (hm : d.mayWrite w off = false) :
    d.registerWrite w off 64 v 0 = d := by
  simp [d.registerWrite_aligned w v 0 h, hm]

theorem Dev.registerWrite_allowed (d : Dev) (w : Who) {off : Nat} (v : Nat) (h : off % 8 = 0) (hm : d.mayWrite w off = true) :
    d.registerWrite w off 64 v 0 = d.plainWrite off v 0 (d.bank w off) := by
  simp [d.registerWrite_aligned w v 0 h, hm]

/-- REGISTER_WRITE of a running block is the device's register write. -/
theorem exec_registerWrite (s : State) (who : Who) (off : BitVec 32) (width : Nat) (v hw : Word)
    (h : s.dev.regClocked off.toNat = true) : exec (.registerWrite who off width v hw) s =
      .next { s with dev := s.dev.registerWrite who off.toNat width v.toNat hw.toNat } := by
  show execRegisterWrite who off width v hw s = _
  simp [execRegisterWrite, onDev, h]

theorem does_registerWrite {s : State} {who : Who} {off : BitVec 32} {width : Nat} {v hw : Word} {P : Dev → Prop}
    (h : s.dev.regClocked off.toNat = true) (p : P (s.dev.registerWrite who off.toNat width v.toNat hw.toNat)) :
    Does (.registerWrite who off width v hw) s P :=
  ⟨_, exec_registerWrite s who off width v hw h, rfl, p⟩

/-- The register-access error counter counts a discarded access, and nothing else changes (R5). -/
theorem Dev.accessError_counts (d : Dev) :
    d.accessError.fget F.DEV_REG_ERR_COUNT = min (d.fget F.DEV_REG_ERR_COUNT + 1) (2 ^ 64 - 1) ∧
      regsBut [F.DEV_REG_ERR_COUNT.key 0] d d.accessError ∧ d.accessError = { d with regs := d.accessError.regs } :=
  ⟨d.fget_count_self F.DEV_REG_ERR_COUNT 1 0, fun _ hk => d.regs_fset_ne _ _ _ _ fun h => hk (by simp [h]), rfl⟩

section allowedWrite
variable (d : Dev) {off add : Nat} {r : RegDef} {f : Fld} (hat : regAt off = some (r, add)) (hbase : off ≠ 0x8000020)
  (hf : f ∈ r.fields) (hrow : rowFields.contains f = false) (ht : f ≠ F.MBX_TRACE_CTRL_ENABLE) (v hw k : Nat)
include hat hbase hf hrow ht

theorem Dev.fget_plainWrite_rw (h : f.acc = .rw) : (d.plainWrite off v hw k).fget f (add + k) = bits v f.lo f.w := by
  obtain ⟨d', -, e⟩ := d.fget_plainWrite hat hbase v hw k hf hrow ht
  rw [e, d'.fget_writeField_rw _ _ _ h, Nat.mod_eq_of_lt (bits_lt _ _ _)]

theorem Dev.fget_plainWrite_readOnly (h : f.acc = .ro ∨ f.acc = .rc) :
    (d.plainWrite off v hw k).fget f (add + k) = d.fget f (add + k) := by
  obtain ⟨d', old, e⟩ := d.fget_plainWrite hat hbase v hw k hf hrow ht
  rw [e, d'.writeField_readOnly _ _ _ h, old]

theorem Dev.fget_plainWrite_w1s (h : f.acc = .w1s) :
    (d.plainWrite off v hw k).fget f (add + k) = (d.fget f (add + k) ||| bits v f.lo f.w) % 2 ^ f.w := by
  obtain ⟨d', old, e⟩ := d.fget_plainWrite hat hbase v hw k hf hrow ht
  rw [e, d'.fget_writeField_w1s _ _ _ h, old]

theorem Dev.fget_plainWrite_w1c (h : f.acc = .w1c) (w : f.w = 1) : (d.plainWrite off v hw k).fget f (add + k) =
    if v.testBit f.lo && !hw.testBit f.lo then 0 else d.fget f (add + k) % 2 := by
  obtain ⟨d', old, e⟩ := d.fget_plainWrite hat hbase v hw k hf hrow ht
  rw [e, w, bits_one, bits_one, d'.fget_writeField_w1c _ h w, old]

end allowedWrite

/-- A whole write leaves all but registers, tiles and the settings record. -/
theorem Dev.plainWrite_frame (d : Dev) (off v hw k : Nat) : d.plainWrite off v hw k =
    { d with regs := (d.plainWrite off v hw k).regs, tiles := (d.plainWrite off v hw k).tiles,
             boot := (d.plainWrite off v hw k).boot } := by
  let g : Dev → Dev := fun e => { e with regs := d.regs, tiles := d.tiles, boot := d.boot }
  have keep : g (d.plainWrite off v hw k) = g d := Dev.plainWrite_keep g (fun _ _ => rfl) (fun _ _ => rfl) (fun _ _ => rfl) d off v hw k
  exact congrArg (fun e : Dev => { e with
    regs := (d.plainWrite off v hw k).regs, tiles := (d.plainWrite off v hw k).tiles, boot := (d.plainWrite off v hw k).boot }) keep

/-- An event that hardware raises in the cycle of a write to its bit stays set and is counted, whatever is written and whoever
writes (R8, R9). -/
theorem Dev.registerWrite_event (d : Dev) (w : Who) {off add : Nat} {r : RegDef} {e : Ev} (v : Nat) (h : off % 8 = 0)
    (hbase : off ≠ 0x8000020) (hat : regAt off = some (r, add)) (he : e ∈ allEvents) (hb : e.bit ∈ r.fields)
    (hrow : rowFields.contains e.bit = false) (ht : e.bit ≠ F.MBX_TRACE_CTRL_ENABLE) :
    (d.registerWrite w off 64 v (2 ^ e.bit.lo)).fget e.bit (add + d.bank w off) = 1 ∧
      (d.registerWrite w off 64 v (2 ^ e.bit.lo)).fget e.cnt (add + d.bank w off) =
        min (d.fget e.cnt (add + d.bank w off) + 1) (2 ^ e.cnt.w - 1) := by
  have hr := mem_regDefs_of_regAt hat
  obtain ⟨hw, hacc, -⟩ := allEvents_bit_cnt e he
  rw [d.registerWrite_aligned w v _ h, d.hwSets_eq_event hat he hb]
  generalize d.bank w off = k
  have key : e.bit.key (add + k) ≠ e.cnt.key (add + k) := cnt_key_ne_of_mem hr he hb hb _
  have raised := d.fget_event_bit e (add + k) hw key.symm
  have counted := d.fget_event_cnt e (add + k) key
  split
  · refine ⟨?_, ?_⟩
    · rw [Dev.fget_plainWrite_w1c _ hat hbase hb hrow ht _ _ _ hacc hw, raised]
      simp
    · have cnt : e.cnt.key (add + k) ∉ r.fields.map fun g => g.key (add + k) := by
        simpa using fun g hg => cnt_key_ne_of_mem hr he hb hg (add + k)
      rw [← counted]
      unfold Dev.fget
      rw [Dev.plainWrite_regsBut _ hat hbase _ _ _ _ cnt]
  · exact ⟨raised, counted⟩

/-- Settles O10: an aligned write folds over the fields of its register, whose bit addresses differ; what hardware sets in the
cycle is raised before the write, whose clear spares it. -/
theorem registerWritesByAccessType : Obligations.RegisterWritesByAccessType := by
  unfold Obligations.RegisterWritesByAccessType
  refine ⟨fun s who off width v hw hclk => ⟨fun hbad => ?_, fun hal hnone => ?_, fun hal hno => ?_⟩,
    fun s who off v r add f hclk hmay hal hbase hat hf hrow ht => ⟨?_, fun ev hev hbit => ?_⟩⟩
  · refine does_registerWrite hclk ?_
    rw [Dev.registerWrite_eq_accessError _ _ _ _ hbad]
    exact s.dev.accessError_counts
  · rw [exec_registerWrite _ _ _ _ _ _ hclk, Dev.registerWrite_unassigned _ _ _ _ hal hnone]
  · rw [exec_registerWrite _ _ _ _ _ _ hclk]
    exact congrArg (fun d => Host.Outcome.next { s with dev := d }) (s.dev.registerWrite_denied who v.toNat hal hno)
  · refine does_registerWrite hclk ?_
    rw [show (0 : Word).toNat = 0 from rfl, Dev.registerWrite_allowed _ _ _ hal hmay]
    refine ⟨s.dev.fget_plainWrite_rw hat hbase hf hrow ht _ _ _, s.dev.fget_plainWrite_readOnly hat hbase hf hrow ht _ _ _,
      s.dev.fget_plainWrite_w1s hat hbase hf hrow ht _ _ _, fun hacc hw hv => ?_, fun hacc hw hv => ?_,
      s.dev.plainWrite_regsBut hat hbase _ _ _, s.dev.plainWrite_frame _ _ _ _⟩
    all_goals simp [s.dev.fget_plainWrite_w1c hat hbase hf hrow ht _ _ _ hacc hw, hv]
  · subst hbit
    have hlt : 2 ^ ev.bit.lo < 2 ^ 64 :=
      Nat.pow_lt_pow_right (by decide) ((regDefs_fields r (mem_regDefs_of_regAt hat)).1 _ hf).2
    refine does_registerWrite hclk ?_
    rw [BitVec.toNat_ofNat, Nat.mod_eq_of_lt hlt]
    exact s.dev.registerWrite_event who v.toNat hal hbase hat hev hf hrow ht

end Sys2Proof.Machine

namespace Sys2Proof

open Sys2Proof.Machine

/-! ## Registers left alone -/

theorem regsBut.mono {ks ls : List Nat} {d e : Dev} (h : regsBut ks d e) (sub : ∀ k ∈ ks, k ∈ ls) : regsBut ls d e :=
  fun k hk => h k fun hm => hk (sub k hm)

theorem regsBut.trans {ks ls : List Nat} {c d e : Dev} (h : regsBut ks c d) (i : regsBut ls d e) : regsBut (ks ++ ls) c e :=
  fun k hk => by
    rw [List.mem_append, not_or] at hk
    exact (i k hk.2).trans (h k hk.1)

/-- A field whose bit address is left reads as before. -/
theorem regsBut.fget {ks : List Nat} {d e : Dev} (h : regsBut ks d e) (f : Fld) (a : Nat) (hk : f.key a ∉ ks) : e.fget f a = d.fget f a := by
  unfold Dev.fget; rw [h _ hk]

theorem regsBut_of_regs {ks : List Nat} {d e : Dev} (h : e.regs = d.regs) : regsBut ks d e := fun k _ => by rw [h]

end Sys2Proof

namespace Sys2Proof.Machine

/-! ## The registers an operation leaves -/

theorem Dev.fset_regsBut (d : Dev) (f : Fld) (v a : Nat) : regsBut [f.key a] d (d.fset f v a) :=
  fun k hk => d.regs_fset_ne f v a k fun h => hk (by simp [h])

theorem Dev.event_regsBut (d : Dev) (e : Ev) (a : Nat) : regsBut (evKeys e a) d (d.event e a) :=
  (d.fset_regsBut e.bit 1 a).trans (Dev.fset_regsBut _ e.cnt _ a)

theorem Dev.setCycle_regsBut (d : Dev) (c : Nat) : regsBut [F.TAL_PHASE_CYCLE.key 0, F.TAL_PHASE_SLOT.key 0] d (d.setCycle c) :=
  (d.fset_regsBut _ _ _).trans (Dev.fset_regsBut _ _ _ _)

theorem Dev.refreshSched_regsBut (d : Dev) : regsBut [F.TAL_STATUS_SCHED_EN.key 0] d d.refreshSched := d.fset_regsBut _ _ _

theorem Dev.setLock_regsBut (d : Dev) (st : Nat) :
    regsBut [F.TAL_STATUS_STATE.key 0, F.TAL_STATUS_SCHED_EN.key 0] d (d.setLock st) := fun k hk => by
  simp only [List.mem_cons, List.not_mem_nil, or_false, not_or] at hk
  exact d.regs_setLock_ne st k (Ne.symm hk.1) (Ne.symm hk.2)

theorem Dev.noParent_regsBut (d : Dev) : regsBut [F.TAL_STATUS_PARENT.key 0, F.TAL_STATUS_DEPTH.key 0] d d.noParent :=
  (d.fset_regsBut _ _ _).trans (Dev.fset_regsBut _ _ _ _)

theorem Dev.chooseParent_regsBut (d : Dev) : regsBut [F.TAL_STATUS_PARENT.key 0, F.TAL_STATUS_DEPTH.key 0] d d.chooseParent := by
  unfold Dev.chooseParent
  split
  · exact d.noParent_regsBut
  · exact (d.fset_regsBut _ _ _).trans (Dev.fset_regsBut _ _ _ _)

theorem Dev.parentFound_regsBut (d : Dev) : regsBut (evKeys E.TAL_PARENT_CHANGE) d d.parentFound := by
  unfold Dev.parentFound
  split
  · exact d.event_regsBut _ _
  · exact regsBut_of_regs rfl

/-- The bit addresses that the entry into ACQUIRE may change. -/
def acquireKeys : List Nat :=
  [F.TAL_STATUS_PARENT.key 0, F.TAL_STATUS_DEPTH.key 0] ++ evKeys E.TAL_PARENT_CHANGE ++
    [F.TAL_STATUS_STATE.key 0, F.TAL_STATUS_SCHED_EN.key 0]

theorem Dev.acquireEntry_regsBut (d : Dev) : regsBut acquireKeys d d.acquireEntry := by
  unfold Dev.acquireEntry
  split
  · exact (d.chooseParent_regsBut.trans (Dev.parentFound_regsBut _)).trans (Dev.setLock_regsBut _ 2)
  · exact regsBut_of_regs rfl

/-! ## What the tally's operations set -/

theorem Dev.schedEn_refreshSched (d : Dev) : d.refreshSched.schedEn =
    ((d.lockState == 3 || d.lockState == 4) && !d.tally.boundOff && !d.flag F.TAL_CTRL_SCHED_OFF) := by
  unfold Dev.refreshSched Dev.schedEn Dev.flag Dev.fsetB
  rw [Dev.fget_fset_self]
  split <;> simp_all [F.TAL_STATUS_SCHED_EN]

/-- A state that is neither LOCKED nor HOLDOVER disables the scheduled class (Table 2-2). -/
theorem Dev.schedEn_setLock (d : Dev) (st : Nat) (h : st < 3) : (d.setLock st).schedEn = false := by
  have key : (d.fset F.TAL_STATUS_STATE st).refreshSched.schedEn = false := by
    have hst : (d.fset F.TAL_STATUS_STATE st).lockState = st :=
      (d.fget_fset_self _ _ _).trans (Nat.mod_eq_of_lt (by simp [F.TAL_STATUS_STATE]; omega))
    rw [Dev.schedEn_refreshSched, hst]
    interval_cases st <;> rfl
  have h3 : (st = 3 || st = 4) = false := by simp; omega
  unfold Dev.setLock
  dsimp only
  rw [h3]
  split
  · unfold Dev.schedEn Dev.flag; rw [Dev.fget_failPending]; exact key
  · exact key

@[simp] theorem Dev.stamps_setLock (d : Dev) (st : Nat) : (d.setLock st).tally.stamps = d.tally.stamps := by
  unfold Dev.setLock
  dsimp only
  by_cases h : (st = 3 || st = 4) = true
  · simp only [h, if_true]
    split
    · rw [Dev.failPending_tally]; rfl
    · rfl
  · simp only [h]
    split
    · rw [Dev.failPending_tally]; rfl
    · rfl

theorem Dev.fget_noParent_parent (d : Dev) : d.noParent.fget F.TAL_STATUS_PARENT = 0xF := by
  unfold Dev.noParent
  rw [Dev.fget_fset_ne _ _ _ _ _ _ (by decide), Dev.fget_fset_self]
  rfl

/-- The bit addresses of the links' states lie above those of the tally. -/
theorem linkKey_notMem {ks : List Nat} (h : ∀ k ∈ ks, k < F.LNK_STATUS_LINK.key 0) (p : Nat) :
    F.LNK_STATUS_LINK.key (portAdd p) ∉ ks := fun hm => by
  have := h _ hm
  unfold Fld.key at this
  omega

/-- The parent a device would choose stays while the stamps and the links' states do. -/
theorem Dev.bestParent_of_regsBut {ks : List Nat} {d e : Dev} (r : regsBut ks d e) (t : e.tally.stamps = d.tally.stamps)
    (h : ∀ k ∈ ks, k < F.LNK_STATUS_LINK.key 0) : e.bestParent = d.bestParent :=
  Dev.bestParent_congr t fun p => r.fget _ _ (linkKey_notMem h p)

/-- A device that is UNLOCKED enters ACQUIRE where a neighbour is LOCKED (Table 2-3). -/
theorem Dev.lockState_acquireEntry (d : Dev) (h : d.lockState = 1) :
    d.acquireEntry.lockState = if d.bestParent.isSome then 2 else 1 := by
  unfold Dev.acquireEntry
  cases hp : d.bestParent.isSome
  · simp [h]
  · simpa [h] using Dev.lockState_setLock _ 2 (by decide)

theorem Dev.lockState_of_regsBut {ks : List Nat} {d e : Dev} (r : regsBut ks d e) (h : F.TAL_STATUS_STATE.key 0 ∉ ks) :
    e.lockState = d.lockState := r.fget _ _ h

theorem Dev.now_of_regsBut {ks : List Nat} {d e : Dev} (r : regsBut ks d e) (h : F.TAL_COUNT_COUNT.key 0 ∉ ks) : e.now = d.now :=
  r.fget _ _ h

/-! ## Memory through the tally's operations -/

/-- Memory and its poison. -/
def Dev.memOf (d : Dev) : List Host.Cell × FMap Unit := (d.mem, d.poison)

theorem memSame_of_memOf {d e : Dev} (h : e.memOf = d.memOf) : memSame d e := ⟨congrArg Prod.fst h, congrArg Prod.snd h⟩

section memOf
variable (d : Dev)

@[simp] theorem Dev.memOf_fset (f : Fld) (v a : Nat) : (d.fset f v a).memOf = d.memOf := rfl
@[simp] theorem Dev.memOf_event (e : Ev) (a : Nat) : (d.event e a).memOf = d.memOf := rfl
@[simp] theorem Dev.memOf_noParent : d.noParent.memOf = d.memOf := rfl
@[simp] theorem Dev.memOf_chooseParent : d.chooseParent.memOf = d.memOf := Dev.chooseParent_keep Dev.memOf (fun _ _ => rfl) d
@[simp] theorem Dev.memOf_parentFound : d.parentFound.memOf = d.memOf :=
  Dev.parentFound_keep Dev.memOf (fun _ _ => rfl) (fun _ _ => rfl) d
@[simp] theorem Dev.memOf_setLock (st : Nat) : (d.setLock st).memOf = d.memOf :=
  Dev.setLock_keep Dev.memOf (fun _ _ => rfl) (fun _ _ => rfl) (fun _ _ => rfl) (fun _ _ => rfl) (fun _ _ => rfl) (fun _ _ => rfl) d st
@[simp] theorem Dev.memOf_acquireEntry : d.acquireEntry.memOf = d.memOf :=
  Dev.acquireEntry_keep Dev.memOf (fun _ _ => rfl) (fun _ _ => rfl) (fun _ _ => rfl) (fun _ _ => rfl) (fun _ _ => rfl) (fun _ _ => rfl) d
@[simp] theorem Dev.memOf_sendStamps : d.sendStamps.memOf = d.memOf :=
  Dev.sendStamps_keep Dev.memOf (fun _ _ => rfl) (fun _ _ => rfl) (fun _ _ => rfl) (fun _ _ => rfl) d
@[simp] theorem Dev.memOf_lockOn (c : Nat) (off : Int) : (d.lockOn c off).memOf = d.memOf :=
  Dev.lockOn_keep Dev.memOf (fun _ _ => rfl) (fun _ _ => rfl) (fun _ _ => rfl) (fun _ _ => rfl) (fun _ _ => rfl) (fun _ _ => rfl) d c off
@[simp] theorem Dev.memOf_trackStamp (c : Nat) (off : Int) : (d.trackStamp c off).memOf = d.memOf :=
  Dev.trackStamp_keep Dev.memOf (fun _ _ => rfl) (fun _ _ => rfl) d c off

end memOf

/-! ## The loss of the reference, beside the registers -/

/-- A device without its registers, its tally, its ledgers, its management and its outputs. -/
def Dev.besidesTally (d : Dev) : Dev :=
  { d with regs := [], tally := TallyS.init, led0 := Ledger.init, led1 := Ledger.init, mg := MgmtS.init, out := [] }

theorem Dev.eq_of_besidesTally {d e : Dev} (h : e.besidesTally = d.besidesTally) :
    e = { d with regs := e.regs, tally := e.tally, led0 := e.led0, led1 := e.led1, mg := e.mg, out := e.out } :=
  congrArg (fun z : Dev => { z with regs := e.regs, tally := e.tally, led0 := e.led0, led1 := e.led1, mg := e.mg, out := e.out }) h

/-- The reference present, REF_LOST clears it, raises the event, takes the state FREE_RUN and leaves no parent. -/
theorem Dev.refLost_of_present (d : Dev) (h : d.flag F.TAL_STATUS_REF_PRESENT = true) :
    d.refLost.regs = (((d.fset F.TAL_STATUS_REF_PRESENT 0).event E.TAL_REF_LOST).setLock 0).noParent.regs ∧
      d.refLost.besidesTally = d.besidesTally := by
  have locked : (((d.fset F.TAL_STATUS_REF_PRESENT 0).event E.TAL_REF_LOST).setLock 0).besidesTally = d.besidesTally :=
    (Dev.setLock_keep Dev.besidesTally (fun _ _ => rfl) (fun _ _ => rfl) (fun _ _ => rfl) (fun _ _ => rfl) (fun _ _ => rfl)
      (fun _ _ => rfl) _ 0).trans (Dev.event_keep Dev.besidesTally (fun _ _ => rfl) _ _ _)
  unfold Dev.refLost
  rw [if_pos h]
  generalize ((d.fset F.TAL_STATUS_REF_PRESENT 0).event E.TAL_REF_LOST).setLock 0 = b at locked ⊢
  exact ⟨rfl, locked⟩

/-- A command that leaves the device as it is answers the state itself. -/
theorem exec_onLive_same {c : Instr} {s : State} (f : Dev → Dev) (hc : exec c s = onLive f s) (h : f s.dev = s.dev) :
    exec c s = .next s := by
  rw [hc]
  unfold onLive onDev
  simp [h]

end Sys2Proof.Machine

namespace Sys2Proof.Machine

/-! ## Frames that go out -/

section sending
variable {β : Type} (g : Dev → β) (p : Nat) (hcnt : ∀ d n, g (d.count F.LNK_TX_UNITS_COUNT n (portAdd p)) = g d)
  (hports : ∀ d x, g { d with ports := x } = g d) (hout : ∀ d x, g { d with out := x } = g d)
  (hfree : ∀ d x, g { d with free := x } = g d)
include hcnt hports hout hfree

/-- A frame that goes out on a port keeps all but that port's count of units, the ports, the outputs and the free counter. -/
theorem Dev.emitFrame_keepSent (d : Dev) (f : TxFrame) : g (d.emitFrame p f) = g d := by
  have counted : g (if f.kind = 1 then d.count F.LNK_TX_UNITS_COUNT f.units.length (portAdd p) else d) = g d := by
    split
    · exact hcnt _ _
    · rfl
  unfold Dev.emitFrame
  split
  · rfl
  · dsimp only
    generalize (if f.kind = 1 then d.count F.LNK_TX_UNITS_COUNT f.units.length (portAdd p) else d) = c at counted ⊢
    split
    · exact (Dev.joinBatch_keep g hports hout hfree _ _ _).trans ((hout _ _).trans counted)
    · exact (hout _ _).trans counted

theorem Dev.sendFrame_keepSent (d : Dev) (f : TxFrame) : g (d.sendFrame p f) = g d := by
  unfold Dev.sendFrame
  dsimp only
  split
  · exact hports d _
  · exact (Dev.emitFrame_keepSent g p hcnt hports hout hfree _ _).trans (hports d _)

theorem Dev.sendCtl_keepSent (d : Dev) (k : Nat) (vs : List Nat) : g (d.sendCtl p k vs) = g d := by
  unfold Dev.sendCtl Dev.sendUnit
  split
  · exact Dev.sendFrame_keepSent g p hcnt hports hout hfree _ _
  · exact Dev.emitFrame_keepSent g p hcnt hports hout hfree _ _

theorem Dev.sendWaiting_keepSent (d : Dev) (n : Nat) : g (d.sendWaiting p n) = g d := by
  induction n generalizing d with
  | zero => rfl
  | succ n ih =>
    unfold Dev.sendWaiting
    dsimp only
    split
    · rfl
    · split
      · rfl
      · exact (ih _).trans ((Dev.sendFrame_keepSent g p hcnt hports hout hfree _ _).trans (hports d _))

theorem Dev.slotBegins_keepSent (d : Dev) : g (d.slotBegins p) = g d := by
  have resent : ∀ fs, g (d.resend p fs) = g d := fun fs =>
    (hports _ _).trans (foldl_keep g _ (fun d f => Dev.emitFrame_keepSent g p hcnt hports hout hfree d f) _ d)
  unfold Dev.slotBegins
  split
  · exact (Dev.sendWaiting_keepSent g p hcnt hports hout hfree _ _).trans (resent _)
  · exact Dev.sendWaiting_keepSent g p hcnt hports hout hfree _ _

theorem Dev.sendState_keepSent (d : Dev) : g (d.sendState p) = g d :=
  (Dev.sendCtl_keepSent g p hcnt hports hout hfree _ _ _).trans (hports d _)

theorem Dev.grant_keepSent (d : Dev) : g (d.grant p) = g d := by
  unfold Dev.grant
  dsimp only
  split
  · exact hports d _
  · exact (Dev.sendCtl_keepSent g p hcnt hports hout hfree _ _ _).trans (hports d _)

theorem Dev.linkTickOne_keepSent (d : Dev) : g (d.linkTickOne p) = g d := by
  have granted : g (if d.link p = 3 then d.grant p else d) = g d := by
    split
    · exact Dev.grant_keepSent g p hcnt hports hout hfree d
    · rfl
  unfold Dev.linkTickOne
  dsimp only
  generalize (if d.link p = 3 then d.grant p else d) = c at granted ⊢
  split
  · exact (Dev.sendState_keepSent g p hcnt hports hout hfree c).trans granted
  · exact granted

end sending

section sendingAll
variable {β : Type} (g : Dev → β) (hcnt : ∀ p d n, g (d.count F.LNK_TX_UNITS_COUNT n (portAdd p)) = g d)
  (hports : ∀ d x, g { d with ports := x } = g d) (hout : ∀ d x, g { d with out := x } = g d)
  (hfree : ∀ d x, g { d with free := x } = g d)
include hcnt hports hout hfree

theorem Dev.sendStamps_keepSent (d : Dev) : g d.sendStamps = g d := by
  unfold Dev.sendStamps
  dsimp only
  split
  · refine foldl_keep g _ (fun d p => ?_) _ d
    split
    · exact Dev.sendFrame_keepSent g p (hcnt p) hports hout hfree _ _
    · rfl
  · rfl

theorem Dev.linkTick_keepSent (d : Dev) : g d.linkTick = g d :=
  (foldl_keep g _ (fun d p => Dev.slotBegins_keepSent g p (hcnt p) hports hout hfree d) _ _).trans
    ((hports _ _).trans (foldl_keep g _ (fun d p => Dev.linkTickOne_keepSent g p (hcnt p) hports hout hfree d) _ d))

/-- What a tick sends keeps all but the counts of units, the ports, the outputs and the free counter. -/
theorem Dev.tickSends_keepSent (d : Dev) : g d.sendStamps.linkTick = g d :=
  (Dev.linkTick_keepSent g hcnt hports hout hfree _).trans (Dev.sendStamps_keepSent g hcnt hports hout hfree d)

end sendingAll

/-- A bit address below those of the links is no port's count of units. -/
theorem txUnitsKey_ne {k : Nat} (h : k < F.LNK_TX_UNITS_COUNT.key 0) (p : Nat) : F.LNK_TX_UNITS_COUNT.key (portAdd p) ≠ k := by
  unfold Fld.key at *
  omega

/-- The frames of a port leave every bit address below those of the links. -/
theorem Dev.fmGet_count_txUnits {k : Nat} (h : k < F.LNK_TX_UNITS_COUNT.key 0) (p : Nat) (d : Dev) (n : Nat) :
    fmGet (d.count F.LNK_TX_UNITS_COUNT n (portAdd p)).regs k = fmGet d.regs k :=
  d.regs_fset_ne _ _ _ _ (txUnitsKey_ne h p)

theorem Dev.fget_sendStamps (d : Dev) (f : Fld) (a : Nat) (h : f.key a < F.LNK_TX_UNITS_COUNT.key 0) :
    d.sendStamps.fget f a = d.fget f a := by
  unfold Dev.fget
  rw [Dev.sendStamps_keepSent (fun e => fmGet e.regs (f.key a)) (Dev.fmGet_count_txUnits h) (fun _ _ => rfl) (fun _ _ => rfl)
    (fun _ _ => rfl)]

theorem Dev.fget_tickSends (d : Dev) (f : Fld) (a : Nat) (h : f.key a < F.LNK_TX_UNITS_COUNT.key 0) :
    d.sendStamps.linkTick.fget f a = d.fget f a := by
  unfold Dev.fget
  rw [Dev.tickSends_keepSent (fun e => fmGet e.regs (f.key a)) (Dev.fmGet_count_txUnits h) (fun _ _ => rfl) (fun _ _ => rfl)
    (fun _ _ => rfl)]

/-! ## REF_LOST, REF_PRESENT, REF_VALID -/

theorem refLost_does {s : State} (hl : s.dev.live = true) (hp : s.dev.flag F.TAL_STATUS_REF_PRESENT = true) :
    Does .refLost s fun e =>
      e.fget F.TAL_STATUS_REF_PRESENT = 0 ∧ e.fget F.TAL_EVENT_REF_LOST = 1 ∧
      e.fget F.TAL_EVCNT0_REF_LOST_CNT = min (s.dev.fget F.TAL_EVCNT0_REF_LOST_CNT + 1) 0xFFFF ∧
      e.lockState = 0 ∧ e.schedEn = false ∧ e.fget F.TAL_STATUS_PARENT = 0xF ∧
      regsBut ([F.TAL_STATUS_REF_PRESENT.key 0, F.TAL_STATUS_STATE.key 0, F.TAL_STATUS_SCHED_EN.key 0,
        F.TAL_STATUS_PARENT.key 0, F.TAL_STATUS_DEPTH.key 0] ++ evKeys E.TAL_REF_LOST) s.dev e ∧
      e = { s.dev with regs := e.regs, tally := e.tally, led0 := e.led0, led1 := e.led1, mg := e.mg, out := e.out } := by
  refine does_live Dev.refLost rfl hl ?_
  generalize s.dev = d at hp
  obtain ⟨same, besides⟩ := d.refLost_of_present hp
  generalize d.refLost = e at same besides
  have absent := d.fset_regsBut F.TAL_STATUS_REF_PRESENT 0 0
  have raised := (d.fset F.TAL_STATUS_REF_PRESENT 0).event_regsBut E.TAL_REF_LOST 0
  have bit := (d.fset F.TAL_STATUS_REF_PRESENT 0).fget_event_bit E.TAL_REF_LOST 0 rfl (by decide)
  have cnt := (d.fset F.TAL_STATUS_REF_PRESENT 0).fget_event_cnt E.TAL_REF_LOST 0 (by decide)
  have zero := d.fget_fset_self F.TAL_STATUS_REF_PRESENT 0 0
  generalize d.fset F.TAL_STATUS_REF_PRESENT 0 = a at *
  generalize a.event E.TAL_REF_LOST = b at *
  have parted := (b.setLock 0).noParent_regsBut.trans (regsBut_of_regs (ks := []) same)
  have freed := (b.setLock_regsBut 0).trans parted
  refine ⟨?_, ?_, ?_, ?_, ?_, ?_, ?_, Dev.eq_of_besidesTally besides⟩
  · exact ((raised.trans freed).fget _ _ (by decide)).trans zero
  · exact (freed.fget _ _ (by decide)).trans bit
  · exact (freed.fget _ _ (by decide)).trans (cnt.trans (by rw [absent.fget _ _ (by decide)]; rfl))
  · exact (parted.fget _ _ (by decide)).trans (b.lockState_setLock 0 (by decide))
  · exact (congrArg (· != 0) (parted.fget _ _ (by decide))).trans (b.schedEn_setLock 0 (by decide))
  · exact (Dev.fget_congr same _ _).trans (Dev.fget_noParent_parent _)
  · exact (absent.trans (raised.trans freed)).mono (by decide)

theorem refPresent_does {s : State} (hl : s.dev.live = true) :
    Does .refPresent s fun e =>
      e.fget F.TAL_STATUS_REF_PRESENT = 1 ∧ regsBut [F.TAL_STATUS_REF_PRESENT.key 0] s.dev e ∧ e = { s.dev with regs := e.regs } :=
  does_live Dev.refPresent rfl hl ⟨Dev.fget_fset_self _ _ _ _, Dev.fset_regsBut _ _ _ _, rfl⟩

/-- The master is LOCKED with the highest count advertised, and has no parent (R36). -/
theorem Dev.refValid_master (d : Dev) (h0 : d.lockState = 0) (hp : d.flag F.TAL_STATUS_REF_PRESENT = true) (hm : d.isMaster = true) :
    d.refValid.lockState = 3 ∧ d.refValid.now = d.advertised % 2 ^ 64 ∧ d.refValid.fget F.TAL_STATUS_PARENT = 0xF := by
  have e : d.refValid = (((d.fset F.TAL_COUNT_COUNT d.advertised).setLock 3).noParent).sendStamps := by
    simp [Dev.refValid, h0, hp, hm]
  rw [e]
  set b := (d.fset F.TAL_COUNT_COUNT d.advertised).setLock 3
  refine ⟨?_, ?_, ?_⟩
  · exact (Dev.fget_sendStamps _ _ _ (by decide)).trans
      ((Dev.lockState_of_regsBut b.noParent_regsBut (by decide)).trans (Dev.lockState_setLock _ 3 (by decide)))
  · refine (Dev.fget_sendStamps _ _ _ (by decide)).trans ?_
    exact (((Dev.setLock_regsBut _ 3).trans (Dev.noParent_regsBut _)).fget _ _ (by decide)).trans (d.fget_fset_self _ _ _)
  · exact (Dev.fget_sendStamps _ _ _ (by decide)).trans b.fget_noParent_parent

/-- Any other device is UNLOCKED, or already in ACQUIRE where a neighbour is LOCKED (R43, Table 2-3). -/
theorem Dev.refValid_other (d : Dev) (h0 : d.lockState = 0) (hp : d.flag F.TAL_STATUS_REF_PRESENT = true) (hm : d.isMaster = false) :
    d.refValid.now = d.now ∧ d.refValid.lockState = if d.bestParent.isSome then 2 else 1 := by
  have e : d.refValid = ((d.setLock 1).noParent).acquireEntry := by
    simp [Dev.refValid, h0, hp, hm]
  have freed := (d.setLock_regsBut 1).trans (Dev.noParent_regsBut _)
  rw [e]
  refine ⟨Dev.now_of_regsBut (freed.trans (Dev.acquireEntry_regsBut _)) (by decide), ?_⟩
  rw [Dev.lockState_acquireEntry, Dev.bestParent_of_regsBut freed (d.stamps_setLock 1) (by decide)]
  exact (Dev.lockState_of_regsBut (Dev.noParent_regsBut _) (by decide)).trans (Dev.lockState_setLock _ 1 (by decide))

theorem Dev.memOf_refValid (d : Dev) : d.refValid.memOf = d.memOf := by
  unfold Dev.refValid
  split
  · split <;> simp
  · rfl

/-- Settles O7: each command's registers follow from what setLock, noParent and acquireEntry set and leave. -/
theorem referenceLossAndReturn : Obligations.ReferenceLossAndReturn := by
  unfold Obligations.ReferenceLossAndReturn
  refine ⟨fun s hl => ⟨refLost_does hl, fun hp => ?_⟩, fun s hl => refPresent_does hl, fun s hl => ⟨fun h0 hp => ?_, fun h0 => ?_⟩⟩
  · exact exec_onLive_same Dev.refLost rfl (if_neg (by simp [hp]))
  · exact does_live Dev.refValid rfl hl
      ⟨s.dev.refValid_master h0 hp, s.dev.refValid_other h0 hp, memSame_of_memOf s.dev.memOf_refValid⟩
  · exact exec_onLive_same Dev.refValid rfl (if_neg (by simp [h0]))

end Sys2Proof.Machine

namespace Sys2Proof.Machine

/-! ## The parent is lost, holdover ends -/

/-- The parent given up, its stamps forgotten, with the event (R38). -/
def Dev.dropParent (d : Dev) : Dev :=
  (if d.fget F.TAL_STATUS_PARENT = 0xF then d else d.forgetPort (d.fget F.TAL_STATUS_PARENT)).event E.TAL_STAMP_LOST

theorem Dev.dropParent_regs (d : Dev) : d.dropParent.regs = (d.event E.TAL_STAMP_LOST).regs := by
  unfold Dev.dropParent
  split <;> rfl

theorem Dev.dropParent_regsBut (d : Dev) : regsBut (evKeys E.TAL_STAMP_LOST) d d.dropParent :=
  (d.event_regsBut E.TAL_STAMP_LOST 0).trans (regsBut_of_regs (ks := []) d.dropParent_regs) |>.mono (by decide)

theorem Dev.fget_dropParent_event (d : Dev) : d.dropParent.fget F.TAL_EVENT_STAMP_LOST = 1 :=
  (Dev.fget_congr d.dropParent_regs _ _).trans (d.fget_event_bit E.TAL_STAMP_LOST 0 rfl (by decide))

@[simp] theorem Dev.memOf_dropParent (d : Dev) : d.dropParent.memOf = d.memOf := by
  unfold Dev.dropParent
  split <;> rfl

/-- The loss of the parent, by the lock state of a device that is not the master (R38, Table 2-3). -/
theorem Dev.parentLost_cases (d : Dev) (hm : d.isMaster = false) :
    (d.lockState = 3 → d.parentLost = (d.dropParent.setLock 4).chooseParent) ∧
    (d.lockState = 4 → d.fget F.TAL_STATUS_PARENT ≠ 0xF → d.parentLost = d.dropParent.chooseParent) ∧
    (d.lockState = 2 → d.parentLost = ((d.dropParent.setLock 1).noParent).acquireEntry) := by
  refine ⟨fun h => ?_, fun h hp => ?_, fun h => ?_⟩ <;> simp [Dev.parentLost, Dev.dropParent, *]

/-- UNLOCKED from another state, a device without a parent goes on to ACQUIRE where a neighbour is LOCKED. -/
theorem Dev.lockState_unlock (d : Dev) {ks : List Nat} {e : Dev} (r : regsBut ks (d.setLock 1) e)
    (h : F.TAL_STATUS_STATE.key 0 ∉ ks) : e.acquireEntry.lockState = if e.bestParent.isSome then 2 else 1 :=
  e.lockState_acquireEntry ((Dev.lockState_of_regsBut r h).trans (d.lockState_setLock 1 (by decide)))

/-- The loss of a parent, once the device that results is known and the registers it leaves. -/
theorem stampLost_does {s : State} (hl : s.dev.live = true) (P : Nat → Prop) {e : Dev} {ks : List Nat}
    (he : s.dev.parentLost = e) (r : regsBut ks s.dev.dropParent e) (ev : F.TAL_EVENT_STAMP_LOST.key 0 ∉ ks)
    (n : F.TAL_COUNT_COUNT.key 0 ∉ ks) (m : e.memOf = s.dev.memOf) (hP : P e.lockState) :
    Does .stampLost s fun e => P e.lockState ∧ e.fget F.TAL_EVENT_STAMP_LOST = 1 ∧ e.now = s.dev.now ∧ memSame s.dev e := by
  refine does_live Dev.parentLost rfl hl ?_
  rw [he]
  exact ⟨hP, (r.fget _ _ ev).trans s.dev.fget_dropParent_event,
    (r.fget _ _ n).trans (s.dev.dropParent_regsBut.fget _ _ (by decide)), memSame_of_memOf m⟩

theorem holdExpired_does {s : State} (hl : s.dev.live = true) (h4 : s.dev.lockState = 4) :
    Does .holdExpired s fun e =>
      (e.lockState = if s.dev.bestParent.isSome then 2 else 1) ∧ e.fget F.TAL_EVENT_HOLD_EXPIRED = 1 ∧ e.now = s.dev.now ∧
      memSame s.dev e := by
  refine does_live Dev.holdExpired rfl hl ?_
  generalize s.dev = d at h4
  have he : d.holdExpired = (((d.setLock 1).event E.TAL_HOLD_EXPIRED).noParent).acquireEntry := by simp [Dev.holdExpired, h4]
  have m : d.holdExpired.memOf = d.memOf := by rw [he]; simp
  have raised := (d.setLock 1).event_regsBut E.TAL_HOLD_EXPIRED 0
  have bit := (d.setLock 1).fget_event_bit E.TAL_HOLD_EXPIRED 0 rfl (by decide)
  have stamps : ((d.setLock 1).event E.TAL_HOLD_EXPIRED).noParent.tally.stamps = d.tally.stamps := d.stamps_setLock 1
  have parted := ((d.setLock 1).event E.TAL_HOLD_EXPIRED).noParent_regsBut
  have entered := ((d.setLock 1).event E.TAL_HOLD_EXPIRED).noParent.acquireEntry_regsBut
  have freed := (d.setLock_regsBut 1).trans (raised.trans parted)
  refine ⟨?_, ?_, ?_, memSame_of_memOf m⟩ <;> rw [he]
  · rw [d.lockState_unlock (raised.trans parted) (by decide), Dev.bestParent_of_regsBut freed stamps (by decide)]
  · exact ((parted.trans entered).fget _ _ (by decide)).trans bit
  · exact (freed.trans entered).fget _ _ (by decide)

theorem schedClassRestored_does {s : State} (hl : s.dev.live = true) (h3 : s.dev.lockState = 3) :
    Does .schedClassRestored s fun e =>
      e.schedEn = !s.dev.flag F.TAL_CTRL_SCHED_OFF ∧ regsBut [F.TAL_STATUS_SCHED_EN.key 0] s.dev e ∧ memSame s.dev e := by
  refine does_live Dev.schedRestored rfl hl ?_
  let x : Dev := { s.dev with tally := { s.dev.tally with boundOff := false } }
  have he : s.dev.schedRestored = x.refreshSched := by simp [Dev.schedRestored, h3, x]
  have hx : x.lockState = 3 ∧ x.tally.boundOff = false ∧ x.flag F.TAL_CTRL_SCHED_OFF = s.dev.flag F.TAL_CTRL_SCHED_OFF := ⟨h3, rfl, rfl⟩
  rw [he]
  refine ⟨?_, x.refreshSched_regsBut, rfl, rfl⟩
  rw [Dev.schedEn_refreshSched, hx.1, hx.2.1, hx.2.2]
  rfl

/-! ## RELOCK and SCHED_OFF -/

/-- A control core writes no register of the tally (R454). -/
theorem Dev.mayWrite_core_talCtrl (d : Dev) (t : BitVec 9) : d.mayWrite (.core t) talCtrlOff = false := by
  have below : ¬ 0x1000000 + tileAdd t.toNat ≤ talCtrlOff := by unfold talCtrlOff; omega
  simp [Dev.mayWrite, below]

theorem relock_does {s : State} (hl : s.dev.live = true) (hm : s.dev.isMaster = false) (h0 : s.dev.lockState ≠ 0) :
    Does (.relock .operator) s fun e =>
      e.lockState = 2 ∧ e.fget F.TAL_CTRL_RELOCK = 0 ∧ e.now = s.dev.now ∧ memSame s.dev e := by
  refine does_live (fun d => if d.mayWrite .operator talCtrlOff then d.relock else d) rfl hl ?_
  generalize s.dev = d at hm h0
  have he : d.relock = ((d.setLock 2).chooseParent.parentFound).fset F.TAL_CTRL_RELOCK 0 := by simp [Dev.relock, hm, h0]
  have r : regsBut _ (d.setLock 2) _ :=
    (Dev.chooseParent_regsBut _).trans ((Dev.parentFound_regsBut _).trans (Dev.fset_regsBut _ F.TAL_CTRL_RELOCK 0 0))
  show d.relock.lockState = 2 ∧ d.relock.fget _ = 0 ∧ d.relock.now = d.now ∧ memSame d d.relock
  rw [he]
  exact ⟨(r.fget _ _ (by decide)).trans (d.lockState_setLock 2 (by decide)), Dev.fget_fset_self _ _ _ _,
    ((d.setLock_regsBut 2).trans r).fget _ _ (by decide), memSame_of_memOf (by simp)⟩

/-- The master and a device in FREE_RUN only clear the bit (R43). -/
theorem Dev.relock_noEffect (d : Dev) (h : d.isMaster = true ∨ d.lockState = 0) : d.relock = d.fset F.TAL_CTRL_RELOCK 0 :=
  if_pos (by simpa using h)

theorem schedOff_does {s : State} (hl : s.dev.live = true) (v : Bool) :
    Does (.schedOff .operator v) s fun e =>
      e.fget F.TAL_CTRL_SCHED_OFF = (if v then 1 else 0) ∧ (v = true → e.schedEn = false) ∧
      regsBut [F.TAL_CTRL_SCHED_OFF.key 0, F.TAL_STATUS_SCHED_EN.key 0] s.dev e ∧ e = { s.dev with regs := e.regs } := by
  refine does_live (fun d => if d.mayWrite .operator talCtrlOff then d.schedOff v else d) rfl hl ?_
  show _ ∧ _ ∧ _ ∧ s.dev.schedOff v = _
  have set : (s.dev.fsetB F.TAL_CTRL_SCHED_OFF v).fget F.TAL_CTRL_SCHED_OFF = if v then 1 else 0 :=
    (Dev.fget_fset_self _ _ _ _).trans (by cases v <;> rfl)
  refine ⟨((Dev.refreshSched_regsBut _).fget _ _ (by decide)).trans set, fun hv => ?_,
    (s.dev.fset_regsBut F.TAL_CTRL_SCHED_OFF _ 0).trans (Dev.refreshSched_regsBut _), rfl⟩
  have off : (s.dev.fsetB F.TAL_CTRL_SCHED_OFF v).flag F.TAL_CTRL_SCHED_OFF = true := by
    unfold Dev.flag; rw [set, hv]; rfl
  refine (Dev.schedEn_refreshSched _).trans ?_
  rw [off]
  simp

/-- Settles O9, by the lock state in which the parent is lost and the holdover ends. -/
theorem parentLossHoldoverAndRelock : Obligations.ParentLossHoldoverAndRelock := by
  unfold Obligations.ParentLossHoldoverAndRelock
  refine ⟨fun s hl hm => ⟨fun h3 => ?_, fun h2 => ?_, fun h4 hp => ?_, holdExpired_does hl, schedClassRestored_does hl⟩,
    fun s hl => ⟨relock_does hl, fun h => ?_, schedOff_does hl, fun t v => ⟨?_, ?_⟩⟩⟩
  · have r := (s.dev.dropParent.setLock_regsBut 4).trans (Dev.chooseParent_regsBut _)
    exact stampLost_does hl (· = 4) ((s.dev.parentLost_cases hm).1 h3) r (by decide) (by decide) (by simp)
      (((Dev.chooseParent_regsBut _).fget _ _ (by decide)).trans (Dev.lockState_setLock _ 4 (by decide)))
  · have r := (s.dev.dropParent.setLock 1).noParent_regsBut.trans (Dev.acquireEntry_regsBut _)
    refine stampLost_does hl (fun n => n = 1 ∨ n = 2) ((s.dev.parentLost_cases hm).2.2 h2)
      ((s.dev.dropParent.setLock_regsBut 1).trans r) (by decide) (by decide) (by simp) ?_
    rw [Dev.lockState_unlock _ (Dev.noParent_regsBut _) (by decide)]
    split <;> simp
  · exact stampLost_does hl (· = 4) ((s.dev.parentLost_cases hm).2.1 h4 hp) s.dev.dropParent.chooseParent_regsBut
      (by decide) (by decide) (by simp)
      (((s.dev.dropParent_regsBut.trans (Dev.chooseParent_regsBut _)).fget _ _ (by decide)).trans h4)
  · refine does_live (fun d => if d.mayWrite .operator talCtrlOff then d.relock else d) rfl hl ?_
    show s.dev.relock.lockState = _ ∧ s.dev.relock.fget _ = 0 ∧ regsBut _ _ s.dev.relock ∧ s.dev.relock = _
    rw [s.dev.relock_noEffect h]
    exact ⟨(Dev.fset_regsBut _ _ _ _).fget _ _ (by decide), Dev.fget_fset_self _ _ _ _, Dev.fset_regsBut _ _ _ _, rfl⟩
  · exact exec_onLive_same _ rfl (if_neg (by simp [s.dev.mayWrite_core_talCtrl t]))
  · exact exec_onLive_same _ rfl (if_neg (by simp [s.dev.mayWrite_core_talCtrl t]))

end Sys2Proof.Machine

namespace Sys2Proof.Machine

/-! ## Entries of a ledger other than the one that changes -/

/-- An entry of another sequence number stays when one is changed. -/
theorem Ledger.find_modify_ne (l : Ledger) {q r : Nat} (f : Entry → Entry) (hf : ∀ e, (f e).seq = e.seq) (h : q ≠ r) :
    (l.modify q f).find r = l.find r := by
  unfold Ledger.modify Ledger.find Ledger.entries
  simp only [Ledger.pruneMirror, fmMap]
  induction l.ring with
  | nil => rfl
  | cons p m ih =>
    simp only [List.map_cons, List.find?_cons] at ih ⊢
    have keeps : (if p.2.seq = q then f p.2 else p.2).seq = p.2.seq := by
      split
      · exact hf _
      · rfl
    rw [keeps, ih]
    by_cases hp : p.2.seq = q
    · rw [hp, beq_false_of_ne h]
    · rw [if_neg hp]

theorem Dev.entry_modEntry_ne (d : Dev) (h : HalfId) {q r : Nat} (f : Entry → Entry) (hf : ∀ e, (f e).seq = e.seq) (hq : q ≠ r) :
    (d.modEntry h q f).entry h r = d.entry h r := by
  unfold Dev.entry Dev.modEntry
  rw [Dev.led_setLed, Ledger.find_modify_ne _ _ hf hq]

/-- Another entry's start leaves an entry. -/
theorem Dev.entry_startEntry_ne (d : Dev) (h : HalfId) {q r : Nat} (hq : q ≠ r) : (d.startEntry h q).entry h r = d.entry h r := by
  unfold Dev.startEntry
  rw [Dev.entry_traceRec, Dev.entry_modEntry_ne _ h _ (by simp) hq, Dev.entry_startTaken]

/-- Another entry's end leaves an entry. -/
theorem Dev.entry_endEntry_ne (d : Dev) (h : HalfId) {q r : Nat} (st n : Nat) (hq : q ≠ r) :
    (d.endEntry h q st n).entry h r = d.entry h r := by
  have ended : ∀ f : Entry → Entry, (∀ e, (f e).seq = e.seq) → ((d.modEntry h q f).traceRec 1 [q, st, n]).entry h r = d.entry h r :=
    fun f hf => by rw [Dev.entry_traceRec, Dev.entry_modEntry_ne _ h _ hf hq]
  unfold Dev.endEntry
  split
  · rfl
  · split
    · rfl
    · dsimp only
      split
      · rw [Dev.entry_emit]; exact ended _ (by simp)
      · exact ended _ (by simp)

theorem Dev.endedAs_endEntry {d : Dev} {h : HalfId} {q : Nat} {e : Entry} (st n : Nat) (he : d.entry h q = some e) (hs : e.state < 3) :
    endedAs (d.endEntry h q st n) h q st n :=
  ⟨_, Dev.entry_endEntry d h q st n e he hs, rfl, rfl⟩

/-- An entry has the sequence number it is found by. -/
theorem Dev.seq_of_entry {d : Dev} {h : HalfId} {q : Nat} {e : Entry} (he : d.entry h q = some e) : e.seq = q := by
  have := List.find?_some he
  simpa using this

/-! ## The frame of the ledger -/

/-- A device without its ledgers, its management and its outputs. -/
def Dev.besidesLedger (d : Dev) : Dev := { d with led0 := Ledger.init, led1 := Ledger.init, mg := MgmtS.init, out := [] }

theorem Dev.eq_of_besidesLedger {d e : Dev} (h : e.besidesLedger = d.besidesLedger) :
    e = { d with led0 := e.led0, led1 := e.led1, mg := e.mg, out := e.out } :=
  congrArg (fun z : Dev => { z with led0 := e.led0, led1 := e.led1, mg := e.mg, out := e.out }) h

section besidesLedger
variable (d : Dev) (h : HalfId) (q : Nat)

@[simp] theorem Dev.besidesLedger_modEntry (f : Entry → Entry) : (d.modEntry h q f).besidesLedger = d.besidesLedger :=
  Dev.modEntry_keep Dev.besidesLedger (fun _ _ => rfl) (fun _ _ => rfl) d h q f

@[simp] theorem Dev.besidesLedger_startEntry : (d.startEntry h q).besidesLedger = d.besidesLedger :=
  Dev.startEntry_keep Dev.besidesLedger (fun _ _ => rfl) (fun _ _ => rfl) (fun _ _ => rfl) d h q

@[simp] theorem Dev.besidesLedger_endEntry (st n : Nat) : (d.endEntry h q st n).besidesLedger = d.besidesLedger :=
  Dev.endEntry_keep Dev.besidesLedger (fun _ _ => rfl) (fun _ _ => rfl) (fun _ _ => rfl) (fun _ _ => rfl) d h q st n

@[simp] theorem Dev.besidesLedger_finish (st : Nat) : (d.finish h q st).besidesLedger = d.besidesLedger :=
  d.besidesLedger_endEntry h q _ st

end besidesLedger

/-! ## NOP, CANCEL and the start at a time -/

theorem Dev.endedAs_finish_ok {d : Dev} {h : HalfId} {q : Nat} {e : Entry} (he : d.entry h q = some e) (hs : e.state < 3) :
    endedAs (d.finish h q stOk) h q 3 0 := Dev.finish_endedAs stOk he hs

theorem Dev.nop_eq {d : Dev} {h : HalfId} {q : Nat} {e : Entry} (s : startable d h q 0x01 e) :
    d.nop h q = (d.startEntry h q).finish h q stOk := Dev.begin_eq _ s

/-- CANCEL of an ACCEPTED entry of its own tenant, or by the operator, supersedes it (R398). -/
theorem Dev.cancel_supersedes {d : Dev} {h : HalfId} {q : Nat} {e t : Entry} (s : startable d h q 0x0A e)
    (ht : d.entry h (e.arg 24 8) = some t) (hq : e.arg 24 8 ≠ q) (h1 : t.state = 1) (own : e.source = 0 ∨ t.tenant = e.tenant) :
    d.cancel h q = ((d.startEntry h q).endEntry h (e.arg 24 8) 5 stOk).finish h q stOk := by
  have ht' : (d.startEntry h q).entry h (e.arg 24 8) = some t := (d.entry_startEntry_ne h hq.symm).trans ht
  refine (Dev.begin_eq _ s).trans ?_
  simp [ht', h1, own, Dev.seq_of_entry ht]

/-- CANCEL of any other entry, its own included, fails (R398). -/
theorem Dev.cancel_fails {d : Dev} {h : HalfId} {q : Nat} {e t : Entry} (s : startable d h q 0x0A e)
    (ht : d.entry h (e.arg 24 8) = some t) (no : t.state ≠ 1 ∨ (e.source ≠ 0 ∧ t.tenant ≠ e.tenant)) :
    d.cancel h q = (d.startEntry h q).finish h q stWrongState := by
  refine (Dev.begin_eq _ s).trans ?_
  by_cases hq : e.arg 24 8 = q
  · simp [hq, startable.started s]
  · have ht' : (d.startEntry h q).entry h (e.arg 24 8) = some t := (d.entry_startEntry_ne h (Ne.symm hq)).trans ht
    rcases no with h1 | ⟨hs, hn⟩
    · simp [ht', h1]
    · simp [ht', hs, hn]

/-- The tick of a pending entry makes it due in LOCKED and HOLDOVER, and ends it with TIMEOUT in any other lock state (R46, R48). -/
theorem Dev.execAtStart_eq {d : Dev} {h : HalfId} {q : Nat} {e : Entry} (he : d.entry h q = some e) (h1 : e.state = 1)
    (h0 : e.execAt ≠ 0) (hn : e.execAt = d.now) : d.execAtStart h q =
      if d.lockState = 3 ∨ d.lockState = 4 then d.modEntry h q fun e => { e with due := true } else d.endEntry h q 4 stTimeout := by
  unfold Dev.execAtStart
  simp [he, h1, hn ▸ h0, hn]

/-- Settles O13: the entry that starts is found again after another one's end, and only ledger operations take part. -/
theorem nopCancelAndExecAt : Obligations.NopCancelAndExecAt := by
  unfold Obligations.NopCancelAndExecAt
  intro s h seq e hl
  refine ⟨fun st => ?_, fun t st ht hq h1 own => ?_, fun t st ht no => ?_, fun he h1 h0 hn => ?_⟩
  · refine does_live (·.nop h seq.toNat) rfl hl ?_
    dsimp only
    rw [Dev.nop_eq st]
    exact ⟨Dev.endedAs_finish_ok (startable.started st) (Nat.lt_succ_self 2), Dev.eq_of_besidesLedger (by simp)⟩
  · refine does_live (·.cancel h seq.toNat) rfl hl ?_
    dsimp only
    rw [Dev.cancel_supersedes st ht hq h1 own]
    have ht' := (s.dev.entry_startEntry_ne h hq.symm).trans ht
    have hs' := (Dev.entry_endEntry_ne (s.dev.startEntry h seq.toNat) h 5 stOk hq).trans (startable.started st)
    obtain ⟨x, hx, x5, x0⟩ := Dev.endedAs_endEntry 5 stOk ht' (by omega)
    exact ⟨⟨x, (Dev.entry_endEntry_ne _ h _ _ hq.symm).trans hx, x5, x0⟩, Dev.endedAs_finish_ok hs' (Nat.lt_succ_self 2),
      Dev.eq_of_besidesLedger (by simp)⟩
  · refine does_live (·.cancel h seq.toNat) rfl hl ?_
    rw [Dev.cancel_fails st ht no]
    exact Dev.finish_endedAs stWrongState (startable.started st) (Nat.lt_succ_self 2)
  · refine does_live (·.execAtStart h seq.toNat) rfl hl ?_
    dsimp only
    rw [Dev.execAtStart_eq he h1 h0 hn]
    split
    · next lock =>
      refine ⟨fun _ => ?_, fun no => absurd lock (by omega), Dev.eq_of_besidesLedger (by simp)⟩
      rw [Dev.entry_modEntry _ _ _ _ (by simp), he]
      rfl
    · next lock =>
      exact ⟨fun yes => absurd yes lock, fun _ => Dev.endedAs_endEntry 4 stTimeout he (by omega), Dev.eq_of_besidesLedger (by simp)⟩

end Sys2Proof.Machine

namespace Sys2Proof.Machine

/-! ## The tick -/

/-- The count's part of a tick: it advances and stops at all ones, or stands still while a correction is held (R34, R39). -/
def Dev.countTick (d : Dev) : Dev :=
  if d.tally.hold = 0 then d.fset F.TAL_COUNT_COUNT (min (d.now + 1) (2 ^ 64 - 1))
  else { d with tally := { d.tally with hold := d.tally.hold - 1 } }

theorem Dev.now_countTick (d : Dev) :
    d.countTick.now = if d.tally.hold = 0 then min (d.now + 1) (2 ^ 64 - 1) else d.now := by
  unfold Dev.countTick
  split
  · exact (d.fget_fset_self _ _ _).trans (Nat.mod_eq_of_lt (by simp only [F.TAL_COUNT_COUNT]; omega))
  · rfl

theorem Dev.hold_countTick (d : Dev) : d.countTick.tally.hold = d.tally.hold - 1 := by
  unfold Dev.countTick
  split
  · next h => simp [h]
  · rfl

@[simp] theorem Dev.memOf_countTick (d : Dev) : d.countTick.memOf = d.memOf := by
  unfold Dev.countTick
  split <;> rfl

/-- A tick of the tally: the count's part, the phase at 0, then entries that fail and stamps that go out. -/
theorem Dev.tallyTick_eq (d : Dev) : ∃ x : Dev, d.tallyTick = x.sendStamps ∧ x.regs = (d.countTick.setCycle 0).regs ∧
    x.tally.hold = d.countTick.tally.hold ∧ x.memOf = d.countTick.memOf := by
  unfold Dev.tallyTick
  dsimp only
  rw [show (if d.tally.hold = 0 then d.fset F.TAL_COUNT_COUNT (min (d.now + 1) (2 ^ 64 - 1))
    else { d with tally := { d.tally with hold := d.tally.hold - 1 } }) = d.countTick from rfl]
  generalize d.countTick = c
  split
  · refine ⟨_, rfl, Dev.failPending_regs _ _, (congrArg TallyS.hold (Dev.failPending_tally _ _)).trans rfl, ?_⟩
    exact Dev.failPending_keep Dev.memOf (fun _ _ => rfl) (fun _ _ => rfl) (fun _ _ => rfl) (fun _ _ => rfl) _ _
  · exact ⟨_, rfl, rfl, rfl, rfl⟩

/-- A tick that ends sets the count, the hold and the phase: what it sends leaves the tally's registers and memory. -/
theorem Dev.tick_sets (d : Dev) (h : d.owesStart = false) :
    (∀ f : Fld, f.key 0 < F.LNK_TX_UNITS_COUNT.key 0 → d.tick.fget f = (d.countTick.setCycle 0).fget f) ∧
      d.tick.tally.hold = d.tally.hold - 1 ∧ d.tick.memOf = d.memOf := by
  obtain ⟨x, hx, hregs, hhold, hmem⟩ := d.tallyTick_eq
  have e : d.tick = { x.sendStamps.linkTick with pw := { x.sendStamps.linkTick.pw with hbSeen := false } } := by
    unfold Dev.tick
    rw [h, hx]
    rfl
  have regs : ∀ f : Fld, f.key 0 < F.LNK_TX_UNITS_COUNT.key 0 → x.sendStamps.linkTick.fget f = (d.countTick.setCycle 0).fget f :=
    fun f hf => (x.fget_tickSends f 0 hf).trans (Dev.fget_congr hregs f 0)
  have tally := Dev.tickSends_keepSent Dev.tally (fun _ _ _ => rfl) (fun _ _ => rfl) (fun _ _ => rfl) (fun _ _ => rfl) x
  have mem := Dev.tickSends_keepSent Dev.memOf (fun _ _ _ => rfl) (fun _ _ => rfl) (fun _ _ => rfl) (fun _ _ => rfl) x
  generalize x.sendStamps.linkTick = y at e regs tally mem
  rw [e]
  exact ⟨regs, (congrArg TallyS.hold tally).trans (hhold.trans d.hold_countTick), mem.trans (hmem.trans d.memOf_countTick)⟩

theorem Dev.fget_setCycle_zero (d : Dev) :
    (d.setCycle 0).fget F.TAL_PHASE_CYCLE = 0 ∧ (d.setCycle 0).fget F.TAL_PHASE_SLOT = 0 := by
  unfold Dev.setCycle
  refine ⟨(Dev.fget_fset_ne _ _ _ _ _ _ (by decide)).trans (d.fget_fset_self _ _ _), ?_⟩
  rw [Dev.fget_fset_self, Nat.zero_div]
  rfl

theorem tick_does {s : State} (hl : s.dev.live = true) (ho : s.dev.owesStart = false) : Does .tick s fun e =>
    (s.dev.tally.hold = 0 → e.now = min (s.dev.now + 1) (2 ^ 64 - 1)) ∧
    (s.dev.tally.hold ≠ 0 → e.now = s.dev.now ∧ e.tally.hold = s.dev.tally.hold - 1) ∧
    e.fget F.TAL_PHASE_CYCLE = 0 ∧ e.fget F.TAL_PHASE_SLOT = 0 ∧ memSame s.dev e := by
  refine does_live Dev.tick rfl hl ?_
  obtain ⟨regs, hold, mem⟩ := s.dev.tick_sets ho
  have now : s.dev.tick.now = s.dev.countTick.now :=
    (regs _ (by decide)).trans ((Dev.setCycle_regsBut _ 0).fget _ _ (by decide))
  rw [s.dev.now_countTick] at now
  obtain ⟨cycle, slot⟩ := s.dev.countTick.fget_setCycle_zero
  exact ⟨fun h => now.trans (if_pos h), fun h => ⟨now.trans (if_neg h), hold⟩, (regs _ (by decide)).trans cycle,
    (regs _ (by decide)).trans slot, memSame_of_memOf mem⟩

/-! ## A stamp that passes the checks of R323 -/

/-- On a port without a link a frame changes nothing. -/
theorem Dev.frameIn_noLink (d : Dev) (p k : Nat) (f : Frame) (b : FrameBody) (h : d.link p < 2 ∨ 4 < d.link p) :
    d.frameIn p k f b = d := by
  have no : (decide (2 ≤ d.link p) && decide (d.link p ≤ 4)) = false := by simp; omega
  have none : d.rxFrame p { f with kind := .ofNat 4 k } = (false, d) := by
    unfold Dev.rxFrame
    dsimp only
    rw [no]
    rfl
  unfold Dev.frameIn
  dsimp only
  rw [none, no]
  rfl

/-- On a link that is not sealed a control frame goes out by itself where the port may send its kind (R338, R339). -/
theorem Dev.emitFrame_unsealed (d : Dev) (p : Nat) (f : TxFrame) (hk : f.kind ≠ 1) (hs : d.flag F.LNK_STATUS_SEALED (portAdd p) = false) :
    d.emitFrame p f = if d.maySend p f.kind then d.putFrame p f else d := by
  have hs' : (d.putFrame p f).flag F.LNK_STATUS_SEALED (portAdd p) = false := hs
  unfold Dev.emitFrame
  cases hm : d.maySend p f.kind <;> simp [hk, hs']

/-- The acknowledgement on a link that is not sealed is one frame more outward. -/
theorem Dev.sendAck_unsealed (d : Dev) (p : Nat) (hs : d.flag F.LNK_STATUS_SEALED (portAdd p) = false) :
    ∃ o, d.sendAck p = { d with out := o } := by
  have may : d.maySend p 2 = true := by simp [Dev.maySend]
  have sent : ∀ u, d.emitFrame p { TxFrame.blank 2 with units := u } = d.putFrame p { TxFrame.blank 2 with units := u } := fun u =>
    (d.emitFrame_unsealed p _ (by simp [TxFrame.blank]) hs).trans (if_pos may)
  exact ⟨_, sent _⟩

/-- A sequenced frame that passes checks 1 to 3 of R323, in order and on a link that is not sealed, is acknowledged; the further checks
decide. -/
theorem Dev.rxFrame_sequenced (d : Dev) (p : Nat) (f : Frame) (h2 : 2 ≤ d.link p) (h4 : d.link p ≤ 4) (hlanes : f.lanes = [])
    (hfec : f.fec = 0) (hcrc : f.crc.toNat = frameCrc f) (hk : f.kind.toNat < 11) (hrsv : f.rsv = false) (hunits : frameUnitsOk f = true)
    (hs : sequenced f.kind.toNat = true) (hseq : f.seq.toNat = (d.port p).rxSeq) (hseal : d.flag F.LNK_STATUS_SEALED (portAdd p) = false) :
    d.rxFrame p f =
      ((d.modPort p fun x => { x with rxSeq := (x.rxSeq + 1) % 65536, nak := false }).sendAck p).admitted p f := by
  have hseal' : (d.modPort p fun x => { x with rxSeq := (x.rxSeq + 1) % 65536, nak := false }).flag F.LNK_STATUS_SEALED (portAdd p) =
    false := hseal
  have hk' : ¬ 11 ≤ f.kind.toNat := by omega
  unfold Dev.rxFrame
  simp [h2, h4, hlanes, hfec, hcrc.symm, hk', hrsv, hunits, hs, hseq, hseal']

/-- A STAMP frame whose source is the partner, once known, is admitted (R323). -/
theorem Dev.admitted_stamp (d : Dev) (p : Nat) (f : Frame) (hk : f.kind.toNat = 3)
    (hsrc : 5 ≤ (d.port p).step → f.hopSrc.toNat = d.fget F.LNK_PARTNER_FABRIC_ID (portAdd p)) : d.admitted p f = (true, d) := by
  have src : (decide ((d.port p).step ≥ 5) && f.hopSrc.toNat != d.fget F.LNK_PARTNER_FABRIC_ID (portAdd p)) = false := by
    by_cases h : 5 ≤ (d.port p).step
    · simp [hsrc h]
    · simp [h]
  unfold Dev.admitted
  simp [src, hk]

/-- A stamp that passes the checks of R323 on a link that is not sealed takes effect, the port's next SEQ and the acknowledgement
apart. -/
theorem Dev.frameIn_stamp (d : Dev) (p : Nat) (f : Frame) (b : FrameBody) (good : frameGood d p f 3) :
    ∃ xs o, d.frameIn p 3 f b = Dev.deliver { d with ports := xs, out := o } p { f with kind := .ofNat 4 3 } b := by
  obtain ⟨h2, h4, hlanes, hfec, hcrc, hrsv, hunits, hseq, hsrc, hseal⟩ := good
  let x : Dev := d.modPort p fun x => { x with rxSeq := (x.rxSeq + 1) % 65536, nak := false }
  have step : (x.port p).step = (d.port p).step := by simp [x, Dev.modPort, Dev.port]
  obtain ⟨o, ho⟩ := x.sendAck_unsealed p hseal
  have checked : d.rxFrame p { f with kind := .ofNat 4 3 } = (true, { x with out := o }) := by
    rw [d.rxFrame_sequenced p { f with kind := .ofNat 4 3 } h2 h4 hlanes hfec hcrc (by show 3 < 11; decide) hrsv hunits rfl (hseq rfl) hseal, ho]
    exact Dev.admitted_stamp _ p _ rfl fun h => hsrc (step ▸ h)
  have hseal' : ({ x with out := o } : Dev).flag F.LNK_STATUS_SEALED (portAdd p) = false := hseal
  refine ⟨x.ports, o, ?_⟩
  unfold Dev.frameIn
  dsimp only
  rw [checked, hseal']
  simp [x, Dev.modPort]

/-! ## A stamp of the parent -/

/-- The step of the count never lowers it (R34, R39). -/
theorem Dev.le_now_stepCount (d : Dev) (c : Nat) (h : c < 2 ^ 64) : d.now % 2 ^ 64 ≤ (d.stepCount c).now := by
  have le : d.now % 2 ^ 64 ≤ d.now := Nat.mod_le _ _
  unfold Dev.stepCount
  dsimp only
  split
  · next up =>
    have up' : d.now < c := up
    unfold Dev.now at *
    rw [Dev.fget_failPending, Dev.fget_fset_self, show F.TAL_COUNT_COUNT.w = 64 from rfl, Nat.mod_eq_of_lt h]
    omega
  · exact le

/-- The event STEPPED is all that follows on the lock. -/
theorem Dev.lockOn_regsBut_setLock (d : Dev) (c : Nat) (off : Int) :
    regsBut (evKeys E.TAL_STEPPED) (((d.stepCount c).stepPhase off).setLock 3) (d.lockOn c off) := by
  unfold Dev.lockOn
  dsimp only
  split
  · exact Dev.event_regsBut _ _ _
  · exact regsBut_of_regs rfl

/-- The first valid stamp makes the device LOCKED, and its count no lower (R39). -/
theorem Dev.lockOn_locks (d : Dev) (c : Nat) (off : Int) (h : c < 2 ^ 64) :
    (d.lockOn c off).lockState = 3 ∧ d.now % 2 ^ 64 ≤ (d.lockOn c off).now := by
  refine ⟨(Dev.lockState_of_regsBut (d.lockOn_regsBut_setLock c off) (by decide)).trans (Dev.lockState_setLock _ 3 (by decide)), ?_⟩
  have r := ((Dev.setCycle_regsBut _ _).trans (Dev.setLock_regsBut _ 3)).trans (d.lockOn_regsBut_setLock c off)
  rw [Dev.now_of_regsBut r (by decide)]
  exact d.le_now_stepCount c h

/-- An offset within ±16 core cycles changes no register; one beyond them raises the event and disables the scheduled class (R39, R42). -/
theorem Dev.trackStamp_cases (d : Dev) (c : Nat) (off : Int) :
    (off ≤ 128 ∧ -128 ≤ off ∧ (d.trackStamp c off).regs = d.regs) ∨
      ∃ y : Dev, y.regs = (d.event E.TAL_BOUND_EXCEEDED).regs ∧ y.tally.boundOff = true ∧ d.trackStamp c off = y.refreshSched := by
  unfold Dev.trackStamp
  dsimp only
  split
  · refine .inr ⟨_, ?_, ?_, rfl⟩ <;> rfl
  · next h =>
    simp only [Bool.or_eq_true, decide_eq_true_eq, not_or, Int.not_lt] at h
    exact .inl ⟨h.1, h.2, rfl⟩

theorem Dev.trackStamp_regsBut (d : Dev) (c : Nat) (off : Int) :
    regsBut (evKeys E.TAL_BOUND_EXCEEDED ++ [F.TAL_STATUS_SCHED_EN.key 0]) d (d.trackStamp c off) := by
  obtain ⟨-, -, same⟩ | ⟨y, hy, -, e⟩ := d.trackStamp_cases c off
  · exact regsBut_of_regs same
  · rw [e]
    exact (d.event_regsBut _ 0).trans ((regsBut_of_regs (ks := []) hy).trans y.refreshSched_regsBut)

theorem Dev.trackStamp_bound (d : Dev) (c : Nat) (off : Int) (h : 128 < off ∨ off < -128) :
    (d.trackStamp c off).fget F.TAL_EVENT_BOUND_EXCEEDED = 1 ∧ (d.trackStamp c off).schedEn = false := by
  obtain ⟨h1, h2, -⟩ | ⟨y, hy, hb, e⟩ := d.trackStamp_cases c off
  · omega
  · rw [e]
    refine ⟨(y.refreshSched_regsBut.fget _ _ (by decide)).trans ?_, ?_⟩
    · exact (Dev.fget_congr hy _ _).trans (d.fget_event_bit E.TAL_BOUND_EXCEEDED 0 rfl (by decide))
    · rw [Dev.schedEn_refreshSched, hb]
      simp

/-- The stamp last received on a port is kept (R36). -/
def Dev.noteStamp (d : Dev) (p : Nat) (st : Stamp) : Dev := { d with tally := { d.tally with stamps := fmSet d.tally.stamps p st } }

section parentStamp
variable {d : Dev} {p : Nat} (up : d.linkUp p = true) (hm : d.isMaster = false) (par : d.fget F.TAL_STATUS_PARENT = p)
include up hm par

/-- In ACQUIRE a LOCKED stamp of the parent locks the tally (R39). -/
theorem Dev.stampReceived_acquire (hp : p < 15) (h2 : d.lockState = 2) (c dep : Nat) (off : Int) : ∃ x : Dev,
    d.stampReceived p c dep 3 off = x.lockOn c off ∧ x.now = d.now ∧ x.memOf = d.memOf := by
  obtain ⟨s, hs⟩ : ∃ s, s = d.noteStamp p ⟨c, dep, 3⟩ := ⟨_, rfl⟩
  have same : ∀ f, s.fget f = d.fget f := fun f => by rw [hs]; rfl
  have found := s.parentFound_regsBut
  have shown := s.parentFound.fset_regsBut F.TAL_OFFSET_OFFSET ((off % 2 ^ 32).toNat) 0
  have deep := Dev.fset_regsBut (s.parentFound.fset F.TAL_OFFSET_OFFSET ((off % 2 ^ 32).toNat)) F.TAL_STATUS_DEPTH (min 0xFF (dep + 1)) 0
  have mem : s.memOf = d.memOf := by rw [hs]; rfl
  refine ⟨_, ?_, ((found.trans (shown.trans deep)).fget _ _ (by decide)).trans (same _), s.memOf_parentFound.trans mem⟩
  have ne : p ≠ 0xF := by omega
  have par' : s.parentFound.fget F.TAL_STATUS_PARENT = p := (found.fget _ _ (by decide)).trans ((same _).trans par)
  have hm' : s.isMaster = false := (congrArg (· != 0) (same _)).trans hm
  have h2' : s.lockState = 2 := (same _).trans h2
  unfold Dev.stampReceived
  rw [if_neg (by simp [up])]
  dsimp only
  unfold Dev.noteStamp at hs
  rw [← hs]
  simp [hm', h2', (same _).trans par, ne, par']

/-- In LOCKED the offset of a stamp of the parent is shown, and the stamp is tracked (R39, R42). -/
theorem Dev.stampReceived_locked (h3 : d.lockState = 3) (c dep lock : Nat) (off : Int) : ∃ x : Dev,
    d.stampReceived p c dep lock off = x.trackStamp c off ∧ x.now = d.now ∧ x.lockState = 3 ∧
      x.fget F.TAL_OFFSET_OFFSET = (off % 2 ^ 32).toNat % 2 ^ 32 ∧ x.memOf = d.memOf := by
  obtain ⟨s, hs⟩ : ∃ s, s = d.noteStamp p ⟨c, dep, lock⟩ := ⟨_, rfl⟩
  have same : ∀ f, s.fget f = d.fget f := fun f => by rw [hs]; rfl
  have mem : s.memOf = d.memOf := by rw [hs]; rfl
  have shown := s.fset_regsBut F.TAL_OFFSET_OFFSET ((off % 2 ^ 32).toNat) 0
  have offset := s.fget_fset_self F.TAL_OFFSET_OFFSET ((off % 2 ^ 32).toNat) 0
  obtain ⟨y, hy⟩ : ∃ y, y = s.fset F.TAL_OFFSET_OFFSET ((off % 2 ^ 32).toNat) := ⟨_, rfl⟩
  rw [← hy] at shown offset
  have memY : y.memOf = s.memOf := by rw [hy]; rfl
  obtain ⟨x, hx, deep, memX⟩ : ∃ x, x = (if lock = 3 then y.fset F.TAL_STATUS_DEPTH (min 0xFF (dep + 1)) else y) ∧
      regsBut [F.TAL_STATUS_DEPTH.key 0] y x ∧ x.memOf = y.memOf := by
    refine ⟨_, rfl, ?_⟩
    split
    · exact ⟨Dev.fset_regsBut _ _ _ _, rfl⟩
    · exact ⟨regsBut_of_regs rfl, rfl⟩
  have left := shown.trans deep
  refine ⟨x, ?_, (left.fget _ _ (by decide)).trans (same _), (left.fget _ _ (by decide)).trans ((same _).trans h3),
    (deep.fget _ _ (by decide)).trans offset, memX.trans (memY.trans mem)⟩
  have hm' : s.isMaster = false := (congrArg (· != 0) (same _)).trans hm
  have h3' : s.lockState = 3 := (same _).trans h3
  unfold Dev.stampReceived
  rw [if_neg (by simp [up])]
  dsimp only
  unfold Dev.noteStamp at hs
  rw [← hs, hx, hy]
  simp [hm', h3', (same _).trans par]

end parentStamp

/-- A stamp whose depth is 0 only from fabric ID 0 is not malformed (Table 13-7). -/
theorem Dev.stampIn_wellFormed (d : Dev) (p c dep lock : Nat) (off : Int)
    (h : dep = 0 → d.fget F.LNK_PARTNER_FABRIC_ID (portAdd p) = 0) : d.stampIn p c dep lock off = d.stampReceived p c dep lock off := by
  unfold Dev.stampIn
  refine if_neg ?_
  by_cases h0 : dep = 0
  · simp [h h0]
  · simp [h0]

/-- Settles O8: the tick by its count and its phase; a stamp by the checks of its frame, then by the lock state. -/
theorem tickAdvancesAndParentStampLocks : Obligations.TickAdvancesAndParentStampLocks := by
  unfold Obligations.TickAdvancesAndParentStampLocks
  refine ⟨fun s hl => ⟨fun ho => exec_onLive_same Dev.tick rfl (if_pos ho), tick_does hl⟩, fun s p f count depth lock off hl =>
    ⟨fun no => exec_onLive_same (fun d => d.frameIn p.val 3 f (.stamp count depth lock off)) rfl
      (s.dev.frameIn_noLink p.val 3 f _ no), fun up good hd hm par => ?_⟩⟩
  obtain ⟨xs, o, he⟩ := s.dev.frameIn_stamp p.val f (.stamp count depth lock off) good
  let x : Dev := { s.dev with ports := xs, out := o }
  have taken : s.dev.frameIn p.val 3 f (.stamp count depth lock off) =
      x.stampReceived p.val count.toNat depth.toNat lock.toNat off.toInt :=
    he.trans (x.stampIn_wellFormed _ _ _ _ _ fun h0 => hd (BitVec.eq_of_toNat_eq h0))
  refine ⟨fun h2 h3 => ?_, fun h3 => ?_⟩ <;>
    refine does_live (fun d => d.frameIn p.val 3 f (.stamp count depth lock off)) rfl hl ?_ <;> rw [taken]
  · obtain ⟨y, hy, hnow, hmem⟩ := Dev.stampReceived_acquire (d := x) up hm par p.isLt h2 count.toNat depth.toNat off.toInt
    obtain ⟨locked, le⟩ := y.lockOn_locks count.toNat off.toInt count.isLt
    rw [show lock.toNat = 3 by rw [h3]; rfl, hy]
    exact ⟨locked, hnow ▸ le, memSame_of_memOf ((y.memOf_lockOn _ _).trans hmem)⟩
  · obtain ⟨y, hy, hnow, hlock, hoff, hmem⟩ :=
      Dev.stampReceived_locked (d := x) up hm par h3 count.toNat depth.toNat lock.toNat off.toInt
    have tracked := y.trackStamp_regsBut count.toNat off.toInt
    have wraps : (off.toInt % 2 ^ 32).toNat % 2 ^ 32 = off.toNat := by
      have := off.isLt
      rw [BitVec.toInt_eq_toNat_cond]
      split <;> omega
    rw [hy]
    exact ⟨(tracked.fget _ _ (by decide)).trans (hoff.trans wraps), (tracked.fget _ _ (by decide)).trans hnow,
      (tracked.fget _ _ (by decide)).trans hlock, y.trackStamp_bound _ _, memSame_of_memOf ((y.memOf_trackStamp _ _).trans hmem)⟩

end Sys2Proof.Machine

namespace Sys2Proof.Machine

/-! ## A stream's ring in stacks out of reach (R22) -/

namespace LostRing

/-- Bytes by their places, zero elsewhere. -/
def bytesBy (n : Nat) (ps : List (Nat × Nat)) : List Byte :=
  (List.range n).map fun k => BitVec.ofNat 8 (((ps.find? (·.1 == k)).map (·.2)).getD 0)

/-- A scheduled receive stream of XFER 2 from fabric ID 0: one row a transfer, written to a ring of one transfer at 16,384, which lies in
stack 4; its completion queue is queue 0 of tile 0 (Table 14-6). -/
def item : List Byte := bytesBy 32 [(1, 1), (2, 2), (8, 1), (10, 1), (19, 0x40)]

/-- An image with that stream as its one SCHEDULE item (Tables 6-1, 6-2). -/
def image : List Byte :=
  bytesBy 288 [(0x0C, 1), (256, 11), (258, 0xFF), (260, 1), (264, 0x20), (265, 1), (272, 32)] ++ item

/-- A transfer of one row that has come whole on the scheduled plane. -/
def arrival : RxXfer := ⟨2, true, 0, 0, true, [⟨0, false, 0, 1⟩]⟩

/-- The transfer as it is taken from the port. -/
def taken : StreamIn := ⟨2, 0, 0, none, false, [(1, false)]⟩

/-- A device whose west half is RUNNING and whose east half is ORPHAN, with the transfer on port 0. -/
def dev : Dev :=
  (({ Dev.reset with
      pw := { PowerS.init with pwrGood := true, resetN := true }
      img0 := some { bytes := image, bufB := false, cur := 0, epoch := false, prev := 0, tag := 0 }
      ports := [(0, { Port.init with rx := [arrival] })] }.fset F.DEV_STATE_STATE_W 4).fset F.DEV_STATE_STATE_E 7).fset F.DEV_STATE_SUB_E 1

/-- The pass the transfer carries. -/
def pass : PassId := ⟨0, 0, 0⟩

theorem live : dev.live = true := by decide +kernel

theorem streamIn : dev.streamIn 0 0 = some (arrival, { Xfer.blank with origin := 0 }, taken) := by decide +kernel

theorem recvItem : dev.recvItem 0 taken.peer taken.xfer = some item := by decide +kernel

theorem item_writes : leAt item 11 1 = 0 ∧ siRing item taken.idx = 16384 := by decide +kernel

theorem running : dev.half (portHalf 0) = 4 := by decide +kernel

theorem notTaken : dev.staleReplay item pass = false ∧ dev.deliveredAlready item taken pass = false ∧
    ((dev.newReplay item taken.idx pass).recvS (siKey item)).held = [] := by decide +kernel

/-- The row is lost: memory is as empty after the transfer as before. -/
theorem mem_after : (dev.streamTransfer 0 0 pass false []).mem = [] := by decide +kernel

end LostRing

/-- Refutes O46: with the east half ORPHAN, stack 4 is out of reach (R22), and `Dev.store` loses the row of a transfer whose ring lies
there; the statement has the row in the ring wherever that lies. -/
theorem not_streamTransfersAndCollectiveChunks : ¬ Obligations.StreamTransfersAndCollectiveChunks := by
  unfold Obligations.StreamTransfersAndCollectiveChunks
  intro h
  obtain ⟨opx, ring⟩ := LostRing.item_writes
  obtain ⟨stale, delivered, held⟩ := LostRing.notTaken
  obtain ⟨-, -, -, arrives⟩ := h ⟨[], LostRing.dev⟩ 0 LostRing.live
  have received := (arrives 0 LostRing.pass _ _ _ LostRing.streamIn (.inl rfl)).2 LostRing.item LostRing.recvItem
  have command := received.2.2 [] (.streamTransfer 0 0 LostRing.pass []) (by simp [opx])
  obtain ⟨t, ht, -, stores⟩ := command.2.2 (.inl LostRing.running) rfl (by rw [ring]) stale delivered _ _ false _ rfl held rfl
    (fun _ => rfl) (fun _ => rfl) rfl
  obtain ⟨-, -, -, -, rows, -⟩ := stores
  have stored : rowStored t.dev (siRing LostRing.item LostRing.taken.idx + 64 * 0) (1, false) := (rows rfl opx).1 0 (1, false) rfl
  have dev : t.dev = LostRing.dev.streamTransfer 0 0 LostRing.pass false [] := by
    obtain ⟨u, hu, -, hdev⟩ : Does (.streamTransfer 0 0 LostRing.pass []) ⟨[], LostRing.dev⟩
        (· = LostRing.dev.streamTransfer 0 0 LostRing.pass false []) :=
      does_live (fun d => d.streamTransfer 0 0 LostRing.pass false []) rfl LostRing.live rfl
    cases ht.symm.trans hu
    exact hdev
  have bytes := stored.1 rfl
  rw [dev, LostRing.mem_after] at bytes
  exact absurd bytes (by rw [ring]; decide +kernel)

end Sys2Proof.Machine

namespace Sys2Proof.Machine

/-! ## A command of the live device, taken back to its function -/

/-- What a command that completes on the live device brings about holds of the device that its function gives. -/
theorem of_does_live {c : Instr} {s : State} {P : Dev → Prop} {f : Dev → Dev} (hc : exec c s = onLive f s) (h : s.dev.live = true)
    (does : Does c s P) : P (f s.dev) := by
  obtain ⟨t, ht, -, hP⟩ := does
  obtain ⟨u, hu, -, hdev⟩ := does_live (P := (· = f s.dev)) f hc h rfl
  cases ht.symm.trans hu
  exact hdev ▸ hP

/-! ## A stationary load from stacks out of reach (R22, R77, R78) -/

/-- A word out of reach reads as a free value, whatever memory holds (R22). -/
theorem Dev.readWord_unreachable {d : Dev} {a : Nat} (e : RdErr) (h : d.unreachable (a / 8 * 8) = true) :
    d.readWord a e = ((BitVec.ofNat 64 (Config.lostWord d.free (a / 8 * 8)), false), d) := by
  unfold Dev.readWord; exact if_pos h

/-- The words at `a`, `a + 8`, …, as reads out of reach give them: they depend on the number of free values so far alone. -/
def lostWords (free a n : Nat) : List Word := (List.range n).map fun w => BitVec.ofNat 64 (Config.lostWord free ((a + 8 * w) / 8 * 8))

/-- One word of a stationary load read: its value, and its index where it is poison. -/
def Dev.loadStep (src : Nat) (es : List RdErr) (x : (List Word × List Nat) × Dev) (w : Nat) : (List Word × List Nat) × Dev :=
  let q := x.2.readWord (src + 8 * w) ((es[w]?).getD .none)
  ((x.1.1 ++ [q.1.1], if q.1.2 then x.1.2 ++ [w] else x.1.2), q.2)

/-- Reading a load's words, all out of reach, gives free values, none of them poison, and leaves the device. -/
theorem Dev.foldl_loadStep_unreachable {d : Dev} {src : Nat} (es : List RdErr) (n : Nat)
    (h : ∀ w < n, d.unreachable ((src + 8 * w) / 8 * 8) = true) :
    (List.range n).foldl (Dev.loadStep src es) (([], []), d) = ((lostWords d.free src n, []), d) := by
  induction n with
  | zero => rfl
  | succ n ih =>
    have last := Dev.readWord_unreachable ((es[n]?).getD .none) (h n n.lt_succ_self)
    rw [List.range_succ, List.foldl_append, ih fun w hw => h w (Nat.lt_succ_of_lt hw)]
    simp [Dev.loadStep, last, lostWords, List.range_succ]

/-- A load whose bytes all lie out of reach fills the shadow with free values: memory does not come into it. -/
theorem Dev.stationaryLoadDone_unreachable {d : Dev} {site inst k : Nat} {i : Inst} {c : Cfg} {j : LoadJob} (es : List RdErr)
    (hi : d.instAt site inst = some (i, c)) (hj : (i.block k).loading = some j) (left : j.left = 0)
    (h : ∀ w < loadBytes c.sfmt / 8, d.unreachable ((j.src + 8 * w) / 8 * 8) = true) :
    d.stationaryLoadDone site inst k es = d.setInst site inst { i with blocks := fmSet i.blocks k { i.block k with
      shadow := cellsOf c.sfmt (lostWords d.free j.src (loadBytes c.sfmt / 8)) [], full := true, arrived := true, loading := none } } := by
  have words := Dev.foldl_loadStep_unreachable es _ h
  unfold Dev.loadStep at words
  unfold Dev.stationaryLoadDone
  simp only [hi, hj, left, words, ne_eq, not_true_eq_false, if_false]

namespace LostLoad

/-- A field configuration of one block at site 0, INT8 by INT8 (Tables 4-13, 6-5, 6-8). -/
def cfg : Cfg := ⟨0, 0, 1, 0, [some 0], [], [], LostRing.bytesBy 24 [(2, 6), (4, 0x88), (12, 64), (14, 64), (21, 255)]⟩

/-- A load whose last byte is due, from 16,384, which lies in stack 4. -/
def job : LoadJob := ⟨16384, 0⟩

/-- The field, its one block under that load. -/
def inst : Inst := { Inst.init 0 0 with held := true, blocks := [(0, { Block.init with loading := some job })] }

/-- A device whose west half is RUNNING and whose east half is ORPHAN, with the field in tile 0 and the memory given. -/
def dev (m : List Host.Cell) : Dev :=
  (({ Dev.reset with
      pw := { PowerS.init with pwrGood := true, resetN := true }
      mem := m
      slots := [(slotKey 0 0, { Slot.init with active := some cfg })]
      insts := [(0, inst)] }.fset F.DEV_STATE_STATE_W 4).fset F.DEV_STATE_STATE_E 7).fset F.DEV_STATE_SUB_E 1

/-- The words memory holds at the load's source. -/
def words (m : List Host.Cell) : List Word :=
  (List.range (loadBytes cfg.sfmt / 8)).map fun w => BitVec.ofNat 64 (leNat (memBytes m (job.src + 8 * w) 8))

theorem live (m : List Host.Cell) : (dev m).live = true := rfl

theorem instAt (m : List Host.Cell) : (dev m).instAt 0 0 = some (inst, cfg) := rfl

theorem anyPoison (m : List Host.Cell) : (dev m).anyPoison job.src (loadBytes cfg.sfmt) = false := rfl

theorem unreachable_nil : ∀ w < loadBytes cfg.sfmt / 8, (dev []).unreachable ((job.src + 8 * w) / 8 * 8) = true := by decide +kernel

/-- Which addresses are out of reach does not depend on what memory holds. -/
theorem unreachable (m : List Host.Cell) (w : Nat) (h : w < loadBytes cfg.sfmt / 8) :
    (dev m).unreachable ((job.src + 8 * w) / 8 * 8) = true := unreachable_nil w h

/-- Under the statement, the free values would give the very elements that memory holds, whatever it holds. -/
theorem cellsOf_lostWords (h : Obligations.StationaryLoadsAndRunStart) (m : List Host.Cell) :
    cellsOf cfg.sfmt (lostWords (dev m).free job.src (loadBytes cfg.sfmt / 8)) [] = cellsOf cfg.sfmt (words m) [] := by
  obtain ⟨-, loadDone, -⟩ := h ⟨[], dev m⟩ 0 0 inst cfg (live m) (instAt m) 0 rfl
  have done := of_does_live (f := fun d => d.stationaryLoadDone 0 0 0 []) rfl (live m)
    ((loadDone 0 job (words m) rfl rfl (anyPoison m) rfl).2 rfl)
  obtain ⟨⟨i', hi', block, -⟩, -⟩ := done
  rw [Dev.stationaryLoadDone_unreachable [] (instAt m) rfl rfl (unreachable m)] at hi'
  cases hi'
  exact congrArg Block.shadow block

/-- The first cell tells memory with a 1 at the source from empty memory. -/
theorem cellsOf_words_ne : cellsOf cfg.sfmt (words []) [] ≠ cellsOf cfg.sfmt (words [(16384, 1)]) [] := by
  intro h
  have first := congrArg (fun x => (x.column 0).head?) h
  revert first
  decide +kernel

end LostLoad

/-- Refutes O36: with the east half ORPHAN, stack 4 is out of reach, and a read of it gives free values (R22). A load whose source lies
there fills the shadow with these, the same for any two memories; the statement has the shadow hold memory's bytes wherever the source
lies. (STATIONARY_LOAD takes a source in scratchpad alone; the clause on STATIONARY_LOAD_DONE does not ask for one.) -/
theorem not_stationaryLoadsAndRunStart : ¬ Obligations.StationaryLoadsAndRunStart := fun h =>
  LostLoad.cellsOf_words_ne ((LostLoad.cellsOf_lostWords h []).symm.trans (LostLoad.cellsOf_lostWords h [(16384, 1)]))

end Sys2Proof.Machine

namespace Sys2Proof.Machine

/-! ## Two outputs of a field that share a queue's key -/

namespace SharedQueue

/-- A field configuration of two levels and two groups at site 0, INT8 by INT8, with one unmasked column and its rows masked (Tables
4-13, 4-14, 6-8). Group 0 sends to queue 0 of tile 1; group 1 to queue 128 of tile 0, a number no queue has (R107), whose key is the
same. -/
def cfg : Cfg := ⟨0, 0, 1, 0, [some 0], [some (1, 0), some (0, 128)], [], LostRing.bytesBy 24 [(2, 5), (4, 0x88), (14, 1), (21, 255)]⟩

/-- A run of one slot in mode PASS, at that slot. -/
def run : Run := ⟨1, 0, 0, false, false⟩

/-- A field under that run; a row of fill has come to each level. -/
def inst : Inst :=
  { Inst.init 0 0 with held := true, run := some run, feed := [(0, [⟨none, false, []⟩]), (1, [⟨none, false, []⟩])] }

/-- A device whose west half is RUNNING, with the field in slot 0 of tile 0 and credits for both outputs' tokens. -/
def dev : Dev :=
  { Dev.reset with
      pw := { PowerS.init with pwrGood := true, resetN := true }
      queues := [(qKey 1 0, { Queue.init with depth := 8, credits := 8 })]
      slots := [(slotKey 0 0, { Slot.init with active := some cfg })]
      insts := [(0, inst)] }.fset F.DEV_STATE_STATE_W 4

theorem live : dev.live = true := rfl

theorem instAt : dev.instAt 0 0 = some (inst, cfg) := by decide +kernel

theorem canFire : dev.canFire 0 0 [0] = some (dev.slot 0 0, cfg) := by decide +kernel

theorem segments : ∀ l < cfg.depth, ((((fmGet inst.feed l).getD []).drop ((fmGet inst.skip l).getD 0)).take (segRows cfg.mfmt)).length =
    segRows cfg.mfmt := by decide +kernel

theorem credits : ∀ g < cfg.groups, dev.credits cfg g (if cfg.outFmt = 1 then 2 else 4) = true := by decide +kernel

theorem outFmt : cfg.outFmt = 0 := by decide +kernel

theorem flight_before : (dev.queue 1 0).flight = [] := by decide +kernel

/-- The slot sends four DATA tokens for group 0 and four VOID tokens for group 1: all eight are in flight to the one queue. -/
theorem flight_after : ((dev.fieldSlot 0 0 false).queue 1 0).flight.length = 8 := by decide +kernel

theorem otherOutputs : ∀ g < cfg.groups, g ≠ 0 → (cfg.outs[g]?).getD none ≠ some (1, 0) := by decide +kernel

end SharedQueue

/-- Refutes O37: outputs are pairs of a tile and a queue, and the statement takes two unequal pairs for two queues. The pairs (1, 0) and
(0, 128) are unequal and have the key 128 of one queue, so the flight to it grows by the tokens of both groups, not by those of group 0
alone. (The image loader refuses a UNITS item with such an output, whose queue is above 127; the statement ranges over
every configuration.) -/
theorem not_movingSlotUpdatesOrEmitsEachGroup : ¬ Obligations.MovingSlotUpdatesOrEmitsEachGroup := by
  unfold Obligations.MovingSlotUpdatesOrEmitsEachGroup
  intro h
  have slot := of_does_live (f := fun d => d.fieldSlot 0 0 false) rfl SharedQueue.live
    (h ⟨[], SharedQueue.dev⟩ 0 0 SharedQueue.inst _ SharedQueue.cfg SharedQueue.cfg SharedQueue.run _ SharedQueue.live
      SharedQueue.instAt rfl SharedQueue.canFire (by decide +kernel) rfl (by decide) rfl rfl rfl _ _ _ _ _ _ (fun _ => rfl)
      SharedQueue.segments (fun _ => SharedQueue.credits) rfl rfl rfl rfl (fun _ => rfl) (fun _ => rfl) (by decide) false)
  obtain ⟨-, emission, -⟩ := slot
  obtain ⟨ks, flight, payloads, -⟩ := emission 0 (by decide +kernel) (List.replicate 64 0) 1 0 (by decide +kernel) (by decide +kernel)
    (by decide +kernel) SharedQueue.otherOutputs
  have sent : ks.length = 4 := by simpa [outRows, SharedQueue.outFmt] using congrArg List.length payloads
  have grown : ks.length = 8 := by
    simpa [SharedQueue.flight_before, SharedQueue.flight_after] using (congrArg List.length flight).symm
  omega

end Sys2Proof.Machine

namespace Sys2Proof.Machine

/-! ## Queues and slots read back -/

theorem Dev.queue_setQueue (d : Dev) (t q : Nat) (y : Queue) (t' q' : Nat) :
    (d.setQueue t q y).queue t' q' = if qKey t q = qKey t' q' then y else d.queue t' q' := by
  unfold Dev.queue Dev.setQueue
  rw [fmGet_fmSet]
  split <;> rfl

@[simp] theorem Dev.queue_setQueue_self (d : Dev) (t q : Nat) (y : Queue) : (d.setQueue t q y).queue t q = y := by
  rw [Dev.queue_setQueue, if_pos rfl]

theorem Dev.queue_setQueue_ne (d : Dev) {t q t' q' : Nat} (y : Queue) (h : qKey t' q' ≠ qKey t q) :
    (d.setQueue t q y).queue t' q' = d.queue t' q' := by
  rw [Dev.queue_setQueue, if_neg (Ne.symm h)]

@[simp] theorem Dev.slot_setSlot_self (d : Dev) (t s : Nat) (x : Slot) : (d.setSlot t s x).slot t s = x := by
  simp [Dev.setSlot, Dev.slot]

/-! ## The events of the dataflow -/

/-- The events of TIL_DF_EVENT. -/
def dfEvents : List Ev :=
  [E.TIL_DF_SEQ_GAP, E.TIL_DF_KIND_FAULT, E.TIL_DF_STEER_FAULT, E.TIL_DF_Q_OVERFLOW, E.TIL_DF_POISON_DROPPED, E.TIL_DF_STALL_LONG]

/-- They are one-bit fields of TIL_DF_EVENT, counted in TIL_DF_EVCNT. -/
theorem dfEvents_fields : ∀ v ∈ dfEvents, v.bit.w = 1 ∧ v.bit.off = 0x1004008 ∧ v.bit.lo < 64 ∧ v.cnt.off = 0x1004010 := by decide

/-- An event of TIL_DF_EVENT sets its bit. -/
theorem Dev.fget_dfEvent (d : Dev) {v : Ev} (hv : v ∈ dfEvents) (a : Nat) : (d.event v a).fget v.bit a = 1 := by
  obtain ⟨hw, hb, hlo, hc⟩ := dfEvents_fields v hv
  refine d.fget_event_bit v a hw ?_
  unfold Fld.key
  omega

/-- No bit of a tile's TIL_DF_EVENT is a bit of the management subsystem. -/
theorem dfEvent_key_notMem {v : Ev} (hv : v ∈ dfEvents) (t : Nat) : v.bit.key (tileAdd t) ∉ evKeys E.MBX_SB_DROPPED := by
  obtain ⟨-, hb, hlo, -⟩ := dfEvents_fields v hv
  simp only [evKeys, E.MBX_SB_DROPPED, F.MBX_EVENT_SB_DROPPED, F.MBX_EVCNT1_SB_DROPPED_CNT, Fld.key, tileAdd, List.mem_cons,
    List.not_mem_nil, or_false]
  omega

/-! ## EPOCH_FAULT -/

theorem Dev.epochFault_keep {β : Type} (g : Dev → β) (hregs : ∀ d x, g { d with regs := x } = g d) (hmg : ∀ d x, g { d with mg := x } = g d)
    (hout : ∀ d x, g { d with out := x } = g d) (hfaults : ∀ d x, g { d with faults := x } = g d) (d : Dev) (t s q code : Nat) :
    g (d.epochFault t s q code) = g d :=
  (hfaults _ _).trans (Dev.sbLog_keep g hregs hmg hout d _ _ _)

/-- An EPOCH_FAULT leaves the tile's event bits. -/
theorem Dev.fget_epochFault (d : Dev) {v : Ev} (hv : v ∈ dfEvents) (t s q code : Nat) :
    (d.epochFault t s q code).fget v.bit (tileAdd t) = d.fget v.bit (tileAdd t) := by
  unfold Dev.fget
  exact congrArg (·.getD v.bit.rst) (d.regs_sbLog 0x0021 2 [t, s, q, code] _ (dfEvent_key_notMem hv t))

/-! ## A token that arrives (R112, R117, R151) -/

/-- The faults that an arriving token raises: KIND_FAULT, SEQ_GAP and EPOCH_FAULT. -/
def Dev.arrivalFaults (d : Dev) (t q : Nat) (k : Token) : Dev :=
  let kinds := if decide (5 ≤ k.kind.toNat) then d.event E.TIL_DF_KIND_FAULT (tileAdd t) else d
  let gaps := if k.seq.toNat != (d.queue t q).seq then kinds.event E.TIL_DF_SEQ_GAP (tileAdd t) else kinds
  if k.epoch != (d.queue t q).epoch then gaps.epochFault t (gaps.consumerOf t q) q (if k.kind.toNat == kMark then 2 else 1) else gaps

section arrivalFaults
variable (d : Dev) (t q : Nat) (k : Token)

/-- The faults change registers, the management, outputs and the faults reported, nothing else. -/
theorem Dev.arrivalFaults_keep {β : Type} (g : Dev → β) (hregs : ∀ d x, g { d with regs := x } = g d)
    (hmg : ∀ d x, g { d with mg := x } = g d) (hout : ∀ d x, g { d with out := x } = g d)
    (hfaults : ∀ d x, g { d with faults := x } = g d) : g (d.arrivalFaults t q k) = g d := by
  have raise : ∀ (p : Prop) [Decidable p] (e : Dev) (v : Ev), g (if p then e.event v (tileAdd t) else e) = g e := fun p _ e v => by
    split
    · exact Dev.event_keep g hregs _ _ _
    · rfl
  unfold Dev.arrivalFaults
  dsimp only
  split
  · exact (Dev.epochFault_keep g hregs hmg hout hfaults _ _ _ _ _).trans ((raise _ _ _).trans (raise _ _ _))
  · exact (raise _ _ _).trans (raise _ _ _)

theorem Dev.arrivalFaults_memSame : memSame d (d.arrivalFaults t q k) :=
  memSame_of_memOf (d.arrivalFaults_keep t q k Dev.memOf (fun _ _ => rfl) (fun _ _ => rfl) (fun _ _ => rfl) (fun _ _ => rfl))

variable {d t q k}

/-- A token that the queue expects raises nothing. -/
theorem Dev.arrivalFaults_of_expected (hk : k.kind.toNat < 5) (hs : k.seq.toNat = (d.queue t q).seq)
    (he : k.epoch = (d.queue t q).epoch) : d.arrivalFaults t q k = d := by
  simp [Dev.arrivalFaults, hs, he, Nat.not_le.mpr hk]

theorem Dev.fget_arrivalFaults_kindFault (hk : 5 ≤ k.kind.toNat) :
    (d.arrivalFaults t q k).fget F.TIL_DF_EVENT_KIND_FAULT (tileAdd t) = 1 := by
  have kept : ∀ e : Dev, (e.event E.TIL_DF_SEQ_GAP (tileAdd t)).fget F.TIL_DF_EVENT_KIND_FAULT (tileAdd t) =
      e.fget F.TIL_DF_EVENT_KIND_FAULT (tileAdd t) := fun e =>
    e.fget_event_ne _ _ _ _ (by simp [Fld.key, E.TIL_DF_SEQ_GAP, F.TIL_DF_EVENT_SEQ_GAP, F.TIL_DF_EVENT_KIND_FAULT])
      (by simp only [Fld.key, E.TIL_DF_SEQ_GAP, F.TIL_DF_EVCNT_SEQ_GAP_CNT, F.TIL_DF_EVENT_KIND_FAULT]; omega)
  have kinds := d.fget_dfEvent (v := E.TIL_DF_KIND_FAULT) (by decide) (tileAdd t)
  have gaps : ∀ b : Bool, (if b then (d.event E.TIL_DF_KIND_FAULT (tileAdd t)).event E.TIL_DF_SEQ_GAP (tileAdd t)
      else d.event E.TIL_DF_KIND_FAULT (tileAdd t)).fget F.TIL_DF_EVENT_KIND_FAULT (tileAdd t) = 1
    | true => (kept _).trans kinds
    | false => kinds
  unfold Dev.arrivalFaults
  rw [if_pos (decide_eq_true hk)]
  dsimp only
  split
  · exact (Dev.fget_epochFault _ (v := E.TIL_DF_KIND_FAULT) (by decide) _ _ _ _).trans (gaps _)
  · exact gaps _

theorem Dev.fget_arrivalFaults_seqGap (hs : k.seq.toNat ≠ (d.queue t q).seq) :
    (d.arrivalFaults t q k).fget F.TIL_DF_EVENT_SEQ_GAP (tileAdd t) = 1 := by
  have gaps := fun e : Dev => e.fget_dfEvent (v := E.TIL_DF_SEQ_GAP) (by decide) (tileAdd t)
  unfold Dev.arrivalFaults
  dsimp only
  rw [if_pos (bne_iff_ne.mpr hs)]
  split
  · exact (Dev.fget_epochFault _ (v := E.TIL_DF_SEQ_GAP) (by decide) _ _ _ _).trans (gaps _)
  · exact gaps _

end arrivalFaults

/-- The queue with an arrived token stored: as it is, where it is what the queue expects, otherwise as POISON (R112, R151). -/
def Queue.stored (y : Queue) (k : Token) : Queue :=
  let bad := decide (5 ≤ k.kind.toNat) || k.seq.toNat != y.seq || k.epoch != y.epoch
  let mark := k.kind.toNat == kMark && !(k.seq.toNat != y.seq) && !(k.epoch != y.epoch)
  { y with
    tokens := y.tokens ++ [{ k with kind := if bad then BitVec.ofNat 3 kPoison else k.kind }]
    seq := if mark then 0 else (k.seq.toNat + 1) % 4096
    epoch := if mark then !y.epoch else y.epoch
    markLost := y.markLost || (k.kind.toNat == kMark && !mark) }

theorem Queue.stored_of_expected {y : Queue} {k : Token} (hk : k.kind.toNat < 5) (hs : k.seq.toNat = y.seq) (he : k.epoch = y.epoch) :
    y.stored k = { y with
      tokens := y.tokens ++ [k]
      seq := if k.kind.toNat = kMark then 0 else (k.seq.toNat + 1) % 4096
      epoch := if k.kind.toNat = kMark then !y.epoch else y.epoch } := by
  have kept : { k with epoch := y.epoch } = k := he ▸ rfl
  simp [Queue.stored, Nat.not_le.mpr hk, hs, he, kept]

theorem Queue.stored_of_bad {y : Queue} {k : Token} (bad : 5 ≤ k.kind.toNat ∨ k.seq.toNat ≠ y.seq) :
    (y.stored k).tokens = y.tokens ++ [{ k with kind := 4#3 }] ∧ (y.stored k).seq = (k.seq.toNat + 1) % 4096 := by
  have unmarked : ¬(k.kind.toNat = kMark ∧ k.seq.toNat = y.seq) := fun ⟨hk, hs⟩ => bad.elim (by rw [hk]; decide) (· hs)
  rcases bad with bad | bad <;> simp_all [Queue.stored, kPoison]

section arrive
variable {d : Dev} {t q : Nat}

/-- At a queue without a free entry a token is discarded and reported (R117). -/
theorem Dev.arrive_of_full (h : (d.queue t q).depth ≤ (d.queue t q).tokens.length) (k : Token) :
    d.arrive t q k = (d.event E.TIL_DF_Q_OVERFLOW (tileAdd t)).passFault (tileHalf t) 1 := by
  simp [Dev.arrive, h]

/-- At a queue with a free entry the faults are raised and the token is stored. -/
theorem Dev.arrive_of_room (h : (d.queue t q).tokens.length < (d.queue t q).depth) (k : Token) :
    d.arrive t q k = (d.arrivalFaults t q k).setQueue t q ((d.queue t q).stored k) := by
  unfold Dev.arrive
  exact if_neg (Nat.not_le.mpr h)

/-- What arrives without an operand is the oldest token in flight that has left its source's port (R247). -/
theorem Dev.tokenArrival_none {k : Token} {rest : List Token} (h : (d.queue t q).moving = k :: rest) :
    d.tokenArrival t q none = (d.setQueue t q { d.queue t q with flight := (d.queue t q).flight.drop 1 }).tokenArrival t q (some k) := by
  simp [Dev.tokenArrival, h]

end arrive

/-- TOKEN_ARRIVAL of the live device. -/
theorem exec_tokenArrival (s : State) (t : TileId) (q : QueueId) (k : Option Token) (live : s.dev.live = true) :
    exec (.tokenArrival t q k) s = .next { s with dev := s.dev.tokenArrival t.toNat q.toNat k } := by
  show execTokenArrival t q k s = _
  simp only [execTokenArrival, onLive, onDev, Dev.live_cond live, if_true]

theorem does_tokenArrival {s : State} {t : TileId} {q : QueueId} {k : Token} {P : Dev → Prop} (live : s.dev.live = true)
    (p : P (s.dev.arrive t.toNat q.toNat k)) : Does (.tokenArrival t q (some k)) s P :=
  ⟨_, exec_tokenArrival s t q (some k) live, rfl, p⟩

/-! ## A credit that returns (R116) -/

section creditBack
variable {d : Dev} {t q : Nat}

theorem Dev.creditBack_of_none (h : (d.queue t q).freed = 0) : d.creditBack t q = d := by simp [Dev.creditBack, h]

/-- A freed credit returns; what the interface then does of its own concerns the fabric alone (R359). -/
theorem Dev.creditBack_of_freed (h : 0 < (d.queue t q).freed) : ∃ fab out, d.creditBack t q =
    { d.setQueue t q { d.queue t q with freed := (d.queue t q).freed - 1, credits := (d.queue t q).credits + 1 } with
      fab := fab, out := out } := by
  unfold Dev.creditBack Dev.creditReturn
  rw [if_neg (Nat.ne_of_gt h), if_pos h]
  dsimp only
  split
  · exact ⟨_, _, rfl⟩
  · split <;> exact ⟨_, _, rfl⟩

end creditBack

/-- Settles O15: a token at a queue with room raises its faults and is stored; without room it raises Q_OVERFLOW and a fault; a freed
credit moves to the producer's. -/
theorem arrivingTokensAndReturnedCredits : Obligations.ArrivingTokensAndReturnedCredits := by
  unfold Obligations.ArrivingTokensAndReturnedCredits
  refine ⟨fun s t q k live => ⟨fun room hk hs he => ?_, fun room bad => ?_, fun full => ?_, fun rest hm => ?_⟩,
    fun s t q live => ⟨fun freed => ?_, fun none => ?_⟩⟩
  · refine does_tokenArrival live ?_
    rw [Dev.arrive_of_room room, Dev.arrivalFaults_of_expected hk hs he, Queue.stored_of_expected hk hs he]
    exact ⟨Dev.queue_setQueue_self _ _ _ _, fun t' q' => Dev.queue_setQueue_ne _ _, rfl⟩
  · refine does_tokenArrival live ?_
    rw [Dev.arrive_of_room room, Dev.queue_setQueue_self]
    obtain ⟨tokens, seq⟩ := Queue.stored_of_bad bad
    exact ⟨tokens, seq, Dev.fget_arrivalFaults_kindFault, Dev.fget_arrivalFaults_seqGap, s.dev.arrivalFaults_memSame _ _ k⟩
  · refine does_tokenArrival live ?_
    rw [Dev.arrive_of_full full]
    exact ⟨rfl, s.dev.fget_dfEvent (v := E.TIL_DF_Q_OVERFLOW) (by decide) _, rfl, s.dev.event_regsBut _ _, rfl⟩
  · rw [exec_tokenArrival s t q none live, Dev.tokenArrival_none hm, exec_tokenArrival]
    exact live
  · refine does_live (fun d => d.creditBack t.toNat q.toNat) rfl live ?_
    obtain ⟨fab, out, returned⟩ := Dev.creditBack_of_freed freed
    rw [returned]
    exact ⟨Dev.queue_setQueue_self _ _ _ _, rfl⟩
  · exact exec_onLive_same (fun d => d.creditBack t.toNat q.toNat) rfl (Dev.creditBack_of_none none)

end Sys2Proof.Machine

namespace Sys2Proof.Machine

/-! ## The two sides of the queues -/

/-- The consumer's side of every queue: the tokens it holds and the credits it has freed. -/
def Dev.heads (d : Dev) (t q : Nat) : List Token × Nat := ((d.queue t q).tokens, (d.queue t q).freed)

/-- The producer's side of every queue: the tokens in flight and the credits. -/
def Dev.flights (d : Dev) (t q : Nat) : List Token × Nat := ((d.queue t q).flight, (d.queue t q).credits)

/-- The token that output `o` of the unit in slot `x` sends, numbered by its port; a VOID token carries zeros. -/
def Slot.outToken (x : Slot) (o kind : Nat) (payload : Row) : Token :=
  ⟨BitVec.ofNat 3 kind, x.epoch, BitVec.ofNat 12 ((fmGet x.seqs o).getD 0), if kind = kVoid then 0 else payload⟩

end Sys2Proof.Machine

namespace Sys2Proof

open Sys2Proof.Machine

theorem takesHead_iff {d e : Dev} {t : Nat} {c : Cfg} {i : Nat} :
    takesHead d e t c i ↔ ∀ q, c.inq i = some q → e.heads t q = ((d.heads t q).1.drop 1, (d.heads t q).2 + 1) := by
  simp only [takesHead, Dev.heads, Prod.mk.injEq]

theorem keepsHead_of_heads {d e : Dev} {t : Nat} {c : Cfg} {i : Nat} (h : ∀ q, c.inq i = some q → e.heads t q = d.heads t q) :
    keepsHead d e t c i := fun q hq => congrArg Prod.fst (h q hq)

theorem putsToken_iff {d e : Dev} {x : Slot} {c : Cfg} {o kind : Nat} {payload : Row} :
    putsToken d e x c o kind payload ↔ ∀ t q, (c.outs[o]?).getD none = some (t, q) → e.flights t q =
      ((d.flights t q).1 ++ [x.outToken o kind payload], (d.flights t q).2 - 1) := by
  simp only [putsToken, Dev.flights, Slot.outToken, Prod.mk.injEq]

theorem takesHead.congr {d e e' : Dev} {t : Nat} {c : Cfg} {i : Nat} (h : takesHead d e t c i) (he : e'.heads = e.heads) :
    takesHead d e' t c i :=
  takesHead_iff.mpr (he ▸ takesHead_iff.mp h)

theorem keepsHead.congr {d e e' : Dev} {t : Nat} {c : Cfg} {i : Nat} (h : keepsHead d e t c i) (he : e'.heads = e.heads) :
    keepsHead d e' t c i := fun q hq => (congrArg Prod.fst (congrFun (congrFun he t) q)).trans (h q hq)

/-- From `d` to `e`, a control input has given up its head if `last` says so, and otherwise kept it (R124). -/
def headMoves (d e : Dev) (t : Nat) (c : Cfg) (i : Nat) (last : Bool) : Prop :=
  if last then takesHead d e t c i else keepsHead d e t c i

theorem headMoves.congr {d e e' : Dev} {t : Nat} {c : Cfg} {i : Nat} {last : Bool} (h : headMoves d e t c i last)
    (he : e'.heads = e.heads) : headMoves d e' t c i last := by
  cases last
  · exact keepsHead.congr h he
  · exact takesHead.congr h he

/-- What an output puts depends on the producer's side of the queues and on the slot's epoch and numbers alone. -/
theorem putsToken.congr {d d' e e' : Dev} {x x' : Slot} {c : Cfg} {o kind : Nat} {payload : Row}
    (h : putsToken d e x c o kind payload) (hd : d'.flights = d.flights) (he : e'.flights = e.flights) (hx : x'.epoch = x.epoch)
    (hs : x'.seqs = x.seqs) : putsToken d' e' x' c o kind payload := by
  rw [putsToken_iff] at h ⊢
  rwa [hd, he, Slot.outToken, hx, hs]

end Sys2Proof

namespace Sys2Proof.Machine

/-- A queue changed on its producer's side only keeps the consumer's side of every queue. -/
theorem Dev.heads_setQueue (d : Dev) {t q : Nat} {y : Queue} (ht : y.tokens = (d.queue t q).tokens) (hf : y.freed = (d.queue t q).freed) :
    (d.setQueue t q y).heads = d.heads := by
  funext t' q'
  unfold Dev.heads
  rw [Dev.queue_setQueue]
  split
  · next h => rw [ht, hf, Dev.queue, Dev.queue, h]
  · rfl

/-- A queue changed on its consumer's side only keeps the producer's side of every queue. -/
theorem Dev.flights_setQueue (d : Dev) {t q : Nat} {y : Queue} (hf : y.flight = (d.queue t q).flight)
    (hc : y.credits = (d.queue t q).credits) : (d.setQueue t q y).flights = d.flights := by
  funext t' q'
  unfold Dev.flights
  rw [Dev.queue_setQueue]
  split
  · next h => rw [hf, hc, Dev.queue, Dev.queue, h]
  · rfl

theorem qKey_inj {t q q' : Nat} (h : qKey t q = qKey t q') : q = q' := Nat.add_left_cancel h

/-! ## A device beside its units -/

/-- A device without its registers, its queues and its slots. -/
def Dev.besidesUnits (d : Dev) : Dev := { d with regs := [], queues := [], slots := [] }

theorem unitsOnly_of_besidesUnits {d e : Dev} (h : e.besidesUnits = d.besidesUnits) : unitsOnly d e :=
  (congrArg (fun z : Dev => { z with regs := e.regs, queues := e.queues, slots := e.slots }) h : e = { d with
    regs := e.regs, queues := e.queues, slots := e.slots })

/-! ## What firing's operations change -/

section firing
variable (d : Dev) (t s : Nat) (c : Cfg)

theorem Dev.popIn_eq (i : Nat) {q : Nat} (h : c.inq i = some q) : d.popIn t c i = d.popQ t q := by simp [Dev.popIn, h]

@[simp] theorem Dev.flights_popIn (i : Nat) : (d.popIn t c i).flights = d.flights := by
  unfold Dev.popIn
  split
  · exact d.flights_setQueue rfl rfl
  · rfl

@[simp] theorem Dev.slot_popIn (i t' s' : Nat) : (d.popIn t c i).slot t' s' = d.slot t' s' := by
  unfold Dev.popIn
  split <;> rfl

@[simp] theorem Dev.besidesUnits_popIn (i : Nat) : (d.popIn t c i).besidesUnits = d.besidesUnits := by
  unfold Dev.popIn
  split <;> rfl

theorem Dev.heads_popIn_self {i q : Nat} (h : c.inq i = some q) :
    (d.popIn t c i).heads t q = ((d.heads t q).1.drop 1, (d.heads t q).2 + 1) := by
  unfold Dev.heads
  rw [Dev.popIn_eq _ _ _ _ h, Dev.popQ, Dev.queue_setQueue_self]

/-- The head of one input leaves the heads of the tile's other queues. -/
theorem Dev.heads_popIn_ne {i q : Nat} (h : c.inq i ≠ some q) : (d.popIn t c i).heads t q = d.heads t q := by
  unfold Dev.popIn
  split
  · next r hr =>
    unfold Dev.heads
    rw [Dev.popQ, Dev.queue_setQueue_ne _ _ fun hk => h (hr.trans (congrArg some (qKey_inj hk).symm))]
  · rfl

theorem Dev.reserve_of_some {o u q : Nat} (h : (c.outs[o]?).getD none = some (u, q)) :
    d.reserve c o = d.setQueue u q { d.queue u q with credits := (d.queue u q).credits - 1 } := by
  simp only [Dev.reserve, h]

@[simp] theorem Dev.heads_reserve (o : Nat) : (d.reserve c o).heads = d.heads := by
  unfold Dev.reserve
  split
  · exact d.heads_setQueue rfl rfl
  · rfl

@[simp] theorem Dev.slot_reserve (o t' s' : Nat) : (d.reserve c o).slot t' s' = d.slot t' s' := by
  unfold Dev.reserve
  split <;> rfl

@[simp] theorem Dev.besidesUnits_reserve (o : Nat) : (d.reserve c o).besidesUnits = d.besidesUnits := by
  unfold Dev.reserve
  split <;> rfl

theorem Dev.queue_sendTok {o u q : Nat} (h : (c.outs[o]?).getD none = some (u, q)) (kind : Nat) (payload : Row) :
    ((d.sendTok t s c o kind payload).queue u q).flight = (d.queue u q).flight ++ [(d.slot t s).outToken o kind payload] ∧
      ((d.sendTok t s c o kind payload).queue u q).credits = (d.queue u q).credits := by
  simp only [Dev.sendTok, h, Dev.queue_setQueue_self]
  exact ⟨rfl, rfl⟩

@[simp] theorem Dev.heads_sendTok (o kind : Nat) (payload : Row) : (d.sendTok t s c o kind payload).heads = d.heads := by
  unfold Dev.sendTok
  split
  · rfl
  · exact Dev.heads_setQueue _ rfl rfl

@[simp] theorem Dev.besidesUnits_sendTok (o kind : Nat) (payload : Row) : (d.sendTok t s c o kind payload).besidesUnits = d.besidesUnits := by
  unfold Dev.sendTok
  split <;> rfl

/-- A token leaves an output: its queue's flight grows by it and a credit is reserved (R112, R116). -/
theorem Dev.putOut_puts (o kind : Nat) (payload : Row) : putsToken d (d.putOut t s c o kind payload) (d.slot t s) c o kind payload := by
  intro u q h
  obtain ⟨flight, credits⟩ := (d.reserve c o).queue_sendTok t s c h kind payload
  unfold Dev.putOut
  rw [flight, credits, Dev.slot_reserve, d.reserve_of_some c h, Dev.queue_setQueue_self]
  exact ⟨rfl, rfl⟩

@[simp] theorem Dev.heads_putOut (o kind : Nat) (payload : Row) : (d.putOut t s c o kind payload).heads = d.heads := by
  simp [Dev.putOut]

@[simp] theorem Dev.besidesUnits_putOut (o kind : Nat) (payload : Row) : (d.putOut t s c o kind payload).besidesUnits = d.besidesUnits := by
  simp [Dev.putOut]

/-- The firing takes its data token, and the control token with the last token that it covers (R124). -/
theorem Dev.cover_takes {i ctl : Nat} (h : c.inq i ≠ c.inq ctl) (lf : Nat × Bool) :
    takesHead d ((d.popIn t c i).cover t s c ctl lf) t c i ∧ headMoves d ((d.popIn t c i).cover t s c ctl lf) t c ctl lf.2 := by
  have data : ∀ q, c.inq i = some q → (d.popIn t c i).heads t q = ((d.heads t q).1.drop 1, (d.heads t q).2 + 1) := fun q hq =>
    d.heads_popIn_self t c hq
  have ctlKept : ∀ q, c.inq ctl = some q → (d.popIn t c i).heads t q = d.heads t q := fun q hq =>
    d.heads_popIn_ne t c (hq ▸ h)
  unfold Dev.cover
  cases lf.2
  · exact ⟨takesHead_iff.mpr data, keepsHead_of_heads ctlKept⟩
  · refine ⟨takesHead_iff.mpr fun q hq => ?_, takesHead_iff.mpr fun q hq => ?_⟩
    · exact (Dev.heads_popIn_ne _ t c (hq ▸ h.symm)).trans (data q hq)
    · rw [← ctlKept q hq]
      exact Dev.heads_popIn_self _ t c hq

section cover
variable (ctl : Nat) (lf : Nat × Bool)

@[simp] theorem Dev.flights_cover : (d.cover t s c ctl lf).flights = d.flights := by
  unfold Dev.cover
  dsimp only
  split
  · exact Dev.flights_popIn _ t c ctl
  · rfl

@[simp] theorem Dev.slot_cover : (d.cover t s c ctl lf).slot t s = { d.slot t s with left := lf.1 } := by
  unfold Dev.cover
  dsimp only
  split
  · rw [Dev.slot_popIn]
    exact d.slot_setSlot_self t s _
  · exact d.slot_setSlot_self t s _

@[simp] theorem Dev.besidesUnits_cover : (d.cover t s c ctl lf).besidesUnits = d.besidesUnits := by
  unfold Dev.cover
  dsimp only
  split
  · exact Dev.besidesUnits_popIn _ t c ctl
  · rfl

end cover

@[simp] theorem Dev.heads_markFired : (d.markFired t s).heads = d.heads := rfl
@[simp] theorem Dev.flights_markFired : (d.markFired t s).flights = d.flights := rfl
@[simp] theorem Dev.besidesUnits_markFired : (d.markFired t s).besidesUnits = d.besidesUnits := rfl

@[simp] theorem Dev.slot_markFired : (d.markFired t s).slot t s =
    { d.slot t s with since := 0, fired := true, idle := 0, stalled := false } := d.slot_setSlot_self t s _

/-- STEER_FAULT changes registers alone. -/
theorem Dev.steerFault_keep {β : Type} (g : Dev → β) (hregs : ∀ d x, g { d with regs := x } = g d) (b : Bool) :
    g (d.steerFault t b) = g d := by
  unfold Dev.steerFault
  split
  · exact Dev.event_keep g hregs _ _ _
  · rfl

@[simp] theorem Dev.heads_steerFault (b : Bool) : (d.steerFault t b).heads = d.heads :=
  d.steerFault_keep t Dev.heads (fun _ _ => rfl) b
@[simp] theorem Dev.flights_steerFault (b : Bool) : (d.steerFault t b).flights = d.flights :=
  d.steerFault_keep t Dev.flights (fun _ _ => rfl) b
@[simp] theorem Dev.slot_steerFault (b : Bool) (t' s' : Nat) : (d.steerFault t b).slot t' s' = d.slot t' s' :=
  d.steerFault_keep t (fun e => e.slot t' s') (fun _ _ => rfl) b
@[simp] theorem Dev.besidesUnits_steerFault (b : Bool) : (d.steerFault t b).besidesUnits = d.besidesUnits :=
  d.steerFault_keep t Dev.besidesUnits (fun _ _ => rfl) b

theorem Dev.fget_steerFault : (d.steerFault t true).fget F.TIL_DF_EVENT_STEER_FAULT (tileAdd t) = 1 :=
  d.fget_dfEvent (v := E.TIL_DF_STEER_FAULT) (by decide) _

/-- What a drop unit discards changes registers alone. -/
theorem Dev.discard_keep {β : Type} (g : Dev → β) (hregs : ∀ d x, g { d with regs := x } = g d) (v : Token) :
    g (d.discard t v) = g d := by
  unfold Dev.discard
  split
  · exact (Dev.event_keep g hregs _ _ _).trans (Dev.count_keep g hregs _ _ _ _)
  · rfl

@[simp] theorem Dev.heads_discard (v : Token) : (d.discard t v).heads = d.heads := d.discard_keep t Dev.heads (fun _ _ => rfl) v
@[simp] theorem Dev.besidesUnits_discard (v : Token) : (d.discard t v).besidesUnits = d.besidesUnits :=
  d.discard_keep t Dev.besidesUnits (fun _ _ => rfl) v

/-- A POISON token discarded is reported (R126). -/
theorem Dev.fget_discard_poison {v : Token} (h : v.kind.toNat = kPoison) :
    (d.discard t v).fget F.TIL_DF_EVENT_POISON_DROPPED (tileAdd t) = 1 := by
  unfold Dev.discard
  rw [if_pos h]
  exact Dev.fget_dfEvent _ (v := E.TIL_DF_POISON_DROPPED) (by decide) _

end firing

/-! ## A covered token is steered (R123, R124) -/

/-- A firing of a steering unit: the data token `v` at input `i` leaves for output `o` as the control token at input `ctl` says. -/
def Dev.steered (d : Dev) (t s : Nat) (x : Slot) (c : Cfg) (i ctl o : Nat) (w : Steer) (v : Token) : Dev :=
  ((((d.popIn t c i).cover t s c ctl (coverLeft x w.n)).putOut t s c o (w.kind.getD v.kind.toNat) v.payload).markFired t s).steerFault
    t w.fault

/-- What `Dev.steered` moves, sends, raises and leaves. -/
theorem Dev.steered_moves (d : Dev) (t s : Nat) (c : Cfg) {i ctl : Nat} (o : Nat) (w : Steer) (v : Token) (h : c.inq i ≠ c.inq ctl) :
    let x := d.slot t s
    let e := d.steered t s x c i ctl o w v
    takesHead d e t c i ∧ headMoves d e t c ctl (coverLeft x w.n).2 ∧
      putsToken d e x c o (w.kind.getD v.kind.toNat) v.payload ∧
      (w.fault = true → e.fget F.TIL_DF_EVENT_STEER_FAULT (tileAdd t) = 1) ∧
      (e.slot t s).fired = true ∧ (e.slot t s).since = 0 ∧ unitsOnly d e := by
  dsimp only
  obtain ⟨data, control⟩ := d.cover_takes t s c h (coverLeft (d.slot t s) w.n)
  have puts := ((d.popIn t c i).cover t s c ctl (coverLeft (d.slot t s) w.n)).putOut_puts t s c o (w.kind.getD v.kind.toNat) v.payload
  refine ⟨data.congr (by simp [Dev.steered]), control.congr (by simp [Dev.steered]), ?_, fun fault => ?_, by simp [Dev.steered],
    by simp [Dev.steered], unitsOnly_of_besidesUnits (by simp [Dev.steered])⟩
  · exact puts.congr (by simp) (by simp [Dev.steered]) (by simp) (by simp)
  · unfold Dev.steered
    rw [fault]
    exact Dev.fget_steerFault _ t

/-- Of a control head's meaning the kind to write alone depends on the data token (Table 5-7). -/
theorem steer_sel_n (cls sels : Nat) (k : Token) (data : Nat) :
    (steer cls sels k data).sel = (steer cls sels k 0).sel ∧ (steer cls sels k data).n = (steer cls sels k 0).n := by
  unfold steer
  dsimp only
  split
  · exact ⟨rfl, rfl⟩
  · split
    · exact ⟨rfl, rfl⟩
    · split <;> exact ⟨rfl, rfl⟩

theorem Dev.slot_of_canFire {d : Dev} {t s : Nat} {cls : List Nat} {x : Slot} {c : Cfg} (h : d.canFire t s cls = some (x, c)) :
    d.slot t s = x := by
  unfold Dev.canFire at h
  dsimp only at h
  split at h
  · cases h
  · split at h
    · cases h; rfl
    · cases h

section fires
variable {d : Dev} {t s : Nat} {x : Slot} {c : Cfg} {k v : Token}

theorem Dev.switchFire_eq_steered (hf : d.canFire t s [5] = some (x, c)) (hk : d.ready t x c 1 = some k) (hv : d.ready t x c 0 = some v)
    (hn : (steer 5 c.outs.length k v.kind.toNat).n ≠ 0) (hc : d.credit c (steer 5 c.outs.length k v.kind.toNat).sel = true) :
    d.switchFire t s = d.steered t s x c 0 1 (steer 5 c.outs.length k v.kind.toNat).sel (steer 5 c.outs.length k v.kind.toNat) v := by
  simp [Dev.switchFire, Dev.steered, hf, hk, hv, hn, hc]

theorem Dev.mergeFire_eq_steered (hf : d.canFire t s [6] = some (x, c)) (hk : d.ready t x c (c.ins.length - 1) = some k)
    (hv : d.ready t x c (steer 6 (c.ins.length - 1) k 0).sel = some v) (hn : (steer 6 (c.ins.length - 1) k 0).n ≠ 0)
    (hc : d.credit c 0 = true) :
    d.mergeFire t s = d.steered t s x c (steer 6 (c.ins.length - 1) k 0).sel (c.ins.length - 1) 0
      (steer 6 (c.ins.length - 1) k v.kind.toNat) v := by
  have sel := (steer_sel_n 6 (c.ins.length - 1) k v.kind.toNat).1
  simp [Dev.mergeFire, Dev.steered, hf, hk, hv, hn, hc, sel]

theorem Dev.dropFire_eq_steered (hf : d.canFire t s [10] = some (x, c)) (hk : d.ready t x c 1 = some k) (hv : d.ready t x c 0 = some v)
    (hn : (steer 10 1 k v.kind.toNat).n ≠ 0) (keep : (steer 10 1 k v.kind.toNat).keep = true) (hc : d.credit c 0 = true) :
    d.dropFire t s = d.steered t s x c 0 1 0 (steer 10 1 k v.kind.toNat) v := by
  have n := (steer_sel_n 10 1 k v.kind.toNat).2 ▸ hn
  simp [Dev.dropFire, Dev.steered, hf, hk, hv, n, keep, hc]

theorem Dev.dropFire_eq_discard (hf : d.canFire t s [10] = some (x, c)) (hk : d.ready t x c 1 = some k) (hv : d.ready t x c 0 = some v)
    (hn : (steer 10 1 k v.kind.toNat).n ≠ 0) (keep : (steer 10 1 k v.kind.toNat).keep = false) :
    d.dropFire t s =
      (((d.popIn t c 0).cover t s c 1 (coverLeft x (steer 10 1 k v.kind.toNat).n)).discard t v).markFired t s := by
  have n := (steer_sel_n 10 1 k v.kind.toNat).2 ▸ hn
  simp [Dev.dropFire, hf, hk, hv, n, keep]

end fires

/-- Settles O16: a firing that moves its data token is `Dev.steered`, whichever of the three units fires; a drop with KEEP 0 discards
the token. -/
theorem controlledSteeringMovesOneToken : Obligations.ControlledSteeringMovesOneToken := by
  unfold Obligations.ControlledSteeringMovesOneToken
  refine fun s t sl x c k v live => ⟨fun hf hk hv hq hn hc => ?_, fun hf hk hv hq hn hc => ?_, fun hf hk hv hq hn hc => ?_⟩
  · refine does_live (fun d => d.switchFire t.toNat sl.toNat) rfl live ?_
    rw [Dev.switchFire_eq_steered hf hk hv hn hc, ← Dev.slot_of_canFire hf]
    exact s.dev.steered_moves _ _ c _ _ v hq
  · refine does_live (fun d => d.mergeFire t.toNat sl.toNat) rfl live ?_
    rw [Dev.mergeFire_eq_steered hf hk hv hn hc, ← Dev.slot_of_canFire hf]
    obtain ⟨data, control, puts, -, fired, -, units⟩ :=
      s.dev.steered_moves t.toNat sl.toNat c 0 (steer 6 (c.ins.length - 1) k v.kind.toNat) v hq
    rw [(steer_sel_n _ _ _ _).2] at control
    exact ⟨data, control, puts, fired, units⟩
  · refine does_live (fun d => d.dropFire t.toNat sl.toNat) rfl live ?_
    cases keep : (steer 10 1 k v.kind.toNat).keep
    · rw [Dev.dropFire_eq_discard hf hk hv hn keep]
      obtain ⟨data, control⟩ := s.dev.cover_takes t.toNat sl.toNat c hq (coverLeft x (steer 10 1 k v.kind.toNat).n)
      exact ⟨data.congr (by simp), control.congr (by simp), nofun, fun _ poison => Dev.fget_discard_poison _ _ poison, by simp,
        unitsOnly_of_besidesUnits (by simp)⟩
    · rw [Dev.dropFire_eq_steered hf hk hv hn keep (hc keep), ← Dev.slot_of_canFire hf]
      obtain ⟨data, control, puts, -, fired, -, units⟩ := s.dev.steered_moves t.toNat sl.toNat c 0 (steer 10 1 k v.kind.toNat) v hq
      exact ⟨data, control, fun _ => puts, nofun, fired, units⟩

end Sys2Proof.Machine

namespace Sys2Proof.Machine

/-! ## A fork and a vector operator with two outputs that share a queue's key -/

namespace SharedQueue

/-- A DATA token. -/
def token : Token := ⟨0, false, 0, 0⟩

/-- The device with the unit of slot `x` in place of the field, its input token in queue 0 of its tile. -/
def unitDev (x : Slot) : Dev :=
  { dev with
      queues := [(qKey 0 0, { Queue.init with depth := 1, tokens := [token] }), (qKey 1 0, { Queue.init with depth := 8, credits := 8 })]
      slots := [(slotKey 0 0, x)] }

/-- A fork with the field's input and outputs: queue 0 of tile 1, and queue 128 of tile 0, a number no queue has (R107). -/
def fork : Cfg := { cfg with cls := 12 }

def forkSlot : Slot := { Slot.init with active := some fork }

/-- A vector operator with the same outputs. -/
def vector : Cfg := { cfg with cls := 1 }

/-- The vector operator with its first firing executed: a token of zeros for each output. -/
def vectorSlot : Slot := { Slot.init with active := some vector, vx := { Slot.init.vx with done := [(0, kData, [0, 0])] } }

theorem unit_live (x : Slot) : (unitDev x).live = true := rfl

theorem fork_canFire : (unitDev forkSlot).canFire 0 0 [12] = some (forkSlot, fork) := rfl

theorem fork_ready : (unitDev forkSlot).ready 0 forkSlot fork 0 = some token := rfl

theorem fork_credit : ∀ o < fork.outs.length, (unitDev forkSlot).credit fork o = true := by decide

/-- The fork sends its token to both outputs: two are in flight to the one queue. -/
theorem fork_flight_after : (((unitDev forkSlot).forkFire 0 0).queue 1 0).flight.length = 2 := by decide

theorem vector_outs : ∀ o < vector.outs.length, ∀ p < vector.outs.length, o ≠ p →
    (vector.outs[o]?).getD none ≠ (vector.outs[p]?).getD none := by decide

/-- The vector operator sends its firing's tokens to both outputs. -/
theorem vector_flight_after : (((unitDev vectorSlot).vectorOutput 0 0).queue 1 0).flight.length = 2 := by decide

end SharedQueue

/-- Refutes O17: the statement takes a fork's unequal outputs for outputs to unequal queues. The pairs (1, 0) and (0, 128) are unequal
and have the key 128 of one queue, so the flight to it grows by two tokens, not by one. (The image loader refuses a UNITS item with an
output whose queue is above 127; the statement ranges over every configuration.) -/
theorem not_repeatRotateDropForkAndStalls : ¬ Obligations.RepeatRotateDropForkAndStalls := by
  unfold Obligations.RepeatRotateDropForkAndStalls
  intro h
  obtain ⟨-, -, -, -, fork⟩ := h.1 ⟨[], SharedQueue.unitDev SharedQueue.forkSlot⟩ 0 0 SharedQueue.forkSlot
    SharedQueue.fork SharedQueue.token (SharedQueue.unit_live _)
  obtain ⟨-, puts, -⟩ := of_does_live (f := fun d => d.forkFire 0 0) rfl (SharedQueue.unit_live _)
    (fork SharedQueue.fork_canFire SharedQueue.fork_ready SharedQueue.fork_credit (by decide))
  have flight := congrArg List.length (puts 0 (by decide) 1 0 (by decide)).1
  rw [SharedQueue.fork_flight_after] at flight
  exact absurd flight (by decide)

/-- Refutes O23: the statement takes a vector operator's unequal outputs for outputs to unequal queues. With the pairs (1, 0) and
(0, 128), which have one key, the flight to the queue grows by the tokens of both outputs. (The image loader refuses such an output, as
for O17.) -/
theorem not_vectorFiringAndOutput : ¬ Obligations.VectorFiringAndOutput := by
  unfold Obligations.VectorFiringAndOutput
  intro h
  obtain ⟨sent, -⟩ := of_does_live (f := fun d => d.vectorOutput 0 0) rfl (SharedQueue.unit_live _)
    (h.2 ⟨[], SharedQueue.unitDev SharedQueue.vectorSlot⟩ 0 0 SharedQueue.vectorSlot SharedQueue.vector kData [0, 0]
      (SharedQueue.unit_live _) rfl rfl rfl rfl fun o p ho hp ne _ => SharedQueue.vector_outs o ho p hp ne)
  have flight := congrArg List.length (sent 0 0 1 0 rfl rfl)
  rw [SharedQueue.vector_flight_after] at flight
  exact absurd flight (by decide)

end Sys2Proof.Machine

namespace Sys2Proof.Machine

/-! ## A fork that swaps, with two outputs that share a queue's key -/

namespace SharedQueue

/-- The fork's next configuration: the same, under number 1. -/
def nextFork : Cfg := { fork with num := 1 }

/-- The fork with its input closed by a MARK that names configuration 1, and its shadow ready. -/
def swapSlot : Slot := { forkSlot with shadow := some nextFork, closed := [0], marks := [1] }

theorem swap_inputs_closed : ∀ i ∈ fork.live, swapSlot.closed.contains i = true := by decide

theorem swap_credit : ∀ o < fork.outs.length, (unitDev swapSlot).credit fork o = true := by decide

/-- The swap sends a MARK to both outputs: two are in flight to the one queue. -/
theorem swap_flight_after : (((unitDev swapSlot).unitSwap 0 0).queue 1 0).flight.length = 2 := by decide

end SharedQueue

/-- Refutes O19: the statement takes a unit's unequal outputs for outputs to unequal queues. With the pairs (1, 0) and (0, 128), which
have one key, the flight to the queue grows by the MARKs of both outputs, not by one. (The image loader refuses such an output, as for
O17 and O23; the statement ranges over every configuration.) -/
theorem not_configurationMessagesAndUnitSwap : ¬ Obligations.ConfigurationMessagesAndUnitSwap := by
  unfold Obligations.ConfigurationMessagesAndUnitSwap
  rintro ⟨-, swap⟩
  obtain ⟨sends, -⟩ := swap ⟨[], SharedQueue.unitDev SharedQueue.swapSlot⟩ 0 0 SharedQueue.swapSlot SharedQueue.fork
    SharedQueue.nextFork (SharedQueue.unit_live _) rfl rfl rfl (by decide) SharedQueue.swap_inputs_closed rfl (by decide) rfl
    SharedQueue.swap_credit fun o p ho hp ne _ => SharedQueue.vector_outs o ho p hp ne
  obtain ⟨marks, -⟩ := of_does_live (f := fun d => d.unitSwap 0 0) rfl (SharedQueue.unit_live _) (sends (by decide))
  have flight := congrArg List.length (marks 0 (by decide) 1 0 rfl).1
  rw [SharedQueue.swap_flight_after] at flight
  exact absurd flight (by decide)

end Sys2Proof.Machine

namespace Sys2Proof.Machine

/-! ## Numbers as bytes (R3) -/

theorem leNat_lt (bs : List Byte) : leNat bs < 256 ^ bs.length := by
  induction bs with
  | nil => decide
  | cons b bs ih =>
    have hb : b.toNat < 256 := b.isLt
    rw [leNat, List.length_cons, Nat.pow_succ]
    omega

@[simp] theorem length_leBytes (n v : Nat) : (leBytes n v).length = n := by
  induction n generalizing v with
  | zero => rfl
  | succ n ih => rw [leBytes, List.length_cons, ih]

theorem leNat_leBytes (n v : Nat) : leNat (leBytes n v) = v % 256 ^ n := by
  induction n generalizing v with
  | zero => rw [Nat.pow_zero, Nat.mod_one]; rfl
  | succ n ih =>
    rw [leBytes, leNat, ih, Nat.pow_succ', Nat.mod_mul]
    rfl

theorem leNat_memBytes_lt (m : List Host.Cell) (a : Nat) : leNat (memBytes m a 8) < 2 ^ 64 := by
  simpa [memBytes] using leNat_lt (memBytes m a 8)

/-- Bytes read where they were written. -/
theorem memBytes_memPutBytes (m : List Host.Cell) (a : Nat) (bs : List Byte) : memBytes (memPutBytes m a bs) a bs.length = bs := by
  refine List.ext_getElem (by simp [memBytes]) fun i _ hi => ?_
  simp [memBytes, memGet_memPutBytes, hi]

/-! ## Memory that a store changes -/

/-- What a store leaves depends on memory and its poison alone. -/
theorem memBut_of_memOf {lo hi : Nat} {d d' e e' : Dev} (h : memBut lo hi d e) (hd : d'.memOf = d.memOf) (he : e'.memOf = e.memOf) :
    memBut lo hi d' e' := by
  obtain ⟨dm, dp⟩ := memSame_of_memOf hd
  obtain ⟨em, ep⟩ := memSame_of_memOf he
  unfold memBut Dev.isPoison at h ⊢
  rwa [dm, dp, em, ep]

theorem memBut_refl (lo hi : Nat) (d : Dev) : memBut lo hi d d := ⟨fun _ _ => rfl, fun _ _ => rfl⟩

theorem Dev.memBut_poke (d : Dev) (a : Nat) (bs : List Byte) : memBut a (a + bs.length) d (d.poke a bs) := by
  refine ⟨fun x hx => ?_, fun x hx => ?_⟩
  · exact (memGet_memPutBytes _ _ _ _).trans (if_neg hx)
  · exact congrArg Option.isSome ((fmGet_fmEraseRange _ _ _ _).trans (if_neg hx))

/-! ## Words of the slices: in reach, and in no stack (R22) -/

theorem le_of_place_scratch {a u o : Nat} (h : place a = .scratch u o) : 0xA000000000 ≤ a := by
  by_contra low
  unfold place at h
  rw [if_pos (Nat.lt_of_not_le low)] at h
  split at h
  · cases h
  · split at h <;> cases h

section slices
variable {a : Nat} (d : Dev) (h : 0xA000000000 ≤ a)
include h

theorem Dev.reachable_of_le : d.unreachable a = false := by simp [Dev.unreachable, Nat.not_lt.mpr h]

theorem Dev.countStk_of_le (n : Nat) (w : Bool) : d.countStk a n w = d := if_neg (Nat.not_lt.mpr h)

theorem Dev.store_of_le (bs : List Byte) : d.store a bs = d.poke a bs := by
  simp [Dev.store, d.reachable_of_le h, Dev.countStk_of_le _ h]

/-- A word of a slice that is not poison reads as memory holds it (R237). -/
theorem Dev.readWord_of_clean (align : a % 8 = 0) (clean : d.isPoison a = false) :
    d.readWord a .none = ((BitVec.ofNat 64 (leNat (memBytes d.mem a 8)), false), d) := by
  have whole : a / 8 * 8 = a := by omega
  simp [Dev.readWord, whole, d.reachable_of_le h, d.countStk_of_le h, clean]

/-- A poison word of a slice reads as poison, which is counted (R237). -/
theorem Dev.readWord_of_poison (align : a % 8 = 0) (poison : d.isPoison a = true) :
    ∃ b, d.readWord a .none = ((0, true), d.event E.TIL_MEM_SP_POISON_READ b) := by
  have whole : a / 8 * 8 = a := by omega
  have stack : ¬a < 0xA000000000 := Nat.not_lt.mpr h
  simp [Dev.readWord, whole, d.reachable_of_le h, d.countStk_of_le h, poison, stack]

end slices

/-- An event whose counter is in the register after its own sets its bit (R9). -/
theorem Dev.fget_event_next (d : Dev) {v : Ev} (w : v.bit.w = 1) (lo : v.bit.lo < 64) (next : v.cnt.off = v.bit.off + 8) (a : Nat) :
    (d.event v a).fget v.bit a = 1 :=
  d.fget_event_bit v a w (by unfold Fld.key; omega)

/-! ## The till (R175–R177) -/

/-- A fold that at each element keeps what it holds or takes the element ends with what it began with or an element. -/
theorem eq_or_mem_of_foldl {α : Type} {f : Option α → α → Option α} (hf : ∀ b r, f b r = b ∨ f b r = some r) {l : List α}
    {b : Option α} {q : α} (h : l.foldl f b = some q) : b = some q ∨ q ∈ l := by
  induction l generalizing b with
  | nil => exact .inl h
  | cons r l ih =>
    rcases ih h with now | tail
    · rcases hf b r with kept | taken
      · exact .inl (kept.symm.trans now)
      · cases taken.symm.trans now
        exact .inr List.mem_cons_self
    · exact .inr (List.mem_cons_of_mem r tail)

/-- The request a slice serves next is one that waits. -/
theorem mem_of_tillPick {last : Nat} {l : List TillReq} {q : TillReq} (h : tillPick last l = some q) : q ∈ l := by
  refine (eq_or_mem_of_foldl (fun b r => ?_) h).resolve_left nofun
  cases b with
  | none => exact .inr rfl
  | some p =>
    dsimp only
    split
    · exact .inr rfl
    · exact .inl rfl

/-- A waiting request names a word of its slice. -/
theorem Dev.le_addr_of_tillPick {d : Dev} {t last : Nat} {q : TillReq} (h : tillPick last (d.tillQueue t) = some q) :
    0xA000000000 ≤ q.addr := by
  have waits := List.of_mem_filter (mem_of_tillPick h)
  simp only [Bool.and_eq_true] at waits
  obtain ⟨⟨-, slice⟩, -⟩ := waits
  split at slice
  · next u o hp => exact le_of_place_scratch hp
  · cases slice

/-- R175's outcomes of a till operation: EXHAUSTED at the limit, SATURATED where the sum exceeds 64 bits. -/
theorem tillOp_eq (word addend limit : Nat) : tillOp word addend limit =
    (word, decide (limit ≤ word), decide (word < limit ∧ 2 ^ 64 ≤ word + addend),
      if limit ≤ word then word else min (word + addend) (2 ^ 64 - 1)) := by
  unfold tillOp
  split
  · next h => simp [h, Nat.not_lt.mpr h]
  · next h =>
    have below := Nat.lt_of_not_le h
    split
    · next wide =>
      have large : 2 ^ 64 ≤ word + addend := by omega
      have top : min (word + addend) (2 ^ 64 - 1) = 2 ^ 64 - 1 := Nat.min_eq_right (Nat.le_of_lt wide)
      simp only [h, below, large, top, decide_false, decide_true, and_self]
    · next wide =>
      have small : ¬2 ^ 64 ≤ word + addend := by omega
      have sum : min (word + addend) (2 ^ 64 - 1) = word + addend := Nat.min_eq_left (Nat.le_of_not_lt wide)
      simp only [h, small, sum, decide_false, and_false]

/-- The request `q` is answered. -/
def NetS.answer (n : NetS) (q : TillReq) (r : Nat × Bool × Bool × Bool) : NetS :=
  { n with till := n.till.map fun z => if z = q then { q with reply := some r, seq := n.next } else z, next := n.next + 1 }

theorem NetS.answer_eq (n : NetS) (q : TillReq) (r : Nat × Bool × Bool × Bool) :
    { n with till := n.till.map fun z => if z = q then { z with reply := some r, seq := n.next } else z, next := n.next + 1 } =
      n.answer q r := by
  unfold NetS.answer
  congr 2
  funext z
  split
  · next h => rw [h]
  · rfl

/-- The slice of tile `t` takes up the request `q`; the arbiter names its tile where others wait (R176). -/
def Dev.tillTurn (d : Dev) (t : Nat) (q : TillReq) : Dev :=
  d.modTile t fun x => { x with tillBusy := true, arb := if 1 < (d.tillQueue t).length then q.tile else x.arb }

theorem Dev.modTile_eq_tillTurn (d : Dev) (t : Nat) (q : TillReq) :
    (d.modTile t fun x => { x with tillBusy := true, arb := if decide (1 < (d.tillQueue t).length) then q.tile else x.arb }) =
      d.tillTurn t q := by
  simp only [decide_eq_true_eq, Dev.tillTurn]

/-- The slice has taken up `q` and counted it. -/
def Dev.tillTaken (d : Dev) (t : Nat) (q : TillReq) : Dev := (d.tillTurn t q).count F.TIL_TILL_OPS_COUNT 1 (tileAdd t)

/-- What serving `q` on a word without poison makes of registers, tiles and memory. -/
def Dev.tillServed (d : Dev) (t : Nat) (q : TillReq) (word : Nat) : Dev :=
  if q.limit ≤ word then d.tillTaken t q else
  (if 2 ^ 64 ≤ word + q.addend then (d.tillTaken t q).event E.TIL_TILL_SATURATED (tileAdd t) else d.tillTaken t q).poke q.addr
    (leBytes 8 (min (word + q.addend) (2 ^ 64 - 1)))

@[simp] theorem Dev.tile_modTile_self (d : Dev) (t : Nat) (f : Tile → Tile) : (d.modTile t f).tile t = f (d.tile t) := by
  simp [Dev.modTile, Dev.tile, fmMod]

section till
variable {d : Dev} {t : Nat} {q : TillReq}

theorem Dev.tile_tillTaken : (d.tillTaken t q).tile t =
    { d.tile t with tillBusy := true, arb := if 1 < (d.tillQueue t).length then q.tile else (d.tile t).arb } := by
  show (d.tillTurn t q).tile t = _
  rw [Dev.tillTurn, Dev.tile_modTile_self]

/-- Serving a request changes registers, memory and its tile alone. -/
theorem Dev.tillServed_frame (word : Nat) : d.tillServed t q word = { d with
    regs := (d.tillServed t q word).regs, mem := (d.tillServed t q word).mem, poison := (d.tillServed t q word).poison
    tiles := (d.tillTaken t q).tiles } := by
  unfold Dev.tillServed
  split
  · rfl
  · split <;> rfl

theorem Dev.tillServed_of_exhausted {word : Nat} (h : q.limit ≤ word) : d.tillServed t q word = d.tillTaken t q := if_pos h

theorem Dev.mem_tillServed_of_lt {word : Nat} (h : word < q.limit) : (d.tillServed t q word).mem =
    memPutBytes d.mem q.addr (leBytes 8 (min (word + q.addend) (2 ^ 64 - 1))) := by
  unfold Dev.tillServed
  rw [if_neg (Nat.not_le.mpr h)]
  split <;> rfl

theorem Dev.memBut_tillServed (word : Nat) : memBut q.addr (q.addr + 8) d (d.tillServed t q word) := by
  unfold Dev.tillServed
  split
  · exact memBut_refl _ _ d
  · have stored := Dev.memBut_poke d q.addr (leBytes 8 (min (word + q.addend) (2 ^ 64 - 1)))
    rw [length_leBytes] at stored
    split <;> exact memBut_of_memOf stored rfl rfl

theorem Dev.fget_tillServed_saturated {word : Nat} (h : word < q.limit) (wide : 2 ^ 64 ≤ word + q.addend) :
    (d.tillServed t q word).fget F.TIL_TILL_EVENT_SATURATED (tileAdd t) = 1 := by
  unfold Dev.tillServed
  rw [if_neg (Nat.not_le.mpr h), if_pos wide]
  exact (d.tillTaken t q).fget_event_next (v := E.TIL_TILL_SATURATED) rfl (by decide) rfl (tileAdd t)

section request
variable (pick : tillPick (d.tile t).arb (d.tillQueue t) = some q) (idle : (d.tile t).tillBusy = false) (align : q.addr % 8 = 0)
include pick idle align

/-- A request on a word that reads without poison is served. -/
theorem Dev.tillRequest_of_clean (clean : d.isPoison q.addr = false) {word : Nat} (hw : word = leNat (memBytes d.mem q.addr 8)) :
    d.tillRequest t .none = { d.tillServed t q word with
      net := d.net.answer q (word, decide (q.limit ≤ word), decide (word < q.limit ∧ 2 ^ 64 ≤ word + q.addend), false) } := by
  have scratch := Dev.le_addr_of_tillPick pick
  have read : (d.tillTurn t q).readWord q.addr .none = ((BitVec.ofNat 64 word, false), d.tillTurn t q) :=
    hw ▸ Dev.readWord_of_clean (d.tillTurn t q) scratch align clean
  have value : (BitVec.ofNat 64 word).toNat = word := by
    rw [BitVec.toNat_ofNat, Nat.mod_eq_of_lt (hw ▸ leNat_memBytes_lt _ _)]
  unfold Dev.tillRequest
  simp only [pick, idle, Bool.false_eq_true, if_false, Dev.modTile_eq_tillTurn, read, value, tillOp_eq, Dev.store_of_le _ scratch,
    ← NetS.answer_eq]
  unfold Dev.tillServed
  simp only [decide_eq_true_eq]
  by_cases h : q.limit ≤ word
  · simp only [h, if_true, Nat.not_lt.mpr h, false_and, if_false]
    rfl
  · simp only [h, if_false, Nat.lt_of_not_le h, true_and]
    split <;> rfl

/-- A request on a poison word finds it exhausted and poisoned (R177). -/
theorem Dev.tillRequest_of_poison (poison : d.isPoison q.addr = true) : ∃ (e : Dev) (old : Nat), e.memOf = d.memOf ∧
    d.tillRequest t .none =
      { e.event E.TIL_TILL_POISONED (tileAdd t) with net := d.net.answer q (old, true, false, true), free := d.free + 1 } := by
  obtain ⟨b, read⟩ := Dev.readWord_of_poison (d.tillTurn t q) (Dev.le_addr_of_tillPick pick) align poison
  refine ⟨((d.tillTurn t q).event E.TIL_MEM_SP_POISON_READ b).count F.TIL_TILL_OPS_COUNT 1 (tileAdd t),
    Config.freeWord d.free % 2 ^ 64, rfl, ?_⟩
  unfold Dev.tillRequest
  simp only [pick, idle, Bool.false_eq_true, if_false, Dev.modTile_eq_tillTurn, read, if_true, ← NetS.answer_eq]
  rfl

end request

end till

/-- Settles O22: a request on a clean word is `Dev.tillServed` with its answer, on a poison word the event and an answer whose old value is free. -/
theorem tillAddsSaturatesOrExhausts : Obligations.TillAddsSaturatesOrExhausts := by
  unfold Obligations.TillAddsSaturatesOrExhausts
  refine fun s t q word live pick idle align hw => ⟨fun clean => ?_, fun poison => ?_⟩
  · refine does_live (fun d => d.tillRequest t.toNat .none) rfl live ?_
    rw [Dev.tillRequest_of_clean pick idle align clean hw, Dev.tillServed_frame]
    refine ⟨rfl, fun h => ?_, fun h => ?_, Dev.fget_tillServed_saturated, ?_, ?_, ?_, rfl⟩
    · show (s.dev.tillServed t.toNat q word).mem = _
      rw [Dev.tillServed_of_exhausted h]
      rfl
    · show leNat (memBytes (s.dev.tillServed t.toNat q word).mem q.addr 8) = _
      have stored := memBytes_memPutBytes s.dev.mem q.addr (leBytes 8 (min (word + q.addend) (2 ^ 64 - 1)))
      rw [length_leBytes] at stored
      rw [Dev.mem_tillServed_of_lt h, stored, leNat_leBytes, Nat.mod_eq_of_lt (by omega)]
    · exact memBut_of_memOf (Dev.memBut_tillServed word) rfl rfl
    · exact congrArg Tile.tillBusy Dev.tile_tillTaken
    · exact congrArg Tile.arb Dev.tile_tillTaken
  · refine does_live (fun d => d.tillRequest t.toNat .none) rfl live ?_
    obtain ⟨e, old, mem, answered⟩ := Dev.tillRequest_of_poison pick idle align poison
    rw [answered]
    exact ⟨⟨old, rfl⟩, e.fget_event_next (v := E.TIL_TILL_POISONED) rfl (by decide) rfl _, memSame_of_memOf mem⟩

end Sys2Proof.Machine

namespace Sys2Proof.Machine

/-! ## A walk starts (R163, R164) -/

/-- A field after a set of another with its reset value, which may lie in the same place. -/
theorem Dev.fget_fset_other (d : Dev) {f g : Fld} (rst : g.rst = f.rst) (v a b : Nat) :
    (d.fset f v a).fget g b = if f.key a = g.key b then v % 2 ^ f.w else d.fget g b := by
  unfold Dev.fget
  rw [rst]
  exact fmGet_regPut _ _ _ _ _

/-- The START and GATE heads leave. -/
def Dev.popStart (d : Dev) (t : Nat) (c : Cfg) : Dev :=
  let e := if c.hasStart then d.popIn t c c.startIn else d
  if c.hasGate then e.popIn t c c.gateIn else e

/-- The walk `w` has begun in slot `s`. -/
def Dev.begun (d : Dev) (t s : Nat) (c : Cfg) (w : Walk) : Dev :=
  let e := if w.fault then (d.popStart t c).event E.TIL_SE_WALK_FAULT (tileAdd t) else d.popStart t c
  (e.modSlot t s fun x => { x with walk := some w }).fsetB F.TIL_SE_STATUS_ACTIVE true (tileAdd t + 32 * c.engine)

section start
variable (d : Dev) (t s : Nat) (c : Cfg)

/-- START and GATE are inputs from two queues, so each gives up its own head. -/
theorem Dev.popStart_takes (apart : c.hasStart = true → c.hasGate = true → c.inq c.startIn ≠ c.inq c.gateIn) :
    (c.hasStart = true → takesHead d (d.popStart t c) t c c.startIn) ∧ (c.hasGate = true → takesHead d (d.popStart t c) t c c.gateIn) := by
  unfold Dev.popStart
  dsimp only
  refine ⟨fun hs => takesHead_iff.mpr fun q hq => ?_, fun hg => takesHead_iff.mpr fun q hq => ?_⟩
  · rw [if_pos hs]
    split
    · next hg => rw [Dev.heads_popIn_ne _ t c (hq ▸ (apart hs hg).symm), d.heads_popIn_self t c hq]
    · exact d.heads_popIn_self t c hq
  · rw [if_pos hg, Dev.heads_popIn_self _ t c hq]
    split
    · next hs => rw [d.heads_popIn_ne t c (hq ▸ apart hs hg)]
    · rfl

theorem Dev.besidesUnits_popStart : (d.popStart t c).besidesUnits = d.besidesUnits := by
  unfold Dev.popStart
  dsimp only
  split <;> split <;> simp

variable (w : Walk)

theorem Dev.heads_begun : (d.begun t s c w).heads = (d.popStart t c).heads := by
  unfold Dev.begun
  dsimp only
  split <;> rfl

theorem Dev.besidesUnits_begun : (d.begun t s c w).besidesUnits = d.besidesUnits := by
  rw [← d.besidesUnits_popStart t c]
  unfold Dev.begun
  dsimp only
  split <;> rfl

theorem Dev.walk_begun : ((d.begun t s c w).slot t s).walk = some w := congrArg Slot.walk (Dev.slot_setSlot_self _ t s _)

theorem Dev.fget_begun_active : (d.begun t s c w).fget F.TIL_SE_STATUS_ACTIVE (tileAdd t + 32 * c.engine) = 1 :=
  Dev.fget_fset_self _ _ _ _

/-- A faulted walk shows WALK_FAULT: ACTIVE, should an engine number put it in the same place, is 1 too. -/
theorem Dev.fget_begun_fault (h : w.fault = true) : (d.begun t s c w).fget F.TIL_SE_EVENT_WALK_FAULT (tileAdd t) = 1 := by
  unfold Dev.begun
  rw [if_pos h]
  dsimp only [Dev.fsetB]
  rw [Dev.fget_fset_other _ (show F.TIL_SE_EVENT_WALK_FAULT.rst = F.TIL_SE_STATUS_ACTIVE.rst from rfl)]
  split
  · rfl
  · exact (d.popStart t c).fget_event_next (v := E.TIL_SE_WALK_FAULT) rfl (by decide) rfl _

end start

/-- A walk that may start begins before any row, at iteration 0 of every level, faulted where START or GATE is POISON. -/
theorem Dev.walkStart_eq {d : Dev} {t s : Nat} {x : Slot} {c : Cfg} (hf : d.canFire t s [2, 3] = some (x, c)) (idle : x.walk = none)
    (first : c.hasStart = false → x.walked = false) (start : c.hasStart = true → (d.ready t x c c.startIn).isSome = true)
    (gate : c.hasGate = true → (d.ready t x c c.gateIn).isSome = true) :
    ∃ w : Walk, d.walkStart t s = d.begun t s c w ∧ w.ahead = [] ∧ w.rows = 0 ∧
      w.idx = (if c.levels = 0 ∨ ∃ l < c.levels, c.lcount l = 0 then none else some (List.replicate c.levels 0)) ∧
      ((∃ k, (d.ready t x c c.startIn = some k ∧ c.hasStart = true ∨ d.ready t x c c.gateIn = some k ∧ c.hasGate = true) ∧
        k.kind.toNat = kPoison) → w.fault = true) := by
  have free : ¬(x.walk.isSome || (!c.hasStart && x.walked)) = true := by
    cases hs : c.hasStart <;> simp_all
  have heads : ¬((c.hasStart && (d.ready t x c c.startIn).isNone) || (c.hasGate && (d.ready t x c c.gateIn).isNone)) = true := by
    rw [Bool.or_eq_true, Bool.and_eq_true, Bool.and_eq_true, not_or, Option.isNone_iff_eq_none, Option.isNone_iff_eq_none]
    exact ⟨fun ⟨hs, missing⟩ => by simp [missing] at start; simp [start] at hs,
      fun ⟨hg, missing⟩ => by simp [missing] at gate; simp [gate] at hg⟩
  unfold Dev.walkStart
  simp only [hf]
  rw [if_neg free, if_neg heads]
  refine ⟨⟨_, _, _, _, _, [], 0⟩, rfl, rfl, rfl, ?_, ?_⟩
  · simp [List.any_eq_true]
  · rintro ⟨k, ⟨hk, hi⟩ | ⟨hk, hi⟩, poison⟩ <;> simp [hk, hi, poison]

/-! ## A walk ends (R154, R164, R180) -/

theorem Cfg.engine_lt (c : Cfg) : c.engine < 256 := by
  have short : ((c.extra.drop 3).take 1).length ≤ 1 := List.length_take_le _ _
  exact (leNat_lt _).trans_le (Nat.pow_le_pow_right (n := 256) (by decide) short)

/-- A unit without a shadow does not swap. -/
theorem Dev.autoSwap_of_noShadow {d : Dev} {t s : Nat} {c : Cfg} (active : (d.slot t s).active = some c)
    (shadow : (d.slot t s).shadow = none) : d.autoSwap t s = d := by
  simp [Dev.autoSwap, Dev.unitSwap, active, shadow]

/-- The send items depend on the images in force and the split alone. -/
theorem Dev.sendItem_congr {d e : Dev} (split : e.split = d.split) (img0 : e.img0 = d.img0) (img1 : e.img1 = d.img1) (t s : Nat) :
    e.sendItem t s = d.sendItem t s := by
  unfold Dev.sendItem Dev.schedItems Dev.image
  rw [split, img0, img1]

/-- A walk of the unit in slot `s` is over: its last tiles are counted, and the unit has no walk and has walked. -/
def Dev.walkOver (d : Dev) (t s : Nat) (c : Cfg) (n : Nat × Nat) : Dev :=
  ((d.countTiles t c n).setSlot t s { d.slot t s with walk := none, walked := true }).fsetB F.TIL_SE_STATUS_ACTIVE false
    (tileAdd t + 32 * c.engine)

/-- The free value of a completion token is taken, and the failed stores it tells of are forgotten. -/
def Dev.takeFailed (d : Dev) (t s : Nat) : Dev :=
  { d with free := d.free + 1, fab := { d.fab with failed := d.fab.failed.filter (· != slotKey t s) } }

/-- A completion token leaves a writer; its payload is free. -/
def Dev.completes (d : Dev) (t s : Nat) (c : Cfg) (kind : Nat) : Dev :=
  ((d.takeFailed t s).putOut t s c 0 kind (BitVec.ofNat 512 (Config.freeWord d.free % 2 ^ 512))).markFired t s

@[simp] theorem Dev.putOut_regs (d : Dev) (t s : Nat) (c : Cfg) (o kind : Nat) (payload : Row) :
    (d.putOut t s c o kind payload).regs = d.regs := by
  unfold Dev.putOut Dev.sendTok Dev.reserve
  cases (c.outs[o]?).getD none <;> rfl

/-- Sending a token changes no more of the unit's slot than its port's number. -/
theorem Dev.slot_putOut (d : Dev) (t s : Nat) (c : Cfg) (o kind : Nat) (payload : Row) :
    ∃ n, (d.putOut t s c o kind payload).slot t s = { d.slot t s with seqs := n } := by
  unfold Dev.putOut
  rw [← d.slot_reserve c o t s]
  generalize d.reserve c o = e
  unfold Dev.sendTok
  split
  · exact ⟨(e.slot t s).seqs, rfl⟩
  · exact ⟨_, Dev.slot_setSlot_self _ t s _⟩

theorem Dev.walkOver_def (d : Dev) (t s : Nat) (c : Cfg) (n : Nat × Nat) :
    ((d.countTiles t c n).setSlot t s { d.slot t s with walk := none, walked := true }).fsetB F.TIL_SE_STATUS_ACTIVE false
      (tileAdd t + 32 * c.engine) = d.walkOver t s c n := rfl

section stop
variable (d : Dev) (t s : Nat) (c : Cfg)

section walkOver
variable (n : Nat × Nat)

@[simp] theorem Dev.slot_walkOver : (d.walkOver t s c n).slot t s = { d.slot t s with walk := none, walked := true } :=
  Dev.slot_setSlot_self _ t s _

theorem Dev.fget_walkOver_active : (d.walkOver t s c n).fget F.TIL_SE_STATUS_ACTIVE (tileAdd t + 32 * c.engine) = 0 :=
  Dev.fget_fset_self _ _ _ _

/-- The registers of an engine lie below those of security (Table 9-2). -/
theorem Dev.split_walkOver (ht : t < 512) : (d.walkOver t s c n).split = d.split := by
  have engine := c.engine_lt
  have tile : tileAdd t < 512 * 0x10000 := Nat.mul_lt_mul_of_pos_right ht (by decide)
  have kept : (d.walkOver t s c n).fget F.SEC_STATUS_SPLIT = d.fget F.SEC_STATUS_SPLIT := by
    unfold Dev.walkOver Dev.fsetB Dev.countTiles
    rw [Dev.fget_fset_ne, Dev.fget_congr (Dev.setSlot_regs _ _ _ _), Dev.fget_count_ne, Dev.fget_count_ne]
    all_goals
      simp only [Fld.key, F.SEC_STATUS_SPLIT, F.TIL_SE_STATUS_ACTIVE, F.TIL_SE_TILES_COMPUTED, F.TIL_SE_TILES_SKIPPED]
      omega
  unfold Dev.split Dev.flag
  rw [kept]

/-- A writer that is no send stream closes no transfer. -/
theorem Dev.closeTransfer_walkOver (ht : t < 512) (item : d.sendItem t s = none) :
    (d.walkOver t s c n).closeTransfer t s = d.walkOver t s c n := by
  simp only [Dev.closeTransfer, (Dev.sendItem_congr (d.split_walkOver t s c n ht) rfl rfl t s).trans item]

end walkOver

section completes
variable (kind : Nat)

theorem Dev.slot_completes : ∃ n, (d.completes t s c kind).slot t s =
    { d.slot t s with seqs := n, since := 0, fired := true, idle := 0, stalled := false } := by
  obtain ⟨n, hn⟩ := (d.takeFailed t s).slot_putOut t s c 0 kind (BitVec.ofNat 512 (Config.freeWord d.free % 2 ^ 512))
  refine ⟨n, ?_⟩
  unfold Dev.completes
  rw [Dev.slot_markFired, hn]
  rfl

theorem Dev.completes_puts : ∃ v, putsToken d (d.completes t s c kind) (d.slot t s) c 0 kind v :=
  ⟨_, (d.takeFailed t s).putOut_puts t s c 0 kind _⟩

theorem Dev.regs_completes : (d.completes t s c kind).regs = d.regs := (d.takeFailed t s).putOut_regs t s c 0 kind _

theorem Dev.memSame_completes : memSame d (d.completes t s c kind) :=
  have sent := (d.takeFailed t s).besidesUnits_putOut t s c 0 kind (BitVec.ofNat 512 (Config.freeWord d.free % 2 ^ 512))
  memSame_of_memOf (e := d.completes t s c kind) (congrArg Dev.memOf sent :)

/-- The completion token of a walk that is over. -/
theorem Dev.walkOver_completes (n : Nat × Nat) : let e := (d.walkOver t s c n).completes t s c kind
    (e.slot t s).walk = none ∧ e.fget F.TIL_SE_STATUS_ACTIVE (tileAdd t + 32 * c.engine) = 0 ∧
      (∃ v, putsToken d e (d.slot t s) c 0 kind v) ∧ memSame d e := by
  obtain ⟨q, slot⟩ := (d.walkOver t s c n).slot_completes t s c kind
  obtain ⟨v, puts⟩ := (d.walkOver t s c n).completes_puts t s c kind
  rw [Dev.slot_walkOver] at puts slot
  exact ⟨congrArg Slot.walk slot,
    (Dev.fget_congr (Dev.regs_completes _ _ _ _ _) _ _).trans (d.fget_walkOver_active t s c n),
    ⟨v, puts.congr rfl rfl rfl rfl⟩, (d.walkOver t s c n).memSame_completes t s c kind⟩

end completes

section walkEnd
variable {d t s c} {w : Walk} (active : (d.slot t s).active = some c) (walk : (d.slot t s).walk = some w) (shadow : (d.slot t s).shadow = none)
  (ahead : w.ahead = []) (last : (walkStep d t c (c.iters + 1) w).1.1 = none) (empty : (walkStep d t c (c.iters + 1) w).2.ahead = [])
include active walk shadow ahead last empty

theorem Dev.walkEnd_reader (hc : c.cls = 2) :
    d.walkEnd t s = d.walkOver t s c (walkStep d t c (c.iters + 1) w).1.2 := by
  have swap : (d.walkOver t s c (walkStep d t c (c.iters + 1) w).1.2).autoSwap t s = _ :=
    Dev.autoSwap_of_noShadow (by simpa using active) (by simpa using shadow)
  unfold Dev.walkEnd
  dsimp only
  split
  · next hactive hwalk =>
    cases active.symm.trans hactive
    cases walk.symm.trans hwalk
    simpa [ahead, last, empty, hc, Dev.walkOver_def] using swap
  · next other => exact absurd walk (other _ _ active)

theorem Dev.walkEnd_writer (ht : t < 512) (hc : c.cls = 3) (credit : d.credit c 0 = true)
    (fire : (c.outs[0]?).getD none ≠ none → (d.canFire t s [3]).isSome = true) (answered : d.unanswered t s = false)
    (item : d.sendItem t s = none) (stored : d.fab.failed.contains (slotKey t s) = false) :
    d.walkEnd t s = if (c.outs[0]?).getD none = none then d.walkOver t s c (walkStep d t c (c.iters + 1) w).1.2
      else (d.walkOver t s c (walkStep d t c (c.iters + 1) w).1.2).completes t s c (if w.fault then kPoison else kData) := by
  have close := d.closeTransfer_walkOver t s c (walkStep d t c (c.iters + 1) w).1.2 ht item
  unfold Dev.walkEnd
  dsimp only
  split
  · next hactive hwalk =>
    cases active.symm.trans hactive
    cases walk.symm.trans hwalk
    have runs : ¬((walkStep d t c (c.iters + 1) w).1.1.isSome || !w.ahead.isEmpty ||
        !(walkStep d t c (c.iters + 1) w).2.ahead.isEmpty) = true := by simp [ahead, last, empty]
    have waits : ¬(decide (c.cls = 3) && (((c.outs[0]?).getD none).isSome && (!d.credit c 0 || (d.canFire t s [3]).isNone) ||
        d.unanswered t s)) = true := by
      rcases ho : (c.outs[0]?).getD none with _ | o
      · simp [answered]
      · have ready := fire (by simp [ho])
        simp [answered, credit, Option.isSome_iff_ne_none.mp ready]
    rw [if_neg runs, if_neg waits]
    simp only [Dev.walkOver_def, hc, if_true, close]
    by_cases absent : (c.outs[0]?).getD none = none
    · have swap : (d.walkOver t s c (walkStep d t c (c.iters + 1) w).1.2).autoSwap t s = _ :=
        Dev.autoSwap_of_noShadow (by simpa using active) (by simpa using shadow)
      simpa [absent] using swap
    · obtain ⟨n, done⟩ := Dev.slot_completes (d.walkOver t s c (walkStep d t c (c.iters + 1) w).1.2) t s c
        (if w.fault then kPoison else kData)
      have swap := Dev.autoSwap_of_noShadow (c := c) (congrArg Slot.active done |>.trans (by simpa using active))
        (congrArg Slot.shadow done |>.trans (by simpa using shadow))
      have kept : (d.walkOver t s c (walkStep d t c (c.iters + 1) w).1.2).fab.failed.contains (slotKey t s) = false := stored
      simp only [Option.isSome_iff_ne_none.mpr absent, absent, kept, decide_true, Bool.and_self, Bool.or_false, if_true, if_false]
      exact swap
  · next other => exact absurd walk (other _ _ active)

end walkEnd

end stop

/-- Settles O20: a start is `Dev.begun`; an end is `Dev.walkOver`, with a writer's completion token where it has the output. -/
theorem walksStartAndEnd : Obligations.WalksStartAndEnd := by
  unfold Obligations.WalksStartAndEnd
  refine ⟨fun s t sl x c live hf idle first start gate apart => ?_,
    fun s t sl x c w live hx active walk shadow ahead last empty => ⟨fun hc => ?_, fun hc credit fire answered item stored => ?_⟩⟩
  · refine does_live (fun d => d.walkStart t.toNat sl.toNat) rfl live ?_
    obtain ⟨w, begun, fresh, rows, idx, fault⟩ := Dev.walkStart_eq hf idle first start gate
    obtain ⟨startHead, gateHead⟩ := s.dev.popStart_takes t.toNat c apart
    have heads := s.dev.heads_begun t.toNat sl.toNat c w
    rw [begun]
    exact ⟨fun h => (startHead h).congr heads, fun h => (gateHead h).congr heads,
      ⟨w, Dev.walk_begun _ _ _ _ _, fresh, rows, idx, fun poison => ⟨fault poison, Dev.fget_begun_fault _ _ _ _ _ (fault poison)⟩⟩,
      Dev.fget_begun_active _ _ _ _ _, unitsOnly_of_besidesUnits (Dev.besidesUnits_begun _ _ _ _ _)⟩
  · subst hx
    refine does_live (fun d => d.walkEnd t.toNat sl.toNat) rfl live ?_
    rw [Dev.walkEnd_reader active walk shadow ahead last empty hc, Dev.slot_walkOver]
    exact ⟨rfl, rfl, Dev.fget_walkOver_active _ _ _ _ _, rfl⟩
  · subst hx
    refine does_live (fun d => d.walkEnd t.toNat sl.toNat) rfl live ?_
    rw [Dev.walkEnd_writer active walk shadow ahead last empty t.isLt hc credit fire answered item stored]
    split
    · next absent =>
      rw [Dev.slot_walkOver]
      exact ⟨rfl, Dev.fget_walkOver_active _ _ _ _ _, fun present => absurd absent present, rfl, rfl⟩
    · next present =>
      obtain ⟨ended, active, puts, mem⟩ := s.dev.walkOver_completes t.toNat sl.toNat c
        (if w.fault then kPoison else kData) (walkStep s.dev t.toNat c (c.iters + 1) w).1.2
      exact ⟨ended, active, fun _ => puts, mem⟩

end Sys2Proof.Machine

namespace Sys2Proof.Machine

/-! ## A row from stacks out of reach (R22, R165) -/

/-- A row that has come as poison. -/
def WalkTok.isPoison : WalkTok → Bool
  | .row _ _ (some (_, p)) => p
  | _ => false

namespace LostRow

/-- A reader of one level of one row at 16,384, which lies in stack 4 (Table 7-1). -/
def reader : Cfg :=
  ⟨0, 2, 1, 0, [], [some (0, 1)], [], LostRing.bytesBy 128 [(4, 1), (5, 1), (9, 0x40), (16, 1), (20, 64), (65, 255), (66, 255), (67, 255),
    (68, 255), (69, 255), (70, 255), (71, 255), (72, 255)]⟩

/-- Its walk, the one row in flight. -/
def walk : Walk := ⟨0, false, false, none, (0xFFFFFFFF, 0xFFFFFFFF), [.row 16384 false none], 0⟩

def slot : Slot := { Slot.init with active := some reader, walk := some walk }

/-- A device whose west half is RUNNING and whose east half is ORPHAN, with that reader in tile 0; the row's first word is poison. -/
def dev : Dev := { LostLoad.dev [] with poison := [(2048, ())], slots := [(slotKey 0 0, slot)], insts := [] }

theorem live : dev.live = true := rfl

theorem near : dev.isFar reader = false := by decide

theorem poison : ∃ i < 8, dev.isPoison (16384 + 8 * i) = true := ⟨0, by decide, rfl⟩

/-- The row arrives as a free value that is not poison. -/
theorem returned : ((dev.rowReturn 0 0 0 []).slot 0 0).walk.map (fun w => w.ahead.any WalkTok.isPoison) = some false := by decide +kernel

end LostRow

/-- Refutes O21: with the east half ORPHAN, stack 4 is out of reach, and a read of it gives a free value that is not poison (R22). The
row at 16,384 holds a poison word and returns without poison; the statement has it return as poison wherever it lies. -/
theorem not_rowsAreFetchedSentAndStored : ¬ Obligations.RowsAreFetchedSentAndStored := by
  unfold Obligations.RowsAreFetchedSentAndStored
  rintro ⟨reads, -⟩
  obtain ⟨-, -, poisoned⟩ := reads ⟨[], LostRow.dev⟩ 0 0 LostRow.slot LostRow.reader LostRow.walk LostRow.live rfl rfl rfl LostRow.near
  obtain ⟨⟨v, hwalk⟩, -⟩ := of_does_live (f := fun d => d.rowReturn 0 0 0 []) rfl LostRow.live (poisoned 0 16384 rfl rfl LostRow.poison)
  have arrived := LostRow.returned
  rw [show ((LostRow.dev.rowReturn 0 0 0 []).slot 0 0).walk = _ from hwalk] at arrived
  exact Bool.noConfusion (Option.some.inj arrived)

end Sys2Proof.Machine

namespace Sys2Proof.Machine

/-! ## A store to a stack out of reach (R22, R256) -/

namespace LostStore

/-- A store of 1 to 16,384, which lies in stack 4, by the operator in slot 0 of tile 0. -/
def request : MemReq := ⟨0, 0, true, 16384, 1, false, 0⟩

/-- A device whose west half is RUNNING and whose east half is ORPHAN, with that store on its way and memory empty. -/
def dev : Dev := { LostLoad.dev [] with net := { NetS.init with mem := [request] } }

theorem live : dev.live = true := rfl

theorem oldest : dev.net.mem.find? (fun r => r.tile == 0 && r.op == 0) = some request := rfl

theorem alone : dev.requestAhead 0 request.addr request.seq = false := rfl

/-- The store is lost: memory is as empty after it was served as before. -/
theorem mem_after : (dev.ldstRequest 0 0 .none).mem = [] := by decide +kernel

end LostStore

/-- Refutes O32: with the east half ORPHAN, stack 4 is out of reach (R22), and `Dev.store` loses a store that LDST_REQUEST serves there;
the statement has memory hold the stored word wherever the request's address lies. -/
theorem not_controlCoreLoadsStoresAndTills : ¬ Obligations.ControlCoreLoadsStoresAndTills := by
  unfold Obligations.ControlCoreLoadsStoresAndTills
  intro h
  obtain ⟨-, served, -⟩ := h ⟨[], LostStore.dev⟩ 0 0 Slot.init LostLoad.cfg 0 LostStore.live
  obtain ⟨write, -⟩ := served LostStore.request LostStore.oldest rfl LostStore.alone
  obtain ⟨stored, -⟩ := of_does_live (f := fun d => d.ldstRequest 0 0 .none) rfl LostStore.live (write rfl)
  have bytes := (stored rfl).1
  rw [show (LostStore.dev.ldstRequest 0 0 .none).mem = [] from LostStore.mem_after] at bytes
  exact absurd bytes (by decide)

end Sys2Proof.Machine

namespace Sys2Proof.Machine

/-! ## The result of an instruction of the control core (R206, R209) -/

theorem CcCtx.get_lt (x : CcCtx) (r : Nat) : (x.get r).1 < 2 ^ 64 := by
  unfold CcCtx.get
  split
  · decide
  · exact Nat.mod_lt _ (Nat.two_pow_pos 64)

/-- A register takes a value modulo 2^64. -/
theorem CcCtx.set_mod (x : CcCtx) (rd v : Nat) (p : Bool) : x.set rd (v % 2 ^ 64) p = x.set rd v p := by
  simp only [CcCtx.set, Nat.mod_mod]

theorem CcCtx.set_wrote_mod (x : CcCtx) (rd v pc : Nat) (p : Bool) :
    ccWrote x (CcCtx.set { x with pc := pc } rd v p) rd (v % 2 ^ 64) p pc :=
  CcCtx.set_mod _ rd v p ▸ x.set_wrote rd (v % 2 ^ 64) pc p (Nat.mod_lt _ (Nat.two_pow_pos 64))

/-- An operator that is next to issue holds its configuration and waits for nothing (R206). -/
theorem Dev.of_ccReady {d : Dev} {t s w : Nat} {x : Slot} {c : Cfg} (h : d.ccReady t s = some (x, c, w)) :
    x.active = some c ∧ x.cc.wait = .none := by
  unfold Dev.ccReady at h
  dsimp only at h
  split at h
  · cases h
  · next active =>
    obtain ⟨conditions, operator⟩ := Option.ite_none_right_eq_some.mp h
    simp only [Bool.and_eq_true, beq_iff_eq] at conditions
    obtain ⟨⟨⟨⟨⟨-, wait⟩, -⟩, -⟩, -⟩, -⟩ := conditions
    cases operator
    exact ⟨active, wait⟩

theorem Dev.of_ccNext {d : Dev} {t s op w : Nat} {x : Slot} {c : Cfg} (h : d.ccNext t s op = some (x, c, w)) :
    x.active = some c ∧ x.cc.wait = .none := by
  unfold Dev.ccNext at h
  split at h
  · next ready =>
    obtain ⟨-, operator⟩ := Option.ite_none_right_eq_some.mp h
    cases operator
    exact Dev.of_ccReady ready
  · cases h

/-- A free result is below 2^64, and taking it moves the counter of free values alone. -/
theorem Dev.ccResult_spec (d : Dev) (v : Option Nat) : (d.ccResult v).1 < 2 ^ 64 ∧ (∀ u, v = some u → (d.ccResult v).1 = u % 2 ^ 64) ∧
    (d.ccResult v).2 = { d with free := (d.ccResult v).2.free } := by
  cases v with
  | none => exact ⟨Nat.mod_lt _ (Nat.two_pow_pos 64), nofun, rfl⟩
  | some u => exact ⟨Nat.mod_lt _ (Nat.two_pow_pos 64), fun _ h => Option.some.inj h ▸ rfl, rfl⟩

/-- What issuing changes, where free values have been taken before. -/
theorem Dev.ccIssued_issues_fresh {d e : Dev} {t s : Nat} {x : CcCtx} (h : e = { d with free := e.free }) (hx : (d.slot t s).cc = x)
    (f : CcCtx → CcCtx) : ccIssues d (e.ccIssued t s f) t s (f { x with pc := x.pc + 4 }) ∧ ccQuiet d (e.ccIssued t s f) t := by
  rw [h]
  exact ({ d with free := e.free } : Dev).ccIssued_issues t s f x hx

section write
variable {d : Dev} {t s op : Nat} {x : Slot} {c : Cfg} {w : Nat} (h : d.ccNext t s op = some (x, c, w))
include h

theorem Dev.cc_of_ccNext : (d.slot t s).cc = x.cc := congrArg Slot.cc (Dev.slot_of_ccNext h)

/-- An instruction that writes one register and goes on. -/
theorem Dev.ccIssued_writes (rd v : Nat) (p : Bool) : ∃ y, ccIssues d (d.ccIssued t s fun c => c.set rd v p) t s y ∧
    ccWrote x.cc y rd (v % 2 ^ 64) p (x.cc.pc + 4) ∧ ccQuiet d (d.ccIssued t s fun c => c.set rd v p) t := by
  obtain ⟨issues, quiet⟩ := d.ccIssued_issues t s (fun c => c.set rd v p) x.cc (Dev.cc_of_ccNext h)
  exact ⟨_, issues, CcCtx.set_wrote_mod _ _ _ _ _, quiet⟩

/-- An instruction of the integer group but MUL writes RD, with a free value where Table 8-9 states none. -/
theorem Dev.ccInt_writes (other : op ≠ 0x0A) : ∃ y v, ccIssues d (d.ccInt t s op) t s y ∧
    (∀ u, ccAlu op (x.cc.get (ccRs1 w)).1 (x.cc.get (ccRs2 w)).1 = some u → v = u % 2 ^ 64) ∧ v < 2 ^ 64 ∧
    ccWrote x.cc y (ccRd w) v ((x.cc.get (ccRs1 w)).2 || (x.cc.get (ccRs2 w)).2) (x.cc.pc + 4) ∧ ccQuiet d (d.ccInt t s op) t := by
  obtain ⟨below, stated, free⟩ := d.ccResult_spec (ccAlu op (x.cc.get (ccRs1 w)).1 (x.cc.get (ccRs2 w)).1)
  unfold Dev.ccInt
  simp only [h, if_neg other]
  obtain ⟨issues, quiet⟩ := Dev.ccIssued_issues_fresh free (Dev.cc_of_ccNext h) fun y => { y.set (ccRd w)
    (d.ccResult (ccAlu op (x.cc.get (ccRs1 w)).1 (x.cc.get (ccRs2 w)).1)).1 ((x.cc.get (ccRs1 w)).2 || (x.cc.get (ccRs2 w)).2) with
    wait := .none }
  obtain ⟨target, others, rest⟩ := CcCtx.set_wrote x.cc (ccRd w) _ (x.cc.pc + 4)
    ((x.cc.get (ccRs1 w)).2 || (x.cc.get (ccRs2 w)).2) below
  refine ⟨_, _, issues, stated, below, ⟨target, others, ?_⟩, quiet⟩
  rw [(Dev.of_ccNext h).2] at rest ⊢
  exact congrArg (fun y : CcCtx => { y with wait := .none }) rest

/-- An instruction of the immediate group writes RD, with a free value where Table 8-9 states none. -/
theorem Dev.ccImmOp_writes (alu : Nat) : ∃ y v, ccIssues d (d.ccImmOp t s op alu) t s y ∧
    (∀ u, ccAlu alu (x.cc.get (ccRs1 w)).1 (ccImm w % 2 ^ 64).toNat = some u → v = u % 2 ^ 64) ∧ v < 2 ^ 64 ∧
    ccWrote x.cc y (ccRd w) v (x.cc.get (ccRs1 w)).2 (x.cc.pc + 4) ∧ ccQuiet d (d.ccImmOp t s op alu) t := by
  obtain ⟨below, stated, free⟩ := d.ccResult_spec (ccAlu alu (x.cc.get (ccRs1 w)).1 (ccImm w % 2 ^ 64).toNat)
  unfold Dev.ccImmOp
  simp only [h]
  obtain ⟨issues, quiet⟩ := Dev.ccIssued_issues_fresh free (Dev.cc_of_ccNext h) fun y => y.set (ccRd w)
    (d.ccResult (ccAlu alu (x.cc.get (ccRs1 w)).1 (ccImm w % 2 ^ 64).toNat)).1 (x.cc.get (ccRs1 w)).2
  exact ⟨_, _, issues, stated, below, CcCtx.set_wrote _ _ _ _ _ below, quiet⟩

end write

/-- Settles O28: an instruction with a stated result by `Dev.ccInt_result` and `Dev.ccImmOp_result`, a shift, whose result a count of 64
or more leaves open, by `Dev.ccInt_writes` and `Dev.ccImmOp_writes`. -/
theorem controlCoreIntegerGroups : Obligations.ControlCoreIntegerGroups := by
  unfold Obligations.ControlCoreIntegerGroups
  rintro s t sl x c w live a b m rfl rfl rfl
  refine ⟨fun p hp next => ?_, fun p hp next => ?_, fun p hp next => ?_⟩
  · have stated : exec p.1 s = onLive (fun d => d.ccInt t.toNat sl.toNat p.2.1) s ∧
        ccAlu p.2.1 (x.cc.get (ccRs1 w)).1 (x.cc.get (ccRs2 w)).1 = some p.2.2 := by
      fin_cases hp <;> exact ⟨rfl, rfl⟩
    obtain ⟨command, result⟩ := stated
    rw [(Dev.of_ccNext next).2]
    exact does_live _ command live (Dev.ccInt_result next result)
  · have stated : ∃ alu, exec p.1 s = onLive (fun d => d.ccImmOp t.toNat sl.toNat p.2.1 alu) s ∧
        ccAlu alu (x.cc.get (ccRs1 w)).1 (ccImm w % 2 ^ 64).toNat = some p.2.2 := by
      fin_cases hp <;> exact ⟨_, rfl, rfl⟩
    obtain ⟨alu, command, result⟩ := stated
    exact does_live _ command live (Dev.ccImmOp_result next result)
  · have shift : (p.2.1 ≠ 0x0A ∧ exec p.1 s = onLive (fun d => d.ccInt t.toNat sl.toNat p.2.1) s ∧
          ccAlu p.2.1 (x.cc.get (ccRs1 w)).1 (x.cc.get (ccRs2 w)).1 = (if p.2.2.1 < 64 then some p.2.2.2.1 else none) ∧
          p.2.2.2.2 = ((x.cc.get (ccRs1 w)).2 || (x.cc.get (ccRs2 w)).2)) ∨
        ∃ alu, exec p.1 s = onLive (fun d => d.ccImmOp t.toNat sl.toNat p.2.1 alu) s ∧
          ccAlu alu (x.cc.get (ccRs1 w)).1 (ccImm w % 2 ^ 64).toNat = (if p.2.2.1 < 64 then some p.2.2.2.1 else none) ∧
          p.2.2.2.2 = (x.cc.get (ccRs1 w)).2 := by
      fin_cases hp
      iterate 3 exact .inl ⟨nofun, rfl, rfl, rfl⟩
      iterate 3 exact .inr ⟨_, rfl, rfl, rfl⟩
    rcases shift with ⟨other, command, result, poison⟩ | ⟨alu, command, result, poison⟩
    · obtain ⟨y, v, issues, stated, below, wrote, quiet⟩ := Dev.ccInt_writes next other
      exact does_live _ command live
        ⟨y, v, issues, fun count => stated _ (by rw [result, if_pos count]), below, poison ▸ wrote, quiet⟩
    · obtain ⟨y, v, issues, stated, below, wrote, quiet⟩ := Dev.ccImmOp_writes next alu
      exact does_live _ command live
        ⟨y, v, issues, fun count => stated _ (by rw [result, if_pos count]), below, poison ▸ wrote, quiet⟩

end Sys2Proof.Machine

namespace Sys2Proof.Machine

/-! ## Flow, constants and waits of the control core (R209, R213, R527) -/

section flow
variable {d : Dev} {t s op : Nat} {x : Slot} {c : Cfg} {w : Nat} (h : d.ccNext t s op = some (x, c, w))
include h

/-- What an instruction changes that leaves its operator with the context `y`. -/
theorem Dev.ccIssued_context {f : CcCtx → CcCtx} {y : CcCtx} (hf : f { x.cc with pc := x.cc.pc + 4 } = y) :
    ccIssues d (d.ccIssued t s f) t s y ∧ ccQuiet d (d.ccIssued t s f) t :=
  hf ▸ d.ccIssued_issues t s f x.cc (Dev.cc_of_ccNext h)

/-- A branch without a poisoned source goes where its condition says. -/
theorem Dev.ccBranch_issues (ha : (x.cc.get (bits w 8 5)).2 = false) (hb : (x.cc.get (bits w 13 5)).2 = false) {taken : Bool}
    (hc : ccCond op (x.cc.get (bits w 8 5)).1 (x.cc.get (bits w 13 5)).1 = taken) :
    ccIssues d (d.ccBranch t s op) t s { x.cc with pc := if taken then ((x.cc.pc : Int) + 4 * ccImm w).toNat else x.cc.pc + 4 } ∧
      ccQuiet d (d.ccBranch t s op) t := by
  unfold Dev.ccBranch
  simp only [h, ha, hb, hc, Bool.or_self, Bool.false_eq_true, if_false]
  exact Dev.ccIssued_context h (by cases taken <;> rfl)

/-- BEX and BNEX go where EX says. -/
theorem Dev.ccBex_issues (want : Bool) {taken : Bool} (hc : (x.cc.ex == want) = taken) :
    ccIssues d (d.ccBex t s op want) t s { x.cc with pc := if taken then ((x.cc.pc : Int) + 4 * ccImm w).toNat else x.cc.pc + 4 } ∧
      ccQuiet d (d.ccBex t s op want) t := by
  unfold Dev.ccBex
  simp only [h, hc]
  exact Dev.ccIssued_context h (by cases taken <;> rfl)

/-- A jump writes the address of the instruction behind it to RD. -/
theorem Dev.ccIssued_links (pc : Nat) : ∃ y,
    ccIssues d (d.ccIssued t s fun y => { y.set (ccRd w) (x.cc.pc + 4) false with pc := pc }) t s y ∧
    ccWrote x.cc y (ccRd w) ((x.cc.pc + 4) % 2 ^ 64) false pc ∧
    ccQuiet d (d.ccIssued t s fun y => { y.set (ccRd w) (x.cc.pc + 4) false with pc := pc }) t := by
  obtain ⟨issues, quiet⟩ := Dev.ccIssued_context h rfl (f := fun y => { y.set (ccRd w) (x.cc.pc + 4) false with pc := pc })
  obtain ⟨target, others, rest⟩ := x.cc.set_wrote_mod (ccRd w) (x.cc.pc + 4) (x.cc.pc + 4) false
  exact ⟨_, issues, ⟨target, others, congrArg (fun y : CcCtx => { y with pc := pc }) rest⟩, quiet⟩

end flow

/-- WAITT_RELEASE ends a wait for a tally count that has come. -/
theorem Dev.waittRelease_cc {d : Dev} {t s v : Nat} (h : (d.slot t s).cc.wait = .tally v) :
    ((d.waittRelease t s).slot t s).cc = { (d.slot t s).cc with wait := if v ≤ d.now then .none else .tally v } := by
  unfold Dev.waittRelease
  rw [Dev.slot_modCc]
  simp only [h]
  split
  · rfl
  · rw [← h]

/-- Settles O29, instruction by instruction: each issues with the context that Table 8-9 gives. -/
theorem controlCoreFlowConstantsAndWaits : Obligations.ControlCoreFlowConstantsAndWaits := by
  unfold Obligations.ControlCoreFlowConstantsAndWaits
  intro s t sl x c w live
  refine ⟨?branch, fun next => ?jal, fun v next source target => ?jalr, fun p hp next use => ?constant, fun v next source => ?waitt,
    fun v wait => ?release⟩
  case branch =>
    rintro a b rfl rfl ha hb p hp next
    have condition : (exec p.1 s = onLive (fun d => d.ccBranch t.toNat sl.toNat p.2.1) s ∧
          ccCond p.2.1 (x.cc.get (bits w 8 5)).1 (x.cc.get (bits w 13 5)).1 = p.2.2) ∨
        ∃ want, exec p.1 s = onLive (fun d => d.ccBex t.toNat sl.toNat p.2.1 want) s ∧ (x.cc.ex == want) = p.2.2 := by
      fin_cases hp
      · exact .inl ⟨rfl, beq_eq_decide _ _⟩
      · exact .inl ⟨rfl, (congrArg not (beq_eq_decide _ _)).trans decide_not.symm⟩
      iterate 4 exact .inl ⟨rfl, rfl⟩
      · exact .inr ⟨_, rfl, beq_true _⟩
      · exact .inr ⟨_, rfl, beq_false _⟩
    rcases condition with ⟨command, taken⟩ | ⟨want, command, taken⟩
    · exact does_live _ command live (Dev.ccBranch_issues next ha hb taken)
    · exact does_live _ command live (Dev.ccBex_issues next want taken)
  case jal =>
    refine does_live (fun d => d.ccJal t.toNat sl.toNat) rfl live ?_
    simp only [Dev.ccJal, next]
    exact Dev.ccIssued_links next _
  case jalr =>
    refine does_live (fun d => d.ccJalr t.toNat sl.toNat) rfl live ?_
    simp only [Dev.ccJalr, next, source, target, Bool.false_eq_true, if_false, if_true]
    exact Dev.ccIssued_links next _
  case constant =>
    have writes : ∃ f : Dev → Dev, exec p.1 s = onLive f s ∧
        f s.dev = s.dev.ccIssued t.toNat sl.toNat fun c => c.set (ccRd w) p.2.2.2 false := by
      fin_cases hp
      · exact ⟨fun d => d.ccLdc t.toNat sl.toNat, rfl, by simp only [Dev.ccLdc, next]⟩
      iterate 3 exact ⟨fun d => d.ccCsrr t.toNat sl.toNat, rfl, by simp only [Dev.ccCsrr, next, eq_of_beq use]⟩
    obtain ⟨f, command, result⟩ := writes
    refine does_live f command live ?_
    rw [result]
    exact Dev.ccIssued_writes next _ _ _
  case waitt =>
    refine does_live (fun d => d.ccWaitt t.toNat sl.toNat) rfl live ?_
    simp only [Dev.ccWaitt, next, source, Bool.false_eq_true, if_false]
    split
    · exact Dev.ccIssued_context next rfl
    · exact Dev.ccIssued_context next rfl
  case release =>
    exact does_live (fun d => d.waittRelease t.toNat sl.toNat) rfl live ⟨Dev.waittRelease_cc wait, rfl⟩

end Sys2Proof.Machine

namespace Sys2Proof.Machine

/-! ## Faults of the control core (R213) -/

/-- The events of TIL_CC_EVENT. -/
def ccEvents : List Ev := [E.TIL_CC_ALIGN, E.TIL_CC_BOUNDS, E.TIL_CC_POISON_USE, E.TIL_CC_BAD_KIND, E.TIL_CC_STAGE]

/-- They are one-bit fields of TIL_CC_EVENT, counted in TIL_CC_EVCNT. -/
theorem ccEvents_fields : ∀ v ∈ ccEvents, v.bit.w = 1 ∧ v.bit.off = 0x1003208 ∧ v.bit.lo < 64 ∧ v.cnt.off = 0x1003210 := by decide

/-- A fault with an event of TIL_CC_EVENT stops the operator. -/
theorem Dev.ccFault_stops_of_mem (d : Dev) (t s : Nat) {v : Ev} (hv : v ∈ ccEvents) : ccStops d (d.ccFault t s v) t s v := by
  obtain ⟨width, bit, low, count⟩ := ccEvents_fields v hv
  refine d.ccFault_stops t s v width ?_ ?_
  · unfold Fld.key
    omega
  · simp only [evKeys, E.MBX_SB_DROPPED, F.MBX_EVENT_SB_DROPPED, F.MBX_EVCNT1_SB_DROPPED_CNT, Fld.key, tileAdd, List.mem_cons,
      List.not_mem_nil, or_false]
    omega

/-- A command whose function is a fault of the operator stops it. -/
theorem does_ccFault {k : Instr} {s : State} {t sl : Nat} {v : Ev} (f : Dev → Dev) (command : exec k s = onLive f s)
    (live : s.dev.live = true) (hv : v ∈ ccEvents) (hf : f s.dev = s.dev.ccFault t sl v) :
    Does k s fun e => ccStops s.dev e t sl v :=
  does_live f command live (hf ▸ s.dev.ccFault_stops_of_mem t sl hv)

/-- What a fault changes, where a register has changed before. -/
theorem ccStops_of_regs {d e : Dev} {t s : Nat} {v : Ev} {r : FMap Nat} (h : ccStops { d with regs := r } e t s v) : ccStops d e t s v := h

section access
variable {d : Dev} {t s op : Nat} {x : Slot} {c : Cfg} {w v : Nat} (h : d.ccNext t s op = some (x, c, w))
  (source : x.cc.get (ccRs1 w) = (v, false)) (k : Slot → Nat → Nat → CcPlace → Dev)
include h source

/-- A misaligned address of a load or a store sets ALIGN. -/
theorem Dev.ccAccess_misaligned (misaligned : (((v : Int) + ccImm w) % 2 ^ 64).toNat % 8 ≠ 0) :
    ccStops d (d.ccAccess t s op k) t s E.TIL_CC_ALIGN := by
  unfold Dev.ccAccess
  simp only [h, source, Bool.false_eq_true, if_false, if_pos misaligned]
  split
  · exact ccStops_of_regs (d.accessError.ccFault_stops_of_mem t s (by decide))
  · exact d.ccFault_stops_of_mem t s (by decide)

/-- An aligned address of a load or a store that no access goes to sets BOUNDS. -/
theorem Dev.ccAccess_outside (aligned : (((v : Int) + ccImm w) % 2 ^ 64).toNat % 8 = 0)
    (outside : d.ccPlace t (((v : Int) + ccImm w) % 2 ^ 64).toNat = none) : d.ccAccess t s op k = d.ccFault t s E.TIL_CC_BOUNDS := by
  simp only [Dev.ccAccess, h, source, aligned, outside, Bool.false_eq_true, if_false, ne_eq, not_true_eq_false]

end access

/-- No access of a core goes to a hole, or to registers of another block. -/
theorem Dev.ccPlace_none (d : Dev) {t a : Nat}
    (h : place a = .hole ∨ ∃ o, place a = .reg o ∧ ¬(0x1000000 + tileAdd t ≤ o ∧ o < 0x1010000 + tileAdd t)) : d.ccPlace t a = none := by
  unfold Dev.ccPlace
  rcases h with hole | ⟨o, reg, outside⟩
  · simp only [hole]
  · simp [reg, outside]

/-- A poisoned address faults before its alignment is judged. -/
theorem Dev.ccAccess_poisoned {d : Dev} {t s op : Nat} {x : Slot} {c : Cfg} {w : Nat} (h : d.ccNext t s op = some (x, c, w))
    (poisoned : (x.cc.get (ccRs1 w)).2 = true) (k : Slot → Nat → Nat → CcPlace → Dev) :
    d.ccAccess t s op k = d.ccFault t s E.TIL_CC_POISON_USE := by
  simp only [Dev.ccAccess, h, poisoned, if_true]

/-- Settles O30: each case is a fault of the operator with an event of TIL_CC_EVENT. -/
theorem controlCoreFaultsStopTheOperator : Obligations.ControlCoreFaultsStopTheOperator := by
  unfold Obligations.ControlCoreFaultsStopTheOperator
  intro s t sl x c w live
  refine ⟨fun p hp next poisoned => ?branch, fun p hp next poisoned => ?source, fun p hp next poisoned => ?operand,
    fun v a p hp next source ha => ?access, fun v next source target => ?jump, fun next kind => ?push, fun v next source number => ?stage⟩
  case branch =>
    have branch : exec p.1 s = onLive (fun d => d.ccBranch t.toNat sl.toNat p.2) s := by
      fin_cases hp <;> rfl
    refine does_ccFault _ branch live (by decide) ?_
    simp only [Dev.ccBranch, next, Bool.or_eq_true, if_pos poisoned]
  case source =>
    fin_cases hp
    · exact does_ccFault (fun d => d.ccJalr t.toNat sl.toNat) rfl live (by decide) (by simp only [Dev.ccJalr, next, poisoned, if_true])
    · exact does_ccFault (fun d => d.ccLd t.toNat sl.toNat .none) rfl live (by decide) (Dev.ccAccess_poisoned next poisoned _)
    · exact does_ccFault (fun d => d.ccSt t.toNat sl.toNat) rfl live (by decide) (Dev.ccAccess_poisoned next poisoned _)
    · exact does_ccFault (fun d => d.ccTill t.toNat sl.toNat) rfl live (by decide)
        (by simp only [Dev.ccTill, next, poisoned, Bool.true_or, if_true])
    · exact does_ccFault (fun d => d.ccExtw t.toNat sl.toNat) rfl live (by decide)
        (by simp only [Dev.ccExtw, next, poisoned, Bool.true_or, if_true])
    · exact does_ccFault (fun d => d.ccVsete t.toNat sl.toNat) rfl live (by decide) (by simp only [Dev.ccVsete, next, poisoned, if_true])
    · exact does_ccFault (fun d => d.ccStage t.toNat sl.toNat) rfl live (by decide) (by simp only [Dev.ccStage, next, poisoned, if_true])
    · exact does_ccFault (fun d => d.ccWaitt t.toNat sl.toNat) rfl live (by decide) (by simp only [Dev.ccWaitt, next, poisoned, if_true])
  case operand =>
    have any : ((x.cc.get (ccRs1 w)).2 || (x.cc.get (ccRs2 w)).2 || (x.cc.get (ccRs3 w)).2) = true := by
      rw [Bool.or_assoc, Bool.or_eq_true, Bool.or_eq_true]
      exact .inr poisoned
    fin_cases hp
    · exact does_ccFault (fun d => d.ccTill t.toNat sl.toNat) rfl live (by decide) (by simp only [Dev.ccTill, next, any, if_true])
    · exact does_ccFault (fun d => d.ccExtw t.toNat sl.toNat) rfl live (by decide) (by simp only [Dev.ccExtw, next, any, if_true])
  case access =>
    subst ha
    have access : ∃ f k, exec p.1 s = onLive f s ∧ f s.dev = s.dev.ccAccess t.toNat sl.toNat p.2 k := by
      fin_cases hp
      · exact ⟨fun d => d.ccLd t.toNat sl.toNat .none, _, rfl, rfl⟩
      · exact ⟨fun d => d.ccSt t.toNat sl.toNat, _, rfl, rfl⟩
    obtain ⟨f, k, command, result⟩ := access
    refine ⟨fun misaligned => ?_, fun aligned outside => ?_⟩
    · exact does_live f command live (result ▸ Dev.ccAccess_misaligned next source k misaligned)
    · exact does_ccFault f command live (by decide)
        (result.trans (Dev.ccAccess_outside next source k aligned (s.dev.ccPlace_none outside)))
  case jump =>
    refine does_ccFault (fun d => d.ccJalr t.toNat sl.toNat) rfl live (by decide) ?_
    simp only [Dev.ccJalr, next, source, target, Bool.false_eq_true, if_false]
  case push =>
    have bad : badPush (x.cc.get (ccRs1 w)).1 = true := by simpa [badPush, kMark] using kind
    refine does_ccFault (fun d => d.ccQpush t.toNat sl.toNat) rfl live (by decide) ?_
    simp only [Dev.ccQpush, next, bad, if_true]
  case stage =>
    refine does_ccFault (fun d => d.ccStage t.toNat sl.toNat) rfl live (by decide) ?_
    simp only [Dev.ccStage, next, source, number, Bool.false_eq_true, if_false]

end Sys2Proof.Machine

namespace Sys2Proof.Machine

/-! ## Bits replaced in a number -/

/-- The number with its bits `[lo + w - 1 : lo]` replaced by `v`. -/
def putBits (n lo w v : Nat) : Nat := n - bits n lo w * 2 ^ lo + v * 2 ^ lo

theorem putBits_eq (n lo w v : Nat) : putBits n lo w v = 2 ^ (lo + w) * (n / 2 ^ (lo + w)) + (2 ^ lo * v + n % 2 ^ lo) := by
  have low := Nat.div_add_mod n (2 ^ lo)
  have high := Nat.div_add_mod (n / 2 ^ lo) (2 ^ w)
  have parts : n = 2 ^ (lo + w) * (n / 2 ^ (lo + w)) + 2 ^ lo * bits n lo w + n % 2 ^ lo := by
    rw [Nat.pow_add, ← Nat.div_div_eq_div_mul, Nat.mul_assoc, ← Nat.mul_add, bits, high, low]
  unfold putBits
  rw [Nat.mul_comm _ (2 ^ lo), Nat.mul_comm v]
  omega

section putBits
variable {n lo w v : Nat}

theorem testBit_putBits (hv : v < 2 ^ w) (k : Nat) :
    (putBits n lo w v).testBit k = if lo ≤ k ∧ k < lo + w then v.testBit (k - lo) else n.testBit k := by
  have below : n % 2 ^ lo < 2 ^ lo := Nat.mod_lt _ (Nat.two_pow_pos lo)
  have whole : 2 ^ lo * v + n % 2 ^ lo < 2 ^ (lo + w) := by
    rw [Nat.pow_add]
    have := Nat.mul_le_mul_left (2 ^ lo) (Nat.succ_le_of_lt hv)
    rw [Nat.succ_eq_add_one, Nat.mul_add] at this
    omega
  rw [putBits_eq, Nat.testBit_two_pow_mul_add _ whole, Nat.testBit_two_pow_mul_add _ below, Nat.testBit_mod_two_pow,
    Nat.testBit_div_two_pow]
  by_cases inside : lo ≤ k ∧ k < lo + w
  · rw [if_pos inside, if_pos inside.2, if_neg (Nat.not_lt.mpr inside.1)]
  · rw [if_neg inside]
    by_cases low : k < lo
    · simp [low, Nat.lt_add_right w low]
    · rw [if_neg (by omega), Nat.sub_add_cancel (by omega)]

theorem testBit_bits (n lo w k : Nat) : (bits n lo w).testBit k = (decide (k < w) && n.testBit (lo + k)) := by
  rw [bits, Nat.testBit_mod_two_pow, Nat.testBit_div_two_pow, Nat.add_comm]

theorem bits_putBits_self (hv : v < 2 ^ w) : bits (putBits n lo w v) lo w = v := by
  refine Nat.eq_of_testBit_eq fun k => ?_
  rw [testBit_bits, testBit_putBits hv]
  by_cases h : k < w
  · simp [h]
  · have high : v.testBit k = false := Nat.testBit_lt_two_pow (hv.trans_le (Nat.pow_le_pow_right (by decide) (Nat.le_of_not_lt h)))
    simp [h, high]

theorem bits_putBits_of_disjoint (hv : v < 2 ^ w) {lo' w' : Nat} (h : lo' + w' ≤ lo ∨ lo + w ≤ lo') :
    bits (putBits n lo w v) lo' w' = bits n lo' w' := by
  refine Nat.eq_of_testBit_eq fun k => ?_
  rw [testBit_bits, testBit_bits, testBit_putBits hv]
  by_cases inside : k < w'
  · rw [if_neg (by omega)]
  · simp [inside]

theorem putBits_lt (hv : v < 2 ^ w) {m : Nat} (hn : n < 2 ^ m) (h : lo + w ≤ m) : putBits n lo w v < 2 ^ m := by
  refine Nat.lt_pow_two_of_testBit _ fun k hk => ?_
  rw [testBit_putBits hv, if_neg (by omega)]
  exact Nat.testBit_lt_two_pow (hn.trans_le (Nat.pow_le_pow_right (by decide) hk))

end putBits

theorem bit_eq_bits (n k : Nat) : bit n k = (bits n k 1 == 1) := rfl

theorem setBit_eq_putBits (m k : Nat) (b : Bool) : setBit m k b = putBits m k 1 b.toNat := by
  have fits : bits m k 1 * 2 ^ k ≤ m := (Nat.mul_le_mul_right _ (Nat.mod_le _ _)).trans (Nat.div_mul_le_self _ _)
  have two := bits_lt m k 1
  unfold setBit putBits
  rw [bit_eq_bits]
  rcases (by omega : bits m k 1 = 0 ∨ bits m k 1 = 1) with zero | one
  · cases b <;> simp [zero]
  · rw [one, Nat.one_mul] at fits
    cases b <;> simp [one, fits]

/-- A bit of a mask after one bit is set or cleared. -/
theorem bit_setBit (m k j : Nat) (b : Bool) : bit (setBit m k b) j = if j = k then b else bit m j := by
  have small : b.toNat < 2 ^ 1 := b.toNat_lt
  rw [setBit_eq_putBits, bit_eq_bits]
  split
  · next h =>
    rw [h, bits_putBits_self small]
    cases b <;> rfl
  · next h => rw [bits_putBits_of_disjoint small (by omega), bit_eq_bits]

end Sys2Proof.Machine

namespace Sys2Proof.Machine

/-! ## The token buffer as words (R210) -/

/-- A 64-bit word of a bit vector replaced. -/
theorem bits_replaceWord {n : Nat} (r : BitVec n) {i j v : Nat} (room : 64 * i + 64 ≤ n) (hv : v < 2 ^ 64) :
    bits (BitVec.ofNat n (r.toNat - bits r.toNat (64 * i) 64 * 2 ^ (64 * i) + v * 2 ^ (64 * i))).toNat (64 * j) 64 =
      if j = i then v else bits r.toNat (64 * j) 64 := by
  have fits := putBits_lt hv r.isLt room
  rw [BitVec.toNat_ofNat, ← putBits, Nat.mod_eq_of_lt fits]
  split
  · next h => rw [h, bits_putBits_self hv]
  · exact bits_putBits_of_disjoint hv (by omega)

/-! ## Slots and tiles that an instruction changes besides its own operator -/

theorem Dev.slot_modSlot (d : Dev) (t s : Nat) (f : Slot → Slot) (t' s' : Nat) :
    (d.modSlot t s f).slot t' s' = if slotKey t s = slotKey t' s' then f (d.slot t s) else d.slot t' s' := by
  unfold Dev.modSlot Dev.setSlot Dev.slot
  rw [fmGet_fmSet]
  split <;> rfl

/-- A change of one slot that keeps a part of it keeps that part of every slot. -/
theorem Dev.slot_modSlot_keep {β : Type} (g : Slot → β) (d : Dev) (t s : Nat) (f : Slot → Slot) (hf : ∀ x, g (f x) = g x)
    (t' s' : Nat) : g ((d.modSlot t s f).slot t' s') = g (d.slot t' s') := by
  rw [Dev.slot_modSlot]
  split
  · next h => rw [hf, Dev.slot, Dev.slot, h]
  · rfl

theorem Dev.cc_modVx (d : Dev) (t s : Nat) (f : VxCtx → VxCtx) (t' s' : Nat) :
    ((d.modVx t s f).slot t' s').cc = (d.slot t' s').cc :=
  d.slot_modSlot_keep Slot.cc t s (fun x => { x with vx := f x.vx }) (fun _ => rfl) t' s'

theorem Dev.vx_modVx_self (d : Dev) (t s : Nat) (f : VxCtx → VxCtx) : ((d.modVx t s f).slot t s).vx = f (d.slot t s).vx := by
  rw [Dev.modVx, Dev.slot_modSlot, if_pos rfl]

/-- Issuing an instruction leaves every strand context. -/
theorem Dev.vx_ccIssued (d : Dev) (t s : Nat) (f : CcCtx → CcCtx) (t' s' : Nat) :
    ((d.ccIssued t s f).slot t' s').vx = (d.slot t' s').vx :=
  ((d.count F.TIL_CC_INSTR_COUNT 1 (tileAdd t)).ccTook t s).slot_modSlot_keep Slot.vx t s
    (fun x => { x with cc := f { x.cc with pc := x.cc.pc + 4 } }) (fun _ => rfl) t' s'

/-- What an instruction on a queue changes, where before its issue registers, queues and slots alone have changed. -/
theorem Dev.ccIssued_tokens {d e : Dev} (h : e.besidesUnits = d.besidesUnits) (t s : Nat) (f : CcCtx → CcCtx) :
    ccTokens d (e.ccIssued t s f) t s := by
  refine ⟨Dev.ccTook_turn (x := e) (congrArg Dev.tiles h :), ?_⟩
  exact congrArg (fun z : Dev => { z with
    regs := (e.ccIssued t s f).regs, queues := e.queues, slots := (e.ccIssued t s f).slots, tiles := (e.ccIssued t s f).tiles }) h

/-- The slot of an operator that has fired and issued. -/
theorem Dev.slot_ccIssued_markFired (d : Dev) (t s : Nat) {f : CcCtx → CcCtx} {x : CcCtx} (hx : (d.slot t s).cc = x) :
    (((d.markFired t s).ccIssued t s f).slot t s).cc = f { x with pc := x.pc + 4 } ∧
      (((d.markFired t s).ccIssued t s f).slot t s).fired = true := by
  obtain ⟨⟨slot, -⟩, -⟩ := (d.markFired t s).ccIssued_issues t s f x (by rw [Dev.slot_markFired, hx])
  rw [slot]
  exact ⟨rfl, by rw [Dev.slot_markFired]⟩

section tokens
variable {d : Dev} {t s : Nat} {x : Slot} {c : Cfg} {w : Nat}

/-- QPOP. -/
theorem Dev.ccQpop_pops (h : d.ccNext t s 0x40 = some (x, c, w)) {k : Token} (head : d.ready t x c (bits w 18 14) = some k) :
    let e := d.ccQpop t s
    takesHead d e t c (bits w 18 14) ∧
      (∃ y, ccWrote x.cc y (ccRd w) (k.kind.toNat + (if k.epoch then 8 else 0) + 16 * k.seq.toNat) false (x.cc.pc + 4) ∧
        (e.slot t s).cc = { y with buf := k.payload, bufPoison := if k.kind.toNat = kPoison then 0xFF else 0 }) ∧
      (e.slot t s).fired = true ∧ ccTokens d e t s := by
  have tag : k.kind.toNat + (if k.epoch then 8 else 0) + 16 * k.seq.toNat < 2 ^ 64 := by
    have kind := k.kind.isLt
    have seq := k.seq.isLt
    split <;> omega
  have pops : takesHead d (d.popIn t c (bits w 18 14)) t c (bits w 18 14) := takesHead_iff.mpr fun q hq => d.heads_popIn_self t c hq
  unfold Dev.ccQpop
  simp only [h, head, beq_iff_eq]
  obtain ⟨context, fired⟩ := (d.popIn t c (bits w 18 14)).slot_ccIssued_markFired t s (x := x.cc) (by simp [Dev.cc_of_ccNext h])
  exact ⟨pops.congr rfl, ⟨_, CcCtx.set_wrote _ _ _ _ _ tag, context⟩, fired, Dev.ccIssued_tokens (by simp) t s _⟩

/-- QPUSH of a kind that may be sent. -/
theorem Dev.ccQpush_pushes (h : d.ccNext t s 0x41 = some (x, c, w)) (kind : badPush (x.cc.get (ccRs1 w)).1 = false)
    (credit : d.credit c (bits w 18 14) = true) :
    let e := d.ccQpush t s
    putsToken d e x c (bits w 18 14)
        (if x.cc.bufPoison ≠ 0 ∨ (x.cc.get (ccRs1 w)).2 = true then kPoison else (x.cc.get (ccRs1 w)).1 % 8) x.cc.buf ∧
      (e.slot t s).cc = { x.cc with pc := x.cc.pc + 4 } ∧ (e.slot t s).fired = true ∧ ccTokens d e t s := by
  unfold Dev.ccQpush
  simp only [h, kind, credit, Bool.false_eq_true, if_false, if_true, Bool.or_eq_true, bne_iff_ne]
  generalize (if x.cc.bufPoison ≠ 0 ∨ (x.cc.get (ccRs1 w)).2 = true then kPoison else (x.cc.get (ccRs1 w)).1 % 8) = sent
  have puts := d.putOut_puts t s c (bits w 18 14) sent x.cc.buf
  rw [Dev.slot_of_ccNext h] at puts
  obtain ⟨n, slot⟩ := d.slot_putOut t s c (bits w 18 14) sent x.cc.buf
  obtain ⟨context, fired⟩ := (d.putOut t s c (bits w 18 14) sent x.cc.buf).slot_ccIssued_markFired t s (f := id) (x := x.cc)
    (by rw [slot, Dev.cc_of_ccNext h])
  exact ⟨puts.congr rfl rfl rfl rfl, context, fired, Dev.ccIssued_tokens (by simp) t s _⟩

/-- TBWR of a word of the buffer. -/
theorem Dev.ccTbwr_writes (h : d.ccNext t s 0x43 = some (x, c, w)) (word : bits w 18 14 < 8) : ∃ b p,
    ccIssues d (d.ccTbwr t s) t s { x.cc with pc := x.cc.pc + 4, buf := b, bufPoison := p } ∧
      (∀ j < 8, bits b.toNat (64 * j) 64 =
          (if j = bits w 18 14 then (x.cc.get (ccRs1 w)).1 else bits x.cc.buf.toNat (64 * j) 64) ∧
        bit p j = (if j = bits w 18 14 then (x.cc.get (ccRs1 w)).2 else bit x.cc.bufPoison j)) ∧ ccQuiet d (d.ccTbwr t s) t := by
  unfold Dev.ccTbwr
  simp only [h, Dev.ccWord, if_pos word]
  obtain ⟨issues, quiet⟩ := Dev.ccIssued_context h rfl
  exact ⟨_, _, issues, fun j _ => ⟨bits_replaceWord x.cc.buf (by omega) (x.cc.get_lt _), bit_setBit _ _ j _⟩, quiet⟩

/-- BCAST to a broadcast slot. -/
theorem Dev.ccBcast_writes (h : d.ccNext t s 0x50 = some (x, c, w)) (word : bits w 18 14 < 8) :
    let e := d.ccBcast t s
    (e.slot t s).cc = { x.cc with pc := x.cc.pc + 4 } ∧
      (∀ j, fmGet (e.tile t).bnext j = if j = bits w 18 14 then some (x.cc.get (ccRs1 w)) else fmGet (d.tile t).bnext j) ∧
      e.tile t = { d.tile t with bnext := (e.tile t).bnext, ccLast := s, ccBusy := true } ∧
      regsBut [F.TIL_CC_INSTR_COUNT.key (tileAdd t)] d e ∧ engineOnly d e := by
  have context := Dev.cc_of_ccNext h
  unfold Dev.ccBcast
  simp only [h, Dev.ccWord, if_pos word]
  obtain ⟨⟨slot, -, -, tile, -⟩, quiet, -⟩ := (d.modTile t fun y =>
    { y with bnext := fmSet y.bnext (bits w 18 14) (x.cc.get (ccRs1 w)) }).ccIssued_issues t s id x.cc context
  rw [Dev.tile_modTile_self] at tile
  refine ⟨congrArg Slot.cc slot, fun j => ?_, ?_, quiet, rfl⟩
  · rw [tile, fmGet_fmSet]
    simp only [eq_comm]
  · rw [tile]

/-- A slot of TIL_EXT lies in its tile's own registers, apart from the count of instructions (Table 9-2). -/
theorem extKey_ne (t k : Nat) (hk : k < 64) : F.TIL_EXT_EXT_M.key (tileAdd t + 8 * k) ≠ F.TIL_CC_INSTR_COUNT.key (tileAdd t) ∧
    F.TIL_EXT_EXT_N.key (tileAdd t + 8 * k) ≠ F.TIL_CC_INSTR_COUNT.key (tileAdd t) := by
  simp only [Fld.key, F.TIL_EXT_EXT_M, F.TIL_EXT_EXT_N, F.TIL_CC_INSTR_COUNT]
  omega

/-- A slot of TIL_EXT is written by EXTW (R183, R216). -/
def Dev.extPut (d : Dev) (t k m n : Nat) : Dev :=
  ((d.keepExt t k false).fset F.TIL_EXT_EXT_M m (tileAdd t + 8 * k)).fset F.TIL_EXT_EXT_N n (tileAdd t + 8 * k)

theorem Dev.fget_extPut (d : Dev) (t k m n : Nat) :
    (d.extPut t k m n).fget F.TIL_EXT_EXT_M (tileAdd t + 8 * k) = m % 2 ^ F.TIL_EXT_EXT_M.w ∧
      (d.extPut t k m n).fget F.TIL_EXT_EXT_N (tileAdd t + 8 * k) = n % 2 ^ F.TIL_EXT_EXT_N.w := by
  unfold Dev.extPut
  refine ⟨?_, Dev.fget_fset_self _ _ _ _⟩
  rw [Dev.fget_fset_ne _ _ _ _ _ _ (by simp [Fld.key, F.TIL_EXT_EXT_M, F.TIL_EXT_EXT_N]), Dev.fget_fset_self]

theorem Dev.extPut_regsBut (d : Dev) (t k m n : Nat) :
    regsBut [F.TIL_EXT_EXT_M.key (tileAdd t + 8 * k), F.TIL_EXT_EXT_N.key (tileAdd t + 8 * k)] d (d.extPut t k m n) :=
  ((d.keepExt t k false).fset_regsBut _ m _).trans (Dev.fset_regsBut _ _ n _)

/-- EXTW to a slot that register space has not written in this cycle. -/
theorem Dev.ccExtw_writes (h : d.ccNext t s 0x51 = some (x, c, w)) {a m n o : Nat} (ha : x.cc.get (ccRs1 w) = (a, false))
    (hm : x.cc.get (ccRs2 w) = (m, false)) (hn : x.cc.get (ccRs3 w) = (n, false)) (ho : o = tileAdd t + 8 * (a % 64))
    (unwritten : (d.tile t).extReg.contains (a % 64) = false) :
    let e := d.ccExtw t s
    (e.slot t s).cc = { x.cc with pc := x.cc.pc + 4 } ∧
      e.fget F.TIL_EXT_EXT_M o = m % 2 ^ F.TIL_EXT_EXT_M.w ∧ e.fget F.TIL_EXT_EXT_N o = n % 2 ^ F.TIL_EXT_EXT_N.w ∧
      regsBut [F.TIL_EXT_EXT_M.key o, F.TIL_EXT_EXT_N.key o, F.TIL_CC_INSTR_COUNT.key (tileAdd t)] d e ∧ engineOnly d e := by
  subst ho
  have writes : d.ccExtw t s = (d.extPut t (a % 64) m n).ccIssued t s id := by
    simp only [Dev.ccExtw, Dev.extPut, h, ha, hm, hn, unwritten, Bool.or_self, Bool.false_eq_true, if_false]
  have context : ((d.extPut t (a % 64) m n).slot t s).cc = x.cc := (Dev.cc_of_ccNext h : (d.slot t s).cc = x.cc)
  have engine : engineOnly d (d.extPut t (a % 64) m n) := rfl
  have put := d.extPut_regsBut t (a % 64) m n
  obtain ⟨extM, extN⟩ := d.fget_extPut t (a % 64) m n
  obtain ⟨apartM, apartN⟩ := extKey_ne t (a % 64) (Nat.mod_lt _ (by decide))
  rw [writes]
  generalize d.extPut t (a % 64) m n = e at *
  obtain ⟨⟨slot, -⟩, quiet, -⟩ := e.ccIssued_issues t s id x.cc context
  exact ⟨congrArg Slot.cc slot, (quiet.fget _ _ (by simpa using apartM)).trans extM, (quiet.fget _ _ (by simpa using apartN)).trans extN,
    put.trans quiet, engine ▸ rfl⟩

/-- VSETE for a vector operator. -/
theorem Dev.ccVsete_sets (h : d.ccNext t s 0x52 = some (x, c, w)) {a : Nat} {v : Cfg} (ha : x.cc.get (ccRs1 w) = (a, false))
    (hi : bits w 18 14 < 32) (active : (d.slot t (bits w 18 14)).active = some v) (hv : v.cls = 1) :
    let e := d.ccVsete t s
    (e.slot t (bits w 18 14)).vx = { (d.slot t (bits w 18 14)).vx with vsete := some a } ∧
      (e.slot t s).cc = { x.cc with pc := x.cc.pc + 4 } ∧ ccTurnUsed d e t s ∧
      regsBut [F.TIL_CC_INSTR_COUNT.key (tileAdd t)] d e ∧ engineOnly d e := by
  have sets : d.ccVsete t s = (d.modVx t (bits w 18 14) fun y => { y with vsete := some a }).ccIssued t s id := by
    simp only [Dev.ccVsete, h, ha, active, hv, hi, Bool.false_eq_true, if_false, BEq.rfl, decide_true, Bool.and_self, if_true]
    rfl
  obtain ⟨⟨slot, -, -, turn⟩, quiet, -⟩ := (d.modVx t (bits w 18 14) fun y => { y with vsete := some a }).ccIssued_issues t s id x.cc
    ((d.cc_modVx _ _ _ _ _).trans (Dev.cc_of_ccNext h))
  rw [sets]
  refine ⟨?_, congrArg Slot.cc slot, turn, quiet, rfl⟩
  rw [Dev.vx_ccIssued, Dev.vx_modVx_self]

/-! ## STAGE (R148) -/

/-- A stage request changes the image in force and the messages under way alone. -/
theorem Dev.stage_keep {β : Type} (g : Dev → β) (himg0 : ∀ d x, g { d with img0 := x } = g d) (himg1 : ∀ d x, g { d with img1 := x } = g d)
    (hnet : ∀ d x, g { d with net := x } = g d) (d : Dev) (hf : HalfId) (n : Nat) : g (d.stage hf n) = g d := by
  unfold Dev.stage
  split
  · rfl
  · exact (hnet _ _).trans (Dev.setImage_keep g himg0 himg1 d hf _)

theorem Dev.image_congr {d e : Dev} (hs : e.split = d.split) (h0 : e.img0 = d.img0) (h1 : e.img1 = d.img1) (hf : HalfId) :
    e.image hf = d.image hf := by
  unfold Dev.image
  rw [hs, h0, h1]

theorem Dev.image_setImage (d : Dev) (hf : HalfId) (i : Option Image) : (d.setImage hf i).image hf = i := by
  have split : (d.setImage hf i).split = d.split := Dev.split_congr (d.setImage_regs hf i)
  unfold Dev.image
  rw [split]
  unfold Dev.setImage
  split <;> rfl

/-- A stage request that is made puts an image in force whose current configuration is the one it names. -/
theorem Dev.stage_eq {d : Dev} {hf : HalfId} {n : Nat} (h : d.mayStage hf n = true) :
    ∃ i net, d.stage hf n = { d.setImage hf (some i) with net := net } ∧ i.cur = n := by
  unfold Dev.mayStage at h
  split at h
  · next inForce =>
    simp only [Dev.stage, inForce]
    exact ⟨_, _, rfl, rfl⟩
  · cases h

theorem Dev.cur_stage {d : Dev} {hf : HalfId} {n : Nat} (h : d.mayStage hf n = true) : ((d.stage hf n).image hf).map (·.cur) = some n := by
  obtain ⟨i, net, stage, cur⟩ := Dev.stage_eq h
  have image : (d.stage hf n).image hf = some i := by
    rw [stage]
    exact d.image_setImage hf (some i)
  rw [image, Option.map_some, cur]

/-- What issuing changes, where before it slots, tiles and registers were as they are. -/
theorem ccIssues_congr {d d' e : Dev} {t s : Nat} {y : CcCtx} (slots : d'.slots = d.slots) (tiles : d'.tiles = d.tiles)
    (regs : d'.regs = d.regs) (h : ccIssues d' e t s y) : ccIssues d e t s y := by
  unfold ccIssues ccTurnUsed Dev.slot Dev.tile at *
  rwa [slots, tiles, Dev.fget_congr regs] at h

/-- The count of instructions is not the split bit (Table 9-2). -/
theorem Dev.split_of_ccQuiet {d e : Dev} {t : Nat} (ht : t < 512) (h : ccQuiet d e t) : e.split = d.split := by
  obtain ⟨quiet, -⟩ := h
  unfold Dev.split Dev.flag
  rw [quiet.fget]
  simp only [List.mem_singleton, Fld.key, F.SEC_STATUS_SPLIT, F.TIL_CC_INSTR_COUNT, tileAdd]
  omega

theorem Dev.ccStage_stages (ht : t < 512) (h : d.ccNext t s 0x53 = some (x, c, w)) {a : Nat} (ha : x.cc.get (ccRs1 w) = (a, false))
    (may : d.mayStage (tileHalf t) a = true) :
    let e := d.ccStage t s
    ccIssues d e t s { x.cc with pc := x.cc.pc + 4 } ∧ (e.image (tileHalf t)).map (·.cur) = some a ∧ memSame d e ∧ e.queues = d.queues := by
  have stages : d.ccStage t s = (d.stage (tileHalf t) a).ccIssued t s id := by
    simp only [Dev.ccStage, h, ha, may, Bool.false_eq_true, if_false, if_true]
  have kept : ∀ {β : Type} (g : Dev → β), (∀ d x, g { d with img0 := x } = g d) → (∀ d x, g { d with img1 := x } = g d) →
      (∀ d x, g { d with net := x } = g d) → g (d.stage (tileHalf t) a) = g d := fun g h0 h1 hn => d.stage_keep g h0 h1 hn _ a
  have slots := kept Dev.slots (fun _ _ => rfl) (fun _ _ => rfl) (fun _ _ => rfl)
  have current := Dev.cur_stage may
  rw [stages]
  obtain ⟨issues, quiet⟩ := (d.stage (tileHalf t) a).ccIssued_issues t s id x.cc ((congrArg Slot.cc (Dev.slot_congr slots t s)).trans
    (Dev.cc_of_ccNext h))
  refine ⟨ccIssues_congr slots (kept Dev.tiles (fun _ _ => rfl) (fun _ _ => rfl) (fun _ _ => rfl))
    (kept Dev.regs (fun _ _ => rfl) (fun _ _ => rfl) (fun _ _ => rfl)) issues, ?_,
    memSame_of_memOf (kept Dev.memOf (fun _ _ => rfl) (fun _ _ => rfl) (fun _ _ => rfl)),
    kept Dev.queues (fun _ _ => rfl) (fun _ _ => rfl) (fun _ _ => rfl)⟩
  rw [Dev.image_congr (Dev.split_of_ccQuiet ht quiet) rfl rfl, current]

end tokens

/-- Settles O31, instruction by instruction. -/
theorem controlCoreTokensAndTileInstructions : Obligations.ControlCoreTokensAndTileInstructions := by
  unfold Obligations.ControlCoreTokensAndTileInstructions
  rintro s t sl x c w live i rfl
  refine ⟨fun k next head => ?pop, fun a next ha mark reserved credit => ?push, fun next word => ?read, fun a next ha word => ?write,
    fun a next ha word => ?broadcast, fun a m n o next ha hm hn ho unwritten => ?extent, fun a v next ha hi active hv => ?element,
    fun a next ha may => ?stage, fun next shadow => ?ends⟩
  case pop => exact does_live (fun d => d.ccQpop t.toNat sl.toNat) rfl live (Dev.ccQpop_pops next head)
  case push =>
    subst ha
    have kind : badPush (x.cc.get (ccRs1 w)).1 = false := by simp [badPush, kMark, mark, reserved]
    exact does_live (fun d => d.ccQpush t.toNat sl.toNat) rfl live (Dev.ccQpush_pushes next kind credit)
  case read =>
    have reads : s.dev.ccTbrd t.toNat sl.toNat = s.dev.ccIssued t.toNat sl.toNat fun c => c.set (ccRd w)
        (bits x.cc.buf.toNat (64 * bits w 18 14) 64) (bit x.cc.bufPoison (bits w 18 14)) := by
      simp only [Dev.ccTbrd, next, Dev.ccWord, if_pos word]
    refine does_live (fun d => d.ccTbrd t.toNat sl.toNat) rfl live ?_
    have writes := Dev.ccIssued_writes next (ccRd w) (bits x.cc.buf.toNat (64 * bits w 18 14) 64) (bit x.cc.bufPoison (bits w 18 14))
    rw [Nat.mod_eq_of_lt (bits_lt _ _ _)] at writes
    exact reads ▸ writes
  case write =>
    subst ha
    exact does_live (fun d => d.ccTbwr t.toNat sl.toNat) rfl live (Dev.ccTbwr_writes next word)
  case broadcast =>
    subst ha
    exact does_live (fun d => d.ccBcast t.toNat sl.toNat) rfl live (Dev.ccBcast_writes next word)
  case extent => exact does_live (fun d => d.ccExtw t.toNat sl.toNat) rfl live (Dev.ccExtw_writes next ha hm hn ho unwritten)
  case element => exact does_live (fun d => d.ccVsete t.toNat sl.toNat) rfl live (Dev.ccVsete_sets next ha hi active hv)
  case stage => exact does_live (fun d => d.ccStage t.toNat sl.toNat) rfl live (Dev.ccStage_stages t.isLt next ha may)
  case ends =>
    obtain ⟨issues, quiet⟩ := Dev.ccIssued_context next rfl (f := fun c => { c with ended := true })
    have slot : s.dev.slot t.toNat sl.toNat = x := Dev.slot_of_ccNext next
    refine does_live (fun d => d.ccEend t.toNat sl.toNat) rfl live ?_
    have context := issues.1
    have stays := Dev.autoSwap_of_noShadow (congrArg Slot.active context |>.trans (slot ▸ (Dev.of_ccNext next).1))
      (congrArg Slot.shadow context |>.trans (slot ▸ shadow))
    simp only [Dev.ccEend, next, stays]
    exact ⟨issues, quiet⟩

end Sys2Proof.Machine

namespace Sys2Proof.Machine

/-! ## An instruction of the vector body executes (R187, R188) -/

@[simp] theorem Dev.group_setGroup (d : Dev) (t g : Nat) (f : Option VFire) : fmGet ((d.setGroup t g f).tile t).groups g = f := by
  have taken := fun m : Tile → FMap VFire => congrArg (fun y : Tile => fmGet y.groups g) (d.tile_modTile_self t fun x => { x with groups := m x })
  cases f with
  | none => exact (taken fun x => fmErase x.groups g).trans (fmGet_fmErase_self _ _)
  | some f => exact (taken fun x => fmSet x.groups g f).trans (fmGet_fmSet_self _ _ _)

/-- What a firing leaves when it has executed its last instruction. -/
theorem Dev.firingDone_leaves (d : Dev) (t g : Nat) (f : VFire) :
    fmGet ((d.firingDone t g f).tile t).groups g = none ∧
      fmGet ((d.firingDone t g f).slot t f.slot).vx.done f.num =
        some (if f.poison then kPoison else if f.void then kVoid else kData, f.outs) := by
  unfold Dev.firingDone
  refine ⟨d.group_setGroup t g none, ?_⟩
  rw [Dev.vx_modVx_self]
  exact fmGet_fmSet_self _ _ _

/-- Whatever has happened before in an instruction, `Dev.vdone` executes it. -/
theorem Dev.vdone_executed (d : Dev) (t g : Nat) (f : VFire) (c : Cfg) (i : VIns) (outs : List Row) (r : Row) :
    vxExecuted (d.vdone t g { f with outs := outs } c i r) t g f c i outs r := by
  unfold vxExecuted Dev.vdone
  dsimp only
  split
  · exact Dev.firingDone_leaves _ t g _
  · exact Dev.group_setGroup _ t g _

section keep
variable {β : Type} (h : Dev → β) (hregs : ∀ d x, h { d with regs := x } = h d)
include hregs

theorem Dev.vxNonfinite_keep (d : Dev) (t : Nat) (c : Cfg) (b : Bool) : h (d.vxNonfinite t c b) = h d := by
  unfold Dev.vxNonfinite
  split
  · dsimp only
    split
    · exact (hregs _ _).trans (Dev.event_keep h hregs _ _ _)
    · exact Dev.event_keep h hregs _ _ _
  · rfl

variable (htiles : ∀ d x, h { d with tiles := x } = h d) (hslots : ∀ d x, h { d with slots := x } = h d)
include htiles

theorem Dev.setGroup_keep (d : Dev) (t g : Nat) (f : Option VFire) : h (d.setGroup t g f) = h d := (hregs _ _).trans (htiles _ _)

include hslots

theorem Dev.firingDone_keep (d : Dev) (t g : Nat) (f : VFire) : h (d.firingDone t g f) = h d :=
  (hslots _ _).trans (Dev.setGroup_keep h hregs htiles _ t g none)

/-- What executing an instruction changes: registers, tiles and slots. -/
theorem Dev.vdone_keep (d : Dev) (t g : Nat) (f : VFire) (c : Cfg) (i : VIns) (r : Row) : h (d.vdone t g f c i r) = h d := by
  have counted : ∀ (b : Bool) n, h ((if b then d.event E.TIL_VX_SLOT_POISON (tileAdd t) else d).count F.TIL_VX_GROUP_CYC_COUNT n
      (tileAdd t)) = h d := fun b n => (Dev.count_keep h hregs _ _ _ _).trans (by cases b <;> [rfl; exact Dev.event_keep h hregs _ _ _])
  unfold Dev.vdone
  dsimp only
  split
  · exact (Dev.firingDone_keep h hregs htiles hslots _ t g _).trans ((Dev.setGroup_keep h hregs htiles _ t g _).trans (counted _ _))
  · exact (Dev.setGroup_keep h hregs htiles _ t g _).trans (counted _ _)

end keep

/-- A device without its registers, tiles and slots and its counter of free values. -/
def Dev.besidesVector (d : Dev) : Dev := { d with regs := [], tiles := [], slots := [], free := 0 }

theorem Dev.eq_of_besidesVector {d e : Dev} (h : e.besidesVector = d.besidesVector) :
    e = { d with regs := e.regs, tiles := e.tiles, slots := e.slots, free := e.free } :=
  congrArg (fun z : Dev => { z with regs := e.regs, tiles := e.tiles, slots := e.slots, free := e.free }) h

/-- From `d` to `e'`, an instruction has executed: `Dev.vdone` ends it, after changes of registers, tiles, slots and free values alone. -/
def vxEnds (d e' : Dev) (t g : Nat) (f : VFire) (c : Cfg) (i : VIns) : Prop :=
  ∃ (e : Dev) (outs : List Row) (r : Row), e' = e.vdone t g { f with outs := outs } c i r ∧ e.besidesVector = d.besidesVector

theorem vxEnds.completes {d e : Dev} {t g : Nat} {f : VFire} {c : Cfg} {i : VIns} (h : vxEnds d e t g f c i) :
    (∃ outs r, vxExecuted e t g f c i outs r) ∧ e = { d with regs := e.regs, tiles := e.tiles, slots := e.slots, free := e.free } := by
  obtain ⟨e', outs, r, rfl, kept⟩ := h
  exact ⟨⟨outs, r, e'.vdone_executed t g f c i outs r⟩, Dev.eq_of_besidesVector
    ((Dev.vdone_keep Dev.besidesVector (fun _ _ => rfl) (fun _ _ => rfl) (fun _ _ => rfl) e' t g _ c i r).trans kept)⟩

section ends
variable {d : Dev} {t g : Nat} {f : VFire} {c : Cfg} {i : VIns}

/-- An instruction ends with its nonfinite indication raised or not. -/
theorem vxEnds_nonfinite {e : Dev} (kept : e.besidesVector = d.besidesVector) (b : Bool) (outs : List Row) (r : Row) :
    vxEnds d ((e.vxNonfinite t c b).vdone t g { f with outs := outs } c i r) t g f c i :=
  ⟨_, outs, r, rfl, (e.vxNonfinite_keep Dev.besidesVector (fun _ _ => rfl) t c b).trans kept⟩

theorem Dev.vstat_ends {e : Dev} (kept : e.besidesVector = d.besidesVector) (v : Nat) (nf : Bool) :
    vxEnds d (e.vstat t g f c i v nf) t g f c i := vxEnds_nonfinite kept nf f.outs _

theorem Dev.vxElementwise_ends {op : Nat} (h : d.vnext t g op = some (f, c, i)) : vxEnds d (d.vxElementwise t g op) t g f c i := by
  unfold Dev.vxElementwise
  simp only [h]
  exact vxEnds_nonfinite rfl _ f.outs _

theorem Dev.vxCvti_ends (h : d.vnext t g 0x1C = some (f, c, i)) : vxEnds d (d.vxCvti t g) t g f c i := by
  unfold Dev.vxCvti
  simp only [h]
  exact vxEnds_nonfinite rfl _ f.outs _

theorem Dev.vxCvto_ends (h : d.vnext t g 0x1D = some (f, c, i)) : vxEnds d (d.vxCvto t g) t g f c i := by
  unfold Dev.vxCvto
  simp only [h]
  exact vxEnds_nonfinite rfl _ _ _

theorem Dev.vxOut_ends (h : d.vnext t g 0x1E = some (f, c, i)) : vxEnds d (d.vxOut t g) t g f c i := by
  unfold Dev.vxOut
  simp only [h]
  exact vxEnds_nonfinite rfl _ _ _

theorem Dev.vxIota_ends (h : d.vnext t g 0x1F = some (f, c, i)) : vxEnds d (d.vxIota t g) t g f c i := by
  unfold Dev.vxIota
  simp only [h]
  exact vxEnds_nonfinite rfl _ f.outs _

theorem Dev.besidesVector_setVrow (d : Dev) (t : Nat) (f : VFire) (r : Nat) (e : RowStat) :
    (d.setVrow t f r e).besidesVector = d.besidesVector := rfl

theorem Dev.vxRsm_ends (h : d.vnext t g 0x24 = some (f, c, i)) : vxEnds d (d.vxRsm t g) t g f c i := by
  unfold Dev.vxRsm
  simp only [h]
  split
  · exact Dev.vstat_ends rfl _ _
  · exact Dev.vstat_ends (d.besidesVector_setVrow t f _ _) _ _

theorem Dev.vxRsf_ends (h : d.vnext t g 0x25 = some (f, c, i)) : vxEnds d (d.vxRsf t g) t g f c i := by
  unfold Dev.vxRsf
  simp only [h]
  exact Dev.vstat_ends rfl _ _

theorem Dev.vxRsl_ends (h : d.vnext t g 0x26 = some (f, c, i)) : vxEnds d (d.vxRsl t g) t g f c i := by
  unfold Dev.vxRsl
  simp only [h]
  exact Dev.vstat_ends (d.besidesVector_setVrow t f _ _) _ _

theorem Dev.vxRsget_ends (h : d.vnext t g 0x27 = some (f, c, i)) : vxEnds d (d.vxRsget t g) t g f c i := by
  unfold Dev.vxRsget
  simp only [h]
  exact Dev.vstat_ends rfl _ _

/-- INT_SAT changes registers alone. -/
theorem Dev.besidesVector_intSat (d : Dev) (t : Nat) (b : Bool) :
    (if b then d.event E.TIL_VX_INT_SAT (tileAdd t) else d).besidesVector = d.besidesVector := by
  cases b <;> rfl

theorem Dev.besidesVector_modVx (d : Dev) (t s : Nat) (f : VxCtx → VxCtx) : (d.modVx t s f).besidesVector = d.besidesVector := rfl

theorem Dev.besidesVector_fresh (d : Dev) (w : Nat) : (d.fresh w).2.besidesVector = d.besidesVector := rfl

/-- The last firing of a span ends the reduction, whatever its value (R203). -/
theorem Dev.vxRed_ends (h : d.vnext t g 0x20 = some (f, c, i)) : vxEnds d (d.vxRed t g) t g f c i := by
  unfold Dev.vxRed
  simp only [h]
  split
  · exact ⟨_, f.outs, 0, rfl, d.besidesVector_intSat t _⟩
  · have joined := fun b b' parts => ((Dev.besidesVector_intSat _ t b').trans (Dev.besidesVector_modVx _ t f.slot parts)).trans
      (d.besidesVector_intSat t b)
    split
    · exact vxEnds_nonfinite (joined _ _ _) _ f.outs _
    · split
      iterate 3 exact vxEnds_nonfinite (joined _ _ _) _ f.outs _
      · split
        · exact vxEnds_nonfinite (joined _ _ _) _ f.outs _
        · split
          · exact vxEnds_nonfinite (joined _ _ _) _ f.outs _
          · exact vxEnds_nonfinite ((Dev.besidesVector_fresh _ _).trans (joined _ _ _)) _ f.outs _

end ends

/-- Settles O27: each instruction is `Dev.vdone`, after changes of registers, tiles, slots and free values alone. -/
theorem everyVectorInstructionCompletes : Obligations.EveryVectorInstructionCompletes := by
  unfold Obligations.EveryVectorInstructionCompletes
  intro s t g k op f c i live hk next
  have ends : ∃ fn : Dev → Dev, exec k s = onLive fn s ∧ vxEnds s.dev (fn s.dev) t.toNat g.toNat f c i := by
    have elementwise := Dev.vxElementwise_ends next
    generalize listed : (k, op) = p at hk
    fin_cases hk <;> cases listed
    iterate 27 exact ⟨fun d => d.vxElementwise t.toNat g.toNat _, rfl, elementwise⟩
    · exact ⟨fun d => d.vxCvti t.toNat g.toNat, rfl, Dev.vxCvti_ends next⟩
    · exact ⟨fun d => d.vxCvto t.toNat g.toNat, rfl, Dev.vxCvto_ends next⟩
    · exact ⟨fun d => d.vxOut t.toNat g.toNat, rfl, Dev.vxOut_ends next⟩
    · exact ⟨fun d => d.vxIota t.toNat g.toNat, rfl, Dev.vxIota_ends next⟩
    · exact ⟨fun d => d.vxRed t.toNat g.toNat, rfl, Dev.vxRed_ends next⟩
    · exact ⟨fun d => d.vxRsm t.toNat g.toNat, rfl, Dev.vxRsm_ends next⟩
    · exact ⟨fun d => d.vxRsf t.toNat g.toNat, rfl, Dev.vxRsf_ends next⟩
    · exact ⟨fun d => d.vxRsl t.toNat g.toNat, rfl, Dev.vxRsl_ends next⟩
    · exact ⟨fun d => d.vxRsget t.toNat g.toNat, rfl, Dev.vxRsget_ends next⟩
  obtain ⟨fn, command, ended⟩ := ends
  obtain ⟨t', run, queue, ended⟩ : Does k s fun e => vxEnds s.dev e t.toNat g.toNat f c i := does_live fn command live ended
  exact ⟨t', run, queue, ended.completes⟩

end Sys2Proof.Machine

namespace Sys2Proof.Machine

/-! ## Rows and their elements (R190) -/

/-- Elements of `w` bits, the first lowest. -/
def elemsNat (w : Nat) (l : List Nat) : Nat := l.foldr (fun x acc => acc * 2 ^ w + x % 2 ^ w) 0

theorem elemsNat_cons (w x : Nat) (l : List Nat) : elemsNat w (x :: l) = 2 ^ w * elemsNat w l + x % 2 ^ w :=
  congrArg (· + x % 2 ^ w) (Nat.mul_comm _ _)

theorem elemsNat_lt (w : Nat) (l : List Nat) : elemsNat w l < 2 ^ (w * l.length) := by
  induction l with
  | nil => exact Nat.two_pow_pos _
  | cons x l ih =>
    have low : x % 2 ^ w < 2 ^ w := Nat.mod_lt _ (Nat.two_pow_pos w)
    have high := Nat.mul_le_mul_left (2 ^ w) (Nat.succ_le_of_lt ih)
    rw [Nat.mul_succ] at high
    rw [elemsNat_cons, List.length_cons, Nat.mul_succ, Nat.pow_add, Nat.mul_comm (2 ^ (w * l.length))]
    omega

theorem bits_elemsNat (w : Nat) (l : List Nat) (j : Nat) : bits (elemsNat w l) (w * j) w = (l[j]?).getD 0 % 2 ^ w := by
  induction l generalizing j with
  | nil => simp [elemsNat, bits]
  | cons x l ih =>
    have low : x % 2 ^ w < 2 ^ w := Nat.mod_lt _ (Nat.two_pow_pos w)
    rw [elemsNat_cons]
    cases j with
    | zero => simp [bits]
    | succ j =>
      rw [List.getElem?_cons_succ, ← ih, bits, Nat.mul_succ, Nat.add_comm (w * j), Nat.pow_add, ← Nat.div_div_eq_div_mul,
        Nat.mul_add_div (Nat.two_pow_pos w), Nat.div_eq_of_lt low, Nat.add_zero]
      rfl

theorem toNat_elemsNat {n w : Nat} {l : List Nat} (h : w * l.length ≤ n) : (BitVec.ofNat n (elemsNat w l)).toNat = elemsNat w l := by
  rw [BitVec.toNat_ofNat]
  exact Nat.mod_eq_of_lt ((elemsNat_lt w l).trans_le (Nat.pow_le_pow_right (by decide) h))

/-- The elements of a row made of elements. -/
theorem elems_ofElems (ty : Nat) {l : List Nat} (h : l.length = 512 / elemW ty) :
    elems ty (ofElems (elemW ty) l) = l.map (· % 2 ^ elemW ty) := by
  have row : (ofElems (elemW ty) l).toNat = elemsNat (elemW ty) l := toNat_elemsNat (h ▸ Nat.mul_div_le 512 _)
  refine List.ext_getElem (by simp [elems, h]) fun j _ hj => ?_
  rw [List.length_map] at hj
  simp only [elems, row, bits_elemsNat, List.getElem_map, List.getElem_range, List.getElem?_eq_getElem hj, Option.getD_some]

theorem length_elems (ty : Nat) (r : Row) : (elems ty r).length = 512 / elemW ty := by simp [elems]

/-! ## The nonfinite indication (R202) -/

/-- The registers that the end of an instruction changes. -/
def vdoneKeys (a : Nat) : List Nat :=
  evKeys E.TIL_VX_SLOT_POISON a ++ [F.TIL_VX_GROUP_CYC_COUNT.key a, F.TIL_VX_STATUS_GROUPS_BUSY.key a]

theorem Dev.setGroup_regsBut (d : Dev) (t g : Nat) (f : Option VFire) :
    regsBut [F.TIL_VX_STATUS_GROUPS_BUSY.key (tileAdd t)] d (d.setGroup t g f) := (d.modTile t _).fset_regsBut _ _ _

theorem Dev.vdone_regsBut (d : Dev) (t g : Nat) (f : VFire) (c : Cfg) (i : VIns) (r : Row) :
    regsBut (vdoneKeys (tileAdd t)) d (d.vdone t g f c i r) := by
  have counted : ∀ (b : Bool) n, regsBut (evKeys E.TIL_VX_SLOT_POISON (tileAdd t) ++ [F.TIL_VX_GROUP_CYC_COUNT.key (tileAdd t)]) d
      ((if b then d.event E.TIL_VX_SLOT_POISON (tileAdd t) else d).count F.TIL_VX_GROUP_CYC_COUNT n (tileAdd t)) := fun b n => by
    refine regsBut.trans ?_ (Dev.fset_regsBut _ _ _ _)
    cases b
    · exact regsBut_of_regs rfl
    · exact d.event_regsBut _ _
  have once := fun b n f => (counted b n).trans (Dev.setGroup_regsBut _ t g f)
  unfold Dev.vdone
  dsimp only
  split
  · refine ((once _ _ _).trans (Dev.setGroup_regsBut _ t g none)).mono fun k hk => ?_
    simp only [vdoneKeys, List.mem_append, List.mem_cons, List.not_mem_nil, or_false] at hk ⊢
    tauto
  · refine (once _ _ _).mono fun k hk => ?_
    simpa [vdoneKeys, or_assoc] using hk

theorem Dev.fget_vxNonfinite (d : Dev) (t : Nat) (c : Cfg) : (d.vxNonfinite t c true).fget F.TIL_VX_EVENT_NONFINITE (tileAdd t) = 1 := by
  have raised := d.fget_event_next (v := E.TIL_VX_NONFINITE) rfl (by decide) rfl (tileAdd t)
  unfold Dev.vxNonfinite
  simp only [if_true]
  split
  · rw [Dev.fget_fset_ne _ _ _ _ _ _ (by simp [Fld.key, F.TIL_VX_VOTE_NF, F.TIL_VX_EVENT_NONFINITE])]
    exact raised
  · exact raised

/-- The indication outlasts the end of its instruction. -/
theorem Dev.fget_vdone_nonfinite (d : Dev) (t g : Nat) (f : VFire) (c : Cfg) (i : VIns) (r : Row) :
    (d.vdone t g f c i r).fget F.TIL_VX_EVENT_NONFINITE (tileAdd t) = d.fget F.TIL_VX_EVENT_NONFINITE (tileAdd t) := by
  refine (d.vdone_regsBut t g f c i r).fget _ _ ?_
  simp only [vdoneKeys, evKeys, E.TIL_VX_SLOT_POISON, Fld.key, F.TIL_VX_EVENT_NONFINITE, F.TIL_VX_EVENT_SLOT_POISON,
    F.TIL_VX_EVCNT_SLOT_POISON_CNT, F.TIL_VX_GROUP_CYC_COUNT, F.TIL_VX_STATUS_GROUPS_BUSY, List.mem_append, List.mem_cons,
    List.not_mem_nil, or_false]
  omega

/-- A device without its registers, tiles and slots. -/
def Dev.besidesEngine (d : Dev) : Dev := { d with regs := [], tiles := [], slots := [] }

theorem engineOnly_of_besidesEngine {d e : Dev} (h : e.besidesEngine = d.besidesEngine) : engineOnly d e :=
  (congrArg (fun z : Dev => { z with regs := e.regs, tiles := e.tiles, slots := e.slots }) h : e = { d with
    regs := e.regs, tiles := e.tiles, slots := e.slots })

/-! ## Elementwise operations (Table 8-4) -/

/-- The elements of the result of an elementwise operation. -/
def velems (i : VIns) (op : Nat) (f : VFire) : List Nat :=
  ((elems i.ty (f.src i.a)).zip ((elems i.ty (f.src i.b)).zip (elems i.ty (f.src i.c)))).map fun x => velem i.ty op x.1 x.2.1 x.2.2

theorem length_velems (i : VIns) (op : Nat) (f : VFire) : (velems i op f).length = 512 / elemW i.ty := by
  simp [velems, length_elems]

theorem Dev.vxElementwise_does {d : Dev} {t g op : Nat} {f : VFire} {c : Cfg} {i : VIns} (h : d.vnext t g op = some (f, c, i)) :
    let e := d.vxElementwise t g op
    (∃ r, vxExecuted e t g f c i f.outs r ∧
      elems i.ty r = (((elems i.ty (f.src i.a)).zip ((elems i.ty (f.src i.b)).zip (elems i.ty (f.src i.c)))).map
        fun x => velem i.ty op x.1 x.2.1 x.2.2 % 2 ^ elemW i.ty) ∧
      (∀ fm, tyFmt i.ty = some fm → floatResult op = true → (∃ y ∈ elems i.ty r, nonfinite fm y = true) →
        e.fget F.TIL_VX_EVENT_NONFINITE (tileAdd t) = 1)) ∧ engineOnly d e := by
  obtain ⟨r, hr⟩ : ∃ r, r = ofElems (elemW i.ty) (velems i op f) := ⟨_, rfl⟩
  have result : d.vxElementwise t g op = (d.vxNonfinite t c (floatResult op && rowNonfinite i.ty r)).vdone t g f c i r := by
    rw [hr]
    simp only [Dev.vxElementwise, h]
    rfl
  rw [result]
  refine ⟨⟨r, Dev.vdone_executed _ t g f c i f.outs r, ?_, fun fm format float infinite => ?_⟩, ?_⟩
  · rw [hr, elems_ofElems i.ty (length_velems i op f), velems, List.map_map]
    rfl
  · have indication : (floatResult op && rowNonfinite i.ty r) = true := by simpa [rowNonfinite, format, float] using infinite
    rw [Dev.fget_vdone_nonfinite, indication, Dev.fget_vxNonfinite]
  · exact engineOnly_of_besidesEngine ((Dev.vdone_keep Dev.besidesEngine (fun _ _ => rfl) (fun _ _ => rfl) (fun _ _ => rfl) _ t g f c i r).trans
      (d.vxNonfinite_keep Dev.besidesEngine (fun _ _ => rfl) t c _))

/-! ## Integer operations (Table 8-4) -/

theorem toInt_modEq (w x : Nat) : toInt w x ≡ x [ZMOD 2 ^ w] := by
  have low : (x % 2 ^ w : Int) ≡ x [ZMOD 2 ^ w] := Int.mod_modEq _ _
  unfold toInt
  split
  · exact (Int.modEq_sub_modulus_iff.mpr low.symm).symm
  · exact low

/-- An integer's encoding is that of any natural number congruent to it. -/
theorem ofInt_of_modEq {w : Nat} {z : Int} {n : Nat} (h : z ≡ n [ZMOD 2 ^ w]) : ofInt w z = n % 2 ^ w := by
  unfold ofInt
  rw [h.eq]
  exact_mod_cast Int.toNat_natCast (n % 2 ^ w)

/-- Two's complement as `BitVec` has it. -/
theorem toInt_eq (x : Nat) (h : x < 2 ^ 32) : toInt 32 x = (BitVec.ofNat 32 x).toInt := by
  have sign : bit x 31 = decide (2 ^ 31 ≤ x) := by
    simp only [bit, beq_eq_decide, decide_eq_decide]
    omega
  rw [BitVec.toInt_eq_toNat_cond, BitVec.toNat_ofNat, Nat.mod_eq_of_lt h, toInt, sign]
  simp only [decide_eq_true_eq]
  split <;> split <;> omega

theorem toInt_inj {a b : Nat} (ha : a < 2 ^ 32) (hb : b < 2 ^ 32) : toInt 32 a = toInt 32 b ↔ a = b := by
  rw [toInt_eq a ha, toInt_eq b hb, BitVec.toInt_inj, ← BitVec.toNat_inj, BitVec.toNat_ofNat, BitVec.toNat_ofNat, Nat.mod_eq_of_lt ha,
    Nat.mod_eq_of_lt hb]

section integer
variable {ty a b c : Nat}

theorem velem_iadd : velem ty 0x17 a b c = (a + b) % 2 ^ elemW ty :=
  ofInt_of_modEq (by push_cast; exact (toInt_modEq _ a).add (toInt_modEq _ b))

theorem velem_imul : velem ty 0x19 a b c = a * b % 2 ^ elemW ty :=
  ofInt_of_modEq (by push_cast; exact (toInt_modEq _ a).mul (toInt_modEq _ b))

theorem velem_isub (hb : b < 2 ^ elemW ty) : velem ty 0x18 a b c = (a + 2 ^ elemW ty - b) % 2 ^ elemW ty := by
  refine ofInt_of_modEq (((toInt_modEq _ a).sub (toInt_modEq _ b)).trans ?_)
  rw [Nat.cast_sub (by omega)]
  push_cast
  rw [add_sub_right_comm]
  exact Int.modEq_add_modulus_iff.mpr rfl

/-- The comparisons and the negative of INT32. -/
theorem velem_int32 (ha : a < 2 ^ 32) (hb : b < 2 ^ 32) :
    velem 3 0x0D a b c = (if a = b then 2 ^ 32 - 1 else 0) ∧
      velem 3 0x0E a b c = (if (BitVec.ofNat 32 a).toInt < (BitVec.ofNat 32 b).toInt then 2 ^ 32 - 1 else 0) ∧
      velem 3 0x0F a b c = (if (BitVec.ofNat 32 a).toInt ≤ (BitVec.ofNat 32 b).toInt then 2 ^ 32 - 1 else 0) ∧
      velem 3 0x08 a b c = (2 ^ 32 - a) % 2 ^ 32 := by
  rw [← toInt_eq a ha, ← toInt_eq b hb]
  have masked : ∀ (p : Prop) [Decidable p], mask 32 (decide p) = if p then 2 ^ 32 - 1 else 0 := fun p _ => by
    simp only [mask, decide_eq_true_eq]
  refine ⟨?_, masked _, masked _, ?_⟩
  · show mask 32 (toInt 32 a == toInt 32 b) = _
    rw [beq_eq_decide, masked]
    simp only [toInt_inj ha hb]
  · refine ofInt_of_modEq ((toInt_modEq 32 a).neg.trans ?_)
    rw [Nat.cast_sub (le_of_lt ha)]
    push_cast
    rw [sub_eq_neg_add]
    exact Int.modEq_add_modulus_iff.mpr rfl

end integer

/-- Settles O24: an elementwise operation is `Dev.vdone` of its elements' row; the integer operations are congruences modulo 2^w. -/
theorem elementwiseAndIntegerVectorOperations : Obligations.ElementwiseAndIntegerVectorOperations := by
  unfold Obligations.ElementwiseAndIntegerVectorOperations
  refine ⟨fun s t g k op f c i live hk next => ?_, fun ty a b c ha hb _ => ?_⟩
  · have command : exec k s = onLive (fun d => d.vxElementwise t.toNat g.toNat op) s := by
      generalize listed : (k, op) = p at hk
      fin_cases hk <;> cases listed <;> rfl
    exact does_live _ command live (Dev.vxElementwise_does next)
  · refine ⟨velem_iadd, velem_isub hb, velem_imul, rfl, rfl, rfl, rfl, rfl, ?_, fun integer => ?_⟩
    · show (if c != 0 then a else b) = _
      by_cases zero : c = 0 <;> simp [zero]
    · subst integer
      exact velem_int32 ha hb

end Sys2Proof.Machine

/-! ## The canonical form: every operation of the model keeps it

A proof follows its definition: `c.fset.event` says of the device that `c` speaks of that a field is set and an event is raised. A branch
is `canonical.ite` or a `split`, a device that is used more than once has a fact of its own. The operations come in the model's order. -/

namespace Sys2Proof

open Sys2Proof.Machine

/-- An update that leaves the registers, memory and poison alone keeps the canonical form, whatever else it changes. -/
theorem canonical.update {d : Dev} {pw tally led0 led1 mg sec boot feed queues slots tiles insts products img0 img1 stage0 stage1 net faults
    heldW heldE refetch refetched ports fab step0 step1 upd srv out free} (c : canonical d) :
    canonical ⟨d.regs, d.mem, d.poison, pw, tally, led0, led1, mg, sec, boot, feed, queues, slots, tiles, insts, products, img0, img1, stage0,
      stage1, net, faults, heldW, heldE, refetch, refetched, ports, fab, step0, step1, upd, srv, out, free⟩ := c

theorem canonical.ite {p : Prop} {_ : Decidable p} {d e : Dev} (c : canonical d) (k : canonical e) : canonical (if p then d else e) := by
  split
  · exact c
  · exact k

theorem canonical.foldl {γ : Type} {f : Dev → γ → Dev} {l : List γ} {d : Dev} (h : ∀ d x, canonical d → canonical (f d x)) (c : canonical d) :
    canonical (l.foldl f d) := canonical_foldl f h l d c

/-- A fold over a state that holds a device keeps its canonical form if each of its steps does. -/
theorem canonical.foldlOn {β γ : Type} (g : β → Dev) {f : β → γ → β} {l : List γ} {b : β} (h : ∀ b x, canonical (g b) → canonical (g (f b x)))
    (c : canonical (g b)) : canonical (g (l.foldl f b)) := by
  induction l generalizing b with
  | nil => exact c
  | cons x l ih => exact ih (h b x c)

theorem fmWf_foldl {α γ : Type} {f : FMap α → γ → FMap α} {l : List γ} {m : FMap α} (h : ∀ m x, fmWf m = true → fmWf (f m x) = true)
    (w : fmWf m = true) : fmWf (l.foldl f m) = true := by
  induction l generalizing m with
  | nil => exact w
  | cons x l ih => exact ih (h m x w)

theorem memWf_foldl {γ : Type} {f : List Host.Cell → γ → List Host.Cell} {l : List γ} {m : List Host.Cell}
    (h : ∀ m x, Memory.wf m = true → Memory.wf (f m x) = true) (w : Memory.wf m = true) : Memory.wf (l.foldl f m) = true := by
  induction l generalizing m with
  | nil => exact w
  | cons x l ih => exact ih (h m x w)

theorem canonical_reset : canonical Dev.reset := by
  unfold canonical
  decide

section operations

variable {d : Dev}

/-! ### The shared operations, as links of a chain -/

theorem canonical.fset {f : Fld} {v a : Nat} (c : canonical d) : canonical (d.fset f v a) := canonical_fset _ _ _ c
theorem canonical.fsetB {f : Fld} {v : Bool} {a : Nat} (c : canonical d) : canonical (d.fsetB f v a) := canonical_fsetB _ _ _ c
theorem canonical.count {f : Fld} {n a : Nat} (c : canonical d) : canonical (d.count f n a) := canonical_count _ _ _ c
theorem canonical.event {e : Ev} {a : Nat} (c : canonical d) : canonical (d.event e a) := canonical_event _ _ c
theorem canonical.regReset {lo hi : Nat} (c : canonical d) : canonical (d.regReset lo hi) := canonical_regReset _ _ c
theorem canonical.fclear {fs : List Fld} {a : Nat} (c : canonical d) : canonical (d.fclear fs a) := canonical_fclear _ _ c
theorem canonical.fresh {w : Nat} (c : canonical d) : canonical (d.fresh w).2 := canonical_fresh _ c
theorem canonical.emit {o : Out} (c : canonical d) : canonical (d.emit o) := canonical_emit _ c
theorem canonical.traceRec {k : Nat} {vs : List Nat} (c : canonical d) : canonical (d.traceRec k vs) := canonical_traceRec _ _ c
theorem canonical.sendMsg {i t r : Nat} {b : List Nat} (c : canonical d) : canonical (d.sendMsg i t r b) := canonical_sendMsg _ _ _ _ c
theorem canonical.mbxEvent {e : Ev} (c : canonical d) : canonical (d.mbxEvent e) := canonical_mbxEvent _ c
theorem canonical.sbLog {t s : Nat} {b : List Nat} (c : canonical d) : canonical (d.sbLog t s b) := canonical_sbLog _ _ _ c
theorem canonical.setHalf {h : HalfId} {st sub : Nat} (c : canonical d) : canonical (d.setHalf h st sub) := canonical_setHalf _ _ _ c
theorem canonical.setScope {s : Scope} {st sub : Nat} (c : canonical d) : canonical (d.setScope s st sub) := canonical_setScope _ _ _ c
theorem canonical.poke {a : Nat} {bs : List Byte} (c : canonical d) : canonical (d.poke a bs) := canonical_poke _ _ c
theorem canonical.pokePoison {a : Nat} (c : canonical d) : canonical (d.pokePoison a) := canonical_pokePoison _ c
theorem canonical.pokePoisons {a n : Nat} (c : canonical d) : canonical (d.pokePoisons a n) := canonical_pokePoisons _ _ c
theorem canonical.zeroRange {lo hi : Nat} (c : canonical d) : canonical (d.zeroRange lo hi) := canonical_zeroRange _ _ c
theorem canonical.countStk {a n : Nat} {w : Bool} (c : canonical d) : canonical (d.countStk a n w) := canonical_countStk _ _ _ c
theorem canonical.store {a : Nat} {bs : List Byte} (c : canonical d) : canonical (d.store a bs) := canonical_store _ _ c
theorem canonical.storePoison {a n : Nat} (c : canonical d) : canonical (d.storePoison a n) := canonical_storePoison _ _ c
theorem canonical.readWord {a : Nat} {e : RdErr} (c : canonical d) : canonical (d.readWord a e).2 := canonical_readWord _ _ c
theorem canonical.readWords {a n : Nat} {es : List RdErr} (c : canonical d) : canonical (d.readWords a n es).2 := canonical_readWords _ _ _ c
theorem canonical.readRow {a : Nat} {es : List RdErr} (c : canonical d) : canonical (d.readRow a es).2 := canonical_readRow _ _ c
theorem canonical.writeRow {a : Nat} {v : Row} {p : Bool} (c : canonical d) : canonical (d.writeRow a v p) := canonical_writeRow _ _ _ c

/-! ### Ledger -/

theorem canonical.setLed {h : HalfId} {l : Ledger} (c : canonical d) : canonical (d.setLed h l) := .ite c.update c.update
theorem canonical.modEntry {h : HalfId} {seq : Nat} {f : Entry → Entry} (c : canonical d) : canonical (d.modEntry h seq f) := c.setLed
theorem canonical.appendEntry {h : HalfId} {e : Entry} (c : canonical d) : canonical (d.appendEntry h e) := by
  unfold Dev.appendEntry
  extract_lets _ _ d1
  have c1 : canonical d1 := c.setLed.traceRec
  exact .ite c1.sbLog.update c1
theorem canonical.startTaken (c : canonical d) : canonical d.startTaken := c.update
theorem canonical.startEntry {h : HalfId} {seq : Nat} (c : canonical d) : canonical (d.startEntry h seq) := c.startTaken.modEntry.traceRec
theorem canonical.endEntry {h : HalfId} {seq st status : Nat} (c : canonical d) : canonical (d.endEntry h seq st status) := by
  unfold Dev.endEntry
  extract_lets _ d1
  have c1 : canonical d1 := c.modEntry.traceRec
  split
  · exact c
  · exact .ite c (.ite c1.emit c1)
theorem canonical.finish {h : HalfId} {seq status : Nat} (c : canonical d) : canonical (d.finish h seq status) := c.endEntry
theorem canonical.setResult {h : HalfId} {seq r : Nat} (c : canonical d) : canonical (d.setResult h seq r) := c.modEntry
theorem canonical.endWhere {h : HalfId} {p : Entry → Bool} {st status : Nat} (c : canonical d) : canonical (d.endWhere h p st status) :=
  .foldl (fun _ _ c => c.endEntry) c
theorem canonical.failPending {p : Entry → Bool} (c : canonical d) : canonical (d.failPending p) := .foldl (fun _ _ c => c.endWhere) c
theorem canonical.supersede {h : HalfId} (c : canonical d) : canonical (d.supersede h) := c.endWhere

/-! ### Flow -/

theorem canonical.setSlot {t s : Nat} {x : Slot} (c : canonical d) : canonical (d.setSlot t s x) := c.update
theorem canonical.setQueue {t q : Nat} {x : Queue} (c : canonical d) : canonical (d.setQueue t q x) := c.update
theorem canonical.modTile {t : Nat} {f : Tile → Tile} (c : canonical d) : canonical (d.modTile t f) := c.update
theorem canonical.setHeld {h : HalfId} {v : Bool} (c : canonical d) : canonical (d.setHeld h v) := .ite c.update c.update
theorem canonical.setImage {h : HalfId} {i : Option Image} (c : canonical d) : canonical (d.setImage h i) := .ite c.update c.update
theorem canonical.passFault {h : HalfId} {row : Nat} (c : canonical d) : canonical (d.passFault h row) := c.update
theorem canonical.epochFault {t s q code : Nat} (c : canonical d) : canonical (d.epochFault t s q code) := c.sbLog.passFault
theorem canonical.popQ {t q : Nat} (c : canonical d) : canonical (d.popQ t q) := c.setQueue
theorem canonical.popIn {t : Nat} {cf : Cfg} {i : Nat} (c : canonical d) : canonical (d.popIn t cf i) := by
  unfold Dev.popIn
  split
  · exact c.popQ
  · exact c
theorem canonical.popIns {t : Nat} {cf : Cfg} {is : List Nat} (c : canonical d) : canonical (d.popIns t cf is) := .foldl (fun _ _ c => c.popIn) c
theorem canonical.reserve {cf : Cfg} {o : Nat} (c : canonical d) : canonical (d.reserve cf o) := by
  unfold Dev.reserve
  split
  · exact c.setQueue
  · exact c
theorem canonical.bulkFlit {t vc : Nat} (c : canonical d) : canonical (d.bulkFlit t vc) := c.modTile
theorem canonical.sendTok {t s : Nat} {cf : Cfg} {o kind : Nat} {payload : Row} (c : canonical d) : canonical (d.sendTok t s cf o kind payload) := by
  unfold Dev.sendTok
  extract_lets
  split
  · exact c
  · exact c.setSlot.setQueue
theorem canonical.putOut {t s : Nat} {cf : Cfg} {o kind : Nat} {payload : Row} (c : canonical d) : canonical (d.putOut t s cf o kind payload) :=
  c.reserve.sendTok
theorem canonical.markFired {t s : Nat} (c : canonical d) : canonical (d.markFired t s) := c.setSlot
theorem canonical.modSlot {t s : Nat} {f : Slot → Slot} (c : canonical d) : canonical (d.modSlot t s f) := c.setSlot
theorem canonical.arrive {t q : Nat} {k : Token} (c : canonical d) : canonical (d.arrive t q k) := by
  unfold Dev.arrive
  extract_lets _ _ _ _ _ _ d1 d2 d3
  have c1 : canonical d1 := .ite c.event c
  have c2 : canonical d2 := .ite c1.event c1
  have c3 : canonical d3 := .ite c2.epochFault c2
  exact .ite c.event.passFault c3.setQueue
theorem canonical.tokenArrival {t q : Nat} {k : Option Token} (c : canonical d) : canonical (d.tokenArrival t q k) := by
  unfold Dev.tokenArrival
  extract_lets
  split
  · exact c.arrive
  · exact c.setQueue.arrive
  · exact c
theorem canonical.creditReturn {t q : Nat} (c : canonical d) : canonical (d.creditReturn t q) := .ite c.setQueue c
theorem canonical.steerFault {t : Nat} {b : Bool} (c : canonical d) : canonical (d.steerFault t b) := .ite c.event c
theorem canonical.cover {t s : Nat} {cf : Cfg} {ctl : Nat} {lf : Nat × Bool} (c : canonical d) : canonical (d.cover t s cf ctl lf) :=
  .ite c.modSlot.popIn c.modSlot
theorem canonical.emptyWord {t s : Nat} {cf : Cfg} {ctl : Nat} (c : canonical d) : canonical (d.emptyWord t s cf ctl) := c.popIn.modSlot
theorem canonical.switchFire {t s : Nat} (c : canonical d) : canonical (d.switchFire t s) := by
  unfold Dev.switchFire
  split
  · exact c
  · split
    · exact c
    · extract_lets
      split
      · exact c.emptyWord
      · split
        · exact c
        · exact .ite c.popIn.cover.putOut.markFired.steerFault c
theorem canonical.mergeFire {t s : Nat} (c : canonical d) : canonical (d.mergeFire t s) := by
  unfold Dev.mergeFire
  split
  · exact c
  · extract_lets
    split
    · exact c
    · extract_lets
      split
      · exact c.emptyWord
      · split
        · exact c
        · exact .ite c.popIn.cover.putOut.markFired.steerFault c
theorem canonical.rotateFire {t s : Nat} (c : canonical d) : canonical (d.rotateFire t s) := by
  unfold Dev.rotateFire
  split
  · exact c
  · extract_lets
    split
    · exact c
    · split
      · exact c
      · exact .ite c.popIn.putOut.markFired.modSlot c
theorem canonical.repeatFire {t s : Nat} (c : canonical d) : canonical (d.repeatFire t s) := by
  unfold Dev.repeatFire
  split
  · exact c
  · split
    · exact .ite c.popIn.emptyWord (.ite (canonical.ite c.cover.popIn c.cover).putOut.markFired.steerFault c)
    · exact c
theorem canonical.repeatStaticFire {t s : Nat} (c : canonical d) : canonical (d.repeatStaticFire t s) := by
  unfold Dev.repeatStaticFire
  split
  · exact c
  · extract_lets _ _ d1
    have c1 : canonical d1 := .ite c.modSlot.popIn c.modSlot
    split
    · exact c
    · exact .ite c.popIn.markFired (.ite c1.putOut.markFired c)
theorem canonical.discard {t : Nat} {v : Token} (c : canonical d) : canonical (d.discard t v) := .ite c.count.event c
theorem canonical.dropFire {t s : Nat} (c : canonical d) : canonical (d.dropFire t s) := by
  unfold Dev.dropFire
  split
  · exact c
  · split
    · exact c
    · extract_lets
      split
      · exact c.emptyWord
      · split
        · exact c
        · exact .ite c.popIn.cover.discard.markFired (.ite c.popIn.cover.putOut.markFired.steerFault c)
theorem canonical.dropStaticFire {t s : Nat} (c : canonical d) : canonical (d.dropStaticFire t s) := by
  unfold Dev.dropStaticFire
  split
  · exact c
  · split
    · exact c
    · exact .ite c.popIn.discard.markFired (.ite c.popIn.putOut.markFired c)
theorem canonical.forkFire {t s : Nat} (c : canonical d) : canonical (d.forkFire t s) := by
  unfold Dev.forkFire
  split
  · exact c
  · extract_lets
    split
    · exact c
    · exact .ite (canonical.foldl (fun _ _ c => c.putOut) c.popIn).markFired c
theorem canonical.stallLong {t s : Nat} (c : canonical d) : canonical (d.stallLong t s) := .ite c.event.setSlot c
theorem canonical.latchCounters (c : canonical d) : canonical d.latchCounters := c.update
theorem canonical.clearCounters {t : Nat} (c : canonical d) : canonical (d.clearCounters t) :=
  .foldl (fun _ _ c => c.fset) (canonical.foldl (fun _ _ c => .foldl (fun _ _ c => c.fset) c) c)
theorem canonical.recount {e : Dev} {t : Nat} (c : canonical e) : canonical (e.recount d t) :=
  .foldl (fun _ _ c => .ite c.fset c) (canonical.foldl (fun _ _ c => c.fset) c)
theorem canonical.cntClear {t hw : Nat} (c : canonical d) : canonical (d.cntClear t hw) :=
  .foldl (fun _ _ c => .ite c.event c) c.clearCounters.recount.fset
theorem canonical.keepExt {t s : Nat} {reg : Bool} (c : canonical d) : canonical (d.keepExt t s reg) := c.modTile

/-! ### Registers -/

theorem canonical.writeField {f : Fld} {add x hw : Nat} (c : canonical d) : canonical (d.writeField f add x hw) := by
  unfold Dev.writeField
  extract_lets
  split
  · exact c
  · exact c
  · exact c.fset
  · exact c.fset
  · exact c.fset
  · exact c.fset
  · exact .ite c.fset c
theorem canonical.hwSets {off hw bank : Nat} (c : canonical d) : canonical (d.hwSets off hw bank) := by
  unfold Dev.hwSets
  split
  · exact c
  · refine .foldl (fun _ _ c => ?_) c
    split
    · exact .ite c.event c
    · exact c
theorem canonical.writeOne {add v hw : Nat} {f : Fld} (c : canonical d) : canonical (d.writeOne add v hw f) := .ite c (.ite c c.writeField)
theorem canonical.settingsWritten (c : canonical d) : canonical d.settingsWritten := c.update
theorem canonical.keepSettings {fs : List Fld} {add : Nat} (c : canonical d) : canonical (d.keepSettings fs add) := c.update.settingsWritten
theorem canonical.noteExt {off : Nat} (c : canonical d) : canonical (d.noteExt off) := .ite c.keepExt c
theorem canonical.plainWrite {off v hw bank : Nat} (c : canonical d) : canonical (d.plainWrite off v hw bank) := by
  unfold Dev.plainWrite
  split
  · exact c
  · extract_lets d1 d2
    have c1 : canonical d1 := .foldl (fun _ _ c => c.writeOne) c.noteExt
    have c2 : canonical d2 := .ite c1.fset c1
    exact .ite c2.keepSettings c2
theorem canonical.accessError (c : canonical d) : canonical d.accessError := c.count
theorem canonical.registerWrite {w : Who} {off width v hw : Nat} (c : canonical d) : canonical (d.registerWrite w off width v hw) :=
  .ite c.accessError (.ite c.hwSets.plainWrite c.hwSets)

/-! ### Frames -/

theorem canonical.modPort {p : Nat} {f : Port → Port} (c : canonical d) : canonical (d.modPort p f) := c.update
theorem canonical.putFrame {p : Nat} {f : TxFrame} (c : canonical d) : canonical (d.putFrame p f) := c.emit
theorem canonical.closeBatch {p : Nat} (c : canonical d) : canonical (d.closeBatch p) := c.fresh.putFrame.modPort
theorem canonical.joinBatch {p kind : Nat} (c : canonical d) : canonical (d.joinBatch p kind) := .ite c.modPort.closeBatch c.modPort
theorem canonical.emitFrame {p : Nat} {f : TxFrame} (c : canonical d) : canonical (d.emitFrame p f) := by
  unfold Dev.emitFrame
  extract_lets d1
  have c1 : canonical d1 := (canonical.ite c.count c).putFrame
  exact .ite c (.ite c1.joinBatch c1)
theorem canonical.sendFrame {p : Nat} {f : TxFrame} (c : canonical d) : canonical (d.sendFrame p f) := .ite c.modPort c.modPort.emitFrame
theorem canonical.sendUnit {p kind : Nat} {u : Row} (c : canonical d) : canonical (d.sendUnit p kind u) := .ite c.sendFrame c.emitFrame
theorem canonical.sendCtl {p kind : Nat} {vals : List Nat} (c : canonical d) : canonical (d.sendCtl p kind vals) := c.sendUnit
theorem canonical.sendStamp {p count depth lock : Nat} (c : canonical d) : canonical (d.sendStamp p count depth lock) := c.sendUnit

/-! ### Tally -/

theorem canonical.refreshMaster (c : canonical d) : canonical d.refreshMaster := .ite c.fsetB.fset.fset (.ite c.fsetB.fset c.fsetB)
theorem canonical.refreshSched (c : canonical d) : canonical d.refreshSched := c.fsetB
theorem canonical.setCycle {cf : Nat} (c : canonical d) : canonical (d.setCycle cf) := c.fset.fset
theorem canonical.setLock {st : Nat} (c : canonical d) : canonical (d.setLock st) := by
  unfold Dev.setLock
  extract_lets _ d1 _ d2
  have c1 : canonical d1 := c.fset.refreshSched
  have c2 : canonical d2 := .ite c1 c1.update
  exact .ite c2.failPending c2
theorem canonical.noParent (c : canonical d) : canonical d.noParent := c.fset.fset
theorem canonical.chooseParent (c : canonical d) : canonical d.chooseParent := by
  unfold Dev.chooseParent
  split
  · exact c.noParent
  · exact c.fset.fset
theorem canonical.parentFound (c : canonical d) : canonical d.parentFound := .ite c.event.update c
theorem canonical.acquireEntry (c : canonical d) : canonical d.acquireEntry := .ite c.chooseParent.parentFound.setLock c
theorem canonical.sendStamps (c : canonical d) : canonical d.sendStamps := .ite (.foldl (fun _ _ c => .ite c.sendStamp c) c) c
theorem canonical.refLost (c : canonical d) : canonical d.refLost := .ite c.fset.event.setLock.noParent.update c
theorem canonical.refPresent (c : canonical d) : canonical d.refPresent := c.fset
theorem canonical.refValid (c : canonical d) : canonical d.refValid :=
  .ite (.ite c.fset.setLock.noParent.sendStamps c.setLock.noParent.acquireEntry) c
theorem canonical.tallyTick (c : canonical d) : canonical d.tallyTick := by
  unfold Dev.tallyTick
  extract_lets _ d1 _ _ d2 d3
  have c1 : canonical d1 := .ite c.fset c.update
  have c2 : canonical d2 := c1.update.setCycle
  have c3 : canonical d3 := .ite c2.failPending c2
  exact c3.sendStamps
theorem canonical.stepCount {count : Nat} (c : canonical d) : canonical (d.stepCount count) := .ite c.update.fset.failPending c.update
theorem canonical.stepPhase {off : ℤ} (c : canonical d) : canonical (d.stepPhase off) := c.setCycle
theorem canonical.lockOn {count : Nat} {off : ℤ} (c : canonical d) : canonical (d.lockOn count off) := by
  unfold Dev.lockOn
  extract_lets _ d1
  have c1 : canonical d1 := c.stepCount.stepPhase.setLock
  exact .ite c1.event c1
theorem canonical.trackStamp {count : Nat} {off : ℤ} (c : canonical d) : canonical (d.trackStamp count off) :=
  .ite c.update.event.update.refreshSched c.update
theorem canonical.stampReceived {p count depth lock : Nat} {off : ℤ} (c : canonical d) : canonical (d.stampReceived p count depth lock off) := by
  unfold Dev.stampReceived
  extract_lets _ _ _ _ _ d1 d2 _ d3
  have c1 : canonical d1 := .ite c.update.chooseParent c.update
  have c2 : canonical d2 := .ite c1.parentFound c1
  have c3 : canonical d3 := .ite c2.fset.fset c2.fset
  exact .ite c (.ite c.update (.ite c.update.acquireEntry (.ite c2 (.ite c3.lockOn (.ite c3.event.update.lockOn (.ite c3.trackStamp c3))))))
theorem canonical.forgetPort {p : Nat} (c : canonical d) : canonical (d.forgetPort p) := c.update
theorem canonical.parentLost (c : canonical d) : canonical d.parentLost := by
  unfold Dev.parentLost
  extract_lets _ _ d1
  have c1 : canonical d1 := (canonical.ite c c.forgetPort).event
  exact .ite c (.ite c1.setLock.chooseParent (.ite c1.chooseParent c1.setLock.noParent.acquireEntry))
theorem canonical.linkLost {p : Nat} (c : canonical d) : canonical (d.linkLost p) :=
  .ite c.forgetPort (.ite c.forgetPort.event.setLock.chooseParent (.ite c.forgetPort.chooseParent (.ite c.forgetPort.chooseParent.parentFound
    c.forgetPort.noParent)))
theorem canonical.holdExpired (c : canonical d) : canonical d.holdExpired := .ite c.setLock.event.noParent.acquireEntry c
theorem canonical.relock (c : canonical d) : canonical d.relock := .ite c.fset c.setLock.chooseParent.parentFound.fset
theorem canonical.schedRestored (c : canonical d) : canonical d.schedRestored := .ite c.update.refreshSched c
theorem canonical.schedOff {v : Bool} (c : canonical d) : canonical (d.schedOff v) := c.fsetB.refreshSched

/-! ### Command -/

theorem canonical.respond {q : Submission} {status state differs seq : Nat} {orig : List Nat} (c : canonical d) : canonical (d.respond q status state
    differs seq orig) :=
  .ite c.fset.fset.fset.fset.fset (.ite c.emit c.sendMsg)
theorem canonical.shortCommit {r : Row} {st : Nat} (c : canonical d) : canonical (d.shortCommit r st) := .ite c.emit c
theorem canonical.refuse {q : Submission} {st : Nat} (c : canonical d) : canonical (d.refuse q st) :=
  (canonical.ite c.event.event c.event).shortCommit.respond
theorem canonical.accept {q : Submission} {h : HalfId} (c : canonical d) : canonical (d.accept q h) := c.appendEntry.count.respond
theorem canonical.submit {q : Submission} (c : canonical d) : canonical (d.submit q) := by
  unfold Dev.submit
  extract_lets
  split
  · exact c.refuse
  · split
    · exact c.refuse
    · split
      · exact c.event.respond
      · split
        · exact c.refuse
        · exact c.accept
theorem canonical.acceptNext (c : canonical d) : canonical d.acceptNext := by
  unfold Dev.acceptNext
  extract_lets
  split
  · exact c
  · split
    · exact c
    · exact c.update.submit
theorem canonical.acceptCycle (c : canonical d) : canonical d.acceptCycle := c.update.acceptNext
theorem canonical.enqueue {q : Submission} (c : canonical d) : canonical (d.enqueue q) := .ite c.event.respond c.update.acceptNext
theorem canonical.commandSubmit {src : Nat} {desc : Row} (c : canonical d) : canonical (d.commandSubmit src desc) := by
  unfold Dev.commandSubmit
  extract_lets _ d1
  have c1 : canonical d1 := .ite c.fset.fset c
  split
  · exact c
  · exact c1.enqueue
theorem canonical.begin {h : HalfId} {seq op : Nat} {k : Dev → Entry → Dev} (c : canonical d) (hk : ∀ d x, canonical d → canonical (k d x)) :
    canonical (d.begin h seq op k) := by
  unfold Dev.begin
  split
  · exact c
  · split
    · split
      · exact c.endEntry
      · exact hk _ _ c.startEntry
    · exact c
theorem canonical.execAtStart {h : HalfId} {seq : Nat} (c : canonical d) : canonical (d.execAtStart h seq) := by
  unfold Dev.execAtStart
  split
  · exact c
  · exact .ite (.ite c.modEntry c.endEntry) c
theorem canonical.nop {h : HalfId} {seq : Nat} (c : canonical d) : canonical (d.nop h seq) := c.begin (fun _ _ c => c.finish)
theorem canonical.cancel {h : HalfId} {seq : Nat} (c : canonical d) : canonical (d.cancel h seq) := by
  unfold Dev.cancel
  refine c.begin fun _ _ c => ?_
  split
  · exact .ite c.endEntry.finish c.finish
  · exact c.finish
theorem canonical.lgrSel {w : Who} {seq : Nat} (c : canonical d) : canonical (d.lgrSel w seq) := by
  unfold Dev.lgrSel
  extract_lets
  split
  · exact .foldl (fun _ _ c => c.fset) c.fset.fset
  · exact .foldl (fun _ _ c => c.fset) c.fset.fset

/-! ### LinkPort -/

theorem canonical.sendWaiting {p n : Nat} (c : canonical d) : canonical (d.sendWaiting p n) := by
  induction n generalizing d with
  | zero => exact c
  | succ n ih =>
    unfold Dev.sendWaiting
    extract_lets
    split
    · exact c
    · split
      · exact c
      · exact ih c.modPort.sendFrame
theorem canonical.sendUnits {p : Nat} {sched : Bool} {vc cls slot xfer : Nat} {us : List (Row × Bool)} (c : canonical d) : canonical (d.sendUnits p
    sched vc cls slot xfer us) :=
  c.modPort.sendWaiting
theorem canonical.sendState {p : Nat} (c : canonical d) : canonical (d.sendState p) := c.modPort.sendCtl
theorem canonical.refreshPort {p : Nat} (c : canonical d) : canonical (d.refreshPort p) := c.fsetB.fsetB
theorem canonical.setLink {p st : Nat} (c : canonical d) : canonical (d.setLink p st) := by
  unfold Dev.setLink
  extract_lets _ _ d1 d2
  have c1 : canonical d1 := .ite c.fset c.fset.traceRec
  have c2 : canonical d2 := .ite c1.fset.linkLost.fset c1
  exact c2.refreshPort
theorem canonical.setPartner {p v : Nat} (c : canonical d) : canonical (d.setPartner p v) := c.fset.traceRec.refreshPort
theorem canonical.startTraining {p : Nat} (c : canonical d) : canonical (d.startTraining p) :=
  .ite c.setLink.setPartner c.fset.count.modPort.fset.fset.fset.setLink.setPartner
theorem canonical.retrain {p : Nat} (c : canonical d) : canonical (d.retrain p) := c.event.sbLog.startTraining
theorem canonical.admission {p : Nat} (c : canonical d) : canonical (d.admission p) := .ite c.startTraining c
theorem canonical.admitFail {p status step : Nat} (c : canonical d) : canonical (d.admitFail p status step) :=
  c.event.fset.fset.sbLog.modPort.setLink.setPartner
theorem canonical.sendIdentity {p : Nat} (c : canonical d) : canonical (d.sendIdentity p) := .foldl (fun _ _ c => c.sendUnit) c.fresh.fresh.modPort
theorem canonical.laneTrainingDone {p : Nat} {ok : List Bool} {eye : List (Nat × Nat)} (c : canonical d) : canonical (d.laneTrainingDone p ok eye) :=
    by
  unfold Dev.laneTrainingDone
  extract_lets _ _ _ _ d1 _ _ _ d2 _ d3
  have c1 : canonical d1 := .foldl (fun _ _ c => c.fset.fset.fsetB) c
  have c2 : canonical d2 := .foldl (fun _ _ c => c.fsetB) c1
  have c3 : canonical d3 := c2.fset.modPort
  exact .ite c (.ite c1.admitFail c3.setLink.sendIdentity)
theorem canonical.quarantine {p : Nat} (c : canonical d) : canonical (d.quarantine p) :=
  .ite c.fset.fset.modPort.event.setLink.setPartner.sendState.sbLog c.fset.fset
theorem canonical.identity {p : Nat} {i : Sys2Proof.Ident} (c : canonical d) : canonical (d.identity p i) := by
  unfold Dev.identity
  extract_lets _ _ d1 _ d2
  have c1 : canonical d1 := c.fset.fset.fset.fset
  have c2 : canonical d2 := c1.fset.modPort
  exact .ite c (.ite c.admitFail (.ite c.admitFail (.ite c2.modPort.sendCtl c2.event.fset.fset.quarantine)))
theorem canonical.resend {p : Nat} {fs : List TxFrame} (c : canonical d) : canonical (d.resend p fs) :=
  (canonical.foldl (fun _ _ c => c.emitFrame) c).modPort
theorem canonical.slotBegins {p : Nat} (c : canonical d) : canonical (d.slotBegins p) := by
  unfold Dev.slotBegins
  extract_lets d1
  have c1 : canonical d1 := by unfold d1; split; exacts [c.resend, c]
  exact c1.sendWaiting
theorem canonical.replayFrom {p seq : Nat} (c : canonical d) : canonical (d.replayFrom p seq) := by
  unfold Dev.replayFrom
  extract_lets _ _ _ d1
  have c1 : canonical d1 := c.event.modPort
  exact .ite c (.ite c1.resend.retrain c1.resend)
theorem canonical.grant {p : Nat} (c : canonical d) : canonical (d.grant p) := .ite c.modPort c.modPort.sendCtl
theorem canonical.enterUp {p delay : Nat} (c : canonical d) : canonical (d.enterUp p delay) := by
  unfold Dev.enterUp
  extract_lets _ _ d1 d2 _ d3 d4
  have c1 : canonical d1 := c.fset.fset.fset
  have c2 : canonical d2 := c1.fset.fsetB.sbLog
  have c3 : canonical d3 := c2.modPort.fset
  have c4 : canonical d4 := c3.setLink.setPartner.sendState.grant
  split
  · exact c4.replayFrom
  · exact c4
theorem canonical.delayFrame {p : Nat} {echo : Bool} {rtt turnaround : Nat} (c : canonical d) : canonical (d.delayFrame p echo rtt turnaround) :=
  .ite c.sendCtl (.ite c (.ite c.modPort.sendCtl (.ite (.ite c.modPort.retrain c.modPort.sendCtl) c.enterUp)))
theorem canonical.admissionTimeout {p : Nat} (c : canonical d) : canonical (d.admissionTimeout p) := .ite c.admitFail c
theorem canonical.backoffExpired {p : Nat} (c : canonical d) : canonical (d.backoffExpired p) := .ite c.startTraining c
theorem canonical.spareSub {p lane : Nat} (c : canonical d) : canonical (d.spareSub p lane) :=
  .ite c (.ite c.fset.fset.fset.fset.event.sendState c.retrain)
theorem canonical.retrainCmd {p : Nat} (c : canonical d) : canonical (d.retrainCmd p) := .ite c.retrain c
theorem canonical.laneLockLoss {p : Nat} (c : canonical d) : canonical (d.laneLockLoss p) := .ite c.modPort.retrain c
theorem canonical.release {p : Nat} (c : canonical d) : canonical (d.release p) := .ite c.fset.modPort.fset.setLink.sendState.sendIdentity c.fset
theorem canonical.readmit {p : Nat} (c : canonical d) : canonical (d.readmit p) := c.retrain
theorem canonical.misbehave {p : Nat} {e : Ev} (c : canonical d) : canonical (d.misbehave p e) := by
  unfold Dev.misbehave
  extract_lets _ d1
  have c1 : canonical d1 := c.event.modPort
  exact .ite c1.quarantine c1
theorem canonical.sendNak {p : Nat} (c : canonical d) : canonical (d.sendNak p) := c.modPort.sendCtl
theorem canonical.sendAck {p : Nat} (c : canonical d) : canonical (d.sendAck p) := c.sendCtl
theorem canonical.admitted {p : Nat} {f : Frame} (c : canonical d) : canonical (d.admitted p f).2 := by
  unfold Dev.admitted
  extract_lets
  split
  · exact c.misbehave
  · split
    · exact .ite c.misbehave c
    · split
      · split
        · exact c
        · split
          · exact c.misbehave
          · split
            · exact c.misbehave
            · split
              · exact c.modPort.sendCtl
              · split
                · exact c.modPort.sendCtl
                · exact c.modPort
      · split
        · exact c.sendCtl
        · exact c
theorem canonical.rxFrame {p : Nat} {f : Frame} (c : canonical d) : canonical (d.rxFrame p f).2 := by
  unfold Dev.rxFrame
  extract_lets _ _ d1 d2
  have c1 : canonical d1 := .foldl (fun _ _ c => .ite c.count c) c
  have c2 : canonical d2 := .ite c1.count c1
  split
  · exact c
  · split
    · exact c2.count.sendNak
    · split
      · exact c2.event.sendNak
      · split
        · exact c2.misbehave.sendNak
        · split
          · exact c2.admitted
          · split
            · exact (canonical.ite c2.modPort c2.modPort.sendAck).admitted
            · split
              · exact .ite c2 c2.sendNak
              · exact c2.sendAck
theorem canonical.takeData {p : Nat} {f : Frame} (c : canonical d) : canonical (d.takeData p f) := c.count.modPort
theorem canonical.takeCredit {p ack : Nat} {nak : Option Nat} {cs : List Nat} (c : canonical d) : canonical (d.takeCredit p ack nak cs) := by
  unfold Dev.takeCredit
  extract_lets _ _ _ d1
  have c1 : canonical d1 := by unfold d1; split; exacts [c.modPort.replayFrom, c.modPort]
  exact c1.sendWaiting
theorem canonical.replayTimeout {p : Nat} (c : canonical d) : canonical (d.replayTimeout p) := by
  unfold Dev.replayTimeout
  split
  · exact .ite c.replayFrom c
  · exact c
theorem canonical.takeState {p ps code : Nat} {half : Bool} {spare : Nat} {child : Bool} (c : canonical d) : canonical (d.takeState p ps code half
    spare child) := by
  unfold Dev.takeState
  extract_lets _ _ d1 d2
  have c1 : canonical d1 := c.fset.fset.modPort
  have c2 : canonical d2 := c1.modPort.fset
  exact .ite c1.refreshPort (.ite (.ite c1.fset.setLink.setPartner c1) (.ite c2.setLink.sendIdentity (.ite c1.setPartner c1)))
theorem canonical.sealBatchClose {p : Nat} (c : canonical d) : canonical (d.sealBatchClose p) := .ite c.closeBatch c
theorem canonical.keySwitch {p : Nat} (c : canonical d) : canonical (d.keySwitch p) := .ite c.modPort.sendCtl c
theorem canonical.sealFrame {p : Nat} {tagOk : Bool} {batch epoch count : Nat} {k : Dev → Frame → FrameBody → Dev} (c : canonical d) (hk : ∀ d x y,
    canonical d → canonical (k d x y)) : canonical (d.sealFrame p tagOk batch epoch count k) :=
  .ite c (.ite (.foldl (fun _ _ c => hk _ _ _ c) c.modPort.sendAck) c.modPort.misbehave.sendNak)
theorem canonical.linkTickOne {p : Nat} (c : canonical d) : canonical (d.linkTickOne p) := by
  unfold Dev.linkTickOne
  extract_lets d1
  have c1 : canonical d1 := .ite c.grant c
  exact .ite c1.sendState c1
theorem canonical.linkTick (c : canonical d) : canonical d.linkTick :=
  .foldl (fun _ _ c => c.slotBegins) (canonical.foldl (fun _ _ c => c.linkTickOne) c).update

/-! ### FabCore -/

theorem canonical.noteDetour {dst : Nat} {detour : Bool} (c : canonical d) : canonical (d.noteDetour dst detour) :=
  .ite c.event.update (.ite c.update c)
theorem canonical.sendXfer {x : Xfer} {xf vc : Nat} {arr : Option Nat} (c : canonical d) : canonical (d.sendXfer x xf vc arr).2 := by
  unfold Dev.sendXfer
  extract_lets
  split
  · exact c
  · exact c.noteDetour.sendUnits
theorem canonical.sendResponse {x : Xfer} {xf vc : Nat} {arr : Option Nat} {status rflags old : Nat} {rows : List (Row × Bool)} (c : canonical d) :
    canonical (d.sendResponse x xf vc arr status rflags old rows) :=
  c.sendXfer
theorem canonical.setReqs {r : FMap Req} (c : canonical d) : canonical (d.setReqs r) := c.update
theorem canonical.sendReq {tag : Nat} (c : canonical d) : canonical (d.sendReq tag).2 := by
  unfold Dev.sendReq
  split
  · exact c
  · extract_lets
    split
    · exact c.setReqs
    · exact c.setReqs.sendXfer
theorem canonical.issue {x : Xfer} {use : ReqUse} (c : canonical d) : canonical (d.issue x use).2 := by
  unfold Dev.issue
  extract_lets
  split
  · exact c.count.update.sendReq
  · exact c.count.update.sendReq.setReqs
theorem canonical.modSend {key : Nat} {f : SendS → SendS} (c : canonical d) : canonical (d.modSend key f) := c.update
theorem canonical.sendPass {it : List Byte} {t : StreamXf} (c : canonical d) : canonical (d.sendPass it t) := c.emit
theorem canonical.sendStream {it : List Byte} {t : StreamXf} {resent : Bool} {tag : Nat} (c : canonical d) : canonical (d.sendStream it t resent tag)
    := by
  unfold Dev.sendStream
  extract_lets
  split
  · exact c.sendXfer.sendPass
  · exact c.sendXfer.update
theorem canonical.pumpStream {h : HalfId} {it : List Byte} {n : Nat} (c : canonical d) : canonical (d.pumpStream h it n) := by
  induction n generalizing d with
  | zero => exact c
  | succ n ih =>
    unfold Dev.pumpStream
    extract_lets
    split
    · exact c
    · exact ih c.modSend.sendStream
theorem canonical.streamReady {h : HalfId} {it : List Byte} {mark : Option Nat} {rows : List (Row × Bool)} (c : canonical d) : canonical
    (d.streamReady h it mark rows) :=
  c.modSend.pumpStream
theorem canonical.streamMark {t s num : Nat} (c : canonical d) : canonical (d.streamMark t s num) := by
  unfold Dev.streamMark
  split
  · exact c.streamReady
  · exact c
theorem canonical.modStep {h : HalfId} {f : StepS → StepS} (c : canonical d) : canonical (d.modStep h f) := .ite c.update c.update
theorem canonical.modRun {h : HalfId} {f : RunS → RunS} (c : canonical d) : canonical (d.modRun h f) := c.modStep
theorem canonical.slotItem {h : HalfId} {items : List (List Byte)} {p slot r : Nat} {si : List Byte × Nat} (c : canonical d) : canonical (d.slotItem
    h items p slot r si) := by
  unfold Dev.slotItem
  extract_lets
  split
  · exact c
  · extract_lets
    split
    · exact .ite c.modSend.modPort.sendUnits.sendPass c.modSend.pumpStream
    · exact .ite c c.modSend
theorem canonical.scheduledSlot {p slot : Nat} (c : canonical d) : canonical (d.scheduledSlot p slot) := by
  unfold Dev.scheduledSlot
  extract_lets
  split
  · exact c
  · split
    · exact c
    · exact .foldl (fun _ _ c => c.slotItem) c
theorem canonical.streamRelease {peer xfer k : Nat} (c : canonical d) : canonical (d.streamRelease peer xfer k) := by
  unfold Dev.streamRelease
  extract_lets
  split
  · refine .foldl (fun _ _ c => ?_) c.modSend
    split
    · exact c.pumpStream
    · exact c
  · exact c
theorem canonical.modRecv {key : Nat} {f : RecvS → RecvS} (c : canonical d) : canonical (d.modRecv key f) := c.update
theorem canonical.creditBack {t q : Nat} (c : canonical d) : canonical (d.creditBack t q) := by
  unfold Dev.creditBack
  extract_lets
  split
  · exact c
  · split
    · exact c.creditReturn
    · extract_lets _ _ d1
      have c1 : canonical d1 := c.creditReturn.modRecv
      exact .ite c1 c1.emit
theorem canonical.contribute {tag id size : Nat} {vand or0 or1 : Bool} (c : canonical d) : canonical (d.contribute tag id size vand or0 or1) :=
  c.update

/-! ### Image -/

theorem canonical.stage {h : HalfId} {n : Nat} (c : canonical d) : canonical (d.stage h n) := by
  unfold Dev.stage
  split
  · exact c
  · exact c.setImage.update
theorem canonical.fieldRegs {cf : Cfg} (c : canonical d) : canonical (d.fieldRegs cf) :=
  (canonical.foldl (fun _ _ c => c.fset) c.fset.fset).fset.fset
theorem canonical.fieldGone {cf : Cfg} (c : canonical d) : canonical (d.fieldGone cf) := by
  unfold Dev.fieldGone
  extract_lets _ d1 _ d2
  have c1 : canonical d1 := .foldl (fun _ _ c => c.fset) c
  have c2 : canonical d2 := c1.fset.fset.update
  exact .ite c2 c2.fset.fset
theorem canonical.fieldTake {t s : Nat} {old cf : Option Cfg} (c : canonical d) : canonical (d.fieldTake t s old cf) := by
  unfold Dev.fieldTake
  extract_lets d1
  have c1 : canonical d1 := by unfold d1; split; exacts [.ite c.fieldGone c, c]
  split
  · exact c1
  · exact .ite c1 c1.update.fieldRegs.fsetB
theorem canonical.openQueue {e : Bool} {p : Nat × Nat} (c : canonical d) : canonical (d.openQueue e p) := .ite c c.setQueue
theorem canonical.takeShadow {t s : Nat} {epoch : Bool} (c : canonical d) : canonical (d.takeShadow t s epoch) := by
  unfold Dev.takeShadow
  extract_lets
  split
  · exact c
  · extract_lets new _ d1 d2
    have c1 : canonical d1 := c.setSlot.modTile
    have c2 : canonical d2 := by unfold d2; clear_value new; split; exacts [.foldl (fun _ _ c => c.openQueue) c1, c1]
    exact c2.fieldTake
theorem canonical.unitSwap {t s : Nat} (c : canonical d) : canonical (d.unitSwap t s) := by
  unfold Dev.unitSwap
  extract_lets
  split
  · extract_lets _ d1 d2
    have c1 : canonical d1 := .foldl (fun _ _ c => c.putOut) c
    have c2 : canonical d2 := .ite c1.streamMark c1
    exact .ite (.ite c2.takeShadow c.epochFault) c
  · exact c
theorem canonical.autoSwap {t s : Nat} (c : canonical d) : canonical (d.autoSwap t s) := by
  unfold Dev.autoSwap
  extract_lets
  split
  · exact .ite c c.takeShadow
  · exact .ite c.unitSwap c
theorem canonical.configMessage {t : Nat} (c : canonical d) : canonical (d.configMessage t) := by
  unfold Dev.configMessage
  extract_lets
  split
  · exact c
  · exact .ite c.update.epochFault (.ite c.update.setSlot c.update.setSlot.autoSwap)
theorem canonical.markArrival {t q : Nat} {k : Option Token} (c : canonical d) : canonical (d.markArrival t q k) := .ite c.tokenArrival c
theorem canonical.inputClose {t s i : Nat} (c : canonical d) : canonical (d.inputClose t s i) := by
  unfold Dev.inputClose
  extract_lets
  split
  · exact c
  · split
    · exact c
    · exact .ite c.popIn.setSlot c
theorem canonical.stageCmd {h : HalfId} {seq : Nat} (c : canonical d) : canonical (d.stageCmd h seq) := by
  unfold Dev.stageCmd
  refine c.begin fun _ _ c => ?_
  extract_lets
  split
  · exact c.finish
  · exact .ite c.finish (.ite c.finish c.stage.finish)

/-! ### Window -/

theorem canonical.stackLost {a : Nat} {win : Option (Nat × Nat)} (c : canonical d) : canonical (d.stackLost a win) :=
  (canonical.ite c.sbLog c.sbLog.update).passFault
theorem canonical.readWordR {a : Nat} {e : RdErr} (c : canonical d) : canonical (d.readWordR a e).2 := .ite c.readWord.stackLost c.readWord
theorem canonical.winCmd {t v : Nat} (c : canonical d) : canonical (d.winCmd t v) := .ite c.fset.event (.ite c.fset c.fset.modTile)
theorem canonical.windowPlace {t : Nat} (c : canonical d) : canonical (d.windowPlace t) := by
  unfold Dev.windowPlace
  extract_lets
  split
  · exact c
  · split
    · exact c
    · exact c.modTile
theorem canonical.copyWords {src dst n : Nat} {es : List RdErr} (c : canonical d) : canonical (d.copyWords src dst n es).2 := by
  induction n generalizing d src dst es with
  | zero => exact c
  | succ n ih => exact ih (.ite c.readWord.pokePoison c.readWord.poke)
theorem canonical.windowLoadDone {t h : Nat} {es : List RdErr} (c : canonical d) : canonical (d.windowLoadDone t h es) := by
  unfold Dev.windowLoadDone
  split
  · exact c
  · extract_lets _ d1
    have c1 : canonical d1 := c.copyWords.modTile
    exact .ite c (.ite c1 (.foldl (fun _ _ c => c.stackLost) c1.event))
theorem canonical.winRel {t v : Nat} (c : canonical d) : canonical (d.winRel t v) := by
  unfold Dev.winRel
  extract_lets
  split
  · exact c
  · split
    · exact c.event
    · exact .ite c.event (canonical.ite c.event c).modTile
theorem canonical.scrubWord {k a : Nat} {e : RdErr} {drop : Bool} (c : canonical d) : canonical (d.scrubWord k a e drop) :=
  .ite c.readWordR.fset c.readWordR
theorem canonical.stackScrub {k : Nat} {es : List (Nat × RdErr × Bool)} (c : canonical d) : canonical (d.stackScrub k es) :=
  .ite c (.ite (.ite c c.fset) (canonical.foldl (fun _ _ c => c.scrubWord) (canonical.foldl (fun _ _ c => c.scrubWord) c)).count.fset)

/-! ### Stream -/

theorem canonical.countTiles {t : Nat} {cf : Cfg} {n : Nat × Nat} (c : canonical d) : canonical (d.countTiles t cf n) := c.count.count
theorem canonical.walkStart {t s : Nat} (c : canonical d) : canonical (d.walkStart t s) := by
  unfold Dev.walkStart
  extract_lets
  split
  · exact c
  · extract_lets _ _ _ _ _ _ _ _ d1 d2 d3
    have c1 : canonical d1 := .ite c.popIn c
    have c2 : canonical d2 := .ite c1.popIn c1
    have c3 : canonical d3 := .ite c2.event c2
    exact .ite c (.ite c c3.modSlot.fsetB)
theorem canonical.showAhead {t : Nat} {cf : Cfg} {w : Walk} (c : canonical d) : canonical (d.showAhead t cf w) := c.fset
theorem canonical.farRow {t s a : Nat} {v : Row × Bool} (c : canonical d) : canonical (d.farRow t s a v) := c.modSlot
theorem canonical.takeFar {t vc : Nat} (c : canonical d) : canonical (d.takeFar t vc) := c.modTile
theorem canonical.askRow {t s : Nat} {cf : Cfg} {a : Nat} (c : canonical d) : canonical (d.askRow t s cf a) := by
  unfold Dev.askRow
  extract_lets
  split
  · exact c.issue
  · exact c.issue.farRow
theorem canonical.putRow {t s : Nat} {cf : Cfg} {a : Nat} {v : Row} {poison : Bool} (c : canonical d) : canonical (d.putRow t s cf a v poison) := by
  unfold Dev.putRow
  extract_lets
  split
  · exact c.issue
  · exact c.issue.update
theorem canonical.rowFetch {t s : Nat} (c : canonical d) : canonical (d.rowFetch t s) := by
  unfold Dev.rowFetch
  extract_lets
  split
  · extract_lets _ _ _ _ d1
    have c1 : canonical d1 := c.countTiles.showAhead.setSlot
    split
    · exact c
    · split
      · exact .ite c1.takeFar.askRow c1
      · exact c1
  · exact c
theorem canonical.rowReturn {t s k : Nat} {es : List RdErr} (c : canonical d) : canonical (d.rowReturn t s k es) := by
  unfold Dev.rowReturn
  extract_lets
  split
  · split
    · exact c
    · extract_lets _ _ d1 d2
      have c1 : canonical d1 := .ite c.readRow.stackLost c.readRow
      have c2 : canonical d2 := by unfold d2; split; exacts [.ite c1 c1.bulkFlit, c1]
      exact .ite c c2.setSlot
  · exact c
theorem canonical.feedRow {t : Nat} {r : FeedRow} (c : canonical d) : canonical (d.feedRow t r) := by
  unfold Dev.feedRow
  split
  · exact c
  · split
    · exact c
    · exact c.update
theorem canonical.readScales {a n : Nat} {es : List RdErr} (c : canonical d) : canonical (d.readScales a es n).2 := by
  induction n with
  | zero => exact c
  | succ n ih => exact ih.readWord
theorem canonical.readerFire {t s scale : Nat} {es : List RdErr} (c : canonical d) : canonical (d.readerFire t s scale es) := by
  unfold Dev.readerFire
  split
  · exact c
  · split
    · exact c
    · extract_lets put
      have stored {e : Dev} {role kind : Nat} {v : Row} {w : Walk} (c : canonical e) : canonical (put e role kind v w) := by
        unfold put
        exact canonical.markFired (canonical.showAhead (by split; exacts [c.setSlot.putOut, c.setSlot]))
      split
      · exact .ite (stored c) c
      · exact .ite (stored (.ite c c.count)) c
      · extract_lets ev cnt
        have counted : canonical (cnt (ev d)) := .ite (.ite c.event c) (canonical.ite c.event c).count
        exact .ite counted.readScales.setSlot.feedRow.showAhead.markFired (.ite (stored counted) c)
      · exact c
theorem canonical.writerFire {t s : Nat} (c : canonical d) : canonical (d.writerFire t s) := by
  unfold Dev.writerFire
  split
  · exact c
  · extract_lets
    split
    · extract_lets _ _ _ d1 d2
      have c1 : canonical d1 := c.countTiles.setSlot
      have c2 : canonical d2 := c1.popIn.markFired
      split
      · exact c
      · split
        · exact c.countTiles.setSlot
        · extract_lets _ d3 d4
          have c3 : canonical d3 := .ite c2.count (.ite c2.count.modSlot c2.count.bulkFlit)
          have c4 : canonical d4 := .ite c3.takeFar c3
          split
          · split
            · exact .ite c2.modSend c2
            · exact c2
          · split
            · exact c4.modSend
            · exact .ite c4.putRow c4.writeRow
    · exact c
theorem canonical.closeTransfer {t s : Nat} (c : canonical d) : canonical (d.closeTransfer t s) := by
  unfold Dev.closeTransfer
  split
  · exact c.modSend.streamReady
  · exact c
theorem canonical.walkEnd {t s : Nat} (c : canonical d) : canonical (d.walkEnd t s) := by
  unfold Dev.walkEnd
  extract_lets
  split
  · extract_lets _ _ _ d1 d2 _ _ _ _ d3 d4
    have c1 : canonical d1 := c.countTiles.setSlot.fsetB
    have c2 : canonical d2 := .ite c1.closeTransfer c1
    have c3 : canonical d3 := c2.fresh.update
    have c4 : canonical d4 := .ite c3.putOut.markFired c2
    exact .ite c (.ite c c4.autoSwap)
  · exact c
theorem canonical.tillRequest {t : Nat} {e : RdErr} (c : canonical d) : canonical (d.tillRequest t e) := by
  unfold Dev.tillRequest
  extract_lets
  split
  · exact c
  · extract_lets _ _ d1 _ _ _ _ _ d2 d3
    have c1 : canonical d1 := c.modTile.readWord.count
    have c2 : canonical d2 := .ite c1.event c1
    have c3 : canonical d3 := .ite c2 c2.store
    exact .ite c (.ite c1.event.fresh.update c3.update)

/-! ### Repair -/

theorem canonical.showRepair (c : canonical d) : canonical d.showRepair := c.fset.fset
theorem canonical.pageWritten (c : canonical d) : canonical d.pageWritten := c.update.showRepair.fset
theorem canonical.repairFull {x : List Nat} (c : canonical d) : canonical (d.repairFull x) := c.event.sbLog
theorem canonical.recordTile {half row col src : Nat} (c : canonical d) : canonical (d.recordTile half row col src) :=
  .ite c.repairFull c.update.pageWritten
theorem canonical.recordRow {r : RowDefect} (c : canonical d) : canonical (d.recordRow r) := .ite c.repairFull c.update.pageWritten
theorem canonical.repairMap (c : canonical d) : canonical d.repairMap := c.update.fsetB.fsetB

/-! ### Views -/

theorem canonical.tileWrite {off v : Nat} (c : canonical d) : canonical (d.tileWrite off v) := by
  unfold Dev.tileWrite
  exact .ite c.plainWrite.winCmd (.ite c.plainWrite.winRel (.ite c.plainWrite.cntClear c.plainWrite))

/-! ### Control -/

theorem canonical.modCc {t s : Nat} {f : CcCtx → CcCtx} (c : canonical d) : canonical (d.modCc t s f) := c.modSlot
theorem canonical.ccTook {t s : Nat} (c : canonical d) : canonical (d.ccTook t s) := c.modTile
theorem canonical.ccIssued {t s : Nat} {f : CcCtx → CcCtx} (c : canonical d) : canonical (d.ccIssued t s f) := c.count.ccTook.modCc
theorem canonical.ccFault {t s : Nat} {e : Ev} (c : canonical d) : canonical (d.ccFault t s e) := c.count.ccTook.event.modCc.sbLog.passFault
theorem canonical.ccResult {v : Option Nat} (c : canonical d) : canonical (d.ccResult v).2 := by
  unfold Dev.ccResult
  split
  · exact c
  · exact c.fresh
theorem canonical.ccInt {t s op : Nat} (c : canonical d) : canonical (d.ccInt t s op) := by
  unfold Dev.ccInt
  split
  · exact c
  · exact c.ccResult.ccIssued
theorem canonical.ccImmOp {t s op alu : Nat} (c : canonical d) : canonical (d.ccImmOp t s op alu) := by
  unfold Dev.ccImmOp
  split
  · exact c
  · exact c.ccResult.ccIssued
theorem canonical.ccLdc {t s : Nat} (c : canonical d) : canonical (d.ccLdc t s) := by
  unfold Dev.ccLdc
  split
  · exact c
  · exact c.ccIssued
theorem canonical.ccBranch {t s op : Nat} (c : canonical d) : canonical (d.ccBranch t s op) := by
  unfold Dev.ccBranch
  split
  · exact c
  · exact .ite c.ccFault c.ccIssued
theorem canonical.ccJal {t s : Nat} (c : canonical d) : canonical (d.ccJal t s) := by
  unfold Dev.ccJal
  split
  · exact c
  · exact c.ccIssued
theorem canonical.ccJalr {t s : Nat} (c : canonical d) : canonical (d.ccJalr t s) := by
  unfold Dev.ccJalr
  split
  · exact c
  · exact .ite c.ccFault (.ite c.ccIssued c.ccFault)
theorem canonical.ccBex {t s op : Nat} {want : Bool} (c : canonical d) : canonical (d.ccBex t s op want) := by
  unfold Dev.ccBex
  split
  · exact c
  · exact c.ccIssued
theorem canonical.ccAccess {t s op : Nat} {k : Slot → Nat → Nat → CcPlace → Dev} (c : canonical d) (hk : ∀ x w a p, canonical (k x w a p)) :
    canonical (d.ccAccess t s op k) := by
  unfold Dev.ccAccess
  split
  · exact c
  · extract_lets
    split
    · exact c.ccFault
    · split
      · exact (canonical.ite c.accessError c).ccFault
      · split
        · exact c.ccFault
        · exact hk _ _ _ _
theorem canonical.boundedFlit {t a : Nat} (c : canonical d) : canonical (d.boundedFlit t a) := .ite c.bulkFlit c
theorem canonical.memAsk {t s : Nat} {write : Bool} {a v : Nat} {p : Bool} (c : canonical d) : canonical (d.memAsk t s write a v p) :=
  c.boundedFlit.update
theorem canonical.ccLd {t s : Nat} {e : RdErr} (c : canonical d) : canonical (d.ccLd t s e) := by
  refine c.ccAccess fun _ _ _ _ => ?_
  split
  · exact c.ccIssued
  · exact c.readWordR.ccIssued
  · exact c.memAsk.ccIssued
theorem canonical.putWord {a v : Nat} {p : Bool} (c : canonical d) : canonical (d.putWord a v p) := .ite c.storePoison c.store
theorem canonical.ccSt {t s : Nat} (c : canonical d) : canonical (d.ccSt t s) := by
  refine c.ccAccess fun _ _ _ _ => ?_
  extract_lets _ r
  have cr : canonical r.2 := by unfold r; split; exacts [c.fresh, c]
  split
  · exact cr.tileWrite.ccIssued
  · exact c.putWord.ccIssued
  · exact c.memAsk.ccIssued
theorem canonical.ldstRequest {t s : Nat} {e : RdErr} (c : canonical d) : canonical (d.ldstRequest t s e) := by
  unfold Dev.ldstRequest
  extract_lets
  split
  · exact c
  · exact .ite c (.ite c.update.putWord.update c.update.readWordR.update)
theorem canonical.ldstReply {t s : Nat} (c : canonical d) : canonical (d.ldstReply t s) := by
  unfold Dev.ldstReply
  extract_lets
  split
  · exact c
  · exact .ite c c.update.modCc
theorem canonical.ccTill {t s : Nat} (c : canonical d) : canonical (d.ccTill t s) := by
  unfold Dev.ccTill
  extract_lets
  split
  · exact c
  · exact .ite c.ccFault (.ite c.event.ccIssued c.update.ccIssued)
theorem canonical.tillReply {t s : Nat} (c : canonical d) : canonical (d.tillReply t s) := by
  unfold Dev.tillReply
  extract_lets
  split
  · exact c
  · exact .ite c c.update.modCc
theorem canonical.ccQpop {t s : Nat} (c : canonical d) : canonical (d.ccQpop t s) := by
  unfold Dev.ccQpop
  split
  · exact c
  · extract_lets
    split
    · exact c
    · exact c.popIn.markFired.ccIssued
theorem canonical.ccQpush {t s : Nat} (c : canonical d) : canonical (d.ccQpush t s) := by
  unfold Dev.ccQpush
  split
  · exact c
  · exact .ite c.ccFault (.ite c.putOut.markFired.ccIssued c)
theorem canonical.ccWord {w : Nat} (c : canonical d) : canonical (d.ccWord w).2 := by
  unfold Dev.ccWord
  extract_lets
  split
  · exact c
  · exact c.fresh
theorem canonical.ccTbrd {t s : Nat} (c : canonical d) : canonical (d.ccTbrd t s) := by
  unfold Dev.ccTbrd
  split
  · exact c
  · exact c.ccWord.ccIssued
theorem canonical.ccTbwr {t s : Nat} (c : canonical d) : canonical (d.ccTbwr t s) := by
  unfold Dev.ccTbwr
  split
  · exact c
  · exact c.ccWord.ccIssued
theorem canonical.ccBcast {t s : Nat} (c : canonical d) : canonical (d.ccBcast t s) := by
  unfold Dev.ccBcast
  split
  · exact c
  · exact c.ccWord.modTile.ccIssued
theorem canonical.ccExtw {t s : Nat} (c : canonical d) : canonical (d.ccExtw t s) := by
  unfold Dev.ccExtw
  split
  · exact c
  · exact .ite c.ccFault (canonical.ite c c.keepExt.fset.fset).ccIssued
theorem canonical.ccVsete {t s : Nat} (c : canonical d) : canonical (d.ccVsete t s) := by
  unfold Dev.ccVsete
  split
  · exact c
  · exact .ite c.ccFault (canonical.ite c.modSlot c).ccIssued
theorem canonical.ccStage {t s : Nat} (c : canonical d) : canonical (d.ccStage t s) := by
  unfold Dev.ccStage
  split
  · exact c
  · exact .ite c.ccFault (.ite c.stage.ccIssued c.ccFault)
theorem canonical.ccEend {t s : Nat} (c : canonical d) : canonical (d.ccEend t s) := by
  unfold Dev.ccEend
  split
  · exact c
  · exact c.ccIssued.autoSwap
theorem canonical.ccCsrr {t s : Nat} (c : canonical d) : canonical (d.ccCsrr t s) := by
  unfold Dev.ccCsrr
  split
  · exact c
  · exact c.ccIssued
theorem canonical.ccBar {t s : Nat} (c : canonical d) : canonical (d.ccBar t s) := by
  unfold Dev.ccBar
  extract_lets
  split
  · exact c
  · exact c.update.ccIssued
theorem canonical.releaseCc {h : HalfId} {p : CcWait → Bool} {f : CcCtx → CcCtx} (c : canonical d) : canonical (d.releaseCc h p f) := c.update
theorem canonical.barrierComplete {h : HalfId} {b : Nat} (c : canonical d) : canonical (d.barrierComplete h b) := .ite c c.update.releaseCc
theorem canonical.ccVote {t s op : Nat} {isAnd : Bool} (c : canonical d) : canonical (d.ccVote t s op isAnd) := by
  unfold Dev.ccVote
  extract_lets
  split
  · exact c
  · exact c.update.ccIssued
theorem canonical.voteResult {h : HalfId} {ch : Nat} (c : canonical d) : canonical (d.voteResult h ch) := .ite c c.update.releaseCc
theorem canonical.ccWaitt {t s : Nat} (c : canonical d) : canonical (d.ccWaitt t s) := by
  unfold Dev.ccWaitt
  split
  · exact c
  · exact .ite c.ccFault (.ite c.ccIssued c.ccIssued)
theorem canonical.waittRelease {t s : Nat} (c : canonical d) : canonical (d.waittRelease t s) := c.modCc
theorem canonical.tileCommand {t : Nat} {body : List Byte} (c : canonical d) : canonical (d.tileCommand t body) := c.modTile

/-! ### Vector -/

theorem canonical.modVx {t s : Nat} {f : VxCtx → VxCtx} (c : canonical d) : canonical (d.modVx t s f) := c.modSlot
theorem canonical.setGroup {t g : Nat} {f : Option VFire} (c : canonical d) : canonical (d.setGroup t g f) := c.modTile.fset
theorem canonical.firingDone {t g : Nat} {f : VFire} (c : canonical d) : canonical (d.firingDone t g f) := c.setGroup.modVx
theorem canonical.vectorFire {t s : Nat} {vsete : Option Nat} (c : canonical d) : canonical (d.vectorFire t s vsete) := by
  unfold Dev.vectorFire
  split
  · exact c
  · extract_lets _ _ _ _ _ _ d1 _ d2 d3
    have c1 : canonical d1 := .foldl (fun _ _ c => c.reserve) c.popIns
    have c2 : canonical d2 := c1.modVx.modTile
    have c3 : canonical d3 := c2.count.markFired
    split
    · exact c
    · exact .ite (.ite c3.setGroup.firingDone c3.setGroup) c
theorem canonical.vxNonfinite {t : Nat} {cf : Cfg} {b : Bool} (c : canonical d) : canonical (d.vxNonfinite t cf b) :=
  .ite (.ite c.event.fset c.event) c
theorem canonical.vdone {t g : Nat} {f : VFire} {cf : Cfg} {i : VIns} {r : Row} (c : canonical d) : canonical (d.vdone t g f cf i r) := by
  unfold Dev.vdone
  extract_lets _ d1
  have c1 : canonical d1 := .ite c.event c
  exact .ite c1.count.setGroup.firingDone c1.count.setGroup
theorem canonical.vxElementwise {t g op : Nat} (c : canonical d) : canonical (d.vxElementwise t g op) := by
  unfold Dev.vxElementwise
  split
  · exact c
  · exact c.vxNonfinite.vdone
theorem canonical.vxCvti {t g : Nat} (c : canonical d) : canonical (d.vxCvti t g) := by
  unfold Dev.vxCvti
  extract_lets
  split
  · exact c
  · exact c.vxNonfinite.vdone
theorem canonical.vxCvto {t g : Nat} (c : canonical d) : canonical (d.vxCvto t g) := by
  unfold Dev.vxCvto
  extract_lets
  split
  · exact c
  · exact c.vxNonfinite.vdone
theorem canonical.vxOut {t g : Nat} (c : canonical d) : canonical (d.vxOut t g) := by
  unfold Dev.vxOut
  split
  · exact c
  · exact c.vxNonfinite.vdone
theorem canonical.vxIota {t g : Nat} (c : canonical d) : canonical (d.vxIota t g) := by
  unfold Dev.vxIota
  split
  · exact c
  · exact c.vxNonfinite.vdone
theorem canonical.vxRed {t g : Nat} (c : canonical d) : canonical (d.vxRed t g) := by
  unfold Dev.vxRed
  split
  · exact c
  · extract_lets _ _ _ _ _ _ _ d1 _ _ d2
    have c1 : canonical d1 := .ite c.event c
    have c2 : canonical d2 := .ite c1.modVx.event c1.modVx
    split
    · exact c1.modVx.vdone
    · split
      · exact c2.vxNonfinite.vdone
      · split
        · exact c2.vxNonfinite.vdone
        · exact c2.vxNonfinite.vdone
        · exact c2.vxNonfinite.vdone
        · exact .ite c2.vxNonfinite.vdone (.ite c2.vxNonfinite.vdone c2.fresh.vxNonfinite.vdone)
theorem canonical.setVrow {t : Nat} {f : VFire} {r : Nat} {e : RowStat} (c : canonical d) : canonical (d.setVrow t f r e) := c.modVx
theorem canonical.vstat {t g : Nat} {f : VFire} {cf : Cfg} {i : VIns} {v : Nat} {nf : Bool} (c : canonical d) : canonical (d.vstat t g f cf i v nf) :=
  c.vxNonfinite.vdone
theorem canonical.vxRsm {t g : Nat} (c : canonical d) : canonical (d.vxRsm t g) := by
  unfold Dev.vxRsm
  split
  · exact c
  · exact .ite c.vstat c.setVrow.vstat
theorem canonical.vxRsf {t g : Nat} (c : canonical d) : canonical (d.vxRsf t g) := by
  unfold Dev.vxRsf
  split
  · exact c
  · exact c.vstat
theorem canonical.vxRsl {t g : Nat} (c : canonical d) : canonical (d.vxRsl t g) := by
  unfold Dev.vxRsl
  split
  · exact c
  · exact c.setVrow.vstat
theorem canonical.vxRsget {t g : Nat} (c : canonical d) : canonical (d.vxRsget t g) := by
  unfold Dev.vxRsget
  split
  · exact c
  · exact c.vstat
theorem canonical.vectorOutput {t s : Nat} (c : canonical d) : canonical (d.vectorOutput t s) := by
  unfold Dev.vectorOutput
  extract_lets
  split
  · exact c
  · split
    · exact c
    · exact (canonical.foldl (fun _ _ c => c.sendTok) c).modVx

/-! ### Field -/

theorem canonical.setInst {site inst : Nat} {i : Inst} (c : canonical d) : canonical (d.setInst site inst i) := c.update
theorem canonical.stationaryLoad {site inst k src et es : Nat} (c : canonical d) : canonical (d.stationaryLoad site inst k src et es) := by
  unfold Dev.stationaryLoad
  split
  · exact c
  · exact .ite c.setInst c
theorem canonical.stationaryLoadDone {site inst k : Nat} {es : List RdErr} (c : canonical d) : canonical (d.stationaryLoadDone site inst k es) := by
  unfold Dev.stationaryLoadDone
  split
  · exact c
  · extract_lets
    split
    · exact c
    · extract_lets r
      have cr : canonical r.2 := .foldlOn Prod.snd (fun _ _ c => c.readWord) c
      exact .ite c cr.setInst
theorem canonical.runWord {k : Token} (c : canonical d) : canonical (d.runWord k).2 := by
  unfold Dev.runWord
  split
  · exact c.fresh (w := 35)
  · exact c
theorem canonical.fieldRunStart {site inst : Nat} (c : canonical d) : canonical (d.fieldRunStart site inst) := by
  unfold Dev.fieldRunStart
  split
  · exact c
  · extract_lets
    split
    · exact c
    · split
      · exact c
      · extract_lets _ _ _ _ _ _ d1
        have c1 : canonical d1 := c.runWord.popQ.setInst
        exact .ite c (.ite c1.event c1)
theorem canonical.emitGroup {t s site : Nat} {cf : Cfg} {g : Nat} {all : Bool} {v : Option (List Nat)} (c : canonical d) : canonical (d.emitGroup t s
    site cf g all v) := by
  unfold Dev.emitGroup
  extract_lets
  split
  · exact .foldl (fun _ _ c => c.putOut.event) c
  · split
    · exact .foldl (fun _ _ c => c.putOut) c
    · split
      · exact .foldl (fun _ _ c => c.putOut) c
      · exact .foldl (fun _ _ c => c.putOut.event) c
theorem canonical.slotGroup {site inst : Nat} {cf : Cfg} {r : Run} {beats : List (List RowBeats)} {ms : List (Nat × Nat)} {poison : Bool} {sc :
    Option Nat × Bool} {p g : Nat} (c : canonical d) : canonical (d.slotGroup site inst cf r beats ms poison sc p g) := by
  unfold Dev.slotGroup
  extract_lets
  split
  · exact c
  · extract_lets _ _ _ _ d1 d2
    have c1 : canonical d1 := .ite c.setInst.event c.setInst
    have c2 : canonical d2 := .ite c1.event c1
    split
    · exact .ite c.emitGroup c
    · split
      · exact c2.emitGroup
      · exact c2
theorem canonical.countSlot {site : Nat} {cf : Cfg} {n : Nat} (c : canonical d) : canonical (d.countSlot site cf n) := c.count.count.update
theorem canonical.fieldSlot {site inst : Nat} {odd : Bool} (c : canonical d) : canonical (d.fieldSlot site inst odd) := by
  unfold Dev.fieldSlot
  extract_lets
  split
  · exact c
  · extract_lets
    split
    · extract_lets _ _ _ _ _ d1 d2 _ d3
      have c1 : canonical d1 := .foldl (fun _ _ c => c.popQ) c
      have c2 : canonical d2 := .ite c1.event c1
      have c3 : canonical d3 := .foldl (fun _ _ c => .foldl (fun _ _ c => c.slotGroup) c) c2.setInst
      exact .ite c c3.countSlot.setInst.markFired
    · exact c

/-! ### Board -/

theorem canonical.sensorFails {k : Nat} (c : canonical d) : canonical (d.sensorFails k) := .ite c c.fset.mbxEvent.sbLog
theorem canonical.sampleTemp {k : Nat} {v : Option Nat} (c : canonical d) : canonical (d.sampleTemp k v) := by
  unfold Dev.sampleTemp
  extract_lets
  split
  · extract_lets d1
    have c1 : canonical d1 := c.update.fset.fset
    exact .ite c1.sensorFails c1.fset
  · exact .ite c.update.sensorFails c.update
theorem canonical.sensorSample {temps : List (Option Nat)} {taps readouts : List Nat} (c : canonical d) : canonical (d.sensorSample temps taps
    readouts) := by
  unfold Dev.sensorSample
  extract_lets d1 d2 d3 d4
  have c1 : canonical d1 := .foldl (fun _ _ c => c.sampleTemp) c
  have c2 : canonical d2 := .foldl (fun _ _ c => c.fset.fset) c1
  have c3 : canonical d3 := .foldl (fun _ _ c => .ite c.fset.event c.fset) c2
  have c4 : canonical d4 := by unfold d4; split; exacts [c3.fset.fset, c3.fset.fset]
  exact c4.update
theorem canonical.thermalTrip (c : canonical d) : canonical d.thermalTrip := by
  unfold Dev.thermalTrip
  extract_lets
  split
  · exact .ite c c.update.sbLog
  · exact c
theorem canonical.throttleUpdate {h : HalfId} {power : Nat} (c : canonical d) : canonical (d.throttleUpdate h power) := by
  unfold Dev.throttleUpdate
  extract_lets _ _ _ _ _ _ _ _ d1 _ d2 _ d3
  have c1 : canonical d1 := c.update.update
  have c2 : canonical d2 := .ite c1 c1.update
  have c3 : canonical d3 := .ite c2.fset c2.fset.traceRec
  exact .ite c3.mbxEvent.sbLog c3
theorem canonical.throttleLevel {h : HalfId} (c : canonical d) : canonical (d.throttleLevel h) := by
  unfold Dev.throttleLevel
  extract_lets
  split
  · exact c
  · exact .ite c c.update
theorem canonical.pollRail {k : Nat} {r : Option (Nat × Nat × Nat)} (c : canonical d) : canonical (d.pollRail k r) := by
  unfold Dev.pollRail
  extract_lets
  split
  · exact c.fset.mbxEvent
  · extract_lets d1
    have c1 : canonical d1 := c.fset.fset.fset
    exact .ite c1.fset.update c1.fset.update.mbxEvent.sbLog
theorem canonical.pmbusPoll {rs : List (Option (Nat × Nat × Nat))} (c : canonical d) : canonical (d.pmbusPoll rs) :=
  (canonical.foldl (fun _ _ c => c.pollRail) c).update.fset.fset
theorem canonical.i3cPoll {vs : List (Option Nat)} (c : canonical d) : canonical (d.i3cPoll vs) := by
  unfold Dev.i3cPoll
  refine .foldl (fun _ _ c => ?_) c
  extract_lets
  split
  · exact c.update
  · exact c.mbxEvent
theorem canonical.i3cIbi {join : Bool} {src : Nat} (c : canonical d) : canonical (d.i3cIbi join src) := .ite c c.update
theorem canonical.writeRails {old new : Nat} {ks done : List Nat} {ok : List Bool} (c : canonical d) : canonical (d.writeRails old new ks done ok).2
    := by
  induction ks generalizing d done ok with
  | nil => exact c
  | cons k ks ih =>
    unfold Dev.writeRails
    extract_lets
    split
    · exact ih c.emit
    · exact .foldl (fun _ _ c => c.emit) c.emit.mbxEvent
theorem canonical.profileCmd {h : HalfId} {seq : Nat} {ok : List Bool} (c : canonical d) : canonical (d.profileCmd h seq ok) :=
  c.begin (fun _ _ c => .ite c.finish (.ite c.update (.ite c.writeRails.update c.writeRails.finish)))
theorem canonical.endProfile {st : Nat} (c : canonical d) : canonical (d.endProfile st) := .foldl (fun _ _ c => c.endWhere) c
theorem canonical.setProfile {p : Nat} (c : canonical d) : canonical (d.setProfile p) := c.update.setCycle
theorem canonical.pllRelocked {ok : List Bool} (c : canonical d) : canonical (d.pllRelocked ok) := by
  unfold Dev.pllRelocked
  extract_lets
  split
  · exact c
  · exact .ite c.setProfile.endProfile (.ite c.setProfile.writeRails.endProfile (.ite c.setProfile.writeRails.setProfile.endProfile
      c.setProfile.writeRails.endProfile))
theorem canonical.mgmtLaneUp {fec : Bool} (c : canonical d) : canonical (d.mgmtLaneUp fec) := .ite c.fset.fset.fsetB c
theorem canonical.mgmtLaneDown (c : canonical d) : canonical d.mgmtLaneDown := c.fset.fset.fset
theorem canonical.jtagInstruction {i : Nat} (c : canonical d) : canonical (d.jtagInstruction i) := .ite c.emit (.ite c.fresh.emit c.emit)

/-! ### Fabric -/

theorem canonical.takeRx {p : Nat} {r : RxXfer} (c : canonical d) : canonical (d.takeRx p r) := c.modPort
theorem canonical.originCheck {p : Nat} {x : Xfer} {h : HalfId} (c : canonical d) : canonical (d.originCheck p x h).2 := by
  unfold Dev.originCheck
  split
  · exact c.event
  · split
    · exact c
    · split
      · exact c
      · exact c
theorem canonical.formCheck {p : Nat} {x : Xfer} {h : HalfId} {out : Nat} (c : canonical d) : canonical (d.formCheck p x h out).2 := by
  unfold Dev.formCheck
  extract_lets
  split
  · exact c.originCheck
  · split
    · exact c.event
    · split
      · exact c
      · exact c
theorem canonical.targetCheck {p : Nat} {x : Xfer} {out : Nat} (c : canonical d) : canonical (d.targetCheck p x out).2 := by
  unfold Dev.targetCheck
  extract_lets
  split
  · exact c.formCheck
  · split
    · exact c
    · split
      · exact c
      · split
        · exact c.event
        · exact c
theorem canonical.readRows {a n : Nat} {es : List RdErr} (c : canonical d) : canonical (d.readRows a n es).2 := by
  induction n generalizing d a es with
  | zero => exact c
  | succ n ih => exact ih (.ite c.readRow.stackLost c.readRow)
theorem canonical.writeRows {a : Nat} {rs : List (Row × Bool)} (c : canonical d) : canonical (d.writeRows a rs) := by
  induction rs generalizing d a with
  | nil => exact c
  | cons r rs ih => exact ih c.writeRow
theorem canonical.readFar {a : Nat} {e : RdErr} (c : canonical d) : canonical (d.readFar a e).2 := c.readWordR
theorem canonical.serve {p : Nat} {r : RxXfer} {x : Xfer} {out : Nat} {k : Dev → Dev} (c : canonical d) (hk : ∀ d, canonical d → canonical (k d)) :
    canonical (d.serve p r x out k) := by
  unfold Dev.serve
  extract_lets
  split
  · exact c.takeRx.targetCheck.sendResponse
  · exact hk _ c.takeRx.targetCheck.count
theorem canonical.remoteLoad {p out : Nat} {es : List RdErr} (c : canonical d) : canonical (d.remoteLoad p out es) := by
  unfold Dev.remoteLoad
  split
  · exact c
  · exact c.serve (fun _ c => .ite c.readFar.sendResponse c.readRows.sendResponse)
theorem canonical.remoteStore {p out : Nat} (c : canonical d) : canonical (d.remoteStore p out) := by
  unfold Dev.remoteStore
  split
  · exact c
  · exact c.serve (fun _ c => (canonical.ite (.ite c.storePoison c.store) c.writeRows).sendResponse)
theorem canonical.remoteCopy {p out : Nat} {es : List RdErr} (c : canonical d) : canonical (d.remoteCopy p out es) := by
  unfold Dev.remoteCopy
  split
  · exact c
  · exact c.serve (fun _ c => .ite c.readRows.sendResponse c.writeRows.sendResponse)
theorem canonical.remoteAtomic {op p out : Nat} {e : RdErr} (c : canonical d) : canonical (d.remoteAtomic op p out e) := by
  unfold Dev.remoteAtomic
  split
  · exact c
  · exact c.serve (fun _ c => .ite c.readFar.sendResponse c.readFar.store.sendResponse)
theorem canonical.completion {i : List Byte} {mark : Option Nat} {poison : Bool} (c : canonical d) : canonical (d.completion i mark poison) := by
  unfold Dev.completion
  extract_lets _ _ _ f
  have c1 : canonical f.2 := by unfold f; split; exacts [c, c.fresh]
  exact c1.arrive.modRecv
theorem canonical.passOn {i : List Byte} {k : Nat} (c : canonical d) : canonical (d.passOn i k) := by
  unfold Dev.passOn
  extract_lets
  split
  · exact c.modRecv.streamReady
  · exact c
theorem canonical.deliverDue {i : List Byte} {n : Nat} (c : canonical d) : canonical (d.deliverDue i n) := by
  induction n generalizing d with
  | zero => exact c
  | succ n ih =>
    unfold Dev.deliverDue
    extract_lets
    split
    · exact c
    · exact ih (canonical.ite c.modRecv c.modRecv.passOn).completion
theorem canonical.transferDone {i : List Byte} {k : Nat} {mark : Option Nat} {poison : Bool} (c : canonical d) : canonical (d.transferDone i k mark
    poison) :=
  c.modRecv.deliverDue
theorem canonical.setNf {h : HalfId} {layer : Nat} (c : canonical d) : canonical (d.setNf h layer) := c.fset
theorem canonical.redNf {h : HalfId} {layer : Nat} (c : canonical d) : canonical (d.redNf h layer) := .ite c c.event.setNf
theorem canonical.shardPart {h : HalfId} {layer key k : Nat} {sum : List (Option Nat)} (c : canonical d) : canonical (d.shardPart h layer key k sum)
    :=
  (canonical.ite c.redNf c).update
theorem canonical.sheafChunk {h : HalfId} {layer k rank : Nat} {es mine : List (Option Nat)} (c : canonical d) : canonical (d.sheafChunk h layer k
    rank es mine) :=
  .ite c.update.shardPart c.update
theorem canonical.chunk {h : HalfId} {i : List Byte} {k : Nat} {lower : Bool} {rows : List (Row × Bool)} {es : List RdErr} (c : canonical d) :
    canonical (d.chunk h i k lower rows es) := by
  unfold Dev.chunk
  extract_lets
  split
  · exact c.writeRows.transferDone
  · exact (canonical.ite c.readRows.modRecv (.ite c.readRows.sheafChunk c.readRows.shardPart)).transferDone
theorem canonical.refuseStream {r : RxXfer} {x : Xfer} {st : Nat} (c : canonical d) : canonical (d.refuseStream r x st) := .ite c c.sendResponse
theorem canonical.newReplay {i : List Byte} {k : Nat} {p : PassId} (c : canonical d) : canonical (d.newReplay i k p) := by
  unfold Dev.newReplay
  extract_lets
  split
  · exact .ite c (.ite c.modRecv c.modRecv)
  · exact c.modRecv
theorem canonical.passArrival {i : List Byte} {p : PassId} (c : canonical d) : canonical (d.passArrival i p) := c.modRecv
theorem canonical.streamTransfer {p k : Nat} {of_ : PassId} {add : Bool} {es : List RdErr} (c : canonical d) : canonical (d.streamTransfer p k of_
    add es) := by
  unfold Dev.streamTransfer
  extract_lets
  split
  · exact c
  · extract_lets o d1
    have co : canonical o.2 := by unfold o; split; exacts [c, c.originCheck]
    have c1 : canonical d1 := co.takeRx
    split
    · split
      · exact c
      · split
        · exact c1.refuseStream
        · exact c1.event.refuseStream
    · extract_lets d2 d3
      have c3 : canonical d3 := .ite c1.newReplay.count c1.newReplay
      split
      · exact c
      · split
        · exact c1.refuseStream
        · exact .ite c1.refuseStream (.ite c1 (.ite c3.transferDone c3.passArrival.chunk))
theorem canonical.sendVotes {p tick n : Nat} {es : List VoteEntry} (c : canonical d) : canonical (d.sendVotes p tick n es) := by
  induction n generalizing d es with
  | zero => exact c
  | succ n ih => exact .ite c (.ite c.sendFrame (ih c.sendFrame))
theorem canonical.spreadResults {es : List VoteEntry} (c : canonical d) : canonical (d.spreadResults es) :=
  .ite c (.foldl (fun _ _ c => c.sendVotes) c.update)
theorem canonical.accumulate {es : List VoteEntry} (c : canonical d) : canonical (d.accumulate es) := c.update.spreadResults
theorem canonical.voteWave (c : canonical d) : canonical d.voteWave := .ite c (.ite c.update.accumulate c.update.update)
theorem canonical.joinWave {p xfer : Nat} {last : Bool} {cs : List VoteEntry} (c : canonical d) : canonical (d.joinWave p xfer last cs) := by
  unfold Dev.joinWave
  extract_lets _ _ _ _ _ d1
  have c1 : canonical d1 := .ite c.update c.update
  exact .ite c.update (.ite c1.event c1)
theorem canonical.voteFrame {p xfer : Nat} {last : Bool} {es : List VoteEntry} (c : canonical d) : canonical (d.voteFrame p xfer last es) := by
  unfold Dev.voteFrame
  extract_lets d1
  have c1 : canonical d1 := c.spreadResults
  exact .ite c (.ite c1 (.ite c1.accumulate c1.joinWave))
theorem canonical.voteWaveSend (c : canonical d) : canonical d.voteWaveSend := by
  unfold Dev.voteWaveSend
  extract_lets
  split
  · exact c
  · exact .ite c c.update.sendVotes

/-! ### InForce -/

theorem canonical.dropUnits {h : HalfId} (c : canonical d) : canonical (d.dropUnits h) := by
  unfold Dev.dropUnits
  extract_lets _ d1 d2
  have c1 : canonical d1 := by
    unfold d1
    refine .foldl (fun _ _ c => ?_) c
    split
    · exact c
    · split
      · exact .ite c.fieldGone (.ite c.fset.fset c)
      · exact c
  have c2 : canonical d2 := .foldl (fun _ _ c => .ite c c.fset) c1
  exact c2.update
theorem canonical.forceConfig {h : HalfId} {b : List Byte} {n : Nat} (c : canonical d) : canonical (d.forceConfig h b n) :=
  .foldl (fun _ _ c => c.setSlot.fieldTake) c.dropUnits.update
theorem canonical.resetTo {h : HalfId} {n : Nat} (c : canonical d) : canonical (d.resetTo h n) := by
  unfold Dev.resetTo
  split
  · exact c.dropUnits
  · exact c.forceConfig.setImage

/-! ### StepData -/

theorem canonical.setLayerBit {f : Fld} {add l : Nat} (c : canonical d) : canonical (d.setLayerBit f add l) := c.fset
theorem canonical.meet {es : List (Nat × RdErr)} (c : canonical d) : canonical (d.meet es) := .foldl (fun _ _ c => c.readWordR) c
theorem canonical.countRange {a n : Nat} {wr : Bool} {es : List (Nat × RdErr)} (c : canonical d) : canonical (d.countRange a n wr es) :=
  .foldl (fun _ _ c => c.countStk) c
theorem canonical.rangeRead {a n : Nat} {es : List (Nat × RdErr)} (c : canonical d) : canonical (d.rangeRead a n es) :=
  .foldl (fun _ _ c => .ite c.event c) c.countRange

/-! ### Escrow -/

theorem canonical.setSlotState {i : List Byte} {st : Nat} (c : canonical d) : canonical (d.setSlotState i st) :=
  canonical_mem c (memWf_memPut _ _ c.2.1) c.2.2
theorem canonical.adoptSlot {i : List Byte} (c : canonical d) : canonical (d.adoptSlot i) := c.update.setSlotState
theorem canonical.adoptParity {k : Nat} (c : canonical d) : canonical (d.adoptParity k) := c.update
theorem canonical.adoptAll {h : HalfId} {owner : Option Nat} {step : Nat} {mirroring : Bool} (c : canonical d) : canonical (d.adoptAll h owner step
    mirroring) :=
  .foldl (fun _ _ c => c.adoptParity) (canonical.foldl (fun _ _ c => .ite c.adoptSlot (.ite c.store c)) c)
theorem canonical.dropPending {h : HalfId} {owner : Option Nat} (c : canonical d) : canonical (d.dropPending h owner) :=
  (canonical.foldl (fun _ _ c => c.setSlotState) c).update
theorem canonical.mirrorFail {h : HalfId} {st : Nat} (c : canonical d) : canonical (d.mirrorFail h st) := c.event.modRun
theorem canonical.pushEscrow {h : HalfId} {target what off tensor : Nat} {rows : List (Row × Bool)} (c : canonical d) : canonical (d.pushEscrow h
    target what off tensor rows) := by
  unfold Dev.pushEscrow
  extract_lets
  split
  · exact c.issue.modRun
  · exact c.issue.mirrorFail
theorem canonical.mirrorTensor {h : HalfId} {i : List Byte} {a step : Nat} {es : List (Nat × RdErr)} (c : canonical d) : canonical (d.mirrorTensor h
    i a step es) :=
  c.rangeRead.meet.pushEscrow.pushEscrow.pushEscrow.update.count
theorem canonical.tellHolders {h : HalfId} {adopt mirroring : Bool} {step : Nat} (c : canonical d) : canonical (d.tellHolders h adopt mirroring step)
    :=
  .foldl (fun _ _ c => c.sendXfer) c
theorem canonical.holderTold {p : Nat} {x : Xfer} (c : canonical d) : canonical (d.holderTold p x) :=
  .ite c.originCheck (.ite c.originCheck.adoptAll c.originCheck.dropPending)
theorem canonical.writeSnapshot {h : HalfId} {units : List (List Byte)} (c : canonical d) : canonical (d.writeSnapshot h units) := by
  unfold Dev.writeSnapshot
  split
  · exact .ite c (.foldl (fun _ _ c => c.poke.countRange) c)
  · exact c
theorem canonical.pushUnit {h : HalfId} {u : Nat} {full : Bool} {b : List Byte} (c : canonical d) : canonical (d.pushUnit h u full b) :=
  c.pushEscrow.count
theorem canonical.sendDeltas {h : HalfId} (c : canonical d) : canonical (d.sendDeltas h) := .foldl (fun _ _ c => .ite c c.pushUnit) c
theorem canonical.sendAllUnits {h : HalfId} {units : List (List Byte)} (c : canonical d) : canonical (d.sendAllUnits h units) := by
  unfold Dev.sendAllUnits
  split
  · exact c
  · exact .foldl (fun _ _ c => c.pushUnit) c
theorem canonical.voteBaseline {h : HalfId} (c : canonical d) : canonical (d.voteBaseline h) := by
  unfold Dev.voteBaseline
  extract_lets
  split
  · exact c
  · exact c.contribute.modRun
theorem canonical.baseline {h : HalfId} {es : List (Nat × RdErr)} (c : canonical d) : canonical (d.baseline h es) := by
  unfold Dev.baseline
  extract_lets _ _ _ d1 d2
  have c1 : canonical d1 := .foldl (fun _ _ c => c.mirrorTensor) c.modRun
  have c2 : canonical d2 := c1.sendAllUnits.writeSnapshot
  split
  · exact c
  · exact .ite c (.ite c2.voteBaseline c2)
theorem canonical.setPhase {h : HalfId} {n : Nat} (c : canonical d) : canonical (d.setPhase h n) := .ite c.fset.traceRec c
theorem canonical.mirror {h : HalfId} {k : Nat} {es : List (Nat × RdErr)} (c : canonical d) : canonical (d.mirror h k es) := by
  unfold Dev.mirror
  extract_lets
  split
  · exact c
  · split
    · exact c
    · split
      · exact .ite c.modRun.setPhase.meet.sendDeltas c
      · split
        · exact .ite c c.modRun.setPhase.mirrorTensor
        · exact c
theorem canonical.escrowTransfer {p out : Nat} {es : List RdErr} (c : canonical d) : canonical (d.escrowTransfer p out es) := by
  unfold Dev.escrowTransfer
  split
  · exact c
  · extract_lets
    split
    · exact c
    · split
      · exact c.takeRx.holderTold
      · split
        · exact c.takeRx.sendResponse
        · extract_lets _ _ d1 _ _ d2
          have c1 : canonical d1 := c.takeRx.formCheck
          have c2 : canonical d2 := c1.count.writeRows
          split
          · exact c.takeRx.formCheck.sendResponse
          · exact .ite c1.sendResponse (.ite c1.sendResponse (.ite c1.count.readRows.sendResponse (.ite c2.setSlotState.sendResponse
              c2.sendResponse)))
theorem canonical.parityDelta {p out : Nat} (c : canonical d) : canonical (d.parityDelta p out) := by
  unfold Dev.parityDelta
  split
  · exact c
  · extract_lets _ _ _ _ _ d1
    have c1 : canonical d1 := c.takeRx.formCheck
    split
    · exact c
    · split
      · exact c.takeRx.sendResponse
      · extract_lets _ d2 _ _ d3 _ d4 _ d5
        have c2 : canonical d2 := .ite c1.count c1.count.store
        have c3 : canonical d3 := c2.update.adoptParity
        have c4 : canonical d4 := .ite c3.update c2.update
        have c5 : canonical d5 := .ite c1.count c1.count.store.update
        split
        · exact c.takeRx.formCheck.sendResponse
        · exact .ite c1.sendResponse (.ite c4.sendResponse c5.store.sendResponse)

/-! ### Update -/

theorem canonical.schedAppend {h : HalfId} {seq : Nat} {es : List RdErr} (c : canonical d) : canonical (d.schedAppend h seq es) := by
  unfold Dev.schedAppend
  refine c.begin fun _ _ c => ?_
  extract_lets
  split
  · exact c.readRows.finish
  · split
    · exact c.readRows.finish
    · exact c.readRows.modStep.finish
theorem canonical.holdScope {h : HalfId} {v : Bool} (c : canonical d) : canonical (d.holdScope h v) := .ite c.setHeld c.update
theorem canonical.failAttempt {h : HalfId} {st : Nat} {layer : Option Nat} (c : canonical d) : canonical (d.failAttempt h st layer) := by
  unfold Dev.failAttempt
  split
  · exact c
  · exact c.modRun.holdScope
theorem canonical.deliverOwn {h : HalfId} {l : Nat} {x : Shard} {own : Option Nat} (c : canonical d) : canonical (d.deliverOwn h l x own) := by
  unfold Dev.deliverOwn
  extract_lets
  split
  · exact c
  · exact .ite c (canonical.ite c.redNf c).update
theorem canonical.layerUpdated {h : HalfId} {l : Nat} (c : canonical d) : canonical (d.layerUpdated h l) := by
  unfold Dev.layerUpdated
  extract_lets _ _ _ _ d1
  have c1 : canonical d1 := c.modRun.update
  exact .ite c1.setLayerBit.modEntry c1
theorem canonical.keepOld {h : HalfId} {l : Nat} (c : canonical d) : canonical (d.keepOld h l) := .ite c c.modRun
theorem canonical.copyIngot {src dst : Nat} (c : canonical d) : canonical (d.copyIngot src dst) := by
  unfold Dev.copyIngot
  extract_lets _ cs _ d1 d2
  have c1 : canonical d1 := c.rangeRead.zeroRange
  have c2 : canonical d2 := canonical_mem c1 (memWf_foldl (fun _ _ w => memWf_memPut _ _ w) c1.2.1) c1.2.2
  exact (canonical.foldl (fun _ _ c => c.pokePoison) c2).countRange
theorem canonical.copyHeader {h : HalfId} {i : List Byte} {l : Nat} (c : canonical d) : canonical (d.copyHeader h i l) := .ite c.copyIngot c
theorem canonical.updateDispatch {h : HalfId} {l : Nat} {own : Option Nat} (c : canonical d) : canonical (d.updateDispatch h l own) := by
  unfold Dev.updateDispatch
  extract_lets
  split
  · extract_lets _ _ d1
    have c1 : canonical d1 := .ite c.deliverOwn.keepOld.copyHeader c.deliverOwn
    split
    · exact c
    · split
      · exact c.deliverOwn
      · split
        · exact c.deliverOwn.keepOld.copyHeader.setPhase.layerUpdated
        · split
          · exact c.deliverOwn
          · split
            · exact c.deliverOwn
            · exact c1.setPhase.fset.fset.update
  · exact c
theorem canonical.storeElems {w a : Nat} {vs : List (Option Nat)} (c : canonical d) : canonical (d.storeElems w a vs) := by
  unfold Dev.storeElems
  refine .foldl (fun _ _ c => ?_) c
  extract_lets
  split
  · exact c.poke
  · exact c.pokePoison
theorem canonical.updateDone {g : Nat} {es : List (Nat × RdErr)} (c : canonical d) : canonical (d.updateDone g es) := by
  unfold Dev.updateDone
  extract_lets _ _ d0
  split
  · exact c
  · split
    · extract_lets src dst x d1 d2 n r0 low lo hi cols grad m w la pa prec l p poison seed step out touch d3 d4 d5 d6 elems macs d7 k done _ d8 d9
        d10 d11
      have touched {e : Dev} {base : Nat} {wr : Bool} (c : canonical e) : canonical (touch e base wr) := by
        unfold touch
        extract_lets one e1
        have c1 {e : Dev} {a k : Nat} (c : canonical e) : canonical (one e a k) := .ite c.countRange c.rangeRead
        exact c1 (.foldl (fun _ _ c => c1 (c1 c)) c)
      have c2 : canonical d2 := c.update.fset.meet
      have c4 : canonical d4 := .ite (touched c2).rangeRead (touched c2)
      have c5 : canonical d5 := .foldl (fun _ _ c => c.storeElems.storeElems) c4
      have c8 : canonical d8 := (touched c5.storeElems).count.count.update
      have c9 : canonical d9 := .ite c8.event.setNf c8
      have c10 : canonical d10 := .ite c9.event.setNf c9
      have c11 : canonical d11 := .ite c10.layerUpdated c10
      exact .ite c11.failAttempt (.ite c11.failAttempt c11)
    · exact c.update.fset

/-! ### Feed -/

theorem canonical.disarm (c : canonical d) : canonical d.disarm := c.fset.update
theorem canonical.setCursor {ws : List Nat} (c : canonical d) : canonical (d.setCursor ws) := .foldl (fun _ _ c => c.fset) c
theorem canonical.arm {w : Who} {es : List RdErr} {heads : List (Option (List Byte))} (c : canonical d) : canonical (d.arm w es heads) := by
  unfold Dev.arm
  extract_lets _ _ _ _ _ d1
  have c1 : canonical d1 := .ite c.readWords c.readWords.setCursor
  split
  · exact c
  · split
    · exact c.readWords.disarm.fset
    · exact c1.fset.fset.update
theorem canonical.nvmeIssue {cf : NvmeCmd} (c : canonical d) : canonical (d.nvmeIssue cf) := c.update.emit
theorem canonical.writeRecord {j : FeedJob} {m : Nat} {rec : List Byte} {bad : List Nat} (c : canonical d) : canonical (d.writeRecord j m rec bad) :=
    by
  unfold Dev.writeRecord
  extract_lets
  split
  · exact c
  · exact (canonical.ite c.event c).storeElems.countRange
theorem canonical.ingestDone {m : Nat} (c : canonical d) : canonical (d.ingestDone m) := .ite c.update.fset.fset c.update
theorem canonical.ingestFail {st : Nat} (c : canonical d) : canonical (d.ingestFail st) := c.update.fset.fset.failAttempt
theorem canonical.startIngest {h : HalfId} {host : List (Option (List Byte))} (c : canonical d) : canonical (d.startIngest h host) := by
  unfold Dev.startIngest
  extract_lets
  split
  · exact c.failAttempt
  · extract_lets _ _ d1
    have c1 : canonical d1 := c.fset.fset.fset
    refine .foldl (fun _ _ c => ?_) c1.update
    split
    · exact c
    · split
      · exact c.ingestDone
      · split
        · split
          · exact c.writeRecord.ingestDone
          · exact c.ingestFail
        · exact c.nvmeIssue
theorem canonical.ckptIssue {i : Nat} (c : canonical d) : canonical (d.ckptIssue i) := by
  unfold Dev.ckptIssue
  split
  · exact c
  · exact c.nvmeIssue
theorem canonical.ckptStop {st : Nat} (c : canonical d) : canonical (d.ckptStop st) := by
  unfold Dev.ckptStop
  extract_lets _ _ d1
  have c1 : canonical d1 := c.fset.fset.update
  exact .ite c1.fset c1.event.fset
theorem canonical.ckptStart {v : Nat} (c : canonical d) : canonical (d.ckptStart v) := by
  unfold Dev.ckptStart
  extract_lets _ _ d1
  have c1 : canonical d1 := c.fset.fset.fset
  split
  · exact c.fset.ckptStop
  · exact .ite c.fset.fset.ckptStop c1.update.ckptIssue
theorem canonical.ckptEnd {st : Nat} (c : canonical d) : canonical (d.ckptEnd st) := by
  unfold Dev.ckptEnd
  extract_lets
  split
  · exact c.ckptStop
  · exact c.ckptStop.update.ckptStart
theorem canonical.ckptGo {w : Who} {v : Nat} {clearing : Bool} (c : canonical d) : canonical (d.ckptGo w v clearing) := by
  unfold Dev.ckptGo
  extract_lets d1
  have c1 : canonical d1 := c.fset.fset.fset
  exact .ite c (.ite (.ite c1.update c1) c1.ckptStart)
theorem canonical.ckptDone {ok : Bool} (c : canonical d) : canonical (d.ckptDone ok) := by
  unfold Dev.ckptDone
  split
  · exact c
  · extract_lets d1
    have c1 : canonical d1 := .ite c c.emit
    exact .ite c (.ite c1.fset.ckptEnd c1.event.ckptEnd)
theorem canonical.nvmeFail {id st : Nat} (c : canonical d) : canonical (d.nvmeFail id st) := by
  unfold Dev.nvmeFail
  extract_lets
  split
  · exact c
  · exact .ite c.update.emit (.ite c.update.event.ingestFail c.update.event.ckptEnd)
theorem canonical.nvmeCompletion {id : Nat} {ok : Bool} {data : List Byte} {bad : List Nat} {es : List RdErr} (c : canonical d) : canonical
    (d.nvmeCompletion id ok data bad es) := by
  unfold Dev.nvmeCompletion
  extract_lets
  split
  · exact c
  · split
    · exact c.nvmeFail
    · split
      · split
        · exact c.update.writeRecord.ingestDone
        · exact c.update
      · split
        · exact c.update
        · extract_lets _ d1
          have c1 : canonical d1 := .ite c.update.storeElems.countRange c.update.readRows
          exact .ite c1.count.ckptIssue c1.count
theorem canonical.bar2Access {wr : Bool} {off n : Nat} {data : List Byte} {ep : Bool} {es : List RdErr} (c : canonical d) : canonical (d.bar2Access
    wr off n data ep es) :=
  .ite c (.ite (.ite c.event c.event.emit) (.ite c.storeElems.countRange c.readWords.emit))
theorem canonical.feedLinkUp {link : Nat} {flit : Bool} {ns : List (Nat × Nat × Nat × Bool)} (c : canonical d) : canonical (d.feedLinkUp link flit
    ns) := by
  unfold Dev.feedLinkUp
  extract_lets _ _ _ _ d1 d2
  have c1 : canonical d1 := c.fsetB.fset.update
  have c2 : canonical d2 := .ite c1.event c1
  exact .ite c1 c2.update.fset
theorem canonical.feedLinkDown {link : Nat} {lost : List Nat} (c : canonical d) : canonical (d.feedLinkDown link lost) :=
  .ite c c.event.fset.fsetB.update.fset

/-! ### Strongbox -/

theorem canonical.sbProgram {r : SbRec} (c : canonical d) : canonical (d.sbProgram r) := by
  unfold Dev.sbProgram
  exact .ite c.update.fset.fset c.update.fset
theorem canonical.strongboxWrite (c : canonical d) : canonical d.strongboxWrite := by
  unfold Dev.strongboxWrite
  extract_lets
  split
  · exact c
  · split
    · exact c.update.sbProgram
    · split
      · exact c
      · exact c.update.sbProgram
theorem canonical.sectorEraseDone (c : canonical d) : canonical d.sectorEraseDone := .ite c c.fset.update
theorem canonical.sbTear (c : canonical d) : canonical d.sbTear := c.update
theorem canonical.sbScan (c : canonical d) : canonical d.sbScan := by
  unfold Dev.sbScan
  extract_lets _ d1
  have c1 : canonical d1 := .foldl (fun _ _ c => .ite c.mbxEvent c) c.fset
  exact .ite c1.fset c1

/-! ### Session -/

theorem canonical.sessionRefused (c : canonical d) : canonical d.sessionRefused := c.event.mbxEvent.sbLog
theorem canonical.handshakeFails {addr : Nat} (c : canonical d) : canonical (d.handshakeFails addr) := by
  unfold Dev.handshakeFails
  extract_lets _ d1
  have c1 : canonical d1 := c.sessionRefused
  exact .ite c1.update c1.update
theorem canonical.sessionOpen {addr : Nat} {role : Option Who} (c : canonical d) : canonical (d.sessionOpen addr role) := by
  unfold Dev.sessionOpen
  extract_lets
  split
  · exact c
  · split
    · exact c.handshakeFails
    · exact .ite c.handshakeFails (.ite c.mbxEvent.emit c.update)
theorem canonical.addrAgain {addr : Nat} (c : canonical d) : canonical (d.addrAgain addr) := c.update
theorem canonical.traceLocked (c : canonical d) : canonical d.traceLocked := .ite c c.fset
theorem canonical.endUnlocks {p : Option Nat → Bool} (c : canonical d) : canonical (d.endUnlocks p) := by
  unfold Dev.endUnlocks
  extract_lets _ _ _ _ d1 _ _ d2
  have c1 : canonical d1 := .ite c.fset.update c
  have c2 : canonical d2 := .ite c1.fset.update c1
  exact (canonical.ite c2.sbLog c2).traceLocked
theorem canonical.sessionClose {id : Nat} (c : canonical d) : canonical (d.sessionClose id) := .ite c c.update.endUnlocks
theorem canonical.closeRoles {p : Who → Bool} (c : canonical d) : canonical (d.closeRoles p) := .foldl (fun _ _ c => c.sessionClose) c
theorem canonical.msgError {id : Nat} {m : MsgHdr} {st : Nat} (c : canonical d) : canonical (d.msgError id m st) := c.mbxEvent.sendMsg
theorem canonical.message {id : Nat} {m : MsgHdr} {roleOk : Who → Bool} {countOk : Bool} {k : Dev → Session → Dev} (c : canonical d) (hk : ∀ d x,
    canonical d → canonical (k d x)) : canonical (d.message id m roleOk countOk k) := by
  unfold Dev.message
  extract_lets
  split
  · exact c
  · split
    · exact c
    · exact .ite c.mbxEvent.sessionClose (.ite c.update.msgError (.ite c.update.msgError (.ite c.update.msgError (.ite c.update.msgError (hk _ _
        c.update)))))
theorem canonical.submission {src id : Nat} {m : MsgHdr} {desc : Row} (c : canonical d) : canonical (d.submission src id m desc) := by
  unfold Dev.submission
  split
  · exact c.commandSubmit
  · split
    · exact c
    · refine c.message fun _ _ c => ?_
      split
      · exact c.enqueue
      · exact c
theorem canonical.regRead {id : Nat} {m : MsgHdr} {as : List Nat} (c : canonical d) : canonical (d.regRead id m as) :=
  c.message (fun _ _ c => (canonical.foldl (fun _ _ c => .ite c.accessError c) c).sendMsg)
theorem canonical.sessionWrite {w : Who} {a v : Nat} (c : canonical d) : canonical (d.sessionWrite w a v).2 := by
  unfold Dev.sessionWrite
  split
  · exact c
  · split
    · exact c.accessError
    · split
      · exact c
      · exact c.plainWrite
theorem canonical.regWrite {id : Nat} {m : MsgHdr} {ps : List (Nat × Nat)} (c : canonical d) : canonical (d.regWrite id m ps) := by
  refine c.message fun _ _ c => ?_
  extract_lets r
  have cr : canonical r.2 := .foldlOn Prod.snd (fun _ _ c => c.sessionWrite) c
  exact cr.sendMsg
theorem canonical.ledgerRead {id : Nat} {m : MsgHdr} {first n : Nat} (c : canonical d) : canonical (d.ledgerRead id m first n) :=
  c.message (fun _ _ c => c.sendMsg)
theorem canonical.telemetry {id : Nat} {m : MsgHdr} {period : Nat} (c : canonical d) : canonical (d.telemetry id m period) :=
  c.message (fun _ _ c => c.update.sendMsg)
theorem canonical.telemetryReport {id : Nat} (c : canonical d) : canonical (d.telemetryReport id) := by
  unfold Dev.telemetryReport
  split
  · exact c
  · exact .ite c c.sendMsg
theorem canonical.strongboxRead {id : Nat} {m : MsgHdr} {first n : Nat} (c : canonical d) : canonical (d.strongboxRead id m first n) :=
  c.message (fun _ _ c => c.sendMsg)
theorem canonical.traceRead {id : Nat} {m : MsgHdr} {first n : Nat} (c : canonical d) : canonical (d.traceRead id m first n) :=
  c.message (fun _ _ c => c.sendMsg)

/-! ### Security -/

theorem canonical.beginLicence {h : HalfId} {seq kind : Nat} {k : Dev → Entry → Dev} (c : canonical d) (hk : ∀ d x, canonical d → canonical (k d x))
    : canonical (d.beginLicence h seq kind k) := by
  unfold Dev.beginLicence
  split
  · exact c
  · exact .ite (c.begin (fun _ _ c => hk _ _ c)) c
theorem canonical.licenceRefused {h : HalfId} {seq st : Nat} (c : canonical d) : canonical (d.licenceRefused h seq st) := c.event.sbLog.finish
theorem canonical.licenceInstall {h : HalfId} {seq : Nat} {sigOk : Bool} (c : canonical d) : canonical (d.licenceInstall h seq sigOk) := by
  unfold Dev.licenceInstall
  refine c.beginLicence fun _ _ c => ?_
  extract_lets _ _ _ _ _ _ _ _ d1
  have c1 : canonical d1 := c.update.fset.fset
  split
  · exact c.licenceRefused
  · exact c1.sbLog.finish
theorem canonical.provision {h : HalfId} {seq : Nat} {sigOk : Bool} (c : canonical d) : canonical (d.provision h seq sigOk) := by
  unfold Dev.provision
  refine c.beginLicence fun _ _ c => ?_
  extract_lets _ _ _ _ _ _ d1
  have c1 : canonical d1 := c.update.fset.closeRoles
  split
  · exact c.licenceRefused
  · exact c1.endUnlocks.sbLog.finish
theorem canonical.attemptEnds {st : Nat} (c : canonical d) : canonical (d.attemptEnds st) := by
  unfold Dev.attemptEnds
  extract_lets d1 d2 _ _ _ d3
  have c1 : canonical d1 := .foldl (fun _ _ c => c.fset) c
  have c2 : canonical d2 := .foldl (fun _ _ c => c.fset) c1
  have c3 : canonical d3 := c2.fset.event.sbLog
  exact .ite c2.fset.fset.update.event.sbLog (.ite c3 c3.count.update)
theorem canonical.lockedOut (c : canonical d) : canonical d.lockedOut := c.endUnlocks.fresh.attemptEnds
theorem canonical.profReq {id : Nat} {lock : Bool} (c : canonical d) : canonical (d.profReq id lock) :=
  .ite c (.ite c.lockedOut (.ite c.attemptEnds (.ite c.fset.update.attemptEnds c.attemptEnds)))
theorem canonical.debugReq {id : Nat} {lock sigOk : Bool} (c : canonical d) : canonical (d.debugReq id lock sigOk) :=
  .ite c (.ite c.fset.lockedOut (.ite c.fset.attemptEnds (.ite c.fset.attemptEnds (.ite c.fset.fset.update.attemptEnds c.fset.attemptEnds))))
theorem canonical.nonceReq {id : Nat} (c : canonical d) : canonical (d.nonceReq id) := .ite c (canonical.foldl (fun _ _ c => c.fset) c.fresh).fset
theorem canonical.nonceExpired (c : canonical d) : canonical d.nonceExpired := c.fset
theorem canonical.lockCmd {id : Nat} (c : canonical d) : canonical (d.lockCmd id) := .ite c.endUnlocks c
theorem canonical.unlockWaitExpired (c : canonical d) : canonical d.unlockWaitExpired := c.update
theorem canonical.setTenant {h : HalfId} {st tag : Nat} (c : canonical d) : canonical (d.setTenant h st tag) := c.fset.fset
theorem canonical.setOwner {s : Scope} {st tag : Nat} {root : List Byte} (c : canonical d) : canonical (d.setOwner s st tag root) :=
  (canonical.foldl (fun _ _ c => c.setTenant) c).update
theorem canonical.joinHalves (c : canonical d) : canonical d.joinHalves := .ite c.fset c
theorem canonical.beginTenant {h : HalfId} {seq action : Nat} {k : Dev → Entry → Dev} (c : canonical d) (hk : ∀ d x, canonical d → canonical (k d x))
    : canonical (d.beginTenant h seq action k) := by
  unfold Dev.beginTenant
  split
  · exact c
  · exact .ite (c.begin (fun _ _ c => hk _ _ c)) c
theorem canonical.tenantAssign {h : HalfId} {seq : Nat} (c : canonical d) : canonical (d.tenantAssign h seq) := by
  unfold Dev.tenantAssign
  refine c.beginTenant fun _ _ c => ?_
  extract_lets _ _ d1
  have c1 : canonical d1 := c.finish.setOwner
  split
  · exact c.finish
  · exact c1.fset.sbLog
theorem canonical.tenantRelease {h : HalfId} {seq : Nat} (c : canonical d) : canonical (d.tenantRelease h seq) :=
  c.beginTenant (fun _ _ c => .ite c.finish c.finish.closeRoles.setOwner.sbLog)
theorem canonical.quoteOut {nonce : List Byte} {tag : Nat} {west : Bool} (c : canonical d) : canonical (d.quoteOut nonce tag west) := c.fresh.emit
theorem canonical.quote {h : HalfId} {seq : Nat} (c : canonical d) : canonical (d.quote h seq) :=
  c.begin (fun _ _ c => c.quoteOut.fresh.fresh.store.setResult.finish)
theorem canonical.spdm {id : Nat} {m : MsgHdr} {code : Nat} {nonce : List Byte} (c : canonical d) : canonical (d.spdm id m code nonce) :=
  c.message (fun _ _ c => (canonical.ite c.quoteOut c).fresh.sendMsg)
theorem canonical.bundleFails {i st : Nat} (c : canonical d) : canonical (d.bundleFails i st) := c.fset.fset.fset.update
theorem canonical.bundleStart {i : Nat} {unwrapOk : Bool} {es : List RdErr} (c : canonical d) : canonical (d.bundleStart i unwrapOk es) := by
  unfold Dev.bundleStart
  extract_lets _ _ _ _ _ _ _ _ _ _ _ d1
  have c1 : canonical d1 := c.fset.readWords
  split
  · exact c.fset.event.bundleFails
  · split
    · exact c.fset.event.bundleFails
    · split
      · exact c1.event.bundleFails
      · split
        · exact c1.event.bundleFails
        · split
          · exact c1.event.bundleFails
          · split
            · exact .ite c1.event.bundleFails c1.fset.fset.update
            · exact c1.event.bundleFails
theorem canonical.bundleGo {i : Nat} {w : Who} {unwrapOk : Bool} {es : List RdErr} {clearing : Bool} (c : canonical d) : canonical (d.bundleGo i w
    unwrapOk es clearing) :=
  .ite c (.ite (.ite c.update c) c.bundleStart)
theorem canonical.bundleNext {i : Nat} (c : canonical d) : canonical (d.bundleNext i) := by
  unfold Dev.bundleNext
  extract_lets
  split
  · exact c
  · exact c.update.bundleStart
theorem canonical.bundleDone {i : Nat} {tagOk : Bool} {plain : List Byte} (c : canonical d) : canonical (d.bundleDone i tagOk plain) := by
  unfold Dev.bundleDone
  extract_lets
  split
  · exact c
  · extract_lets _ _ _ d1
    have c1 : canonical d1 := c.store.fset.update
    exact .ite c1.fset.fset.fset.bundleNext c.store.fset.store.event.bundleFails.bundleNext
theorem canonical.endBundles {s : Scope} (c : canonical d) : canonical (d.endBundles s) := .foldl (fun _ _ c => .ite c.update.bundleFails c) c

/-! ### TrainStep -/

theorem canonical.dropResult {tag id : Nat} (c : canonical d) : canonical (d.dropResult tag id) := c.update
theorem canonical.dropFaults {h : HalfId} (c : canonical d) : canonical (d.dropFaults h) := c.update
theorem canonical.sendLoss {h : HalfId} {lost : Option Nat} (c : canonical d) : canonical (d.sendLoss h lost) := c.emit
theorem canonical.readHeaders {h : HalfId} {es : List (Nat × RdErr)} (c : canonical d) : canonical (d.readHeaders h es) := by
  unfold Dev.readHeaders
  refine .foldl (fun _ _ c => ?_) c
  split
  · exact c.rangeRead
  · exact c
theorem canonical.run {h : HalfId} {seq : Nat} {peers : List Peer} {es : List (Nat × RdErr)} (c : canonical d) : canonical (d.run h seq peers es) :=
    by
  unfold Dev.run
  refine c.begin fun _ _ c => ?_
  extract_lets d1 _ _ _ d2
  have c1 : canonical d1 := c.readHeaders.meet
  have c2 : canonical d2 := c1.modStep.setScope.holdScope
  split
  · exact c1.finish
  · exact .ite c2.fset.fset c2.fset.fset.voteBaseline
theorem canonical.idleSnapshot {idle0 : List Nat} (c : canonical d) : canonical (d.idleSnapshot idle0) := .foldl (fun _ _ c => c.fset) c
theorem canonical.drainUpdates {h : HalfId} {n : Nat} (c : canonical d) : canonical (d.drainUpdates h n) := by
  induction n generalizing d with
  | zero => exact c
  | succ n ih =>
    unfold Dev.drainUpdates
    extract_lets
    split
    · exact ih c.updateDone
    · split
      · exact c
      · split
        · exact ih c.updateDispatch
        · exact c
theorem canonical.clearUpdates {h : HalfId} (c : canonical d) : canonical (d.clearUpdates h) := c.fset.update
theorem canonical.endAttempt {h : HalfId} {st : Nat} {unknown : Bool} (c : canonical d) : canonical (d.endAttempt h st unknown) := by
  unfold Dev.endAttempt
  extract_lets d1
  have c1 : canonical d1 := c.drainUpdates.clearUpdates
  split
  · exact c
  · split
    · exact c1
    · extract_lets _ _ d2 d3 _ d4 d5 d6 d7
      have c2 : canonical d2 := .ite (.foldl (fun _ _ c => c.setLayerBit.modEntry) c1.modEntry) c1.modEntry
      have c3 : canonical d3 := .foldl (fun _ _ c => c.endEntry) c2
      have c4 : canonical d4 := c3.fset.fset.fset
      have c5 : canonical d5 := .ite c4.event c4
      have c6 : canonical d6 := .ite c5 c5.sbLog
      have c7 : canonical d7 := c6.idleSnapshot.dropFaults
      exact c7.update.modRun.holdScope
theorem canonical.endRun {h : HalfId} {st : Nat} (c : canonical d) : canonical (d.endRun h st) := by
  unfold Dev.endRun
  split
  · exact c
  · extract_lets d1 d2 d3 d4
    have c1 : canonical d1 := .ite c.resetTo c
    have c2 : canonical d2 := c1.modEntry.finish
    have c3 : canonical d3 := by unfold d3; split; exacts [c2.finish, c2]
    have c4 : canonical d4 := by unfold d4; split; exacts [c3.finish, c3]
    exact c4.modStep.setScope.holdScope.fset
theorem canonical.attemptFails {h : HalfId} {st : Nat} {moved : Bool} (c : canonical d) : canonical (d.attemptFails h st moved) := by
  unfold Dev.attemptFails
  extract_lets _ _ _ d1 _ _ d2
  have c1 : canonical d1 := c.endAttempt.tellHolders
  have c2 : canonical d2 := c1.modRun.endRun
  split
  · exact c
  · exact .ite (.ite c2.sendLoss c2) (.ite c1.modRun.endRun c1.modRun)
theorem canonical.baselineVote {h : HalfId} (c : canonical d) : canonical (d.baselineVote h) := by
  unfold Dev.baselineVote
  extract_lets
  split
  · exact c
  · split
    · exact c
    · exact .ite c.dropResult.endRun c.dropResult.modRun.fset
theorem canonical.attemptStart {h : HalfId} (c : canonical d) : canonical (d.attemptStart h) := by
  unfold Dev.attemptStart
  extract_lets
  split
  · exact c
  · extract_lets d1 d2 d3 _ _ _ _ _ _ _ d4 _ d5
    have c1 : canonical d1 := .ite c.resetTo c
    have c2 : canonical d2 := .foldl (fun _ _ c => c.fset) c1
    have c3 : canonical d3 := .foldl (fun _ _ c => c.fset.fset) c2
    have c4 : canonical d4 := c3.update.appendEntry
    have c5 : canonical d5 := c4.appendEntry.appendEntry
    split
    · exact c
    · split
      · exact c.event.endRun
      · exact c5.update.modRun.count.fset.fset.fset.setPhase
theorem canonical.passAdmit {h : HalfId} {kind mb group : Nat} {inputs : List PassInput} {host : List (Option (List Byte))} (c : canonical d) :
    canonical (d.passAdmit h kind mb group inputs host) := by
  unfold Dev.passAdmit
  extract_lets _ d1
  have c1 : canonical d1 := c.modRun.holdScope
  split
  · exact c
  · split
    · exact c
    · split
      · exact c1.setPhase.startIngest
      · split
        · split
          · exact c1.setPhase.store
          · exact c1.setPhase
        · exact c1.setPhase
theorem canonical.refreshBlock {h : HalfId} {l : Nat} {i rec_ : List Byte} {blk : Nat} {es : List (Nat × RdErr)} (c : canonical d) : canonical
    (d.refreshBlock h l i rec_ blk es) := by
  unfold Dev.refreshBlock
  extract_lets _ _ _ _ _ _ _ d1 root kept
  have c1 : canonical d1 := c.rangeRead
  have keeps {e : Ev} : canonical (kept d1 e) := .ite c1.event.count c1.event.count.rangeRead.storeElems.countRange
  clear_value root
  split
  · exact keeps
  · refine .ite keeps (.ite keeps ?_)
    extract_lets d2
    have c2 : canonical d2 := c1.storeElems.countRange
    exact canonical.count (canonical_mem c2 (memWf_memPut _ _ c2.2.1) c2.2.2)
theorem canonical.refreshLayers {h : HalfId} {r : RunS} {es : List (Nat × RdErr)} (c : canonical d) : canonical (d.refreshLayers h r es) := by
  unfold Dev.refreshLayers
  extract_lets
  split
  · exact c
  · refine .foldl (fun _ _ c => ?_) c.update.meet
    split
    · exact c
    · exact (canonical.foldl (fun _ _ c => c.refreshBlock) c).modRun
theorem canonical.passEnd {h : HalfId} {i : Nat} {es : List (Nat × RdErr)} (c : canonical d) : canonical (d.passEnd h i es) := by
  unfold Dev.passEnd
  split
  · exact c
  · extract_lets
    split
    · exact c
    · extract_lets _ d1
      have c1 : canonical d1 := .ite c.modRun c.modRun.update
      exact .ite c.refreshLayers (.ite c (.ite c (.ite c1.holdScope c1)))
theorem canonical.refetchLost {h : HalfId} (c : canonical d) : canonical (d.refetchLost h) := .foldl (fun _ _ c => c.event.sbLog) c.update
theorem canonical.abandon {h : HalfId} (c : canonical d) : canonical (d.abandon h) := by
  unfold Dev.abandon
  extract_lets
  split
  · exact c.dropFaults
  · exact .ite c.dropFaults (.ite c.dropFaults.failAttempt (.ite c.dropFaults.event.failAttempt.endAttempt.tellHolders.endRun (.ite
      c.dropFaults.event.refetchLost.failAttempt (.ite c.dropFaults.event.event.failAttempt c.dropFaults.event.modRun.holdScope))))
theorem canonical.passTimeoutEvent {h : HalfId} (c : canonical d) : canonical (d.passTimeoutEvent h) := by
  unfold Dev.passTimeoutEvent
  extract_lets
  split
  · exact c
  · exact .ite c.passFault.abandon c
theorem canonical.replay {h : HalfId} (c : canonical d) : canonical (d.replay h) := by
  unfold Dev.replay
  split
  · exact c
  · split
    · exact c
    · exact .ite c c.resetTo.modRun.count.holdScope
theorem canonical.gateSample {h : HalfId} (c : canonical d) : canonical (d.gateSample h).2 :=
  .foldl (fun _ _ c => c.fset) (canonical.foldl (fun _ _ c => c.fset) c)
theorem canonical.lossGate {h : HalfId} (c : canonical d) : canonical (d.lossGate h) := by
  unfold Dev.lossGate
  extract_lets
  split
  · exact c
  · split
    · exact c
    · split
      · exact .ite c c.gateSample.contribute.modRun.setPhase
      · split
        · split
          · exact c
          · exact .ite c.dropResult.event.modRun.failAttempt c.dropResult.modRun
        · exact c
theorem canonical.gradientGate {h : HalfId} {l : Nat} {own : Option Nat} (c : canonical d) : canonical (d.gradientGate h l own) := by
  unfold Dev.gradientGate
  extract_lets
  split
  · extract_lets
    split
    · exact c
    · split
      · exact .ite c.deliverOwn c.deliverOwn.gateSample.contribute.modRun.setPhase
      · split
        · exact c
        · split
          · exact c
          · exact .ite c.dropResult.event.failAttempt c.dropResult.modRun
  · exact c
theorem canonical.preempt {h : HalfId} {seq : Nat} (c : canonical d) : canonical (d.preempt h seq) := by
  unfold Dev.preempt
  refine c.begin fun _ _ c => ?_
  split
  · exact .ite c.finish c.modRun
  · exact c.finish
theorem canonical.preemptDone {h : HalfId} (c : canonical d) : canonical (d.preemptDone h) := by
  unfold Dev.preemptDone
  extract_lets d1
  have c1 : canonical d1 := c.setScope.event
  split
  · exact c
  · split
    · exact c
    · exact .ite c c1.modEntry.finish.modRun.holdScope
theorem canonical.resume {h : HalfId} {seq : Nat} (c : canonical d) : canonical (d.resume h seq) := by
  unfold Dev.resume
  refine c.begin fun _ _ c => ?_
  extract_lets
  split
  · exact c.finish
  · exact .ite c.finish c.setScope.modEntry.modRun.fset.finish
theorem canonical.beginStop {h : HalfId} {seq mode : Nat} {k : Dev → Dev} (c : canonical d) (hk : ∀ d, canonical d → canonical (k d)) : canonical
    (d.beginStop h seq mode k) := by
  unfold Dev.beginStop
  split
  · exact .ite (c.begin (fun _ _ c => hk _ c)) c
  · exact c
theorem canonical.unpause {h : HalfId} {seq : Nat} (c : canonical d) : canonical (d.unpause h seq) := c.modStep.setScope.finish
theorem canonical.stopAtEnd {h : HalfId} {seq : Nat} (c : canonical d) : canonical (d.stopAtEnd h seq) := by
  unfold Dev.stopAtEnd
  refine c.beginStop fun _ c => ?_
  extract_lets
  split
  · exact c.unpause
  · exact .ite c.finish (.ite c.modRun.modStep.endRun c.modRun)
theorem canonical.stopNow {h : HalfId} {seq : Nat} (c : canonical d) : canonical (d.stopNow h seq) := by
  unfold Dev.stopNow
  refine c.beginStop fun _ c => ?_
  split
  · exact c.unpause
  · exact (canonical.ite c.failAttempt.endAttempt.tellHolders c).modStep.endRun.finish
theorem canonical.sealVote {h : HalfId} (c : canonical d) : canonical (d.sealVote h) := by
  unfold Dev.sealVote
  extract_lets
  split
  · exact c
  · extract_lets _ _ _ d1
    have c1 : canonical d1 := c.contribute.modRun
    exact .ite c (.ite c1.setPhase c1)
theorem canonical.seal {h : HalfId} {updated : List Nat} (c : canonical d) : canonical (d.seal h updated) := by
  unfold Dev.seal
  extract_lets _ _ _ _ d1 _ d2
  have c1 : canonical d1 := .ite c (.foldl (fun _ _ c => c.fset) c)
  have c2 : canonical d2 := c1.tellHolders.fset
  exact .ite c2.modStep.writeSnapshot c2.modStep
theorem canonical.sealRound {h : HalfId} {moved : Bool} (c : canonical d) : canonical (d.sealRound h moved) := by
  unfold Dev.sealRound
  extract_lets _ _ _ _ d1 _ _ _ d2
  have c1 : canonical d1 := c.event.endAttempt
  have c2 : canonical d2 := c.dropResult.setPhase.endAttempt
  split
  · exact c
  · extract_lets
    split
    · exact c
    · split
      · exact .ite c1.endRun.sendLoss c1.endRun
      · exact .ite c.dropResult.attemptFails (.ite (.ite c2.seal.modRun.endRun c2.seal.modRun) (.ite c.dropResult.fset.fset
          c.dropResult.event.attemptFails))

/-! ### Reset -/

theorem canonical.setStaging {h : HalfId} {s : Staging} (c : canonical d) : canonical (d.setStaging h s) := .ite c.update c.update
theorem canonical.dropFabric {h : HalfId} (c : canonical d) : canonical (d.dropFabric h) := c.update
theorem canonical.clearScope {s : Scope} (c : canonical d) : canonical (d.clearScope s) :=
  .foldl (fun _ _ c => c.modStep.setImage.holdScope) (canonical.foldl (fun _ _ c => c.clearCounters.regReset) (canonical.foldl (fun _ _ c =>
    c.zeroRange) (canonical.foldl (fun _ _ c => c.dropFabric.dropUnits) c).update))
theorem canonical.dropRun {h : HalfId} (c : canonical d) : canonical (d.dropRun h) :=
  (canonical.ite c.clearUpdates.endAttempt.dropPending c.clearUpdates).modStep.dropFaults.fset.update
theorem canonical.endStarted {h : HalfId} {own : Nat} (c : canonical d) : canonical (d.endStarted h own) := .foldl (fun _ _ c => c.event) c.endWhere
theorem canonical.resetEntry {h : HalfId} {level : Nat} (c : canonical d) : canonical (d.resetEntry h level) := c.appendEntry
theorem canonical.winnowFails {s : Scope} (c : canonical d) : canonical (d.winnowFails s) := by
  unfold Dev.winnowFails
  extract_lets
  split
  · exact c
  · exact c.finish.event.update.setOwner.fsetB.sbLog
theorem canonical.winnowRegs {s : Scope} (c : canonical d) : canonical (d.winnowRegs s) := by
  unfold Dev.winnowRegs
  extract_lets _ d1 d2 d3 d4 _ d5 _ d6 _ _ d7
  have c1 : canonical d1 := .foldl (fun _ _ c => c.fclear.fclear) c
  have c2 : canonical d2 := .foldl (fun _ _ c => c.fclear) c1
  have c3 : canonical d3 := .foldl (fun _ _ c => .ite c.regReset c) c2
  have c4 : canonical d4 := c3.regReset.regReset
  have c5 : canonical d5 := .foldl (fun _ _ c => c.fset.fset) c4
  have c6 : canonical d6 := (canonical.foldl (fun _ _ c => c.fset.fset) c5.fclear).fclear
  have c7 : canonical d7 := c6.fclear.update
  exact .ite c7.regReset.setCursor.disarm c6
theorem canonical.winnow {h : HalfId} {seq : Nat} (c : canonical d) : canonical (d.winnow h seq) :=
  c.begin (fun _ _ c => (canonical.foldl (fun _ _ c => c.setStaging) (canonical.foldl (fun _ _ c => c.dropRun)
    c.supersede.setScope.fset.fset.closeRoles.endUnlocks.endBundles).clearScope.winnowRegs).update)
theorem canonical.winnowEnd {s : Scope} {ok : Bool} {upto : Nat} (c : canonical d) : canonical (d.winnowEnd s ok upto) := by
  unfold Dev.winnowEnd
  extract_lets
  split
  · exact c
  · exact .ite c.zeroRange.winnowFails.setScope (.foldl (fun _ _ c => c.keySwitch) (canonical.foldl (fun _ _ c => .ite c.setTenant c)
      c.zeroRange.finish).update.fsetB.setScope.joinHalves.sbLog)
theorem canonical.computeReset {h : HalfId} {seq : Nat} (c : canonical d) : canonical (d.computeReset h seq) := by
  unfold Dev.computeReset
  refine c.begin fun _ _ c => ?_
  extract_lets _ _ d1 d2 d3 _ _ d4
  have c1 : canonical d1 := c.winnowFails.supersede
  have c2 : canonical d2 := c1.setScope.fset.endBundles
  have c3 : canonical d3 := c2.dropRun.endStarted
  have c4 : canonical d4 := c3.clearScope.update
  exact .ite c.finish (.ite c4.disarm c4)
theorem canonical.computeResetDone {s : Scope} (c : canonical d) : canonical (d.computeResetDone s) := .ite c c.endWhere.setScope.resetEntry
theorem canonical.clearSite {site : Nat} (c : canonical d) : canonical (d.clearSite site) := .foldl (fun _ _ c => c.fset.fset) c.update.fset
theorem canonical.beginSite {h : HalfId} {seq test : Nat} {k : Dev → Entry → Dev} (c : canonical d) (hk : ∀ d x, canonical d → canonical (k d x)) :
    canonical (d.beginSite h seq test k) := by
  unfold Dev.beginSite
  split
  · exact c
  · exact .ite (c.begin (fun _ _ c => .ite c.finish (hk _ _ c))) c
theorem canonical.siteReset {h : HalfId} {seq : Nat} (c : canonical d) : canonical (d.siteReset h seq) :=
  c.beginSite (fun _ _ c => c.clearSite.finish)
theorem canonical.siteTest {h : HalfId} {seq : Nat} (c : canonical d) : canonical (d.siteTest h seq) :=
  c.beginSite (fun _ _ c => .foldl (fun _ _ c => c.zeroRange) c.clearSite)
theorem canonical.siteTestDone {h : HalfId} {seq fails : Nat} (c : canonical d) : canonical (d.siteTestDone h seq fails) := by
  unfold Dev.siteTestDone
  split
  · exact c
  · exact .ite c (canonical.foldl (fun _ _ c => .ite c.recordTile c) c).setResult.finish

/-! ### Port -/

theorem canonical.portTake {x : PortSrc} (c : canonical d) : canonical (d.portTake x) := by
  unfold Dev.portTake
  split
  · exact c.modSlot
  · split
    · exact c.update
    · exact c
theorem canonical.portServe {t : Nat} (c : canonical d) : canonical (d.portServe t) := by
  unfold Dev.portServe
  extract_lets
  split
  · exact c
  · extract_lets d1
    have c1 : canonical d1 := by unfold d1; split; exacts [c.portTake.count, c.modTile.count]
    exact c1.count.modTile
theorem canonical.portsServe (c : canonical d) : canonical d.portsServe := .foldl (fun _ _ c => c.portServe) c

/-! ### Cycle -/

theorem canonical.tick (c : canonical d) : canonical d.tick := .ite c c.tallyTick.linkTick.update
theorem canonical.autoSwaps (c : canonical d) : canonical d.autoSwaps := .foldl (fun _ _ c => .ite c.autoSwap c) c
theorem canonical.coreCycle (c : canonical d) : canonical d.coreCycle := by
  unfold Dev.coreCycle
  extract_lets _ _ _ _ d1 d2 d3 d4 _ _ _ d5 _ _ d6
  have c1 : canonical d1 := c.update.portsServe.acceptCycle
  have c2 : canonical d2 := .foldl (fun _ _ c => c.count) c1
  have c3 : canonical d3 := .foldl (fun _ _ c => c.count.count) c2
  have c4 : canonical d4 := c3.latchCounters
  have c5 : canonical d5 := .ite c4.setCycle (.foldl (fun _ _ c => c.slotBegins) c4.setCycle)
  have c6 : canonical d6 := c5.update.update
  exact c6.autoSwaps

/-! ### Reply -/

theorem canonical.escrowAnswered {h : HalfId} (c : canonical d) : canonical (d.escrowAnswered h) := by
  unfold Dev.escrowAnswered
  extract_lets
  split
  · exact .ite c.modRun.voteBaseline c.modRun
  · exact c.modRun
theorem canonical.reqFails {tag : Nat} {r : Req} {st : Nat} (c : canonical d) : canonical (d.reqFails tag r st) := by
  unfold Dev.reqFails
  extract_lets
  split
  · exact .ite c.setReqs.farRow c.setReqs.update
  · exact c.setReqs.finish
  · exact c.setReqs.mirrorFail.escrowAnswered
  · exact c.setReqs
theorem canonical.reqServed {tag : Nat} {r : Req} {rows : List (Row × Bool)} (c : canonical d) : canonical (d.reqServed tag r rows) := by
  unfold Dev.reqServed
  extract_lets _ d1
  have c1 : canonical d1 := .ite c.setReqs.writeRows c.setReqs
  split
  · exact .ite c.setReqs.farRow c.setReqs
  · exact c1.finish
  · exact c.setReqs.escrowAnswered
  · exact c.setReqs
theorem canonical.reqAnswer {tag : Nat} {r : Req} {st : Nat} {rows : List (Row × Bool)} (c : canonical d) : canonical (d.reqAnswer tag r st rows) :=
    by
  unfold Dev.reqAnswer
  extract_lets
  split
  · exact c.reqServed
  · split
    · exact c.setReqs
    · split
      · split
        · exact c.sendReq
        · exact c.sendReq.reqFails
      · exact c.reqFails
theorem canonical.streamRefused {peer xfer idx st : Nat} (c : canonical d) : canonical (d.streamRefused peer xfer idx st) := by
  unfold Dev.streamRefused
  extract_lets
  split
  · exact .ite (.ite c c.update) c.update
  · exact c
theorem canonical.answered {peer xfer tag st : Nat} {rows : List (Row × Bool)} (c : canonical d) : canonical (d.answered peer xfer tag st rows) := by
  unfold Dev.answered
  split
  · exact c.streamRefused
  · split
    · exact c.event
    · exact .ite c.event c.reqAnswer
theorem canonical.remoteResponse {p : Nat} (c : canonical d) : canonical (d.remoteResponse p) := by
  unfold Dev.remoteResponse
  split
  · exact c
  · exact c.takeRx.answered
theorem canonical.remoteTimeout {tag : Nat} (c : canonical d) : canonical (d.remoteTimeout tag) := by
  unfold Dev.remoteTimeout
  split
  · exact c
  · exact .ite c c.event.reqFails
theorem canonical.retryResend {tag : Nat} (c : canonical d) : canonical (d.retryResend tag) := by
  unfold Dev.retryResend
  extract_lets
  split
  · exact c
  · split
    · exact c
    · split
      · extract_lets
        split
        · exact c.sendXfer.setReqs
        · exact c.sendXfer
      · split
        · exact c.sendReq
        · exact c.sendReq.reqAnswer
theorem canonical.copy {h : HalfId} {seq : Nat} {es : List RdErr} (c : canonical d) : canonical (d.copy h seq es) := by
  refine c.begin fun _ _ c => ?_
  extract_lets src dst n tag rows push far near w _ r
  have cw : canonical w.2 := by unfold w; split; exacts [c.readRows, c]
  have cr : canonical r.2 := cw.issue
  split
  · exact c.finish
  · refine .ite c.readRows.writeRows.finish ?_
    split
    · exact cr
    · exact cr.finish
theorem canonical.memoryLog {a outcome : Nat} (c : canonical d) : canonical (d.memoryLog a outcome) := c.sbLog
theorem canonical.softRepair {a : Nat} (c : canonical d) : canonical (d.softRepair a) := c.event.fresh.fresh.recordRow
theorem canonical.refetchFails {h : HalfId} {a : Nat} (c : canonical d) : canonical (d.refetchFails h a) := c.event.memoryLog.failAttempt
theorem canonical.windowRepair {a : Nat} {win : Option (Nat × Nat)} {b : List Byte} (c : canonical d) : canonical (d.windowRepair a win b) := by
  unfold Dev.windowRepair
  split
  · exact c
  · split
    · exact c
    · exact c.poke.modTile
theorem canonical.escrowRefetch {reached : Bool} {step : Nat} {b : List Byte} {digest : Nat} {back : List RdErr} {spare : Bool} (c : canonical d) :
    canonical (d.escrowRefetch reached step b digest back spare) := by
  unfold Dev.escrowRefetch
  split
  · exact c
  · extract_lets
    split
    · exact c.update.failAttempt
    · exact .ite c.update.emit.refetchFails (.ite c.update.emit.poke.countRange.readWords.refetchFails (canonical.ite
        c.update.emit.poke.countRange.readWords.softRepair.poke.countRange
        c.update.emit.poke.countRange.readWords).windowRepair.event.memoryLog.update)

/-! ### Restart -/

theorem canonical.restart {cold kept : Bool} {code : Nat} (c : canonical d) : canonical (d.restart cold kept code) := by
  unfold Dev.restart
  extract_lets _ _ _ _ _ d1 d2 d3
  have c1 : canonical d1 := canonical_regs canonical_reset (fmWf_filter _ c.1)
  have c2 : canonical d2 := .foldl (fun _ _ c => c.fset) c1
  have c3 : canonical d3 := .ite c2.fset.fsetB c2
  exact .foldl (fun _ _ c => c.event.setOwner) c3.fset
theorem canonical.packageReset {code : Nat} (c : canonical d) : canonical (d.packageReset code) := .ite c.restart.event c.restart
theorem canonical.packageResetCmd {h : HalfId} {seq : Nat} (c : canonical d) : canonical (d.packageResetCmd h seq) :=
  c.begin (fun _ _ c => c.supersede.packageReset)
theorem canonical.coldReset {pwr rst vstby torn : Bool} (c : canonical d) : canonical (d.coldReset pwr rst vstby torn) :=
  .ite c (canonical.ite c.sbTear c).restart.update
theorem canonical.bringup {feedId rank : Nat} {master : Bool} {bootSel : Nat} {root pageOk : Bool} (c : canonical d) : canonical (d.bringup feedId
    rank master bootSel root pageOk) := by
  unfold Dev.bringup
  extract_lets _ _ _ d1 d2 _ d3
  have c1 : canonical d1 := c.update.fset.fset
  have c2 : canonical d2 := c1.fsetB.fset.fsetB
  have c3 : canonical d3 := .ite c2.fsetB c2.fsetB.event
  exact .ite c c3.fset.repairMap
theorem canonical.setSlotMark {b : Bool} {v : Nat} (c : canonical d) : canonical (d.setSlotMark b v) := c.fset
theorem canonical.applySettings (c : canonical d) : canonical d.applySettings := by
  unfold Dev.applySettings
  extract_lets _ d1
  have c1 : canonical d1 := canonical_regs c (fmWf_foldl (fun _ _ w => fmWf_fmSet _ _ w) c.1)
  split
  · exact c1.fset.fset.refreshMaster
  · exact c1
theorem canonical.resetSettings (c : canonical d) : canonical d.resetSettings :=
  (canonical.foldl (fun _ _ c => .ite c c.setTenant) c.update).event.sbLog
theorem canonical.tripFound (c : canonical d) : canonical d.tripFound := .ite c.update.mbxEvent c
theorem canonical.startUhlea {b kept : Bool} {format : Nat} (c : canonical d) : canonical (d.startUhlea b kept format) := by
  unfold Dev.startUhlea
  extract_lets _ d1 d2 _ _ _ _ d3 d4
  have c1 : canonical d1 := .ite c c.update
  have c2 : canonical d2 := c1.fset.fsetB.fsetB.count
  have c3 : canonical d3 := c2.update.fsetB.setScope
  have c4 : canonical d4 := .ite c3.resetSettings c3
  exact c4.applySettings.showRepair.sbScan.tripFound.sbLog
theorem canonical.uhleaStart {ok ok2 kept : Bool} {format : Nat} (c : canonical d) : canonical (d.uhleaStart ok ok2 kept format) := by
  unfold Dev.uhleaStart
  extract_lets _ _ _ d1 d2
  have c1 : canonical d1 := .ite c.setSlotMark c
  have c2 : canonical d2 := .ite c1.emit.fset.event c1
  exact .ite c (.ite c.startUhlea (.ite c2.startUhlea c2))
theorem canonical.stackTrainingDone {k : Nat} {ok : Bool} {rep : List Bool} (c : canonical d) : canonical (d.stackTrainingDone k ok rep) := by
  unfold Dev.stackTrainingDone
  extract_lets _ _ _ _ d1
  have c1 : canonical d1 := .ite c.update.fset c.update.fset
  exact .ite c (.ite c1.update c1)
theorem canonical.orphan (c : canonical d) : canonical d.orphan := .ite c c.setHalf.event
theorem canonical.dualClaim (c : canonical d) : canonical d.dualClaim :=
  (canonical.ite (.ite c c.setHalf.event) (canonical.ite c c.setHalf.event).setHalf.event).sbLog
theorem canonical.bridgeTrainingDone {ok : Bool} (c : canonical d) : canonical (d.bridgeTrainingDone ok) := by
  unfold Dev.bridgeTrainingDone
  extract_lets _ _ d1
  have c1 : canonical d1 := .ite c.update c.update.orphan
  exact .ite c (.ite c1 (canonical.ite (canonical.ite c1.setHalf.event c1).setHalf.event (.ite c1.setHalf.event c1)).sbLog)
theorem canonical.tallyWaitExpired (c : canonical d) : canonical d.tallyWaitExpired := .ite c.update c
theorem canonical.rebuildLedger {h : HalfId} (c : canonical d) : canonical (d.rebuildLedger h) := by
  unfold Dev.rebuildLedger
  extract_lets _ _ d1 _ _ d2
  have c1 : canonical d1 := .foldl (fun _ _ c => c.event) c.setLed
  have c2 : canonical d2 := c1.resetEntry.sbLog
  exact .ite c1.resetEntry c2.update
theorem canonical.bringupComplete (c : canonical d) : canonical d.bringupComplete := by
  unfold Dev.bringupComplete
  extract_lets d1 _ _ d2
  have c1 : canonical d1 := .foldl (fun _ _ c => c.rebuildLedger) c
  have c2 : canonical d2 := c1.update.setScope
  exact .ite c (.ite c2.emit c2)
theorem canonical.watchdog (c : canonical d) : canonical d.watchdog := by
  unfold Dev.watchdog
  extract_lets _ _ d1 d2
  have c1 : canonical d1 := .ite c.setSlotMark.emit.fset c
  have c2 : canonical d2 := c1.packageReset
  exact .ite c (.ite c2.event c2)
theorem canonical.kick {w : Who} (c : canonical d) : canonical (d.kick w) := .ite c.update c
theorem canonical.heartbeat (c : canonical d) : canonical d.heartbeat := .ite c c.emit.fsetB.update
theorem canonical.heartbeatRx {claim : Bool} (c : canonical d) : canonical (d.heartbeatRx claim) := by
  unfold Dev.heartbeatRx
  extract_lets _ _ d1 d2
  have c1 : canonical d1 := c.fset.fsetB.update
  have c2 : canonical d2 := .ite c1.dualClaim c1
  exact .ite c c2.emit.fsetB
theorem canonical.echoRx {claim : Bool} (c : canonical d) : canonical (d.echoRx claim) := by
  unfold Dev.echoRx
  extract_lets _ _ d1
  have c1 : canonical d1 := c.fset.fsetB.update
  exact .ite c (.ite c1.dualClaim c1)
theorem canonical.wordMissed {f : Fld} (c : canonical d) : canonical (d.wordMissed f) := .ite c.fset.event.orphan c.fset.event
theorem canonical.heartbeatMiss (c : canonical d) : canonical d.heartbeatMiss := .ite c c.wordMissed
theorem canonical.echoMiss (c : canonical d) : canonical d.echoMiss := .ite c c.update.wordMissed
theorem canonical.fabricIdWrite {w : Who} {v : Nat} (c : canonical d) : canonical (d.fabricIdWrite w v) := by
  unfold Dev.fabricIdWrite
  extract_lets _ d1 d2
  have c1 : canonical d1 := c.fset.fset.refreshMaster
  have c2 : canonical d2 := .ite c1.setLock c1
  exact .ite c c2.update.settingsWritten

/-! ### Firmware -/

theorem canonical.setOtherSlot {b : List Byte} (c : canonical d) : canonical (d.setOtherSlot b) := c.update
theorem canonical.modUpdate {f : UpdateS → UpdateS} (c : canonical d) : canonical (d.modUpdate f) := c.update
theorem canonical.updPhase {ph : Nat} (c : canonical d) : canonical (d.updPhase ph) := c.fset
theorem canonical.updStatus {ph st : Nat} (c : canonical d) : canonical (d.updStatus ph st) := c.updPhase.fset
theorem canonical.reportUpdate {kind id st : Nat} (c : canonical d) : canonical (d.reportUpdate kind id st) := c.emit
theorem canonical.activateAll {action at_ : Nat} (c : canonical d) : canonical (d.activateAll action at_) := by
  unfold Dev.activateAll
  split
  · exact c
  · exact .foldl (fun _ _ c => c.emit) c
theorem canonical.stageFails {st : Nat} (c : canonical d) : canonical (d.stageFails st) := by
  unfold Dev.stageFails
  split
  · exact c
  · exact c.activateAll.finish.event.updStatus.setSlotMark.update.sbLog.reportUpdate
theorem canonical.sendBlock {p id k len : Nat} (c : canonical d) : canonical (d.sendBlock p id k len) := c.emit
theorem canonical.pumpBranch {p n : Nat} (c : canonical d) : canonical (d.pumpBranch p n) := by
  induction n generalizing d with
  | zero => exact c
  | succ n ih =>
    unfold Dev.pumpBranch
    split
    · exact c
    · split
      · exact c
      · exact .ite c (ih c.modUpdate.sendBlock)
theorem canonical.pumpBranches (c : canonical d) : canonical d.pumpBranches := by
  unfold Dev.pumpBranches
  split
  · exact c
  · exact .foldl (fun _ _ c => c.pumpBranch) c
theorem canonical.blockHeld {n : Nat} (c : canonical d) : canonical (d.blockHeld n) := by
  unfold Dev.blockHeld
  extract_lets d1 d2
  have c1 : canonical d1 := c.modUpdate.fset
  have c2 : canonical d2 := c1.pumpBranches
  split
  · exact .ite c2.updPhase c2
  · exact c2
theorem canonical.updateStage {h : HalfId} {seq : Nat} {sigOk : Bool} {host : Option (List Byte)} {staged : List Nat} (c : canonical d) : canonical
    (d.updateStage h seq sigOk host staged) := by
  refine c.begin fun _ _ c => ?_
  extract_lets _ _ _ _ _ d1 d2 _ d3
  have c1 : canonical d1 := .ite c.stageFails c
  have c3 : canonical d3 := c1.updPhase.fset.update.fset
  refine .ite c.event.fset.finish (.ite c3.stageFails (.ite c3 ?_))
  split
  · exact c3.stageFails
  · split
    · exact c3.stageFails
    · exact c3.setOtherSlot.blockHeld
theorem canonical.blockAnswer {p kind id k st : Nat} (c : canonical d) : canonical (d.blockAnswer p kind id k st) := c.emit
theorem canonical.updateBlock {p id k : Nat} {data : List Byte} {crc : Nat} {sigOk : Bool} (c : canonical d) : canonical (d.updateBlock p id k data
    crc sigOk) := by
  unfold Dev.updateBlock
  extract_lets d1
  have c1 : canonical d1 := c.setOtherSlot.blockAnswer
  split
  · exact c
  · split
    · exact c
    · split
      · exact c.blockAnswer
      · split
        · exact c.blockAnswer
        · split
          · exact c.blockAnswer.stageFails
          · exact c1.blockHeld
theorem canonical.resendBlock {p k : Nat} (c : canonical d) : canonical (d.resendBlock p k) := by
  unfold Dev.resendBlock
  split
  · exact c
  · split
    · exact c
    · split
      · exact c
      · exact .ite c (.ite c.modUpdate.stageFails c.modUpdate.sendBlock)
theorem canonical.updateBlockAck {p id k : Nat} {nak : Bool} {st : Nat} (c : canonical d) : canonical (d.updateBlockAck p id k nak st) := by
  unfold Dev.updateBlockAck
  split
  · exact c
  · split
    · exact c
    · split
      · exact c
      · exact .ite c.modUpdate (.ite c.resendBlock c.modUpdate.pumpBranch)
theorem canonical.updateBlockResend {p k : Nat} (c : canonical d) : canonical (d.updateBlockResend p k) := c.resendBlock
theorem canonical.noteReport {dev kind : Nat} (c : canonical d) : canonical (d.noteReport dev kind) := c.modUpdate
theorem canonical.judgeComplete (c : canonical d) : canonical d.judgeComplete := by
  unfold Dev.judgeComplete
  split
  · exact c
  · exact .ite c.finish.fresh.activateAll c
theorem canonical.stageDone (c : canonical d) : canonical d.stageDone := by
  unfold Dev.stageDone
  split
  · exact c
  · exact (canonical.ite c.finish c).fset.setSlotMark.updStatus.sbLog.reportUpdate.noteReport.judgeComplete
theorem canonical.updateVerify {tagsOk : Bool} (c : canonical d) : canonical (d.updateVerify tagsOk) := by
  unfold Dev.updateVerify
  extract_lets _ _ d1
  have c1 : canonical d1 := c.modUpdate.updPhase
  exact .ite c (.ite c.stageFails (.ite c1.stageDone c1))
theorem canonical.microcodeMessage {t n : Nat} {body : List Byte} {crcOk : Bool} (c : canonical d) : canonical (d.microcodeMessage t n body crcOk) :=
    by
  unfold Dev.microcodeMessage
  extract_lets _ _ _ _ _ _ _ _ d1
  have c1 : canonical d1 := c.modTile.modUpdate
  split
  · exact c
  · extract_lets _ d2
    have c2 : canonical d2 := c.modTile.modUpdate
    exact .ite c (.ite (.ite c2.stageFails c2) (.ite c.modTile (.ite c1.stageDone c1)))
theorem canonical.abortAll (c : canonical d) : canonical d.abortAll := by
  unfold Dev.abortAll
  split
  · exact c
  · exact c.finish.activateAll
theorem canonical.updateReport {dev kind : Nat} (c : canonical d) : canonical (d.updateReport dev kind) := by
  unfold Dev.updateReport
  extract_lets
  split
  · exact c
  · exact .ite c (.ite c.noteReport.abortAll (.ite c.noteReport.activateAll (.ite c.noteReport.judgeComplete (.ite c.noteReport.activateAll
      c.noteReport))))
theorem canonical.updateReportTimeout (c : canonical d) : canonical d.updateReportTimeout := by
  unfold Dev.updateReportTimeout
  split
  · exact c
  · exact .ite c (.ite (.ite c c.activateAll) (.ite c c.abortAll))
theorem canonical.beginActivate {h : HalfId} {seq action : Nat} {trial : Bool} {k : Dev → Dev} (c : canonical d) (hk : ∀ d, canonical d → canonical
    (k d)) : canonical (d.beginActivate h seq action trial k) := by
  unfold Dev.beginActivate
  split
  · exact c
  · exact .ite c (c.begin (fun _ _ c => .ite (hk _ c) c.finish))
theorem canonical.firmwareLog {slot : List Byte} {st : Nat} (c : canonical d) : canonical (d.firmwareLog slot st) := c.sbLog
theorem canonical.updateCommit {h : HalfId} {seq : Nat} (c : canonical d) : canonical (d.updateCommit h seq) :=
  c.beginActivate (fun _ c => c.finish.setSlotMark.fset.updPhase.firmwareLog.packageReset)
theorem canonical.updateAbort {h : HalfId} {seq : Nat} (c : canonical d) : canonical (d.updateAbort h seq) :=
  c.beginActivate (fun _ c => c.finish.setSlotMark.fset.updStatus.event.firmwareLog.update)
theorem canonical.updateConfirm {h : HalfId} {seq : Nat} (c : canonical d) : canonical (d.updateConfirm h seq) :=
  c.beginActivate (fun _ c => c.finish.setSlotMark.setSlotMark.fset.fset.updStatus.firmwareLog.update)
theorem canonical.updateRevert {h : HalfId} {seq : Nat} (c : canonical d) : canonical (d.updateRevert h seq) :=
  c.beginActivate (fun _ c => c.finish.setSlotMark.updStatus.firmwareLog.packageReset.event.update)
theorem canonical.trialPoll (c : canonical d) : canonical d.trialPoll := .ite c.emit c

/-! ### Loader -/

theorem canonical.imgRead {h : HalfId} {sc : Scope} {s : ImgSrc} {o n : Nat} {es : List RdErr} (c : canonical d) : canonical (d.imgRead h sc s o n
    es).2 := by
  unfold Dev.imgRead
  extract_lets
  split
  · exact c.rangeRead
  · split
    · exact c
    · split
      · exact c
      · exact c.readWords
theorem canonical.loadTiles {sc : Scope} {b : List Byte} (c : canonical d) : canonical (d.loadTiles sc b) :=
  .foldl (fun _ _ c => (canonical.ite c c.modTile).fset.fset.clearCounters.regReset) c
theorem canonical.loadSlotMask {sc : Scope} {b : List Byte} (c : canonical d) : canonical (d.loadSlotMask sc b) := c.fset
theorem canonical.loadCoord {b : List Byte} (c : canonical d) : canonical (d.loadCoord b) := c.fset.fset.fset.fset
theorem canonical.clearEvents {lo hi : Nat} (c : canonical d) : canonical (d.clearEvents lo hi) := .foldl (fun _ _ c => c.fset.fset) c
theorem canonical.loadRegs {h : HalfId} (c : canonical d) : canonical (d.loadRegs h) := c.clearEvents.fclear.clearEvents.fclear.regReset.regReset
theorem canonical.loadNeighbours {sc : Scope} (c : canonical d) : canonical (d.loadNeighbours sc) :=
  .foldl (fun _ _ c => .ite c.event.quarantine c) c
theorem canonical.takeMeasure {h : HalfId} {b : List Byte} (c : canonical d) : canonical (d.takeMeasure h b) := c.update
theorem canonical.putInForce {h : HalfId} {b : List Byte} {isB : Bool} {tag : Nat} (c : canonical d) : canonical (d.putInForce h b isB tag) := by
  unfold Dev.putInForce
  extract_lets _ d1 d2 d3 _ d4 _ _ d5
  have c1 : canonical d1 := c.dropRun.dropFabric.forceConfig
  have c2 : canonical d2 := c1.loadTiles.loadSlotMask.loadCoord
  have c3 : canonical d3 := c2.loadRegs.takeMeasure
  have c4 : canonical d4 := .ite c3.modStep.disarm c3.modStep
  have c5 : canonical d5 := c4.setImage.setStaging.holdScope
  exact c5.setScope.loadNeighbours
theorem canonical.loadChecked {k : HalfId} {isB : Bool} {tag : Nat} {b : List Byte} (c : canonical d) : canonical (d.loadChecked k isB tag b).1 := by
  unfold Dev.loadChecked
  extract_lets
  split
  · exact c
  · exact c.putInForce
theorem canonical.loadFrom {h : HalfId} {sc : Scope} {s : ImgSrc} {most : Nat} {tenant : Option Nat} {es : List RdErr} (c : canonical d) : canonical
    (d.loadFrom h sc s most tenant es).1 := by
  unfold Dev.loadFrom
  have c1 := c.imgRead (h := h) (sc := sc) (s := s) (o := 0) (n := 256) (es := es)
  generalize d.imgRead h sc s 0 256 es = p at c1 ⊢
  obtain ⟨r, e⟩ := p
  cases r with
  | error st => exact c1
  | ok hdr =>
    dsimp only at c1 ⊢
    split
    · exact c1
    · split
      · exact c1
      · generalize hq : Dev.imgRead _ _ _ _ _ _ _ = q
        have c2 : canonical q.2 := hq ▸ c1.imgRead
        obtain ⟨r, f⟩ := q
        cases r with
        | error st => exact c2
        | ok rest => exact (canonical.ite c2 c2.countRange).setStaging.loadChecked
theorem canonical.loadEnds {h : HalfId} {seq : Nat} {x2 : Option (Nat × Bad)} (c : canonical d) : canonical (d.loadEnds h seq x2) := by
  unfold Dev.loadEnds
  split
  · exact c.setResult.finish
  · exact c.setResult.finish
theorem canonical.load {h : HalfId} {seq : Nat} {src : List Byte} {fail : Nat} {es : List RdErr} (c : canonical d) : canonical (d.load h seq src fail
    es) := by
  unfold Dev.load
  refine c.begin fun _ _ c => ?_
  extract_lets
  split
  · exact c.loadEnds
  · exact (canonical.ite c.loadFrom.supersede c.loadFrom).loadEnds

/-! ### Recovery -/

theorem canonical.lossDetect {p : Nat} (c : canonical d) : canonical (d.lossDetect p) := by
  unfold Dev.lossDetect
  extract_lets
  split
  · exact c.sendLoss
  · exact c
theorem canonical.recoveryLog {r : Recovery} {sev st : Nat} (c : canonical d) : canonical (d.recoveryLog r sev st) := c.sbLog
theorem canonical.recoveryOrders {r : Recovery} (c : canonical d) : canonical (d.recoveryOrders r) := c.fset.fset.fset.update.emit
theorem canonical.recoverFailed {h : HalfId} {st : Nat} (c : canonical d) : canonical (d.recoverFailed h st) :=
  .ite c (canonical.ite c.endRun c).modStep.setScope.holdScope.fset.event
theorem canonical.recoveryFails {r : Recovery} {st : Nat} (c : canonical d) : canonical (d.recoveryFails r st) :=
  (canonical.foldl (fun _ _ c => .ite c.recoverFailed c) c.recoveryLog.emit).fset.fset.update
theorem canonical.lossReport {tag : Nat} {lost : Option Nat} {recover : Bool} (c : canonical d) : canonical (d.lossReport tag lost recover) := by
  unfold Dev.lossReport
  extract_lets
  split
  · exact c
  · split
    · exact .ite c c.recoveryLog.recoveryOrders
    · split
      · exact c
      · exact .ite c (.ite c.recoveryFails c.update)
theorem canonical.recoveryStep {st : Nat} {cur : List Nat} (c : canonical d) : canonical (d.recoveryStep st cur) := by
  unfold Dev.recoveryStep
  split
  · exact c
  · exact .ite c.recoveryFails (.ite c.recoveryFails (.ite c (.ite c.recoveryLog.fset.fset.update c.recoveryLog.recoveryOrders)))
theorem canonical.returnTimeout (c : canonical d) : canonical d.returnTimeout := by
  unfold Dev.returnTimeout
  split
  · exact .ite c.recoveryFails c
  · exact c
theorem canonical.recoverHold {h : HalfId} (c : canonical d) : canonical (d.recoverHold h) :=
  .ite c (canonical.ite c.failAttempt.endAttempt.dropPending.fset c).modStep.setScope.holdScope
theorem canonical.lateSeal {h : HalfId} (c : canonical d) : canonical (d.lateSeal h) := by
  unfold Dev.lateSeal
  extract_lets
  split
  · exact c
  · exact .ite c c.seal.modEntry.fset.fset.event
theorem canonical.recoverOwners {h : HalfId} {o : Order} (c : canonical d) : canonical (d.recoverOwners h o) :=
  .foldl (fun _ _ c => .ite c.adoptAll c.dropPending) c
theorem canonical.mirrorImage {h : HalfId} {target : Nat} (c : canonical d) : canonical (d.mirrorImage h target) :=
  c.pushEscrow.pushEscrow.pushEscrow.count
theorem canonical.setAlt {ts : List Nat} (c : canonical d) : canonical (d.setAlt ts) := c.update.fsetB
theorem canonical.recoverRepair {h : HalfId} {lost : List Nat} (c : canonical d) : canonical (d.recoverRepair h lost).1 := by
  unfold Dev.recoverRepair
  extract_lets _ _ _ _ _ d1
  have c1 : canonical d1 := .foldl (fun _ _ c => c.mirrorTensor) c.setAlt
  split
  · exact c
  · split
    · exact c
    · exact (canonical.ite c1.mirrorImage c1).event
theorem canonical.takeIngot {h : HalfId} {b : List Byte} (c : canonical d) : canonical (d.takeIngot h b) :=
  .foldl (fun _ _ c => c.fset) (canonical.foldl (fun _ _ c => c.fset) c.fset)
theorem canonical.restoreIngots {a : Nat} {gs : List (List Byte)} (c : canonical d) : canonical (d.restoreIngots a gs) :=
  .foldl (fun _ _ c => c.poke.countRange.count) c
theorem canonical.rollBack {h : HalfId} (c : canonical d) : canonical (d.rollBack h) := by
  unfold Dev.rollBack
  extract_lets
  split
  · exact c
  · exact .foldlOn Prod.fst (fun _ _ c => c.restoreIngots) c
theorem canonical.restoreTensor {h : HalfId} {x : Restore} (c : canonical d) : canonical (d.restoreTensor h x).1 := by
  unfold Dev.restoreTensor
  split
  · exact c
  · split
    · exact c
    · exact c.restoreIngots.update
theorem canonical.eachRestore {f : Dev → Restore → Dev × Nat} {xs : List Restore} (c : canonical d) (hf : ∀ d x, canonical d → canonical (f d x).1) :
    canonical (eachRestore f d xs).1 := by
  induction xs generalizing d with
  | nil => exact c
  | cons x xs ih =>
    unfold Machine.eachRestore
    extract_lets
    split
    · exact ih (hf _ _ c)
    · exact hf _ _ c
theorem canonical.recoverRebuild {h : HalfId} {o : Order} (c : canonical d) : canonical (d.recoverRebuild h o).1 := by
  unfold Dev.recoverRebuild
  extract_lets _ d1
  have c1 : canonical d1 := by unfold d1; split; exacts [c.takeIngot, c]
  exact (canonical.ite c1.rollBack c1).eachRestore (fun _ _ c => c.restoreTensor)
theorem canonical.verifyTensor {h : HalfId} {resume : Nat} {x : Restore} (c : canonical d) : canonical (d.verifyTensor h resume x).1 := by
  unfold Dev.verifyTensor
  extract_lets
  split
  · exact c
  · extract_lets
    split
    · exact c.event
    · split
      · exact c.event.event
      · exact c.update
theorem canonical.recoverRefill {h : HalfId} {o : Order} {lost : List Nat} (c : canonical d) : canonical (d.recoverRefill h o lost) := by
  unfold Dev.recoverRefill
  extract_lets _ _ _ d1
  have c1 : canonical d1 := .foldl (fun _ _ c => c.mirrorTensor) c.setAlt
  split
  · exact c1
  · exact .foldl (fun _ _ c => c.store) (canonical.ite c1.mirrorImage c1)
theorem canonical.recoverResume {h : HalfId} {o : Order} (c : canonical d) : canonical (d.recoverResume h o) := by
  unfold Dev.recoverResume
  extract_lets d1 d2 d3
  have c1 : canonical d1 := .ite c.endRun c
  have c2 : canonical d2 := c1.modStep.setScope
  have c3 : canonical d3 := by unfold d3; split; exacts [c2.setCursor, c2]
  exact c3.holdScope.fset.event
theorem canonical.takePart {h : HalfId} {step : Nat} {o : Order} (c : canonical d) : canonical (d.takePart h step o) := by
  unfold Dev.takePart
  extract_lets _ d1 d2
  have c1 : canonical d1 := c.fset.fset.modStep
  have c2 : canonical d2 := .ite c1 c1.fset
  exact .ite c2.event c2
theorem canonical.recoverImage {h : HalfId} {seq : Nat} {b : List Byte} (c : canonical d) : canonical (d.recoverImage h seq b).1 := by
  unfold Dev.recoverImage
  extract_lets
  split
  · exact c.loadFrom.setResult
  · exact c.loadFrom.modStep.setScope.holdScope
theorem canonical.recover {h : HalfId} {seq : Nat} {o : Order} (c : canonical d) : canonical (d.recover h seq o) := by
  unfold Dev.recover
  extract_lets
  refine c.begin fun _ _ c => ?_
  extract_lets step d1 r
  have c1 : canonical d1 := c.takePart
  have cr : canonical r.1 := by
    unfold r
    clear_value d1 step
    split
    · exact c1.recoverHold
    · exact (canonical.ite c1.lateSeal c1).recoverOwners
    · exact c1.recoverRepair
    · split
      · exact c1.recoverImage
      · exact c1
    · exact c1.recoverRebuild
    · exact c1.eachRestore fun _ _ c => c.verifyTensor
    · exact c1.recoverRefill.recoverOwners
    · exact c1.recoverResume
    · exact c1
  exact .ite c.recoverFailed.finish (canonical.ite cr cr.recoverFailed).finish

/-! ### LinkIn -/

theorem canonical.linkCtrl {w : Who} {p k : Nat} (c : canonical d) : canonical (d.linkCtrl w p k) :=
  .ite c (.ite c.quarantine (.ite c.release c.readmit))
theorem canonical.stampIn {p count depth lock : Nat} {off : ℤ} (c : canonical d) : canonical (d.stampIn p count depth lock off) :=
  .ite c.misbehave c.stampReceived
theorem canonical.transit {p : Nat} {f : Frame} (c : canonical d) : canonical (d.transit p f) := by
  unfold Dev.transit
  split
  · exact c
  · extract_lets
    split
    · exact c
    · split
      · exact c.takeRx.sendXfer
      · exact c.takeRx.sendXfer.sendResponse
theorem canonical.relay {target : Nat} {m : Relay} (c : canonical d) : canonical (d.relay target m) := by
  unfold Dev.relay
  extract_lets _ out go
  have routed u : canonical (go u) := by unfold go; split; exacts [c.sendFrame, c]
  split
  · exact .ite c.sendFrame c
  all_goals exact routed _
theorem canonical.mgmtIn {target : Nat} {m : Relay} (c : canonical d) : canonical (d.mgmtIn target m) := by
  unfold Dev.mgmtIn
  split
  · exact .ite c.lossReport c.relay
  · exact .ite c.commandSubmit c.relay
  · exact .ite c c.relay
  · split
    · split
      · exact c.relay
      · exact c
    · exact c.relay
theorem canonical.refusedIn {f : Frame} {st : Nat} {x : Xfer} (c : canonical d) : canonical (d.refusedIn f st x) := .ite c.answered c.sendResponse
theorem canonical.deliver {p : Nat} {f : Frame} {b : FrameBody} (c : canonical d) : canonical (d.deliver p f b) := by
  unfold Dev.deliver
  extract_lets
  split
  · exact c
  · exact .ite c.takeData.transit c.takeData
  · exact c.takeCredit
  · exact c.voteFrame
  · exact c.identity
  · exact c
  · exact c.delayFrame
  · exact c.takeState
  · exact c.refusedIn
  · exact c.mgmtIn
  · exact c.stampIn
theorem canonical.frameIn {p kind : Nat} {f : Frame} {b : FrameBody} (c : canonical d) : canonical (d.frameIn p kind f b) :=
  .ite c.rxFrame.modPort (.ite c.rxFrame.deliver c.rxFrame)
theorem canonical.sealIn {p : Nat} {f : Frame} {tagOk : Bool} {batch epoch count : Nat} (c : canonical d) : canonical (d.sealIn p f tagOk batch epoch
    count) :=
  .ite (c.rxFrame.sealFrame (fun _ _ _ c => c.deliver)) c.rxFrame

/-! ### Damage -/

theorem canonical.ctlDrop {t : Nat} (c : canonical d) : canonical (d.ctlDrop t) := c.event.passFault
theorem canonical.memDrop {t a : Nat} (c : canonical d) : canonical (d.memDrop t a) := .ite c.event c.ctlDrop
theorem canonical.flitError {t kind u q n : Nat} (c : canonical d) : canonical (d.flitError t kind u q n) := by
  unfold Dev.flitError
  extract_lets
  split
  · exact c.event
  · split
    · exact .ite c c.event.setQueue
    · exact c
  · exact .ite c.event.setQueue c
  · split
    · exact c.update.ctlDrop
    · exact c
  · split
    · exact c.update.memDrop
    · exact c
  · split
    · exact c.update.memDrop
    · exact c
  · split
    · exact c.update.ctlDrop
    · exact c
  · split
    · exact c.update.ctlDrop
    · exact c
  · exact c.ctlDrop
  · split
    · split
      · exact .ite c.event.setSlot c
      · exact c
    · exact c

end operations

/-! ### The commands -/

section commands

variable {f : Dev → Dev} {s t : State}

theorem canonical.dev (c : canonical s.dev) (h : onDev f s = .next t) (k : ∀ {d}, canonical d → canonical (f d)) : canonical t.dev :=
  canonical_onDev k h c

theorem canonical.powered (c : canonical s.dev) (h : onPowered f s = .next t) (k : ∀ {d}, canonical d → canonical (f d)) : canonical t.dev :=
  canonical_onPowered k h c

theorem canonical.live (c : canonical s.dev) (h : onLive f s = .next t) (k : ∀ {d}, canonical d → canonical (f d)) : canonical t.dev :=
  canonical_onLive k h c

end commands

/-- Each command is one operation of the model on a device that is live, or powered, or in any state. -/
theorem canonical.exec {i : Instr} {s t : State} (c : canonical s.dev) (h : exec i s = .next t) : canonical t.dev := by
  unfold Machine.exec at h
  cases i <;> dsimp only at h
  case registerWrite => exact c.dev h fun c => .ite c.registerWrite c
  case refLost => exact c.live h fun c => c.refLost
  case refValid => exact c.live h fun c => c.refValid
  case tick => exact c.live h fun c => c.tick
  case stampReceived => exact c.live h fun c => c.frameIn
  case schedClassRestored => exact c.live h fun c => c.schedRestored
  case stampLost => exact c.live h fun c => c.parentLost
  case holdExpired => exact c.live h fun c => c.holdExpired
  case relock => exact c.live h fun c => .ite c.relock c
  case schedOff => exact c.live h fun c => .ite c.schedOff c
  case execAtStart => exact c.live h fun c => c.execAtStart
  case scheduledSlot => exact c.live h fun c => c.scheduledSlot
  case stationaryLoad => exact c.live h fun c => c.stationaryLoad
  case stationaryLoadDone => exact c.live h fun c => c.stationaryLoadDone
  case fieldRunStart => exact c.live h fun c => c.fieldRunStart
  case fieldSlot => exact c.live h fun c => c.fieldSlot
  case tokenArrival => exact c.live h fun c => c.tokenArrival
  case creditReturn => exact c.live h fun c => c.creditBack
  case switchFire => exact c.live h fun c => c.switchFire
  case mergeControlledFire => exact c.live h fun c => c.mergeFire
  case mergeRotationFire => exact c.live h fun c => c.rotateFire
  case repeatControlledFire => exact c.live h fun c => c.repeatFire
  case repeatStaticFire => exact c.live h fun c => c.repeatStaticFire
  case dropControlledFire => exact c.live h fun c => c.dropFire
  case dropStaticFire => exact c.live h fun c => c.dropStaticFire
  case forkFire => exact c.live h fun c => c.forkFire
  case stallLong => exact c.live h fun c => c.stallLong
  case cntClear => exact c.live h fun c => .ite c.cntClear c
  case commandSubmit => exact c.live h fun c => c.submission
  case nop => exact c.live h fun c => c.nop
  case load => exact c.live h fun c => c.load
  case stage => exact c.live h fun c => c.stageCmd
  case configMessage => exact c.live h fun c => c.configMessage
  case markArrival => exact c.live h fun c => c.markArrival
  case inputClose => exact c.live h fun c => c.inputClose
  case unitSwap => exact c.live h fun c => c.unitSwap
  case streamWalkStart => exact c.live h fun c => c.walkStart
  case rowFetch => exact c.live h fun c => c.rowFetch
  case memoryRowReturn => exact c.live h fun c => c.rowReturn
  case streamReaderFire => exact c.live h fun c => c.readerFire
  case streamWriterFire => exact c.live h fun c => c.writerFire
  case streamWalkEnd => exact c.live h fun c => c.walkEnd
  case tillRequest => exact c.live h fun c => c.tillRequest
  case tillReply => exact c.live h fun c => c.tillReply
  case vectorFire => exact c.live h fun c => c.vectorFire
  case vectorOutput => exact c.live h fun c => c.vectorOutput
  case vxAdd => exact c.live h fun c => c.vxElementwise
  case vxSub => exact c.live h fun c => c.vxElementwise
  case vxMul => exact c.live h fun c => c.vxElementwise
  case vxFma => exact c.live h fun c => c.vxElementwise
  case vxMax => exact c.live h fun c => c.vxElementwise
  case vxMin => exact c.live h fun c => c.vxElementwise
  case vxAbs => exact c.live h fun c => c.vxElementwise
  case vxNeg => exact c.live h fun c => c.vxElementwise
  case vxExp2 => exact c.live h fun c => c.vxElementwise
  case vxLog2 => exact c.live h fun c => c.vxElementwise
  case vxRcp => exact c.live h fun c => c.vxElementwise
  case vxRsqrt => exact c.live h fun c => c.vxElementwise
  case vxCmpeq => exact c.live h fun c => c.vxElementwise
  case vxCmplt => exact c.live h fun c => c.vxElementwise
  case vxCmple => exact c.live h fun c => c.vxElementwise
  case vxSel => exact c.live h fun c => c.vxElementwise
  case vxAnd => exact c.live h fun c => c.vxElementwise
  case vxOr => exact c.live h fun c => c.vxElementwise
  case vxXor => exact c.live h fun c => c.vxElementwise
  case vxShl => exact c.live h fun c => c.vxElementwise
  case vxShr => exact c.live h fun c => c.vxElementwise
  case vxSar => exact c.live h fun c => c.vxElementwise
  case vxIadd => exact c.live h fun c => c.vxElementwise
  case vxIsub => exact c.live h fun c => c.vxElementwise
  case vxImul => exact c.live h fun c => c.vxElementwise
  case vxImax => exact c.live h fun c => c.vxElementwise
  case vxImin => exact c.live h fun c => c.vxElementwise
  case vxCvti => exact c.live h fun c => c.vxCvti
  case vxCvto => exact c.live h fun c => c.vxCvto
  case vxOut => exact c.live h fun c => c.vxOut
  case vxIota => exact c.live h fun c => c.vxIota
  case vxRed => exact c.live h fun c => c.vxRed
  case vxRsm => exact c.live h fun c => c.vxRsm
  case vxRsf => exact c.live h fun c => c.vxRsf
  case vxRsl => exact c.live h fun c => c.vxRsl
  case vxRsget => exact c.live h fun c => c.vxRsget
  case ccAdd => exact c.live h fun c => c.ccInt
  case ccSub => exact c.live h fun c => c.ccInt
  case ccAnd => exact c.live h fun c => c.ccInt
  case ccOr => exact c.live h fun c => c.ccInt
  case ccXor => exact c.live h fun c => c.ccInt
  case ccSll => exact c.live h fun c => c.ccInt
  case ccSrl => exact c.live h fun c => c.ccInt
  case ccSra => exact c.live h fun c => c.ccInt
  case ccSlt => exact c.live h fun c => c.ccInt
  case ccSltu => exact c.live h fun c => c.ccInt
  case ccMul => exact c.live h fun c => c.ccInt
  case ccMulhu => exact c.live h fun c => c.ccInt
  case ccMinu => exact c.live h fun c => c.ccInt
  case ccMaxu => exact c.live h fun c => c.ccInt
  case ccAddi => exact c.live h fun c => c.ccImmOp
  case ccAndi => exact c.live h fun c => c.ccImmOp
  case ccOri => exact c.live h fun c => c.ccImmOp
  case ccXori => exact c.live h fun c => c.ccImmOp
  case ccSlli => exact c.live h fun c => c.ccImmOp
  case ccSrli => exact c.live h fun c => c.ccImmOp
  case ccSrai => exact c.live h fun c => c.ccImmOp
  case ccLdc => exact c.live h fun c => c.ccLdc
  case ccBeq => exact c.live h fun c => c.ccBranch
  case ccBne => exact c.live h fun c => c.ccBranch
  case ccBlt => exact c.live h fun c => c.ccBranch
  case ccBge => exact c.live h fun c => c.ccBranch
  case ccBltu => exact c.live h fun c => c.ccBranch
  case ccBgeu => exact c.live h fun c => c.ccBranch
  case ccJal => exact c.live h fun c => c.ccJal
  case ccJalr => exact c.live h fun c => c.ccJalr
  case ccBex => exact c.live h fun c => c.ccBex
  case ccBnex => exact c.live h fun c => c.ccBex
  case ccLd => exact c.live h fun c => c.ccLd
  case ccSt => exact c.live h fun c => c.ccSt
  case ldstRequest => exact c.live h fun c => c.ldstRequest
  case ldstReply => exact c.live h fun c => c.ldstReply
  case ccTill => exact c.live h fun c => c.ccTill
  case ccQpop => exact c.live h fun c => c.ccQpop
  case ccQpush => exact c.live h fun c => c.ccQpush
  case ccTbrd => exact c.live h fun c => c.ccTbrd
  case ccTbwr => exact c.live h fun c => c.ccTbwr
  case ccBcast => exact c.live h fun c => c.ccBcast
  case ccExtw => exact c.live h fun c => c.ccExtw
  case ccVsete => exact c.live h fun c => c.ccVsete
  case ccStage => exact c.live h fun c => c.ccStage
  case ccEend => exact c.live h fun c => c.ccEend
  case ccCsrr => exact c.live h fun c => c.ccCsrr
  case ccBar => exact c.live h fun c => c.ccBar
  case ccVor => exact c.live h fun c => c.ccVote
  case ccVand => exact c.live h fun c => c.ccVote
  case ccWaitt => exact c.live h fun c => c.ccWaitt
  case waittRelease => exact c.live h fun c => c.waittRelease
  case barrierComplete => exact c.live h fun c => c.barrierComplete
  case voteResult => exact c.live h fun c => c.voteResult
  case throttleUpdate => exact c.live h fun c => c.throttleUpdate
  case throttleLevel => exact c.live h fun c => c.throttleLevel
  case flitError => exact c.live h fun c => c.flitError
  case winCmd => exact c.live h fun c => .ite c.winCmd c
  case windowPlace => exact c.live h fun c => c.windowPlace
  case windowLoadDone => exact c.live h fun c => c.windowLoadDone
  case winRel => exact c.live h fun c => .ite c.winRel c
  case stackScrub => exact c.live h fun c => c.stackScrub
  case escrowRefetch => exact c.live h fun c => c.escrowRefetch
  case run => exact c.live h fun c => c.run
  case baseline => exact c.live h fun c => c.baseline
  case baselineVote => exact c.live h fun c => c.baselineVote
  case attemptStart => exact c.live h fun c => c.attemptStart
  case passAdmit => exact c.live h fun c => c.passAdmit
  case passEnd => exact c.live h fun c => c.passEnd
  case passTimeout => exact c.live h fun c => c.passTimeoutEvent
  case abandon => exact c.live h fun c => c.abandon
  case replay => exact c.live h fun c => c.replay
  case lossGate => exact c.live h fun c => c.lossGate
  case gradientGate => exact c.live h fun c => c.gradientGate
  case preempt => exact c.live h fun c => c.preempt
  case preemptDone => exact c.live h fun c => c.preemptDone
  case resume => exact c.live h fun c => c.resume
  case sealVote => exact c.live h fun c => c.sealVote
  case sealRound => exact c.live h fun c => c.sealRound
  case collectiveChunk => exact c.live h fun c => c.streamTransfer
  case updateBlockDispatch => exact c.live h fun c => c.updateDispatch
  case updateBlockDone => exact c.live h fun c => c.updateDone
  case schedAppend => exact c.live h fun c => c.schedAppend
  case mirror => exact c.live h fun c => c.mirror
  case escrowTransfer => exact c.live h fun c => c.escrowTransfer
  case parityDelta => exact c.live h fun c => c.parityDelta
  case tileCommand => exact c.live h fun c => c.tileCommand
  case microcodeMessage => exact c.live h fun c => c.microcodeMessage
  case dataFrame => exact c.live h fun c => c.frameIn
  case idleFrame => exact c.live h fun c => c.frameIn
  case creditFrame => exact c.live h fun c => c.frameIn
  case replayTimeout => exact c.live h fun c => c.replayTimeout
  case admitFrame => exact c.live h fun c => c.frameIn
  case delayFrame => exact c.live h fun c => c.frameIn
  case stateFrame => exact c.live h fun c => c.frameIn
  case refuseFrame => exact c.live h fun c => c.frameIn
  case mgmtFrame => exact c.live h fun c => c.frameIn
  case sealFrame => exact c.live h fun c => c.sealIn
  case sealBatchClose => exact c.live h fun c => c.sealBatchClose
  case keySwitch => exact c.live h fun c => c.keySwitch
  case admission => exact c.live h fun c => c.admission
  case laneTrainingDone => exact c.live h fun c => c.laneTrainingDone
  case admissionTimeout => exact c.live h fun c => c.admissionTimeout
  case backoffExpired => exact c.live h fun c => c.backoffExpired
  case spareSub => exact c.live h fun c => c.spareSub
  case retrain => exact c.live h fun c => c.retrainCmd
  case laneLockLoss => exact c.live h fun c => c.laneLockLoss
  case quarantine => exact c.live h fun c => c.linkCtrl
  case release => exact c.live h fun c => c.linkCtrl
  case readmit => exact c.live h fun c => c.linkCtrl
  case streamTransfer => exact c.live h fun c => c.streamTransfer
  case streamRelease => exact c.live h fun c => c.streamRelease
  case remoteLoad => exact c.live h fun c => c.remoteLoad
  case remoteStore => exact c.live h fun c => c.remoteStore
  case remoteCopy => exact c.live h fun c => c.remoteCopy
  case remoteAdd => exact c.live h fun c => c.remoteAtomic
  case remoteMax => exact c.live h fun c => c.remoteAtomic
  case remoteSwap => exact c.live h fun c => c.remoteAtomic
  case remoteCas => exact c.live h fun c => c.remoteAtomic
  case remoteResponse => exact c.live h fun c => c.remoteResponse
  case remoteTimeout => exact c.live h fun c => c.remoteTimeout
  case retryResend => exact c.live h fun c => c.retryResend
  case voteWave => exact c.live h fun c => c.voteWave
  case voteFrame => exact c.live h fun c => c.frameIn
  case voteWaveSend => exact c.live h fun c => c.voteWaveSend
  case lossDetect => exact c.live h fun c => c.lossDetect
  case lossReport => exact c.live h fun c => c.lossReport
  case recoveryStep => exact c.live h fun c => c.recoveryStep
  case returnTimeout => exact c.live h fun c => c.returnTimeout
  case recover => exact c.live h fun c => c.recover
  case stopAtAttemptEnd => exact c.live h fun c => c.stopAtEnd
  case stopNow => exact c.live h fun c => c.stopNow
  case copy => exact c.live h fun c => c.copy
  case cancel => exact c.live h fun c => c.cancel
  case profile => exact c.live h fun c => c.profileCmd
  case tenantAssign => exact c.live h fun c => c.tenantAssign
  case tenantRelease => exact c.live h fun c => c.tenantRelease
  case winnow => exact c.live h fun c => c.winnow
  case winnowEnd => exact c.live h fun c => c.winnowEnd
  case computeReset => exact c.live h fun c => c.computeReset
  case computeResetDone => exact c.live h fun c => c.computeResetDone
  case packageReset => exact c.live h fun c => c.packageResetCmd
  case siteReset => exact c.live h fun c => c.siteReset
  case siteTest => exact c.live h fun c => c.siteTest
  case siteTestDone => exact c.live h fun c => c.siteTestDone
  case licenceInstall => exact c.live h fun c => c.licenceInstall
  case provision => exact c.live h fun c => c.provision
  case quote => exact c.live h fun c => c.quote
  case updateStage => exact c.live h fun c => c.updateStage
  case updateBlock => exact c.live h fun c => c.updateBlock
  case updateBlockAck => exact c.live h fun c => c.updateBlockAck
  case updateBlockResend => exact c.live h fun c => c.updateBlockResend
  case updateVerify => exact c.live h fun c => c.updateVerify
  case updateReport => exact c.live h fun c => c.updateReport
  case updateReportTimeout => exact c.live h fun c => c.updateReportTimeout
  case updateCommit => exact c.live h fun c => c.updateCommit
  case updateAbort => exact c.live h fun c => c.updateAbort
  case updateConfirm => exact c.live h fun c => c.updateConfirm
  case updateRevert => exact c.live h fun c => c.updateRevert
  case trialPoll => exact c.live h fun c => c.trialPoll
  case lgrSel => exact c.live h fun c => c.lgrSel
  case strongboxWrite => exact c.powered h fun c => c.strongboxWrite
  case sectorEraseDone => exact c.powered h fun c => c.sectorEraseDone
  case sessionOpen => exact c.powered h fun c => c.sessionOpen
  case sessionClose => exact c.powered h fun c => c.sessionClose
  case regRead => exact c.powered h fun c => c.regRead
  case regWrite => exact c.powered h fun c => c.regWrite
  case ledgerRead => exact c.powered h fun c => c.ledgerRead
  case telemetry => exact c.powered h fun c => c.telemetry
  case telemetryReport => exact c.powered h fun c => c.telemetryReport
  case strongboxRead => exact c.powered h fun c => c.strongboxRead
  case spdm => exact c.powered h fun c => c.spdm
  case traceRead => exact c.powered h fun c => c.traceRead
  case sensorSample => exact c.powered h fun c => c.sensorSample
  case pmbusPoll => exact c.powered h fun c => c.pmbusPoll
  case i3cPoll => exact c.powered h fun c => c.i3cPoll
  case i3cIbi => exact c.powered h fun c => c.i3cIbi
  case profReq => exact c.powered h fun c => c.profReq
  case debugReq => exact c.powered h fun c => c.debugReq
  case nonceReq => exact c.powered h fun c => c.nonceReq
  case nonceExpired => exact c.powered h fun c => c.nonceExpired
  case lock => exact c.powered h fun c => c.lockCmd
  case unlockWaitExpired => exact c.powered h fun c => c.unlockWaitExpired
  case bundleGo => exact c.live h fun c => c.bundleGo
  case bundleDone => exact c.live h fun c => c.bundleDone
  case coldReset => exact c.dev h fun c => c.coldReset
  case bringup => exact c.dev h fun c => c.bringup
  case uhleaStart => exact c.powered h fun c => c.uhleaStart
  case stackTrainingDone => exact c.powered h fun c => c.stackTrainingDone
  case bridgeTrainingDone => exact c.powered h fun c => c.bridgeTrainingDone
  case tallyWaitExpired => exact c.powered h fun c => c.tallyWaitExpired
  case bringupComplete => exact c.powered h fun c => c.bringupComplete
  case watchdog => exact c.powered h fun c => c.watchdog
  case kick => exact c.powered h fun c => c.kick
  case heartbeat => exact c.live h fun c => c.heartbeat
  case heartbeatRx => exact c.live h fun c => c.heartbeatRx
  case echoRx => exact c.live h fun c => c.echoRx
  case heartbeatMiss => exact c.live h fun c => c.heartbeatMiss
  case echoMiss => exact c.live h fun c => c.echoMiss
  case thermalTrip => exact c.powered h fun c => c.thermalTrip
  case fabricIdWrite => exact c.live h fun c => c.fabricIdWrite
  case arm => exact c.live h fun c => c.arm
  case nvmeCompletion => exact c.live h fun c => c.nvmeCompletion
  case nvmeTimeout => exact c.live h fun c => c.nvmeFail
  case ckptGo => exact c.live h fun c => c.ckptGo
  case ckptDone => exact c.live h fun c => c.ckptDone
  case bar2Access => exact c.live h fun c => c.bar2Access
  case feedLinkDown => exact c.live h fun c => c.feedLinkDown
  case refPresent => exact c.live h fun c => c.refPresent
  case pllRelocked => exact c.live h fun c => c.pllRelocked
  case feedLinkUp => exact c.live h fun c => c.feedLinkUp
  case mgmtLaneUp => exact c.powered h fun c => c.mgmtLaneUp
  case mgmtLaneDown => exact c.powered h fun c => c.mgmtLaneDown
  case jtagInstruction => exact c.powered h fun c => c.jtagInstruction
  case addressRefusalExpired => exact c.powered h fun c => c.addrAgain

/-- Settles O4: nothing is listed at reset. -/
theorem resetStateIsCanonical : Obligations.ResetStateIsCanonical := by
  unfold Obligations.ResetStateIsCanonical
  exact canonical_reset

/-- Settles O5: a step is the command at the front of the queue, or a core cycle of the live device, and each keeps the canonical form. -/
theorem everyStepKeepsCanonicalForm : Obligations.EveryStepKeepsCanonicalForm := by
  unfold Obligations.EveryStepKeepsCanonicalForm
  intro s t c h
  unfold step at h
  split at h
  · exact c.live h fun c => c.coreCycle
  next i rest _ => exact canonical.exec (s := ⟨rest, s.dev⟩) c h

end Sys2Proof

namespace Sys2Proof.Machine

/-! ## A window load from stacks out of reach (R22, R233) -/

/-- A read that meets no error leaves memory. -/
theorem Dev.mem_readWord_none (d : Dev) (a : Nat) : (d.readWord a .none).2.mem = d.mem := by
  have counted : (d.countStk (a / 8 * 8) 8 false).mem = d.mem := by
    unfold Dev.countStk
    split <;> rfl
  have plain : (RdErr.none == RdErr.onDie) = false := rfl
  unfold Dev.readWord
  simp only [plain, Bool.and_false, Bool.false_eq_true, if_false]
  split
  · rfl
  · split
    · dsimp only
      split <;> exact counted
    · exact counted

section copy
variable {d : Dev} {src dst : Nat}

/-- A word copied without error changes no byte below its destination. -/
theorem Dev.memGet_copyWord_of_lt {a : Nat} (align : dst % 8 = 0) (low : a < dst) :
    memGet (if (d.readWord src .none).1.2 then (d.readWord src .none).2.pokePoison dst
      else (d.readWord src .none).2.poke dst (leBytes 8 (d.readWord src .none).1.1.toNat)).mem a = memGet d.mem a := by
  rw [← d.mem_readWord_none src]
  split
  · exact (memGet_memClear _ _ _ _).trans (if_neg fun within => by omega)
  · exact (memGet_memPutBytes _ _ _ _).trans (if_neg fun within => by omega)

/-- Words copied without error leave the bytes below the destination. -/
theorem Dev.memGet_copyWords_of_lt {n a : Nat} (align : dst % 8 = 0) (low : a < dst) :
    memGet (d.copyWords src dst n []).2.mem a = memGet d.mem a := by
  induction n generalizing d src dst with
  | zero => rfl
  | succ n ih => exact (ih (by omega) (by omega)).trans (Dev.memGet_copyWord_of_lt align low)

/-- The first of the words copied, out of reach, becomes its free value at the destination: memory does not come into it. -/
theorem Dev.memBytes_copyWords_unreachable (n : Nat) (align : dst % 8 = 0) (h : d.unreachable (src / 8 * 8) = true) :
    memBytes (d.copyWords src dst (n + 1) []).2.mem dst 8 = leBytes 8 (BitVec.ofNat 64 (Config.lostWord d.free (src / 8 * 8))).toNat := by
  have stored := memBytes_memPutBytes d.mem dst (leBytes 8 (BitVec.ofNat 64 (Config.lostWord d.free (src / 8 * 8))).toNat)
  rw [length_leBytes] at stored
  simp only [Dev.copyWords, List.headD_nil, Dev.readWord_unreachable _ h, Bool.false_eq_true, if_false]
  refine Eq.trans (List.map_congr_left fun i hi => ?_) stored
  exact Dev.memGet_copyWords_of_lt (by omega) (by have := List.mem_range.mp hi; omega)

/-- No word is found uncorrectable where the code meets no error. -/
theorem Dev.copyWords_none (n : Nat) : (d.copyWords src dst n []).1 = [] := by
  induction n generalizing d src dst with
  | zero => rfl
  | succ n ih => exact (if_neg (by simp [Dev.uncorrectable])).trans ih

/-- The memory that a window load without errors leaves is what the copy leaves. -/
theorem Dev.mem_windowLoadDone {t h : Nat} {e : WinEnt} (entry : fmGet (d.tile t).win h = some e) (loading : e.state = 2) :
    (d.windowLoadDone t h []).mem = (d.copyWords e.src (d.windowBase t + 4096 * e.frame) (512 * e.ingots) []).2.mem := by
  simp only [Dev.windowLoadDone, entry, loading, Dev.copyWords_none, ne_eq, not_true_eq_false, if_false, List.isEmpty_nil, if_true]
  rfl

end copy

namespace LostWindow

/-- An entry whose one ingot is on its way to frame 0, from 16,384, which lies in stack 4. -/
def entry : WinEnt := ⟨2, 0, 1, 1, 0, 16384⟩

/-- Tile 0, with that entry under handle 0. -/
def tile : Tile := { Tile.init with window := 8192, win := [(0, entry)], winOrder := [0], winHead := 1 }

/-- A device whose west half is RUNNING and whose east half is ORPHAN, with that tile and the memory given. -/
def dev (m : List Host.Cell) : Dev := { LostLoad.dev m with slots := [], insts := [], tiles := [(0, tile)] }

theorem live (m : List Host.Cell) : (dev m).live = true := rfl

/-- Frame 0 of tile 0's window region. -/
theorem frame (m : List Host.Cell) : 0x100000000000 = (dev m).windowBase 0 + 4096 * entry.frame := rfl

theorem anyPoison (m : List Host.Cell) : (dev m).anyPoison entry.src (4096 * entry.ingots) = false := rfl

theorem unreachable (m : List Host.Cell) : (dev m).unreachable (16384 / 8 * 8) = true := rfl

/-- The memory after the load: what the copy into frame 0 leaves. -/
theorem mem_after (m : List Host.Cell) : ((dev m).windowLoadDone 0 0 []).mem = ((dev m).copyWords 16384 0x100000000000 512 []).2.mem := by
  have after := Dev.mem_windowLoadDone (d := dev m) (t := 0) (h := 0) (e := entry) rfl rfl
  rwa [← frame m, show 512 * entry.ingots = 512 from rfl, show entry.src = 16384 from rfl] at after

theorem memBytes_take (m : List Host.Cell) (a : Nat) : (memBytes m a 4096).take 8 = memBytes m a 8 := by
  simp [memBytes, ← List.map_take, List.take_range]

/-- Under the statement, a free value would be the word that memory holds at the source, whatever it holds. -/
theorem lostWord_eq (h : Obligations.WindowPoolAndScrub) (m : List Host.Cell) :
    leBytes 8 (BitVec.ofNat 64 (Config.lostWord (dev []).free 16384)).toNat = memBytes m 16384 8 := by
  obtain ⟨-, -, -, loadDone, -⟩ := h ⟨[], dev m⟩ 0 (live m) _ rfl
  have done := of_does_live (f := fun d => d.windowLoadDone 0 0 []) rfl (live m)
    (loadDone 0 entry _ rfl rfl (frame m) rfl rfl (Or.inl (by decide)) (anyPoison m))
  obtain ⟨-, copied, -⟩ := done
  have copied8 := congrArg (List.take 8) copied
  rw [show 4096 * entry.ingots = 4096 from rfl, memBytes_take, memBytes_take, mem_after] at copied8
  exact (Dev.memBytes_copyWords_unreachable 511 rfl (unreachable m)).symm.trans copied8

end LostWindow

/-- Refutes O34: with the east half ORPHAN, stack 4 is out of reach, and a read of it gives free values (R22). A window load whose
source lies there fills its frame with these, the same for any two memories; the statement has the frame hold memory's bytes wherever
the source lies. -/
theorem not_windowPoolAndScrub : ¬ Obligations.WindowPoolAndScrub := fun h => by
  have same := (LostWindow.lostWord_eq h []).symm.trans (LostWindow.lostWord_eq h [(16384, 1)])
  exact absurd same (by decide)

end Sys2Proof.Machine

namespace Sys2Proof.Machine

/-! ## Damaged flits (R238, R265) -/

section damage
variable {d : Dev} {t u q n : Nat}

/-- The queue's route passes tile t, or no output feeds the queue. -/
def Dev.meets (d : Dev) (t u q : Nat) : Prop := ∀ v, d.sourceOf u q = some v → d.passes t (d.router v) (d.router u) = true

theorem Dev.flitError_payload {k : Token} (hk : (d.queue u q).moving[n]? = some k) (edge : d.meets t u q) :
    d.flitError t 1 u q n = (d.event E.TIL_NI_FLIT_UNCORR (tileAdd t)).setQueue u q
      { d.queue u q with flight := (d.queue u q).flight.set n { k with kind := 4#3 } } := by
  cases source : d.sourceOf u q with
  | none => simp [Dev.flitError, hk, source, kPoison]
  | some v => simp [Dev.flitError, hk, source, edge v source, kPoison]

theorem Dev.flitError_header (hn : n < (d.queue u q).moving.length) (edge : d.meets t u q) :
    d.flitError t 2 u q n = (d.event E.TIL_NI_HDR_DROP (tileAdd t)).setQueue u q
      { d.queue u q with flight := (d.queue u q).flight.eraseIdx n } := by
  cases source : d.sourceOf u q with
  | none => simp [Dev.flitError, hn, source]
  | some v => simp [Dev.flitError, hn, source, edge v source]

theorem Dev.flitError_configuration {m : CfgMsg} (hm : (d.net.cfg.filter fun m => m.tile == u)[n]? = some m) :
    d.flitError t 3 u q n = ({ d with net := { d.net with cfg := d.net.cfg.erase m } } : Dev).ctlDrop t := by
  simp only [Dev.flitError, hm]

theorem Dev.flitError_request {m : MemReq} (hm : d.net.mem.find? (fun m => m.tile == u && m.op == q &&
      d.passes t (d.router u) (d.targetRouter m.addr)) = some m) (slice : place m.addr ≠ .stack) :
    d.flitError t 4 u q n = ({ d with net := { d.net with mem := d.net.mem.erase m } } : Dev).ctlDrop t := by
  simp only [Dev.flitError, hm, Dev.memDrop, beq_eq_false_iff_ne.mpr slice, Bool.false_eq_true, if_false]

theorem Dev.flitError_till {m : TillReq} (hm : d.net.till.find? (fun m => m.tile == u && m.op == q && m.reply.isNone &&
      d.passes t (d.router u) (d.targetRouter m.addr)) = some m) :
    d.flitError t 6 u q n = ({ d with net := { d.net with till := d.net.till.erase m } } : Dev).ctlDrop t := by
  simp only [Dev.flitError, hm]

theorem Dev.flitError_row {w : Walk} {a : Nat} (hw : (d.slot u q).walk = some w) (ha : flightAddr n w.ahead = some a)
    (edge : d.passes t (d.targetRouter a) (d.router u) = true) :
    d.flitError t 9 u q n = (d.event E.TIL_NI_FLIT_UNCORR (tileAdd t)).setSlot u q
      { d.slot u q with walk := some { w with ahead := fillRow (0, true) n w.ahead } } := by
  simp only [Dev.flitError, hw, ha, edge, if_true]

/-- A dropped control message counts at its tile and is a fault of its half (R265, R282). -/
theorem Dev.ctlDrop_counts (d : Dev) (t : Nat) : (d.ctlDrop t).fget F.TIL_NI_EVENT_CTL_DROP (tileAdd t) = 1 :=
  d.fget_event_next (v := E.TIL_NI_CTL_DROP) rfl (by decide) rfl _

end damage

/-! ## The throttle (R264, R522) -/

/-- The power level after a sample (R522). -/
def powerLevel (p power : Nat) : Nat := if power = 2 then min 16 (p + 1) else if power = 0 then p - 1 else p

theorem powerLevel_fin (p : Nat) (power : Fin 3) :
    powerLevel p power.val = if power = 2 then min 16 (p + 1) else if power = 0 then p - 1 else p := by
  simp only [powerLevel, Fin.ext_iff]
  rfl

/-- A level one step nearer its target. -/
def stepToward (old target : Nat) : Nat := if old < target then old + 1 else if target < old then old - 1 else old

/-- The field of MBX_STATUS that shows a half's level. -/
def throtField (h : HalfId) : Fld := if h then F.MBX_STATUS_THROT_E else F.MBX_STATUS_THROT_W

section throttle
variable {d : Dev} {h : HalfId} {power : Nat}

/-- The level a half sends next: one step toward the largest of Lt, Ls and Lp. -/
def Dev.nextLevel (d : Dev) (h : HalfId) (power : Nat) : Nat :=
  stepToward (d.sentLevel h) (max (max (d.throttleT h) (d.throttleS h)) (powerLevel (if h then d.mg.lpE else d.mg.lpW) power))

/-- The device with a half's power level and the level it sends, before these are reported. -/
def Dev.throttled (d : Dev) (h : HalfId) (power : Nat) : Dev :=
  let p := powerLevel (if h then d.mg.lpE else d.mg.lpW) power
  let new := d.nextLevel h power
  let e : Dev := { d with
    mg := if h then { d.mg with lpE := p } else { d.mg with lpW := p }
    net := if h then { d.net with sentE := new } else { d.net with sentW := new } }
  if d.sentLevel h = new then e else { e with net := { e.net with levels := e.net.levels ++ [(h, new, 0)] } }

/-- A THROTTLE_UPDATE sets the levels and MBX_STATUS; a trace record, an event and a strongbox record may follow. -/
theorem Dev.throttleUpdate_induction {P : Dev → Prop} (set : P ((d.throttled h power).fset (throtField h) (d.nextLevel h power)))
    (trace : ∀ x b, P x → P (x.traceRec 4 b))
    (report : ∀ x b, P x → P ((x.mbxEvent E.MBX_THERM_THROTTLE).sbLog 0x0010 1 b)) : P (d.throttleUpdate h power) := by
  have sent : P (if d.sentLevel h = d.nextLevel h power then (d.throttled h power).fset (throtField h) (d.nextLevel h power)
      else ((d.throttled h power).fset (throtField h) (d.nextLevel h power)).traceRec 4 [if h then 1 else 0, d.nextLevel h power]) := by
    split
    · exact set
    · exact trace _ _ set
  exact iteInduction (fun _ => report _ _ sent) fun _ => sent

/-- What depends on no register, nor on the management subsystem, nor on what is sent out, is as the levels' change leaves it. -/
theorem Dev.throttleUpdate_keep {β : Type} (g : Dev → β) (hregs : ∀ d x, g { d with regs := x } = g d)
    (hmg : ∀ d x, g { d with mg := x } = g d) (hout : ∀ d x, g { d with out := x } = g d) :
    g (d.throttleUpdate h power) = g (d.throttled h power) :=
  Dev.throttleUpdate_induction (P := fun x => g x = g (d.throttled h power)) (hregs _ _)
    (fun _ _ k => (Dev.traceRec_keep g hmg _ _ _).trans k)
    (fun _ _ k => ((Dev.sbLog_keep g hregs hmg hout _ _ _ _).trans (Dev.mbxEvent_keep g hregs hmg hout _ _)).trans k)

/-- The field that shows a half's level is no part of the events that a step of the level may raise. -/
theorem throtField_key_notMem (h : HalfId) :
    (throtField h).key 0 ∉ evKeys E.MBX_SB_DROPPED ∧ (throtField h).key 0 ∉ evKeys E.MBX_THERM_THROTTLE := by cases h <;> decide

theorem Dev.fget_throttleUpdate : (d.throttleUpdate h power).fget (throtField h) = d.nextLevel h power % 2 ^ (throtField h).w := by
  obtain ⟨dropped, warned⟩ := throtField_key_notMem h
  refine Dev.throttleUpdate_induction (P := fun x => x.fget (throtField h) = _) (Dev.fget_fset_self _ _ _ _) (fun x b k => ?_)
    (fun x b k => ?_)
  · exact (Dev.fget_congr (Dev.traceRec_regs x 4 b) _ _).trans k
  · have logged : ((x.mbxEvent E.MBX_THERM_THROTTLE).sbLog 0x0010 1 b).fget (throtField h) = (x.mbxEvent E.MBX_THERM_THROTTLE).fget (throtField h) :=
      congrArg (·.getD (throtField h).rst) (Dev.regs_sbLog _ _ _ b _ dropped)
    exact (logged.trans (Dev.fget_congr (Dev.regs_mbxEvent x _) _ _)).trans ((x.event_regsBut _ 0).fget _ 0 warned |>.trans k)

theorem Dev.sentLevel_throttled : (d.throttled h power).sentLevel h = d.nextLevel h power := by
  unfold Dev.throttled
  cases h <;> dsimp only <;> split <;> rfl

theorem Dev.sentLevel_throttled_other : (d.throttled h power).sentLevel (!h) = d.sentLevel (!h) := by
  unfold Dev.throttled
  cases h <;> dsimp only <;> split <;> rfl

/-- A device without what a THROTTLE_UPDATE changes. -/
def Dev.besidesThrottle (d : Dev) : Dev := { d with regs := [], net := NetS.init, mg := MgmtS.init, out := [] }

theorem Dev.eq_of_besidesThrottle {d e : Dev} (h : e.besidesThrottle = d.besidesThrottle) :
    e = { d with regs := e.regs, net := e.net, mg := e.mg, out := e.out } :=
  congrArg (fun z : Dev => { z with regs := e.regs, net := e.net, mg := e.mg, out := e.out }) h

theorem Dev.besidesThrottle_throttled : (d.throttled h power).besidesThrottle = d.besidesThrottle := by
  unfold Dev.throttled
  dsimp only
  split <;> rfl

end throttle

theorem Dev.throttleLevel_due {d : Dev} {h : HalfId} {p : HalfId × Nat × Nat} (due : d.levelDue h = some p) (old : 20 ≤ p.2.2)
    (frame : d.fget F.TAL_PHASE_CYCLE % 16 = 0) : d.throttleLevel h =
      { d with mg := if h then { d.mg with levelE := p.2.1 } else { d.mg with levelW := p.2.1 }
               net := { d.net with levels := d.net.levels.erase p } } := by
  simp [Dev.throttleLevel, due, frame, Nat.not_lt.mpr old]

theorem Dev.throttleLevel_early {d : Dev} {h : HalfId} {p : HalfId × Nat × Nat} (due : d.levelDue h = some p)
    (early : p.2.2 < 20 ∨ d.fget F.TAL_PHASE_CYCLE % 16 ≠ 0) : d.throttleLevel h = d := by
  simp only [Dev.throttleLevel, due]
  exact if_pos (by simpa using early)

/-! ## Tile commands (R256) -/

/-- A tile that another tile's change leaves. -/
theorem Dev.tile_modTile_ne (d : Dev) {t u : Nat} (f : Tile → Tile) (h : u ≠ t) : (d.modTile t f).tile u = d.tile u := by
  simp [Dev.modTile, Dev.tile, fmMod, fmGet_fmSet, Ne.symm h]

/-- Settles O35: a command for each kind of damage; the throttle's levels through `Dev.throttled`; a tile's commands. -/
theorem networkDamageThrottleAndTileCommands : Obligations.NetworkDamageThrottleAndTileCommands := by
  intro s live onRoute hr
  subst hr
  refine ⟨fun t u q n => ⟨?_, fun k hk edge => ?_, fun hn edge => ?_, fun m hm => ?_, fun m hm slice => ?_, fun m hm => ?_,
    fun w a hw ha edge => ?_⟩, fun h power p target old hp ho ht => ?_, fun h p due => ⟨fun late frame => ?_, fun early => ?_⟩,
    fun t b hb => ?_⟩
  · refine does_live (fun d => d.flitError t.toNat 0 u.toNat q.toNat n) rfl live ⟨?_, s.dev.event_regsBut _ _, rfl⟩
    exact s.dev.fget_event_next (v := E.TIL_NI_FLIT_CORR) rfl (by decide) rfl _
  · refine does_live (fun d => d.flitError t.toNat 1 u.toNat q.toNat n) rfl live ?_
    rw [Dev.flitError_payload hk edge]
    exact ⟨s.dev.fget_event_next (v := E.TIL_NI_FLIT_UNCORR) rfl (by decide) rfl _, Dev.queue_setQueue_self _ _ _ _,
      s.dev.event_regsBut _ _, rfl⟩
  · refine does_live (fun d => d.flitError t.toNat 2 u.toNat q.toNat n) rfl live ?_
    rw [Dev.flitError_header hn edge]
    exact ⟨s.dev.fget_event_next (v := E.TIL_NI_HDR_DROP) rfl (by decide) rfl _, Dev.queue_setQueue_self _ _ _ _,
      s.dev.event_regsBut _ _, rfl⟩
  · refine does_live (fun d => d.flitError t.toNat 3 u.toNat q.toNat n) rfl live ?_
    rw [Dev.flitError_configuration hm]
    exact ⟨rfl, Dev.ctlDrop_counts _ _, rfl, rfl⟩
  · refine does_live (fun d => d.flitError t.toNat 4 u.toNat q.toNat n) rfl live ?_
    rw [Dev.flitError_request hm slice]
    exact ⟨rfl, Dev.ctlDrop_counts _ _, rfl, rfl⟩
  · refine does_live (fun d => d.flitError t.toNat 6 u.toNat q.toNat n) rfl live ?_
    rw [Dev.flitError_till hm]
    exact ⟨rfl, Dev.ctlDrop_counts _ _, rfl, rfl⟩
  · refine does_live (fun d => d.flitError t.toNat 9 u.toNat q.toNat n) rfl live ?_
    rw [Dev.flitError_row hw ha edge]
    exact ⟨s.dev.fget_event_next (v := E.TIL_NI_FLIT_UNCORR) rfl (by decide) rfl _, congrArg Slot.walk (Dev.slot_setSlot_self _ _ _ _), rfl⟩
  · subst hp ho ht
    have level := (Dev.throttleUpdate_keep (d := s.dev) (power := power.val) (Dev.sentLevel · h) (fun _ _ => rfl) (fun _ _ => rfl)
      fun _ _ => rfl).trans Dev.sentLevel_throttled
    have other := (Dev.throttleUpdate_keep (d := s.dev) (h := h) (power := power.val) (Dev.sentLevel · !h) (fun _ _ => rfl)
      (fun _ _ => rfl) fun _ _ => rfl).trans Dev.sentLevel_throttled_other
    have rest := (Dev.throttleUpdate_keep (d := s.dev) (h := h) (power := power.val) Dev.besidesThrottle (fun _ _ => rfl)
      (fun _ _ => rfl) fun _ _ => rfl).trans Dev.besidesThrottle_throttled
    refine does_live (fun d => d.throttleUpdate h power.val) rfl live ⟨?_, other, ?_, Dev.eq_of_besidesThrottle rest⟩
    · rw [level, Dev.nextLevel, powerLevel_fin]; rfl
    · rw [level]
      refine Dev.fget_throttleUpdate.trans ?_
      cases h <;> rfl
  · refine does_live (fun d => d.throttleLevel h) rfl live ?_
    rw [Dev.throttleLevel_due due late frame]
    cases h <;> exact ⟨rfl, rfl, rfl⟩
  · exact exec_onLive_same (fun d => d.throttleLevel h) rfl (Dev.throttleLevel_early due early)
  · refine does_live (fun d => d.tileCommand t.toNat b) rfl live ⟨?_, fun u hu => Dev.tile_modTile_ne _ _ hu, rfl⟩
    unfold Dev.tileCommand
    rw [Dev.tile_modTile_self, List.take_left' hb]

end Sys2Proof.Machine

namespace Sys2Proof.Machine

/-! ## An escrow PUSH to an ingot out of reach (R22, R375) -/

namespace LostEscrow

/-- A holder item: tensor 7 of device 8,192, five data ingots, both slots at address 0 (Table 15-1). -/
def item : List Byte := LostRing.bytesBy 64 [(0, 2), (3, 0x20), (4, 7), (24, 5)]

/-- An image with that item as its one SURVIVAL item (Tables 6-1, 6-2). -/
def image : List Byte :=
  LostRing.bytesBy 288 [(0x0C, 1), (256, 12), (258, 0xFF), (260, 1), (264, 0x20), (265, 1), (272, 64)] ++ item

/-- An escrow PUSH of device 8,192: one ingot at offset 16,384 of tensor 7's slot, its first row given. -/
def push : Xfer := { Xfer.blank with op := 3, origin := 8192, addr := 16384, len := 1, operand := 7, rows := [(1, false)] }

/-- The transfer come whole, on virtual channel 1 (Table 10-3). -/
def arrival : RxXfer := ⟨0, false, 1, 0, true, [⟨0, false, 0, xferUnit push⟩, ⟨0, false, 0, 1⟩]⟩

/-- A device of rank 0 whose west half is RUNNING and whose east half is ORPHAN, with the transfer on its port toward rank 1. -/
def dev : Dev :=
  (({ Dev.reset with
      pw := { PowerS.init with pwrGood := true, resetN := true }
      img0 := some { bytes := image, bufB := false, cur := 0, epoch := false, prev := 0, tag := 0 }
      ports := [(8, { Port.init with rx := [arrival] })] }.fset F.DEV_STATE_STATE_W 4).fset F.DEV_STATE_STATE_E 7).fset F.DEV_STATE_SUB_E 1

theorem live : dev.live = true := rfl

/-- The transfer is taken from the port, and its row is lost, for the ingot at 16,384 lies in stack 4: memory is as empty after it as
before, without the row. -/
theorem taken_and_lost : dev.arrived 8 3 true = some (arrival, push) ∧ (dev.escrowTransfer 8 0 []).mem = [] ∧
    memBytes [] 16384 64 ≠ rowBytes 1 := by decide +kernel

theorem escrowItem : dev.escrowItem 8 push = some item := rfl

theorem slotAddr : dev.slotAddr item (!xferPull push) = 0 := rfl

/-- The slot's first ingot lies in the west half, so that no check refuses the transfer. -/
theorem accepted : (dev.formCheck 8 push (dev.addrHalf 0) 0).1 = none := rfl

/-- The transfer lies within the slot and is of the holder's tenant. -/
theorem fits : push.addr.toNat + 4096 * push.len.toNat ≤ hiHeader item + 4096 ∧ push.tenant.toNat = dev.tagOf (portHalf 8) := by
  decide

end LostEscrow

/-- Refutes O45: with the east half ORPHAN, stack 4 is out of reach (R22). The half of a slot's first ingot decides whether a PUSH is
served, and `Dev.store` loses the rows of an ingot further on that lies in stack 4; the statement has PEND hold them. -/
theorem not_escrowTransfersAndParityReachTheHolder : ¬ Obligations.EscrowTransfersAndParityReachTheHolder := by
  intro h
  obtain ⟨fits, tenant⟩ := LostEscrow.fits
  obtain ⟨taken, lost, noRow⟩ := LostEscrow.taken_and_lost
  obtain ⟨-, escrow, -⟩ := h ⟨[], LostEscrow.dev⟩ 8 0 LostEscrow.arrival LostEscrow.push _ _ LostEscrow.live rfl rfl
  obtain ⟨-, -, served⟩ := escrow taken (by decide)
  obtain ⟨-, forItem⟩ := served (by decide) (by decide)
  obtain ⟨-, checked⟩ := forItem LostEscrow.item 0 LostEscrow.escrowItem LostEscrow.slotAddr.symm rfl
  obtain ⟨-, transfer⟩ := checked LostEscrow.accepted
  obtain ⟨-, push⟩ := transfer rfl fits tenant
  have pushed := of_does_live (f := fun d => d.escrowTransfer 8 0 []) rfl LostEscrow.live (push [] rfl)
  obtain ⟨-, rows, -⟩ := pushed
  obtain ⟨bytes, -⟩ := rows 0 (1, false) (by decide) rfl
  have stored := bytes rfl
  rw [lost] at stored
  exact noRow stored

end Sys2Proof.Machine

namespace Sys2Proof.Machine

/-! ## Barriers and votes (R259–R261) -/

theorem fmGet_fmMod {α : Type} (m : FMap α) (k j : Nat) (u : α) (f : α → α) :
    fmGet (fmMod m k u f) j = if j = k then some (f ((fmGet m k).getD u)) else fmGet m j := by
  simp only [fmMod, fmGet_fmSet, eq_comm]

section arrival
variable {d : Dev} {t s op : Nat} {x : Slot} {c : Cfg} {w : Nat}

/-- What an instruction changes that sends over the networks and waits. -/
theorem Dev.ccIssued_sends (h : d.ccNext t s op = some (x, c, w)) (n : NetS) (q : CcWait) :
    let e := ({ d with net := n } : Dev).ccIssued t s fun y => { y with wait := q }
    ccIssues d e t s { x.cc with pc := x.cc.pc + 4, wait := q } ∧
      e = { d with regs := e.regs, slots := e.slots, tiles := e.tiles, net := n } := by
  obtain ⟨issues, -, -⟩ := ({ d with net := n } : Dev).ccIssued_issues t s (fun y => { y with wait := q }) x.cc (Dev.cc_of_ccNext h)
  exact ⟨issues, rfl⟩

/-- A barrier's arrivals with tile t among them, once. -/
def arrivedWith (l : List Nat) (t : Nat) : List Nat := if l.contains t then l else l ++ [t]

/-- A channel's contributions with that of tile t, whose first use of the generation alone counts (R261): the bit `a`, poisoned as
`a.2` says. -/
def votedWith (l : List (Nat × Bool × Bool)) (t : Nat) (a : Nat × Bool) : List (Nat × Bool × Bool) :=
  if l.any (fun v => v.1 == t) then l else l ++ [(t, a.2 || decide (a.1 % 2 = 1), !a.2 && decide (a.1 % 2 = 1))]

theorem Dev.ccBar_eq (h : d.ccNext t s 0x60 = some (x, c, w)) : d.ccBar t s =
    ({ d with net := { d.net with bars := fmMod d.net.bars (d.syncKey (tileHalf t) (bits w 18 14)) [] (arrivedWith · t) } } : Dev).ccIssued
      t s fun y => { y with wait := .barrier (bits w 18 14) } := by
  simp only [Dev.ccBar, h, arrivedWith]

theorem Dev.ccVote_eq (h : d.ccNext t s op = some (x, c, w)) (isAnd : Bool) {a : Nat × Bool} (ha : a = x.cc.get (ccRs1 w)) {ch : Nat}
    (hch : ch = (x.cc.get (ccRs2 w)).1 % 8) : d.ccVote t s op isAnd =
    ({ d with net := { d.net with votes := fmMod d.net.votes (d.syncKey (tileHalf t) ch) [] (votedWith · t a) } } : Dev).ccIssued
      t s fun y => { y with wait := .vote ch (ccRd w) isAnd (a.2 || (x.cc.get (ccRs2 w)).2) } := by
  subst ha hch
  simp only [Dev.ccVote, h, votedWith, Bool.or_comm (x.cc.get (ccRs1 w)).2, Bool.and_comm (!_)]
  rfl

end arrival

section release
variable {d : Dev} {h : HalfId} {k : Nat} {x : Slot}

/-- A release changes the operators of the scope that wait for it, and no other. -/
theorem Dev.fmGet_releaseCc (hx : fmGet d.slots k = some x) (p : CcWait → Bool) (f : CcCtx → CcCtx) :
    fmGet (d.releaseCc h p f).slots k =
      some (if p x.cc.wait = true ∧ (d.split = true → tileHalf (k / 32) = h) then { x with cc := f x.cc } else x) := by
  simp only [Dev.releaseCc, fmGet_fmMap, hx, Option.map_some]
  cases d.split <;> simp

theorem Dev.barrierComplete_eq {b : Nat} {l : List Nat} (arrived : fmGet d.net.bars (d.syncKey h b) = some l) (some_arrived : l ≠ [])
    (all : ∀ t ∈ d.scopeTiles h, bit (d.fget F.TIL_SYNC_BMASK_MASK (tileAdd t)) b = true → t ∈ l) : d.barrierComplete h b =
    { d.releaseCc h (· == .barrier b) fun y => { y with wait := .none } with
      net := { d.net with bars := fmErase d.net.bars (d.syncKey h b) } } := by
  refine if_neg ?_
  simpa [arrived, some_arrived] using all

/-- What an operator waits for is a vote on the channel. -/
def CcWait.onChannel (ch : Nat) : CcWait → Bool
  | .vote c _ _ _ => c == ch
  | _ => false

theorem CcWait.onChannel_iff {ch : Nat} {q : CcWait} : q.onChannel ch = true ↔ ∃ rd isAnd psn, q = .vote ch rd isAnd psn := by
  cases q <;> simp [CcWait.onChannel]

/-- The context of an operator that waits for a vote, once the OR and the AND are known (R260). -/
def CcCtx.voteReply (any all : Bool) (y : CcCtx) : CcCtx :=
  match y.wait with
  | .vote _ rd isAnd psn => { y.set rd (if (if isAnd then all else any) then 1 else 0) psn with wait := .none }
  | _ => y

theorem CcCtx.voteReply_wrote {y : CcCtx} {ch rd : Nat} {isAnd psn : Bool} (wait : y.wait = .vote ch rd isAnd psn) (any all : Bool) :
    ∃ z, ccWrote y z rd (if (if isAnd then all else any) then 1 else 0) psn y.pc ∧ y.voteReply any all = { z with wait := .none } := by
  have word : ∀ r : Bool, (if r then 1 else 0) < 2 ^ 64 := by decide
  exact ⟨y.set rd _ psn, y.set_wrote rd _ y.pc psn (word _), by simp only [CcCtx.voteReply, wait]⟩

theorem Dev.voteResult_eq {ch : Nat} {l : List (Nat × Bool × Bool)} (voted : fmGet d.net.votes (d.syncKey h ch) = some l)
    (some_voted : l ≠ []) (all : ∀ t ∈ d.scopeTiles h, (d.tile t).votes = true → ∃ v ∈ l, v.1 = t) : d.voteResult h ch =
    { d.releaseCc h (CcWait.onChannel ch) (CcCtx.voteReply (l.any (·.2.1)) (l.all (·.2.2))) with
      net := { d.net with votes := fmErase d.net.votes (d.syncKey h ch) } } := by
  have contributed : ((d.scopeTiles h).filter fun t => (d.tile t).votes).all (fun t => l.any fun v => v.1 == t) = true := by
    simpa only [List.all_eq_true, List.any_eq_true, List.mem_filter, beq_iff_eq, and_imp] using all
  have nonempty : l.isEmpty = false := by simpa using some_voted
  unfold Dev.voteResult
  simp only [voted, Option.getD_some, contributed, nonempty, Bool.not_true, Bool.or_self, Bool.false_eq_true, if_false]
  rfl

end release

/-- Settles O33: an arrival and a contribution by `Dev.ccIssued_sends`, the two releases by `Dev.fmGet_releaseCc`. -/
theorem barriersAndVotesReleaseEveryWaiter : Obligations.BarriersAndVotesReleaseEveryWaiter := by
  unfold Obligations.BarriersAndVotesReleaseEveryWaiter
  intro s live
  refine ⟨fun t sl x c w => ⟨?bar, ?vote⟩, fun h b l arrived some_arrived all => ?complete, fun h ch l voted some_voted all => ?result⟩
  case bar =>
    rintro b k next rfl rfl
    refine does_live (fun d => d.ccBar t.toNat sl.toNat) rfl live ?_
    rw [Dev.ccBar_eq next]
    obtain ⟨issues, frame⟩ := Dev.ccIssued_sends next _ _
    exact ⟨issues, fun j => fmGet_fmMod _ _ j [] (arrivedWith · t.toNat), frame⟩
  case vote =>
    rintro p hp a ch k l next ha hch rfl rfl
    have command : exec p.1 s = onLive (fun d => d.ccVote t.toNat sl.toNat p.2.1 p.2.2) s := by fin_cases hp <;> rfl
    refine does_live _ command live ?_
    rw [Dev.ccVote_eq next _ ha hch]
    obtain ⟨issues, frame⟩ := Dev.ccIssued_sends next _ _
    exact ⟨issues, fun j => fmGet_fmMod _ _ j [] (votedWith · t.toNat a), frame⟩
  case complete =>
    refine does_live (fun d => d.barrierComplete h b.toNat) rfl live ?_
    rw [Dev.barrierComplete_eq arrived some_arrived all]
    refine ⟨fmGet_fmErase_self _ _, fun k x hx => ?_, rfl⟩
    simpa only [beq_iff_eq] using Dev.fmGet_releaseCc (h := h) hx (· == .barrier b.toNat) fun y => { y with wait := .none }
  case result =>
    refine does_live (fun d => d.voteResult h ch.toNat) rfl live ?_
    rw [Dev.voteResult_eq voted some_voted all]
    have released := fun {k x} (hx : fmGet s.dev.slots k = some x) =>
      Dev.fmGet_releaseCc (h := h) hx (CcWait.onChannel ch.toNat) (CcCtx.voteReply (l.any (·.2.1)) (l.all (·.2.2)))
    refine ⟨fmGet_fmErase_self _ _, fun k x rd isAnd psn hx wait scope => ?_, fun k x hx other => ?_, rfl⟩
    · obtain ⟨z, wrote, replied⟩ := CcCtx.voteReply_wrote wait (l.any (·.2.1)) (l.all (·.2.2))
      refine ⟨_, z, (released hx).trans (congrArg some (if_pos ⟨CcWait.onChannel_iff.mpr ⟨_, _, _, wait⟩, scope⟩)), wrote, ?_⟩
      rw [replied]
    · refine (released hx).trans (congrArg some (if_neg ?_))
      rintro ⟨waiting, scope⟩
      obtain ⟨rd, isAnd, psn, wait⟩ := CcWait.onChannel_iff.mp waiting
      exact other.elim (fun no => no rd isAnd psn wait) fun ⟨split, outside⟩ => outside (scope split)

end Sys2Proof.Machine

namespace Sys2Proof.Machine

-- The declarations below are elaborated one after another, on one thread: this bounds the memory that checking the whole text takes.
set_option Elab.async false

/-! ## A state ingot to stacks out of reach (R22, R281) -/

namespace LostState

/-- A survival header without parity whose state ingot lies at 16,384 (Table 15-1). -/
def header : List Byte := LostRing.bytesBy 64 [(25, 0x40)]

/-- A step record of one micro-batch (Table 11-7). -/
def step : List Byte := LostRing.bytesBy 64 [(1, 1)]

/-- An image with that SURVIVAL item and that STEP item (Tables 6-1, 6-2). -/
def image : List Byte :=
  LostRing.bytesBy 320 [(0x0C, 2), (256, 12), (258, 0xFF), (260, 1), (264, 0x40), (265, 1), (272, 64),
    (288, 13), (290, 0xFF), (292, 1), (296, 0x80), (297, 1), (304, 64)] ++ header ++ step

/-- A run in its first attempt, the backward pass of its one micro-batch ended. -/
def run : RunS := { RunS.fresh 0 0 0 with base := 3, sa := some 0, ended := [(3, 0, 0)] }

/-- A device whose west half is RUNNING that run and whose east half is ORPHAN. -/
def dev : Dev :=
  (({ Dev.reset with
      pw := { PowerS.init with pwrGood := true, resetN := true }
      img0 := some { bytes := image, bufB := false, cur := 0, epoch := false, prev := 0, tag := 0 }
      step0 := { StepS.init with run := some run } }.fset F.DEV_STATE_STATE_W 4).fset F.DEV_STATE_STATE_E 7).fset F.DEV_STATE_SUB_E 1

theorem live : dev.live = true := rfl

theorem microBatch : (0#8).toNat < microBatches (dev.imageBytes false) := by decide +kernel

theorem tailDue : dev.passDue false run (5 : Fin 6).val (0#8).toNat (0#8).toNat = true := by decide +kernel

theorem hasHeader : survHdr (dev.imageBytes false) = some header := by decide +kernel

/-- The ingot at 16,384 lies in stack 4, so that its store is lost: memory is as empty after the TAIL pass is admitted as before. -/
theorem mem_after : (dev.passAdmit false (5 : Fin 6).val (0#8).toNat (0#8).toNat [] []).mem = [] := by decide +kernel

/-- The state ingot begins with the next step number, 1; empty memory reads zero. -/
theorem memBytes_ne_stateBytes : memBytes [] (shState header) 4096 ≠ dev.stateBytes false true := by decide +kernel

end LostState

/-- Refutes O38: with the east half ORPHAN, stack 4 is out of reach (R22), and `Dev.store` loses the state ingot that the admission of a
TAIL pass writes there; the statement has memory hold it wherever the image places it. -/
theorem not_runAttemptAndPassesProceed : ¬ Obligations.RunAttemptAndPassesProceed := by
  unfold Obligations.RunAttemptAndPassesProceed
  intro h
  obtain ⟨-, ofRun⟩ := h ⟨[], LostState.dev⟩ false LostState.live _ rfl
  obtain ⟨-, -, -, -, -, -, tail, -⟩ := ofRun LostState.run rfl
  have admitted := of_does_live (f := fun d => d.passAdmit false (5 : Fin 6).val (0#8).toNat (0#8).toNat [] []) rfl LostState.live
    (tail 5 0 0 [] [] rfl rfl rfl rfl rfl rfl (by decide) LostState.microBatch LostState.tailDue (by simp) (by decide))
  obtain ⟨-, -, -, -, state⟩ := admitted
  obtain ⟨stored, -⟩ := state LostState.header rfl LostState.hasHeader
  rw [LostState.mem_after] at stored
  exact LostState.memBytes_ne_stateBytes stored

/-! ## A failed checkpoint whose successor takes the number of its command (R10, R492, R496) -/

namespace CopyAgain

/-- The command of an ingot, written a second time, of number 0. -/
def cmd : NvmeCmd := ⟨0, 1, 0, 8, 1, 0, true⟩

/-- A checkpoint of one ingot under way with that command outstanding, a new copy of one ingot asked for in the cycle in which it ends, and the
number 0 given to the next command too. -/
def feed : FeedS :=
  { FeedS.init with
      ns := [⟨0, 0, 8, false⟩], cmds := [(0, cmd)], nextCmd := 0, ckpt := some (0, 0, 0, 1, false), ckptAgain := some 256 }

/-- A device with that feed port, its namespace bound to the whole device. -/
def dev : Dev :=
  { Dev.reset with pw := { PowerS.init with pwrGood := true, resetN := true }, feed := feed }.fset F.FED_NS_BIND 3

theorem live : dev.live = true := rfl

/-- The second failure ends the copy, and the new copy's first command goes out with number 0. -/
theorem cmd_after : (fmGet (dev.nvmeFail 0 stTimeout).feed.cmds 0).isSome = true := by decide +kernel

end CopyAgain

/-- Refutes O60: the statement has the number of a command that has failed twice free afterwards. Where a new copy is due in that cycle, it
starts with the failure of the old one, and its first command has the next number, which here is that of the failed command. (The feed
counts the numbers up from command to command, so that a number given out lies below the next; the statement ranges over every
device.) -/
theorem not_nvmeCompletionsDeliverOrFail : ¬ Obligations.NvmeCompletionsDeliverOrFail := by
  unfold Obligations.NvmeCompletionsDeliverOrFail
  intro h
  obtain ⟨-, fails, -⟩ := h ⟨[], CopyAgain.dev⟩ CopyAgain.live
  obtain ⟨-, second⟩ := fails 0 CopyAgain.cmd [] [] [] rfl (.nvmeTimeout 0, stTimeout) (by simp)
  obtain ⟨-, free, -⟩ := of_does_live (f := fun d => d.nvmeFail 0 stTimeout) rfl CopyAgain.live (second rfl)
  have taken := CopyAgain.cmd_after
  rw [free] at taken
  exact absurd taken (by decide)

/-! ## The step controller read back -/

/-- What finds a step controller and is found there: whether tenancy is split, and both controllers (R269). -/
def Dev.ctl (d : Dev) : Bool × StepS × StepS := (d.split, d.step0, d.step1)

section control
variable {d e : Dev} (h : HalfId)

theorem Dev.split_of_ctl (k : e.ctl = d.ctl) : e.split = d.split := congrArg (·.1) k

theorem Dev.stepc_of_ctl (k : e.ctl = d.ctl) : e.stepc h = d.stepc h := by
  obtain ⟨split, step0, step1⟩ : _ ∧ _ ∧ _ := by simpa only [Dev.ctl, Prod.mk.injEq] using k
  unfold Dev.stepc
  rw [split, step0, step1]

theorem Dev.stepAdd_of_ctl (k : e.ctl = d.ctl) : e.stepAdd h = d.stepAdd h := by
  unfold Dev.stepAdd
  rw [Dev.split_of_ctl k]

theorem Dev.stepAdd_cases (d : Dev) : d.stepAdd h = 0 ∨ d.stepAdd h = 2 ^ 32 := by
  unfold Dev.stepAdd
  split <;> simp

/-- No step register is that of split tenancy. -/
theorem stepKey_ne_split (d : Dev) {f : Fld} (off : f.off < 0x2000 := by decide) (lo : f.lo < 64 := by decide) :
    f.key (d.stepAdd h) ≠ F.SEC_STATUS_SPLIT.key 0 := by
  have split : F.SEC_STATUS_SPLIT.key 0 = 8 * 0x9000000 + 3 := rfl
  rw [split]
  unfold Fld.key
  rcases d.stepAdd_cases h with a | a <;> omega

end control

section ctl
variable (d : Dev) (h : HalfId)

/-- A part of the device that sees of the registers SPLIT alone, and of the rest what both step controllers are made of, is kept. -/
theorem Dev.ctl_of_regs {d e : Dev} (k : fmGet e.regs (F.SEC_STATUS_SPLIT.key 0) = fmGet d.regs (F.SEC_STATUS_SPLIT.key 0))
    (s0 : e.step0 = d.step0) (s1 : e.step1 = d.step1) : e.ctl = d.ctl := by
  unfold Dev.ctl Dev.split Dev.flag Dev.fget
  rw [k, s0, s1]

theorem Dev.ctl_fset {f : Fld} {a : Nat} (v : Nat) (k : f.key a ≠ F.SEC_STATUS_SPLIT.key 0) : (d.fset f v a).ctl = d.ctl :=
  Dev.ctl_of_regs (d.regs_fset_ne _ _ _ _ k) rfl rfl

theorem Dev.ctl_event {v : Ev} {a : Nat} (b : v.bit.key a ≠ F.SEC_STATUS_SPLIT.key 0) (c : v.cnt.key a ≠ F.SEC_STATUS_SPLIT.key 0) :
    (d.event v a).ctl = d.ctl :=
  (Dev.ctl_fset _ _ c).trans (d.ctl_fset 1 b)

@[simp] theorem Dev.ctl_contribute (t i n : Nat) (x y z : Bool) : (d.contribute t i n x y z).ctl = d.ctl := rfl
@[simp] theorem Dev.ctl_dropResult (t i : Nat) : (d.dropResult t i).ctl = d.ctl := rfl
@[simp] theorem Dev.ctl_dropFaults : (d.dropFaults h).ctl = d.ctl := rfl

theorem Dev.holdScope_keep {β : Type} (g : Dev → β) (hheldW : ∀ d x, g { d with heldW := x } = g d)
    (hheldE : ∀ d x, g { d with heldE := x } = g d) (v : Bool) : g (d.holdScope h v) = g d := by
  unfold Dev.holdScope
  split
  · exact Dev.setHeld_keep g hheldW hheldE d h v
  · exact (hheldE { d with heldW := v } v).trans (hheldW d v)

@[simp] theorem Dev.ctl_holdScope (v : Bool) : (d.holdScope h v).ctl = d.ctl :=
  d.holdScope_keep h Dev.ctl (fun _ _ => rfl) (fun _ _ => rfl) v

@[simp] theorem Dev.holdScope_regs (v : Bool) : (d.holdScope h v).regs = d.regs :=
  d.holdScope_keep h Dev.regs (fun _ _ => rfl) (fun _ _ => rfl) v

@[simp] theorem Dev.holdScope_faults (v : Bool) : (d.holdScope h v).faults = d.faults :=
  d.holdScope_keep h Dev.faults (fun _ _ => rfl) (fun _ _ => rfl) v

/-- The units of a scope are held or released: among them those of its half. -/
@[simp] theorem Dev.heldHalf_holdScope (v : Bool) : (d.holdScope h v).heldHalf h = v := by
  unfold Dev.holdScope Dev.setHeld Dev.heldHalf
  cases h <;> cases d.split <;> rfl

@[simp] theorem Dev.split_modStep (f : StepS → StepS) : (d.modStep h f).split = d.split := Dev.split_congr (by simp)

@[simp] theorem Dev.stepc_modStep (f : StepS → StepS) : (d.modStep h f).stepc h = f (d.stepc h) := by
  unfold Dev.stepc
  rw [Dev.split_modStep]
  unfold Dev.modStep
  split <;> rfl

@[simp] theorem Dev.run_modRun (f : RunS → RunS) : ((d.modRun h f).stepc h).run = (d.stepc h).run.map f := by
  unfold Dev.modRun
  rw [Dev.stepc_modStep]

@[simp] theorem Dev.stepAdd_modRun (f : RunS → RunS) : (d.modRun h f).stepAdd h = d.stepAdd h := by
  unfold Dev.stepAdd Dev.modRun
  rw [Dev.split_modStep]

@[simp] theorem Dev.stepc_holdScope (v : Bool) : (d.holdScope h v).stepc h = d.stepc h := Dev.stepc_of_ctl h (by simp)

/-- A step phase that begins is a register and a trace record. -/
theorem Dev.setPhase_keep {β : Type} (g : Dev → β) (hset : ∀ d : Dev, ∀ v, g (d.fset F.DEV_STEP_STATUS_PHASE v (d.stepAdd h)) = g d)
    (hmg : ∀ d x, g { d with mg := x } = g d) (n : Nat) : g (d.setPhase h n) = g d := by
  unfold Dev.setPhase
  dsimp only
  split
  · exact (Dev.traceRec_keep g hmg _ _ _).trans (hset d n)
  · rfl

@[simp] theorem Dev.ctl_setPhase (n : Nat) : (d.setPhase h n).ctl = d.ctl :=
  d.setPhase_keep h Dev.ctl (fun d v => d.ctl_fset v (stepKey_ne_split h d)) (fun _ _ => rfl) n

@[simp] theorem Dev.setPhase_fab (n : Nat) : (d.setPhase h n).fab = d.fab := d.setPhase_keep h Dev.fab (fun _ _ => rfl) (fun _ _ => rfl) n

/-! ## Memory through the step controller's operations -/

@[simp] theorem Dev.memOf_contribute (t i n : Nat) (x y z : Bool) : (d.contribute t i n x y z).memOf = d.memOf := rfl
@[simp] theorem Dev.memOf_dropResult (t i : Nat) : (d.dropResult t i).memOf = d.memOf := rfl
@[simp] theorem Dev.memOf_dropFaults : (d.dropFaults h).memOf = d.memOf := rfl
@[simp] theorem Dev.memOf_modStep (f : StepS → StepS) : (d.modStep h f).memOf = d.memOf :=
  Dev.modStep_keep Dev.memOf (fun _ _ => rfl) (fun _ _ => rfl) d h f
@[simp] theorem Dev.memOf_modRun (f : RunS → RunS) : (d.modRun h f).memOf = d.memOf := d.memOf_modStep h _
@[simp] theorem Dev.memOf_holdScope (v : Bool) : (d.holdScope h v).memOf = d.memOf :=
  d.holdScope_keep h Dev.memOf (fun _ _ => rfl) (fun _ _ => rfl) v
@[simp] theorem Dev.memOf_setPhase (n : Nat) : (d.setPhase h n).memOf = d.memOf :=
  d.setPhase_keep h Dev.memOf (fun _ _ => rfl) (fun _ _ => rfl) n
@[simp] theorem Dev.memOf_count (f : Fld) (n a : Nat) : (d.count f n a).memOf = d.memOf := rfl

end ctl

/-! ## An attempt that fails (R287) -/

/-- The run of a failed attempt: the first cause stays, nothing is in flight, and the units' content is not what it was. -/
def RunS.failing (r : RunS) (st : Nat) (layer : Option Nat) : RunS :=
  { r with fail := r.fail.or (some st), firstLayer := if r.firstLayer = 65535 then layer.getD 65535 else r.firstLayer
           stopped := true, passes := [], replay := [], dirty := true }

section failing
variable (d : Dev) {h : HalfId} {r : RunS} (hr : (d.stepc h).run = some r) (sa : r.sa.isSome = true) (st : Nat) (layer : Option Nat)
include hr sa

theorem Dev.failAttempt_eq : d.failAttempt h st layer = (d.modRun h fun r => r.failing st layer).holdScope h true := by
  obtain ⟨x, hx⟩ := Option.isSome_iff_exists.mp sa
  unfold Dev.failAttempt
  rw [hr, Option.bind_some, hx]
  rfl

theorem Dev.run_failAttempt : ((d.failAttempt h st layer).stepc h).run = some (r.failing st layer) := by
  rw [d.failAttempt_eq hr sa, Dev.stepc_holdScope, Dev.run_modRun, hr, Option.map_some]

theorem Dev.heldHalf_failAttempt : (d.failAttempt h st layer).heldHalf h = true := by
  rw [d.failAttempt_eq hr sa, Dev.heldHalf_holdScope]

end failing

section failAttempt
variable (d : Dev) (h : HalfId) (st : Nat) (layer : Option Nat)

theorem Dev.failAttempt_keep {β : Type} (g : Dev → β) (hrun : ∀ d h f, g (Dev.modRun d h f) = g d)
    (hheldW : ∀ d x, g { d with heldW := x } = g d) (hheldE : ∀ d x, g { d with heldE := x } = g d) :
    g (d.failAttempt h st layer) = g d := by
  unfold Dev.failAttempt
  split
  · rfl
  · exact (Dev.holdScope_keep _ h g hheldW hheldE true).trans (hrun d h _)

@[simp] theorem Dev.failAttempt_regs : (d.failAttempt h st layer).regs = d.regs :=
  d.failAttempt_keep h st layer Dev.regs (by simp) (fun _ _ => rfl) (fun _ _ => rfl)

@[simp] theorem Dev.memOf_failAttempt : (d.failAttempt h st layer).memOf = d.memOf :=
  d.failAttempt_keep h st layer Dev.memOf (by simp) (fun _ _ => rfl) (fun _ _ => rfl)

end failAttempt

/-! ## The dataflow returns to a configuration (R283) -/

/-- A fold keeps `g` if it does for each of the list's members. -/
theorem foldl_keep_of_mem {β γ : Type} (g : Dev → β) (f : Dev → γ → Dev) (l : List γ) (h : ∀ x ∈ l, ∀ d, g (f d x) = g d) (d : Dev) :
    g (l.foldl f d) = g d := by
  induction l generalizing d with
  | nil => rfl
  | cons x l ih =>
    obtain ⟨hx, hl⟩ := List.forall_mem_cons.mp h
    exact (ih hl _).trans (hx d)

/-- A bit address where a register of a unit or a field may lie, whatever number its tile has: above the device's own registers and never bit
3 or 6 of a register; above the register space, which the numbers of tiles in slots do not bound, at every fourth register. -/
def unitKey (k : Nat) : Prop := 8 * 0x1000000 ≤ k ∧ k % 64 ≠ 3 ∧ k % 64 ≠ 6 ∧ (2 ^ 35 ≤ k → k % 256 = 0 ∨ k % 256 = 8)

theorem leAt_one_lt (b : List Byte) (i : Nat) : leAt b i 1 < 256 :=
  (leNat_lt _).trans_le ((Nat.pow_le_pow_right (by decide) (List.length_take_le 1 _)).trans_eq (Nat.pow_one 256))

/-- The fields of the registers of a site and of each of its fields (R105). -/
def siteFields : List Fld :=
  [F.FLD_CFG_SHAPE, F.FLD_CFG_INST_COUNT, F.FLD_STATUS_EPOCH, F.FLD_INST_EXT_ROW_EXT, F.FLD_INST_EXT_COL_EXT] ++ instFields

theorem siteFields_place : ∀ f ∈ siteFields,
    0x4000000 ≤ f.off ∧ f.off < 0x4001000 ∧ f.off % 8 = 0 ∧ f.lo < 64 ∧ f.lo ≠ 3 ∧ f.lo ≠ 6 := by
  decide +kernel

theorem unitKey_of_mem_siteFields {f : Fld} (hf : f ∈ siteFields) {site n : Nat} (hs : site < 256) (hn : n < 256) :
    unitKey (f.key (siteAdd site + 8 * n)) := by
  obtain ⟨low, high, align, lo, no3, no6⟩ := siteFields_place f hf
  unfold unitKey Fld.key siteAdd
  omega

theorem unitKey_site {f : Fld} (hf : f ∈ siteFields) {site : Nat} (hs : site < 256) : unitKey (f.key (siteAdd site)) := by
  have key : unitKey (f.key (siteAdd site + 8 * 0)) := unitKey_of_mem_siteFields hf hs (by decide)
  rwa [Nat.mul_zero, Nat.add_zero] at key

section reset
variable {β : Type} (g : Dev → β) (hset : ∀ (d : Dev) (f : Fld) (v a : Nat), unitKey (f.key a) → g (d.fset f v a) = g d)
include hset

theorem Dev.fset_inst_keep (c : Cfg) {f : Fld} (d : Dev) (v : Nat) (hf : f ∈ siteFields) : g (d.fset f v (siteAdd c.site + 8 * c.inst)) = g d :=
  hset _ _ _ _ (unitKey_of_mem_siteFields hf (leAt_one_lt _ _) (leAt_one_lt _ _))

theorem Dev.fset_site_keep (c : Cfg) {f : Fld} (d : Dev) (v : Nat) (hf : f ∈ siteFields) : g (d.fset f v (siteAdd c.site)) = g d :=
  hset _ _ _ _ (unitKey_site hf (leAt_one_lt _ _))

theorem Dev.instFields_keep (c : Cfg) (v : Fld → Nat) (d : Dev) :
    g (instFields.foldl (fun d f => d.fset f (v f) (siteAdd c.site + 8 * c.inst)) d) = g d :=
  foldl_keep_of_mem g _ _ (fun _ hf d => Dev.fset_inst_keep g hset c d _ (List.mem_append_right _ hf)) d

theorem Dev.fieldRegs_keep (c : Cfg) (d : Dev) : g (d.fieldRegs c) = g d := by
  unfold Dev.fieldRegs
  exact (Dev.fset_inst_keep g hset c _ _ (by decide)).trans ((Dev.fset_inst_keep g hset c _ _ (by decide)).trans ((Dev.instFields_keep g hset c _ _).trans
    ((Dev.fset_site_keep g hset c _ _ (by decide)).trans (Dev.fset_site_keep g hset c _ _ (by decide)))))

variable (hinsts : ∀ d x, g { d with insts := x } = g d)
include hinsts

theorem Dev.fieldGone_keep (c : Cfg) (d : Dev) : g (d.fieldGone c) = g d := by
  unfold Dev.fieldGone
  extract_lets a d1 d2 d3
  have k3 : g d3 = g d := (hinsts _ _).trans ((Dev.fset_inst_keep g hset c _ _ (by decide)).trans ((Dev.fset_inst_keep g hset c _ _ (by decide)).trans
    (Dev.instFields_keep g hset c _ _)))
  split
  · exact k3
  · exact (Dev.fset_site_keep g hset c _ _ (by decide)).trans ((Dev.fset_site_keep g hset c _ _ (by decide)).trans k3)

theorem Dev.fieldTake_keep (t s : Nat) (c : Cfg) (d : Dev) : g (d.fieldTake t s none (some c)) = g d := by
  unfold Dev.fieldTake
  dsimp only
  split
  · rfl
  · exact (Dev.fset_site_keep g hset c _ _ (by decide)).trans ((Dev.fieldRegs_keep g hset c _).trans (hinsts _ _))

variable (hslots : ∀ d x, g { d with slots := x } = g d) (hqueues : ∀ d x, g { d with queues := x } = g d)
  (htiles : ∀ d x, g { d with tiles := x } = g d) (hnet : ∀ d x, g { d with net := x } = g d)
include hslots hqueues htiles hnet

theorem Dev.dropUnits_keep (h : HalfId) (d : Dev) : g (d.dropUnits h) = g d := by
  have active : ∀ (f : Fld) (t e : Nat), (f = F.TIL_SE_STATUS_ACTIVE ∨ f = F.TIL_SE_STATUS_AHEAD) →
      ∀ d : Dev, g (d.fset f 0 (tileAdd t + 32 * e)) = g d := fun f t e hf d => hset _ _ _ _ (by
    rcases hf with rfl | rfl <;> simp only [unitKey, Fld.key, tileAdd, F.TIL_SE_STATUS_ACTIVE, F.TIL_SE_STATUS_AHEAD] <;> omega)
  have units : ∀ (d : Dev) q s t i n, g { d with queues := q, slots := s, tiles := t, insts := i, net := n } = g d := fun d q s t i n =>
    (hnet { d with queues := q, slots := s, tiles := t, insts := i } n).trans ((hinsts { d with queues := q, slots := s, tiles := t } i).trans
      ((htiles { d with queues := q, slots := s } t).trans ((hslots { d with queues := q } s).trans (hqueues d q))))
  unfold Dev.dropUnits
  extract_lets keep d1 d2
  have k1 : g d1 = g d := by
    refine foldl_keep g _ (fun d p => ?_) _ d
    split
    · rfl
    · split
      · next c _ =>
        dsimp only
        split
        · exact Dev.fieldGone_keep g hset hinsts c d
        · split
          · exact (active _ _ _ (.inr rfl) _).trans (active _ _ _ (.inl rfl) d)
          · rfl
      · rfl
  have k2 : g d2 = g d1 := by
    refine foldl_keep g _ (fun d p => ?_) _ d1
    split
    · rfl
    · exact hset _ _ _ _ (by simp only [unitKey, Fld.key, tileAdd, F.TIL_VX_STATUS_GROUPS_BUSY]; omega)
  exact (units d2 _ _ _ _ _).trans (k2.trans k1)

variable (himg0 : ∀ d x, g { d with img0 := x } = g d) (himg1 : ∀ d x, g { d with img1 := x } = g d)
include himg0 himg1

/-- A return to a configuration changes units, queues, fields, networks, images and the registers of units and fields alone. -/
theorem Dev.resetTo_keep (h : HalfId) (n : Nat) (d : Dev) : g (d.resetTo h n) = g d := by
  have dropped := Dev.dropUnits_keep g hset hinsts hslots hqueues htiles hnet h d
  unfold Dev.resetTo
  split
  · exact dropped
  · refine (Dev.setImage_keep g himg0 himg1 _ h _).trans ?_
    unfold Dev.forceConfig
    exact (foldl_keep g _ (fun d p => (Dev.fieldTake_keep g hset hinsts _ _ _ _).trans (hslots d _)) _ _).trans ((hqueues _ _).trans dropped)

end reset

section resetTo
variable (d : Dev) (h : HalfId) (n : Nat)

@[simp] theorem Dev.memOf_resetTo : (d.resetTo h n).memOf = d.memOf :=
  Dev.resetTo_keep Dev.memOf (fun _ _ _ _ _ => rfl) (fun _ _ => rfl) (fun _ _ => rfl) (fun _ _ => rfl) (fun _ _ => rfl) (fun _ _ => rfl)
    (fun _ _ => rfl) (fun _ _ => rfl) h n d

/-- A return to a configuration leaves every bit address where no register of a unit or a field lies. -/
theorem Dev.regs_resetTo {k : Nat} (hk : ¬ unitKey k) : fmGet (d.resetTo h n).regs k = fmGet d.regs k :=
  Dev.resetTo_keep (fun d => fmGet d.regs k) (fun d f v a u => d.regs_fset_ne f v a k fun e => hk (e ▸ u)) (fun _ _ => rfl) (fun _ _ => rfl)
    (fun _ _ => rfl) (fun _ _ => rfl) (fun _ _ => rfl) (fun _ _ => rfl) (fun _ _ => rfl) h n d

theorem Dev.fget_resetTo (f : Fld) (a : Nat) (hk : ¬ unitKey (f.key a)) : (d.resetTo h n).fget f a = d.fget f a := by
  unfold Dev.fget
  rw [d.regs_resetTo h n hk]

@[simp] theorem Dev.resetTo_step0 : (d.resetTo h n).step0 = d.step0 :=
  Dev.resetTo_keep Dev.step0 (fun _ _ _ _ _ => rfl) (fun _ _ => rfl) (fun _ _ => rfl) (fun _ _ => rfl) (fun _ _ => rfl) (fun _ _ => rfl)
    (fun _ _ => rfl) (fun _ _ => rfl) h n d
@[simp] theorem Dev.resetTo_step1 : (d.resetTo h n).step1 = d.step1 :=
  Dev.resetTo_keep Dev.step1 (fun _ _ _ _ _ => rfl) (fun _ _ => rfl) (fun _ _ => rfl) (fun _ _ => rfl) (fun _ _ => rfl) (fun _ _ => rfl)
    (fun _ _ => rfl) (fun _ _ => rfl) h n d
@[simp] theorem Dev.resetTo_led0 : (d.resetTo h n).led0 = d.led0 :=
  Dev.resetTo_keep Dev.led0 (fun _ _ _ _ _ => rfl) (fun _ _ => rfl) (fun _ _ => rfl) (fun _ _ => rfl) (fun _ _ => rfl) (fun _ _ => rfl)
    (fun _ _ => rfl) (fun _ _ => rfl) h n d
@[simp] theorem Dev.resetTo_led1 : (d.resetTo h n).led1 = d.led1 :=
  Dev.resetTo_keep Dev.led1 (fun _ _ _ _ _ => rfl) (fun _ _ => rfl) (fun _ _ => rfl) (fun _ _ => rfl) (fun _ _ => rfl) (fun _ _ => rfl)
    (fun _ _ => rfl) (fun _ _ => rfl) h n d

@[simp] theorem Dev.ctl_resetTo : (d.resetTo h n).ctl = d.ctl :=
  Dev.ctl_of_regs (d.regs_resetTo h n (by unfold unitKey; decide)) (by simp) (by simp)

@[simp] theorem Dev.now_resetTo : (d.resetTo h n).now = d.now := d.fget_resetTo h n _ _ (by unfold unitKey; decide)

end resetTo

/-! ## A step event (R282, R287) -/

/-- An event of the step controller: its bit and its counter are two registers of one bit and more below offset 0x2000. -/
def stepEvents : List Ev := [E.DEV_STEP_ABANDON, E.DEV_STEP_LOSS_NF, E.DEV_STEP_GRAD_NF, E.DEV_STEP_PREEMPTED, E.DEV_STEP_SEAL_UNKNOWN]

theorem stepEvents_place : ∀ v ∈ stepEvents, v.bit.w = 1 ∧ v.bit.off < 0x2000 ∧ v.bit.lo < 64 ∧ v.cnt.off < 0x2000 ∧ v.cnt.lo < 64 ∧
    ∀ a ∈ [0, 2 ^ 32], v.cnt.key a ≠ v.bit.key a := by
  decide +kernel

section stepEvent
variable (d : Dev) (h : HalfId) {v : Ev} (hv : v ∈ stepEvents)
include hv

theorem Dev.fget_stepEvent {d e : Dev} {a : Nat} (ha : a = e.stepAdd h) (regs : d.regs = (e.event v a).regs) : d.fget v.bit a = 1 := by
  obtain ⟨width, -, -, -, -, apart⟩ := stepEvents_place v hv
  refine (Dev.fget_congr regs _ _).trans (e.fget_event_bit v a width (apart _ ?_))
  rw [ha]
  rcases e.stepAdd_cases h with z | z <;> simp [z]

@[simp] theorem Dev.ctl_stepEvent : (d.event v (d.stepAdd h)).ctl = d.ctl := by
  obtain ⟨-, bit, bitLo, cnt, cntLo, -⟩ := stepEvents_place v hv
  exact Dev.ctl_event d (stepKey_ne_split h d bit bitLo) (stepKey_ne_split h d cnt cntLo)

theorem Dev.stepc_stepEvent : (d.event v (d.stepAdd h)).stepc h = d.stepc h := Dev.stepc_of_ctl h (d.ctl_stepEvent h hv)

end stepEvent

/-! ## Abandoned passes (R282–R285) -/

/-- The run whose passes are abandoned: none is in flight, they await their replay, and an EPOCH_FAULT is remembered. -/
def RunS.abandoned (r : RunS) (epoch : Bool) : RunS :=
  { r with stopped := true, dirty := true, epoch := r.epoch || epoch, replay := r.replay ++ r.passes, passes := [] }

section abandon
variable (d : Dev) {h : HalfId} {r : RunS} (hr : (d.stepc h).run = some r) (sa : r.sa.isSome = true) (fail : r.fail = none)
  (passes : r.passes ≠ []) (faults : d.faults.filter (d.faultHere h) ≠ [])
include hr sa fail passes faults

/-- What can be replayed is kept for it. -/
theorem Dev.abandon_replayable (can : ∀ p ∈ r.passes, replayable p.kind = true ∧ p.replays < replayLimit (d.imageBytes h))
    (refetch : d.refetch.any (d.lostAgain h) = false)
    (first : ¬((∃ f ∈ d.faults.filter (d.faultHere h), f.2 = 2) ∧ r.epoch = true ∧ ∃ p ∈ r.passes, 0 < p.replays)) :
    d.abandon h = (((d.dropFaults h).event E.DEV_STEP_ABANDON (d.stepAdd h)).modRun h fun r =>
      r.abandoned ((d.faults.filter (d.faultHere h)).any (·.2 == 2))).holdScope h true := by
  have due : ((d.faults.filter (d.faultHere h)).isEmpty || r.sa.isNone || r.fail.isSome || r.passes.isEmpty) = false := by
    simp [List.isEmpty_eq_false_iff.mpr faults, Option.isNone_eq_false_iff.mpr sa, fail, List.isEmpty_eq_false_iff.mpr passes]
  have kinds : r.passes.all (fun p => replayable p.kind) = true := List.all_eq_true.mpr fun p hp => (can p hp).1
  have epochs : ((d.faults.filter (d.faultHere h)).any (·.2 == 2) && r.epoch && r.passes.any fun p => decide (0 < p.replays)) = false := by
    rw [Bool.eq_false_iff]
    simpa only [ne_eq, Bool.and_eq_true, List.any_eq_true, beq_iff_eq, decide_eq_true_eq, and_assoc] using first
  have lost : (r.passes.any (fun p => decide (0 < p.replays)) && (d.dropFaults h).refetch.any ((d.dropFaults h).lostAgain h)) = false := by
    rw [show (d.dropFaults h).refetch.any ((d.dropFaults h).lostAgain h) = false from refetch, Bool.and_false]
  have below : r.passes.any (fun p => decide (replayLimit ((d.dropFaults h).imageBytes h) ≤ p.replays)) = false :=
    List.any_eq_false.mpr fun p hp reached => Nat.not_le.mpr (can p hp).2 (of_decide_eq_true reached)
  unfold Dev.abandon
  rw [hr]
  dsimp only
  rw [if_neg (by simp [due]), if_neg (by simp [kinds]), if_neg (ne_true_of_eq_false epochs), if_neg (ne_true_of_eq_false lost),
    if_neg (ne_true_of_eq_false below)]
  rfl

/-- One pass that cannot be replayed fails the attempt. -/
theorem Dev.abandon_fails (cannot : ∃ p ∈ r.passes, replayable p.kind = false) :
    d.abandon h = (d.dropFaults h).failAttempt h stAbandoned none := by
  have due : ((d.faults.filter (d.faultHere h)).isEmpty || r.sa.isNone || r.fail.isSome || r.passes.isEmpty) = false := by
    simp [List.isEmpty_eq_false_iff.mpr faults, Option.isNone_eq_false_iff.mpr sa, fail, List.isEmpty_eq_false_iff.mpr passes]
  have kinds : r.passes.all (fun p => replayable p.kind) = false := List.all_eq_false.mpr (by simpa using cannot)
  unfold Dev.abandon
  rw [hr]
  dsimp only
  rw [if_neg (by simp [due]), if_pos (by simp [kinds])]

end abandon

/-- After an abandonment: the passes await their replay, the units are held, the event shows. -/
theorem Dev.abandoned_does {d e : Dev} {h : HalfId} {r : RunS} (hr : (d.stepc h).run = some r) (epoch : Bool)
    (he : e = (((d.dropFaults h).event E.DEV_STEP_ABANDON (d.stepAdd h)).modRun h fun r => r.abandoned epoch).holdScope h true) :
    (e.stepc h).run = some (r.abandoned epoch) ∧ e.heldHalf h = true ∧ e.fget F.DEV_STEP_EVENT_ABANDON (d.stepAdd h) = 1 ∧
      e.faults = d.faults.filter (fun f => !d.faultHere h f) ∧ memSame d e := by
  have step : ((d.dropFaults h).event E.DEV_STEP_ABANDON (d.stepAdd h)).stepc h = d.stepc h :=
    (d.dropFaults h).stepc_stepEvent h (v := E.DEV_STEP_ABANDON) (by decide)
  subst he
  refine ⟨?_, Dev.heldHalf_holdScope _ _ _, ?_, ?_, memSame_of_memOf (by simp)⟩
  · rw [Dev.stepc_holdScope, Dev.run_modRun, step, hr, Option.map_some]
  · exact Dev.fget_stepEvent h (v := E.DEV_STEP_ABANDON) (e := d.dropFaults h) (by decide) rfl (by simp)
  · simp only [Dev.holdScope_faults, Dev.modRun_faults, Dev.event_faults]
    rfl

/-- A pass in flight for too long is a fault of row 6. -/
theorem Dev.passTimeoutEvent_late (d : Dev) {h : HalfId} {r : RunS} (hr : (d.stepc h).run = some r) (n : passTimeout (d.imageBytes h) ≠ 0)
    (late : ∃ p ∈ r.passes, p.tick + passTimeout (d.imageBytes h) < d.now) : d.passTimeoutEvent h = (d.passFault h 6).abandon h := by
  unfold Dev.passTimeoutEvent
  rw [hr]
  dsimp only
  exact if_pos (by simpa [n] using late)

/-- The run whose passes go in again at tick `now`. -/
def RunS.replayed (r : RunS) (now : Nat) : RunS :=
  { r with passes := r.replay.map fun p => { p with tick := now, replays := p.replays + 1 },
           replay := [], stopped := false, dirty := false, replays := r.replays + 1 }

section replay
variable (d : Dev) {h : HalfId} {r : RunS} (hr : (d.stepc h).run = some r)
include hr

theorem Dev.replay_waits (quiet : d.netsQuiet h = false) : d.replay h = d := by
  unfold Dev.replay
  rw [hr]
  dsimp only
  split
  · rfl
  · exact if_pos (by simp [quiet])

theorem Dev.replay_eq {p : Pass} {l : List Pass} (replay : r.replay = p :: l) (fail : r.fail = none) (paused : r.paused = none)
    (quiet : d.netsQuiet h = true) (refetch : ∀ x ∈ d.refetch, d.refetchHere h x.1 = false) :
    ∃ n k, d.replay h = ((((d.resetTo h n).modRun h fun r => r.replayed d.now).count F.DEV_STEP_REPLAYS_COUNT k (d.stepAdd h)).holdScope h false) := by
  have none : d.refetch.any (fun x => d.refetchHere h x.1) = false := List.any_eq_false.mpr fun x hx => by simp [refetch x hx]
  refine ⟨passConfig (d.imageBytes h) p.kind, (p :: l).length, ?_⟩
  unfold Dev.replay
  rw [hr]
  dsimp only
  rw [replay]
  dsimp only
  rw [if_neg (by simp [fail, paused, quiet, none]), Dev.stepAdd_modRun, Dev.stepAdd_of_ctl h (d.ctl_resetTo h _), d.now_resetTo h]
  rfl

end replay

/-! ## The gates (R262, R272) -/

/-- A contribution is one vote more, of one device. -/
theorem Dev.votes_contribute (d : Dev) (tag id size : Nat) (x y z : Bool) : ∃ v, (d.contribute tag id size x y z).fab.votes = d.fab.votes ++ [v] ∧
    v.id.toNat = id % 2 ^ 32 ∧ v.count = 1 ∧ v.vand = x ∧ v.or0 = y ∧ v.or1 = z :=
  ⟨_, rfl, BitVec.toNat_ofNat _ _, rfl, rfl, rfl, rfl⟩

section gate
variable (d : Dev) (h : HalfId)

theorem Dev.gateSample_keep {β : Type} (g : Dev → β) (tile : ∀ d t, g (Dev.fset d F.TIL_VX_VOTE_NF 0 (tileAdd t)) = g d)
    (fab : ∀ e k, g (Dev.fset e F.FAB_NF_NF 0 (d.stepAdd h + 8 * k)) = g e) : g (d.gateSample h).2 = g d :=
  (foldl_keep g _ (fun e k => fab e k) _ _).trans (foldl_keep g _ (fun e t => tile e t) _ d)

@[simp] theorem Dev.memOf_gateSample : (d.gateSample h).2.memOf = d.memOf := d.gateSample_keep h Dev.memOf (fun _ _ => rfl) fun _ _ => rfl
@[simp] theorem Dev.gateSample_fab : (d.gateSample h).2.fab = d.fab := d.gateSample_keep h Dev.fab (fun _ _ => rfl) fun _ _ => rfl

@[simp] theorem Dev.ctl_gateSample : (d.gateSample h).2.ctl = d.ctl := by
  refine d.gateSample_keep h Dev.ctl (fun d t => d.ctl_fset 0 ?_) fun e k => e.ctl_fset 0 ?_
  · simp only [Fld.key, tileAdd, F.TIL_VX_VOTE_NF, F.SEC_STATUS_SPLIT]
    omega
  · simp only [Fld.key, F.FAB_NF_NF, F.SEC_STATUS_SPLIT]
    rcases d.stepAdd_cases h with a | a <;> omega

/-- The hub's sample is the OR of the tiles' vote bits and of the fabric interfaces' flags. -/
theorem Dev.gateSample_iff : (d.gateSample h).1 = true ↔ (∃ t ∈ d.scopeTiles h, d.flag F.TIL_VX_VOTE_NF (tileAdd t) = true) ∨
    ∃ k < 4, d.fget F.FAB_NF_NF (d.stepAdd h + 8 * k) ≠ 0 := by
  unfold Dev.gateSample
  simp only [Bool.or_eq_true, List.any_eq_true, List.mem_range, bne_iff_ne]

/-- A gate's vote: the hub's sample goes out with a contribution, the run notes it, and a step phase begins. -/
def Dev.gateVote (d : Dev) (h : HalfId) (id size phase : Nat) (f : RunS → RunS) : Dev :=
  (((d.gateSample h).2.contribute (d.tagOf h) id size true (d.gateSample h).1 false).modRun h f).setPhase h phase

variable (id size phase : Nat) (f : RunS → RunS)

theorem Dev.run_gateVote : ((d.gateVote h id size phase f).stepc h).run = (d.stepc h).run.map f := by
  unfold Dev.gateVote
  rw [Dev.stepc_of_ctl h (Dev.ctl_setPhase _ h _), Dev.run_modRun, Dev.stepc_of_ctl h (Dev.ctl_contribute _ _ _ _ _ _ _),
    Dev.stepc_of_ctl h (Dev.ctl_gateSample _ h)]

theorem Dev.votes_gateVote : ∃ v, (d.gateVote h id size phase f).fab.votes = d.fab.votes ++ [v] ∧ v.id.toNat = id % 2 ^ 32 ∧ v.count = 1 ∧
    v.vand = true ∧ v.or0 = (d.gateSample h).1 := by
  have votes : (d.gateVote h id size phase f).fab.votes =
      ((d.gateSample h).2.contribute (d.tagOf h) id size true (d.gateSample h).1 false).fab.votes := by
    unfold Dev.gateVote
    rw [Dev.setPhase_fab, Dev.modRun_fab]
  rw [votes, ← d.gateSample_fab h]
  obtain ⟨v, added, vid, one, vand, or0, -⟩ := (d.gateSample h).2.votes_contribute (d.tagOf h) id size true (d.gateSample h).1 false
  exact ⟨v, added, vid, one, vand, or0⟩

theorem Dev.memOf_gateVote : (d.gateVote h id size phase f).memOf = d.memOf := by
  unfold Dev.gateVote
  simp

end gate

section going
variable (r : RunS) {i : List Byte} (upd : lrUpdate i = true) (sa : r.sa.isSome = true) (fail : r.fail = none)
include sa fail

/-- A gate acts in an attempt that has not failed. -/
theorem RunS.going : ¬ (r.sa.isNone || r.fail.isSome) = true := by
  simp [Option.isNone_eq_false_iff.mpr sa, fail]

include upd in
theorem RunS.updating : ¬ (!lrUpdate i || r.sa.isNone || r.fail.isSome) = true := by
  simp [upd, Option.isNone_eq_false_iff.mpr sa, fail]

end going

section lossGate
variable (d : Dev) {h : HalfId} {r : RunS} (hr : (d.stepc h).run = some r) (sa : r.sa.isSome = true) (fail : r.fail = none)
include hr sa fail

theorem Dev.lossGate_votes (gate : r.gate = 0) (passes : ∀ p ∈ r.passes, 2 < p.kind ∧ p.kind ≠ 4) (replay : r.replay = [])
    (forward : ∀ m < microBatches (d.imageBytes h), r.hasEnded 1 m = true)
    (loss : (d.pipeline h).1 + 1 = (d.pipeline h).2 → ∃ x ∈ r.ended, x.1 = 4) :
    d.lossGate h = d.gateVote h (voteId 0 0 0 (d.attemptNo h)) (d.jobSize h) 4 fun r => { r with gate := 1 } := by
  have flying : r.passes.any (fun p => decide (p.kind ≤ 2) || p.kind == 4) = false :=
    List.any_eq_false.mpr fun p hp => by simpa using passes p hp
  have whole : (List.range (microBatches (d.imageBytes h))).all (r.hasEnded 1) = true :=
    List.all_eq_true.mpr fun m hm => forward m (List.mem_range.mp hm)
  have last : ((d.pipeline h).1 + 1 == (d.pipeline h).2 && !r.ended.any fun e => e.1 == 4) = false := by
    rw [Bool.eq_false_iff]
    simpa using loss
  unfold Dev.lossGate
  rw [hr]
  dsimp only
  rw [if_neg (r.going sa fail), if_pos gate, if_neg (by rw [flying, replay, whole, last]; decide)]
  rfl

variable (gate : r.gate = 1) {v : VoteEntry} (result : d.fabResult (d.tagOf h) (voteId 0 0 0 (d.attemptNo h)) = some v)
include gate result

theorem Dev.lossGate_decides : d.lossGate h =
    if v.or0 then ((((d.dropResult (d.tagOf h) (voteId 0 0 0 (d.attemptNo h))).event E.DEV_STEP_LOSS_NF (d.stepAdd h)).modRun h fun r =>
      { r with gate := 3 }).failAttempt h stNonfinite none)
    else (d.dropResult (d.tagOf h) (voteId 0 0 0 (d.attemptNo h))).modRun h fun r => { r with gate := 2 } := by
  unfold Dev.lossGate
  rw [hr]
  dsimp only
  rw [if_neg (r.going sa fail), if_neg (by simp [gate]), if_pos gate, result]
  rfl

end lossGate

section gradientGate
variable (d : Dev) {h : HalfId} {r : RunS} {l : Nat} {i : List Byte} (hr : (d.stepc h).run = some r) (sa : r.sa.isSome = true)
  (fail : r.fail = none) (layer : layerRec (d.imageBytes h) l = some i) (upd : lrUpdate i = true)
include hr sa fail layer upd

theorem Dev.gradientGate_votes (voted : r.gradVoted.contains l = false) (whole : d.shardWhole h l (d.shardAt (d.readCopy h i l)) = true) :
    d.gradientGate h l none = d.gateVote h (voteId 1 l (d.pipeline h).1 (d.attemptNo h)) (d.jobSize h / (d.pipeline h).2) 7 fun r =>
      { r with gradVoted := r.gradVoted ++ [l] } := by
  have kept : ¬ (!d.shardWhole h l (d.shardAt (d.readCopy h i l))) = true := by simp [whole]
  unfold Dev.gradientGate
  rw [hr, layer]
  dsimp only
  rw [if_neg (r.updating upd sa fail), if_pos (by rw [voted]; rfl)]
  exact if_neg kept

variable (voted : r.gradVoted.contains l = true) (open_ : r.grads.contains l = false) {v : VoteEntry}
  (result : d.fabResult (d.tagOf h) (voteId 1 l (d.pipeline h).1 (d.attemptNo h)) = some v)
include voted open_ result

theorem Dev.gradientGate_passes (or0 : v.or0 = false) : d.gradientGate h l none =
    (d.dropResult (d.tagOf h) (voteId 1 l (d.pipeline h).1 (d.attemptNo h))).modRun h fun r => { r with grads := r.grads ++ [l] } := by
  unfold Dev.gradientGate
  rw [hr, layer]
  dsimp only
  rw [if_neg (r.updating upd sa fail), if_neg (by rw [voted]; decide), if_neg (by rw [open_]; decide), result]
  exact if_neg (by simp [or0])

/-- A reduced element that is poison makes the failure one of POISON, any other non-finite one of NONFINITE. -/
theorem Dev.gradientGate_fails (or0 : v.or0 = true) : ∃ st, (st = stNonfinite ∨ st = stPoison) ∧ d.gradientGate h l none =
    (((d.dropResult (d.tagOf h) (voteId 1 l (d.pipeline h).1 (d.attemptNo h))).event E.DEV_STEP_GRAD_NF (d.stepAdd h)).failAttempt h st (some l)) := by
  refine ⟨if (d.reducedOf h l false ++ d.reducedOf h l true).any (·.isNone) then stPoison else stNonfinite, ?_, ?_⟩
  · split
    · exact .inr rfl
    · exact .inl rfl
  · unfold Dev.gradientGate
    rw [hr, layer]
    dsimp only
    rw [if_neg (r.updating upd sa fail), if_neg (by rw [voted]; decide), if_neg (by rw [open_]; decide), result]
    exact if_pos or0

end gradientGate

/-- A result taken and its event raised leave the run and the memory. -/
theorem Dev.run_resultEvent (d : Dev) (h : HalfId) {v : Ev} (hv : v ∈ stepEvents) (tag id : Nat) :
    (((d.dropResult tag id).event v (d.stepAdd h)).stepc h).run = (d.stepc h).run := by
  rw [show d.stepAdd h = (d.dropResult tag id).stepAdd h from rfl, Dev.stepc_stepEvent _ h hv, Dev.stepc_of_ctl h (Dev.ctl_dropResult _ _ _)]

/-- Settles O39: each command is rewritten to what it does in its case, and read through the laws of the step controller. -/
theorem abandonReplayAndGates : Obligations.AbandonReplayAndGates := by
  unfold Obligations.AbandonReplayAndGates
  intro s h r live hr sa fail a ha
  subst ha
  refine ⟨fun passes can refetch => ⟨fun faults first => ?_, fun faults n late => ?_⟩, fun faults cannot => ?_, fun _ quiet => ?_,
    fun p l replay paused quiet refetch => ?_, fun id hid => ⟨fun gate flying replay forward loss => ?_, fun v gate result => ⟨?_, ?_⟩⟩,
    fun l i id layer upd hid => ⟨fun voted whole => ?_, fun v voted open_ result => ⟨?_, ?_⟩⟩⟩
  · have eq := s.dev.abandon_replayable hr sa fail passes faults can refetch first
    obtain ⟨run, held, event, left, mem⟩ := Dev.abandoned_does hr _ eq
    exact does_live (fun d => d.abandon h) rfl live ⟨⟨_, run, rfl⟩, held, event, left, mem⟩
  · have late_eq := s.dev.passTimeoutEvent_late hr n late
    have here : (s.dev.passFault h 6).faults.filter ((s.dev.passFault h 6).faultHere h) = [(h, 6)] := by
      simp [Dev.passFault, faults, Dev.faultHere]
    have eq := (s.dev.passFault h 6).abandon_replayable hr sa fail passes (by simp [here]) can refetch (by simp [here])
    obtain ⟨run, held, event, -, mem⟩ := Dev.abandoned_does (d := s.dev.passFault h 6) hr _ eq
    refine does_live (fun d => d.passTimeoutEvent h) rfl live ?_
    rw [late_eq]
    exact ⟨⟨_, run, rfl⟩, held, event, mem⟩
  · refine does_live (fun d => d.abandon h) rfl live ?_
    have passes : r.passes ≠ [] := by
      obtain ⟨p, hp, -⟩ := cannot
      exact List.ne_nil_of_mem hp
    rw [s.dev.abandon_fails hr sa fail passes faults cannot]
    exact ⟨⟨_, (s.dev.dropFaults h).run_failAttempt hr sa _ _, by simp [RunS.failing, fail], rfl, rfl, rfl⟩,
      (s.dev.dropFaults h).heldHalf_failAttempt hr sa _ _, memSame_of_memOf (by simp)⟩
  · exact exec_onLive_same (fun d => d.replay h) rfl (s.dev.replay_waits hr quiet)
  · refine does_live (fun d => d.replay h) rfl live ?_
    obtain ⟨n, k, eq⟩ := s.dev.replay_eq hr replay fail paused quiet refetch
    have run : (((s.dev.resetTo h n).modRun h fun r => r.replayed s.dev.now).stepc h).run = some (r.replayed s.dev.now) := by
      rw [Dev.run_modRun, Dev.stepc_of_ctl h (Dev.ctl_resetTo _ h n), hr, Option.map_some]
    have counted : ((((s.dev.resetTo h n).modRun h fun r => r.replayed s.dev.now).count F.DEV_STEP_REPLAYS_COUNT k (s.dev.stepAdd h)).stepc h) =
        ((s.dev.resetTo h n).modRun h fun r => r.replayed s.dev.now).stepc h :=
      Dev.stepc_of_ctl h (Dev.ctl_fset _ _ (stepKey_ne_split h s.dev))
    rw [eq]
    refine ⟨?_, Dev.heldHalf_holdScope _ _ _, memSame_of_memOf (by simp)⟩
    rw [Dev.stepc_holdScope, counted, run]
    rfl
  · refine does_live (fun d => d.lossGate h) rfl live ?_
    rw [s.dev.lossGate_votes hr sa fail gate flying replay forward loss, ← hid]
    obtain ⟨v, votes, vid, one, vand, or0⟩ := s.dev.votes_gateVote h id (s.dev.jobSize h) 4 fun r => { r with gate := 1 }
    refine ⟨?_, ⟨v, votes, vid, one, vand, by rw [or0]; exact s.dev.gateSample_iff h⟩, memSame_of_memOf (s.dev.memOf_gateVote h _ _ _ _)⟩
    rw [Dev.run_gateVote, hr, Option.map_some]
  · intro or0
    refine does_live (fun d => d.lossGate h) rfl live ?_
    rw [s.dev.lossGate_decides hr sa fail gate (hid ▸ result), if_neg (by simp [or0])]
    refine ⟨?_, memSame_of_memOf (by simp), by simp [Dev.dropResult]⟩
    rw [Dev.run_modRun, Dev.stepc_of_ctl h (Dev.ctl_dropResult _ _ _), hr, Option.map_some]
  · intro or0
    refine does_live (fun d => d.lossGate h) rfl live ?_
    rw [s.dev.lossGate_decides hr sa fail gate (hid ▸ result), if_pos or0]
    have run : ((((s.dev.dropResult (s.dev.tagOf h) (voteId 0 0 0 (s.dev.attemptNo h))).event E.DEV_STEP_LOSS_NF (s.dev.stepAdd h)).modRun h
        fun r => { r with gate := 3 }).stepc h).run = some { r with gate := 3 } := by
      rw [Dev.run_modRun, s.dev.run_resultEvent h (by decide), hr, Option.map_some]
    exact ⟨⟨_, Dev.run_failAttempt _ run sa _ _, rfl, by simp [RunS.failing, fail], rfl, rfl⟩,
      Dev.fget_stepEvent h (v := E.DEV_STEP_LOSS_NF) (e := s.dev.dropResult (s.dev.tagOf h) (voteId 0 0 0 (s.dev.attemptNo h)))
        (by decide) rfl (by simp), memSame_of_memOf (by simp)⟩
  · refine does_live (fun d => d.gradientGate h l.toNat none) rfl live ?_
    rw [s.dev.gradientGate_votes hr sa fail layer upd voted whole, ← hid]
    obtain ⟨v, votes, vid, one, -⟩ := s.dev.votes_gateVote h id (s.dev.jobSize h / (s.dev.pipeline h).2) 7 fun r =>
      { r with gradVoted := r.gradVoted ++ [l.toNat] }
    refine ⟨?_, ⟨v, votes, vid, one⟩, memSame_of_memOf (s.dev.memOf_gateVote h _ _ _ _)⟩
    rw [Dev.run_gateVote, hr, Option.map_some]
  · intro or0
    refine does_live (fun d => d.gradientGate h l.toNat none) rfl live ?_
    rw [s.dev.gradientGate_passes hr sa fail layer upd voted open_ (hid ▸ result) or0]
    refine ⟨?_, memSame_of_memOf (by simp), by simp [Dev.dropResult]⟩
    rw [Dev.run_modRun, Dev.stepc_of_ctl h (Dev.ctl_dropResult _ _ _), hr, Option.map_some]
  · intro or0
    refine does_live (fun d => d.gradientGate h l.toNat none) rfl live ?_
    obtain ⟨st, cause, eq⟩ := s.dev.gradientGate_fails hr sa fail layer upd voted open_ (hid ▸ result) or0
    rw [eq]
    refine ⟨⟨_, Dev.run_failAttempt _ ((s.dev.run_resultEvent h (by decide) _ _).trans hr) sa _ _, ?_, ?_⟩,
      Dev.fget_stepEvent h (v := E.DEV_STEP_GRAD_NF) (e := s.dev.dropResult (s.dev.tagOf h) (voteId 1 l.toNat (s.dev.pipeline h).1 (s.dev.attemptNo h)))
        (by decide) rfl (by simp), memSame_of_memOf (by simp)⟩
    · simpa [RunS.failing, fail] using cause
    · intro unset
      simp [RunS.failing, unset]

/-! ## The ledgers read back across other changes (R400) -/

/-- What finds a ledger and is found there: whether tenancy is split, and both ledgers. -/
def Dev.books (d : Dev) : Bool × Ledger × Ledger := (d.split, d.led0, d.led1)

section books
variable {d e : Dev} (h : HalfId)

theorem Dev.entry_of_books (q : Nat) (k : e.books = d.books) : e.entry h q = d.entry h q := by
  obtain ⟨split, led0, led1⟩ : _ ∧ _ ∧ _ := by simpa only [Dev.books, Prod.mk.injEq] using k
  unfold Dev.entry Dev.led
  rw [split, led0, led1]

theorem Dev.endedAs_of_books {q st status : Nat} (k : e.books = d.books) (ended : endedAs d h q st status) : endedAs e h q st status := by
  unfold endedAs
  rwa [Dev.entry_of_books h q k]

/-- SPLIT alone of the registers counts. -/
theorem Dev.books_of_regs (k : fmGet e.regs (F.SEC_STATUS_SPLIT.key 0) = fmGet d.regs (F.SEC_STATUS_SPLIT.key 0))
    (l0 : e.led0 = d.led0) (l1 : e.led1 = d.led1) : e.books = d.books := by
  unfold Dev.books Dev.split Dev.flag Dev.fget
  rw [k, l0, l1]

theorem Dev.books_fset (d : Dev) {f : Fld} {a : Nat} (v : Nat) (k : f.key a ≠ F.SEC_STATUS_SPLIT.key 0) : (d.fset f v a).books = d.books :=
  Dev.books_of_regs (d.regs_fset_ne _ _ _ _ k) rfl rfl

variable (d)

@[simp] theorem Dev.books_modStep (f : StepS → StepS) : (d.modStep h f).books = d.books :=
  Dev.books_of_regs (by simp) (by simp) (by simp)
@[simp] theorem Dev.books_modRun (f : RunS → RunS) : (d.modRun h f).books = d.books := d.books_modStep h _
@[simp] theorem Dev.books_holdScope (v : Bool) : (d.holdScope h v).books = d.books :=
  d.holdScope_keep h Dev.books (fun _ _ => rfl) (fun _ _ => rfl) v
@[simp] theorem Dev.books_resetTo (n : Nat) : (d.resetTo h n).books = d.books :=
  Dev.books_of_regs (d.regs_resetTo h n (by simp only [unitKey, Fld.key, F.SEC_STATUS_SPLIT]; omega)) (by simp) (by simp)

theorem Dev.books_stepEvent {v : Ev} (hv : v ∈ stepEvents) : (d.event v (d.stepAdd h)).books = d.books := by
  obtain ⟨-, bit, bitLo, cnt, cntLo, -⟩ := stepEvents_place v hv
  exact (Dev.books_fset _ _ (stepKey_ne_split h d cnt cntLo)).trans (d.books_fset 1 (stepKey_ne_split h d bit bitLo))

/-- What keeps all but the ledgers keeps the registers. -/
theorem Dev.regs_of_besidesLedger {d e : Dev} (k : e.besidesLedger = d.besidesLedger) : e.regs = d.regs := (congrArg Dev.regs k :)

theorem Dev.memOf_of_besidesLedger {d e : Dev} (k : e.besidesLedger = d.besidesLedger) : e.memOf = d.memOf :=
  (congrArg Dev.memOf k :)

theorem Dev.ctl_of_besidesLedger {d e : Dev} (k : e.besidesLedger = d.besidesLedger) : e.ctl = d.ctl :=
  (congrArg Dev.ctl k :)

end books

/-! ## A half's state (Table 1-9, R461) -/

/-- The bit addresses that a change of the halves' states can touch. -/
def stateKeys : List Nat :=
  [F.DEV_STATE_STATE_W.key 0, F.DEV_STATE_STATE_E.key 0, F.DEV_STATE_SUB_W.key 0, F.DEV_STATE_SUB_E.key 0] ++ evKeys E.MBX_SB_DROPPED

/-- The field of a half's state. -/
def stateField (h : HalfId) : Fld := if h then F.DEV_STATE_STATE_E else F.DEV_STATE_STATE_W

theorem Dev.half_of_regs {d e : Dev} (h : HalfId) (k : fmGet e.regs ((stateField h).key 0) = fmGet d.regs ((stateField h).key 0)) :
    e.half h = d.half h :=
  congrArg (·.getD (stateField h).rst) k

theorem Dev.half_congr {d e : Dev} (h : HalfId) (k : e.regs = d.regs) : e.half h = d.half h := Dev.half_of_regs h (by rw [k])

section setHalf
variable (d : Dev) (h : HalfId) {st : Nat} (sub : Nat)

theorem Dev.regs_setHalf (st : Nat) {k : Nat} (hk : k ∉ stateKeys) : fmGet (d.setHalf h st sub).regs k = fmGet d.regs k := by
  simp only [stateKeys, List.mem_append, List.mem_cons, List.not_mem_nil, or_false, not_or] at hk
  obtain ⟨⟨stateW, stateE, subW, subE⟩, dropped⟩ := hk
  have state : (stateField h).key 0 ≠ k := by
    cases h
    · exact Ne.symm stateW
    · exact Ne.symm stateE
  have side : (if h then F.DEV_STATE_SUB_E else F.DEV_STATE_SUB_W).key 0 ≠ k := by
    cases h
    · exact Ne.symm subW
    · exact Ne.symm subE
  have set := (Dev.regs_fset_ne (d.fset (stateField h) st) _ sub 0 k side).trans (d.regs_fset_ne _ st 0 k state)
  unfold Dev.setHalf
  dsimp only
  split
  · exact set
  · exact (Dev.regs_sbLog _ _ _ _ _ dropped).trans set

/-- A half's state read after a strongbox record. -/
theorem Dev.half_sbLog (type sev : Nat) (body : List Nat) : (d.sbLog type sev body).half h = d.half h :=
  Dev.half_of_regs h (d.regs_sbLog _ _ _ _ (by cases h <;> decide))

theorem Dev.half_setHalf (k : HalfId) (hst : st < 8) : (d.setHalf h st sub).half k = if h = k then st else d.half k := by
  have set : ((d.fset (stateField h) st).fset (if h then F.DEV_STATE_SUB_E else F.DEV_STATE_SUB_W) sub).half k = if h = k then st else d.half k := by
    have sides : (if h then F.DEV_STATE_SUB_E else F.DEV_STATE_SUB_W).key 0 ≠ (stateField k).key 0 := by cases h <;> cases k <;> decide
    refine (Dev.fget_fset_ne _ _ _ _ _ _ sides).trans ?_
    split
    · next same =>
      subst same
      exact (d.fget_fset_self _ _ _).trans (Nat.mod_eq_of_lt (by cases h <;> exact hst))
    · next other => exact d.fget_fset_ne _ _ _ _ _ (by revert other; cases h <;> cases k <;> decide)
  unfold Dev.setHalf
  dsimp only
  split
  · exact set
  · exact (Dev.half_sbLog _ _ _ _ _).trans set

end setHalf

section setScope
variable (d : Dev) (h : HalfId) (c : Scope) {st : Nat} (sub : Nat)

theorem Dev.regs_setScope (st : Nat) {k : Nat} (hk : k ∉ stateKeys) : fmGet (d.setScope c st sub).regs k = fmGet d.regs k := by
  refine foldl_keep (fun d => fmGet d.regs k) _ (fun d h => ?_) _ d
  split
  · rfl
  · exact d.regs_setHalf h sub st hk

theorem Dev.fget_setScope (st : Nat) (f : Fld) (a : Nat) (hk : f.key a ∉ stateKeys) : (d.setScope c st sub).fget f a = d.fget f a :=
  congrArg (·.getD f.rst) (d.regs_setScope c sub st hk)

@[simp] theorem Dev.ctl_setScope (st : Nat) : (d.setScope c st sub).ctl = d.ctl :=
  Dev.ctl_of_regs (d.regs_setScope c sub st (by decide)) (by simp) (by simp)

@[simp] theorem Dev.books_setScope (st : Nat) : (d.setScope c st sub).books = d.books :=
  Dev.books_of_regs (d.regs_setScope c sub st (by decide)) (by simp) (by simp)

@[simp] theorem Dev.memOf_setScope (st : Nat) : (d.setScope c st sub).memOf = d.memOf :=
  Dev.setScope_keep Dev.memOf (fun _ _ => rfl) (fun _ _ => rfl) (fun _ _ => rfl) d c st sub

/-- The halves of a list take the state one after another; each but one in FAULT or ORPHAN holds it then. -/
theorem Dev.half_foldl_setHalf (hst : st < 8) (h7 : st ≠ 7) (l : List HalfId) (alive : d.half h ≠ 7) :
    (l.foldl (fun d k => if d.half k = 7 then d else d.setHalf k st sub) d).half h = if h ∈ l then st else d.half h := by
  induction l generalizing d with
  | nil => rfl
  | cons k l ih =>
    have one : (if d.half k = 7 then d else d.setHalf k st sub).half h = if k = h then st else d.half h := by
      split
      · next dead => rw [if_neg (fun same : k = h => alive (same ▸ dead))]
      · exact d.half_setHalf k sub h hst
    have alive' : (if d.half k = 7 then d else d.setHalf k st sub).half h ≠ 7 := by
      rw [one]
      split
      · exact h7
      · exact alive
    rw [List.foldl_cons, ih _ alive', one]
    by_cases same : k = h
    · simp [same]
    · simp [same, Ne.symm same]

theorem Dev.half_setScope (hst : st < 7) (here : h ∈ scopeHalves c) (alive : d.half h ≠ 7) : (d.setScope c st sub).half h = st :=
  (d.half_foldl_setHalf h sub (Nat.lt_succ_of_lt hst) (Nat.ne_of_lt hst) _ alive).trans (if_pos here)

theorem Dev.mem_halfScope : h ∈ scopeHalves (d.halfScope h) := by
  unfold Dev.halfScope
  cases d.split <;> cases h <;> decide

end setScope

/-- A command on a run does not start on a half in ORPHAN or FAULT (Table 16-4). -/
theorem startable.half_ne {d : Dev} {h : HalfId} {q op : Nat} {e : Entry} (s : startable d h q op e) (hop : op ∈ [0x05, 0x06, 0x07]) :
    d.half h ≠ 7 := by
  obtain ⟨-, opcode, -, -, check⟩ := s
  have states : ∃ sts, opStates e = some sts ∧ 7 ∉ sts := by
    unfold opStates
    rw [opcode]
    fin_cases hop <;> exact ⟨_, rfl, by decide⟩
  have halves : h ∈ d.opHalves h e := by
    have all : d.opHalves h e = if d.split then [h] else [false, true] := by
      unfold Dev.opHalves
      rw [opcode]
      fin_cases hop <;> rfl
    rw [all]
    cases d.split <;> cases h <;> decide
  obtain ⟨sts, hsts, no7⟩ := states
  have none_of_mem : ∀ (l : List (Option Nat)), firstFail l = none → ∀ x ∈ l, x = none := by
    intro l
    induction l with
    | nil => simp
    | cons x l ih =>
      cases x with
      | none => simpa [firstFail] using ih
      | some v => simp [firstFail]
  unfold Dev.stateCheck at check
  rw [hsts] at check
  have here := none_of_mem _ check _ (List.mem_map_of_mem halves)
  intro dead
  revert here
  simp only [dead]
  split
  · simp
  · simp [failIf, no7]

/-- An entry that has ended never changes (R401). -/
theorem endedAs_finish_of_ended {d : Dev} {h : HalfId} {q : Nat} (k : endedAs d h q 3 0) (p n : Nat) : endedAs (d.finish h p n) h q 3 0 := by
  obtain ⟨x, hx, x3, x0⟩ := k
  refine ⟨x, ?_, x3, x0⟩
  by_cases same : p = q
  · have ended : x.ended = true := by simp [Entry.ended, x3]
    subst same
    have unchanged : d.finish h p n = d := by
      unfold Dev.finish Dev.endEntry
      rw [hx]
      exact if_pos ended
    rw [unchanged, hx]
  · exact (d.entry_endEntry_ne h _ _ same).trans hx

/-! ## The end of a run (R292, R395) -/

/-- The entries of a run that ends: its own, and those of a STOP and a PREEMPT that wait. -/
def Dev.endEntries (d : Dev) (h : HalfId) (r : RunS) (st : Nat) : Dev :=
  let d := (d.modEntry h r.entry fun e => { e with status := 0 }).finish h r.entry st
  let d := match r.stop with | some s => d.finish h s stOk | none => d
  match r.preempt with | some (s, _) => d.finish h s stWrongState | none => d

/-- A half's scope without a run: LOADED, its units released, no step phase. -/
def Dev.unloadRun (d : Dev) (h : HalfId) : Dev :=
  let d := d.modStep h fun s => { s with run := none }
  ((d.setScope (d.halfScope h) 3 0).holdScope h false).fset F.DEV_STEP_STATUS_PHASE 0 (d.stepAdd h)

/-- The dataflow of a run that ends: back to the configuration of INGEST if the units hold what is left of an attempt. -/
def Dev.cleanRun (d : Dev) (h : HalfId) (r : RunS) : Dev := if r.dirty then d.resetTo h (passConfig (d.imageBytes h) 0) else d

theorem Dev.endRun_eq {d : Dev} {h : HalfId} {r : RunS} (hr : (d.stepc h).run = some r) (st : Nat) :
    d.endRun h st = ((d.cleanRun h r).endEntries h r st).unloadRun h := by
  unfold Dev.endRun
  rw [hr]
  rfl

section endRun
variable (d : Dev) (h : HalfId) (r : RunS) (st : Nat)

@[simp] theorem Dev.besidesLedger_endEntries : (d.endEntries h r st).besidesLedger = d.besidesLedger := by
  unfold Dev.endEntries
  cases r.stop <;> cases r.preempt <;> simp

theorem Dev.cleanRun_keep {β : Type} (g : Dev → β) (hg : ∀ n, g (d.resetTo h n) = g d) : g (d.cleanRun h r) = g d := by
  unfold Dev.cleanRun
  split
  · exact hg _
  · rfl

@[simp] theorem Dev.ctl_cleanRun : (d.cleanRun h r).ctl = d.ctl := d.cleanRun_keep h r Dev.ctl fun n => d.ctl_resetTo h n
@[simp] theorem Dev.books_cleanRun : (d.cleanRun h r).books = d.books := d.cleanRun_keep h r Dev.books fun n => d.books_resetTo h n
@[simp] theorem Dev.memOf_cleanRun : (d.cleanRun h r).memOf = d.memOf := d.cleanRun_keep h r Dev.memOf fun n => d.memOf_resetTo h n
theorem Dev.regs_cleanRun {k : Nat} (hk : ¬ unitKey k) : fmGet (d.cleanRun h r).regs k = fmGet d.regs k :=
  d.cleanRun_keep h r (fun d => fmGet d.regs k) fun n => d.regs_resetTo h n hk

theorem Dev.regs_unloadRun {k : Nat} (hk : k ∉ stateKeys) (phase : F.DEV_STEP_STATUS_PHASE.key (d.stepAdd h) ≠ k) :
    fmGet (d.unloadRun h).regs k = fmGet d.regs k := by
  have add : (d.modStep h fun s => { s with run := none }).stepAdd h = d.stepAdd h := by
    unfold Dev.stepAdd
    rw [Dev.split_modStep]
  unfold Dev.unloadRun
  dsimp only
  rw [add, Dev.regs_fset_ne _ _ _ _ _ phase, Dev.holdScope_regs, Dev.regs_setScope _ _ _ _ hk, Dev.modStep_regs]

theorem Dev.half_unloadRun (alive : d.half h ≠ 7) : (d.unloadRun h).half h = 3 := by
  have alive' : (d.modStep h fun s => { s with run := none }).half h ≠ 7 := by rwa [Dev.half_congr h (Dev.modStep_regs _ _ _)]
  unfold Dev.unloadRun
  dsimp only
  generalize d.modStep h (fun s => { s with run := none }) = b at *
  have phase : F.DEV_STEP_STATUS_PHASE.key (b.stepAdd h) ≠ (stateField h).key 0 := by
    rcases b.stepAdd_cases h with a | a <;> rw [a] <;> cases h <;> decide
  refine (Dev.half_of_regs h (Dev.regs_fset_ne _ _ _ _ _ phase)).trans ?_
  rw [Dev.half_congr h (Dev.holdScope_regs _ h false)]
  exact b.half_setScope h _ 0 (by decide) (b.mem_halfScope h) alive'

@[simp] theorem Dev.memOf_unloadRun : (d.unloadRun h).memOf = d.memOf := by
  unfold Dev.unloadRun
  simp

@[simp] theorem Dev.books_unloadRun : (d.unloadRun h).books = d.books := by
  unfold Dev.unloadRun
  dsimp only
  rw [Dev.books_fset _ _ (stepKey_ne_split h _), Dev.books_holdScope, Dev.books_setScope, Dev.books_modStep]

@[simp] theorem Dev.stepc_unloadRun : (d.unloadRun h).stepc h = { d.stepc h with run := none } := by
  unfold Dev.unloadRun
  dsimp only
  rw [Dev.stepc_of_ctl h (Dev.ctl_fset _ _ (stepKey_ne_split h _)), Dev.stepc_holdScope, Dev.stepc_of_ctl h (Dev.ctl_setScope _ _ _ _),
    Dev.stepc_modStep]

/-- The entry of the STOP that ends a run ends COMPLETED with OK, whether or not it is the RUN entry too. -/
theorem Dev.endedAs_endEntries {q : Nat} {e : Entry} (he : d.entry h q = some e) (hs : e.state < 3) (stop : r.stop = some q) :
    endedAs (d.endEntries h r stOk) h q 3 0 := by
  have stopped : endedAs (((d.modEntry h r.entry fun e => { e with status := 0 }).finish h r.entry stOk).finish h q stOk) h q 3 0 := by
    by_cases run : r.entry = q
    · have hx : (d.modEntry h r.entry fun e => { e with status := 0 }).entry h q = some { e with status := 0 } := by
        rw [run, Dev.entry_modEntry _ _ _ _ (by simp), he]
        rfl
      rw [run] at hx ⊢
      exact endedAs_finish_of_ended (Dev.endedAs_finish_ok hx hs) q stOk
    · have hx : ((d.modEntry h r.entry fun e => { e with status := 0 }).finish h r.entry stOk).entry h q = some e :=
        (Dev.entry_endEntry_ne _ h _ _ run).trans ((d.entry_modEntry_ne h _ (by simp) run).trans he)
      exact Dev.endedAs_finish_ok hx hs
  unfold Dev.endEntries
  rw [stop]
  dsimp only
  cases r.preempt with
  | none => exact stopped
  | some p => exact endedAs_finish_of_ended stopped p.1 stWrongState

end endRun

/-! ## Commands on a run (R278–R281, R395) -/

/-- A device without what a command's start and a change of a run touch. -/
def Dev.besidesRun (d : Dev) : Dev :=
  { d with led0 := Ledger.init, led1 := Ledger.init, mg := MgmtS.init, step0 := StepS.init, step1 := StepS.init }

theorem Dev.eq_of_besidesRun {d e : Dev} (k : e.besidesRun = d.besidesRun) :
    e = { d with led0 := e.led0, led1 := e.led1, mg := e.mg, step0 := e.step0, step1 := e.step1 } :=
  congrArg (fun z : Dev => { z with led0 := e.led0, led1 := e.led1, mg := e.mg, step0 := e.step0, step1 := e.step1 }) k

section started
variable {d : Dev} {h : HalfId} {q op : Nat} {e0 : Entry} (s : startable d h q op e0)

theorem Dev.besidesRun_modRun_startEntry (d : Dev) (h : HalfId) (q : Nat) (f : RunS → RunS) :
    ((d.startEntry h q).modRun h f).besidesRun = d.besidesRun :=
  (Dev.modRun_keep Dev.besidesRun (fun _ _ => rfl) (fun _ _ => rfl) _ h f).trans
    (Dev.startEntry_keep Dev.besidesRun (fun _ _ => rfl) (fun _ _ => rfl) (fun _ _ => rfl) d h q)

@[simp] theorem Dev.stepc_startEntry (d : Dev) (h : HalfId) (q : Nat) : (d.startEntry h q).stepc h = d.stepc h :=
  Dev.stepc_of_ctl h (Dev.ctl_of_besidesLedger (by simp))

@[simp] theorem Dev.memOf_startEntry (d : Dev) (h : HalfId) (q : Nat) : (d.startEntry h q).memOf = d.memOf :=
  Dev.memOf_of_besidesLedger (by simp)

@[simp] theorem Dev.memOf_finish (d : Dev) (h : HalfId) (q st : Nat) : (d.finish h q st).memOf = d.memOf :=
  Dev.memOf_of_besidesLedger (by simp)

@[simp] theorem Dev.memOf_modEntry (d : Dev) (h : HalfId) (q : Nat) (f : Entry → Entry) : (d.modEntry h q f).memOf = d.memOf :=
  Dev.memOf_of_besidesLedger (by simp)

theorem Dev.stepc_finish (d : Dev) (h : HalfId) (q st : Nat) : (d.finish h q st).stepc h = d.stepc h :=
  Dev.stepc_of_ctl h (Dev.ctl_of_besidesLedger (by simp))

include s

theorem startable.isStarted_modRun (f : RunS → RunS) : isStarted ((d.startEntry h q).modRun h f) h q :=
  ⟨_, (Dev.entry_of_books h q (by simp)).trans (startable.started s), rfl⟩

theorem startable.endedAs_finish (st : Nat) : endedAs ((d.startEntry h q).finish h q st) h q (if st = stOk then 3 else 4) st :=
  Dev.finish_endedAs st (startable.started s) (Nat.lt_succ_self 2)

end started

/-- A PREEMPT that is done: PREEMPTED shows at the RUN entry, the PREEMPT entry ends OK, the run is paused and its units are held. -/
def Dev.pauseRun (d : Dev) (h : HalfId) (r : RunS) (q tl : Nat) : Dev :=
  ((((d.event E.DEV_STEP_PREEMPTED (d.stepAdd h)).modEntry h r.entry fun e => { e with status := stPreempted }).finish h q stOk).modRun h fun r =>
    { r with preempt := none, paused := some tl }).holdScope h true

section preempt
variable {d : Dev} {h : HalfId} {r : RunS} (hr : (d.stepc h).run = some r)
include hr

theorem Dev.preempt_eq {q : Nat} {e0 : Entry} (s : startable d h q 0x05 e0) : d.preempt h q =
    if r.preempt.isSome then (d.startEntry h q).finish h q stWrongState
    else (d.startEntry h q).modRun h fun r => { r with preempt := some (q, e0.when_) } := by
  refine (Dev.begin_eq _ s).trans ?_
  rw [Dev.stepc_startEntry, hr]

theorem Dev.preemptDone_eq {q tl : Nat} (preempt : r.preempt = some (q, tl)) (passes : r.passes = []) (replay : r.replay = []) :
    d.preemptDone h = (d.setScope (d.halfScope h) 5 0).pauseRun h r q tl := by
  unfold Dev.preemptDone Dev.pauseRun
  rw [hr, Dev.stepAdd_of_ctl h (d.ctl_setScope _ _ _)]
  dsimp only
  rw [preempt]
  exact if_neg (by simp [passes, replay])

theorem Dev.resume_eq {q : Nat} {e0 : Entry} (s : startable d h q 0x06 e0) (hold : (d.stepc h).hold = false) : ∃ b : Dev,
    b = ((((d.startEntry h q).setScope ((d.startEntry h q).halfScope h) 4 0).modEntry h r.entry fun e => { e with status := 0 }).modRun h fun r' =>
      { r' with paused := none, start := if r'.sa.isSome then r'.start else r'.start + (e0.when_ - r.paused.getD e0.when_) }) ∧
    d.resume h q = (b.fset F.DEV_STEP_SEAL_TALLY (b.fget F.DEV_STEP_SEAL_TALLY (d.stepAdd h) + (e0.when_ - r.paused.getD e0.when_))
      (d.stepAdd h)).finish h q stOk := by
  have add : (d.startEntry h q).stepAdd h = d.stepAdd h := Dev.stepAdd_of_ctl h (Dev.ctl_of_besidesLedger (by simp))
  refine ⟨_, rfl, (Dev.begin_eq _ s).trans ?_⟩
  dsimp only
  rw [Dev.stepc_startEntry, hr]
  dsimp only
  rw [if_neg (by rw [hold]; decide), add]

end preempt

section stop
variable {d : Dev} {h : HalfId} {q : Nat} {e0 : Entry} (s : startable d h q 0x07 e0)
include s

/-- STOP begins in the mode its entry names. -/
theorem Dev.beginStop_eq {mode : Nat} (hmode : e0.arg 24 1 = mode) (k : Dev → Dev) : d.beginStop h q mode k = k (d.startEntry h q) := by
  have begun := Dev.begin_eq (fun d _ => k d) s
  obtain ⟨entry, -⟩ := s
  unfold Dev.beginStop
  rw [entry]
  dsimp only
  rw [if_pos hmode, begun]

theorem Dev.stopAtEnd_eq (mode : e0.arg 24 1 = 0) {r : RunS} (hr : (d.stepc h).run = some r) : d.stopAtEnd h q =
    if r.stop.isSome then (d.startEntry h q).finish h q stWrongState
    else if r.sa.isNone then
      (((d.startEntry h q).modRun h fun r => { r with stop := some q }).modStep h fun s => { s with hold := false }).endRun h stOk
    else (d.startEntry h q).modRun h fun r => { r with stop := some q } := by
  refine (Dev.beginStop_eq s mode _).trans ?_
  rw [Dev.stepc_startEntry, hr]

theorem Dev.stopNow_idle (mode : e0.arg 24 1 = 1) (hr : (d.stepc h).run = none) : d.stopNow h q = (d.startEntry h q).unpause h q := by
  refine (Dev.beginStop_eq s mode _).trans ?_
  rw [Dev.stepc_startEntry, hr]

/-- The attempt that STOP_NOW abandons. -/
def Dev.abandonAttempt (d : Dev) (h : HalfId) (r : RunS) : Dev :=
  if r.sa.isSome then ((d.failAttempt h stAbandoned none).endAttempt h stAbandoned false).tellHolders h false false 0 else d

theorem Dev.stopNow_eq (mode : e0.arg 24 1 = 1) {r : RunS} (hr : (d.stepc h).run = some r) : d.stopNow h q =
    ((((d.startEntry h q).abandonAttempt h r).modStep h fun s => { s with hold := false }).endRun h stOk).finish h q stOk := by
  refine (Dev.beginStop_eq s mode _).trans ?_
  rw [Dev.stepc_startEntry, hr]
  rfl

end stop

theorem Dev.run_endRun (d : Dev) (h : HalfId) (st : Nat) : ((d.endRun h st).stepc h).run = none := by
  cases hr : (d.stepc h).run with
  | none =>
    unfold Dev.endRun
    rw [hr]
    exact hr
  | some r => rw [Dev.endRun_eq hr, Dev.stepc_unloadRun]

section endRun
variable {d : Dev} {h : HalfId} {r : RunS} (hr : (d.stepc h).run = some r) (st : Nat)
include hr

theorem Dev.half_endRun (alive : d.half h ≠ 7) : (d.endRun h st).half h = 3 := by
  have state : ¬ unitKey ((stateField h).key 0) := by
    cases h <;> simp only [unitKey, stateField, Fld.key, F.DEV_STATE_STATE_E, F.DEV_STATE_STATE_W] <;> simp
  rw [Dev.endRun_eq hr]
  refine Dev.half_unloadRun _ h ?_
  rwa [Dev.half_congr h (Dev.regs_of_besidesLedger (Dev.besidesLedger_endEntries _ h r st)), Dev.half_of_regs h (d.regs_cleanRun h r state)]

theorem Dev.memOf_endRun : (d.endRun h st).memOf = d.memOf := by
  rw [Dev.endRun_eq hr, Dev.memOf_unloadRun, Dev.memOf_of_besidesLedger (Dev.besidesLedger_endEntries _ h r st), Dev.memOf_cleanRun]

theorem Dev.endedAs_endRun {q : Nat} {e : Entry} (he : d.entry h q = some e) (hs : e.state < 3) (stop : r.stop = some q) :
    endedAs (d.endRun h stOk) h q 3 0 := by
  rw [Dev.endRun_eq hr]
  exact Dev.endedAs_of_books h (Dev.books_unloadRun _ h)
    (Dev.endedAs_endEntries _ h r ((Dev.entry_of_books h q (Dev.books_cleanRun _ h r)).trans he) hs stop)

/-- The end of a run leaves the step registers but the phase. -/
theorem Dev.regs_endRun {k : Nat} (hk : k ∉ stateKeys) (unit : ¬ unitKey k) (phase : F.DEV_STEP_STATUS_PHASE.key (d.stepAdd h) ≠ k) :
    fmGet (d.endRun h st).regs k = fmGet d.regs k := by
  have entries := Dev.besidesLedger_endEntries (d.cleanRun h r) h r st
  rw [Dev.endRun_eq hr, Dev.regs_unloadRun _ h hk, Dev.regs_of_besidesLedger entries, Dev.regs_cleanRun _ h r unit]
  rwa [Dev.stepAdd_of_ctl h (Dev.ctl_of_besidesLedger entries), Dev.stepAdd_of_ctl h (Dev.ctl_cleanRun _ h r)]

end endRun

/-! ## What outlives an attempt: N, SEAL_UNKNOWN, the halves' states and tenancy, and that a run goes on (R287, R291) -/

/-- The bit addresses of the halves' states, of split tenancy, and of N and SEAL_UNKNOWN of both step controllers. -/
def lastingKeys : List Nat :=
  [F.DEV_STATE_STATE_W.key 0, F.DEV_STATE_STATE_E.key 0, F.SEC_STATUS_SPLIT.key 0, F.DEV_STEP_NUM_N.key 0, F.DEV_STEP_NUM_N.key (2 ^ 32),
    F.DEV_STEP_EVENT_SEAL_UNKNOWN.key 0, F.DEV_STEP_EVENT_SEAL_UNKNOWN.key (2 ^ 32)]

/-- These registers, and whether each step controller has a run. -/
def Dev.lasting (d : Dev) : List (Option Nat) × Bool × Bool :=
  (lastingKeys.map fun k => fmGet d.regs k, d.step0.run.isSome, d.step1.run.isSome)

/-- Of what outlives an attempt, `d` holds what `b` holds. -/
def lasts (b d : Dev) : Prop := d.lasting = b.lasting

section read
variable {b d : Dev}

theorem lasts.regs (c : lasts b d) {k : Nat} (hk : k ∈ lastingKeys) : fmGet d.regs k = fmGet b.regs k :=
  List.map_inj_left.mp (congrArg (·.1) c) k hk

theorem lasts.half (c : lasts b d) (h : HalfId) : d.half h = b.half h := Dev.half_of_regs h (c.regs (by cases h <;> decide))

theorem lasts.split (c : lasts b d) : d.split = b.split := by
  unfold Dev.split Dev.flag Dev.fget
  rw [c.regs (by decide)]

theorem lasts.stepAdd (c : lasts b d) (h : HalfId) : d.stepAdd h = b.stepAdd h := by
  unfold Dev.stepAdd
  rw [c.split]

theorem lasts.run (c : lasts b d) (h : HalfId) : (d.stepc h).run.isSome = (b.stepc h).run.isSome := by
  have s0 : d.step0.run.isSome = b.step0.run.isSome := congrArg (·.2.1) c
  have s1 : d.step1.run.isSome = b.step1.run.isSome := congrArg (·.2.2) c
  unfold Dev.stepc
  rw [c.split]
  split
  · exact s1
  · exact s0

end read

section lasts
variable {b d : Dev}

theorem lasts.refl (d : Dev) : lasts d d := rfl

theorem lasts.trans {e : Dev} (c : lasts b d) (k : lasts d e) : lasts b e := Eq.trans k c

theorem lasts.ite {p : Prop} {_ : Decidable p} {e : Dev} (c : lasts b d) (k : lasts b e) : lasts b (if p then d else e) := by
  split
  · exact c
  · exact k

theorem lasts.foldl_mem {γ : Type} {f : Dev → γ → Dev} {l : List γ} (step : ∀ x ∈ l, ∀ d, lasts b d → lasts b (f d x)) (c : lasts b d) :
    lasts b (l.foldl f d) := by
  induction l generalizing d with
  | nil => exact c
  | cons x l ih =>
    obtain ⟨hx, hl⟩ := List.forall_mem_cons.mp step
    exact ih hl (hx d c)

theorem lasts.foldl {γ : Type} {f : Dev → γ → Dev} {l : List γ} (step : ∀ x d, lasts b d → lasts b (f d x)) (c : lasts b d) :
    lasts b (l.foldl f d) := c.foldl_mem fun x _ => step x

/-- A change of neither the registers nor the step controllers. -/
theorem lasts.update {e : Dev} (c : lasts b d) (regs : e.regs = d.regs := by rfl) (s0 : e.step0 = d.step0 := by rfl)
    (s1 : e.step1 = d.step1 := by rfl) : lasts b e := by
  unfold lasts Dev.lasting at *
  rw [regs, s0, s1, c]

theorem lasts.ofRegs {e : Dev} (c : lasts b d) (regs : ∀ k ∈ lastingKeys, fmGet e.regs k = fmGet d.regs k) (s0 : e.step0 = d.step0 := by rfl)
    (s1 : e.step1 = d.step1 := by rfl) : lasts b e := by
  unfold lasts Dev.lasting at *
  rw [List.map_congr_left regs, s0, s1, c]

theorem lasts.fset {f : Fld} {v a : Nat} (c : lasts b d) (hk : f.key a ∉ lastingKeys) : lasts b (d.fset f v a) :=
  c.ofRegs fun k mem => d.regs_fset_ne f v a k fun same => hk (same ▸ mem)

theorem lasts.event {v : Ev} {a : Nat} (c : lasts b d) (bit : v.bit.key a ∉ lastingKeys) (cnt : v.cnt.key a ∉ lastingKeys) :
    lasts b (d.event v a) :=
  (c.fset bit).fset cnt

/-- A run that changes stays a run. -/
theorem lasts.modRun {h : HalfId} {f : RunS → RunS} (c : lasts b d) : lasts b (d.modRun h f) := by
  refine Eq.trans ?_ c
  unfold Dev.modRun Dev.modStep Dev.lasting
  split <;> simp

theorem lasts.traceRec {n : Nat} {vs : List Nat} (c : lasts b d) : lasts b (d.traceRec n vs) := c.update (by simp) (by simp) (by simp)
theorem lasts.holdScope {h : HalfId} {v : Bool} (c : lasts b d) : lasts b (d.holdScope h v) :=
  (d.holdScope_keep h Dev.lasting (fun _ _ => rfl) (fun _ _ => rfl) v).trans c
theorem lasts.modEntry {h : HalfId} {q : Nat} {f : Entry → Entry} (c : lasts b d) : lasts b (d.modEntry h q f) :=
  c.update (by simp) (by simp) (by simp)
theorem lasts.endEntry {h : HalfId} {q st n : Nat} (c : lasts b d) : lasts b (d.endEntry h q st n) := c.update (by simp) (by simp) (by simp)
theorem lasts.startEntry {h : HalfId} {q : Nat} (c : lasts b d) : lasts b (d.startEntry h q) := c.update (by simp) (by simp) (by simp)
theorem lasts.sbLog {t s : Nat} {l : List Nat} (c : lasts b d) : lasts b (d.sbLog t s l) :=
  c.ofRegs (fun k mem => d.regs_sbLog t s l k fun dropped => absurd mem (by
    simp only [evKeys, List.mem_cons, List.not_mem_nil, or_false] at dropped
    rcases dropped with rfl | rfl <;> decide)) (by simp) (by simp)
theorem lasts.failAttempt {h : HalfId} {st : Nat} {layer : Option Nat} (c : lasts b d) : lasts b (d.failAttempt h st layer) :=
  (d.failAttempt_keep h st layer Dev.lasting (fun _ _ _ => (lasts.refl _).modRun) (fun _ _ => rfl) (fun _ _ => rfl)).trans c

/-! ### Where the registers that change lie -/

/-- The step registers that phases, the end of an attempt and a preemption set. -/
def phaseFields : List Fld :=
  [F.DEV_STEP_STATUS_PHASE, F.DEV_STEP_STATUS_LAST_STATUS, F.DEV_STEP_STATUS_SKIPS, E.DEV_STEP_POISON.bit, E.DEV_STEP_POISON.cnt,
    E.DEV_STEP_PREEMPTED.bit, E.DEV_STEP_PREEMPTED.cnt]

theorem phaseKey_notMem {f : Fld} (hf : f ∈ phaseFields) (d : Dev) (h : HalfId) : f.key (d.stepAdd h) ∉ lastingKeys := by
  have all : ∀ f ∈ phaseFields, ∀ a ∈ [0, 2 ^ 32], f.key a ∉ lastingKeys := by decide +kernel
  exact all f hf _ (by rcases d.stepAdd_cases h with a | a <;> simp [a])

/-- The bits by layer: COMMIT, and the flags of nonfinite gradients. -/
theorem layerKey_notMem {f : Fld} (hf : f ∈ [F.DEV_STEP_COMMIT_COMMIT, F.FAB_NF_NF]) (d : Dev) (h : HalfId) {l : Nat} (hl : l < 256) :
    f.key (d.stepAdd h + 8 * (l / 64)) ∉ lastingKeys := by
  have all : ∀ f ∈ [F.DEV_STEP_COMMIT_COMMIT, F.FAB_NF_NF], ∀ a ∈ [0, 2 ^ 32], ∀ q < 4, f.key (a + 8 * q) ∉ lastingKeys := by decide +kernel
  exact all f hf _ (by rcases d.stepAdd_cases h with a | a <;> simp [a]) _ (by omega)

theorem Dev.stackOf_lt (d : Dev) (a : Nat) : d.stackOf a < 8 := by
  have low : ∀ n k, bits n 0 k < 2 ^ k := fun n k => Nat.mod_lt _ (Nat.two_pow_pos k)
  unfold Dev.stackOf Dev.stackMap
  extract_lets _ half _ _ w _ w9
  split
  · have two := low w 2
    have side : half ≤ 1 := by
      unfold half
      split <;> decide
    show 4 * half + bits w 0 2 < 8
    omega
  · exact low w9 3

/-- The counters of a stack. -/
theorem stackKey_notMem {f : Fld} (hf : f ∈ [F.STK_RD_BYTES_COUNT, F.STK_WR_BYTES_COUNT, E.STK_POISON_READ.bit, E.STK_POISON_READ.cnt]) (d : Dev)
    (a : Nat) : f.key (stackAdd (d.stackOf a)) ∉ lastingKeys := by
  have all : ∀ f ∈ [F.STK_RD_BYTES_COUNT, F.STK_WR_BYTES_COUNT, E.STK_POISON_READ.bit, E.STK_POISON_READ.cnt], ∀ k < 8,
      f.key (stackAdd k) ∉ lastingKeys := by decide +kernel
  exact all f hf _ (d.stackOf_lt a)

/-- No port's count of units is one of these registers. -/
theorem txUnitsKey_notMem (p : Nat) : F.LNK_TX_UNITS_COUNT.key (portAdd p) ∉ lastingKeys := by
  simp only [lastingKeys, List.mem_cons, List.not_mem_nil, or_false, Fld.key, portAdd, F.LNK_TX_UNITS_COUNT, F.DEV_STATE_STATE_W,
    F.DEV_STATE_STATE_E, F.SEC_STATUS_SPLIT, F.DEV_STEP_NUM_N, F.DEV_STEP_EVENT_SEAL_UNKNOWN]
  omega

/-- A layer's record names it in one byte. -/
theorem layerRec_lt {b i : List Byte} {l : Nat} (found : layerRec b l = some i) : l < 256 := by
  have named := List.find?_some found
  rw [beq_iff_eq] at named
  exact named ▸ leAt_one_lt i 1

theorem updLayers_lt {b : List Byte} {l : Nat} (mem : l ∈ updLayers b) : l < 256 := by
  obtain ⟨-, upd⟩ := List.mem_filter.mp mem
  cases found : layerRec b l with
  | none => simp [found] at upd
  | some i => exact layerRec_lt found

/-! ### The operations -/

theorem lasts.setPhase {h : HalfId} {n : Nat} (c : lasts b d) : lasts b (d.setPhase h n) :=
  .ite (c.fset (phaseKey_notMem (by decide) d h)).traceRec c
theorem lasts.setLayerBit {f : Fld} {h : HalfId} {l : Nat} (hf : f ∈ [F.DEV_STEP_COMMIT_COMMIT, F.FAB_NF_NF]) {e : Dev} (hl : l < 256)
    (c : lasts b d) : lasts b (d.setLayerBit f (e.stepAdd h) l) := c.fset (layerKey_notMem hf e h hl)
theorem lasts.setNf {h : HalfId} {l : Nat} (hl : l < 256) (c : lasts b d) : lasts b (d.setNf h l) :=
  lasts.setLayerBit (f := F.FAB_NF_NF) (by decide) (e := d) hl c
theorem lasts.countStk {a n : Nat} {wr : Bool} (c : lasts b d) : lasts b (d.countStk a n wr) :=
  .ite (c.fset (by cases wr <;> exact stackKey_notMem (by decide) d a)) c
theorem lasts.countRange {a n : Nat} {wr : Bool} {es : List (Nat × RdErr)} (c : lasts b d) : lasts b (d.countRange a n wr es) :=
  .foldl (fun _ _ c => c.countStk) c
theorem lasts.rangeRead {a n : Nat} {es : List (Nat × RdErr)} (c : lasts b d) : lasts b (d.rangeRead a n es) :=
  .foldl (fun _ d c => .ite (c.event (stackKey_notMem (by decide) d _) (stackKey_notMem (by decide) d _)) c) c.countRange
theorem lasts.storeElems {w a : Nat} {vs : List (Option Nat)} (c : lasts b d) : lasts b (d.storeElems w a vs) := by
  unfold Dev.storeElems
  refine .foldl (fun _ _ c => ?_) c
  extract_lets
  split
  · exact c.update
  · exact c.update
theorem lasts.copyIngot {src dst : Nat} (c : lasts b d) : lasts b (d.copyIngot src dst) := by
  unfold Dev.copyIngot
  extract_lets _ cs _ d1 d2
  have c2 : lasts b d2 := c.rangeRead.update
  exact (lasts.foldl (fun _ _ c => c.update) c2).countRange
theorem lasts.copyHeader {h : HalfId} {i : List Byte} {l : Nat} (c : lasts b d) : lasts b (d.copyHeader h i l) := .ite c.copyIngot c
theorem lasts.keepOld {h : HalfId} {l : Nat} (c : lasts b d) : lasts b (d.keepOld h l) := .ite c c.modRun
theorem lasts.layerUpdated {h : HalfId} {l : Nat} (hl : l < 256) (c : lasts b d) : lasts b (d.layerUpdated h l) := by
  unfold Dev.layerUpdated
  extract_lets _ _ _ _ d1
  have c1 : lasts b d1 := c.modRun.update
  exact .ite (lasts.setLayerBit (by decide) hl c1).modEntry c1
theorem lasts.updateDispatch {h : HalfId} {l : Nat} (c : lasts b d) : lasts b (d.updateDispatch h l none) := by
  unfold Dev.updateDispatch
  extract_lets
  split
  · next found =>
    extract_lets _ _ d1
    have c1 : lasts b d1 := .ite (lasts.copyHeader (lasts.keepOld c)) c
    split
    · exact c
    · split
      · exact c
      · split
        · exact (lasts.copyHeader (lasts.keepOld c)).setPhase.layerUpdated (layerRec_lt found)
        · split
          · exact c
          · split
            · exact c
            · extract_lets d2
              have c2 : lasts b d2 := (c1.setPhase.fset (by decide)).fset (by decide)
              exact c2.update
  · exact c
theorem lasts.updateDone {g : Nat} (c : lasts b d) : lasts b (d.updateDone g []) := by
  unfold Dev.updateDone
  extract_lets h _ d0
  split
  · exact c
  · split
    · next found =>
      extract_lets src dst x d1 d2 n r0 low lo hi cols grad m w la pa prec l p poison seed step out touch d3 d4 d5 d6 elems macs d7 k done _ d8 d9
        d10 d11
      have layer := layerRec_lt found
      have touched {e : Dev} {base : Nat} {wr : Bool} (c : lasts b e) : lasts b (touch e base wr) := by
        unfold touch
        extract_lets one e1
        have c1 {e : Dev} {a k : Nat} (c : lasts b e) : lasts b (one e a k) := .ite c.countRange c.rangeRead
        exact c1 (.foldl (fun _ _ c => c1 (c1 c)) c)
      have c2 : lasts b d2 := c.update.fset (by decide)
      have c4 : lasts b d4 := .ite (touched c2).rangeRead (touched c2)
      have c5 : lasts b d5 := .foldl (fun _ _ c => c.storeElems.storeElems) c4
      have c7 : lasts b d7 := ((touched c5.storeElems).fset (by decide)).fset (by decide)
      have c8 : lasts b d8 := c7.update
      have c9 : lasts b d9 := .ite ((c8.event (by decide) (by decide)).setNf layer) c8
      have c10 : lasts b d10 := .ite ((c9.event (by decide) (by decide)).setNf layer) c9
      have c11 : lasts b d11 := .ite (c10.layerUpdated layer) c10
      exact .ite c11.failAttempt (.ite c11.failAttempt c11)
    · exact c.update.fset (by decide)
theorem lasts.drainUpdates {h : HalfId} {n : Nat} (c : lasts b d) : lasts b (d.drainUpdates h n) := by
  induction n generalizing d with
  | zero => exact c
  | succ n ih =>
    unfold Dev.drainUpdates
    extract_lets
    split
    · exact ih c.updateDone
    · split
      · exact c
      · split
        · exact ih c.updateDispatch
        · exact c
theorem lasts.clearUpdates {h : HalfId} (c : lasts b d) : lasts b (d.clearUpdates h) := by
  unfold Dev.clearUpdates
  extract_lets _ mask
  have cleared : lasts b (d.fset F.UPD_STATUS_BUSY (d.fget F.UPD_STATUS_BUSY &&& (0xFFFF - mask))) := c.fset (by decide)
  exact cleared.update
theorem lasts.idleSnapshot {idle0 : List Nat} (c : lasts b d) : lasts b (d.idleSnapshot idle0) := by
  have keys : ∀ k ∈ List.range 11, F.FAB_IDLE_LAST_COUNT.key (8 * k) ∉ lastingKeys := by decide +kernel
  exact c.foldl_mem fun k hk _ c => c.fset (keys k hk)

/-- The end of an attempt (R291, R366, R402). -/
theorem lasts.endAttempt {h : HalfId} {st : Nat} {unknown : Bool} (c : lasts b d) : lasts b (d.endAttempt h st unknown) := by
  unfold Dev.endAttempt
  extract_lets d1 a
  have c1 : lasts b d1 := c.drainUpdates.clearUpdates
  split
  · exact c
  · split
    · exact c1
    · extract_lets _ d2 d3 d4 d5 d6 d7 d8 d9 d10
      have phase {f : Fld} {v : Nat} {e : Dev} (hf : f ∈ phaseFields) (c : lasts b e) : lasts b (e.fset f v a) := c.fset (phaseKey_notMem hf d1 h)
      have c2 : lasts b d2 := c1.modEntry
      have c3 : lasts b d3 := .ite (c2.foldl_mem fun l hl e c => (lasts.setLayerBit (by decide) (e := d1) (updLayers_lt hl) c).modEntry) c2
      have c4 : lasts b d4 := .foldl (fun _ _ c => c.endEntry) c3
      have c6 : lasts b d6 := phase (by decide) (phase (by decide) (phase (by decide) c4))
      have c7 : lasts b d7 := .ite (c6.event (phaseKey_notMem (by decide) d1 h) (phaseKey_notMem (by decide) d1 h)) c6
      have c8 : lasts b d8 := .ite c7 c7.sbLog
      have c9 : lasts b d9 := c8.idleSnapshot.update
      have c10 : lasts b d10 := c9.update
      exact c10.modRun.holdScope

/-! ### The holders are told (R288, R291) -/

theorem lasts.noteDetour {t : Nat} {v : Bool} (c : lasts b d) : lasts b (d.noteDetour t v) :=
  .ite (lasts.update (d := d.event E.FAB_DETOUR) (c.event (by decide) (by decide))) (.ite c.update c)
theorem lasts.sendUnits {p vc cls slot xf : Nat} {sched : Bool} {us : List (Row × Bool)} (c : lasts b d) :
    lasts b (d.sendUnits p sched vc cls slot xf us) := by
  refine Eq.trans (Dev.sendWaiting_keepSent Dev.lasting p (fun d _ => (lasts.refl d).fset (txUnitsKey_notMem p)) (fun _ _ => rfl) (fun _ _ => rfl)
    (fun _ _ => rfl) _ _) (Eq.trans ?_ c)
  rfl
theorem lasts.sendXfer {x : Xfer} {xf vc : Nat} {arr : Option Nat} (c : lasts b d) : lasts b (d.sendXfer x xf vc arr).2 := by
  unfold Dev.sendXfer
  extract_lets
  split
  · exact c
  · exact c.noteDetour.sendUnits
theorem lasts.tellHolders {h : HalfId} {adopt mirroring : Bool} {step : Nat} (c : lasts b d) : lasts b (d.tellHolders h adopt mirroring step) :=
  .foldl (fun _ _ c => c.sendXfer) c
theorem lasts.writeSnapshot {h : HalfId} {units : List (List Byte)} (c : lasts b d) : lasts b (d.writeSnapshot h units) := by
  unfold Dev.writeSnapshot
  split
  · exact .ite c (.foldl (fun _ _ c => c.update.countRange) c)
  · exact c

end lasts

/-! ## Preemption, resumption and stops (R278–R281, R395) -/

theorem Dev.ctl_modEntry (d : Dev) (h : HalfId) (q : Nat) (f : Entry → Entry) : (d.modEntry h q f).ctl = d.ctl :=
  Dev.ctl_of_besidesLedger (by simp)

/-- A change of the RUN entry's status leaves every entry's state. -/
theorem Dev.state_modStatus {d : Dev} {h : HalfId} {q : Nat} {e : Entry} (he : d.entry h q = some e) (p st : Nat) :
    ∃ x, (d.modEntry h p fun e => { e with status := st }).entry h q = some x ∧ x.state = e.state := by
  by_cases same : p = q
  · refine ⟨{ e with status := st }, ?_, rfl⟩
    rw [same, Dev.entry_modEntry _ _ _ _ (by simp), he]
    rfl
  · exact ⟨e, (d.entry_modEntry_ne h _ (by simp) same).trans he, rfl⟩

section preempt
variable {d : Dev} {h : HalfId} {r : RunS} (hr : (d.stepc h).run = some r)
include hr

theorem Dev.preempt_first {q : Nat} {e0 : Entry} (s : startable d h q 0x05 e0) (first : r.preempt = none) {e : Dev} (he : e = d.preempt h q) :
    isStarted e h q ∧ (e.stepc h).run = some { r with preempt := some (q, e0.when_) } ∧
      e = { d with led0 := e.led0, led1 := e.led1, mg := e.mg, step0 := e.step0, step1 := e.step1 } := by
  rw [Dev.preempt_eq hr s, if_neg (by simp [first])] at he
  subst he
  refine ⟨startable.isStarted_modRun s _, ?_, Dev.eq_of_besidesRun (d.besidesRun_modRun_startEntry h q _)⟩
  rw [Dev.run_modRun, Dev.stepc_startEntry, hr, Option.map_some]

theorem Dev.preempt_again {q : Nat} {e0 : Entry} (s : startable d h q 0x05 e0) (again : r.preempt.isSome = true) {e : Dev} (he : e = d.preempt h q) :
    endedAs e h q 4 stWrongState ∧ e = { d with led0 := e.led0, led1 := e.led1, mg := e.mg, out := e.out } := by
  rw [Dev.preempt_eq hr s, if_pos again] at he
  subst he
  exact ⟨startable.endedAs_finish s stWrongState, Dev.eq_of_besidesLedger (by simp)⟩

theorem Dev.run_pauseRun (q tl : Nat) : ((d.pauseRun h r q tl).stepc h).run = some { r with preempt := none, paused := some tl } := by
  unfold Dev.pauseRun
  rw [Dev.stepc_holdScope, Dev.run_modRun, Dev.stepc_finish, Dev.stepc_of_ctl h (Dev.ctl_modEntry _ _ _ _), Dev.stepc_stepEvent _ h (by decide), hr,
    Option.map_some]

omit hr in
theorem Dev.regs_pauseRun (d : Dev) (h : HalfId) (r : RunS) (q tl : Nat) :
    (d.pauseRun h r q tl).regs = (d.event E.DEV_STEP_PREEMPTED (d.stepAdd h)).regs := by
  unfold Dev.pauseRun
  rw [Dev.holdScope_regs, Dev.modRun_regs, Dev.finish_regs, Dev.modEntry_regs]

omit hr in
theorem Dev.half_pauseRun (d : Dev) (h : HalfId) (r : RunS) (q tl : Nat) : (d.pauseRun h r q tl).half h = d.half h :=
  (Dev.half_congr h (d.regs_pauseRun h r q tl)).trans
    (((lasts.refl d).event (phaseKey_notMem (by decide) d h) (phaseKey_notMem (by decide) d h)).half h)

omit hr in
theorem Dev.memOf_pauseRun (d : Dev) (h : HalfId) (r : RunS) (q tl : Nat) : (d.pauseRun h r q tl).memOf = d.memOf := by
  unfold Dev.pauseRun
  rw [Dev.memOf_holdScope, Dev.memOf_modRun, Dev.memOf_finish, Dev.memOf_modEntry, Dev.memOf_event]

omit hr in
/-- The entries are those after the two changes. -/
theorem Dev.entry_pauseRun (d : Dev) (h : HalfId) (r : RunS) (q tl p : Nat) : (d.pauseRun h r q tl).entry h p =
    (((d.event E.DEV_STEP_PREEMPTED (d.stepAdd h)).modEntry h r.entry fun e => { e with status := stPreempted }).finish h q stOk).entry h p := by
  unfold Dev.pauseRun
  exact Dev.entry_of_books h p ((Dev.books_holdScope _ _ _).trans (Dev.books_modRun _ _ _))

omit hr in
theorem Dev.entry_preemptedEvent (d : Dev) (h : HalfId) (p : Nat) : (d.event E.DEV_STEP_PREEMPTED (d.stepAdd h)).entry h p = d.entry h p :=
  Dev.entry_of_books h p (d.books_stepEvent h (by decide))

omit hr in
theorem Dev.endedAs_pauseRun {d : Dev} {h : HalfId} {r : RunS} {q : Nat} {x : Entry} (tl : Nat) (hx : d.entry h q = some x) (open_ : x.state < 3)
    (other : q ≠ r.entry) : endedAs (d.pauseRun h r q tl) h q 3 0 := by
  have kept : ((d.event E.DEV_STEP_PREEMPTED (d.stepAdd h)).modEntry h r.entry fun e => { e with status := stPreempted }).entry h q = some x :=
    (Dev.entry_modEntry_ne _ h _ (by simp) other.symm).trans ((d.entry_preemptedEvent h q).trans hx)
  obtain ⟨z, hz, fields⟩ := Dev.endedAs_finish_ok kept open_
  exact ⟨z, (d.entry_pauseRun h r q tl q).trans hz, fields⟩

omit hr in
theorem Dev.preempted_pauseRun {d : Dev} {h : HalfId} {r : RunS} {q : Nat} {y : Entry} (tl : Nat) (hy : d.entry h r.entry = some y)
    (other : q ≠ r.entry) : ∃ z, (d.pauseRun h r q tl).entry h r.entry = some z ∧ z.status = stPreempted ∧ z.state = y.state := by
  refine ⟨{ y with status := stPreempted }, ?_, rfl, rfl⟩
  refine (d.entry_pauseRun h r q tl _).trans ((Dev.entry_endEntry_ne _ h _ _ other).trans ?_)
  rw [Dev.entry_modEntry _ _ _ _ (by simp), Dev.entry_preemptedEvent, hy, Option.map_some]

omit hr in
theorem Dev.heldHalf_pauseRun (d : Dev) (h : HalfId) (r : RunS) (q tl : Nat) : (d.pauseRun h r q tl).heldHalf h = true :=
  Dev.heldHalf_holdScope _ _ _

theorem Dev.preemptDone_pauses {q tl : Nat} {x : Entry} (preempt : r.preempt = some (q, tl)) (passes : r.passes = []) (replay : r.replay = [])
    (alive : d.half h ≠ 7) (hx : d.entry h q = some x) (open_ : x.state < 3) (other : q ≠ r.entry) {e : Dev} (he : e = d.preemptDone h) :
    e.half h = 5 ∧ endedAs e h q 3 0 ∧
      (∀ y, d.entry h r.entry = some y → ∃ z, e.entry h r.entry = some z ∧ z.status = stPreempted ∧ z.state = y.state) ∧
      (e.stepc h).run = some { r with preempt := none, paused := some tl } ∧ e.heldHalf h = true ∧
      e.fget F.DEV_STEP_EVENT_PREEMPTED (d.stepAdd h) = 1 ∧ memSame d e := by
  have half := d.half_setScope h (d.halfScope h) 0 (st := 5) (by decide) (d.mem_halfScope h) alive
  have entries (p : Nat) := Dev.entry_of_books h p (d.books_setScope (d.halfScope h) 0 5)
  have ctl := d.ctl_setScope (d.halfScope h) 0 5
  have run := (congrArg StepS.run (Dev.stepc_of_ctl h ctl)).trans hr
  rw [he, Dev.preemptDone_eq hr preempt passes replay]
  exact ⟨(Dev.half_pauseRun _ h r q tl).trans half, Dev.endedAs_pauseRun tl ((entries q).trans hx) open_ other,
    fun y hy => Dev.preempted_pauseRun tl ((entries _).trans hy) other, Dev.run_pauseRun run q tl, Dev.heldHalf_pauseRun _ h r q tl,
    Dev.fget_stepEvent h (v := E.DEV_STEP_PREEMPTED) (by decide) (Dev.stepAdd_of_ctl h ctl).symm
      ((Dev.regs_pauseRun _ h r q tl).trans (by rw [Dev.stepAdd_of_ctl h ctl])),
    memSame_of_memOf ((Dev.memOf_pauseRun _ h r q tl).trans (d.memOf_setScope _ 0 5))⟩

theorem Dev.resume_does {q : Nat} {e0 : Entry} (s : startable d h q 0x06 e0) (hold : (d.stepc h).hold = false) {e : Dev} (he : e = d.resume h q) :
    e.half h = 4 ∧ endedAs e h q 3 0 ∧
      (∃ r', (e.stepc h).run = some r' ∧ r'.paused = none ∧ r'.passes = r.passes ∧ r'.sa = r.sa ∧
        r'.start = (if r.sa.isSome then r.start else r.start + (e0.when_ - r.paused.getD e0.when_))) ∧
      e.fget F.DEV_STEP_SEAL_TALLY (d.stepAdd h) =
        (d.fget F.DEV_STEP_SEAL_TALLY (d.stepAdd h) + (e0.when_ - r.paused.getD e0.when_)) % 2 ^ 64 ∧ memSame d e := by
  obtain ⟨b, hb, eq⟩ := Dev.resume_eq hr s hold
  rw [eq] at he
  have alive : (d.startEntry h q).half h ≠ 7 := by
    rw [Dev.half_congr h (Dev.startEntry_regs d h q)]
    exact startable.half_ne s (by decide)
  have half : b.half h = 4 := by
    rw [hb, Dev.half_congr h (d := (d.startEntry h q).setScope ((d.startEntry h q).halfScope h) 4 0) (by simp)]
    exact Dev.half_setScope _ h _ 0 (by decide) (Dev.mem_halfScope _ h) alive
  have run : (b.stepc h).run = some { r with paused := none, start := if r.sa.isSome then r.start else r.start + (e0.when_ - r.paused.getD e0.when_) } := by
    rw [hb, Dev.run_modRun, Dev.stepc_of_ctl h (Dev.ctl_modEntry _ _ _ _), Dev.stepc_of_ctl h (Dev.ctl_setScope _ _ _ _), Dev.stepc_startEntry, hr,
      Option.map_some]
  have tally : b.fget F.DEV_STEP_SEAL_TALLY (d.stepAdd h) = d.fget F.DEV_STEP_SEAL_TALLY (d.stepAdd h) := by
    rw [hb, Dev.fget_congr (e := (d.startEntry h q).setScope ((d.startEntry h q).halfScope h) 4 0) (by simp),
      Dev.fget_setScope _ _ _ _ _ _ (by rcases d.stepAdd_cases h with a | a <;> rw [a] <;> decide), Dev.fget_congr (Dev.startEntry_regs d h q)]
  have entry : ∃ x, b.entry h q = some x ∧ x.state = 2 := by
    have started := (Dev.entry_of_books h q (Dev.books_setScope (d.startEntry h q) ((d.startEntry h q).halfScope h) 0 4)).trans (startable.started s)
    obtain ⟨x, hx, state⟩ := Dev.state_modStatus started r.entry 0
    exact ⟨x, by rw [hb, ← hx]; exact Dev.entry_of_books h q (by simp), state⟩
  have mem : b.memOf = d.memOf := by
    rw [hb]
    simp
  have field : F.DEV_STEP_SEAL_TALLY.key (d.stepAdd h) ≠ F.SEC_STATUS_SPLIT.key 0 := stepKey_ne_split h d
  obtain ⟨x, hx, state⟩ := entry
  subst he
  refine ⟨?_, Dev.endedAs_finish_ok ((Dev.entry_of_books h q (Dev.books_fset _ _ field)).trans hx) (by omega),
    ⟨_, (congrArg StepS.run (Dev.stepc_finish _ h q stOk)).trans ((congrArg StepS.run (Dev.stepc_of_ctl h (Dev.ctl_fset _ _ field))).trans run),
      rfl, rfl, rfl, rfl⟩, ?_, memSame_of_memOf (by simp [mem])⟩
  · rw [Dev.half_congr h (Dev.finish_regs _ _ _ _), Dev.half_of_regs h (Dev.regs_fset_ne b _ _ _ _ ?_), half]
    rcases d.stepAdd_cases h with a | a <;> rw [a] <;> cases h <;> decide
  · rw [Dev.fget_congr (Dev.finish_regs _ _ _ _), Dev.fget_fset_self, tally]
    rfl

end preempt

section stop
variable {d : Dev} {h : HalfId} {q : Nat} {e0 : Entry} (s : startable d h q 0x07 e0)
include s

section running
variable (mode : e0.arg 24 1 = 0) {r : RunS} (hr : (d.stepc h).run = some r) {e : Dev} (he : e = d.stopAtEnd h q)
include mode hr he

theorem Dev.stopAtEnd_waits (stop : r.stop = none) (sa : r.sa.isSome = true) : isStarted e h q ∧
    (e.stepc h).run = some { r with stop := some q } ∧
    e = { d with led0 := e.led0, led1 := e.led1, mg := e.mg, step0 := e.step0, step1 := e.step1 } := by
  rw [Dev.stopAtEnd_eq s mode hr, if_neg (by simp [stop]), if_neg (by simp [Option.isNone_eq_false_iff.mpr sa])] at he
  subst he
  refine ⟨startable.isStarted_modRun s _, ?_, Dev.eq_of_besidesRun (d.besidesRun_modRun_startEntry h q _)⟩
  rw [Dev.run_modRun, Dev.stepc_startEntry, hr, Option.map_some]

theorem Dev.stopAtEnd_between (stop : r.stop = none) (sa : r.sa = none) : (e.stepc h).run = none ∧ e.half h = 3 ∧ endedAs e h q 3 0 ∧
    memSame d e := by
  rw [Dev.stopAtEnd_eq s mode hr, if_neg (by simp [stop]), if_pos (by simp [sa])] at he
  have run : ((((d.startEntry h q).modRun h fun r => { r with stop := some q }).modStep h fun s => { s with hold := false }).stepc h).run =
      some { r with stop := some q } := by
    rw [Dev.stepc_modStep, Dev.run_modRun, Dev.stepc_startEntry, hr, Option.map_some]
  have books : (((d.startEntry h q).modRun h fun r => { r with stop := some q }).modStep h fun s => { s with hold := false }).books =
      (d.startEntry h q).books := by simp
  have entry := (Dev.entry_of_books h q books).trans (startable.started s)
  have alive := startable.half_ne s (by decide)
  subst he
  refine ⟨Dev.run_endRun _ h _, Dev.half_endRun run _ ?_, Dev.endedAs_endRun run entry (Nat.lt_succ_self 2) rfl, memSame_of_memOf ?_⟩
  · rwa [Dev.half_congr h (d := d) (by simp)]
  · rw [Dev.memOf_endRun run]
    simp

theorem Dev.stopAtEnd_again (stop : r.stop.isSome = true) : endedAs e h q 4 stWrongState ∧ (e.stepc h).run = some r ∧ memSame d e := by
  rw [Dev.stopAtEnd_eq s mode hr, if_pos stop] at he
  subst he
  refine ⟨startable.endedAs_finish s stWrongState, ?_, memSame_of_memOf (by simp)⟩
  rw [Dev.stepc_finish, Dev.stepc_startEntry, hr]

end running

theorem Dev.stopNow_running (mode : e0.arg 24 1 = 1) {r : RunS} (hr : (d.stepc h).run = some r) {e : Dev} (he : e = d.stopNow h q) :
    (e.stepc h).run = none ∧ e.half h = 3 := by
  rw [Dev.stopNow_eq s mode hr] at he
  have lasting : lasts d ((d.startEntry h q).abandonAttempt h r) :=
    .ite (lasts.refl d).startEntry.failAttempt.endAttempt.tellHolders (lasts.refl d).startEntry
  generalize (d.startEntry h q).abandonAttempt h r = b at *
  obtain ⟨r', run⟩ := Option.isSome_iff_exists.mp ((lasting.run h).trans (by rw [hr]; rfl))
  have run' : ((b.modStep h fun s => { s with hold := false }).stepc h).run = some r' := by rw [Dev.stepc_modStep, run]
  have alive : (b.modStep h fun s => { s with hold := false }).half h ≠ 7 := by
    rw [Dev.half_congr h (Dev.modStep_regs _ _ _), lasting.half h]
    exact startable.half_ne s (by decide)
  subst he
  constructor
  · rw [Dev.stepc_finish, Dev.run_endRun]
  · rw [Dev.half_congr h (Dev.finish_regs _ _ _ _), Dev.half_endRun run' _ alive]

theorem Dev.stopNow_paused (mode : e0.arg 24 1 = 1) (hr : (d.stepc h).run = none) {e : Dev} (he : e = d.stopNow h q) :
    e.half h = 3 ∧ endedAs e h q 3 0 ∧ (e.stepc h).hold = false ∧ memSame d e := by
  rw [Dev.stopNow_idle s mode hr] at he
  unfold Dev.unpause at he
  have alive : ((d.startEntry h q).modStep h fun s => { s with hold := false }).half h ≠ 7 := by
    rw [Dev.half_congr h (d := d) (by simp)]
    exact startable.half_ne s (by decide)
  have entry : (((d.startEntry h q).modStep h fun s => { s with hold := false }).setScope ((d.startEntry h q).halfScope h) 3 0).entry h q = _ :=
    (Dev.entry_of_books h q (by simp)).trans (startable.started s)
  subst he
  refine ⟨?_, Dev.endedAs_finish_ok entry (Nat.lt_succ_self 2), ?_, memSame_of_memOf (by simp)⟩
  · rw [Dev.half_congr h (Dev.finish_regs _ _ _ _)]
    exact Dev.half_setScope _ h _ 0 (by decide) (Dev.mem_halfScope _ h) alive
  · rw [Dev.stepc_finish, Dev.stepc_of_ctl h (Dev.ctl_setScope _ _ _ _), Dev.stepc_modStep]

end stop

/-! ## The rounds of the seal (R286–R292, R365) -/

/-- The end of a run leaves N and SEAL_UNKNOWN. -/
theorem Dev.fget_endRun (d : Dev) (h : HalfId) (st : Nat) {f : Fld} {a : Nat} (hf : f ∈ [F.DEV_STEP_NUM_N, F.DEV_STEP_EVENT_SEAL_UNKNOWN])
    (ha : a = 0 ∨ a = 2 ^ 32) : (d.endRun h st).fget f a = d.fget f a := by
  have place : ∀ f ∈ [F.DEV_STEP_NUM_N, F.DEV_STEP_EVENT_SEAL_UNKNOWN], ∀ a ∈ [0, 2 ^ 32], f.key a ∈ lastingKeys ∧ f.key a ∉ stateKeys ∧
      ¬ unitKey (f.key a) := by
    unfold unitKey
    decide +kernel
  obtain ⟨lasting, state, unit⟩ := place f hf a (by rcases ha with a | a <;> simp [a])
  cases hr : (d.stepc h).run with
  | none =>
    unfold Dev.endRun
    rw [hr]
  | some r =>
    refine congrArg (·.getD f.rst) (Dev.regs_endRun hr st state unit fun same => phaseKey_notMem (by decide) d h (same ▸ lasting))

theorem numKey_mem {a : Nat} (ha : a = 0 ∨ a = 2 ^ 32) : F.DEV_STEP_NUM_N.key a ∈ lastingKeys := by
  rcases ha with a | a <;> rw [a] <;> decide

/-- A seal raises N by one (R288). -/
theorem Dev.fget_num_seal (d : Dev) (h : HalfId) (ls : List Nat) :
    (d.seal h ls).fget F.DEV_STEP_NUM_N (d.stepAdd h) = (d.stepNum h + 1) % 2 ^ 64 := by
  have mem := numKey_mem (d.stepAdd_cases h)
  unfold Dev.seal
  extract_lets b a n mir d1 d2 d3 d4
  have num : d4.fget F.DEV_STEP_NUM_N a = (n + 1) % 2 ^ 64 :=
    (Dev.fget_congr (Dev.modStep_regs _ _ _) _ _).trans (Dev.fget_fset_self _ _ _ _)
  split
  · exact (congrArg (·.getD F.DEV_STEP_NUM_N.rst) ((lasts.refl d4).writeSnapshot.regs mem)).trans num
  · exact num

/-- A run whose failure is one of nonfinite or poisoned values. -/
def RunS.nonfinite (r : RunS) : Bool := r.fail == some stNonfinite || r.fail == some stPoison

/-- The contribution to a seal round has gone out, and the run notes the round. -/
def Dev.sealVoted (d : Dev) (h : HalfId) (r : RunS) : Dev :=
  (d.contribute (d.tagOf h) (d.sealId h) (d.jobSize h) (d.sealReady h r) r.nonfinite (r.fail.isSome && !r.nonfinite)).modRun h fun r =>
    { r with roundVoted := some (d.fget F.DEV_STEP_STATUS_ROUND (d.stepAdd h)) }

section sealing
variable (d : Dev) {h : HalfId} {r : RunS} (hr : (d.stepc h).run = some r) (sa : r.sa.isSome = true) (paused : r.paused = none)
include hr

theorem Dev.sealVote_closed (closed : r.roundVoted = some (d.fget F.DEV_STEP_STATUS_ROUND (d.stepAdd h)) ∨
    d.fget F.DEV_STEP_SEAL_TALLY (d.stepAdd h) < d.now + voteTicks (d.imageBytes h)) : d.sealVote h = d := by
  unfold Dev.sealVote
  rw [hr]
  refine if_pos ?_
  rcases closed with voted | late
  · simp [voted]
  · simp [late]

include sa paused

theorem Dev.sealVote_open (unvoted : r.roundVoted ≠ some (d.fget F.DEV_STEP_STATUS_ROUND (d.stepAdd h)))
    (early : d.now + voteTicks (d.imageBytes h) ≤ d.fget F.DEV_STEP_SEAL_TALLY (d.stepAdd h)) :
    d.sealVote h = if d.sealReady h r || r.fail.isSome then (d.sealVoted h r).setPhase h 11 else d.sealVoted h r := by
  unfold Dev.sealVote
  rw [hr]
  exact if_neg (by simp [Option.isNone_eq_false_iff.mpr sa, paused, unvoted, Nat.not_lt.mpr early])

/-- The open vote of a round: the contribution goes out, the run notes the round, and a step phase may begin. -/
theorem Dev.sealVote_votes (unvoted : r.roundVoted ≠ some (d.fget F.DEV_STEP_STATUS_ROUND (d.stepAdd h)))
    (early : d.now + voteTicks (d.imageBytes h) ≤ d.fget F.DEV_STEP_SEAL_TALLY (d.stepAdd h)) {e : Dev} (he : e = d.sealVote h) :
    (e.stepc h).run = some { r with roundVoted := some (d.fget F.DEV_STEP_STATUS_ROUND (d.stepAdd h)) } ∧
    (∃ v, e.fab.votes = d.fab.votes ++ [v] ∧ v.count = 1 ∧ v.id.toNat = d.sealId h % 2 ^ 32 ∧ v.vand = d.sealReady h r ∧
      (v.or0 = true ↔ r.fail = some stNonfinite ∨ r.fail = some stPoison) ∧
      (v.or1 = true ↔ r.fail.isSome = true ∧ r.fail ≠ some stNonfinite ∧ r.fail ≠ some stPoison)) ∧ memSame d e := by
  rw [Dev.sealVote_open d hr sa paused unvoted early] at he
  have phase {β : Type} (g : Dev → β) (hg : ∀ c : Dev, g (c.setPhase h 11) = g c) : g e = g (d.sealVoted h r) := by
    rw [he]
    split
    · exact hg _
    · rfl
  obtain ⟨v, votes, id, one, vand, or0, or1⟩ := d.votes_contribute (d.tagOf h) (d.sealId h) (d.jobSize h) (d.sealReady h r) r.nonfinite
    (r.fail.isSome && !r.nonfinite)
  refine ⟨?_, ⟨v, ?_, one, id, vand, by simp [or0, RunS.nonfinite], by simp [or1, RunS.nonfinite]⟩, memSame_of_memOf ?_⟩
  · rw [Dev.stepc_of_ctl h (phase Dev.ctl fun c => c.ctl_setPhase h 11), Dev.sealVoted, Dev.run_modRun,
      Dev.stepc_of_ctl h (Dev.ctl_contribute _ _ _ _ _ _ _), hr, Option.map_some]
  · rw [phase Dev.fab fun c => c.setPhase_fab h 11, Dev.sealVoted, Dev.modRun_fab, votes]
  · rw [phase Dev.memOf fun c => c.memOf_setPhase h 11, Dev.sealVoted, Dev.memOf_modRun, Dev.memOf_contribute]

section round
variable (due : d.fget F.DEV_STEP_SEAL_TALLY (d.stepAdd h) ≤ d.now) (moved : Bool)
include due

/-- A round's tick with no result: the run ends, unknown. -/
theorem Dev.sealRound_unknown (none_ : d.fabResult (d.tagOf h) (d.sealId h) = none) {e : Dev} (he : e = d.sealRound h moved) :
    (e.stepc h).run = none ∧ e.fget F.DEV_STEP_EVENT_SEAL_UNKNOWN (d.stepAdd h) = 1 := by
  unfold Dev.sealRound at he
  rw [hr] at he
  dsimp only at he
  rw [if_neg (by simp [Option.isNone_eq_false_iff.mpr sa, paused, due]), none_] at he
  have last : lasts (d.event E.DEV_STEP_SEAL_UNKNOWN (d.stepAdd h)) ((d.event E.DEV_STEP_SEAL_UNKNOWN (d.stepAdd h)).endAttempt h stTimeout true) :=
    (lasts.refl _).endAttempt
  have sent {β : Type} (g : Dev → β) (hg : ∀ c : Dev, g (c.sendLoss h none) = g c) :
      g e = g (((d.event E.DEV_STEP_SEAL_UNKNOWN (d.stepAdd h)).endAttempt h stTimeout true).endRun h stTimeout) := by
    rw [he]
    dsimp only
    split
    · exact hg _
    · rfl
  constructor
  · rw [Dev.stepc_of_ctl h (sent Dev.ctl fun _ => rfl), Dev.run_endRun]
  · rw [sent (·.fget F.DEV_STEP_EVENT_SEAL_UNKNOWN (d.stepAdd h)) fun _ => rfl, Dev.fget_endRun _ h _ (by decide) (d.stepAdd_cases h)]
    have event : (d.event E.DEV_STEP_SEAL_UNKNOWN (d.stepAdd h)).fget F.DEV_STEP_EVENT_SEAL_UNKNOWN (d.stepAdd h) = 1 :=
      Dev.fget_stepEvent h (v := E.DEV_STEP_SEAL_UNKNOWN) (e := d) (by decide) rfl rfl
    refine Eq.trans (congrArg (·.getD F.DEV_STEP_EVENT_SEAL_UNKNOWN.rst) (last.regs ?_)) event
    rcases d.stepAdd_cases h with a | a <;> rw [a] <;> decide

variable {v : VoteEntry} (result : d.fabResult (d.tagOf h) (d.sealId h) = some v) (or0 : v.or0 = false) (or1 : v.or1 = false)
include result or0 or1

/-- Not all in favour, and a round is left: the next one comes a stride later. -/
theorem Dev.sealRound_next (vand : v.vand = false) (left : d.fget F.DEV_STEP_STATUS_ROUND (d.stepAdd h) + 1 < sealRounds (d.imageBytes h)) :
    d.sealRound h moved = ((d.dropResult (d.tagOf h) (d.sealId h)).fset F.DEV_STEP_STATUS_ROUND
        (d.fget F.DEV_STEP_STATUS_ROUND (d.stepAdd h) + 1) (d.stepAdd h)).fset F.DEV_STEP_SEAL_TALLY
      (d.fget F.DEV_STEP_SEAL_TALLY (d.stepAdd h) + sealStride (d.imageBytes h)) (d.stepAdd h) := by
  unfold Dev.sealRound
  rw [hr]
  dsimp only
  rw [if_neg (by simp [Option.isNone_eq_false_iff.mpr sa, paused, due]), result]
  dsimp only
  rw [if_neg (by simp [or0, or1]), if_neg (by simp [vand]), if_pos left]

/-- All in favour: the attempt has ended, and N counts it. -/
theorem Dev.sealRound_seals (vand : v.vand = true) : (d.sealRound h moved).fget F.DEV_STEP_NUM_N (d.stepAdd h) =
    (d.fget F.DEV_STEP_NUM_N (d.stepAdd h) + 1) % 2 ^ 64 := by
  have ended : lasts d (((d.dropResult (d.tagOf h) (d.sealId h)).setPhase h 10).endAttempt h stOk false) :=
    ((lasts.refl d).update (e := d.dropResult (d.tagOf h) (d.sealId h))).setPhase.endAttempt
  have num := Dev.fget_num_seal (((d.dropResult (d.tagOf h) (d.sealId h)).setPhase h 10).endAttempt h stOk false) h r.updated
  rw [ended.stepAdd h] at num
  have before : (((d.dropResult (d.tagOf h) (d.sealId h)).setPhase h 10).endAttempt h stOk false).stepNum h =
      d.fget F.DEV_STEP_NUM_N (d.stepAdd h) := by
    unfold Dev.stepNum
    rw [ended.stepAdd h]
    exact congrArg (·.getD F.DEV_STEP_NUM_N.rst) (ended.regs (numKey_mem (d.stepAdd_cases h)))
  rw [before] at num
  unfold Dev.sealRound
  rw [hr]
  dsimp only
  rw [if_neg (by simp [Option.isNone_eq_false_iff.mpr sa, paused, due]), result]
  dsimp only
  rw [if_neg (by simp [or0, or1]), if_pos vand]
  split
  · exact (Dev.fget_endRun _ h _ (by decide) (d.stepAdd_cases h)).trans ((Dev.fget_congr (Dev.modRun_regs _ _ _) _ _).trans num)
  · exact (Dev.fget_congr (Dev.modRun_regs _ _ _) _ _).trans num

end round

end sealing

/-- The next round's registers alone change, besides the result that is used up. -/
theorem Dev.nextRound_does (d : Dev) (h : HalfId) (tag id j tick : Nat) {e : Dev}
    (he : e = ((d.dropResult tag id).fset F.DEV_STEP_STATUS_ROUND j (d.stepAdd h)).fset F.DEV_STEP_SEAL_TALLY tick (d.stepAdd h)) :
    e.fget F.DEV_STEP_STATUS_ROUND (d.stepAdd h) = j % 256 ∧ e.fget F.DEV_STEP_SEAL_TALLY (d.stepAdd h) = tick % 2 ^ 64 ∧
      regsBut [F.DEV_STEP_STATUS_ROUND.key (d.stepAdd h), F.DEV_STEP_SEAL_TALLY.key (d.stepAdd h)] d e ∧
      e = { d with regs := e.regs, fab := e.fab } := by
  subst he
  refine ⟨?_, Dev.fget_fset_self _ _ _ _, fun k hk => ?_, rfl⟩
  · rw [Dev.fget_fset_ne _ _ _ _ _ _ (by simp only [Fld.key, F.DEV_STEP_STATUS_ROUND, F.DEV_STEP_SEAL_TALLY]; omega)]
    exact Dev.fget_fset_self _ _ _ _
  · simp only [List.mem_cons, List.not_mem_nil, or_false, not_or] at hk
    obtain ⟨round, tally⟩ := hk
    rw [Dev.regs_fset_ne _ _ _ _ _ (Ne.symm tally), Dev.regs_fset_ne _ _ _ _ _ (Ne.symm round)]
    rfl

/-- Settles O40: a clause for each command, each rewritten to what it does on the run; what an attempt's end leaves is read through `lasts`. -/
theorem preemptionStopsAndSealRounds : Obligations.PreemptionStopsAndSealRounds := by
  unfold Obligations.PreemptionStopsAndSealRounds
  intro s h live a ha
  subst ha
  refine ⟨fun seq e0 r start hr => ⟨fun first => ?_, fun again => ?_⟩, fun r q tl x hr preempt passes replay alive hx open_ other => ?_,
    fun seq e0 r start hr hold => ?_, fun seq e0 start => ⟨fun mode r hr => ⟨fun stop sa => ?_, fun stop sa _ => ?_, fun stop => ?_⟩,
      fun mode => ⟨fun r hr => ?_, fun hr => ?_⟩⟩, fun r j tick hr sa paused hj htick => ?_⟩
  · exact does_live (fun d => d.preempt h seq.toNat) rfl live (Dev.preempt_first hr start first rfl)
  · exact does_live (fun d => d.preempt h seq.toNat) rfl live (Dev.preempt_again hr start again rfl)
  · exact does_live (fun d => d.preemptDone h) rfl live (Dev.preemptDone_pauses hr preempt passes replay alive hx open_ other rfl)
  · exact does_live (fun d => d.resume h seq.toNat) rfl live (Dev.resume_does hr start hold rfl)
  · exact does_live (fun d => d.stopAtEnd h seq.toNat) rfl live (Dev.stopAtEnd_waits start mode hr rfl stop sa)
  · exact does_live (fun d => d.stopAtEnd h seq.toNat) rfl live (Dev.stopAtEnd_between start mode hr rfl stop sa)
  · exact does_live (fun d => d.stopAtEnd h seq.toNat) rfl live (Dev.stopAtEnd_again start mode hr rfl stop)
  · exact does_live (fun d => d.stopNow h seq.toNat) rfl live (Dev.stopNow_running start mode hr rfl)
  · exact does_live (fun d => d.stopNow h seq.toNat) rfl live (Dev.stopNow_paused start mode hr rfl)
  · subst hj
    subst htick
    refine ⟨fun unvoted early => ?_, fun closed => ?_, fun due => ⟨fun v moved result or0 or1 vand left => ?_,
      fun v moved result or0 or1 vand => ?_, fun moved none_ => ?_⟩⟩
    · exact does_live (fun d => d.sealVote h) rfl live (Dev.sealVote_votes s.dev hr sa paused unvoted early rfl)
    · exact exec_onLive_same (fun d => d.sealVote h) rfl (Dev.sealVote_closed s.dev hr closed)
    · exact does_live (fun d => d.sealRound h moved) rfl live (Dev.nextRound_does s.dev h _ _ _ _
        (Dev.sealRound_next s.dev hr sa paused due moved result or0 or1 vand left))
    · exact does_live (fun d => d.sealRound h moved) rfl live (Dev.sealRound_seals s.dev hr sa paused due moved result or0 or1 vand)
    · exact does_live (fun d => d.sealRound h moved) rfl live (Dev.sealRound_unknown s.dev hr sa paused due moved none_ rfl)

end Sys2Proof.Machine
